-- ==== Sys2Proof/Word.lean ====
section
/-! DEFINITION. Word.lean: the word types and nothing more. A register is 32 bits (R443), a byte 8; addresses, counts and
keys are Nat. -/
namespace Sys2Proof

/-- A register word. -/
abbrev Word := BitVec 32

/-- A byte of memory. -/
abbrev Byte := BitVec 8

end Sys2Proof
end

