-- ==== Sys2Proof/Syntax.lean ====
section
/-! DEFINITION. Syntax.lean: the commands the block takes, one constructor of `Instr` per row of the spec's table of
operations and events, and the data a command carries from outside. -/
namespace Sys2Proof

/-- Who performs a register or memory access: a host port, a device-side block of a partition (7: the module), or the
supervisor (R446 to R448, R453, R465). -/
inductive Src where
  | port (h : Nat)
  | device (part : Nat)
  | supervisor
  deriving DecidableEq, Repr

/-- What the check bits of a line show when it is read (R82, R313, R314). -/
inductive LineErr where
  | clean
  | correctable
  | uncorrectable
  deriving DecidableEq, Repr

/-- A vote record (R290, R410). -/
structure VoteRec where
  stepTag : Nat
  attempt : Nat
  reasons : Nat
  sloc : Nat
  d : Nat
  voters : Nat
  mt : Nat
  deriving DecidableEq, Repr

/-- A decoded picture: size, channels per pixel, and channel values in raster order. Depth 8 or 16 gives integers; depth 32
gives FP32 patterns of values in [0, 1] (R354). -/
structure MediaFrame where
  w : Nat
  h : Nat
  ch : Nat
  depth : Nat
  px : List Nat
  deriving DecidableEq, Repr

/-- What a media core produced from a part (R346 to R350): whether it decoded, the pictures of an image, or the samples of
sound, interleaved, as two's complement words of `bits` bits. -/
structure DecodeResult where
  ok : Bool
  frame : MediaFrame
  bits : Nat
  channels : Nat
  rate : Nat
  pcm : List Nat
  deriving DecidableEq, Repr

/-- A peer's identity flit (R381): module ID, link number 0 to 95, system tag and encryption request. -/
structure Ident where
  peer : Nat
  link : Nat
  tag : Nat
  enc : Bool
  deriving DecidableEq, Repr

/-- A received flit: its 288 bytes on the wire (R377). -/
structure Flit where
  bytes : List Nat
  deriving DecidableEq, Repr

/-- A reduction block (R403): header fields and element patterns of `ebytes` bytes each; no data in an empty block. -/
structure RedBlock where
  stepTag : Nat
  cnt : Nat
  jobId : Nat
  group : Nat
  attempt : Nat
  nan : Bool
  inf : Bool
  skew : Bool
  wireBf16 : Bool
  final : Bool
  contrib : Nat
  block : Nat
  stage : Nat
  nelem : Nat
  ebytes : Nat
  data : List Nat
  deriving DecidableEq, Repr

/-- GO (R399): tag, attempt, include bitmap, groups excluded, rescale, and for each excluded group its slowest module. -/
structure GoMsg where
  stepTag : Nat
  attempt : Nat
  bitmap : Nat
  k : Nat
  rs : Nat
  late : List (Nat × Nat)
  deriving DecidableEq, Repr

/-- Geometry of a context that RING_SEND carries: formats, head size code, tracks (R212). -/
structure RingGeo where
  fk : Nat
  fv : Nat
  dh : Nat
  tracks : Nat
  deriving DecidableEq, Repr

/-- What a packet carries, one alternative per TYPE of R403; BULK carries a checkpoint write, a page of a RING_SEND or its end. -/
inductive Body where
  | write (addr : Nat) (data : List Nat) (poisoned : Bool) (req : Nat)
  | readReq (addr len req : Nat)
  | readRsp (req : Nat) (ok poisoned : Bool) (data : List Nat)
  | ack (req : Nat) (ok : Bool)
  | signal (target ctr inc : Nat)
  | bulkWrite (addr : Nat) (data : List Nat) (req : Nat)
  | bulkPage (ctx : Nat) (geo : RingGeo) (track page off : Nat) (data : List Nat) (req : Nat)
  | bulkEnd (ctx : Nat) (geo : RingGeo) (pg0 npg len posBase posSplit posBase2 : Nat) (rsig : Option (Nat × Nat)) (chunks req : Nat)
  | redUp (b : RedBlock)
  | redDn (b : RedBlock)
  | ready (stepTag module mt : Nat)
  | go (g : GoMsg)
  | vote (r : VoteRec) (excusedBad : Bool)
  | voteResult (r : VoteRec)
  | squash (stepTag attempt : Nat)
  deriving DecidableEq, Repr

/-- A packet (R388, R403). `gate` and `link` (0 to 11) say where it arrived, or by which link it leaves. -/
structure Packet where
  dst : Nat
  src : Nat
  dateline : Bool
  ttl : Nat
  flow : Nat
  gate : Nat
  link : Nat
  body : Body
  deriving DecidableEq, Repr

/-- What the supervisor flash held in its two slots when it left the factory or was last programmed from outside (R470): the
bytes of each image with its header. -/
structure BootResult where
  slotA : List Nat
  slotB : List Nat
  deriving DecidableEq, Repr

/-- The outcome of a domain's tests (R518): its failures in order as test (1 logic, 2 memory), instance and address or signature,
the far windows whose restore failed (R515), and the milliseconds the domain took. -/
structure TestResult where
  failures : List (Nat × (Nat × Nat))
  badWindows : List Nat
  ms : Nat
  deriving DecidableEq, Repr


/-- The commands: one constructor per row of the table of operations and events, those with operands first. -/
inductive Instr where
  /-- REGISTER_WRITE (R14): A write to a register that has no behaviour of its own stores, clears or sets bits according to its access type. -/
  | registerWrite (src : Src) (page : Nat) (off : Nat) (bytes : Nat) (value : Nat)
  /-- RC_READ (R14): A read of an RC field returns its value and then clears it, keeping any increment made in the same cycle. -/
  | rcRead (src : Src) (page : Nat) (off : Nat) (bytes : Nat)
  /-- TIL_SEQ_TAIL_WRITE (R86): A producer's tail write makes new descriptors visible, stamped with TIL_MB; an invalid tail is ignored. -/
  | tilSeqTailWrite (src : Src) (tile : Nat) (value : Nat)
  /-- MMA (R96): An MMA descriptor is checked at issue, multiplies A by B into an accumulator bank and, with OUT = STORE, drains the result. -/
  | mma (tile : Nat) (pos : Nat)
  /-- CONV (R151): A CONV with OP = CONV multiplies the unrolled window matrix by the group weights on the array. -/
  | conv (tile : Nat) (pos : Nat)
  /-- WGRAD (R165): A CONV with OP = WGRAD computes a convolution weight gradient from X and dY. -/
  | wgrad (tile : Nat) (pos : Nat)
  /-- MAXPOOL (R166): A MAXPOOL forms the maximum over each window and optionally writes argmax offsets. -/
  | maxpool (tile : Nat) (pos : Nat)
  /-- AVGPOOL (R168): An AVGPOOL sums each window and multiplies the sum by the reciprocal tap count. -/
  | avgpool (tile : Nat) (pos : Nat)
  /-- MAXPOOL_B (R169): A MAXPOOL_B routes each dY to the input named by the argmax plane, in raster order. -/
  | maxpoolB (tile : Nat) (pos : Nat)
  /-- AVGPOOL_B (R169): An AVGPOOL_B spreads each dY, scaled by the reciprocal count, over the window's inputs. -/
  | avgpoolB (tile : Nat) (pos : Nat)
  /-- S2D (R170): An S2D copies space into depth by factor r, leaving the bits unchanged. -/
  | s2d (tile : Nat) (pos : Nat)
  /-- D2S (R170): A D2S copies depth back into space by factor r, leaving the bits unchanged. -/
  | d2s (tile : Nat) (pos : Nat)
  /-- VCH (R116): A VCH runs its chain of up to eight vector stages for ROWS iterations over streams, registers and accumulator rows. -/
  | vch (tile : Nat) (pos : Nat)
  /-- LNORM_F (R140): A ROW LNORM_F normalises each row and optionally saves μ and r. -/
  | lnormF (tile : Nat) (pos : Nat)
  /-- RMS_F (R140): A ROW RMS_F normalises each row by its RMS and optionally saves r. -/
  | rmsF (tile : Nat) (pos : Nat)
  /-- SOFTMAX_F (R140): A ROW SOFTMAX_F computes the row softmax and optionally saves m and Σ. -/
  | softmaxF (tile : Nat) (pos : Nat)
  /-- LOGSM_F (R140): A ROW LOGSM_F computes the row log-softmax. -/
  | logsmF (tile : Nat) (pos : Nat)
  /-- XENT_F (R140): A ROW XENT_F computes one cross-entropy loss per row. -/
  | xentF (tile : Nat) (pos : Nat)
  /-- LNORM_B (R143): A ROW LNORM_B computes dx, and optionally dγ and dβ, of a layer norm. -/
  | lnormB (tile : Nat) (pos : Nat)
  /-- RMS_B (R143): A ROW RMS_B computes the RMS-norm backward pass. -/
  | rmsB (tile : Nat) (pos : Nat)
  /-- SOFTMAX_B (R143): A ROW SOFTMAX_B computes the softmax backward pass. -/
  | softmaxB (tile : Nat) (pos : Nat)
  /-- LOGSM_B (R143): A ROW LOGSM_B computes the log-softmax backward pass. -/
  | logsmB (tile : Nat) (pos : Nat)
  /-- XENT_B (R143): A ROW XENT_B computes the cross-entropy backward pass. -/
  | xentB (tile : Nat) (pos : Nat)
  /-- ATT_BLOCK (R199): An ATT BLOCK updates the online softmax state for one query block and key block, and at FINAL writes O. -/
  | attBlock (tile : Nat) (pos : Nat)
  /-- ATT_MERGE (R202): An ATT MERGE combines a second softmax state into the state area. -/
  | attMerge (tile : Nat) (pos : Nat)
  /-- BPREP (R233): An ATT BPREP forms Δ for each query row. -/
  | bprep (tile : Nat) (pos : Nat)
  /-- BQ (R233): An ATT BQ accumulates dQ for a query block over a key block. -/
  | bq (tile : Nat) (pos : Nat)
  /-- BKV (R233): An ATT BKV accumulates dK and dV for a key block over a query block. -/
  | bkv (tile : Nat) (pos : Nat)
  /-- MOV (R99): A MOV hands a two-dimensional transfer to the courier engines, which move its bytes. -/
  | mov (tile : Nat) (pos : Nat)
  /-- SYN_FENCE (R104): A SYN FENCE retires once every earlier descriptor has retired, ordering the tile's writes. -/
  | synFence (tile : Nat) (pos : Nat)
  /-- SYN_SIGNAL (R104): A SYN SIGNAL sends INC to a counter of a target tile as a mesh message. -/
  | synSignal (tile : Nat) (pos : Nat)
  /-- SYN_BARRIER (R104): A SYN BARRIER fences and then sends one arrival to a barrier. -/
  | synBarrier (tile : Nat) (pos : Nat)
  /-- SYN_DRAIN (R104): A SYN DRAIN retires when every earlier descriptor, parked ones included, has retired. -/
  | synDrain (tile : Nat) (pos : Nat)
  /-- UPD (R255): A UPD applies one update rule, the carry and working-copy conversion to a range of shard elements. -/
  | upd (tile : Nat) (pos : Nat)
  /-- ROOT_AMAX (R273): A ROOT AMAX merges the maximum magnitude of a statistic block into the root record. -/
  | rootAmax (tile : Nat) (pos : Nat)
  /-- ROOT_INIT (R273): A ROOT INIT forms the initial M0 and X0 blocks of a root iteration. -/
  | rootInit (tile : Nat) (pos : Nat)
  /-- ROOT_TSTEP (R273): A ROOT TSTEP forms the T block of a Newton iteration. -/
  | rootTstep (tile : Nat) (pos : Nat)
  /-- ROOT_PROD (R273): A ROOT PROD multiplies blocks in FP32 and, with LAST, merges the residual. -/
  | rootProd (tile : Nat) (pos : Nat)
  /-- ROOT_TEST (R274): A ROOT TEST counts the iteration and marks the root converged or stalled. -/
  | rootTest (tile : Nat) (pos : Nat)
  /-- DESCRIPTOR_RETIRE (R89): A descriptor whose writes are visible retires, merges its records, increments its SIG counter and advances the head. -/
  | descriptorRetire (tile : Nat) (pos : Nat)
  /-- RESUME (R91): A write of TIL_SEQ_CTL.RESUME retires the rejected descriptor as flushed and restarts issue. -/
  | resume (src : Src) (tile : Nat)
  /-- FLUSH (R92): A write of TIL_SEQ_CTL.FLUSH discards every phased descriptor at or above TIL_SEQ_FLUSH_TAG. -/
  | flush (src : Src) (tile : Nat)
  /-- SEQ_STALL (R93): When the watchdog count expires with the oldest descriptor unissued, the tile raises SEQ_STALL. -/
  | seqStall (tile : Nat)
  /-- IDLE_CLOCK_STOP (R105): After 64 idle compute cycles the tile's compute clock stops. -/
  | idleClockStop (tile : Nat)
  /-- COMPUTE_CLOCK_RESTART (R105): An event that lets a descriptor issue restarts the compute clock once the governor grants the wake. -/
  | computeClockRestart (tile : Nat)
  /-- SRAM_SCRUB (R83): At each scrub interval the patrol scrubber reads and corrects one tile SRAM line. -/
  | sramScrub (site : Nat) (err : LineErr)
  /-- SRAM_INIT_DONE (R84): Tile SRAM zeroing ends, INIT_DONE is set and waiting accesses proceed. -/
  | sramInitDone (site : Nat)
  /-- SPARE_MAP_WRITE (R107): A write to a spare-map entry remaps a logical tile to the spare site and invalidates that site's statistics store. -/
  | spareMapWrite (src : Src) (district : Nat) (column : Nat) (value : Nat)
  /-- BARRIER_ARRIVAL (R104): A barrier arrival at a square is counted, and the barrier releases its participants when BAR_COUNT is reached. -/
  | barrierArrival (tile : Nat)
  /-- SIGNAL_ARRIVAL (R90): A counter signal arriving at a tile or at the step controller increments the named event counter. -/
  | signalArrival (sender : Nat) (target : Nat)
  /-- ACT_LOAD (R136): A write of TIL_ACT_LOAD with GO = 1 starts loading an activation table slot. -/
  | actLoad (src : Src) (tile : Nat) (value : Nat)
  /-- ACT_LOAD_DONE (R136): A table load completes and validates the slot, or marks it invalid. -/
  | actLoadDone (tile : Nat)
  /-- INVAL (R145): A write of TIL_ROW_CTL.INVAL invalidates every statistics entry. -/
  | inval (src : Src) (tile : Nat)
  /-- DEFER_PARK (R216): A valid DEFER descriptor is moved into the deferred queue, or counted in TIL_DEFER_OVF when the queue is full. -/
  | deferPark (tile : Nat) (pos : Nat)
  /-- PARKED_ISSUE (R217): The oldest parked descriptor issues when its waits are met and its units are free. -/
  | parkedIssue (tile : Nat)
  /-- YIELD (R218): A running parked MMA or CONV yields the array at the end of its weight block to window work. -/
  | yield (tile : Nat)
  /-- EXCISE (R220): A write of TIL_BWD_CTL.EXCISE discards the backward work of one micro-batch. -/
  | excise (src : Src) (tile : Nat)
  /-- FROZEN_SKIP (R226): A PHASE 3 descriptor that writes a frozen tensor is skipped on entry to the issue window. -/
  | frozenSkip (tile : Nat) (pos : Nat)
  /-- EXCISE_MAP_DISCARD (R286): A backward descriptor whose micro-batch is excised retires as flushed on entry to the issue window. -/
  | exciseMapDiscard (tile : Nat) (pos : Nat)
  /-- POOL_ENABLE (R177): Setting KVS_POOLn_CTL.EN starts zeroing the pool metadata and building its free list. -/
  | poolEnable (src : Src) (pool : Nat) (value : Nat)
  /-- POOL_INIT_DONE (R177): Pool initialisation ends and INIT_DONE is set. -/
  | poolInitDone (pool : Nat)
  /-- POOL_FREE_READ (R190): A read of KVS_POOLn_FREE latches the pool's reserve, refsum and pin counts. -/
  | poolFreeRead (src : Src) (pool : Nat)
  /-- ALLOC_WAIT_EXPIRE (R186): An allocation still unmet after KVS_ALLOC_WAIT faults the walk or fails the command. -/
  | allocWaitExpire (waiter : Nat)
  /-- KVS_CMD_TAIL_WRITE (R191): A write of KVS_CMD_TAIL makes new store commands visible. -/
  | kvsCmdTailWrite (src : Src) (value : Nat)
  /-- EVICTION (R193): A free list at or below KVS_EVICT_LOW starts visits that evict the lowest-scored eligible pages. -/
  | eviction (pool : Nat)
  /-- DISPATCH (R204): A write of HDD_CTL.GO starts a head dispatch that sorts items and emits descriptors to the tile set. -/
  | dispatch (src : Src)
  /-- DISPATCH_ABORT (R204): A write of HDD_CTL.ABORT stops emission after the current descriptor. -/
  | dispatchAbort (src : Src)
  /-- START (R301): A write of STP_CTL.START enters FWD of STP_OPEN_STEP from IDLE. -/
  | start (src : Src)
  /-- SQUASH (R295): A write of STP_CTL.SQUASH squashes the open step with reason SOFT. -/
  | squash (src : Src)
  /-- STOP (R301): A write of STP_CTL.STOP makes the controller enter IDLE after the next COMMIT. -/
  | stop (src : Src)
  /-- STP_EN_CLEAR (R571): Clearing STP_CTL.EN mid-step squashes the open step and enters IDLE. -/
  | stpEnClear (src : Src)
  /-- VOTE_RESULT (R290): The vote result arrives and the controller computes the norm and gmul, then commits, restages or squashes. -/
  | voteResult (rec : VoteRec)
  /-- MEMORY_READ (R313): A near- or far-memory controller serves a read, correcting or poisoning the line as its check bits require. -/
  | memoryRead (addr : Nat) (len : Nat) (err : LineErr)
  /-- MEMORY_WRITE (R310): A memory controller serves a write request, clearing poison with whole-line good data. -/
  | memoryWrite (addr : Nat) (data : List Nat) (poisoned : Bool)
  /-- FMAX (R316): An atomic FMAX stores the larger of the stored and offered FP32 values. -/
  | fmax (addr : Nat) (value : Nat)
  /-- UADD (R316): An atomic UADD adds as UINT32, sticking at all ones. -/
  | uadd (addr : Nat) (value : Nat)
  /-- OR (R316): An atomic OR ORs the offered bytes into the word. -/
  | or32 (addr : Nat) (value : Nat)
  /-- MEM_SCRUB (R315): At each scrub interval a channel's patrol scrubber reads, corrects or poisons one line. -/
  | memScrub (page : Nat) (channel : Nat) (err : LineErr)
  /-- NEAR_INIT_DONE (R317): A near slice finishes zeroing after power-on and sets INIT_DONE. -/
  | nearInitDone (district : Nat)
  /-- ZERO (R318): A write of FMC_CTL.ZERO starts zero-filling a far channel. -/
  | zero (src : Src) (channel : Nat)
  /-- ZERO_FILL_DONE (R318): A far channel finishes its zero fill. -/
  | zeroFillDone (channel : Nat)
  /-- ARBITRATION_ROUND (R323): A crossing server falls free and the crossing grants the eligible head request with the smallest effective deadline. -/
  | arbitrationRound (crossing : Nat) (server : Nat)
  /-- CROSSING_WDOG (R326): A grant that lasts CRS_WDOG.US resets its holder and raises CROSSING_WDOG. -/
  | crossingWdog (crossing : Nat) (server : Nat)
  /-- QUOTA_WINDOW_END (R325): An urgent-quota window ends, and masked requesters are unmasked. -/
  | quotaWindowEnd (crossing : Nat)
  /-- CRS_QUOTA_WRITE (R330): A write to CRS_QUOTA restarts the window and unmasks every requester. -/
  | crsQuotaWrite (src : Src) (crossing : Nat) (value : Nat)
  /-- STREAM_ENABLE (R331): A write of ING_STR_CTL.EN enables a stream, or disables it and clears RING_FAULT; an invalid ring raises RING_FAULT. -/
  | streamEnable (src : Src) (stream : Nat) (value : Nat)
  /-- ING_STR_TAIL_WRITE (R332): A producer's ring tail write makes records available to the stream. -/
  | ingStrTailWrite (src : Src) (stream : Nat) (value : Nat)
  /-- CURSOR_WRITE (R371): A CURSOR write accepted while EN = 0 and PENDING = 0 sets CURSOR and HEAD. -/
  | cursorWrite (src : Src) (stream : Nat) (value : Nat)
  /-- TAKE_SAMPLE (R338): A stream takes the record at its cursor, checks it and counts it in TAKEN and PENDING. -/
  | takeSample (stream : Nat)
  /-- RING_DRY (R338): A stream waiting at TAIL raises RING_DRY once every ING_DRY_US. -/
  | ringDry (stream : Nat)
  /-- DECODE_TIMEOUT (R344): A decode that passes its budget is abandoned, its core reset, and the sample fails. -/
  | decodeTimeout (kind : Nat) (core : Nat)
  /-- DECODE_DONE (R349): A media core finishes decoding a part, or fails it with DECODE_ERR. -/
  | decodeDone (kind : Nat) (core : Nat) (result : DecodeResult)
  /-- SAMPLE_FAIL (R351): A failed sample is padded out and replaced from the spare pool, or skipped when no spare is left. -/
  | sampleFail (stream : Nat) (take : Nat)
  /-- BAND_WRITE (R355): A resampled band whose source pixels are final is written and signals ING_STR_BAND_SIG. -/
  | bandWrite (stream : Nat) (take : Nat) (idx : Nat) (frames : List MediaFrame)
  /-- TOKENIZE (R358): A tokenizer engine takes a TEXT part and tokenizes it by greedy longest match. -/
  | tokenize (engine : Nat)
  /-- BUCKET_ASSIGN (R361): A sample whose length is known is assigned to a bucket's holding queue, truncated or skipped. -/
  | bucketAssign (stream : Nat) (take : Nat)
  /-- ING_STR_REQ_TAIL_WRITE (R360): A write of ING_STR_REQ_TAIL makes new batch requests visible. -/
  | ingStrReqTailWrite (src : Src) (stream : Nat) (value : Nat)
  /-- BATCH_REQUEST (R362): A batch request at the head of the ring records its mark and fills its rows from the holding queues. -/
  | batchRequest (stream : Nat)
  /-- FILL_WAIT_EXPIRE (R362): ING_FILL_WAIT expires while lookahead blocks a request, and the request closes. -/
  | fillWaitExpire (stream : Nat)
  /-- REQUEST_COMPLETE (R362): Every byte of a batch is visible; the request signals SIG and REQ_HEAD advances. -/
  | requestComplete (stream : Nat)
  /-- LEDGER_LATCH_READ (R342): A read of ING_STR_TAKEN_LO latches all ledger halves at one instant. -/
  | ledgerLatchRead (src : Src) (stream : Nat)
  /-- DICT_ENABLE (R357): Setting TOK_DICTd_CTL.EN starts the dictionary check. -/
  | dictEnable (src : Src) (dict : Nat) (value : Nat)
  /-- DICT_CHECK_DONE (R357): The dictionary check ends and sets VALID or raises DICT_BAD. -/
  | dictCheckDone (dict : Nat)
  /-- EXE_JOB_TAIL_WRITE (R365): A write of EXE_JOB_TAIL makes new encoder jobs visible. -/
  | exeJobTailWrite (src : Src) (core : Nat) (value : Nat)
  /-- ENCODE_JOB (R365): An encoder core takes the next job, checks it and begins encoding its frames. -/
  | encodeJob (core : Nat)
  /-- SLICE_ENCODED (R369): An encoded slice is written as a record to the output ring and EXE_OUT_TAIL advances. -/
  | sliceEncoded (core : Nat) (payload : List Nat) (rowBits : List Nat)
  /-- OUT_HEAD_WRITE (R374): The consumer's write of EXE_OUT_HEAD frees ring space, or is ignored when it passes TAIL. -/
  | outHeadWrite (src : Src) (core : Nat) (value : Nat)
  /-- EXE_ABORT (R369): A write of EXE_CTL.ABORT ends the job after its current slice. -/
  | exeAbort (src : Src) (core : Nat)
  /-- LINK_EN_WRITE (R380): A write of GAT_LNKk_CTL.EN starts link bring-up, or takes the link DOWN. -/
  | linkEnWrite (src : Src) (gate : Nat) (link : Nat) (value : Nat)
  /-- PEER_DETECT (R380): The peer's transmitter is seen on every lane and the link enters TRAIN. -/
  | peerDetect (gate : Nat) (link : Nat)
  /-- TRAIN_CONVERGE (R380): Equalisation converges and the link enters ALIGN. -/
  | trainConverge (gate : Nat) (link : Nat)
  /-- LANE_ALIGN (R380): Lanes are deskewed and FEC is aligned, and the link enters IDENT. -/
  | laneAlign (gate : Nat) (link : Nat) (lanes : Nat)
  /-- IDENT_FLIT (R381): The peer's identity flit arrives and the link becomes ACTIVE or counts a failed attempt. -/
  | identFlit (gate : Nat) (link : Nat) (ident : Ident)
  /-- LINK_STATE_TIMEOUT (R380): A link state that does not complete in 100 ms counts a failed attempt, entering FAULT after eight. -/
  | linkStateTimeout (gate : Nat) (link : Nat)
  /-- LINK_RESTART_DELAY (R380): 10 ms after a failed attempt the link restarts at DETECT. -/
  | linkRestartDelay (gate : Nat) (link : Nat)
  /-- FLIT_RECEIVE (R378): A received flit is FEC-decoded, CRC- and sequence-checked, then accepted or discarded, with credits and ACKs updated. -/
  | flitReceive (gate : Nat) (link : Nat) (flit : Flit)
  /-- NAK_RECEIVE (R378): A received NAK makes the sender resend its held flits from the named SEQ. -/
  | nakReceive (gate : Nat) (link : Nat) (seq : Nat)
  /-- RETRAIN_DONE (R379): A retrain ends; traffic resumes, or a failed retrain takes the link DOWN. -/
  | retrainDone (gate : Nat) (link : Nat) (ok : Bool) (lanes : Nat)
  /-- RETRAIN_WRITE (R382): A write of GAT_LNKk_CTL.RETRAIN retrains an ACTIVE link. -/
  | retrainWrite (src : Src) (gate : Nat) (link : Nat) (value : Nat)
  /-- SEGMENT_TIMEOUT (R385): An encrypted segment not complete after 32 flit times is completed with empty DATA flits. -/
  | segmentTimeout (gate : Nat) (link : Nat)
  /-- PACKET_FORWARD (R388): A routed packet is consumed locally or forwarded over a hashed ACTIVE link of its routing entry. -/
  | packetForward (pkt : Packet)
  /-- WRITE (R390): A remote WRITE packet is performed at the destination and acknowledged, or refused. -/
  | linkWrite (pkt : Packet)
  /-- READ_REQ (R390): A remote READ_REQ packet is served and answered with READ_RSP. -/
  | readReq (pkt : Packet)
  /-- READ_RSP (R390): A READ_RSP packet delivers remote read data to the requesting MOV. -/
  | readRsp (pkt : Packet)
  /-- ACK (R390): An ACK packet acknowledges a remote write end to end. -/
  | ack (pkt : Packet)
  /-- REMOTE_SIGNAL (R389): A SIGNAL packet increments a counter on the destination module. -/
  | remoteSignal (pkt : Packet)
  /-- BULK (R383): A BULK packet delivers checkpoint or RING_SEND data to its destination. -/
  | bulk (pkt : Packet)
  /-- ACK_TIMEOUT (R390): A remote reply missing after GAT_ACK_TIMEOUT faults the MOV with LINK_TIMEOUT. -/
  | ackTimeout (req : Nat)
  /-- ROUTE_DATA_ACCESS (R387): An access to GAT_ROUTE_DATA reads or writes a routing entry and advances GAT_ROUTE_IDX. -/
  | routeDataAccess (src : Src) (write : Bool) (value : Nat)
  /-- TIME_EXCHANGE (R391): At each interval a module exchanges timestamps with its time parent and steps or slews MT. -/
  | timeExchange (t1 : Nat) (t2 : Nat) (t3 : Nat) (t4 : Nat) (ok : Bool)
  /-- GAT_JOB_TAIL_WRITE (R392): A write of GAT_JOB_TAIL makes new reduction jobs visible. -/
  | gatJobTailWrite (src : Src) (value : Nat)
  /-- JOB_TAKE (R392): A gate takes a reduction job, reads its record, checks it and sends its own blocks. -/
  | jobTake (gate : Nat)
  /-- RED_UP (R396): A RED_UP block from a child is matched to its job and added into the stretch or replica sum. -/
  | redUp (pkt : Packet)
  /-- RED_DN (R401): A RED_DN result block is written to the job window and forwarded to every child. -/
  | redDn (pkt : Packet)
  /-- JOB_COMPLETE (R402): A reduction job with every block received stamps its shards, writes its norm slot and signals. -/
  | jobComplete (job : Nat)
  /-- READY (R399): A READY message reaches the coordinator, which fixes the include set when every group is complete. -/
  | ready (pkt : Packet)
  /-- GO (R399): A GO message delivers the include set and rescale; the module writes STP_RESCALE and starts the replica tier. -/
  | go (pkt : Packet)
  /-- VOTE (R410): A child's vote record is combined with the module's own and forwarded up the control tree. -/
  | vote (pkt : Packet)
  /-- SQUASH_NOTICE (R411): A squash notice for the open step and attempt squashes the module with reason REMOTE and is forwarded. -/
  | squashNotice (pkt : Packet)
  /-- NOW (R419): A write of CKP_CTL.NOW requests a capture after the next COMMIT. -/
  | now (src : Src)
  /-- RESTORE (R424): A write of CKP_CTL.RESTORE checks the image header and starts restoring segments. -/
  | restore (src : Src)
  /-- RESTORE_DONE (R424): A restore finishes, sets controller and ledger state and raises CKP_RESTORED. -/
  | restoreDone (image : List Nat)
  /-- CKP_ABORT (R439): A write of CKP_CTL.ABORT ends the running capture, send or restore at its next segment. -/
  | ckpAbort (src : Src)
  /-- ERR_LOG_POP (R431): A write of a matching SEQ to ERR_LOG_POP removes the oldest unread record. -/
  | errLogPop (src : Src) (seq : Nat)
  /-- LOG_DATA0_READ (R431): A read of ERR_LOG_DATA0 latches the rest of the oldest record. -/
  | logData0Read (src : Src)
  /-- ERR_FIRST_REARM (R430): Writing 1 to ERR_FIRST.VALID clears it and re-arms the page's first-error latch. -/
  | errFirstRearm (src : Src) (page : Nat)
  /-- FATAL_CLEAR (R433): Writing 1 to ERR_FATAL.PEND clears the pending fatal error. -/
  | fatalClear (src : Src)
  /-- MT_LO_READ (R440): A read of TIM_MT_LO latches TIM_MT_HI. -/
  | mtLoRead (src : Src)
  /-- CONFIG_REQUEST (R442): A PCIe configuration request is answered with Retry Status until the port is released. -/
  | configRequest (port : Nat) (write : Bool) (off : Nat) (value : Nat)
  /-- BAR4_ACCESS (R444): A host BAR4 access is translated through its aperture entry to device memory, or refused. -/
  | bar4Access (port : Nat) (off : Nat) (write : Bool) (len : Nat) (data : List Nat)
  /-- EVT_FORCE_WRITE (R451): A write of EVT_FORCE raises the named events as hardware would and voids the guarantees. -/
  | evtForceWrite (src : Src) (page : Nat) (value : Nat)
  /-- EVT_EN_WRITE (R451): Setting an EVT_EN bit whose EVT_STS bit is set produces a signal. -/
  | evtEnWrite (src : Src) (page : Nat) (value : Nat)
  /-- IRQ_HOLDOFF_EXPIRE (R452): The interrupt holdoff ends and merged signals are sent as one message. -/
  | irqHoldoffExpire (port : Nat) (vector : Nat)
  /-- VECTOR_UNMASK (R452): Unmasking a vector with its PBA bit set sends one message. -/
  | vectorUnmask (port : Nat) (vector : Nat)
  /-- PAGE_LOCK_WRITE (R453): A PAGE_LOCK write locks the page with a key, or unlocks it with the stored key. -/
  | pageLockWrite (src : Src) (page : Nat) (value : Nat)
  /-- SRST (R450): A write of PAGE_CTL.SRST resets the block's registers and discards its work. -/
  | srst (src : Src) (page : Nat)
  /-- SRST_DONE (R450): A soft reset completes and SRST_BUSY clears. -/
  | srstDone (page : Nat)
  /-- CQ_ENABLE (R455): Setting HPT_CQ_CTL.EN resets HEAD, TAIL and the completion phase. -/
  | cqEnable (port : Nat) (queue : Nat) (value : Nat)
  /-- CQ_DOORBELL (R455): A write of HPT_CQ_TAIL makes new commands available to fetch. -/
  | cqDoorbell (port : Nat) (queue : Nat) (value : Nat)
  /-- CQ_FETCH (R456): The module fetches up to 16 command entries from the queue ring. -/
  | cqFetch (queue : Nat) (entries : List Nat)
  /-- NOP (R457): A NOP command does nothing. -/
  | cqNop (queue : Nat)
  /-- DESC (R457): A DESC command writes the following descriptors into a tile queue, then its tail. -/
  | desc (queue : Nat)
  /-- REGW (R457): A REGW command performs a register write as a BAR0 write from the port. -/
  | regw (queue : Nat)
  /-- COPY (R458): A COPY command issues one or two MOVs to move the bytes. -/
  | copy (queue : Nat)
  /-- WAIT (R457): A WAIT command completes when the named counter meets its value. -/
  | wait (queue : Nat)
  /-- WAIT_TIMEOUT (R457): A WAIT that passes its TIMEOUT completes with status TIMEOUT. -/
  | waitTimeout (queue : Nat)
  /-- CQ_SIGNAL (R457): A SIGNAL command adds INC to a counter. -/
  | cqSignal (queue : Nat)
  /-- CQ_RESUME (R460): A write of HPT_CQ_CTL.RESUME restarts a halted queue at the next command. -/
  | cqResume (port : Nat) (queue : Nat) (value : Nat)
  /-- CQ_FLUSH (R460): A write of HPT_CQ_CTL.FLUSH completes every command up to TAIL as FLUSHED. -/
  | cqFlush (port : Nat) (queue : Nat) (value : Nat)
  /-- WIN_DATA_HI_ACCESS (R462): An access to HPT_WIN_DATA_HI reads or writes a window entry and advances HPT_WIN_IDX. -/
  | winDataHiAccess (src : Src) (port : Nat) (write : Bool) (value : Nat)
  /-- CPL_TIMEOUT (R463): A host read without completion in time faults its MOV and raises CPL_TIMEOUT. -/
  | cplTimeout (req : Nat)
  /-- PCIE_LINK_DOWN (R468): A port's data link goes down and the port detaches. -/
  | pcieLinkDown (port : Nat)
  /-- HOT_RESET (R468): A hot reset detaches the port. -/
  | hotReset (port : Nat)
  /-- FLR (R468): A Function Level Reset detaches the port and resets its host-port registers. -/
  | flr (port : Nat)
  /-- D3HOT_ENTRY (R468): Entry to D3hot detaches the port. -/
  | d3hotEntry (port : Nat)
  /-- PORT_RETURN (R469): A port back up and in D0 raises HOST_BACK and clears ORPHAN. -/
  | portReturn (port : Nat) (rate : Nat) (width : Nat)
  /-- PRT_MAP_WRITE (R466): A write of PRT_MAPd reassigns a district, or is ignored and raises PRT_ERR. -/
  | prtMapWrite (src : Src) (district : Nat) (value : Nat)
  /-- PRT_P_OWNER_WRITE (R466): A write of PRT_P_OWNER changes a partition's owner port under the STOPPED rule. -/
  | prtPOwnerWrite (src : Src) (part : Nat) (value : Nat)
  /-- PRT_FAR_WRITE (R466): A write of a partition's far range is accepted under the STOPPED and validity rules. -/
  | prtFarWrite (src : Src) (part : Nat) (size : Bool) (value : Nat)
  /-- PAGE_OWNER_WRITE (R466): A write of PAGE_OWNER reassigns a page or its feeders under the partition rules. -/
  | pageOwnerWrite (src : Src) (page : Nat) (value : Nat)
  /-- VIO12_APPLY (R483): VIO12 enters range; the AO domain starts and the boot ROM begins verifying the supervisor image. -/
  | vio12Apply (mv : Nat)
  /-- BOOT_DONE (R470): The supervisor image is verified, its digest stored, and the ports released, or RECOVERY is entered. -/
  | bootDone (res : BootResult)
  /-- IMAGE_STAGE (R471): A write of SEC_IMG_CTL.STAGE maps the staging area into BAR4 entry 15. -/
  | imageStage (src : Src)
  /-- IMAGE_PROGRAM (R471): A write of SEC_IMG_CTL.PROGRAM verifies the staged image and writes it to flash. -/
  | imageProgram (src : Src)
  /-- IMG_DONE (R471): Image programming ends, RESULT is set and IMG_DONE is raised. -/
  | imgDone (flashOk : Bool)
  /-- SVN_COMMIT (R471): A write of SEC_SVN_COMMIT raises the fused security version irreversibly. -/
  | svnCommit (src : Src)
  /-- GET_VERSION (R472): An SPDM GET_VERSION request is answered by the supervisor. -/
  | getVersion (port : Nat) (req : List Nat)
  /-- GET_CAPABILITIES (R472): An SPDM GET_CAPABILITIES request is answered. -/
  | getCapabilities (port : Nat) (req : List Nat)
  /-- NEGOTIATE_ALGORITHMS (R472): An SPDM NEGOTIATE_ALGORITHMS request is answered. -/
  | negotiateAlgorithms (port : Nat) (req : List Nat)
  /-- GET_DIGESTS (R472): An SPDM GET_DIGESTS request is answered. -/
  | getDigests (port : Nat) (req : List Nat)
  /-- GET_CERTIFICATE (R472): An SPDM GET_CERTIFICATE request returns the certificate chain. -/
  | getCertificate (port : Nat) (req : List Nat)
  /-- CHALLENGE (R472): An SPDM CHALLENGE request is answered with a signed response. -/
  | challenge (port : Nat) (req : List Nat)
  /-- GET_MEASUREMENTS (R472): An SPDM GET_MEASUREMENTS request returns the image digest and identity. -/
  | getMeasurements (port : Nat) (req : List Nat)
  /-- KEY_EXCHANGE (R472): An SPDM KEY_EXCHANGE request starts a secured session. -/
  | keyExchange (port : Nat) (req : List Nat)
  /-- FINISH (R472): An SPDM FINISH request completes a secured session handshake. -/
  | finish (port : Nat) (req : List Nat)
  /-- END_SESSION (R472): An SPDM END_SESSION request ends a secured session. -/
  | endSession (port : Nat) (req : List Nat)
  /-- IDE_KM (R475): An IDE_KM message in a secured session programs the port's PCIe IDE keys. -/
  | ideKm (port : Nat) (stream : Nat) (msg : List Nat)
  /-- IDE_LOST (R475): An IDE integrity failure takes the stream to Insecure and raises IDE_LOST. -/
  | ideLost (port : Nat) (stream : Nat)
  /-- KEY_LOAD (R473): SEC_KEY_CMD.LOAD writes the staged key and salt into a partition slot and reports the check value. -/
  | keyLoad (src : Src) (value : Nat)
  /-- KEY_ERASE (R473): SEC_KEY_CMD.ERASE zeroes a key slot. -/
  | keyErase (src : Src) (value : Nat)
  /-- LINK_KEY_INSTALL (R474): A write of SEC_LINK_CMD with GO installs a slot key into a link key phase. -/
  | linkKeyInstall (src : Src) (value : Nat)
  /-- SEC_CLEAR (R476): A write of SEC_CLEAR.GO starts clearing every secret and takes encrypted links DOWN. -/
  | secClear (src : Src)
  /-- VANA_APPLY (R483): VANA enters range, letting the converters start, or latching a sequence fault if VIO12 is absent. -/
  | vanaApply (mv : Nat)
  /-- VIN_APPLY (R485): VIN arrives and the input capacitance charges under the inrush limit. -/
  | vinApply (mv : Nat)
  /-- VIN_FAULT (R483): VIN outside 40 to 60 V for 10 µs while converting causes an emergency off. -/
  | vinFault (mv : Nat)
  /-- PWR_RESUME (R505): A write of PWR_CTL.RESUME restarts from PARKED, SHUTDOWN or TRIPPED when the cause is gone. -/
  | pwrResume (src : Src)
  /-- PARK (R503): A write of PWR_CTL.PARK raises a park request and starts the grace period. -/
  | park (src : Src)
  /-- PARK_GO (R503): A write of PWR_CTL.PARK_GO ends the grace period early. -/
  | parkGo (src : Src)
  /-- SHUTDOWN (R506): A write of PWR_CTL.SHUTDOWN starts a park that ends with far memory off. -/
  | shutdown (src : Src)
  /-- DOMAIN_ADMISSION (R493): The governor admits a required domain's turn-on and its rail begins to ramp. -/
  | domainAdmission (domain : Nat)
  /-- DOMAIN_ON (R487): A domain's rail reaches regulation, PWR_ON is set and its blocks start up. -/
  | domainOn (domain : Nat)
  /-- DOMAIN_FAULT (R490): A rail that does not regulate within 1 ms leaves the domain off and raises DOMAIN_FAULT. -/
  | domainFault (domain : Nat)
  /-- DOMAIN_OFF (R488): A domain no longer required turns off once quiescent, losing its contents. -/
  | domainOff (domain : Nat)
  /-- PLL_START (R493): An admitted PLL start begins, separated from the last by PLL_GAP. -/
  | pllStart (pll : Nat)
  /-- PLL_LOCK (R492): A PLL locks and its district or block clock runs. -/
  | pllLock (pll : Nat)
  /-- PLL_UNLOCK (R494): A PLL losing lock stops its domains and logs the fatal PLL_UNLOCK. -/
  | pllUnlock (pll : Nat)
  /-- GOVERNOR_TICK (R495): Each microsecond the governor estimates power, moves the reference and holds back work or runs the filler. -/
  | governorTick (est : Nat) (demand : Nat) (vinCurrent : Nat)
  /-- THERMAL_SAMPLE (R501): Every 10 µs the sensors are read and duty, memory heat and trips are acted on. -/
  | thermalSample (temps : List Nat)
  /-- PARK_N_CHANGE (R503): PARK_N's filtered state changes, raising or withdrawing a park request, or starting a resume. -/
  | parkNChange (level : Bool)
  /-- THROTTLE_N_CHANGE (R499): THROTTLE_N's filtered state changes and the ceiling moves to or from the floor. -/
  | throttleNChange (level : Bool)
  /-- SIDEBAND_NOISE (R553): More than 1,000 transitions in a 1 ms window treat the input as asserted and raise SIDEBAND_NOISE. -/
  | sidebandNoise (pin : Nat)
  /-- NOISE_QUIET (R553): 10 ms without a transition returns a noisy input to its filtered state. -/
  | noiseQuiet (pin : Nat)
  /-- NOISE_WINDOW_END (R553): A 1 ms transition-count window ends and the count restarts. -/
  | noiseWindowEnd (pin : Nat)
  /-- BST_RUN (R521): A write of BST_CTL.RUN starts a DEMAND self-test run when its conditions hold. -/
  | bstRun (src : Src)
  /-- BST_ABORT (R520): A write of BST_CTL.ABORT ends the run after the domain under test. -/
  | bstAbort (src : Src)
  /-- DOMAIN_TEST_DONE (R518): A domain's logic and memory tests end, it is marked passed or failed, and the run moves on. -/
  | domainTestDone (res : TestResult)
  /-- FENCE_CLEAR (R519): Writing 1 to a BST_FENCE bit unfences the domain. -/
  | fenceClear (src : Src) (domain : Nat)
  /-- CLAIM (R525): A write of CHK_CTL.CLAIM withdraws a check unit from, or returns it to, the crossing. -/
  | claim (src : Src) (unit : Nat) (claim : Bool)
  /-- CHK_RESET (R523): A write of CHK_CTL.RESET loads the running value from INIT. -/
  | chkReset (src : Src) (unit : Nat)
  /-- FEED8 (R526): A CHK_FEED8 write feeds one byte to a claimed unit. -/
  | feed8 (src : Src) (unit : Nat) (value : Nat)
  /-- FEED16 (R526): A CHK_FEED16 write feeds two bytes to a claimed unit. -/
  | feed16 (src : Src) (unit : Nat) (value : Nat)
  /-- FEED32 (R526): A CHK_FEED32 write feeds four bytes to a claimed unit. -/
  | feed32 (src : Src) (unit : Nat) (value : Nat)
  /-- VALUE_HI_WRITE (R529): A write of CHK_VALUE_HI loads the running value from both value words. -/
  | valueHiWrite (src : Src) (unit : Nat) (value : Nat)
  /-- CHK_VALUE_LO_READ (R529): A read of CHK_VALUE_LO waits for the feed queue and latches CHK_VALUE_HI. -/
  | chkValueLoRead (src : Src) (unit : Nat)
  /-- CHK_RESULT_LO_READ (R531): A read of CHK_RESULT_LO waits for the feed queue and latches CHK_RESULT_HI. -/
  | chkResultLoRead (src : Src) (unit : Nat)
  /-- FREEZE (R540): A write of DBG_CTL.FREEZE stops or restarts the compute clocks of the tiles in scope. -/
  | freeze (src : Src) (inst : Nat) (on : Bool)
  /-- DBG_STEP (R540): A write of DBG_CTL.STEP runs every frozen tile for one compute cycle. -/
  | dbgStep (src : Src) (inst : Nat)
  /-- PEEK_DATA_ACCESS (R540): An access to DBG_PEEK_DATA reads or writes a word of a frozen tile's internal state. -/
  | peekDataAccess (src : Src) (inst : Nat) (write : Bool) (value : Nat)
  /-- PRIVATE_SCAN (R560): A private instruction reaches internal scan only while KEYS_CLEARED is 1, and otherwise acts as BYPASS. -/
  | privateScan (code : Nat)
  /-- CODEWORD_ALIGNMENT_LOSS (R379): The FEC receiver of an ACTIVE link loses codeword alignment, for example when the peer stops sending, and the link retrains. -/
  | codewordAlignmentLoss (gate : Nat) (link : Nat)
  /-- PERST_N_CHANGE (R442): A host port's PERST# is asserted or deasserted; assertion resets the port and deassertion starts the release of configuration requests within 1.0 s. -/
  | perstNChange (port : Nat) (level : Bool)
  /-- VIN_OUT_OF_RANGE (R485): VIN leaves its operating range without an emergency off, as when the board removes it after park or shut-down, clearing VIN_OK and, beyond 2 V of difference, CHARGED. -/
  | vinOutOfRange (mv : Nat)
  /-- HOST_COMPLETION (R463): A PCIe completion for a read the module issued on a host port arrives, delivering data to the MOV or confirming the visibility of its earlier writes. -/
  | hostCompletion (req : Nat) (data : List Nat)
  /-- SHARE (R192): A SHARE command copies page entries between contexts and adds references. -/
  | sharePages
  /-- FREE (R192): A FREE command clears a range of entries and drops their references. -/
  | freePages
  /-- TRUNCATE (R192): A TRUNCATE command sets LEN and frees the pages beyond it. -/
  | truncate
  /-- FREE_CTX (R192): A FREE_CTX command frees every entry and clears VALID. -/
  | freeCtx
  /-- SET_LEN (R192): A SET_LEN command sets LEN without touching entries. -/
  | setLen
  /-- RING_SEND (R212): A RING_SEND command copies pages to a guest context of another module over the links. -/
  | ringSend
  /-- RING_SEND_COMPLETE (R212): The receiver has every page present, signals RSIG, and the sender completes the command. -/
  | ringSendComplete
  /-- DISPATCH_DONE (R204): The last descriptor of a dispatch is written, BUSY clears and DISPATCH_DONE is raised. -/
  | dispatchDone
  /-- PHASE_END (R282): A controller counter that reaches its target ends the phase and the next phase begins. -/
  | phaseEnd
  /-- UPDATE_COMPLETE (R284): UPDATE of the previous step completes and its gradient multiplier validity is cleared. -/
  | updateComplete
  /-- CHECK_OPEN (R288): CHECK opens: staged scales are computed, S_loc is formed and run-ahead is enabled. -/
  | checkOpen
  /-- LOCAL_VERDICT (R289): Once the step's work has drained, the controller forms the local verdict and sends its vote record. -/
  | localVerdict
  /-- FLUSH_COMPLETE (R296): When every tile reports its flush complete, the squash or restage resets records, stash, statistics, samples and counters. -/
  | flushComplete
  /-- VOTE_TIMEOUT (R291): A vote record that is missing after STP_VOTE_WAIT squashes the step with VOTE_TIMEOUT. -/
  | voteTimeout
  /-- COMMIT (R293): After the staged UPDs retire, COMMIT commits histories, flips sides, swaps roots, advances counters and opens the next step. -/
  | commit
  /-- DEADLINE (R399): MT reaches the reduction deadline and the coordinator fixes the include set and sends GO. -/
  | deadline
  /-- CAPTURE (R419): A checkpoint capture starts when UPDATE completes after a checkpoint step. -/
  | capture
  /-- CAPTURE_DONE (R420): A capture writes its header last, and the local copy becomes complete. -/
  | captureDone
  /-- BUDDY_SEND_DONE (R421): The buddy send writes its header after every acknowledgement and raises CKP_DONE. -/
  | buddySendDone
  /-- KEYS_CLEARED (R476): The clear completes, KEYS_CLEARED is set and the notice is raised. -/
  | keysCleared
  /-- VIO12_LOSS (R483): VIO12 leaves its range; every domain loses power and all state is lost. -/
  | vio12Loss
  /-- VANA_LATE (R483): VANA not in range 100 ms after VIO12 raises VANA_LATE. -/
  | vanaLate
  /-- VANA_LOSS (R483): VANA leaving range while the converters run causes an emergency off. -/
  | vanaLoss
  /-- INPUT_CHARGED (R485): The internal input node reaches VIN and the converters start when enabled. -/
  | inputCharged
  /-- RESUMED (R505): The converters restart and the required domains turn on, and RESUMED is raised. -/
  | resumed
  /-- PARK_GRACE_EXPIRE (R504): The grace period ends and the park sequence begins, discarding work if any remains. -/
  | parkGraceExpire
  /-- PARK_COMPLETE (R504): The domains are off, the converters stop, PWR_EN deasserts and the state becomes PARKED or SHUTDOWN. -/
  | parkComplete
  /-- XTAL_FAIL (R494): The crystal stops; AO runs on its oscillator and the fatal XTAL_FAIL is logged. -/
  | xtalFail
  /-- RESET_N_ASSERT (R554): 250 low samples of RESET_N begin a module reset that turns domains 0 to 39 off. -/
  | resetNAssert
  /-- RESET_N_RELEASE (R554): 32 high samples release the reset, and the module restarts from its supplies and inputs. -/
  | resetNRelease
  /-- BST_DONE (R520): A run ends, writes its test record where required, clears the scan hold and raises BST_DONE. -/
  | bstDone
  /-- READ_VERSION (R555): SMBus command 0x00 returns the interface version. -/
  | readVersion
  /-- READ_SUPPLY_STS (R555): SMBus command 0x01 returns AO_SUPPLY_STS. -/
  | readSupplySts
  /-- READ_PWR_STS (R555): SMBus command 0x02 returns PWR_STS. -/
  | readPwrSts
  /-- READ_PWR_TEMP (R555): SMBus command 0x03 returns PWR_TEMP. -/
  | readPwrTemp
  /-- READ_PWR_EST (R555): SMBus command 0x04 returns the estimated power. -/
  | readPwrEst
  /-- READ_ERR_STS (R555): SMBus command 0x05 returns ERR_STS. -/
  | readErrSts
  /-- READ_SIDEBAND (R555): SMBus command 0x06 returns AO_SIDEBAND. -/
  | readSideband
  /-- READ_MODULE_TIME (R555): SMBus command 0x07 returns module time latched at the command. -/
  | readModuleTime
  /-- READ_ERROR_RECORD (R555): SMBus command 0x10 returns the oldest unread error-log record without removing it. -/
  | readErrorRecord
  /-- SMB_CLK_TIMEOUT (R555): SMB_CLK held low for over 35 ms makes the target release the lines and reset its interface. -/
  | smbClkTimeout
  /-- EXTEST (R561): Loading EXTEST detaches the ports, takes the links DOWN and drives the pads from the boundary register. -/
  | extest
  /-- IDCODE (R560): The IDCODE instruction selects the identification register. -/
  | idcode
  /-- SAMPLE_PRELOAD (R560): The SAMPLE/PRELOAD instruction samples and preloads the boundary register. -/
  | samplePreload
  /-- CLAMP (R561): Loading CLAMP holds the pads from the boundary register with bypass selected. -/
  | clamp
  /-- HIGHZ (R561): Loading HIGHZ puts the outputs in high impedance with bypass selected. -/
  | highz
  /-- EXTEST_PULSE (R561): Loading EXTEST_PULSE runs the IEEE 1149.6 pulse test on the lane pads. -/
  | extestPulse
  /-- EXTEST_TRAIN (R561): Loading EXTEST_TRAIN runs the IEEE 1149.6 train test on the lane pads. -/
  | extestTrain
  /-- BYPASS (R560): The BYPASS instruction selects the bypass register. -/
  | bypass
  /-- TAP_RESET (R560): TRST_N or five TMS-high cycles reset the TAP, and the ports retrain. -/
  | tapReset
  deriving DecidableEq, Repr

end Sys2Proof
end

