-- ==== Sys2Proof/Config.lean ====
section
/-! DEFINITION. Config.lean: what the spec leaves open. Every opaque constant is a free value: nothing can evaluate it or
prove a value of it, so a statement about it holds whatever the hardware does. Each is named in the assumption log. -/
namespace Sys2Proof.Config

/-- Log entry 1. A fresh free bit of the free-value counter of State: an undefined byte keeps its old or takes its new value. -/
opaque freeBit : Nat → Bool

/-- Log entry 1. A fresh free natural of the free-value counter of State, reduced by its user to the width it needs. -/
opaque freeNat : Nat → Nat

/-- Log entry 32. Whether a change of TIL_RND_CTL made while work is queued counts as made at a rounding (R67): the number of the
change, descriptor, chunk, element. -/
opaque looseRound : Nat → Nat → Nat → Nat → Bool

/-- Log entry 32. Whether a descriptor that was queued when SKIP_FROZEN changed sees it set (R227): the number of the change,
descriptor. -/
opaque looseSkip : Nat → Nat → Bool

/-- Log entry 13. Where the scale plane of an MMA output or an update's working copy lies when its format has one: no field
of the descriptor names it. The argument is the descriptor, or the shard record, as a number. -/
opaque scalePlane : Nat → Nat

/-- Log entry 14. The FP32 results of the units that R123 bounds only by an error: RCP, RSQRT, EXP, EXP2 and LOG, on the
operands whose result R122 does not state. The first argument is the operation code of R122. -/
opaque approx : Nat → Nat → Nat

/-- Log entry 15. Byte `off` of the built-in activation table image k (R135). -/
opaque romByte : Nat → Nat → Nat

/-- Log entry 17. Whether the immediate of a data-movement operation of 32-bit elements is read as BF16 (true) or as a signed
16-bit integer: R117 names floating-point and integer operations only. The argument is the operation code. -/
opaque moveImmBf16 : Nat → Bool

/-- Log entry 19. The free-list length of a pool at which POOL_LOW is raised: no rule gives it (R213). -/
opaque poolLow : Nat → Nat

/-- Log entry 21. What the headers of a media part declare, by codec and bytes: whether they can be read, width, height,
channels, total samples, sample rate, and whether the codec's header gives the total. Their syntax is other standards'. -/
opaque mediaHeader : Nat → List Nat → List Nat

/-- Log entry 22. The FP32 value x of a resampled pixel, where the crop is scaled or turned by a free angle: the spec names
the filters and not their arithmetic. The first list gives filter, angle, turns, flips, crop, sizes, position and channel; the
second is the source frame. -/
opaque resample : List Nat → List Nat → Nat

/-- Log entry 22. Whether a pixel turned by a free angle comes from outside the source. -/
opaque turnedOutside : List Nat → Bool

/-- Log entry 23. The polyphase sample-rate conversion: source rate, output rate, FP32 samples. -/
opaque rateConvert : Nat → Nat → List Nat → List Nat

/-- Log entry 23. The number of samples that the conversion of n samples gives. -/
opaque rateLen : Nat → Nat → Nat → Nat

/-- Log entry 24. The weighted sum of a mel bin as FP32: parameters and weights, and the frame's samples. -/
opaque melSum : List Nat → List Nat → Nat

/-- Log entry 26. The opening of an encrypted segment under AES-256 in Galois/Counter Mode (R385), whose byte layout of the
additional data and counter the spec does not give: key, salt, counter, authenticated header fields, and the ciphertext with
its tag. The answer is 1 and the plaintext bytes when the tag verifies, and 0 alone when it does not. -/
opaque linkOpen : Nat → Nat → Nat → List Nat → List Nat → List Nat

/-- Log entry 25. The BF16 value of an FP32 pattern that travels in BF16 without any addition having rounded it: no rule gives
the rounding (R396). -/
opaque wireRound : Nat → Nat

/-- Log entry 28. The byte offset of the MSI-X capability in a port's configuration space, which no rule gives. -/
opaque msixCap : Nat

/-- Log entry 28. The other words of a port's configuration space: by port and byte offset. -/
opaque cfgWord : Nat → Nat → Nat

/-- Log entry 29. Byte k of the root digest fused at manufacture (R470). -/
opaque rootDigest : Nat → Nat

/-- Log entry 30. An SPDM response (R472), whose layout is another standard's: request code, request bytes, and what the supervisor
reports (exchanges done, session, running image digest). -/
opaque spdmReply : Nat → List Nat → List Nat → List Nat

/-- Log entry 30. Whether an SPDM request's own contents are acceptable: request code, port, request bytes. -/
opaque spdmAccept : Nat → Nat → List Nat → Bool

/-- Log entry 30. Whether an IDE_KM message programs keys, and whether it starts its stream. -/
opaque ideProgram : List Nat → Bool
opaque ideStart : List Nat → Bool

/-- Log entry 31. Which part of the statistics store a debug page shows as word w (R540 gives no layout): entry × 5 plus 0 for μ, 1 for
r, 2 for m, 3 for Σ, 4 for the tag. -/
opaque peekStat : Nat → Nat

/-- Log entry 31. The tag word of a valid entry, from its kind and step; and what a written tag word says: VALID in bit 0, KIND in
bits [15:1], STEP in bits [31:16]. -/
opaque peekTag : Nat → Nat → Nat
opaque peekUntag : Nat → Nat

end Sys2Proof.Config
end

