-- ==== Sys2Proof/Machine/Bits.lean ====
section
/-! DEFINITION. Machine/Bits.lean: bit fields, sign extension, byte order (R18) and the sparse canonical maps that hold
registers, memory and per-unit state. -/
namespace Sys2Proof.Machine

/-- Bits [hi:lo] of a natural number. -/
def bits (v hi lo : Nat) : Nat := (v >>> lo) % 2 ^ (hi + 1 - lo)

/-- Bit i of a natural number. -/
def bit (v i : Nat) : Bool := (v >>> i) % 2 == 1

/-- One as a number. -/
def b2n (b : Bool) : Nat := if b then 1 else 0

/-- `v` with bits [hi:lo] replaced by the low bits of `x`. -/
def setBits (v hi lo x : Nat) : Nat :=
  let w := 2 ^ (hi + 1 - lo)
  v - ((v >>> lo) % w) * 2 ^ lo + (x % w) * 2 ^ lo

/-- `v` with bit i set to b. -/
def setBit (v i : Nat) (b : Bool) : Nat := setBits v i i (b2n b)

/-- Two's complement value of the low n bits of v. -/
def sext (v n : Nat) : Int :=
  let u := v % 2 ^ n
  if 2 * u < 2 ^ n then (u : Int) else (u : Int) - 2 ^ n

/-- An integer as an n-bit two's complement pattern. -/
def wrapInt (x : Int) (n : Nat) : Nat := (x % (2 ^ n : Nat)).toNat

/-- The smaller of v and the largest n-bit value: counters that stick (R45). -/
def stick (v n : Nat) : Nat := min v (2 ^ n - 1)

/-- Little-endian value of a list of bytes (R18). -/
def leNat : List Nat → Nat
  | [] => 0
  | b :: r => b % 256 + 256 * leNat r

/-- The n little-endian bytes of a value (R18). -/
def leBytes (v : Nat) : Nat → List Nat
  | 0 => []
  | n + 1 => v % 256 :: leBytes (v / 256) n

/-- Round up to a multiple of n. -/
def alignUp (v n : Nat) : Nat := (v + n - 1) / n * n

/-- Entry k of a list of (key, value) pairs, `d` where none is listed. -/
def sget {α : Type} (d : α) (l : List (Nat × α)) (k : Nat) : α :=
  match l with
  | [] => d
  | p :: r => if p.1 = k then p.2 else if k < p.1 then d else sget d r k

/-- The list with entry k removed. -/
def sdel {α : Type} (l : List (Nat × α)) (k : Nat) : List (Nat × α) :=
  match l with
  | [] => []
  | p :: r => if p.1 = k then r else if k < p.1 then p :: r else p :: sdel r k

/-- The list with entry k set to v, keys rising. -/
def sput {α : Type} (l : List (Nat × α)) (k : Nat) (v : α) : List (Nat × α) :=
  match l with
  | [] => [(k, v)]
  | p :: r => if p.1 = k then (k, v) :: r else if k < p.1 then (k, v) :: p :: r else p :: sput r k v

/-- Entry k set to v in canonical form: the default value is not listed. -/
def sset {α : Type} [DecidableEq α] (d : α) (l : List (Nat × α)) (k : Nat) (v : α) : List (Nat × α) :=
  if v = d then sdel l k else sput l k v

/-- Canonical form of a sparse list from key `lo` up: keys strictly rising and no default value listed. -/
def swfFrom {α : Type} [DecidableEq α] (d : α) (lo : Nat) : List (Nat × α) → Bool
  | [] => true
  | p :: r => decide (lo ≤ p.1) && !decide (p.2 = d) && swfFrom d (p.1 + 1) r

/-- Canonical form of a sparse list. -/
def swf {α : Type} [DecidableEq α] (d : α) (l : List (Nat × α)) : Bool := swfFrom d 0 l

/-- Numbers from `lo` up in strictly rising order. -/
def rises (lo : Nat) : List Nat → Bool
  | [] => true
  | x :: r => decide (lo ≤ x) && rises (x + 1) r

/-- The keys of a sparse list rise strictly, so that no key is listed twice. -/
def keysRise {α : Type} (l : List (Nat × α)) : Bool := rises 0 (l.map (·.1))

/-- Element i of a list, `d` beyond its end. -/
def nth {α : Type} (d : α) (l : List α) (i : Nat) : α := l.getD i d

/-- The list with element i set to v (unchanged beyond its end). -/
def setNth {α : Type} (l : List α) (i : Nat) (v : α) : List α := l.set i v

/-- The list split into pieces of n (fuel bounds the number of pieces). -/
def chunksOf {α : Type} (n : Nat) : Nat → List α → List (List α)
  | 0, _ => []
  | _, [] => []
  | f + 1, l => l.take n :: chunksOf n f (l.drop n)

/-- Sum of a list of naturals. -/
def sumNat (l : List Nat) : Nat := l.foldl (· + ·) 0

/-- Insert a value in a rising list of naturals without repeats. -/
def sinsert (k : Nat) : List Nat → List Nat
  | [] => [k]
  | x :: r => if x = k then x :: r else if k < x then k :: x :: r else x :: sinsert k r

/-- A list of naturals in rising order without repeats. -/
def uniq (l : List Nat) : List Nat := l.foldl (fun m x => sinsert x m) []

end Sys2Proof.Machine
end

