-- ==== Sys2Proof/Machine/Fp.lean ====
section
/-! DEFINITION. Machine/Fp.lean: exact binary values, the element encodings of R19, the three rounding modes (R46, R47), the
arithmetic rules of R40, conversion with saturation and flush (R42 to R44), the pairwise tree (R568) and the random words of
stochastic rounding (R49). Arithmetic is formed exactly and narrowed once. -/
namespace Sys2Proof.Machine

/-- An exact value: NaN, an infinity, or plus or minus m times 2^e. A zero keeps its sign. -/
inductive Fp where
  | nan
  | inf (neg : Bool)
  | fin (neg : Bool) (m : Nat) (e : Int)
  deriving DecidableEq, Repr, Inhabited

/-- A rounding mode with, for SR, its random word z (R46, R47). -/
inductive Rnd where
  | rne
  | rtz
  | sr (z : Nat)
  deriving DecidableEq, Repr

/-- Which special encodings a float format has (R19, R20). -/
inductive Special where
  | none     -- E2M1 and MX six-bit elements
  | nan20    -- plain FP6: the code 0x20
  | nan7F    -- E4M3: S.1111.111
  | ieee     -- exponent all ones
  deriving DecidableEq, Repr

/-- A floating-point element format (R19). -/
structure FloatFmt where
  ebits : Nat
  mbits : Nat
  bias : Int
  special : Special
  deriving DecidableEq, Repr

def fE2M1 : FloatFmt := ⟨2, 1, 1, .none⟩
def fE2M3 : FloatFmt := ⟨2, 3, 1, .none⟩
def fE3M2 : FloatFmt := ⟨3, 2, 3, .none⟩
def fE2M3p : FloatFmt := ⟨2, 3, 1, .nan20⟩
def fE3M2p : FloatFmt := ⟨3, 2, 3, .nan20⟩
def fE4M3 : FloatFmt := ⟨4, 3, 7, .nan7F⟩
def fE5M2 : FloatFmt := ⟨5, 2, 15, .ieee⟩
def fFP16 : FloatFmt := ⟨5, 10, 15, .ieee⟩
def fBF16 : FloatFmt := ⟨8, 7, 127, .ieee⟩
def fFP32 : FloatFmt := ⟨8, 23, 127, .ieee⟩
/-- The accumulator format W36 (R19). -/
def fW36 : FloatFmt := ⟨10, 25, 511, .ieee⟩

/-- Bits of one element. -/
def FloatFmt.width (f : FloatFmt) : Nat := 1 + f.ebits + f.mbits

/-- Significand and exponent of the largest finite value (R19). -/
def FloatFmt.maxFin (f : FloatFmt) : Nat × Int :=
  let topE : Int := 2 ^ f.ebits - 1
  match f.special with
  | .ieee => (2 ^ (f.mbits + 1) - 1, topE - 1 - f.bias - f.mbits)
  | .nan7F => (2 ^ (f.mbits + 1) - 2, topE - f.bias - f.mbits)
  | _ => (2 ^ (f.mbits + 1) - 1, topE - f.bias - f.mbits)

/-- Exponent of the smallest normal value. -/
def FloatFmt.emin (f : FloatFmt) : Int := 1 - f.bias

/-- The value of an encoding (R19, R20). -/
def decodeFp (f : FloatFmt) (v : Nat) : Fp :=
  let s := bit v (f.ebits + f.mbits)
  let E := bits v (f.ebits + f.mbits - 1) f.mbits
  let M := v % 2 ^ f.mbits
  let num : Fp :=
    if E = 0 then .fin s M (f.emin - f.mbits)
    else .fin s (2 ^ f.mbits + M) ((E : Int) - f.bias - f.mbits)
  match f.special with
  | .none => num
  | .nan20 => if v % 2 ^ f.width = 0x20 then .nan else num
  | .nan7F => if E = 2 ^ f.ebits - 1 ∧ M = 2 ^ f.mbits - 1 then .nan else num
  | .ieee =>
    if E = 2 ^ f.ebits - 1 then (if M = 0 then .inf s else .nan) else num

/-- The canonical NaN of a format that has one (R44). -/
def canonNaN (f : FloatFmt) : Nat :=
  match f.special with
  | .none => 0
  | .nan20 => 0x20
  | .nan7F => 0x7F
  | .ieee => (2 ^ f.ebits - 1) * 2 ^ f.mbits + 2 ^ (f.mbits - 1)

/-- floor(log2(n / d)) for positive n and d. -/
def log2Rat (n d : Nat) : Int :=
  let k : Int := (Nat.log2 n : Int) - Nat.log2 d
  let ge : Bool := if 0 ≤ k then decide (d * 2 ^ k.toNat ≤ n) else decide (d ≤ n * 2 ^ (-k).toNat)
  if ge then k else k - 1

/-- n/d × 2^e as a rational with non-negative exponent folded in: (numerator, denominator). -/
def foldExp (n d : Nat) (e : Int) : Nat × Nat :=
  if 0 ≤ e then (n * 2 ^ e.toNat, d) else (n, d * 2 ^ (-e).toNat)

/-- The significand of a magnitude n/d × 2^e rounded to a multiple of 2^q under a mode (R46, R47). -/
def roundQ (r : Rnd) (n d : Nat) (e q : Int) : Nat :=
  let (N, D) := foldExp n d (e - q)
  let a := N / D
  let rem := N % D
  match r with
  | .rtz => a
  | .rne => if 2 * rem < D then a else if D < 2 * rem then a + 1 else a + a % 2
  | .sr z => if 2 ^ 32 ≤ rem * 2 ^ 32 / D + z then a + 1 else a

/-- A positive magnitude n/d × 2^e rounded to the format's grid, range unbounded above: significand and exponent. -/
def roundMag (f : FloatFmt) (r : Rnd) (n d : Nat) (e : Int) : Nat × Int :=
  if n = 0 then (0, f.emin - f.mbits)
  else
    let k := log2Rat n d + e
    let q := (if k < f.emin then f.emin else k) - f.mbits
    let m := roundQ r n d e q
    if m = 2 ^ (f.mbits + 1) then (2 ^ f.mbits, q + 1) else (m, q)

/-- a × 2^ea < b × 2^eb. -/
def magLt (a : Nat) (ea : Int) (b : Nat) (eb : Int) : Bool :=
  if ea ≤ eb then decide (a < b * 2 ^ (eb - ea).toNat) else decide (a * 2 ^ (ea - eb).toNat < b)

/-- What a conversion counts (R42, R43). -/
structure ConvEv where
  sat : Nat := 0
  ftz : Nat := 0
  deriving DecidableEq, Repr

def ConvEv.add (a b : ConvEv) : ConvEv := ⟨a.sat + b.sat, a.ftz + b.ftz⟩

/-- A signed rational n/d × 2^e converted to a format: saturating (R42), with the counts of R42 and R43. -/
def convRat (f : FloatFmt) (r : Rnd) (s : Bool) (n d : Nat) (e : Int) : Fp × ConvEv :=
  let (m, q) := roundMag f r n d e
  let (mm, me) := f.maxFin
  if magLt mm me m q then (.fin s mm me, ⟨1, 0⟩)
  else (.fin s m q, ⟨0, b2n (m = 0 ∧ n ≠ 0)⟩)

/-- Conversion of any value to a format that stands alone (R42 to R44): NaN and infinity by the table of R44. -/
def convFp (f : FloatFmt) (r : Rnd) (x : Fp) : Fp × ConvEv :=
  match x with
  | .nan => (.nan, {})
  | .inf s => (if f.special = .ieee then .inf s else .nan, {})
  | .fin s m e => convRat f r s m 1 e

/-- An arithmetic result narrowed to a format by IEEE 754: beyond the largest finite value RNE gives an infinity. -/
def roundFp (f : FloatFmt) (x : Fp) : Fp :=
  match x with
  | .fin s m e =>
    let (a, q) := roundMag f .rne m 1 e
    let (mm, me) := f.maxFin
    if magLt mm me a q then .inf s else .fin s a q
  | y => y

/-- A rational arithmetic result narrowed once by RNE. -/
def roundRat (f : FloatFmt) (s : Bool) (n d : Nat) (e : Int) : Fp :=
  let (a, q) := roundMag f .rne n d e
  let (mm, me) := f.maxFin
  if magLt mm me a q then .inf s else .fin s a q

/-- Significand of at most p + 1 bits and matching exponent: a value on the format's grid brought to its normal form. -/
def normMag (f : FloatFmt) (m : Nat) (e : Int) : Nat × Int :=
  if m = 0 then (0, f.emin - f.mbits)
  else
    let k := (Nat.log2 m : Int) + e
    let q := (if k < f.emin then f.emin else k) - f.mbits
    (roundQ .rtz m 1 e q, q)

/-- The encoding of a value that lies on the format's grid (R19, R44). Plain FP6 has no −0 (R20). -/
def encodeFp (f : FloatFmt) (x : Fp) : Nat :=
  match x with
  | .nan => canonNaN f
  | .inf s => b2n s * 2 ^ (f.ebits + f.mbits) + (2 ^ f.ebits - 1) * 2 ^ f.mbits
  | .fin s m e =>
    let (a, q) := normMag f m e
    let sgn := if f.special = .nan20 ∧ a = 0 then 0 else b2n s * 2 ^ (f.ebits + f.mbits)
    if a < 2 ^ f.mbits then sgn + a
    else sgn + ((q + f.mbits + f.bias).toNat * 2 ^ f.mbits + (a - 2 ^ f.mbits))

def fp32 (v : Nat) : Fp := decodeFp fFP32 v
/-- FP32 bits of a value, narrowed by RNE as arithmetic. -/
def toFp32 (x : Fp) : Nat := encodeFp fFP32 (roundFp fFP32 x)

def Fp.zero : Fp := .fin false 0 0
def Fp.one : Fp := .fin false 1 0
def Fp.ofNat (n : Nat) : Fp := .fin false n 0
def Fp.ofInt (i : Int) : Fp := .fin (decide (i < 0)) i.natAbs 0

def Fp.isNaN : Fp → Bool
  | .nan => true
  | _ => false

def Fp.isInf : Fp → Bool
  | .inf _ => true
  | _ => false

def Fp.isZero : Fp → Bool
  | .fin _ m _ => m == 0
  | _ => false

def Fp.isFin : Fp → Bool
  | .fin _ _ _ => true
  | _ => false

/-- The sign bit (false for NaN). -/
def Fp.sign : Fp → Bool
  | .nan => false
  | .inf s => s
  | .fin s _ _ => s

def Fp.neg : Fp → Fp
  | .nan => .nan
  | .inf s => .inf (!s)
  | .fin s m e => .fin (!s) m e

def Fp.abs : Fp → Fp
  | .nan => .nan
  | .inf _ => .inf false
  | .fin _ m e => .fin false m e

/-- Exact product (R40). -/
def Fp.mul (a b : Fp) : Fp :=
  match a, b with
  | .nan, _ => .nan
  | _, .nan => .nan
  | .inf s, .inf t => .inf (xor s t)
  | .inf s, .fin t m _ => if m = 0 then .nan else .inf (xor s t)
  | .fin s m _, .inf t => if m = 0 then .nan else .inf (xor s t)
  | .fin s m e, .fin t n g => .fin (xor s t) (m * n) (e + g)

/-- Exact sum, with the zero signs of R40. -/
def Fp.add (a b : Fp) : Fp :=
  match a, b with
  | .nan, _ => .nan
  | _, .nan => .nan
  | .inf s, .inf t => if s = t then .inf s else .nan
  | .inf s, .fin _ _ _ => .inf s
  | .fin _ _ _, .inf t => .inf t
  | .fin s m e, .fin t n g =>
    let q := if e ≤ g then e else g
    let x := m * 2 ^ (e - q).toNat
    let y := n * 2 ^ (g - q).toNat
    if s = t then .fin s (x + y) q
    else if x = y then .fin false 0 q
    else if y < x then .fin s (x - y) q else .fin t (y - x) q

def Fp.sub (a b : Fp) : Fp := a.add b.neg

/-- a < b; false when either is NaN. -/
def Fp.lt (a b : Fp) : Bool :=
  match a, b with
  | .nan, _ => false
  | _, .nan => false
  | .inf s, .inf t => s && !t
  | .inf s, .fin _ _ _ => s
  | .fin _ _ _, .inf t => !t
  | .fin s m e, .fin t n g =>
    if m = 0 ∧ n = 0 then false
    else if m = 0 then !t
    else if n = 0 then s
    else
      match s, t with
      | true, false => true
      | false, true => false
      | false, false => magLt m e n g
      | true, true => magLt n g m e

/-- Numeric equality; false when either is NaN. -/
def Fp.eqv (a b : Fp) : Bool := !a.isNaN && !b.isNaN && !a.lt b && !b.lt a

/-- The larger by value, ignoring NaN: running maxima of magnitudes (R54). -/
def maxIgnNaN (a b : Fp) : Fp :=
  if b.isNaN then a else if a.isNaN then b else if a.lt b then b else a

/-- One rounded W36 addition (R38). -/
def w36Add (a b : Fp) : Fp := roundFp fW36 (a.add b)
def w36Mul (a b : Fp) : Fp := roundFp fW36 (a.mul b)
def f32Add (a b : Fp) : Fp := roundFp fFP32 (a.add b)
def f32Sub (a b : Fp) : Fp := roundFp fFP32 (a.sub b)
def f32Mul (a b : Fp) : Fp := roundFp fFP32 (a.mul b)
def f32Fma (a b c : Fp) : Fp := roundFp fFP32 ((a.mul b).add c)

/-- Correctly rounded quotient in FP32: finite non-zero by zero is an infinity, 0/0 and Inf/Inf are NaN. -/
def f32Div (a b : Fp) : Fp :=
  match a, b with
  | .nan, _ => .nan
  | _, .nan => .nan
  | .inf _, .inf _ => .nan
  | .inf s, .fin t _ _ => .inf (xor s t)
  | .fin s _ _, .inf t => .fin (xor s t) 0 0
  | .fin s m e, .fin t n g =>
    if n = 0 then (if m = 0 then .nan else .inf (xor s t))
    else roundRat fFP32 (xor s t) m n (e - g)

/-- Integer square root by bits, from bit k down. -/
def isqrtAux (n : Nat) : Nat → Nat → Nat
  | 0, r => r
  | k + 1, r =>
    let c := r + 2 ^ k
    isqrtAux n k (if c * c ≤ n then c else r)

/-- floor(sqrt n). -/
def isqrt (n : Nat) : Nat := isqrtAux n (Nat.log2 n / 2 + 1) 0

/-- Correctly rounded square root in FP32: a negative non-zero operand gives NaN, a zero itself. -/
def f32Sqrt (a : Fp) : Fp :=
  match a with
  | .nan => .nan
  | .inf s => if s then .nan else .inf false
  | .fin s m e =>
    if m = 0 then .fin s 0 0
    else if s then .nan
    else
      let sh : Nat := 64 + (if (e % 2 = 0) then 0 else 1)
      let M := m * 2 ^ sh
      let g := (e - (sh : Int)) / 2
      let r := isqrt M
      roundRat fFP32 false (2 * r + b2n (r * r ≠ M)) 1 (g - 1)

/-- MAX of R122: −0 below +0, a NaN operand gives NaN. -/
def fpMax (a b : Fp) : Fp :=
  if a.isNaN || b.isNaN then .nan
  else if a.lt b then b
  else if b.lt a then a
  else if a.isZero && a.sign then b else a

/-- MIN of R122. -/
def fpMin (a b : Fp) : Fp :=
  if a.isNaN || b.isNaN then .nan
  else if a.lt b then a
  else if b.lt a then b
  else if a.isZero && !a.sign then b else a

/-- One level of the pairwise tree (R568). -/
def treeLevel {α : Type} (op : α → α → α) (pad : α) : List α → List α
  | [] => []
  | [x] => [op x pad]
  | x :: y :: r => op x y :: treeLevel op pad r

/-- The pairwise tree over 2^k positions, padded with the identity (R568). -/
def treeFold {α : Type} (op : α → α → α) (pad : α) : Nat → List α → α
  | 0, l => l.headD pad
  | k + 1, l => treeFold op (op pad pad) k (treeLevel op pad l)

/-- The tree's depth for n values. -/
def treeDepth (n : Nat) : Nat := if n ≤ 1 then 0 else Nat.log2 (n - 1) + 1

/-- Sum of a list in W36 by the pairwise tree of 2^k positions (R38, R568). -/
def w36Tree (k : Nat) (l : List Fp) : Fp := treeFold w36Add Fp.zero k l

/-- One round of Philox4x32: counter words and key words. -/
def philoxRound (c : Nat × Nat × Nat × Nat) (k0 k1 : Nat) : Nat × Nat × Nat × Nat :=
  let p0 := 0xD2511F53 * c.1
  let p1 := 0xCD9E8D57 * c.2.2.1
  ((p1 >>> 32) ^^^ c.2.1 ^^^ k0, p1 % 2 ^ 32, (p0 >>> 32) ^^^ c.2.2.2 ^^^ k1, p0 % 2 ^ 32)

/-- n rounds of Philox4x32 with the key schedule. -/
def philoxN : Nat → (Nat × Nat × Nat × Nat) → Nat → Nat → (Nat × Nat × Nat × Nat)
  | 0, c, _, _ => c
  | n + 1, c, k0, k1 =>
    philoxN n (philoxRound c k0 k1) ((k0 + 0x9E3779B9) % 2 ^ 32) ((k1 + 0xBB67AE85) % 2 ^ 32)

/-- What a random word is keyed on, apart from the element (R49). -/
structure SrKey where
  seed : Nat
  site : Nat
  chunk : Nat
  tensor : Nat
  step : Nat
  deriving DecidableEq, Repr

/-- The random word z of an output element (R49). -/
def srWord (k : SrKey) (elem : Nat) : Nat :=
  let c1 := (k.site % 16) * 2 ^ 28 + (k.chunk % 2 ^ 20) * 2 ^ 8 + bits elem 41 34
  let o := philoxN 10 (bits elem 33 2, c1, k.tensor % 2 ^ 32, k.step % 2 ^ 32) (k.seed % 2 ^ 32) (bits k.seed 63 32)
  match elem % 4 with
  | 0 => o.1
  | 1 => o.2.1
  | 2 => o.2.2.1
  | _ => o.2.2.2

/-- The rounding of an RND code at a site (R46): code 2 is SR with the element's word. -/
def rndOf (code : Nat) (k : SrKey) (elem : Nat) : Rnd :=
  if code = 2 then .sr (srWord k elem) else if code = 1 then .rtz else .rne

end Sys2Proof.Machine
end

