-- ==== Sys2Proof/Machine/Formats.lean ====
section
/-! DEFINITION. Machine/Formats.lean: the format codes of R17, decoding of every stored element (R19 to R35) and encoding of
the block formats (R24 to R36), byte by byte. -/
namespace Sys2Proof.Machine

/-- The formats of R17. -/
inductive Fmt where
  | fp32 | bf16 | fp16 | e4m3 | e5m2 | e2m3 | e3m2
  | mxE4m3 | mxE5m2 | mxE2m3 | mxE3m2 | mxfp4 | mxint8
  | p4 | p4x | t2 | int32 | int16 | uint8
  deriving DecidableEq, Repr

/-- The format of a 5-bit code; codes 0x13 to 0x1F are reserved (R17). -/
def Fmt.ofCode : Nat → Option Fmt
  | 0x00 => some .fp32 | 0x01 => some .bf16 | 0x02 => some .fp16 | 0x03 => some .e4m3 | 0x04 => some .e5m2
  | 0x05 => some .e2m3 | 0x06 => some .e3m2 | 0x07 => some .mxE4m3 | 0x08 => some .mxE5m2 | 0x09 => some .mxE2m3
  | 0x0A => some .mxE3m2 | 0x0B => some .mxfp4 | 0x0C => some .mxint8 | 0x0D => some .p4 | 0x0E => some .p4x
  | 0x0F => some .t2 | 0x10 => some .int32 | 0x11 => some .int16 | 0x12 => some .uint8
  | _ => none

/-- The float encoding of an element, where the element is one. -/
def Fmt.elem : Fmt → Option FloatFmt
  | .fp32 => some fFP32 | .bf16 => some fBF16 | .fp16 => some fFP16
  | .e4m3 => some fE4M3 | .e5m2 => some fE5M2 | .e2m3 => some fE2M3p | .e3m2 => some fE3M2p
  | .mxE4m3 => some fE4M3 | .mxE5m2 => some fE5M2 | .mxE2m3 => some fE2M3 | .mxE3m2 => some fE3M2
  | .mxfp4 => some fE2M1 | .p4 => some fE2M1 | .p4x => some fE2M1
  | _ => none

/-- Bits of one element in the code plane; P4X is counted at 5 bits by its 20-byte blocks (R29). -/
def Fmt.width : Fmt → Nat
  | .fp32 => 32 | .bf16 => 16 | .fp16 => 16 | .e4m3 => 8 | .e5m2 => 8 | .e2m3 => 6 | .e3m2 => 6
  | .mxE4m3 => 8 | .mxE5m2 => 8 | .mxE2m3 => 6 | .mxE3m2 => 6 | .mxfp4 => 4 | .mxint8 => 8
  | .p4 => 4 | .p4x => 5 | .t2 => 2 | .int32 => 32 | .int16 => 16 | .uint8 => 8

/-- A format with an E8M0 or E4M3 scale plane beside its code plane (R28, R35). -/
def Fmt.hasScalePlane : Fmt → Bool
  | .mxE4m3 | .mxE5m2 | .mxE2m3 | .mxE3m2 | .mxfp4 | .mxint8 | .p4 | .t2 => true
  | _ => false

/-- A block or group format (R22 to R36). -/
def Fmt.isBlock (f : Fmt) : Bool := f.hasScalePlane || f == .p4x

/-- Elements per block: 32, or 64 for T2. -/
def Fmt.block : Fmt → Nat
  | .t2 => 64
  | _ => 32

def Fmt.isInt : Fmt → Bool
  | .int32 | .int16 | .uint8 => true
  | _ => false

/-- FP8 and plain FP6: always carry a per-tensor scale (R17). -/
def Fmt.isScaled : Fmt → Bool
  | .e4m3 | .e5m2 | .e2m3 | .e3m2 => true
  | _ => false

/-- FP32, BF16 or FP16: a per-tensor scale is optional (R17). -/
def Fmt.isFloat : Fmt → Bool
  | .fp32 | .bf16 | .fp16 => true
  | _ => false

/-- fmt_max of R57; none for a format that has none. -/
def Fmt.fmtMax (f : Fmt) : Option Fp :=
  if f.isScaled || f.isFloat then
    match f.elem with
    | some e => some (.fin false e.maxFin.1 e.maxFin.2)
    | none => none
  else none

/-- What decoding an operand notices: reserved T2 code, NaN scale, annex blocks (R33, R35, R66). -/
structure DecEv where
  rsvd : Bool := false
  scaleNaN : Bool := false
  annex : Nat := 0
  deriving DecidableEq, Repr

def DecEv.join (a b : DecEv) : DecEv := ⟨a.rsvd || b.rsvd, a.scaleNaN || b.scaleNaN, a.annex + b.annex⟩

/-- Code i of width w in a packed plane (R18, R28). -/
def getCode (rd : Nat → Nat) (base w i : Nat) : Nat :=
  let a := base + i * w / 8
  let v := leNat ((List.range ((w + 7) / 8 + 1)).map fun k => rd (a + k))
  (v >>> (i * w % 8)) % 2 ^ w

/-- Pack codes of width w into bytes, low bits first; a last partial byte takes its upper bits from `tail`. -/
def packCodes (w : Nat) (codes : List Nat) (tail : Nat) : List Nat :=
  let v := codes.foldr (fun c acc => c % 2 ^ w + 2 ^ w * acc) 0
  let nb := codes.length * w
  let n := (nb + 7) / 8
  let r := nb % 8
  let v' := if r = 0 then v else v + (tail % 256 / 2 ^ r) * 2 ^ nb
  leBytes v' n

/-- 2^(x − 127), NaN for 0xFF (R22). -/
def e8m0 (x : Nat) : Fp := if x = 0xFF then .nan else .fin false 1 ((x : Int) - 127)

/-- One element of an MX or P4 block with its scale byte (R22, R26). -/
def decodeMx (f : Fmt) (code scale : Nat) : Fp :=
  if scale = 0xFF then .nan
  else
    match f with
    | .mxint8 => (Fp.ofInt (sext code 8)).mul (.fin false 1 ((scale : Int) - 127 - 6))
    | _ =>
      match f.elem with
      | some e => (decodeFp e code).mul (e8m0 scale)
      | none => .nan

/-- One T2 element (R35), code × γ with the zero signs of R40: its value and whether the code is reserved. -/
def decodeT2 (code scale : Nat) : Fp × Bool :=
  let g := decodeFp fE4M3 scale
  match code % 4 with
  | 0 => (Fp.zero.mul g, false)
  | 1 => (g, false)
  | 3 => (g.neg, false)
  | _ => (Fp.zero.mul g, true)

/-- The escapes of a P4X block applied in order: the last entry of a position counts, 0x00 and 0x80 cancel (R32). -/
def escapeAt (entries : List Nat) (pos : Nat) : Option Nat :=
  entries.foldl (fun acc e =>
    if e % 32 = pos then
      (let v := bits e 12 5
       if v = 0x00 ∨ v = 0x80 then none else some v)
    else acc) none

/-- A P4X block's 32 values (R30 to R32): the block's 20 bytes and the annex entries from index `ax` on; answers the values,
the annex entries consumed and what was noticed. -/
def decodeP4x (rd : Nat → Nat) (annex : Nat → Nat) (ax : Nat) : List Fp × Nat × DecEv :=
  let scale := rd 16
  let fine := decodeFp fE4M3 (rd 17)
  let esc := rd 18 + 256 * rd 19
  let v := bits esc 12 5
  let isAnnex := decide (v = 0x80)
  let n := if isAnnex then esc % 32 + 1 else 0
  let entries := if isAnnex then (List.range n).map (fun k => annex (ax + k)) else if v = 0 then [] else [esc]
  let ev : DecEv := ⟨false, decide (scale = 0xFF) || fine.isNaN, b2n isAnnex⟩
  let vals := (List.range 32).map fun i =>
    if scale = 0xFF ∨ fine.isNaN = true then Fp.nan
    else
      match escapeAt entries i with
      | some e => (decodeFp fE4M3 e).mul (e8m0 scale)
      | none => ((decodeFp fE2M1 (getCode rd 0 4 i)).mul fine).mul (e8m0 scale)
  (vals, n, ev)

/-- Bytes of block b of a format in its code plane. -/
def Fmt.blockBytes (f : Fmt) : Nat := if f = .p4x then 20 else f.block * f.width / 8

/-- The code of a float value converted into an element format, from v × 2^(−X) / f formed exactly. -/
def encElem (e : FloatFmt) (r : Rnd) (v : Fp) (fd : Nat) (fn : Nat) (x : Int) : Nat × ConvEv :=
  match v with
  | .fin s m ex =>
    let (y, ev) := convRat e r s (m * fd) fn (ex - x)
    (encodeFp e y, ev)
  | _ => (0, {})

/-- Largest magnitude of a block: (significand, exponent). -/
def blockMax (l : List Fp) : Fp := l.foldl (fun a v => maxIgnNaN a v.abs) Fp.zero

/-- Clamp an exponent to −127 … 127. -/
def clampX (x : Int) : Int := if x < -127 then -127 else if 127 < x then 127 else x

/-- Smallest X with a ≤ c × 2^X for a magnitude a (R27, R34). -/
def ceilLog2Div (a : Fp) (c : Nat) : Int :=
  match a with
  | .fin _ m e =>
    if m = 0 then -127
    else
      let k := log2Rat m c + e
      let (n, d) := foldExp m c (e - k)
      if n ≤ d then k else k + 1
  | _ => -127

/-- floor(log2 a) of a positive value. -/
def floorLog2 (a : Fp) : Int :=
  match a with
  | .fin _ m e => (Nat.log2 m : Int) + e
  | _ => -127

/-- Whether a block holds a NaN or an infinity. -/
def blockBad (l : List Fp) : Bool := l.any fun v => !v.isFin

/-- emax of an MX element format (R24). -/
def mxEmax : Fmt → Int
  | .mxE4m3 => 8 | .mxE5m2 => 15 | .mxE2m3 => 2 | .mxE3m2 => 4 | .mxfp4 => 2 | _ => 0

/-- One MXINT8 element (R26): code and counts. -/
def encMxInt8 (r : Rnd) (v : Fp) (x : Int) : Nat × ConvEv :=
  match v with
  | .fin s m e =>
    let n := roundQ r m 1 (e - x) (-6)
    let c := min n 127
    (wrapInt (if s then -(c : Int) else c) 8, ⟨b2n (decide (127 < n)), b2n (decide (n = 0 ∧ m ≠ 0))⟩)
  | _ => (0, {})

/-- Conversion of a 32-value block into an MX format or P4 (R24 to R28): element codes, scale byte, counts. -/
def encodeMx (f : Fmt) (rnd : Nat → Rnd) (l : List Fp) : List Nat × Nat × ConvEv :=
  if blockBad l then (l.map fun _ => 0, 0xFF, {})
  else
    let a := blockMax l
    let x := if a.isZero then -127
      else clampX (if f = .p4 then ceilLog2Div a 6 else floorLog2 a - mxEmax f)
    let cs := l.zipIdx.map fun (v, i) =>
      match f with
      | .mxint8 => encMxInt8 (rnd i) v x
      | _ =>
        match f.elem with
        | some e => encElem e (rnd i) v 1 1 x
        | none => (0, {})
    (cs.map (·.1), (x + 127).toNat, cs.foldl (fun acc c => acc.add c.2) {})

/-- The smallest positive E4M3 code whose value is at least n/d × 2^e (R34), codes 1 to 0x7E tried upward; log entry 2
where none is. -/
def fineCode (a : Fp) (x : Int) : Nat :=
  let ok := fun c => match decodeFp fE4M3 c, a with
    | .fin _ m e, .fin _ n g => !magLt (m * 6) e n (g - x)
    | _, _ => false
  match (List.range 0x7E).find? fun k => ok (k + 1) with
  | some k => k + 1
  | none => Sys2Proof.Config.freeNat (floorLog2 a).toNat % 0x7E + 1

/-- Conversion of a 32-value block into P4X (R34): the block's 20 bytes and the counts. -/
def encodeP4x (rnd : Nat → Rnd) (l : List Fp) : List Nat × ConvEv :=
  if blockBad l then (List.replicate 16 0 ++ [0xFF, 0x38, 0, 0], {})
  else
    let a1 := blockMax l
    if a1.isZero then (List.replicate 16 0 ++ [0x00, 0x38, 0, 0], {})
    else
      let p1 := (l.findIdx? fun v => v.abs.eqv a1).getD 0
      let others := l.zipIdx.filter fun p => p.2 ≠ p1
      let a2 := blockMax (others.map (·.1))
      let v1 := l.getD p1 Fp.zero
      let x := clampX (if a2.isZero then ceilLog2Div a1 448 else ceilLog2Div a2 6)
      let fc := if a2.isZero then 0x38 else fineCode a2 x
      let (fm, fe) := match decodeFp fE4M3 fc with
        | .fin _ m e => (m, e)
        | _ => (1, 0)
      -- v / (f × 2^X): divide by fm × 2^(fe + X)
      let conv := fun (i : Nat) (v : Fp) => encElem fE2M1 (rnd i) v 1 fm (x + fe)
      let body := l.zipIdx.map fun (v, i) =>
        if i = p1 then (0, ({} : ConvEv)) else if a2.isZero then (0, {}) else conv i v
      let (ec, eev) := encElem fE4M3 (rnd p1) v1 1 1 x
      let escZero := decide (ec % 128 = 0)
      let (c1, ev1) := if escZero then conv p1 v1 else (0, eev)
      let codes := (body.map (·.1)).set p1 c1
      let ev := body.foldl (fun acc c => acc.add c.2) ev1
      let esc := if escZero then 0 else ec * 32 + p1
      (packCodes 4 codes 0 ++ [(x + 127).toNat, fc, esc % 256, esc / 256], ev)

/-- Conversion of a 64-value group into T2 (R36): codes, the scale byte and the counts. -/
def encodeT2 (rnd : Nat → Rnd) (l : List Fp) : List Nat × Nat × ConvEv :=
  if blockBad l then (l.map fun _ => 0, 0x7F, {})
  else
    let sum := l.foldl (fun a v => a.add v.abs) Fp.zero
    let mean := match sum with
      | .fin _ m e => (convRat fFP32 .rne false m 1 (e - 6)).1
      | y => y
    let (g, gev) := convFp fE4M3 .rne mean
    let gc := encodeFp fE4M3 g
    match g with
    | .fin _ gm ge =>
      if gm = 0 then
        (l.map fun _ => 0, gc, ⟨0, (l.filter fun v => !v.isZero).length⟩)
      else
        let cs := l.zipIdx.map fun (v, i) =>
          match v with
          | .fin s m e =>
            let n := roundQ (rnd i) m gm (e - ge) 0
            let c := if n = 0 then 0 else if s then 3 else 1
            (c, (⟨b2n (decide (1 < n)), b2n (decide (n = 0 ∧ m ≠ 0))⟩ : ConvEv))
          | _ => (0, {})
        (cs.map (·.1), gc, cs.foldl (fun acc c => acc.add c.2) ⟨gev.sat, 0⟩)
    | _ => (l.map fun _ => 0, gc, {})

/-- One stored element of a format without a scale plane of its own, as an exact value (R19, R33). -/
def decodePlain (f : Fmt) (code : Nat) : Fp :=
  match f with
  | .int32 => Fp.ofInt (sext code 32)
  | .int16 => Fp.ofInt (sext code 16)
  | .uint8 => Fp.ofNat (code % 256)
  | _ =>
    match f.elem with
    | some e => decodeFp e code
    | none => .nan

/-- The code of a value converted into a plain format (R42 to R44). -/
def encodePlain (f : Fmt) (r : Rnd) (v : Fp) : Nat × ConvEv :=
  match f.elem with
  | some e => let (y, ev) := convFp e r v; (encodeFp e y, ev)
  | none => (0, {})

/-- A per-tensor scale computed by R57 from the largest maximum h: (s, 1/s) as FP32 bits. -/
def scaleOf (f : Option Fmt) (h : Fp) (margin : Int) (pow2 : Bool) (scale : Nat) : Nat × Nat :=
  let keep := scale
  let s : Nat :=
    match f.bind Fmt.fmtMax, h with
    | some (.fin _ mm me), .fin _ m e =>
      if m = 0 then keep
      else
        let q := (convRat fFP32 .rne false mm m (me - e - margin)).1
        let p := if pow2 then (match q with
          | .fin _ a b => if a = 0 then q else .fin false 1 ((Nat.log2 a : Int) + b)
          | y => y) else q
        let lo : Fp := .fin false 1 (-126)
        let hi : Fp := .fin false 1 127
        encodeFp fFP32 (if p.lt lo then lo else if hi.lt p then hi else p)
    | _, _ => keep
  (s, toFp32 (f32Div Fp.one (fp32 s)))

/-- ulp(w) of R62 as an exponent of two, for an FP32 value. -/
def ulpExp (w : Fp) : Int :=
  match w with
  | .fin _ m e => if m = 0 then -149 else
      let k := (Nat.log2 m : Int) + e
      if k < -126 then -149 else k - 23
  | _ => -149

/-- The carry procedure of R63: FP32 bits of w and d and the carry byte; answers the new master bits, the new carry byte
and whether the result is a NaN or saturated. -/
def carryApply (w d c : Nat) : Nat × Nat × Fp × Bool :=
  let wv := fp32 w
  let dv := fp32 d
  let t := dv.add ((Fp.ofInt (sext c 8)).mul (.fin false 1 (ulpExp wv - 7)))
  let y := wv.add t
  let (wn, ev) := convFp fFP32 .rne y
  let wbits := encodeFp fFP32 wn
  match wn, y with
  | .fin _ _ _, .fin _ _ _ =>
    if ev.sat ≠ 0 then (wbits, 0, wn, true)
    else
      let rem := y.sub wn
      let cn := match rem with
        | .fin s m e =>
          let n := min (roundQ .rne m 1 (e + 7 - ulpExp wn) 0) 127
          wrapInt (if s then -(n : Int) else n) 8
        | _ => 0
      (wbits, cn, wn, false)
  | _, _ => (wbits, 0, wn, false)

end Sys2Proof.Machine
end

