-- ==== Sys2Proof/Machine/Approx.lean ====
section
/-! DEFINITION. Machine/Approx.lean: the units that R123 fixes only by an error bound: RCP, RSQRT, EXP, EXP2 and LOG. Each
result that R122 does not state is a free value (log entry 14), held to the bound: a candidate outside it is replaced by the
correctly rounded result, which the bound admits. References are formed in fixed point with 96 fraction bits. -/
namespace Sys2Proof.Machine

abbrev opRsqrt : Nat := 0x07
abbrev opRcp : Nat := 0x08
abbrev opExp : Nat := 0x0E
abbrev opExp2 : Nat := 0x0F
abbrev opLog : Nat := 0x10

/-- ln 2 × 2^96, truncated. -/
def ln2Fix : Nat := 54916777467707473351141471128

/-- The exponential series from term k of value t, for x with 96 fraction bits. -/
def expSeries (x : Nat) : Nat → Nat → Nat → Nat
  | 0, _, t => t
  | n + 1, k, t => t + expSeries x n (k + 1) (t * x / 2 ^ 96 / k)

/-- 2^n × e^x as an exact value, for 0 ≤ x < ln 2 with 96 fraction bits. -/
def expRef (n : Int) (x : Nat) : Fp := .fin false (expSeries x 32 1 (2 ^ 96)) (n - 96)

/-- a × 2^96 rounded down, for |a| below 2^10. -/
def fix96 (s : Bool) (m : Nat) (e : Int) : Int :=
  let v : Nat := if 0 ≤ e + 96 then m * 2 ^ (e + 96).toNat else m / 2 ^ (-(e + 96)).toNat
  if s then -(v : Int) else v

/-- A close value of e^a or 2^a for a finite a of magnitude below 2^10. -/
def expOf (base2 : Bool) (s : Bool) (m : Nat) (e : Int) : Fp :=
  let A := fix96 s m e
  if base2 then
    let n := A / (2 ^ 96 : Nat)
    expRef n ((A - n * (2 ^ 96 : Nat)).toNat * ln2Fix / 2 ^ 96)
  else
    let n := A / ln2Fix
    expRef n (A - n * ln2Fix).toNat

/-- The series of atanh from z^k / k on, z2 = z². -/
def atanhSeries (z2 : Nat) : Nat → Nat → Nat → Nat
  | 0, _, _ => 0
  | n + 1, k, p => p / k + atanhSeries z2 n (k + 2) (p * z2 / 2 ^ 96)

/-- A close value of ln(m × 2^e), m > 0. -/
def logOf (m : Nat) (e : Int) : Fp :=
  let k := Nat.log2 m
  let q := 2 ^ k
  let z := (m - q) * 2 ^ 96 / (m + q)
  let f := 2 * atanhSeries (z * z / 2 ^ 96) 34 1 z
  let v : Int := ((k : Int) + e) * ln2Fix + f
  .fin (decide (v < 0)) v.natAbs (-96)

/-- |y − r| ≤ |r| × 2^-22 or, where abs, 2^-24; the reference's own error is allowed for. Below the normal range one
quantum of FP32 is allowed. -/
def within (y r : Fp) (abs : Bool) : Bool :=
  let d := (y.sub r).abs
  let tol := if abs then Fp.fin false (2 ^ 40 + 1) (-64) else r.abs.mul (.fin false (2 ^ 40 + 1) (-62))
  !tol.lt d || (r.abs.lt (.fin false 1 (-126)) && !(Fp.fin false 1 (-149)).lt d)

/-- The reference is so large that a result within the bound may overflow. -/
def mayOverflow (r : Fp) : Bool := !(r.mul (.fin false (2 ^ 22 + 2) (-22))).lt (.fin false (2 ^ 25 - 1) 103)

/-- A free candidate, held to a bound. -/
def bounded (ok : Nat → Bool) (ref cand : Nat) : Nat := if ok (cand % 2 ^ 32) then cand % 2 ^ 32 else ref

def quietNaN : Nat := 0x7FC00000
def fInf (s : Bool) : Nat := if s then 0xFF800000 else 0x7F800000

/-- EXP and EXP2 (R122, R123). -/
def unitExp (base2 : Bool) (a : Nat) : Nat :=
  match fp32 a with
  | .nan => quietNaN
  | .inf s => if s then 0 else fInf false
  | .fin s m e =>
    if (Fp.fin false m e).lt (.fin false 1 9) then
      let r := expOf base2 s m e
      bounded (fun y => match fp32 y with
        | .fin t n g => (!t || n == 0) && within (.fin false n g) r false
        | .inf t => !t && mayOverflow r
        | .nan => false) (toFp32 r) (Sys2Proof.Config.approx (if base2 then opExp2 else opExp) a)
    else if s then bounded (fun y => decide (y ≤ 1)) 0 (Sys2Proof.Config.approx (if base2 then opExp2 else opExp) a)
    else fInf false

/-- LOG (R122, R123). -/
def unitLog (a : Nat) : Nat :=
  match fp32 a with
  | .nan => quietNaN
  | .inf s => if s then quietNaN else fInf false
  | .fin s m e =>
    if m = 0 then fInf true
    else if s then quietNaN
    else
      let r := logOf m e
      let mid := !(fp32 a).lt (.fin false 1 (-1)) && !(Fp.fin false 2 0).lt (fp32 a)
      bounded (fun y => (fp32 y).isFin && within (fp32 y) r mid) (toFp32 r) (Sys2Proof.Config.approx opLog a)

/-- RCP (R122, R123): at most 1 ulp from 1/a. -/
def unitRcp (a : Nat) : Nat :=
  let ref := toFp32 (f32Div Fp.one (fp32 a))
  match fp32 a, fp32 ref with
  | .fin _ _ _, .fin _ _ _ =>
    bounded (fun y => match fp32 y with
      | .fin t n g =>
        let d := (((Fp.fin t n g).mul (fp32 a)).sub Fp.one).abs
        !((fp32 a).abs.mul (.fin false 1 (ulpExp (fp32 ref)))).lt d
      | _ => false) ref (Sys2Proof.Config.approx opRcp a)
  | _, _ => ref

/-- 1/√(m × 2^e) correctly rounded to FP32. -/
def rsqrtRef (m : Nat) (e : Int) : Nat :=
  let (m1, e1) := if e % 2 = 0 then (m, e) else (2 * m, e - 1)
  let k := 64 + Nat.log2 m1
  let r := isqrt (2 ^ (2 * k) / m1)
  encodeFp fFP32 (roundRat fFP32 false (2 * r + b2n (r * r * m1 ≠ 2 ^ (2 * k))) 1 (-(k : Int) - 1 - e1 / 2))

/-- RSQRT (R122, R123): at most 1 ulp from 1/√a. -/
def unitRsqrt (a : Nat) : Nat :=
  match fp32 a with
  | .nan => quietNaN
  | .inf s => if s then quietNaN else 0
  | .fin s m e =>
    if m = 0 then fInf s
    else if s then quietNaN
    else
      let ref := rsqrtRef m e
      let u : Fp := .fin false 1 (ulpExp (fp32 ref))
      let sq := fun (y : Fp) => (y.mul y).mul (fp32 a)
      bounded (fun y => match fp32 y with
        | .fin false n g =>
          let v := Fp.fin false n g
          !(Fp.one.lt (sq (v.sub u))) && !((sq (v.add u)).lt Fp.one)
        | _ => false) ref (Sys2Proof.Config.approx opRsqrt a)

end Sys2Proof.Machine
end

