-- ==== Sys2Proof/Machine/RegTable.lean ====
section
/-! DEFINITION. Machine/RegTable.lean: the block registers of every page type, row by row from the register tables of
the spec's chapters: offset, count and stride of an array of registers, reset value, and which bits are RW, RO, W1C and RC
(R14). A bit in none of the masks is reserved or WO and reads 0 (R15). Reset values the spec gives as by instance, from
fuses or from flash stand as 0 here and are supplied by `Sys2Proof.Machine.regReset` (Machine/Pages.lean). -/
namespace Sys2Proof.Machine

/-- One row of a register summary table: `count` registers `stride` bytes apart from byte offset `off`, with the reset
value and the masks of the RW, RO, W1C and RC bits. -/
structure RegRow where
  off : Nat
  count : Nat
  stride : Nat
  reset : Nat
  rw : Nat
  ro : Nat
  w1c : Nat
  rc : Nat
  deriving DecidableEq, Repr

namespace R

/-- Byte offset of TIL_NUM_FLAGS (chapter 01): Sticky NaN, infinity and code flags. -/
abbrev TIL_NUM_FLAGS : Nat := 0x200
/-- Byte offset of TIL_SAT_COUNT (chapter 01): Saturating conversions (R42). -/
abbrev TIL_SAT_COUNT : Nat := 0x204
/-- Byte offset of TIL_FTZ_COUNT (chapter 01): Conversions flushed to zero (R43). -/
abbrev TIL_FTZ_COUNT : Nat := 0x208
/-- Byte offset of TIL_ESC_COUNT (chapter 01): P4X annex blocks read (R33). -/
abbrev TIL_ESC_COUNT : Nat := 0x20C
/-- Byte offset of TIL_RND_CTL (chapter 01): Stochastic-rounding enables. -/
abbrev TIL_RND_CTL : Nat := 0x210
/-- Byte offset of TIL_SEQ_CTL (chapter 02): Resume and flush. -/
abbrev TIL_SEQ_CTL : Nat := 0x040
/-- Byte offset of TIL_SEQ_STS (chapter 02): Sequencer state. -/
abbrev TIL_SEQ_STS : Nat := 0x044
/-- Byte offset of TIL_SEQ_HEAD (chapter 02): Retired descriptor count. -/
abbrev TIL_SEQ_HEAD : Nat := 0x048
/-- Byte offset of TIL_SEQ_TAIL (chapter 02): Produced descriptor count. -/
abbrev TIL_SEQ_TAIL : Nat := 0x04C
/-- Byte offset of TIL_SEQ_REJ (chapter 02): Last rejected descriptor. -/
abbrev TIL_SEQ_REJ : Nat := 0x050
/-- Byte offset of TIL_SEQ_FLUSH_TAG (chapter 02): Lowest step tag flushed. -/
abbrev TIL_SEQ_FLUSH_TAG : Nat := 0x054
/-- Byte offset of TIL_SEQ_WDOG (chapter 02): Issue watchdog. -/
abbrev TIL_SEQ_WDOG : Nat := 0x058
/-- Byte offset of TIL_CLK_CTL (chapter 02): Idle clock stop. -/
abbrev TIL_CLK_CTL : Nat := 0x05C
/-- Byte offset of TIL_SPILL_BASE (chapter 02): Spill region. -/
abbrev TIL_SPILL_BASE : Nat := 0x060
/-- Byte offset of TIL_STEP_OPEN (chapter 02): Open step (R94). -/
abbrev TIL_STEP_OPEN : Nat := 0x064
/-- Byte offset of TIL_TREC_BASE_LO (chapter 02): Tensor-record table, bits [31:0]. -/
abbrev TIL_TREC_BASE_LO : Nat := 0x068
/-- Byte offset of TIL_TREC_BASE_HI (chapter 02): Tensor-record table, bits [63:32]. -/
abbrev TIL_TREC_BASE_HI : Nat := 0x06C
/-- Byte offset of TIL_SRAM_STS (chapter 02): SRAM state. -/
abbrev TIL_SRAM_STS : Nat := 0x070
/-- Byte offset of TIL_SRAM_CE (chapter 02): Corrected SRAM errors. -/
abbrev TIL_SRAM_CE : Nat := 0x074
/-- Byte offset of TIL_SRAM_SCRUB (chapter 02): Patrol scrub interval. -/
abbrev TIL_SRAM_SCRUB : Nat := 0x078
/-- Byte offset of TIL_SITE (chapter 02): Logical ID and physical site. -/
abbrev TIL_SITE : Nat := 0x07C
/-- Byte offset of TIL_EVCn (chapter 02), 16 registers 0x4 apart: Event counters (R90). -/
abbrev TIL_EVC : Nat := 0x080
/-- Byte offset of DST_SPARE_MAPn (chapter 02), 16 registers 0x4 apart: Spare-street map, one per column (R106). -/
abbrev DST_SPARE_MAP : Nat := 0x100
/-- Byte offset of TIL_VEC_FLAGS (chapter 03): Sticky vector-engine flags. -/
abbrev TIL_VEC_FLAGS : Nat := 0x100
/-- Byte offset of TIL_VEC_PACKCNT (chapter 03): Packed count of the last VCH with PACK_O0 (R127). -/
abbrev TIL_VEC_PACKCNT : Nat := 0x104
/-- Byte offset of TIL_ACT_LOAD (chapter 03): Table load (R136). -/
abbrev TIL_ACT_LOAD : Nat := 0x140
/-- Byte offset of TIL_ACT_STS (chapter 03): Table slot state. -/
abbrev TIL_ACT_STS : Nat := 0x144
/-- Byte offset of TIL_ROW_CTL (chapter 03): Statistics-store control. -/
abbrev TIL_ROW_CTL : Nat := 0x180
/-- Byte offset of TIL_ROW_STS (chapter 03): Statistics-store state. -/
abbrev TIL_ROW_STS : Nat := 0x184
/-- Byte offset of TIL_ROW_MISS (chapter 03): Rows whose statistics were recomputed (R146). -/
abbrev TIL_ROW_MISS : Nat := 0x188
/-- Byte offset of TIL_ROW_FLAGS (chapter 03): Sticky row-engine flags. -/
abbrev TIL_ROW_FLAGS : Nat := 0x18C
/-- Byte offset of TIL_WIN_SKIP (chapter 04): Weight blocks skipped (R159). -/
abbrev TIL_WIN_SKIP : Nat := 0x1C0
/-- Byte offset of TIL_WIN_FLAGS (chapter 04): Sticky window flags. -/
abbrev TIL_WIN_FLAGS : Nat := 0x1C4
/-- Byte offset of KVS_CTL (chapter 05): Enables. -/
abbrev KVS_CTL : Nat := 0x040
/-- Byte offset of KVS_STS (chapter 05): State. -/
abbrev KVS_STS : Nat := 0x044
/-- Byte offset of KVS_CTX_BASE_LO (chapter 05): Context records, bits [31:0]. -/
abbrev KVS_CTX_BASE_LO : Nat := 0x048
/-- Byte offset of KVS_CTX_BASE_HI (chapter 05): Context records, bits [63:32]. -/
abbrev KVS_CTX_BASE_HI : Nat := 0x04C
/-- Byte offset of KVS_CMD_BASE_LO (chapter 05): Command ring, bits [31:0]. -/
abbrev KVS_CMD_BASE_LO : Nat := 0x050
/-- Byte offset of KVS_CMD_BASE_HI (chapter 05): Command ring, bits [63:32]. -/
abbrev KVS_CMD_BASE_HI : Nat := 0x054
/-- Byte offset of KVS_CMD_HEAD (chapter 05): Completed commands. -/
abbrev KVS_CMD_HEAD : Nat := 0x058
/-- Byte offset of KVS_CMD_TAIL (chapter 05): Produced commands. -/
abbrev KVS_CMD_TAIL : Nat := 0x05C
/-- Byte offset of KVS_PIN_FLOOR (chapter 05): Free pages kept for pins (R185). -/
abbrev KVS_PIN_FLOOR : Nat := 0x060
/-- Byte offset of KVS_EVICT_LOW (chapter 05): Eviction start (R193). -/
abbrev KVS_EVICT_LOW : Nat := 0x064
/-- Byte offset of KVS_EVICT_HIGH (chapter 05): Eviction stop. -/
abbrev KVS_EVICT_HIGH : Nat := 0x068
/-- Byte offset of KVS_ALLOC_WAIT (chapter 05): Allocation wait (R186). -/
abbrev KVS_ALLOC_WAIT : Nat := 0x06C
/-- Byte offset of KVS_ALLOC_COUNT (chapter 05): Pages allocated. -/
abbrev KVS_ALLOC_COUNT : Nat := 0x070
/-- Byte offset of KVS_COW_COUNT (chapter 05): Copies made (R187). -/
abbrev KVS_COW_COUNT : Nat := 0x074
/-- Byte offset of KVS_EVICT_COUNT (chapter 05): Logical pages evicted. -/
abbrev KVS_EVICT_COUNT : Nat := 0x078
/-- Byte offset of KVS_FAULT_COUNT (chapter 05): Walk faults. -/
abbrev KVS_FAULT_COUNT : Nat := 0x07C
/-- Byte offset of KVS_POOLn_CTL (chapter 05), 8 registers 0x40 apart: Pool n enable, n from 0 to 7. -/
abbrev KVS_POOL_CTL : Nat := 0x200
/-- Byte offset of KVS_POOLn_FIRST (chapter 05), 8 registers 0x40 apart: First page number. -/
abbrev KVS_POOL_FIRST : Nat := 0x204
/-- Byte offset of KVS_POOLn_COUNT (chapter 05), 8 registers 0x40 apart: Pages in the pool. -/
abbrev KVS_POOL_COUNT : Nat := 0x208
/-- Byte offset of KVS_POOLn_ADDR_LO (chapter 05), 8 registers 0x40 apart: Page area, bits [31:0]. -/
abbrev KVS_POOL_ADDR_LO : Nat := 0x210
/-- Byte offset of KVS_POOLn_ADDR_HI (chapter 05), 8 registers 0x40 apart: Page area, bits [63:32]. -/
abbrev KVS_POOL_ADDR_HI : Nat := 0x214
/-- Byte offset of KVS_POOLn_META_LO (chapter 05), 8 registers 0x40 apart: Metadata array, bits [31:0]. -/
abbrev KVS_POOL_META_LO : Nat := 0x218
/-- Byte offset of KVS_POOLn_META_HI (chapter 05), 8 registers 0x40 apart: Metadata array, bits [63:32]. -/
abbrev KVS_POOL_META_HI : Nat := 0x21C
/-- Byte offset of KVS_POOLn_FREE (chapter 05), 8 registers 0x40 apart: Free-list length; latches the next three (R190). -/
abbrev KVS_POOL_FREE : Nat := 0x220
/-- Byte offset of KVS_POOLn_RESERVE (chapter 05), 8 registers 0x40 apart: Reserve-list length. -/
abbrev KVS_POOL_RESERVE : Nat := 0x224
/-- Byte offset of KVS_POOLn_REFSUM (chapter 05), 8 registers 0x40 apart: Sum of REFCNT. -/
abbrev KVS_POOL_REFSUM : Nat := 0x228
/-- Byte offset of KVS_POOLn_PINS (chapter 05), 8 registers 0x40 apart: Pins held. -/
abbrev KVS_POOL_PINS : Nat := 0x22C
/-- Byte offset of HDD_CTL (chapter 05): Start, abort, phase. -/
abbrev HDD_CTL : Nat := 0x040
/-- Byte offset of HDD_STS (chapter 05): State. -/
abbrev HDD_STS : Nat := 0x044
/-- Byte offset of HDD_ITEM_BASE_LO (chapter 05): Item list, bits [31:0]. -/
abbrev HDD_ITEM_BASE_LO : Nat := 0x048
/-- Byte offset of HDD_ITEM_BASE_HI (chapter 05): Item list, bits [63:32]. -/
abbrev HDD_ITEM_BASE_HI : Nat := 0x04C
/-- Byte offset of HDD_ITEM_COUNT (chapter 05): Items. -/
abbrev HDD_ITEM_COUNT : Nat := 0x050
/-- Byte offset of HDD_STEP_TAG (chapter 05): STEP_TAG of emitted descriptors. -/
abbrev HDD_STEP_TAG : Nat := 0x054
/-- Byte offset of HDD_SPLIT_LEN (chapter 05): Split length (R206). -/
abbrev HDD_SPLIT_LEN : Nat := 0x058
/-- Byte offset of HDD_TILESET (chapter 05): Tiles of the set. -/
abbrev HDD_TILESET : Nat := 0x05C
/-- Byte offset of HDD_BUF (chapter 05): Buffer region (R209). -/
abbrev HDD_BUF : Nat := 0x060
/-- Byte offset of HDD_AREC (chapter 05): Attention record. -/
abbrev HDD_AREC : Nat := 0x064
/-- Byte offset of HDD_SCRATCH_LO (chapter 05): Scratch slots, bits [31:0]. -/
abbrev HDD_SCRATCH_LO : Nat := 0x068
/-- Byte offset of HDD_SCRATCH_HI (chapter 05): Scratch slots, bits [63:32]. -/
abbrev HDD_SCRATCH_HI : Nat := 0x06C
/-- Byte offset of HDD_SCRATCH_SLOTS (chapter 05): Slot count. -/
abbrev HDD_SCRATCH_SLOTS : Nat := 0x070
/-- Byte offset of HDD_DONE_SIG (chapter 05): Completion counter. -/
abbrev HDD_DONE_SIG : Nat := 0x074
/-- Byte offset of HDD_TILES_USED (chapter 05): Tiles given work in the last dispatch. -/
abbrev HDD_TILES_USED : Nat := 0x080
/-- Byte offset of HDD_LOAD_MAX (chapter 05): Largest tile cost. -/
abbrev HDD_LOAD_MAX : Nat := 0x084
/-- Byte offset of HDD_LOAD_MIN (chapter 05): Smallest tile cost. -/
abbrev HDD_LOAD_MIN : Nat := 0x088
/-- Byte offset of HDD_EVICT_SKIP (chapter 05): Key blocks left out for eviction. -/
abbrev HDD_EVICT_SKIP : Nat := 0x08C
/-- Byte offset of TIL_BWD_CTL (chapter 06): Deferral, frozen skip, excision. -/
abbrev TIL_BWD_CTL : Nat := 0x0C0
/-- Byte offset of TIL_BWD_STS (chapter 06): Deferred-queue state. -/
abbrev TIL_BWD_STS : Nat := 0x0C4
/-- Byte offset of TIL_MB (chapter 06): Micro-batch stamp source (R221). -/
abbrev TIL_MB : Nat := 0x0C8
/-- Byte offset of TIL_EXCISE_MB (chapter 06): Micro-batch excised (R220). -/
abbrev TIL_EXCISE_MB : Nat := 0x0CC
/-- Byte offset of TIL_FROZEN_BASE_LO (chapter 06): Frozen-tensor bitmap, bits [31:0]. -/
abbrev TIL_FROZEN_BASE_LO : Nat := 0x0D0
/-- Byte offset of TIL_FROZEN_BASE_HI (chapter 06): Frozen-tensor bitmap, bits [63:32]. -/
abbrev TIL_FROZEN_BASE_HI : Nat := 0x0D4
/-- Byte offset of TIL_BWD_SKIP (chapter 06): Descriptors skipped as frozen (R226). -/
abbrev TIL_BWD_SKIP : Nat := 0x0D8
/-- Byte offset of TIL_DEFER_OVF (chapter 06): DEFER descriptors not parked (R216). -/
abbrev TIL_DEFER_OVF : Nat := 0x0DC
/-- Byte offset of TIL_STAT_EPOCH (chapter 06): Statistics-store epoch (R229). -/
abbrev TIL_STAT_EPOCH : Nat := 0x0E0
/-- Byte offset of STP_STASH_CTL (chapter 06): Enable and policy. -/
abbrev STP_STASH_CTL : Nat := 0x300
/-- Byte offset of STP_STASH_STS (chapter 06): State. -/
abbrev STP_STASH_STS : Nat := 0x304
/-- Byte offset of STP_STASH_APT (chapter 06): Aperture base (R236). -/
abbrev STP_STASH_APT : Nat := 0x308
/-- Byte offset of STP_STASH_ENTRIES (chapter 06): Plan records. -/
abbrev STP_STASH_ENTRIES : Nat := 0x30C
/-- Byte offset of STP_STASH_PLAN_LO (chapter 06): Plan, bits [31:0]. -/
abbrev STP_STASH_PLAN_LO : Nat := 0x310
/-- Byte offset of STP_STASH_PLAN_HI (chapter 06): Plan, bits [63:32]. -/
abbrev STP_STASH_PLAN_HI : Nat := 0x314
/-- Byte offset of STP_STASH_FULL_COUNT (chapter 06): STASH_FULL events (R239). -/
abbrev STP_STASH_FULL_COUNT : Nat := 0x318
/-- Byte offset of STP_STASH_FAULT_COUNT (chapter 06): Stash faults (R241). -/
abbrev STP_STASH_FAULT_COUNT : Nat := 0x31C
/-- Byte offset of STP_STASH_NEARd_BASE_LO (chapter 06), 6 registers 0x10 apart: Near stack d, bits [31:0]. -/
abbrev STP_STASH_NEAR_BASE_LO : Nat := 0x320
/-- Byte offset of STP_STASH_NEARd_BASE_HI (chapter 06), 6 registers 0x10 apart: Near stack d, bits [63:32]. -/
abbrev STP_STASH_NEAR_BASE_HI : Nat := 0x324
/-- Byte offset of STP_STASH_NEARd_SIZE (chapter 06), 6 registers 0x10 apart: Near stack d size. -/
abbrev STP_STASH_NEAR_SIZE : Nat := 0x328
/-- Byte offset of STP_STASH_NEARd_USED (chapter 06), 6 registers 0x10 apart: Near stack d top. -/
abbrev STP_STASH_NEAR_USED : Nat := 0x32C
/-- Byte offset of STP_STASH_FAR_BASE_LO (chapter 06): Far stack. -/
abbrev STP_STASH_FAR_BASE_LO : Nat := 0x380
/-- Byte offset of STP_STASH_FAR_BASE_HI (chapter 06): Far stack. -/
abbrev STP_STASH_FAR_BASE_HI : Nat := 0x384
/-- Byte offset of STP_STASH_FAR_SIZE (chapter 06): Far stack. -/
abbrev STP_STASH_FAR_SIZE : Nat := 0x388
/-- Byte offset of STP_STASH_FAR_USED (chapter 06): Far stack. -/
abbrev STP_STASH_FAR_USED : Nat := 0x38C
/-- Byte offset of STP_STASH_HOST_BASE_LO (chapter 06): Host stack, in the owner partition's host-port window. -/
abbrev STP_STASH_HOST_BASE_LO : Nat := 0x390
/-- Byte offset of STP_STASH_HOST_BASE_HI (chapter 06): Host stack, in the owner partition's host-port window. -/
abbrev STP_STASH_HOST_BASE_HI : Nat := 0x394
/-- Byte offset of STP_STASH_HOST_SIZE (chapter 06): Host stack, in the owner partition's host-port window. -/
abbrev STP_STASH_HOST_SIZE : Nat := 0x398
/-- Byte offset of STP_STASH_HOST_USED (chapter 06): Host stack, in the owner partition's host-port window. -/
abbrev STP_STASH_HOST_USED : Nat := 0x39C
/-- Byte offset of TIL_UPD_GMUL0 (chapter 07): Gradient multiplier, even parity (R254). -/
abbrev TIL_UPD_GMUL0 : Nat := 0x220
/-- Byte offset of TIL_UPD_GMUL1 (chapter 07): Gradient multiplier, odd parity. -/
abbrev TIL_UPD_GMUL1 : Nat := 0x224
/-- Byte offset of TIL_UPD_STS (chapter 07): Multiplier validity. -/
abbrev TIL_UPD_STS : Nat := 0x228
/-- Byte offset of TIL_UPD_FLAGS (chapter 07): Sticky update flags. -/
abbrev TIL_UPD_FLAGS : Nat := 0x22C
/-- Byte offset of TIL_ROOT_SKIP (chapter 07): ROOT descriptors skipped (R272). -/
abbrev TIL_ROOT_SKIP : Nat := 0x230
/-- Byte offset of UPD_CTL (chapter 07): Enable. -/
abbrev UPD_CTL : Nat := 0x040
/-- Byte offset of UPD_STS (chapter 07): State. -/
abbrev UPD_STS : Nat := 0x044
/-- Byte offset of UPD_GROUP_BASE_LO (chapter 07): Group records, bits [31:0]. -/
abbrev UPD_GROUP_BASE_LO : Nat := 0x048
/-- Byte offset of UPD_GROUP_BASE_HI (chapter 07): Group records, bits [63:32]. -/
abbrev UPD_GROUP_BASE_HI : Nat := 0x04C
/-- Byte offset of UPD_SHARD_BASE_LO (chapter 07): Shard records, bits [31:0]. -/
abbrev UPD_SHARD_BASE_LO : Nat := 0x050
/-- Byte offset of UPD_SHARD_BASE_HI (chapter 07): Shard records, bits [63:32]. -/
abbrev UPD_SHARD_BASE_HI : Nat := 0x054
/-- Byte offset of UPD_SHARD_COUNT (chapter 07): Shard records. -/
abbrev UPD_SHARD_COUNT : Nat := 0x058
/-- Byte offset of UPD_PROG_BASE_LO (chapter 07): Program table, bits [31:0]. -/
abbrev UPD_PROG_BASE_LO : Nat := 0x05C
/-- Byte offset of UPD_PROG_BASE_HI (chapter 07): Program table, bits [63:32]. -/
abbrev UPD_PROG_BASE_HI : Nat := 0x060
/-- Byte offset of UPD_SCHED_BASE_LO (chapter 07): Schedule records, bits [31:0]. -/
abbrev UPD_SCHED_BASE_LO : Nat := 0x064
/-- Byte offset of UPD_SCHED_BASE_HI (chapter 07): Schedule records, bits [63:32]. -/
abbrev UPD_SCHED_BASE_HI : Nat := 0x068
/-- Byte offset of UPD_ROOT_BASE_LO (chapter 07): Root records, bits [31:0]. -/
abbrev UPD_ROOT_BASE_LO : Nat := 0x06C
/-- Byte offset of UPD_ROOT_BASE_HI (chapter 07): Root records, bits [63:32]. -/
abbrev UPD_ROOT_BASE_HI : Nat := 0x070
/-- Byte offset of UPD_ROOT_COUNT (chapter 07): Root records. -/
abbrev UPD_ROOT_COUNT : Nat := 0x074
/-- Byte offset of UPD_SKEW_COUNT (chapter 07): STEP_SKEW events. -/
abbrev UPD_SKEW_COUNT : Nat := 0x078
/-- Byte offset of UPD_STALL_COUNT (chapter 07): ROOT_STALL events. -/
abbrev UPD_STALL_COUNT : Nat := 0x07C
/-- Byte offset of UPD_SWAP_COUNT (chapter 07): Roots swapped in (R275). -/
abbrev UPD_SWAP_COUNT : Nat := 0x080
/-- Byte offset of TIL_STEP_RA (chapter 08): Run-ahead permission (R280). -/
abbrev TIL_STEP_RA : Nat := 0x0E4
/-- Byte offset of TIL_MB_DECIDED (chapter 08): Micro-batches decided (R286). -/
abbrev TIL_MB_DECIDED : Nat := 0x0E8
/-- Byte offset of STP_CTL (chapter 08): Enable, start, squash, stop. -/
abbrev STP_CTL : Nat := 0x040
/-- Byte offset of STP_STS (chapter 08): Phase and state. -/
abbrev STP_STS : Nat := 0x044
/-- Byte offset of STP_OPEN_STEP (chapter 08): Open step (R279). -/
abbrev STP_OPEN_STEP : Nat := 0x048
/-- Byte offset of STP_JOB_SEED_LO (chapter 08): Job seed bits [31:0] (R49). -/
abbrev STP_JOB_SEED_LO : Nat := 0x04C
/-- Byte offset of STP_JOB_SEED_HI (chapter 08): Job seed bits [63:32]. -/
abbrev STP_JOB_SEED_HI : Nat := 0x050
/-- Byte offset of STP_CFG (chapter 08): Step policies. -/
abbrev STP_CFG : Nat := 0x054
/-- Byte offset of STP_CLIP_NORM (chapter 08): CLIP_NORM. -/
abbrev STP_CLIP_NORM : Nat := 0x058
/-- Byte offset of STP_SILENCE (chapter 08): SILENCE_LIMIT (R298). -/
abbrev STP_SILENCE : Nat := 0x05C
/-- Byte offset of STP_MB_COUNT (chapter 08): Micro-batches per step. -/
abbrev STP_MB_COUNT : Nat := 0x060
/-- Byte offset of STP_TGT_FWD (chapter 08): Phase targets (R282). -/
abbrev STP_TGT_FWD : Nat := 0x064
/-- Byte offset of STP_TGT_BWDI (chapter 08): Phase targets (R282). -/
abbrev STP_TGT_BWDI : Nat := 0x068
/-- Byte offset of STP_TGT_BWDW (chapter 08): Phase targets (R282). -/
abbrev STP_TGT_BWDW : Nat := 0x06C
/-- Byte offset of STP_TGT_GATHER (chapter 08): Phase targets (R282). -/
abbrev STP_TGT_GATHER : Nat := 0x070
/-- Byte offset of STP_TGT_RED (chapter 08): Phase targets (R282). -/
abbrev STP_TGT_RED : Nat := 0x074
/-- Byte offset of STP_TGT_UPD (chapter 08): Phase targets (R282). -/
abbrev STP_TGT_UPD : Nat := 0x078
/-- Byte offset of STP_MB_STS (chapter 08): Micro-batch decisions. -/
abbrev STP_MB_STS : Nat := 0x07C
/-- Byte offset of STP_LOSS_BASE_LO (chapter 08): Loss records, bits [31:0]. -/
abbrev STP_LOSS_BASE_LO : Nat := 0x080
/-- Byte offset of STP_LOSS_BASE_HI (chapter 08): Loss records, bits [63:32]. -/
abbrev STP_LOSS_BASE_HI : Nat := 0x084
/-- Byte offset of STP_NORM_BASE_LO (chapter 08): Norm slots, bits [31:0]. -/
abbrev STP_NORM_BASE_LO : Nat := 0x088
/-- Byte offset of STP_NORM_BASE_HI (chapter 08): Norm slots, bits [63:32]. -/
abbrev STP_NORM_BASE_HI : Nat := 0x08C
/-- Byte offset of STP_NORM_SLOTS (chapter 08): Norm slot count. -/
abbrev STP_NORM_SLOTS : Nat := 0x090
/-- Byte offset of STP_NORM_EXPECT (chapter 08): Expected count (R290). -/
abbrev STP_NORM_EXPECT : Nat := 0x094
/-- Byte offset of STP_TREC_BASE_LO (chapter 08): Tensor records, bits [31:0]. -/
abbrev STP_TREC_BASE_LO : Nat := 0x098
/-- Byte offset of STP_TREC_BASE_HI (chapter 08): Tensor records, bits [63:32]. -/
abbrev STP_TREC_BASE_HI : Nat := 0x09C
/-- Byte offset of STP_TREC_COUNT (chapter 08): Tensor records. -/
abbrev STP_TREC_COUNT : Nat := 0x0A0
/-- Byte offset of STP_VOTE_CTL (chapter 08): Vote group. -/
abbrev STP_VOTE_CTL : Nat := 0x0A4
/-- Byte offset of STP_VOTE_WAIT (chapter 08): Vote timeout (R291). -/
abbrev STP_VOTE_WAIT : Nat := 0x0A8
/-- Byte offset of STP_SIG (chapter 08): Producer signal. -/
abbrev STP_SIG : Nat := 0x0AC
/-- Byte offset of STP_NORM (chapter 08): Last norm. -/
abbrev STP_NORM : Nat := 0x0B0
/-- Byte offset of STP_GMUL (chapter 08): Last final multiplier. -/
abbrev STP_GMUL : Nat := 0x0B4
/-- Byte offset of STP_RESCALE (chapter 08): Straggler rescale of the last reduction. -/
abbrev STP_RESCALE : Nat := 0x0B8
/-- Byte offset of STP_VERDICT (chapter 08): Reasons of the last squash. -/
abbrev STP_VERDICT : Nat := 0x0BC
/-- Byte offset of STP_LAST_COMMIT (chapter 08): Last committed step. -/
abbrev STP_LAST_COMMIT : Nat := 0x0C0
/-- Byte offset of STP_CL_EXPECTED (chapter 08): Contribution ledger at the last close of REDUCE. -/
abbrev STP_CL_EXPECTED : Nat := 0x0C4
/-- Byte offset of STP_CL_INCLUDED (chapter 08): Contribution ledger at the last close of REDUCE. -/
abbrev STP_CL_INCLUDED : Nat := 0x0C8
/-- Byte offset of STP_CL_DEFERRED (chapter 08): Contribution ledger at the last close of REDUCE. -/
abbrev STP_CL_DEFERRED : Nat := 0x0CC
/-- Byte offset of STP_CL_DROPPED (chapter 08): Contribution ledger at the last close of REDUCE. -/
abbrev STP_CL_DROPPED : Nat := 0x0D0
/-- Byte offset of STP_COMMIT_COUNT (chapter 08): Event counts. -/
abbrev STP_COMMIT_COUNT : Nat := 0x0D4
/-- Byte offset of STP_SQUASH_COUNT (chapter 08): Event counts. -/
abbrev STP_SQUASH_COUNT : Nat := 0x0D8
/-- Byte offset of STP_EXCISE_COUNT (chapter 08): Event counts. -/
abbrev STP_EXCISE_COUNT : Nat := 0x0DC
/-- Byte offset of STP_RESTAGE_COUNT (chapter 08): Event counts. -/
abbrev STP_RESTAGE_COUNT : Nat := 0x0E0
/-- Byte offset of STP_CLIP_COUNT (chapter 08): Event counts. -/
abbrev STP_CLIP_COUNT : Nat := 0x0E4
/-- Byte offset of STP_EVCn (chapter 08), 16 registers 0x4 apart: Controller event counters (R281). -/
abbrev STP_EVC : Nat := 0x100
/-- Byte offset of STP_EXCISE_MAPn (chapter 08), 32 registers 0x4 apart: Excise map, 32 micro-batches per register. -/
abbrev STP_EXCISE_MAP : Nat := 0x140
/-- Byte offset of NMC_CTL (chapter 09): Scrub, refresh, zero fill. -/
abbrev NMC_CTL : Nat := 0x040
/-- Byte offset of NMC_STS (chapter 09): State. -/
abbrev NMC_STS : Nat := 0x044
/-- Byte offset of NMC_SCRUB (chapter 09): Scrub interval (R315). -/
abbrev NMC_SCRUB : Nat := 0x048
/-- Byte offset of NMC_CE_COUNT (chapter 09): Corrected errors (R313). -/
abbrev NMC_CE_COUNT : Nat := 0x04C
/-- Byte offset of NMC_UE_COUNT (chapter 09): Uncorrectable errors (R314). -/
abbrev NMC_UE_COUNT : Nat := 0x050
/-- Byte offset of NMC_TEMP (chapter 09): Hottest DRAM sensor. -/
abbrev NMC_TEMP : Nat := 0x054
/-- Byte offset of CRS_CTL (chapter 09): Ageing step. -/
abbrev CRS_CTL : Nat := 0x040
/-- Byte offset of CRS_STS (chapter 09): Servers busy, requests waiting. -/
abbrev CRS_STS : Nat := 0x044
/-- Byte offset of CRS_DEF_NORMAL (chapter 09): Default budget, normal class. -/
abbrev CRS_DEF_NORMAL : Nat := 0x048
/-- Byte offset of CRS_DEF_URGENT (chapter 09): Default budget, urgent class. -/
abbrev CRS_DEF_URGENT : Nat := 0x04C
/-- Byte offset of CRS_QUOTA (chapter 09): Urgent quota and window (R325). -/
abbrev CRS_QUOTA : Nat := 0x050
/-- Byte offset of CRS_WDOG (chapter 09): Watchdog (R326). -/
abbrev CRS_WDOG : Nat := 0x054
/-- Byte offset of CRS_GRANT_COUNT (chapter 09): Grants made. -/
abbrev CRS_GRANT_COUNT : Nat := 0x058
/-- Byte offset of CRS_MISS_COUNT (chapter 09): Grants after the original D (R323). -/
abbrev CRS_MISS_COUNT : Nat := 0x05C
/-- Byte offset of CRS_MASK_COUNT (chapter 09): Rounds in which a masked request waited. -/
abbrev CRS_MASK_COUNT : Nat := 0x060
/-- Byte offset of CRS_WDOG_COUNT (chapter 09): Watchdog resets. -/
abbrev CRS_WDOG_COUNT : Nat := 0x064
/-- Byte offset of CRS_WAIT_MAX (chapter 09): Longest wait from arrival to grant. -/
abbrev CRS_WAIT_MAX : Nat := 0x068
/-- Byte offset of ING_CTL (chapter 10): Enables. -/
abbrev ING_CTL : Nat := 0x040
/-- Byte offset of ING_BUCKET_BASE_LO (chapter 10): Bucket records, bits [31:0]. -/
abbrev ING_BUCKET_BASE_LO : Nat := 0x048
/-- Byte offset of ING_BUCKET_BASE_HI (chapter 10): Bucket records, bits [63:32]. -/
abbrev ING_BUCKET_BASE_HI : Nat := 0x04C
/-- Byte offset of ING_SLOT_BASE_LO (chapter 10): Slot records, bits [31:0]. -/
abbrev ING_SLOT_BASE_LO : Nat := 0x050
/-- Byte offset of ING_SLOT_BASE_HI (chapter 10): Slot records, bits [63:32]. -/
abbrev ING_SLOT_BASE_HI : Nat := 0x054
/-- Byte offset of ING_FILL_WAIT (chapter 10): Batch close wait (R362). -/
abbrev ING_FILL_WAIT : Nat := 0x058
/-- Byte offset of ING_DRY_US (chapter 10): RING_DRY interval (R338). -/
abbrev ING_DRY_US : Nat := 0x05C
/-- Byte offset of ING_STR_CTL (chapter 10): Enable and policies. -/
abbrev ING_STR_CTL : Nat := 0x040
/-- Byte offset of ING_STR_STS (chapter 10): State. -/
abbrev ING_STR_STS : Nat := 0x044
/-- Byte offset of ING_STR_RING_BASE_LO (chapter 10): Ring, bits [31:0]. -/
abbrev ING_STR_RING_BASE_LO : Nat := 0x048
/-- Byte offset of ING_STR_RING_BASE_HI (chapter 10): Ring, bits [63:32]. -/
abbrev ING_STR_RING_BASE_HI : Nat := 0x04C
/-- Byte offset of ING_STR_RING_SIZE (chapter 10): Ring size. -/
abbrev ING_STR_RING_SIZE : Nat := 0x050
/-- Byte offset of ING_STR_TAIL (chapter 10): Producer position (R332). -/
abbrev ING_STR_TAIL : Nat := 0x054
/-- Byte offset of ING_STR_HEAD (chapter 10): Oldest unit held (R341). -/
abbrev ING_STR_HEAD : Nat := 0x058
/-- Byte offset of ING_STR_CURSOR (chapter 10): Next unit to take. -/
abbrev ING_STR_CURSOR : Nat := 0x05C
/-- Byte offset of ING_STR_LOOKAHEAD (chapter 10): RING_LOOKAHEAD (R338). -/
abbrev ING_STR_LOOKAHEAD : Nat := 0x060
/-- Byte offset of ING_STR_BUDGET (chapter 10): Decode budget (R343, R344). -/
abbrev ING_STR_BUDGET : Nat := 0x064
/-- Byte offset of ING_STR_LIMIT (chapter 10): Plausibility limits (R345). -/
abbrev ING_STR_LIMIT : Nat := 0x068
/-- Byte offset of ING_STR_SPARE_BASE_LO (chapter 10): Spare address array, bits [31:0]. -/
abbrev ING_STR_SPARE_BASE_LO : Nat := 0x06C
/-- Byte offset of ING_STR_SPARE_BASE_HI (chapter 10): Spare address array, bits [63:32]. -/
abbrev ING_STR_SPARE_BASE_HI : Nat := 0x070
/-- Byte offset of ING_STR_SPARE_COUNT (chapter 10): Spares (R351). -/
abbrev ING_STR_SPARE_COUNT : Nat := 0x074
/-- Byte offset of ING_STR_SPARE_BAD_LO (chapter 10): Spares 0–31 marked bad. -/
abbrev ING_STR_SPARE_BAD_LO : Nat := 0x078
/-- Byte offset of ING_STR_SPARE_BAD_HI (chapter 10): Spares 32–63 marked bad. -/
abbrev ING_STR_SPARE_BAD_HI : Nat := 0x07C
/-- Byte offset of ING_STR_REQ_BASE_LO (chapter 10): Request ring, bits [31:0]. -/
abbrev ING_STR_REQ_BASE_LO : Nat := 0x080
/-- Byte offset of ING_STR_REQ_BASE_HI (chapter 10): Request ring, bits [63:32]. -/
abbrev ING_STR_REQ_BASE_HI : Nat := 0x084
/-- Byte offset of ING_STR_REQ_HEAD (chapter 10): Completed requests. -/
abbrev ING_STR_REQ_HEAD : Nat := 0x088
/-- Byte offset of ING_STR_REQ_TAIL (chapter 10): Produced requests. -/
abbrev ING_STR_REQ_TAIL : Nat := 0x08C
/-- Byte offset of ING_STR_BAND_SIG (chapter 10): Band signal (R355). -/
abbrev ING_STR_BAND_SIG : Nat := 0x090
/-- Byte offset of ING_STR_TAKEN_LO (chapter 10): Ledger, bits [31:0] (R342). -/
abbrev ING_STR_TAKEN_LO : Nat := 0x0A0
/-- Byte offset of ING_STR_TAKEN_HI (chapter 10): Ledger, bits [31:0] (R342). -/
abbrev ING_STR_TAKEN_HI : Nat := 0x0A4
/-- Byte offset of ING_STR_USED_LO (chapter 10): Ledger, bits [31:0] (R342). -/
abbrev ING_STR_USED_LO : Nat := 0x0A8
/-- Byte offset of ING_STR_USED_HI (chapter 10): Ledger, bits [31:0] (R342). -/
abbrev ING_STR_USED_HI : Nat := 0x0AC
/-- Byte offset of ING_STR_REPLACED_LO (chapter 10): Ledger, bits [31:0] (R342). -/
abbrev ING_STR_REPLACED_LO : Nat := 0x0B0
/-- Byte offset of ING_STR_REPLACED_HI (chapter 10): Ledger, bits [31:0] (R342). -/
abbrev ING_STR_REPLACED_HI : Nat := 0x0B4
/-- Byte offset of ING_STR_SKIPPED_LO (chapter 10): Ledger, bits [31:0] (R342). -/
abbrev ING_STR_SKIPPED_LO : Nat := 0x0B8
/-- Byte offset of ING_STR_SKIPPED_HI (chapter 10): Ledger, bits [31:0] (R342). -/
abbrev ING_STR_SKIPPED_HI : Nat := 0x0BC
/-- Byte offset of ING_STR_REWOUND_LO (chapter 10): Ledger, bits [31:0] (R342). -/
abbrev ING_STR_REWOUND_LO : Nat := 0x0C0
/-- Byte offset of ING_STR_REWOUND_HI (chapter 10): Ledger, bits [31:0] (R342). -/
abbrev ING_STR_REWOUND_HI : Nat := 0x0C4
/-- Byte offset of ING_STR_PENDING_LO (chapter 10): Ledger, bits [31:0] (R342). -/
abbrev ING_STR_PENDING_LO : Nat := 0x0C8
/-- Byte offset of ING_STR_PENDING_HI (chapter 10): Ledger, bits [31:0] (R342). -/
abbrev ING_STR_PENDING_HI : Nat := 0x0CC
/-- Byte offset of ING_STR_DIM (chapter 10): Reason counters. -/
abbrev ING_STR_DIM : Nat := 0x0D0
/-- Byte offset of ING_STR_TIMEOUT (chapter 10): Reason counters. -/
abbrev ING_STR_TIMEOUT : Nat := 0x0D4
/-- Byte offset of ING_STR_DECODE_ERR (chapter 10): Reason counters. -/
abbrev ING_STR_DECODE_ERR : Nat := 0x0D8
/-- Byte offset of ING_STR_BAD_RECORD (chapter 10): Reason counters. -/
abbrev ING_STR_BAD_RECORD : Nat := 0x0DC
/-- Byte offset of ING_STR_TOO_LONG (chapter 10): Reason counters. -/
abbrev ING_STR_TOO_LONG : Nat := 0x0E0
/-- Byte offset of ING_STR_TRUNCATED (chapter 10): Reason counters. -/
abbrev ING_STR_TRUNCATED : Nat := 0x0E4
/-- Byte offset of ING_STR_SPARE_EMPTY (chapter 10): Reason counters. -/
abbrev ING_STR_SPARE_EMPTY : Nat := 0x0E8
/-- Byte offset of ING_STR_PAD_ROWS (chapter 10): Reason counters. -/
abbrev ING_STR_PAD_ROWS : Nat := 0x0EC
/-- Byte offset of MDE_CTL (chapter 10): Enable. -/
abbrev MDE_CTL : Nat := 0x040
/-- Byte offset of MDE_STS (chapter 10): Cores busy. -/
abbrev MDE_STS : Nat := 0x044
/-- Byte offset of MDE_WORK_BASE_LO (chapter 10): Work areas, bits [31:0]. -/
abbrev MDE_WORK_BASE_LO : Nat := 0x048
/-- Byte offset of MDE_WORK_BASE_HI (chapter 10): Work areas, bits [63:32]. -/
abbrev MDE_WORK_BASE_HI : Nat := 0x04C
/-- Byte offset of MDE_WORK_STRIDE (chapter 10): Work area per core (R350). -/
abbrev MDE_WORK_STRIDE : Nat := 0x050
/-- Byte offset of MDE_CORE_DIS_LO (chapter 10): Cores 0–31 disabled. -/
abbrev MDE_CORE_DIS_LO : Nat := 0x054
/-- Byte offset of MDE_CORE_DIS_HI (chapter 10): Cores 32–47 disabled (image pool only). -/
abbrev MDE_CORE_DIS_HI : Nat := 0x058
/-- Byte offset of MDE_DECODED (chapter 10): Parts decoded. -/
abbrev MDE_DECODED : Nat := 0x05C
/-- Byte offset of MDE_ABANDONED (chapter 10): Decodes abandoned by budget, watchdog or rewind. -/
abbrev MDE_ABANDONED : Nat := 0x060
/-- Byte offset of MDE_ERRORS (chapter 10): Parts failed with DECODE_ERR. -/
abbrev MDE_ERRORS : Nat := 0x064
/-- Byte offset of TOK_CTL (chapter 10): Enable. -/
abbrev TOK_CTL : Nat := 0x040
/-- Byte offset of TOK_STS (chapter 10): Engines busy. -/
abbrev TOK_STS : Nat := 0x044
/-- Byte offset of TOK_BYTES (chapter 10): Text bytes tokenized. -/
abbrev TOK_BYTES : Nat := 0x048
/-- Byte offset of TOK_TOKENS (chapter 10): Tokens emitted. -/
abbrev TOK_TOKENS : Nat := 0x04C
/-- Byte offset of TOK_FALLBACK (chapter 10): Byte-fallback tokens. -/
abbrev TOK_FALLBACK : Nat := 0x050
/-- Byte offset of TOK_UTF8_ERR (chapter 10): Parts that are not valid UTF-8 (R358). -/
abbrev TOK_UTF8_ERR : Nat := 0x054
/-- Byte offset of TOK_DICTd_BASE_LO (chapter 10), 4 registers 0x10 apart: Dictionary d, bits [31:0]. -/
abbrev TOK_DICT_BASE_LO : Nat := 0x080
/-- Byte offset of TOK_DICTd_BASE_HI (chapter 10), 4 registers 0x10 apart: Dictionary d, bits [63:32]. -/
abbrev TOK_DICT_BASE_HI : Nat := 0x084
/-- Byte offset of TOK_DICTd_CTL (chapter 10), 4 registers 0x10 apart: Dictionary d enable and state. -/
abbrev TOK_DICT_CTL : Nat := 0x088
/-- Byte offset of EXE_CTL (chapter 10): Enable and abort. -/
abbrev EXE_CTL : Nat := 0x040
/-- Byte offset of EXE_STS (chapter 10): State. -/
abbrev EXE_STS : Nat := 0x044
/-- Byte offset of EXE_JOB_BASE_LO (chapter 10): Job ring, bits [31:0]. -/
abbrev EXE_JOB_BASE_LO : Nat := 0x048
/-- Byte offset of EXE_JOB_BASE_HI (chapter 10): Job ring, bits [63:32]. -/
abbrev EXE_JOB_BASE_HI : Nat := 0x04C
/-- Byte offset of EXE_JOB_HEAD (chapter 10): Completed jobs. -/
abbrev EXE_JOB_HEAD : Nat := 0x050
/-- Byte offset of EXE_JOB_TAIL (chapter 10): Produced jobs. -/
abbrev EXE_JOB_TAIL : Nat := 0x054
/-- Byte offset of EXE_OUT_BASE_LO (chapter 10): Output ring, bits [31:0]. -/
abbrev EXE_OUT_BASE_LO : Nat := 0x058
/-- Byte offset of EXE_OUT_BASE_HI (chapter 10): Output ring, bits [63:32]. -/
abbrev EXE_OUT_BASE_HI : Nat := 0x05C
/-- Byte offset of EXE_OUT_SIZE (chapter 10): Output ring size. -/
abbrev EXE_OUT_SIZE : Nat := 0x060
/-- Byte offset of EXE_OUT_HEAD (chapter 10): Consumer position. -/
abbrev EXE_OUT_HEAD : Nat := 0x064
/-- Byte offset of EXE_OUT_TAIL (chapter 10): Encoder position. -/
abbrev EXE_OUT_TAIL : Nat := 0x068
/-- Byte offset of EXE_FRAMES (chapter 10): Frames encoded. -/
abbrev EXE_FRAMES : Nat := 0x06C
/-- Byte offset of EXE_BYTES (chapter 10): Payload bytes written. -/
abbrev EXE_BYTES : Nat := 0x070
/-- Byte offset of EXE_OUT_WAIT (chapter 10): Microseconds waited for HEAD (R369). -/
abbrev EXE_OUT_WAIT : Nat := 0x074
/-- Byte offset of GAT_CTL (chapter 11): Gate controls. -/
abbrev GAT_CTL : Nat := 0x040
/-- Byte offset of GAT_STS (chapter 11): Links active and degraded. -/
abbrev GAT_STS : Nat := 0x044
/-- Byte offset of GAT_STORE_USED (chapter 11): Block store in use. -/
abbrev GAT_STORE_USED : Nat := 0x048
/-- Byte offset of GAT_LNKk_CTL (chapter 11), 12 registers 0x20 apart: Link k control, k from 0 to 11. -/
abbrev GAT_LNK_CTL : Nat := 0x100
/-- Byte offset of GAT_LNKk_STS (chapter 11), 12 registers 0x20 apart: Link k state. -/
abbrev GAT_LNK_STS : Nat := 0x104
/-- Byte offset of GAT_LNKk_FEC_CE (chapter 11), 12 registers 0x20 apart: Codewords corrected. -/
abbrev GAT_LNK_FEC_CE : Nat := 0x108
/-- Byte offset of GAT_LNKk_FEC_UE (chapter 11), 12 registers 0x20 apart: Codewords uncorrectable. -/
abbrev GAT_LNK_FEC_UE : Nat := 0x10C
/-- Byte offset of GAT_LNKk_REPLAY (chapter 11), 12 registers 0x20 apart: Flits resent. -/
abbrev GAT_LNK_REPLAY : Nat := 0x110
/-- Byte offset of GAT_LNKk_RETRAINS (chapter 11), 12 registers 0x20 apart: Retrains. -/
abbrev GAT_LNK_RETRAINS : Nat := 0x114
/-- Byte offset of GAT_LNKk_DROP (chapter 11), 12 registers 0x20 apart: Packets discarded at DOWN (R382). -/
abbrev GAT_LNK_DROP : Nat := 0x118
/-- Byte offset of GAT_LNKk_AUTH (chapter 11), 12 registers 0x20 apart: Segments failing authentication. -/
abbrev GAT_LNK_AUTH : Nat := 0x11C
/-- Byte offset of GAT_SYS_CTL (chapter 11): Reduction, time and policy controls. -/
abbrev GAT_SYS_CTL : Nat := 0x040
/-- Byte offset of GAT_SYS_STS (chapter 11): Time state, attempt. -/
abbrev GAT_SYS_STS : Nat := 0x044
/-- Byte offset of GAT_MODULE_ID (chapter 11): Module ID (R386). -/
abbrev GAT_MODULE_ID : Nat := 0x048
/-- Byte offset of GAT_SYSTEM_TAG (chapter 11): System tag (R381). -/
abbrev GAT_SYSTEM_TAG : Nat := 0x04C
/-- Byte offset of GAT_GROUP (chapter 11): This module's stretch group. -/
abbrev GAT_GROUP : Nat := 0x050
/-- Byte offset of GAT_GROUPS (chapter 11): N, and modules per group. -/
abbrev GAT_GROUPS : Nat := 0x054
/-- Byte offset of GAT_ROUTE_IDX (chapter 11): Routing entry index (R387). -/
abbrev GAT_ROUTE_IDX : Nat := 0x058
/-- Byte offset of GAT_ROUTE_DATA (chapter 11): Routing entry. -/
abbrev GAT_ROUTE_DATA : Nat := 0x05C
/-- Byte offset of GAT_JOB_BASE_LO (chapter 11): Job ring, bits [31:0]. -/
abbrev GAT_JOB_BASE_LO : Nat := 0x060
/-- Byte offset of GAT_JOB_BASE_HI (chapter 11): Job ring, bits [63:32]. -/
abbrev GAT_JOB_BASE_HI : Nat := 0x064
/-- Byte offset of GAT_JOB_HEAD (chapter 11): Completed jobs. -/
abbrev GAT_JOB_HEAD : Nat := 0x068
/-- Byte offset of GAT_JOB_TAIL (chapter 11): Produced jobs. -/
abbrev GAT_JOB_TAIL : Nat := 0x06C
/-- Byte offset of GAT_PLAN_BASE_LO (chapter 11): Plans, bits [31:0]. -/
abbrev GAT_PLAN_BASE_LO : Nat := 0x070
/-- Byte offset of GAT_PLAN_BASE_HI (chapter 11): Plans, bits [63:32]. -/
abbrev GAT_PLAN_BASE_HI : Nat := 0x074
/-- Byte offset of GAT_STEP_JOBS (chapter 11): Jobs per step (R397). -/
abbrev GAT_STEP_JOBS : Nat := 0x078
/-- Byte offset of GAT_LATE_FACTOR (chapter 11): LATE_FACTOR (R398). -/
abbrev GAT_LATE_FACTOR : Nat := 0x07C
/-- Byte offset of GAT_LATE_LIMIT (chapter 11): Consecutive exclusions before STRAGGLER_FAIL. -/
abbrev GAT_LATE_LIMIT : Nat := 0x080
/-- Byte offset of GAT_MEDIAN (chapter 11): Median step time. -/
abbrev GAT_MEDIAN : Nat := 0x084
/-- Byte offset of GAT_DEADLINE_LO (chapter 11): Current D, bits [31:0]. -/
abbrev GAT_DEADLINE_LO : Nat := 0x088
/-- Byte offset of GAT_DEADLINE_HI (chapter 11): Current D, bits [63:32]. -/
abbrev GAT_DEADLINE_HI : Nat := 0x08C
/-- Byte offset of GAT_TIME_PORT (chapter 11): Time parent and interval (R391). -/
abbrev GAT_TIME_PORT : Nat := 0x090
/-- Byte offset of GAT_TIME_OFFSET (chapter 11): Last measured offset. -/
abbrev GAT_TIME_OFFSET : Nat := 0x094
/-- Byte offset of GAT_ACK_TIMEOUT (chapter 11): Remote reply timeout (R390). -/
abbrev GAT_ACK_TIMEOUT : Nat := 0x098
/-- Byte offset of GAT_RED_FLAGS (chapter 11): Reduction flags per parity (R404). -/
abbrev GAT_RED_FLAGS : Nat := 0x09C
/-- Byte offset of GAT_SKEW_GROUP (chapter 11): Group of the first skew. -/
abbrev GAT_SKEW_GROUP : Nat := 0x0A0
/-- Byte offset of GAT_LATE_STS (chapter 11): Last include decision. -/
abbrev GAT_LATE_STS : Nat := 0x0A4
/-- Byte offset of GAT_STALE (chapter 11): Blocks discarded as stale (R405). -/
abbrev GAT_STALE : Nat := 0x0A8
/-- Byte offset of GAT_NOROUTE (chapter 11): Packets without a route (R388). -/
abbrev GAT_NOROUTE : Nat := 0x0AC
/-- Byte offset of GAT_TTL_DROP (chapter 11): Packets discarded at TTL 0. -/
abbrev GAT_TTL_DROP : Nat := 0x0B0
/-- Byte offset of ERR_STS (chapter 12): Module error state. -/
abbrev ERR_STS : Nat := 0x040
/-- Byte offset of ERR_FATAL (chapter 12): Fatal error pending (R433). -/
abbrev ERR_FATAL : Nat := 0x044
/-- Byte offset of ERR_FATAL_SEQ (chapter 12): SEQ of the pending fatal record. -/
abbrev ERR_FATAL_SEQ : Nat := 0x048
/-- Byte offset of ERR_LOG_COUNT (chapter 12): Unread records. -/
abbrev ERR_LOG_COUNT : Nat := 0x04C
/-- Byte offset of ERR_LOG_SEQ (chapter 12): SEQ of the next record. -/
abbrev ERR_LOG_SEQ : Nat := 0x050
/-- Byte offset of ERR_LOG_POP (chapter 12): Remove the oldest record (R431). -/
abbrev ERR_LOG_POP : Nat := 0x054
/-- Byte offset of ERR_LOST (chapter 12): Records removed unread (R432). -/
abbrev ERR_LOST : Nat := 0x058
/-- Byte offset of ERR_VOID_CAUSE (chapter 12): Conditions voiding the guarantees. -/
abbrev ERR_VOID_CAUSE : Nat := 0x05C
/-- Byte offset of ERR_VOID_PAGE (chapter 12): Page of the first debug write. -/
abbrev ERR_VOID_PAGE : Nat := 0x060
/-- Byte offset of ERR_LOG_DATAn (chapter 12), 8 registers 0x4 apart: Oldest unread record. -/
abbrev ERR_LOG_DATA : Nat := 0x080
/-- Byte offset of CKP_CTL (chapter 12): Enables and commands. -/
abbrev CKP_CTL : Nat := 0x040
/-- Byte offset of CKP_STS (chapter 12): State and failure reason. -/
abbrev CKP_STS : Nat := 0x044
/-- Byte offset of CKP_INTERVAL (chapter 12): Steps between captures (R419). -/
abbrev CKP_INTERVAL : Nat := 0x048
/-- Byte offset of CKP_SEG_SIZE (chapter 12): Segment size (R422). -/
abbrev CKP_SEG_SIZE : Nat := 0x04C
/-- Byte offset of CKP_MANIFEST_BASE_LO (chapter 12): Manifest, bits [31:0]. -/
abbrev CKP_MANIFEST_BASE_LO : Nat := 0x050
/-- Byte offset of CKP_MANIFEST_BASE_HI (chapter 12): Manifest, bits [63:32]. -/
abbrev CKP_MANIFEST_BASE_HI : Nat := 0x054
/-- Byte offset of CKP_MANIFEST_COUNT (chapter 12): Manifest entries. -/
abbrev CKP_MANIFEST_COUNT : Nat := 0x058
/-- Byte offset of CKP_BANK_SIZE (chapter 12): Size of each bank. -/
abbrev CKP_BANK_SIZE : Nat := 0x05C
/-- Byte offset of CKP_BANK0_LO (chapter 12): Local banks (R420). -/
abbrev CKP_BANK0_LO : Nat := 0x060
/-- Byte offset of CKP_BANK0_HI (chapter 12): Local banks (R420). -/
abbrev CKP_BANK0_HI : Nat := 0x064
/-- Byte offset of CKP_BANK1_LO (chapter 12): Local banks (R420). -/
abbrev CKP_BANK1_LO : Nat := 0x068
/-- Byte offset of CKP_BANK1_HI (chapter 12): Local banks (R420). -/
abbrev CKP_BANK1_HI : Nat := 0x06C
/-- Byte offset of CKP_BUDDY0_LO (chapter 12): Buddy banks, remote addresses (R421). -/
abbrev CKP_BUDDY0_LO : Nat := 0x070
/-- Byte offset of CKP_BUDDY0_HI (chapter 12): Buddy banks, remote addresses (R421). -/
abbrev CKP_BUDDY0_HI : Nat := 0x074
/-- Byte offset of CKP_BUDDY1_LO (chapter 12): Buddy banks, remote addresses (R421). -/
abbrev CKP_BUDDY1_LO : Nat := 0x078
/-- Byte offset of CKP_BUDDY1_HI (chapter 12): Buddy banks, remote addresses (R421). -/
abbrev CKP_BUDDY1_HI : Nat := 0x07C
/-- Byte offset of CKP_SRC_LO (chapter 12): Restore source, bits [31:0]. -/
abbrev CKP_SRC_LO : Nat := 0x080
/-- Byte offset of CKP_SRC_HI (chapter 12): Restore source, bits [63:32]. -/
abbrev CKP_SRC_HI : Nat := 0x084
/-- Byte offset of CKP_LAST_LOCAL (chapter 12): Resume step of the newest complete local copy. -/
abbrev CKP_LAST_LOCAL : Nat := 0x088
/-- Byte offset of CKP_LAST_BUDDY (chapter 12): Resume step of the newest complete buddy copy. -/
abbrev CKP_LAST_BUDDY : Nat := 0x08C
/-- Byte offset of CKP_LAST_BANK (chapter 12): Banks holding those copies. -/
abbrev CKP_LAST_BANK : Nat := 0x090
/-- Byte offset of CKP_FAIL_SEG (chapter 12): Segment of the last CRC failure. -/
abbrev CKP_FAIL_SEG : Nat := 0x094
/-- Byte offset of CKP_CAPTURES (chapter 12): Captures completed. -/
abbrev CKP_CAPTURES : Nat := 0x098
/-- Byte offset of CKP_FAILURES (chapter 12): Captures, sends and restores failed. -/
abbrev CKP_FAILURES : Nat := 0x09C
/-- Byte offset of TIM_MT_LO (chapter 12): MT bits [31:0]; a read latches TIM_MT_HI. -/
abbrev TIM_MT_LO : Nat := 0x040
/-- Byte offset of TIM_MT_HI (chapter 12): MT bits [63:32], as latched. -/
abbrev TIM_MT_HI : Nat := 0x044
/-- Byte offset of TIM_STS (chapter 12): Lock state. -/
abbrev TIM_STS : Nat := 0x048
/-- Byte offset of PAGE_ID (chapter 13): Block type, instance, version. -/
abbrev PAGE_ID : Nat := 0x000
/-- Byte offset of PAGE_CAP (chapter 13): Events defined, power request. -/
abbrev PAGE_CAP : Nat := 0x004
/-- Byte offset of PAGE_CTL (chapter 13): Enable, soft reset, power request. -/
abbrev PAGE_CTL : Nat := 0x008
/-- Byte offset of PAGE_STS (chapter 13): Power and reset state. -/
abbrev PAGE_STS : Nat := 0x00C
/-- Byte offset of EVT_STS (chapter 13): Events raised. -/
abbrev EVT_STS : Nat := 0x010
/-- Byte offset of EVT_EN (chapter 13): Events signalled. -/
abbrev EVT_EN : Nat := 0x014
/-- Byte offset of EVT_FORCE (chapter 13): Raise events (debug register, R11). -/
abbrev EVT_FORCE : Nat := 0x018
/-- Byte offset of EVT_ROUTE (chapter 13): Signal targets. -/
abbrev EVT_ROUTE : Nat := 0x01C
/-- Byte offset of ERR_FIRST (chapter 13): First error. -/
abbrev ERR_FIRST : Nat := 0x020
/-- Byte offset of ERR_COUNT (chapter 13): First error. -/
abbrev ERR_COUNT : Nat := 0x024
/-- Byte offset of ERR_INFO0 (chapter 13): First error. -/
abbrev ERR_INFO0 : Nat := 0x028
/-- Byte offset of ERR_INFO1 (chapter 13): First error. -/
abbrev ERR_INFO1 : Nat := 0x02C
/-- Byte offset of TS_LO (chapter 13): First error. -/
abbrev TS_LO : Nat := 0x030
/-- Byte offset of TS_HI (chapter 13): First error. -/
abbrev TS_HI : Nat := 0x034
/-- Byte offset of PAGE_LOCK (chapter 13): Write lock. -/
abbrev PAGE_LOCK : Nat := 0x038
/-- Byte offset of PAGE_OWNER (chapter 13): Partition and feeders. -/
abbrev PAGE_OWNER : Nat := 0x03C
/-- Byte offset of HPT_CQ_TAIL (chapter 13): Doorbell: produced count. -/
abbrev HPT_CQ_TAIL : Nat := 0x000
/-- Byte offset of HPT_CQ_HEAD (chapter 13): Completed count. -/
abbrev HPT_CQ_HEAD : Nat := 0x004
/-- Byte offset of HPT_CQ_CTL (chapter 13): Enable, resume, flush, vector, size. -/
abbrev HPT_CQ_CTL : Nat := 0x008
/-- Byte offset of HPT_CQ_STS (chapter 13): State. -/
abbrev HPT_CQ_STS : Nat := 0x00C
/-- Byte offset of HPT_CQ_BASE_LO (chapter 13): Command ring, bits [31:0]. -/
abbrev HPT_CQ_BASE_LO : Nat := 0x010
/-- Byte offset of HPT_CQ_BASE_HI (chapter 13): Command ring, bits [63:32]. -/
abbrev HPT_CQ_BASE_HI : Nat := 0x014
/-- Byte offset of HPT_CQ_CMPL_LO (chapter 13): Completion ring, bits [31:0]. -/
abbrev HPT_CQ_CMPL_LO : Nat := 0x018
/-- Byte offset of HPT_CQ_CMPL_HI (chapter 13): Completion ring, bits [63:32]. -/
abbrev HPT_CQ_CMPL_HI : Nat := 0x01C
/-- Byte offset of HPT_CTL (chapter 13): DMA enable. -/
abbrev HPT_CTL : Nat := 0x040
/-- Byte offset of HPT_STS (chapter 13): Link and security state. -/
abbrev HPT_STS : Nat := 0x044
/-- Byte offset of HPT_WIN_IDX (chapter 13): Window entry index (R462). -/
abbrev HPT_WIN_IDX : Nat := 0x048
/-- Byte offset of HPT_WIN_DATA_LO (chapter 13): Window entry flags. -/
abbrev HPT_WIN_DATA_LO : Nat := 0x04C
/-- Byte offset of HPT_WIN_DATA_HI (chapter 13): Window entry host address. -/
abbrev HPT_WIN_DATA_HI : Nat := 0x050
/-- Byte offset of HPT_CPL_TIMEOUT (chapter 13): Read timeout and detach limit. -/
abbrev HPT_CPL_TIMEOUT : Nat := 0x054
/-- Byte offset of HPT_IRQ_HOLDOFF (chapter 13): Interrupt holdoff (R452). -/
abbrev HPT_IRQ_HOLDOFF : Nat := 0x058
/-- Byte offset of HPT_DENY_COUNT (chapter 13): Refused accesses (R448). -/
abbrev HPT_DENY_COUNT : Nat := 0x05C
/-- Byte offset of HPT_DENY_INFO (chapter 13): Last refused access. -/
abbrev HPT_DENY_INFO : Nat := 0x060
/-- Byte offset of HPT_CPL_TO_COUNT (chapter 13): Completion timeouts. -/
abbrev HPT_CPL_TO_COUNT : Nat := 0x064
/-- Byte offset of HPT_IRQ_DROP (chapter 13): Signals dropped. -/
abbrev HPT_IRQ_DROP : Nat := 0x068
/-- Byte offset of HPT_APn_LO (chapter 13), 16 registers 0x8 apart: Aperture entry n flags, n = 0–15 (R444). -/
abbrev HPT_AP_LO : Nat := 0x100
/-- Byte offset of HPT_APn_HI (chapter 13), 16 registers 0x8 apart: Aperture entry n device address. -/
abbrev HPT_AP_HI : Nat := 0x104
/-- Byte offset of PRT_MAPd (chapter 13), 6 registers 0x4 apart: District d's partition, d = 0–5. -/
abbrev PRT_MAP : Nat := 0x040
/-- Byte offset of PRT_QMAPk (chapter 13), 8 registers 0x4 apart: Ports of queues 8k to 8k + 7. -/
abbrev PRT_QMAP : Nat := 0x060
/-- Byte offset of PRT_ADMIN (chapter 13): Admin port. -/
abbrev PRT_ADMIN : Nat := 0x080
/-- Byte offset of PRT_ERR_INFO (chapter 13): Last refused write (R466). -/
abbrev PRT_ERR_INFO : Nat := 0x084
/-- Byte offset of PRT_P_CTL (chapter 13): Policy. -/
abbrev PRT_P_CTL : Nat := 0x040
/-- Byte offset of PRT_P_STS (chapter 13): State. -/
abbrev PRT_P_STS : Nat := 0x044
/-- Byte offset of PRT_P_OWNER (chapter 13): Owner port. -/
abbrev PRT_P_OWNER : Nat := 0x048
/-- Byte offset of PRT_P_FAR_BASE (chapter 13): Far range base. -/
abbrev PRT_P_FAR_BASE : Nat := 0x04C
/-- Byte offset of PRT_P_FAR_SIZE (chapter 13): Far range size. -/
abbrev PRT_P_FAR_SIZE : Nat := 0x050
/-- Byte offset of SEC_CTL (chapter 13): Key transport policy. -/
abbrev SEC_CTL : Nat := 0x040
/-- Byte offset of SEC_STS (chapter 13): Security state. -/
abbrev SEC_STS : Nat := 0x044
/-- Byte offset of SEC_CLEAR (chapter 13): Clear every secret (R476). -/
abbrev SEC_CLEAR : Nat := 0x048
/-- Byte offset of SEC_KEY_SEL (chapter 13): Slot, per port. -/
abbrev SEC_KEY_SEL : Nat := 0x04C
/-- Byte offset of SEC_KEY_DATAn (chapter 13), 8 registers 0x4 apart: Key words, per port. -/
abbrev SEC_KEY_DATA : Nat := 0x050
/-- Byte offset of SEC_KEY_SALT (chapter 13): Salt, per port. -/
abbrev SEC_KEY_SALT : Nat := 0x070
/-- Byte offset of SEC_KEY_CMD (chapter 13): Load or erase, per port. -/
abbrev SEC_KEY_CMD : Nat := 0x074
/-- Byte offset of SEC_KEY_KCV (chapter 13): Check value of the last load, per port. -/
abbrev SEC_KEY_KCV : Nat := 0x078
/-- Byte offset of SEC_KEY_VALID (chapter 13): Valid slots of the port's partition. -/
abbrev SEC_KEY_VALID : Nat := 0x07C
/-- Byte offset of SEC_LINK_CMD (chapter 13): Link key install (R474). -/
abbrev SEC_LINK_CMD : Nat := 0x080
/-- Byte offset of SEC_IMG_CTL (chapter 13): Image staging and programming (R471). -/
abbrev SEC_IMG_CTL : Nat := 0x084
/-- Byte offset of SEC_SVN_COMMIT (chapter 13): Raise the fused SVN. -/
abbrev SEC_SVN_COMMIT : Nat := 0x088
/-- Byte offset of SEC_MEASn (chapter 13), 12 registers 0x4 apart: Image digest, bytes 0–47. -/
abbrev SEC_MEAS : Nat := 0x0C0
/-- Byte offset of AO_SUPPLY_STS (chapter 14): Supply and output state. -/
abbrev AO_SUPPLY_STS : Nat := 0x040
/-- Byte offset of AO_SIDEBAND (chapter 14): Filtered sideband inputs. -/
abbrev AO_SIDEBAND : Nat := 0x044
/-- Byte offset of AO_VIN (chapter 14): VIN voltage and current. -/
abbrev AO_VIN : Nat := 0x048
/-- Byte offset of AO_VIO12_MV (chapter 14): VIO12 voltage. -/
abbrev AO_VIO12_MV : Nat := 0x04C
/-- Byte offset of AO_VANA_MV (chapter 14): VANA voltage. -/
abbrev AO_VANA_MV : Nat := 0x050
/-- Byte offset of AO_TRIP_INFO (chapter 14): Last thermal trip (R502). -/
abbrev AO_TRIP_INFO : Nat := 0x054
/-- Byte offset of AO_RESET_CAUSE (chapter 14): Cause of the last reset. -/
abbrev AO_RESET_CAUSE : Nat := 0x058
/-- Byte offset of PWR_CTL (chapter 14): Governor enables and commands. -/
abbrev PWR_CTL : Nat := 0x040
/-- Byte offset of PWR_STS (chapter 14): Power state. -/
abbrev PWR_STS : Nat := 0x044
/-- Byte offset of PWR_RAMP (chapter 14): Ramp limits and band. -/
abbrev PWR_RAMP : Nat := 0x048
/-- Byte offset of PWR_FLOOR (chapter 14): Floor percentage. -/
abbrev PWR_FLOOR : Nat := 0x04C
/-- Byte offset of PWR_LIMIT (chapter 14): Ceiling. -/
abbrev PWR_LIMIT : Nat := 0x050
/-- Byte offset of PWR_WAKE (chapter 14): Wake pacing (R493). -/
abbrev PWR_WAKE : Nat := 0x054
/-- Byte offset of PWR_EST (chapter 14): Estimate and reference. -/
abbrev PWR_EST : Nat := 0x058
/-- Byte offset of PWR_AVG (chapter 14): 1-s average and current floor. -/
abbrev PWR_AVG : Nat := 0x05C
/-- Byte offset of PWR_PARK_GRACE (chapter 14): Grace period (R503). -/
abbrev PWR_PARK_GRACE : Nat := 0x060
/-- Byte offset of PWR_THERM (chapter 14): Thermal threshold (R501). -/
abbrev PWR_THERM : Nat := 0x064
/-- Byte offset of PWR_TEMP (chapter 14): Hottest sensor. -/
abbrev PWR_TEMP : Nat := 0x068
/-- Byte offset of PWR_DUTY (chapter 14): Duty per district. -/
abbrev PWR_DUTY : Nat := 0x06C
/-- Byte offset of PWR_FILL_COUNT (chapter 14): Tile-microseconds of filler work. -/
abbrev PWR_FILL_COUNT : Nat := 0x070
/-- Byte offset of PWR_DEFER_COUNT (chapter 14): Deferred wakes and starts. -/
abbrev PWR_DEFER_COUNT : Nat := 0x074
/-- Byte offset of PWR_DOM_REQ_LO (chapter 14): Requests, domains 0–31. -/
abbrev PWR_DOM_REQ_LO : Nat := 0x080
/-- Byte offset of PWR_DOM_REQ_HI (chapter 14): Requests, domains 32–40. -/
abbrev PWR_DOM_REQ_HI : Nat := 0x084
/-- Byte offset of PWR_DOM_STS_LO (chapter 14): Domains 0–31 on. -/
abbrev PWR_DOM_STS_LO : Nat := 0x088
/-- Byte offset of PWR_DOM_STS_HI (chapter 14): Domains 32–40 on. -/
abbrev PWR_DOM_STS_HI : Nat := 0x08C
/-- Byte offset of CLK_STS (chapter 14): Clock state. -/
abbrev CLK_STS : Nat := 0x040
/-- Byte offset of CLK_PLL_CTL (chapter 14): Keep PLLs running. -/
abbrev CLK_PLL_CTL : Nat := 0x044
/-- Byte offset of CLK_LOCK_LOSS (chapter 14): Losses of lock (R494). -/
abbrev CLK_LOCK_LOSS : Nat := 0x048
/-- Byte offset of BST_CTL (chapter 15): Run, start policy, abort. -/
abbrev BST_CTL : Nat := 0x040
/-- Byte offset of BST_STS (chapter 15): Run state. -/
abbrev BST_STS : Nat := 0x044
/-- Byte offset of BST_DOM_MASK_LO (chapter 15): DEMAND domains 0–31. -/
abbrev BST_DOM_MASK_LO : Nat := 0x048
/-- Byte offset of BST_DOM_MASK_HI (chapter 15): DEMAND domains 32–40. -/
abbrev BST_DOM_MASK_HI : Nat := 0x04C
/-- Byte offset of BST_PASS_LO (chapter 15): Domains 0–31 passed. -/
abbrev BST_PASS_LO : Nat := 0x050
/-- Byte offset of BST_PASS_HI (chapter 15): Domains 32–40 passed. -/
abbrev BST_PASS_HI : Nat := 0x054
/-- Byte offset of BST_FAIL_LO (chapter 15): Domains 0–31 failed. -/
abbrev BST_FAIL_LO : Nat := 0x058
/-- Byte offset of BST_FAIL_HI (chapter 15): Domains 32–40 failed. -/
abbrev BST_FAIL_HI : Nat := 0x05C
/-- Byte offset of BST_FENCE_LO (chapter 15): Domains 0–31 fenced (R519). -/
abbrev BST_FENCE_LO : Nat := 0x060
/-- Byte offset of BST_FENCE_HI (chapter 15): Domains 32–40 fenced. -/
abbrev BST_FENCE_HI : Nat := 0x064
/-- Byte offset of BST_FAIL_INFO0 (chapter 15): First failure. -/
abbrev BST_FAIL_INFO0 : Nat := 0x068
/-- Byte offset of BST_FAIL_INFO1 (chapter 15): First failure, address. -/
abbrev BST_FAIL_INFO1 : Nat := 0x06C
/-- Byte offset of BST_FAR_WIN (chapter 15): Far window size (R515). -/
abbrev BST_FAR_WIN : Nat := 0x070
/-- Byte offset of BST_DURATION (chapter 15): Length of the last run. -/
abbrev BST_DURATION : Nat := 0x074
/-- Byte offset of BST_RESTORE_WIN (chapter 15): Last window with a failed restore. -/
abbrev BST_RESTORE_WIN : Nat := 0x078
/-- Byte offset of BST_RUNS (chapter 15): Runs completed. -/
abbrev BST_RUNS : Nat := 0x07C
/-- Byte offset of CHK_CTL (chapter 15): Claim and reset. -/
abbrev CHK_CTL : Nat := 0x040
/-- Byte offset of CHK_CFG (chapter 15): Width and reflection. -/
abbrev CHK_CFG : Nat := 0x044
/-- Byte offset of CHK_STS (chapter 15): State. -/
abbrev CHK_STS : Nat := 0x048
/-- Byte offset of CHK_FLAGS (chapter 15): Sticky flags. -/
abbrev CHK_FLAGS : Nat := 0x04C
/-- Byte offset of CHK_POLY_LO (chapter 15): Polynomial, bits [31:0]. -/
abbrev CHK_POLY_LO : Nat := 0x050
/-- Byte offset of CHK_POLY_HI (chapter 15): Polynomial, bits [63:32]. -/
abbrev CHK_POLY_HI : Nat := 0x054
/-- Byte offset of CHK_INIT_LO (chapter 15): Initial value, bits [31:0]. -/
abbrev CHK_INIT_LO : Nat := 0x058
/-- Byte offset of CHK_INIT_HI (chapter 15): Initial value, bits [63:32]. -/
abbrev CHK_INIT_HI : Nat := 0x05C
/-- Byte offset of CHK_XOROUT_LO (chapter 15): Final XOR, bits [31:0]. -/
abbrev CHK_XOROUT_LO : Nat := 0x060
/-- Byte offset of CHK_XOROUT_HI (chapter 15): Final XOR, bits [63:32]. -/
abbrev CHK_XOROUT_HI : Nat := 0x064
/-- Byte offset of CHK_VALUE_LO (chapter 15): Running value, bits [31:0]. -/
abbrev CHK_VALUE_LO : Nat := 0x068
/-- Byte offset of CHK_VALUE_HI (chapter 15): Running value, bits [63:32]. -/
abbrev CHK_VALUE_HI : Nat := 0x06C
/-- Byte offset of CHK_RESULT_LO (chapter 15): Result, bits [31:0]. -/
abbrev CHK_RESULT_LO : Nat := 0x070
/-- Byte offset of CHK_RESULT_HI (chapter 15): Result, bits [63:32]. -/
abbrev CHK_RESULT_HI : Nat := 0x074
/-- Byte offset of CHK_FEED8 (chapter 15): Feed one byte. -/
abbrev CHK_FEED8 : Nat := 0x078
/-- Byte offset of CHK_FEED16 (chapter 15): Feed two bytes. -/
abbrev CHK_FEED16 : Nat := 0x07C
/-- Byte offset of CHK_FEED32 (chapter 15): Feed four bytes. -/
abbrev CHK_FEED32 : Nat := 0x080
/-- Byte offset of CHK_BYTES (chapter 15): Bytes fed. -/
abbrev CHK_BYTES : Nat := 0x084
/-- Byte offset of DBG_CTL (chapter 16): Freeze and single cycle. -/
abbrev DBG_CTL : Nat := 0x040
/-- Byte offset of DBG_STS (chapter 16): Freeze state. -/
abbrev DBG_STS : Nat := 0x044
/-- Byte offset of DBG_PEEK_SEL (chapter 16): Tile state selected. -/
abbrev DBG_PEEK_SEL : Nat := 0x048
/-- Byte offset of DBG_PEEK_DATA (chapter 16): Word of selected state. -/
abbrev DBG_PEEK_DATA : Nat := 0x04C
/-- Byte offset of DBG_TRACE_CTL (chapter 16): Event trace enable and size. -/
abbrev DBG_TRACE_CTL : Nat := 0x050
/-- Byte offset of DBG_TRACE_BASE_LO (chapter 16): Trace ring, bits [31:0]. -/
abbrev DBG_TRACE_BASE_LO : Nat := 0x054
/-- Byte offset of DBG_TRACE_BASE_HI (chapter 16): Trace ring, bits [63:32]. -/
abbrev DBG_TRACE_BASE_HI : Nat := 0x058
/-- Byte offset of DBG_TRACE_HEAD (chapter 16): Records written. -/
abbrev DBG_TRACE_HEAD : Nat := 0x05C

end R

/-- Register rows of the TIL page type, from the summary and field tables of the spec. -/
def regRowsTILa : List RegRow := [
  ⟨0x040, 1, 0x4, 0x0, 0x0, 0x0, 0x0, 0x0⟩,
  ⟨0x044, 1, 0x4, 0x0, 0x0, 0x1FFFF, 0x0, 0x0⟩,
  ⟨0x048, 1, 0x4, 0x0, 0x0, 0xFFFF, 0x0, 0x0⟩,
  ⟨0x04C, 1, 0x4, 0x0, 0xFFFF, 0x0, 0x0, 0x0⟩,
  ⟨0x050, 1, 0x4, 0x0, 0x0, 0xFFFFFFFF, 0x0, 0x0⟩,
  ⟨0x054, 1, 0x4, 0x0, 0xFFFFFFFF, 0x0, 0x0, 0x0⟩,
  ⟨0x058, 1, 0x4, 0x4000, 0xFFFFFF, 0x0, 0x0, 0x0⟩,
  ⟨0x05C, 1, 0x4, 0x0, 0x1, 0x0, 0x0, 0x0⟩,
  ⟨0x060, 1, 0x4, 0x3F0000, 0x3F0000, 0x0, 0x0, 0x0⟩,
  ⟨0x064, 1, 0x4, 0x0, 0x0, 0xFFFFFFFF, 0x0, 0x0⟩,
  ⟨0x068, 1, 0x4, 0x0, 0xFFFFFFC0, 0x0, 0x0, 0x0⟩,
  ⟨0x06C, 1, 0x4, 0x0, 0xFFFFFFFF, 0x0, 0x0, 0x0⟩,
  ⟨0x070, 1, 0x4, 0x0, 0x0, 0x3, 0x0, 0x0⟩,
  ⟨0x074, 1, 0x4, 0x0, 0x0, 0x0, 0x0, 0xFFFFFFFF⟩,
  ⟨0x078, 1, 0x4, 0x400, 0xFFFF, 0x0, 0x0, 0x0⟩,
  ⟨0x07C, 1, 0x4, 0x0, 0x0, 0x3FFFFF, 0x0, 0x0⟩,
  ⟨0x080, 16, 0x4, 0x0, 0xFFFFFFFF, 0x0, 0x0, 0x0⟩,
  ⟨0x0C0, 1, 0x4, 0x2, 0x3, 0x0, 0x0, 0x0⟩,
  ⟨0x0C4, 1, 0x4, 0x0, 0x0, 0x3FF, 0x0, 0x0⟩,
  ⟨0x0C8, 1, 0x4, 0x0, 0xFFFFF, 0x0, 0x0, 0x0⟩,
  ⟨0x0CC, 1, 0x4, 0x0, 0xFFFFF, 0x0, 0x0, 0x0⟩,
  ⟨0x0D0, 1, 0x4, 0x0, 0xFFFFFFC0, 0x0, 0x0, 0x0⟩,
  ⟨0x0D4, 1, 0x4, 0x0, 0xFFFFFFFF, 0x0, 0x0, 0x0⟩,
  ⟨0x0D8, 1, 0x4, 0x0, 0x0, 0x0, 0x0, 0xFFFFFFFF⟩,
  ⟨0x0DC, 1, 0x4, 0x0, 0x0, 0x0, 0x0, 0xFFFFFFFF⟩,
  ⟨0x0E0, 1, 0x4, 0x0, 0x0, 0xFFFF, 0x0, 0x0⟩,
  ⟨0x0E4, 1, 0x4, 0x0, 0x0, 0x1, 0x0, 0x0⟩,
  ⟨0x0E8, 1, 0x4, 0x0, 0x0, 0x7FF, 0x0, 0x0⟩,
  ⟨0x100, 1, 0x4, 0x0, 0x0, 0x0, 0xF, 0x0⟩,
  ⟨0x104, 1, 0x4, 0x0, 0x0, 0xFFFFFFFF, 0x0, 0x0⟩]

/-- Register rows of the TIL page type, from the summary and field tables of the spec. -/
def regRowsTILb : List RegRow := [
  ⟨0x140, 1, 0x4, 0x0, 0x1FFFFFF, 0x0, 0x0, 0x0⟩,
  ⟨0x144, 1, 0x4, 0xFFFF, 0x0, 0x3FFFF, 0x0, 0x0⟩,
  ⟨0x180, 1, 0x4, 0x0, 0x0, 0x0, 0x0, 0x0⟩,
  ⟨0x184, 1, 0x4, 0x0, 0x0, 0xFFFF, 0x0, 0x0⟩,
  ⟨0x188, 1, 0x4, 0x0, 0x0, 0x0, 0x0, 0xFFFFFFFF⟩,
  ⟨0x18C, 1, 0x4, 0x0, 0x0, 0x0, 0x3, 0x0⟩,
  ⟨0x1C0, 1, 0x4, 0x0, 0x0, 0x0, 0x0, 0xFFFFFFFF⟩,
  ⟨0x1C4, 1, 0x4, 0x0, 0x0, 0x0, 0x3, 0x0⟩,
  ⟨0x200, 1, 0x4, 0x0, 0x0, 0x0, 0xF3F3F, 0x0⟩,
  ⟨0x204, 1, 0x4, 0x0, 0x0, 0x0, 0x0, 0xFFFFFFFF⟩,
  ⟨0x208, 1, 0x4, 0x0, 0x0, 0x0, 0x0, 0xFFFFFFFF⟩,
  ⟨0x20C, 1, 0x4, 0x0, 0x0, 0x0, 0x0, 0xFFFFFFFF⟩,
  ⟨0x210, 1, 0x4, 0x3, 0x3, 0x0, 0x0, 0x0⟩,
  ⟨0x220, 1, 0x4, 0x3F800000, 0x0, 0xFFFFFFFF, 0x0, 0x0⟩,
  ⟨0x224, 1, 0x4, 0x3F800000, 0x0, 0xFFFFFFFF, 0x0, 0x0⟩,
  ⟨0x228, 1, 0x4, 0x0, 0x0, 0x3, 0x0, 0x0⟩,
  ⟨0x22C, 1, 0x4, 0x0, 0x0, 0x0, 0x1, 0x0⟩,
  ⟨0x230, 1, 0x4, 0x0, 0x0, 0x0, 0x0, 0xFFFFFFFF⟩]

/-- Every register row of the TIL page type. -/
def regRowsTIL : List RegRow := regRowsTILa ++ regRowsTILb

/-- Register rows of the DST page type, from the summary and field tables of the spec. -/
def regRowsDST : List RegRow := [
  ⟨0x100, 16, 0x4, 0x0, 0x1F, 0x20, 0x0, 0x0⟩]

/-- Register rows of the KVS page type, from the summary and field tables of the spec. -/
def regRowsKVS : List RegRow := [
  ⟨0x040, 1, 0x4, 0x0, 0x3, 0x0, 0x0, 0x0⟩,
  ⟨0x044, 1, 0x4, 0x0, 0x0, 0x7, 0x0, 0x0⟩,
  ⟨0x048, 1, 0x4, 0x0, 0xFFFFFFC0, 0x0, 0x0, 0x0⟩,
  ⟨0x04C, 1, 0x4, 0x0, 0xFFFFFFFF, 0x0, 0x0, 0x0⟩,
  ⟨0x050, 1, 0x4, 0x0, 0xFFFFE000, 0x0, 0x0, 0x0⟩,
  ⟨0x054, 1, 0x4, 0x0, 0xFFFFFFFF, 0x0, 0x0, 0x0⟩,
  ⟨0x058, 1, 0x4, 0x0, 0x0, 0xFFFF, 0x0, 0x0⟩,
  ⟨0x05C, 1, 0x4, 0x0, 0xFFFF, 0x0, 0x0, 0x0⟩,
  ⟨0x060, 1, 0x4, 0x200, 0x3FFFFFF, 0x0, 0x0, 0x0⟩,
  ⟨0x064, 1, 0x4, 0x400, 0x3FFFFFF, 0x0, 0x0, 0x0⟩,
  ⟨0x068, 1, 0x4, 0x800, 0x3FFFFFF, 0x0, 0x0, 0x0⟩,
  ⟨0x06C, 1, 0x4, 0x64, 0xFFFF, 0x0, 0x0, 0x0⟩,
  ⟨0x070, 1, 0x4, 0x0, 0x0, 0x0, 0x0, 0xFFFFFFFF⟩,
  ⟨0x074, 1, 0x4, 0x0, 0x0, 0x0, 0x0, 0xFFFFFFFF⟩,
  ⟨0x078, 1, 0x4, 0x0, 0x0, 0x0, 0x0, 0xFFFFFFFF⟩,
  ⟨0x07C, 1, 0x4, 0x0, 0x0, 0x0, 0x0, 0xFFFFFFFF⟩,
  ⟨0x200, 8, 0x40, 0x0, 0x1, 0x2, 0x0, 0x0⟩,
  ⟨0x204, 8, 0x40, 0x0, 0x3FFFFFF, 0x0, 0x0, 0x0⟩,
  ⟨0x208, 8, 0x40, 0x0, 0x3FFFFFF, 0x0, 0x0, 0x0⟩,
  ⟨0x210, 8, 0x40, 0x0, 0xFFFF0000, 0x0, 0x0, 0x0⟩,
  ⟨0x214, 8, 0x40, 0x0, 0xFFFFFFFF, 0x0, 0x0, 0x0⟩,
  ⟨0x218, 8, 0x40, 0x0, 0xFFFFFFC0, 0x0, 0x0, 0x0⟩,
  ⟨0x21C, 8, 0x40, 0x0, 0xFFFFFFFF, 0x0, 0x0, 0x0⟩,
  ⟨0x220, 8, 0x40, 0x0, 0x0, 0x3FFFFFF, 0x0, 0x0⟩,
  ⟨0x224, 8, 0x40, 0x0, 0x0, 0x3FFFFFF, 0x0, 0x0⟩,
  ⟨0x228, 8, 0x40, 0x0, 0x0, 0x3FFFFFF, 0x0, 0x0⟩,
  ⟨0x22C, 8, 0x40, 0x0, 0x0, 0xFFFF, 0x0, 0x0⟩]

/-- Register rows of the HDD page type, from the summary and field tables of the spec. -/
def regRowsHDD : List RegRow := [
  ⟨0x040, 1, 0x4, 0x0, 0x3C, 0x0, 0x0, 0x0⟩,
  ⟨0x044, 1, 0x4, 0x0, 0x0, 0x3, 0x0, 0x0⟩,
  ⟨0x048, 1, 0x4, 0x0, 0xFFFFFFC0, 0x0, 0x0, 0x0⟩,
  ⟨0x04C, 1, 0x4, 0x0, 0xFFFFFFFF, 0x0, 0x0, 0x0⟩,
  ⟨0x050, 1, 0x4, 0x1, 0x1FFFF, 0x0, 0x0, 0x0⟩,
  ⟨0x054, 1, 0x4, 0x0, 0xFFFFFFFF, 0x0, 0x0, 0x0⟩,
  ⟨0x058, 1, 0x4, 0x2000, 0x3FFFFFF, 0x0, 0x0, 0x0⟩,
  ⟨0x05C, 1, 0x4, 0xC03F, 0xFF3F, 0x0, 0x0, 0x0⟩,
  ⟨0x060, 1, 0x4, 0x370000, 0x3F0000, 0x0, 0x0, 0x0⟩,
  ⟨0x064, 1, 0x4, 0x0, 0xFFFF, 0x0, 0x0, 0x0⟩,
  ⟨0x068, 1, 0x4, 0x0, 0xFFFE0000, 0x0, 0x0, 0x0⟩,
  ⟨0x06C, 1, 0x4, 0x0, 0xFFFFFFFF, 0x0, 0x0, 0x0⟩,
  ⟨0x070, 1, 0x4, 0x0, 0xFFFF, 0x0, 0x0, 0x0⟩,
  ⟨0x074, 1, 0x4, 0x0, 0xFFFF, 0x0, 0x0, 0x0⟩,
  ⟨0x080, 1, 0x4, 0x0, 0x0, 0xFFFFFFFF, 0x0, 0x0⟩,
  ⟨0x084, 1, 0x4, 0x0, 0x0, 0xFFFFFFFF, 0x0, 0x0⟩,
  ⟨0x088, 1, 0x4, 0x0, 0x0, 0xFFFFFFFF, 0x0, 0x0⟩,
  ⟨0x08C, 1, 0x4, 0x0, 0x0, 0x0, 0x0, 0xFFFFFFFF⟩]

/-- Register rows of the STP page type, from the summary and field tables of the spec. -/
def regRowsSTPa : List RegRow := [
  ⟨0x040, 1, 0x4, 0x10, 0x11, 0x0, 0x0, 0x0⟩,
  ⟨0x044, 1, 0x4, 0x0, 0x0, 0xFFFF, 0x0, 0x0⟩,
  ⟨0x048, 1, 0x4, 0x0, 0xFFFFFFFF, 0x0, 0x0, 0x0⟩,
  ⟨0x04C, 1, 0x4, 0x0, 0xFFFFFFFF, 0x0, 0x0, 0x0⟩,
  ⟨0x050, 1, 0x4, 0x0, 0xFFFFFFFF, 0x0, 0x0, 0x0⟩,
  ⟨0x054, 1, 0x4, 0x1008, 0x7F37F, 0x0, 0x0, 0x0⟩,
  ⟨0x058, 1, 0x4, 0x7F800000, 0xFFFFFFFF, 0x0, 0x0, 0x0⟩,
  ⟨0x05C, 1, 0x4, 0xC8, 0xFFFF, 0x0, 0x0, 0x0⟩,
  ⟨0x060, 1, 0x4, 0x1, 0x7FF, 0x0, 0x0, 0x0⟩,
  ⟨0x064, 1, 0x4, 0x0, 0xFFFFFF, 0x0, 0x0, 0x0⟩,
  ⟨0x068, 1, 0x4, 0x0, 0xFFFFFF, 0x0, 0x0, 0x0⟩,
  ⟨0x06C, 1, 0x4, 0x0, 0xFFFFFF, 0x0, 0x0, 0x0⟩,
  ⟨0x070, 1, 0x4, 0x0, 0xFFFFFF, 0x0, 0x0, 0x0⟩,
  ⟨0x074, 1, 0x4, 0x0, 0xFFFFFF, 0x0, 0x0, 0x0⟩,
  ⟨0x078, 1, 0x4, 0x0, 0xFFFFFF, 0x0, 0x0, 0x0⟩,
  ⟨0x07C, 1, 0x4, 0x0, 0x0, 0x3FFFFF, 0x0, 0x0⟩,
  ⟨0x080, 1, 0x4, 0x0, 0xFFFFFFF0, 0x0, 0x0, 0x0⟩,
  ⟨0x084, 1, 0x4, 0x0, 0xFFFFFFFF, 0x0, 0x0, 0x0⟩,
  ⟨0x088, 1, 0x4, 0x0, 0xFFFFFFFC, 0x0, 0x0, 0x0⟩,
  ⟨0x08C, 1, 0x4, 0x0, 0xFFFFFFFF, 0x0, 0x0, 0x0⟩,
  ⟨0x090, 1, 0x4, 0x0, 0xFFFF, 0x0, 0x0, 0x0⟩,
  ⟨0x094, 1, 0x4, 0x1, 0xFFFFFFFF, 0x0, 0x0, 0x0⟩,
  ⟨0x098, 1, 0x4, 0x0, 0xFFFFFFC0, 0x0, 0x0, 0x0⟩,
  ⟨0x09C, 1, 0x4, 0x0, 0xFFFFFFFF, 0x0, 0x0, 0x0⟩,
  ⟨0x0A0, 1, 0x4, 0x0, 0xFFFF, 0x0, 0x0, 0x0⟩,
  ⟨0x0A4, 1, 0x4, 0x1, 0x13FFF, 0x0, 0x0, 0x0⟩,
  ⟨0x0A8, 1, 0x4, 0x3E8, 0xFFFF, 0x0, 0x0, 0x0⟩,
  ⟨0x0AC, 1, 0x4, 0x0, 0xFFFF, 0x0, 0x0, 0x0⟩,
  ⟨0x0B0, 1, 0x4, 0x0, 0x0, 0xFFFFFFFF, 0x0, 0x0⟩,
  ⟨0x0B4, 1, 0x4, 0x3F800000, 0x0, 0xFFFFFFFF, 0x0, 0x0⟩]

/-- Register rows of the STP page type, from the summary and field tables of the spec. -/
def regRowsSTPb : List RegRow := [
  ⟨0x0B8, 1, 0x4, 0x3F800000, 0x0, 0xFFFFFFFF, 0x0, 0x0⟩,
  ⟨0x0BC, 1, 0x4, 0x0, 0x0, 0x1FFFF, 0x0, 0x0⟩,
  ⟨0x0C0, 1, 0x4, 0xFFFFFFFF, 0x0, 0xFFFFFFFF, 0x0, 0x0⟩,
  ⟨0x0C4, 1, 0x4, 0x0, 0x0, 0xFFFFFFFF, 0x0, 0x0⟩,
  ⟨0x0C8, 1, 0x4, 0x0, 0x0, 0xFFFFFFFF, 0x0, 0x0⟩,
  ⟨0x0CC, 1, 0x4, 0x0, 0x0, 0xFFFFFFFF, 0x0, 0x0⟩,
  ⟨0x0D0, 1, 0x4, 0x0, 0x0, 0xFFFFFFFF, 0x0, 0x0⟩,
  ⟨0x0D4, 1, 0x4, 0x0, 0x0, 0x0, 0x0, 0xFFFFFFFF⟩,
  ⟨0x0D8, 1, 0x4, 0x0, 0x0, 0x0, 0x0, 0xFFFFFFFF⟩,
  ⟨0x0DC, 1, 0x4, 0x0, 0x0, 0x0, 0x0, 0xFFFFFFFF⟩,
  ⟨0x0E0, 1, 0x4, 0x0, 0x0, 0x0, 0x0, 0xFFFFFFFF⟩,
  ⟨0x0E4, 1, 0x4, 0x0, 0x0, 0x0, 0x0, 0xFFFFFFFF⟩,
  ⟨0x100, 16, 0x4, 0x0, 0xFFFFFFFF, 0x0, 0x0, 0x0⟩,
  ⟨0x140, 32, 0x4, 0x0, 0x0, 0xFFFFFFFF, 0x0, 0x0⟩,
  ⟨0x300, 1, 0x4, 0x0, 0x3, 0x0, 0x0, 0x0⟩,
  ⟨0x304, 1, 0x4, 0x0, 0x0, 0x7, 0x0, 0x0⟩,
  ⟨0x308, 1, 0x4, 0x0, 0x1FFFFFF, 0x0, 0x0, 0x0⟩,
  ⟨0x30C, 1, 0x4, 0x0, 0xFFFF, 0x0, 0x0, 0x0⟩,
  ⟨0x310, 1, 0x4, 0x0, 0xFFFFFFC0, 0x0, 0x0, 0x0⟩,
  ⟨0x314, 1, 0x4, 0x0, 0xFFFFFFFF, 0x0, 0x0, 0x0⟩,
  ⟨0x318, 1, 0x4, 0x0, 0x0, 0x0, 0x0, 0xFFFFFFFF⟩,
  ⟨0x31C, 1, 0x4, 0x0, 0x0, 0x0, 0x0, 0xFFFFFFFF⟩,
  ⟨0x320, 6, 0x10, 0x0, 0xFFFF0000, 0x0, 0x0, 0x0⟩,
  ⟨0x324, 6, 0x10, 0x0, 0xFFFFFFFF, 0x0, 0x0, 0x0⟩,
  ⟨0x328, 6, 0x10, 0x0, 0x3FFFFFF, 0x0, 0x0, 0x0⟩,
  ⟨0x32C, 6, 0x10, 0x0, 0x0, 0x3FFFFFF, 0x0, 0x0⟩,
  ⟨0x380, 1, 0x4, 0x0, 0xFFFF0000, 0x0, 0x0, 0x0⟩,
  ⟨0x384, 1, 0x4, 0x0, 0xFFFFFFFF, 0x0, 0x0, 0x0⟩,
  ⟨0x388, 1, 0x4, 0x0, 0x3FFFFFF, 0x0, 0x0, 0x0⟩,
  ⟨0x38C, 1, 0x4, 0x0, 0x0, 0x3FFFFFF, 0x0, 0x0⟩]

/-- Register rows of the STP page type, from the summary and field tables of the spec. -/
def regRowsSTPc : List RegRow := [
  ⟨0x390, 1, 0x4, 0x0, 0xFFFF0000, 0x0, 0x0, 0x0⟩,
  ⟨0x394, 1, 0x4, 0x0, 0xFFFFFFFF, 0x0, 0x0, 0x0⟩,
  ⟨0x398, 1, 0x4, 0x0, 0x3FFFFFF, 0x0, 0x0, 0x0⟩,
  ⟨0x39C, 1, 0x4, 0x0, 0x0, 0x3FFFFFF, 0x0, 0x0⟩]

/-- Every register row of the STP page type. -/
def regRowsSTP : List RegRow := regRowsSTPa ++ regRowsSTPb ++ regRowsSTPc

/-- Register rows of the UPD page type, from the summary and field tables of the spec. -/
def regRowsUPD : List RegRow := [
  ⟨0x040, 1, 0x4, 0x0, 0x1, 0x0, 0x0, 0x0⟩,
  ⟨0x044, 1, 0x4, 0x0, 0x0, 0x7, 0x0, 0x0⟩,
  ⟨0x048, 1, 0x4, 0x0, 0xFFFFFFC0, 0x0, 0x0, 0x0⟩,
  ⟨0x04C, 1, 0x4, 0x0, 0xFFFFFFFF, 0x0, 0x0, 0x0⟩,
  ⟨0x050, 1, 0x4, 0x0, 0xFFFFFF80, 0x0, 0x0, 0x0⟩,
  ⟨0x054, 1, 0x4, 0x0, 0xFFFFFFFF, 0x0, 0x0, 0x0⟩,
  ⟨0x058, 1, 0x4, 0x0, 0x1FFFFF, 0x0, 0x0, 0x0⟩,
  ⟨0x05C, 1, 0x4, 0x0, 0xFFFFFF80, 0x0, 0x0, 0x0⟩,
  ⟨0x060, 1, 0x4, 0x0, 0xFFFFFFFF, 0x0, 0x0, 0x0⟩,
  ⟨0x064, 1, 0x4, 0x0, 0xFFFFFFC0, 0x0, 0x0, 0x0⟩,
  ⟨0x068, 1, 0x4, 0x0, 0xFFFFFFFF, 0x0, 0x0, 0x0⟩,
  ⟨0x06C, 1, 0x4, 0x0, 0xFFFFFFC0, 0x0, 0x0, 0x0⟩,
  ⟨0x070, 1, 0x4, 0x0, 0xFFFFFFFF, 0x0, 0x0, 0x0⟩,
  ⟨0x074, 1, 0x4, 0x0, 0x1FFFFF, 0x0, 0x0, 0x0⟩,
  ⟨0x078, 1, 0x4, 0x0, 0x0, 0x0, 0x0, 0xFFFFFFFF⟩,
  ⟨0x07C, 1, 0x4, 0x0, 0x0, 0x0, 0x0, 0xFFFFFFFF⟩,
  ⟨0x080, 1, 0x4, 0x0, 0x0, 0x0, 0x0, 0xFFFFFFFF⟩]

/-- Register rows of the NMC page type, from the summary and field tables of the spec. -/
def regRowsNMC : List RegRow := [
  ⟨0x040, 1, 0x4, 0x1, 0x3, 0x0, 0x0, 0x0⟩,
  ⟨0x044, 1, 0x4, 0x0, 0x0, 0x1F, 0x0, 0x0⟩,
  ⟨0x048, 1, 0x4, 0x1, 0xFFFF, 0x0, 0x0, 0x0⟩,
  ⟨0x04C, 1, 0x4, 0x0, 0x0, 0x0, 0x0, 0xFFFFFFFF⟩,
  ⟨0x050, 1, 0x4, 0x0, 0x0, 0x0, 0x0, 0xFFFFFFFF⟩,
  ⟨0x054, 1, 0x4, 0x0, 0x0, 0xFF, 0x0, 0x0⟩]

/-- Register rows of the CRS page type, from the summary and field tables of the spec. -/
def regRowsCRS : List RegRow := [
  ⟨0x040, 1, 0x4, 0x100, 0xFFF, 0x0, 0x0, 0x0⟩,
  ⟨0x044, 1, 0x4, 0x0, 0x0, 0xFF3F, 0x0, 0x0⟩,
  ⟨0x048, 1, 0x4, 0x0, 0xFFFFFF, 0x0, 0x0, 0x0⟩,
  ⟨0x04C, 1, 0x4, 0x0, 0xFFFFFF, 0x0, 0x0, 0x0⟩,
  ⟨0x050, 1, 0x4, 0x0, 0xFFFFFFFF, 0x0, 0x0, 0x0⟩,
  ⟨0x054, 1, 0x4, 0x0, 0xFFFFFF, 0x0, 0x0, 0x0⟩,
  ⟨0x058, 1, 0x4, 0x0, 0x0, 0x0, 0x0, 0xFFFFFFFF⟩,
  ⟨0x05C, 1, 0x4, 0x0, 0x0, 0x0, 0x0, 0xFFFFFFFF⟩,
  ⟨0x060, 1, 0x4, 0x0, 0x0, 0x0, 0x0, 0xFFFFFFFF⟩,
  ⟨0x064, 1, 0x4, 0x0, 0x0, 0x0, 0x0, 0xFFFFFFFF⟩,
  ⟨0x068, 1, 0x4, 0x0, 0x0, 0x0, 0x0, 0xFFFFFFFF⟩]

/-- Register rows of the ING page type, from the summary and field tables of the spec. -/
def regRowsING : List RegRow := [
  ⟨0x040, 1, 0x4, 0x0, 0x3, 0x0, 0x0, 0x0⟩,
  ⟨0x048, 1, 0x4, 0x0, 0xFFFFFFC0, 0x0, 0x0, 0x0⟩,
  ⟨0x04C, 1, 0x4, 0x0, 0xFFFFFFFF, 0x0, 0x0, 0x0⟩,
  ⟨0x050, 1, 0x4, 0x0, 0xFFFFFF80, 0x0, 0x0, 0x0⟩,
  ⟨0x054, 1, 0x4, 0x0, 0xFFFFFFFF, 0x0, 0x0, 0x0⟩,
  ⟨0x058, 1, 0x4, 0x3E8, 0xFFFFFF, 0x0, 0x0, 0x0⟩,
  ⟨0x05C, 1, 0x4, 0x2710, 0xFFFFFF, 0x0, 0x0, 0x0⟩]

/-- Register rows of the INGS page type, from the summary and field tables of the spec. -/
def regRowsINGSa : List RegRow := [
  ⟨0x040, 1, 0x4, 0x0, 0x7, 0x0, 0x0, 0x0⟩,
  ⟨0x044, 1, 0x4, 0x0, 0x0, 0x1FFF000F, 0x0, 0x0⟩,
  ⟨0x048, 1, 0x4, 0x0, 0xFFFF0000, 0x0, 0x0, 0x0⟩,
  ⟨0x04C, 1, 0x4, 0x0, 0xFFFFFFFF, 0x0, 0x0, 0x0⟩,
  ⟨0x050, 1, 0x4, 0x10, 0x3F, 0x0, 0x0, 0x0⟩,
  ⟨0x054, 1, 0x4, 0x0, 0xFFFFFFFF, 0x0, 0x0, 0x0⟩,
  ⟨0x058, 1, 0x4, 0x0, 0x0, 0xFFFFFFFF, 0x0, 0x0⟩,
  ⟨0x05C, 1, 0x4, 0x0, 0xFFFFFFFF, 0x0, 0x0, 0x0⟩,
  ⟨0x060, 1, 0x4, 0x100, 0x1FFF, 0x0, 0x0, 0x0⟩,
  ⟨0x064, 1, 0x4, 0x0, 0xFFFFFF, 0x0, 0x0, 0x0⟩,
  ⟨0x068, 1, 0x4, 0x40001000, 0xFFFFFFFF, 0x0, 0x0, 0x0⟩,
  ⟨0x06C, 1, 0x4, 0x0, 0xFFFFFFF8, 0x0, 0x0, 0x0⟩,
  ⟨0x070, 1, 0x4, 0x0, 0xFFFFFFFF, 0x0, 0x0, 0x0⟩,
  ⟨0x074, 1, 0x4, 0x0, 0x7F, 0x0, 0x0, 0x0⟩,
  ⟨0x078, 1, 0x4, 0x0, 0x0, 0x0, 0xFFFFFFFF, 0x0⟩,
  ⟨0x07C, 1, 0x4, 0x0, 0x0, 0x0, 0xFFFFFFFF, 0x0⟩,
  ⟨0x080, 1, 0x4, 0x0, 0xFFFFF800, 0x0, 0x0, 0x0⟩,
  ⟨0x084, 1, 0x4, 0x0, 0xFFFFFFFF, 0x0, 0x0, 0x0⟩,
  ⟨0x088, 1, 0x4, 0x0, 0x0, 0xFFFF, 0x0, 0x0⟩,
  ⟨0x08C, 1, 0x4, 0x0, 0xFFFF, 0x0, 0x0, 0x0⟩,
  ⟨0x090, 1, 0x4, 0x0, 0xFFFF, 0x0, 0x0, 0x0⟩,
  ⟨0x0A0, 1, 0x4, 0x0, 0x0, 0xFFFFFFFF, 0x0, 0x0⟩,
  ⟨0x0A4, 1, 0x4, 0x0, 0x0, 0xFFFFFFFF, 0x0, 0x0⟩,
  ⟨0x0A8, 1, 0x4, 0x0, 0x0, 0xFFFFFFFF, 0x0, 0x0⟩,
  ⟨0x0AC, 1, 0x4, 0x0, 0x0, 0xFFFFFFFF, 0x0, 0x0⟩,
  ⟨0x0B0, 1, 0x4, 0x0, 0x0, 0xFFFFFFFF, 0x0, 0x0⟩,
  ⟨0x0B4, 1, 0x4, 0x0, 0x0, 0xFFFFFFFF, 0x0, 0x0⟩,
  ⟨0x0B8, 1, 0x4, 0x0, 0x0, 0xFFFFFFFF, 0x0, 0x0⟩,
  ⟨0x0BC, 1, 0x4, 0x0, 0x0, 0xFFFFFFFF, 0x0, 0x0⟩,
  ⟨0x0C0, 1, 0x4, 0x0, 0x0, 0xFFFFFFFF, 0x0, 0x0⟩]

/-- Register rows of the INGS page type, from the summary and field tables of the spec. -/
def regRowsINGSb : List RegRow := [
  ⟨0x0C4, 1, 0x4, 0x0, 0x0, 0xFFFFFFFF, 0x0, 0x0⟩,
  ⟨0x0C8, 1, 0x4, 0x0, 0x0, 0xFFFFFFFF, 0x0, 0x0⟩,
  ⟨0x0CC, 1, 0x4, 0x0, 0x0, 0xFFFFFFFF, 0x0, 0x0⟩,
  ⟨0x0D0, 1, 0x4, 0x0, 0x0, 0x0, 0x0, 0xFFFFFFFF⟩,
  ⟨0x0D4, 1, 0x4, 0x0, 0x0, 0x0, 0x0, 0xFFFFFFFF⟩,
  ⟨0x0D8, 1, 0x4, 0x0, 0x0, 0x0, 0x0, 0xFFFFFFFF⟩,
  ⟨0x0DC, 1, 0x4, 0x0, 0x0, 0x0, 0x0, 0xFFFFFFFF⟩,
  ⟨0x0E0, 1, 0x4, 0x0, 0x0, 0x0, 0x0, 0xFFFFFFFF⟩,
  ⟨0x0E4, 1, 0x4, 0x0, 0x0, 0x0, 0x0, 0xFFFFFFFF⟩,
  ⟨0x0E8, 1, 0x4, 0x0, 0x0, 0x0, 0x0, 0xFFFFFFFF⟩,
  ⟨0x0EC, 1, 0x4, 0x0, 0x0, 0x0, 0x0, 0xFFFFFFFF⟩]

/-- Every register row of the INGS page type. -/
def regRowsINGS : List RegRow := regRowsINGSa ++ regRowsINGSb

/-- Register rows of the MDE page type, from the summary and field tables of the spec. -/
def regRowsMDE : List RegRow := [
  ⟨0x040, 1, 0x4, 0x0, 0x1, 0x0, 0x0, 0x0⟩,
  ⟨0x044, 1, 0x4, 0x0, 0x0, 0x3F, 0x0, 0x0⟩,
  ⟨0x048, 1, 0x4, 0x0, 0xFFFF0000, 0x0, 0x0, 0x0⟩,
  ⟨0x04C, 1, 0x4, 0x0, 0xFFFFFFFF, 0x0, 0x0, 0x0⟩,
  ⟨0x050, 1, 0x4, 0x0, 0x3FFFFFF, 0x0, 0x0, 0x0⟩,
  ⟨0x054, 1, 0x4, 0x0, 0xFFFFFFFF, 0x0, 0x0, 0x0⟩,
  ⟨0x058, 1, 0x4, 0x0, 0xFFFFFFFF, 0x0, 0x0, 0x0⟩,
  ⟨0x05C, 1, 0x4, 0x0, 0x0, 0x0, 0x0, 0xFFFFFFFF⟩,
  ⟨0x060, 1, 0x4, 0x0, 0x0, 0x0, 0x0, 0xFFFFFFFF⟩,
  ⟨0x064, 1, 0x4, 0x0, 0x0, 0x0, 0x0, 0xFFFFFFFF⟩]

/-- Register rows of the TOK page type, from the summary and field tables of the spec. -/
def regRowsTOK : List RegRow := [
  ⟨0x040, 1, 0x4, 0x0, 0x1, 0x0, 0x0, 0x0⟩,
  ⟨0x044, 1, 0x4, 0x0, 0x0, 0xF, 0x0, 0x0⟩,
  ⟨0x048, 1, 0x4, 0x0, 0x0, 0x0, 0x0, 0xFFFFFFFF⟩,
  ⟨0x04C, 1, 0x4, 0x0, 0x0, 0x0, 0x0, 0xFFFFFFFF⟩,
  ⟨0x050, 1, 0x4, 0x0, 0x0, 0x0, 0x0, 0xFFFFFFFF⟩,
  ⟨0x054, 1, 0x4, 0x0, 0x0, 0x0, 0x0, 0xFFFFFFFF⟩,
  ⟨0x080, 4, 0x10, 0x0, 0xFFFFFFC0, 0x0, 0x0, 0x0⟩,
  ⟨0x084, 4, 0x10, 0x0, 0xFFFFFFFF, 0x0, 0x0, 0x0⟩,
  ⟨0x088, 4, 0x10, 0x0, 0x1, 0x6, 0x0, 0x0⟩]

/-- Register rows of the EXE page type, from the summary and field tables of the spec. -/
def regRowsEXE : List RegRow := [
  ⟨0x040, 1, 0x4, 0x0, 0x1, 0x0, 0x0, 0x0⟩,
  ⟨0x044, 1, 0x4, 0x0, 0x0, 0xFFFFFF03, 0x0, 0x0⟩,
  ⟨0x048, 1, 0x4, 0x0, 0xFFFFFC00, 0x0, 0x0, 0x0⟩,
  ⟨0x04C, 1, 0x4, 0x0, 0xFFFFFFFF, 0x0, 0x0, 0x0⟩,
  ⟨0x050, 1, 0x4, 0x0, 0x0, 0xFFFF, 0x0, 0x0⟩,
  ⟨0x054, 1, 0x4, 0x0, 0xFFFF, 0x0, 0x0, 0x0⟩,
  ⟨0x058, 1, 0x4, 0x0, 0xFFFF0000, 0x0, 0x0, 0x0⟩,
  ⟨0x05C, 1, 0x4, 0x0, 0xFFFFFFFF, 0x0, 0x0, 0x0⟩,
  ⟨0x060, 1, 0x4, 0x10, 0x3F, 0x0, 0x0, 0x0⟩,
  ⟨0x064, 1, 0x4, 0x0, 0xFFFFFFFF, 0x0, 0x0, 0x0⟩,
  ⟨0x068, 1, 0x4, 0x0, 0x0, 0xFFFFFFFF, 0x0, 0x0⟩,
  ⟨0x06C, 1, 0x4, 0x0, 0x0, 0x0, 0x0, 0xFFFFFFFF⟩,
  ⟨0x070, 1, 0x4, 0x0, 0x0, 0x0, 0x0, 0xFFFFFFFF⟩,
  ⟨0x074, 1, 0x4, 0x0, 0x0, 0x0, 0x0, 0xFFFFFFFF⟩]

/-- Register rows of the GATL page type, from the summary and field tables of the spec. -/
def regRowsGATL : List RegRow := [
  ⟨0x040, 1, 0x4, 0x2, 0x3, 0x0, 0x0, 0x0⟩,
  ⟨0x044, 1, 0x4, 0x0, 0x0, 0xFFFFFF, 0x0, 0x0⟩,
  ⟨0x048, 1, 0x4, 0x0, 0x0, 0x1FFF, 0x0, 0x0⟩,
  ⟨0x100, 12, 0x20, 0x0, 0x3, 0x0, 0x0, 0x0⟩,
  ⟨0x104, 12, 0x20, 0x0, 0x0, 0x7FFFFFF, 0x0, 0x0⟩,
  ⟨0x108, 12, 0x20, 0x0, 0x0, 0x0, 0x0, 0xFFFFFFFF⟩,
  ⟨0x10C, 12, 0x20, 0x0, 0x0, 0x0, 0x0, 0xFFFFFFFF⟩,
  ⟨0x110, 12, 0x20, 0x0, 0x0, 0x0, 0x0, 0xFFFFFFFF⟩,
  ⟨0x114, 12, 0x20, 0x0, 0x0, 0x0, 0x0, 0xFFFFFFFF⟩,
  ⟨0x118, 12, 0x20, 0x0, 0x0, 0x0, 0x0, 0xFFFFFFFF⟩,
  ⟨0x11C, 12, 0x20, 0x0, 0x0, 0x0, 0x0, 0xFFFFFFFF⟩]

/-- Register rows of the GATS page type, from the summary and field tables of the spec. -/
def regRowsGATS : List RegRow := [
  ⟨0x040, 1, 0x4, 0x200002, 0x3F003F, 0x0, 0x0, 0x0⟩,
  ⟨0x044, 1, 0x4, 0x0, 0x0, 0xFF03, 0x0, 0x0⟩,
  ⟨0x048, 1, 0x4, 0x0, 0x3FFF, 0x0, 0x0, 0x0⟩,
  ⟨0x04C, 1, 0x4, 0x0, 0xFFFFFFFF, 0x0, 0x0, 0x0⟩,
  ⟨0x050, 1, 0x4, 0x0, 0x1FFF, 0x0, 0x0, 0x0⟩,
  ⟨0x054, 1, 0x4, 0x1, 0x3FFF3FFF, 0x0, 0x0, 0x0⟩,
  ⟨0x058, 1, 0x4, 0x0, 0x3FFF, 0x0, 0x0, 0x0⟩,
  ⟨0x05C, 1, 0x4, 0x0, 0xFFFFFFFF, 0x0, 0x0, 0x0⟩,
  ⟨0x060, 1, 0x4, 0x0, 0xFFFF8000, 0x0, 0x0, 0x0⟩,
  ⟨0x064, 1, 0x4, 0x0, 0xFFFFFFFF, 0x0, 0x0, 0x0⟩,
  ⟨0x068, 1, 0x4, 0x0, 0x0, 0xFFFF, 0x0, 0x0⟩,
  ⟨0x06C, 1, 0x4, 0x0, 0xFFFF, 0x0, 0x0, 0x0⟩,
  ⟨0x070, 1, 0x4, 0x0, 0xFFFFF000, 0x0, 0x0, 0x0⟩,
  ⟨0x074, 1, 0x4, 0x0, 0xFFFFFFFF, 0x0, 0x0, 0x0⟩,
  ⟨0x078, 1, 0x4, 0x1, 0xFFFF, 0x0, 0x0, 0x0⟩,
  ⟨0x07C, 1, 0x4, 0x180, 0xFFFF, 0x0, 0x0, 0x0⟩,
  ⟨0x080, 1, 0x4, 0x3, 0xFF, 0x0, 0x0, 0x0⟩,
  ⟨0x084, 1, 0x4, 0x0, 0x0, 0xFFFFFFFF, 0x0, 0x0⟩,
  ⟨0x088, 1, 0x4, 0x0, 0x0, 0xFFFFFFFF, 0x0, 0x0⟩,
  ⟨0x08C, 1, 0x4, 0x0, 0x0, 0xFFFFFFFF, 0x0, 0x0⟩,
  ⟨0x090, 1, 0x4, 0x640000, 0xFF00FF, 0x0, 0x0, 0x0⟩,
  ⟨0x094, 1, 0x4, 0x0, 0x0, 0xFFFFFFFF, 0x0, 0x0⟩,
  ⟨0x098, 1, 0x4, 0x64, 0xFFFF, 0x0, 0x0, 0x0⟩,
  ⟨0x09C, 1, 0x4, 0x0, 0x0, 0x3F, 0x0, 0x0⟩,
  ⟨0x0A0, 1, 0x4, 0x0, 0x0, 0xFFF, 0x0, 0x0⟩,
  ⟨0x0A4, 1, 0x4, 0x0, 0x0, 0x7FFFFF, 0x0, 0x0⟩,
  ⟨0x0A8, 1, 0x4, 0x0, 0x0, 0x0, 0x0, 0xFFFFFFFF⟩,
  ⟨0x0AC, 1, 0x4, 0x0, 0x0, 0x0, 0x0, 0xFFFFFFFF⟩,
  ⟨0x0B0, 1, 0x4, 0x0, 0x0, 0x0, 0x0, 0xFFFFFFFF⟩]

/-- Register rows of the ERR page type, from the summary and field tables of the spec. -/
def regRowsERR : List RegRow := [
  ⟨0x040, 1, 0x4, 0x0, 0x0, 0x7, 0x0, 0x0⟩,
  ⟨0x044, 1, 0x4, 0x0, 0x0, 0x0, 0x1, 0x0⟩,
  ⟨0x048, 1, 0x4, 0x0, 0x0, 0xFFFFFFFF, 0x0, 0x0⟩,
  ⟨0x04C, 1, 0x4, 0x0, 0x0, 0x1FF, 0x0, 0x0⟩,
  ⟨0x050, 1, 0x4, 0x0, 0x0, 0xFFFFFFFF, 0x0, 0x0⟩,
  ⟨0x054, 1, 0x4, 0x0, 0x0, 0x0, 0x0, 0x0⟩,
  ⟨0x058, 1, 0x4, 0x0, 0x0, 0x0, 0x0, 0xFFFFFFFF⟩,
  ⟨0x05C, 1, 0x4, 0x0, 0x0, 0x7, 0x0, 0x0⟩,
  ⟨0x060, 1, 0x4, 0x0, 0x0, 0x80003FFF, 0x0, 0x0⟩,
  ⟨0x080, 8, 0x4, 0x0, 0x0, 0xFFFFFFFF, 0x0, 0x0⟩]

/-- Register rows of the CKP page type, from the summary and field tables of the spec. -/
def regRowsCKP : List RegRow := [
  ⟨0x040, 1, 0x4, 0x40, 0x47, 0x0, 0x0, 0x0⟩,
  ⟨0x044, 1, 0x4, 0x0, 0x0, 0xF1F, 0x0, 0x0⟩,
  ⟨0x048, 1, 0x4, 0x0, 0xFFFFFF, 0x0, 0x0, 0x0⟩,
  ⟨0x04C, 1, 0x4, 0x100, 0xFFF, 0x0, 0x0, 0x0⟩,
  ⟨0x050, 1, 0x4, 0x0, 0xFFFFFFE0, 0x0, 0x0, 0x0⟩,
  ⟨0x054, 1, 0x4, 0x0, 0xFFFFFFFF, 0x0, 0x0, 0x0⟩,
  ⟨0x058, 1, 0x4, 0x0, 0x1FF, 0x0, 0x0, 0x0⟩,
  ⟨0x05C, 1, 0x4, 0x0, 0xFFFF, 0x0, 0x0, 0x0⟩,
  ⟨0x060, 1, 0x4, 0x0, 0xFFFF0000, 0x0, 0x0, 0x0⟩,
  ⟨0x064, 1, 0x4, 0x0, 0xFFFFFFFF, 0x0, 0x0, 0x0⟩,
  ⟨0x068, 1, 0x4, 0x0, 0xFFFF0000, 0x0, 0x0, 0x0⟩,
  ⟨0x06C, 1, 0x4, 0x0, 0xFFFFFFFF, 0x0, 0x0, 0x0⟩,
  ⟨0x070, 1, 0x4, 0x0, 0xFFFF0000, 0x0, 0x0, 0x0⟩,
  ⟨0x074, 1, 0x4, 0x0, 0xFFFFFFFF, 0x0, 0x0, 0x0⟩,
  ⟨0x078, 1, 0x4, 0x0, 0xFFFF0000, 0x0, 0x0, 0x0⟩,
  ⟨0x07C, 1, 0x4, 0x0, 0xFFFFFFFF, 0x0, 0x0, 0x0⟩,
  ⟨0x080, 1, 0x4, 0x0, 0xFFFF0000, 0x0, 0x0, 0x0⟩,
  ⟨0x084, 1, 0x4, 0x0, 0xFFFFFFFF, 0x0, 0x0, 0x0⟩,
  ⟨0x088, 1, 0x4, 0xFFFFFFFF, 0x0, 0xFFFFFFFF, 0x0, 0x0⟩,
  ⟨0x08C, 1, 0x4, 0xFFFFFFFF, 0x0, 0xFFFFFFFF, 0x0, 0x0⟩,
  ⟨0x090, 1, 0x4, 0x0, 0x0, 0x3, 0x0, 0x0⟩,
  ⟨0x094, 1, 0x4, 0x0, 0x0, 0xFFFFFFFF, 0x0, 0x0⟩,
  ⟨0x098, 1, 0x4, 0x0, 0x0, 0x0, 0x0, 0xFFFFFFFF⟩,
  ⟨0x09C, 1, 0x4, 0x0, 0x0, 0x0, 0x0, 0xFFFFFFFF⟩]

/-- Register rows of the TIM page type, from the summary and field tables of the spec. -/
def regRowsTIM : List RegRow := [
  ⟨0x040, 1, 0x4, 0x0, 0x0, 0xFFFFFFFF, 0x0, 0x0⟩,
  ⟨0x044, 1, 0x4, 0x0, 0x0, 0xFFFFFFFF, 0x0, 0x0⟩,
  ⟨0x048, 1, 0x4, 0x0, 0x0, 0x7, 0x0, 0x0⟩]

/-- Register rows of the CQ page type, from the summary and field tables of the spec. -/
def regRowsCQ : List RegRow := [
  ⟨0x000, 1, 0x4, 0x0, 0xFFFF, 0x0, 0x0, 0x0⟩,
  ⟨0x004, 1, 0x4, 0x0, 0x0, 0xFFFF, 0x0, 0x0⟩,
  ⟨0x008, 1, 0x4, 0x40000, 0x1F01F9, 0x0, 0x0, 0x0⟩,
  ⟨0x00C, 1, 0x4, 0x0, 0x0, 0xFF0F, 0x0, 0x0⟩,
  ⟨0x010, 1, 0x4, 0x0, 0xFFFFF000, 0x0, 0x0, 0x0⟩,
  ⟨0x014, 1, 0x4, 0x0, 0xFFFFFFFF, 0x0, 0x0, 0x0⟩,
  ⟨0x018, 1, 0x4, 0x0, 0xFFFFF000, 0x0, 0x0, 0x0⟩,
  ⟨0x01C, 1, 0x4, 0x0, 0xFFFFFFFF, 0x0, 0x0, 0x0⟩]

/-- Register rows of the HPT page type, from the summary and field tables of the spec. -/
def regRowsHPT : List RegRow := [
  ⟨0x040, 1, 0x4, 0x1, 0x1, 0x0, 0x0, 0x0⟩,
  ⟨0x044, 1, 0x4, 0x0, 0x0, 0x3FFF, 0x0, 0x0⟩,
  ⟨0x048, 1, 0x4, 0x0, 0xFF, 0x0, 0x0, 0x0⟩,
  ⟨0x04C, 1, 0x4, 0x0, 0x7, 0x0, 0x0, 0x0⟩,
  ⟨0x050, 1, 0x4, 0x0, 0xFFFFFFFF, 0x0, 0x0, 0x0⟩,
  ⟨0x054, 1, 0x4, 0x80032, 0xFFFFFF, 0x0, 0x0, 0x0⟩,
  ⟨0x058, 1, 0x4, 0x0, 0xFFFF, 0x0, 0x0, 0x0⟩,
  ⟨0x05C, 1, 0x4, 0x0, 0x0, 0x0, 0x0, 0xFFFFFFFF⟩,
  ⟨0x060, 1, 0x4, 0x0, 0x0, 0xFF3FFF, 0x0, 0x0⟩,
  ⟨0x064, 1, 0x4, 0x0, 0x0, 0x0, 0x0, 0xFFFFFFFF⟩,
  ⟨0x068, 1, 0x4, 0x0, 0x0, 0x0, 0x0, 0xFFFFFFFF⟩,
  ⟨0x100, 16, 0x8, 0x0, 0x3, 0x0, 0x0, 0x0⟩,
  ⟨0x104, 16, 0x8, 0x0, 0x3FF, 0x0, 0x0, 0x0⟩]

/-- Register rows of the PRT page type, from the summary and field tables of the spec. -/
def regRowsPRT : List RegRow := [
  ⟨0x040, 6, 0x4, 0x0, 0x7, 0x0, 0x0, 0x0⟩,
  ⟨0x060, 8, 0x4, 0x0, 0xFFFFFFFF, 0x0, 0x0, 0x0⟩,
  ⟨0x080, 1, 0x4, 0x0, 0x0, 0x7, 0x0, 0x0⟩,
  ⟨0x084, 1, 0x4, 0x0, 0x0, 0x3FF3FFF, 0x0, 0x0⟩]

/-- Register rows of the PRTP page type, from the summary and field tables of the spec. -/
def regRowsPRTP : List RegRow := [
  ⟨0x040, 1, 0x4, 0x2, 0x2, 0x0, 0x0, 0x0⟩,
  ⟨0x044, 1, 0x4, 0x0, 0x0, 0x3F7, 0x0, 0x0⟩,
  ⟨0x048, 1, 0x4, 0x0, 0x7, 0x0, 0x0, 0x0⟩,
  ⟨0x04C, 1, 0x4, 0x0, 0xFFF, 0x0, 0x0, 0x0⟩,
  ⟨0x050, 1, 0x4, 0x0, 0xFFF, 0x0, 0x0, 0x0⟩]

/-- Register rows of the SEC page type, from the summary and field tables of the spec. -/
def regRowsSEC : List RegRow := [
  ⟨0x040, 1, 0x4, 0x0, 0xFF01, 0x0, 0x0, 0x0⟩,
  ⟨0x044, 1, 0x4, 0x1, 0x0, 0xFFFF1F, 0x0, 0x0⟩,
  ⟨0x048, 1, 0x4, 0x0, 0x0, 0x0, 0x0, 0x0⟩,
  ⟨0x04C, 1, 0x4, 0x0, 0xF, 0x0, 0x0, 0x0⟩,
  ⟨0x050, 8, 0x4, 0x0, 0x0, 0x0, 0x0, 0x0⟩,
  ⟨0x070, 1, 0x4, 0x0, 0x0, 0x0, 0x0, 0x0⟩,
  ⟨0x074, 1, 0x4, 0x0, 0x0, 0x0, 0x0, 0x0⟩,
  ⟨0x078, 1, 0x4, 0x0, 0x0, 0xFFFFFFFF, 0x0, 0x0⟩,
  ⟨0x07C, 1, 0x4, 0x0, 0x0, 0xFFFF, 0x0, 0x0⟩,
  ⟨0x080, 1, 0x4, 0x0, 0x0, 0x0, 0x0, 0x0⟩,
  ⟨0x084, 1, 0x4, 0x0, 0x5, 0x78, 0x0, 0x0⟩,
  ⟨0x088, 1, 0x4, 0x0, 0x0, 0x0, 0x0, 0x0⟩,
  ⟨0x0C0, 12, 0x4, 0x0, 0x0, 0xFFFFFFFF, 0x0, 0x0⟩]

/-- Register rows of the AO page type, from the summary and field tables of the spec. -/
def regRowsAO : List RegRow := [
  ⟨0x040, 1, 0x4, 0x0, 0x0, 0xFF, 0x0, 0x0⟩,
  ⟨0x044, 1, 0x4, 0x0, 0x0, 0xF, 0x0, 0x0⟩,
  ⟨0x048, 1, 0x4, 0x0, 0x0, 0xFFFFFFFF, 0x0, 0x0⟩,
  ⟨0x04C, 1, 0x4, 0x0, 0x0, 0xFFFF, 0x0, 0x0⟩,
  ⟨0x050, 1, 0x4, 0x0, 0x0, 0xFFFF, 0x0, 0x0⟩,
  ⟨0x054, 1, 0x4, 0x0, 0x0, 0xFFFF, 0x0, 0x0⟩,
  ⟨0x058, 1, 0x4, 0x1, 0x0, 0x7, 0x0, 0x0⟩]

/-- Register rows of the PWR page type, from the summary and field tables of the spec. -/
def regRowsPWR : List RegRow := [
  ⟨0x040, 1, 0x4, 0x3, 0xF, 0x0, 0x0, 0x0⟩,
  ⟨0x044, 1, 0x4, 0x0, 0x0, 0xFF, 0x0, 0x0⟩,
  ⟨0x048, 1, 0x4, 0x28C832, 0xFFFFFFF, 0x0, 0x0, 0x0⟩,
  ⟨0x04C, 1, 0x4, 0x3C, 0x7F, 0x0, 0x0, 0x0⟩,
  ⟨0x050, 1, 0x4, 0x1D4C, 0x1FFF, 0x0, 0x0, 0x0⟩,
  ⟨0x054, 1, 0x4, 0x1410, 0xFFFF, 0x0, 0x0, 0x0⟩,
  ⟨0x058, 1, 0x4, 0x0, 0x0, 0xFFFFFFFF, 0x0, 0x0⟩,
  ⟨0x05C, 1, 0x4, 0x0, 0x0, 0xFFFFFFFF, 0x0, 0x0⟩,
  ⟨0x060, 1, 0x4, 0x3E8, 0xFFFF, 0x0, 0x0, 0x0⟩,
  ⟨0x064, 1, 0x4, 0x364, 0xFFF, 0x0, 0x0, 0x0⟩,
  ⟨0x068, 1, 0x4, 0x0, 0x0, 0xFFFF, 0x0, 0x0⟩,
  ⟨0x06C, 1, 0x4, 0x0, 0x0, 0xFFFFFF, 0x0, 0x0⟩,
  ⟨0x070, 1, 0x4, 0x0, 0x0, 0x0, 0x0, 0xFFFFFFFF⟩,
  ⟨0x074, 1, 0x4, 0x0, 0x0, 0x0, 0x0, 0xFFFFFFFF⟩,
  ⟨0x080, 1, 0x4, 0x0, 0xFFFFFFFF, 0x0, 0x0, 0x0⟩,
  ⟨0x084, 1, 0x4, 0x170, 0x1FF, 0x0, 0x0, 0x0⟩,
  ⟨0x088, 1, 0x4, 0x0, 0x0, 0xFFFFFFFF, 0x0, 0x0⟩,
  ⟨0x08C, 1, 0x4, 0x0, 0x0, 0x1FF, 0x0, 0x0⟩]

/-- Register rows of the CLK page type, from the summary and field tables of the spec. -/
def regRowsCLK : List RegRow := [
  ⟨0x040, 1, 0x4, 0x0, 0x0, 0x1FFFFF, 0x0, 0x0⟩,
  ⟨0x044, 1, 0x4, 0x0, 0x3FF, 0x0, 0x0, 0x0⟩,
  ⟨0x048, 1, 0x4, 0x0, 0x0, 0x0, 0x0, 0xFFFFFFFF⟩]

/-- Register rows of the BST page type, from the summary and field tables of the spec. -/
def regRowsBST : List RegRow := [
  ⟨0x040, 1, 0x4, 0x2, 0x6, 0x0, 0x0, 0x0⟩,
  ⟨0x044, 1, 0x4, 0x0, 0x0, 0xFF7F, 0x0, 0x0⟩,
  ⟨0x048, 1, 0x4, 0x0, 0xFFFFFFFF, 0x0, 0x0, 0x0⟩,
  ⟨0x04C, 1, 0x4, 0x0, 0x1FF, 0x0, 0x0, 0x0⟩,
  ⟨0x050, 1, 0x4, 0x0, 0x0, 0xFFFFFFFF, 0x0, 0x0⟩,
  ⟨0x054, 1, 0x4, 0x0, 0x0, 0x1FF, 0x0, 0x0⟩,
  ⟨0x058, 1, 0x4, 0x0, 0x0, 0xFFFFFFFF, 0x0, 0x0⟩,
  ⟨0x05C, 1, 0x4, 0x0, 0x0, 0x1FF, 0x0, 0x0⟩,
  ⟨0x060, 1, 0x4, 0x0, 0x0, 0x0, 0xFFFFFFFF, 0x0⟩,
  ⟨0x064, 1, 0x4, 0x0, 0x0, 0x0, 0x1FF, 0x0⟩,
  ⟨0x068, 1, 0x4, 0x0, 0x0, 0xFFFFFFFF, 0x0, 0x0⟩,
  ⟨0x06C, 1, 0x4, 0x0, 0x0, 0xFFFFFFFF, 0x0, 0x0⟩,
  ⟨0x070, 1, 0x4, 0x8, 0x1F, 0x0, 0x0, 0x0⟩,
  ⟨0x074, 1, 0x4, 0x0, 0x0, 0xFFFFFFFF, 0x0, 0x0⟩,
  ⟨0x078, 1, 0x4, 0x0, 0x0, 0xFFF, 0x0, 0x0⟩,
  ⟨0x07C, 1, 0x4, 0x0, 0x0, 0x0, 0x0, 0xFFFFFFFF⟩]

/-- Register rows of the CHK page type, from the summary and field tables of the spec. -/
def regRowsCHK : List RegRow := [
  ⟨0x040, 1, 0x4, 0x0, 0x1, 0x0, 0x0, 0x0⟩,
  ⟨0x044, 1, 0x4, 0xDF, 0xFF, 0x0, 0x0, 0x0⟩,
  ⟨0x048, 1, 0x4, 0x0, 0x0, 0x1F, 0x0, 0x0⟩,
  ⟨0x04C, 1, 0x4, 0x0, 0x0, 0x0, 0x7, 0x0⟩,
  ⟨0x050, 1, 0x4, 0x4C11DB7, 0xFFFFFFFF, 0x0, 0x0, 0x0⟩,
  ⟨0x054, 1, 0x4, 0x0, 0xFFFFFFFF, 0x0, 0x0, 0x0⟩,
  ⟨0x058, 1, 0x4, 0xFFFFFFFF, 0xFFFFFFFF, 0x0, 0x0, 0x0⟩,
  ⟨0x05C, 1, 0x4, 0x0, 0xFFFFFFFF, 0x0, 0x0, 0x0⟩,
  ⟨0x060, 1, 0x4, 0xFFFFFFFF, 0xFFFFFFFF, 0x0, 0x0, 0x0⟩,
  ⟨0x064, 1, 0x4, 0x0, 0xFFFFFFFF, 0x0, 0x0, 0x0⟩,
  ⟨0x068, 1, 0x4, 0x0, 0xFFFFFFFF, 0x0, 0x0, 0x0⟩,
  ⟨0x06C, 1, 0x4, 0x0, 0xFFFFFFFF, 0x0, 0x0, 0x0⟩,
  ⟨0x070, 1, 0x4, 0x0, 0x0, 0xFFFFFFFF, 0x0, 0x0⟩,
  ⟨0x074, 1, 0x4, 0x0, 0x0, 0xFFFFFFFF, 0x0, 0x0⟩,
  ⟨0x078, 1, 0x4, 0x0, 0x0, 0x0, 0x0, 0x0⟩,
  ⟨0x07C, 1, 0x4, 0x0, 0x0, 0x0, 0x0, 0x0⟩,
  ⟨0x080, 1, 0x4, 0x0, 0x0, 0x0, 0x0, 0x0⟩,
  ⟨0x084, 1, 0x4, 0x0, 0x0, 0x0, 0x0, 0xFFFFFFFF⟩]

/-- Register rows of the DBG page type, from the summary and field tables of the spec. -/
def regRowsDBG : List RegRow := [
  ⟨0x040, 1, 0x4, 0x0, 0x1, 0x0, 0x0, 0x0⟩,
  ⟨0x044, 1, 0x4, 0x0, 0x0, 0x1, 0x0, 0x0⟩,
  ⟨0x048, 1, 0x4, 0x0, 0xFFFFF7FF, 0x0, 0x0, 0x0⟩,
  ⟨0x04C, 1, 0x4, 0x0, 0xFFFFFFFF, 0x0, 0x0, 0x0⟩,
  ⟨0x050, 1, 0x4, 0x18, 0x3F, 0x0, 0x0, 0x0⟩,
  ⟨0x054, 1, 0x4, 0x0, 0xFFFFF000, 0x0, 0x0, 0x0⟩,
  ⟨0x058, 1, 0x4, 0x0, 0xFFFFFFFF, 0x0, 0x0, 0x0⟩,
  ⟨0x05C, 1, 0x4, 0x0, 0x0, 0xFFFFFFFF, 0x0, 0x0⟩]

end Sys2Proof.Machine
end

