-- ==== Sys2Proof/Machine/Pages.lean ====
section
/-! DEFINITION. Machine/Pages.lean: the register page index (R532 to R535), the power domain of each page (R486), the reset
value of every register, and the classes of the events (R538). -/
namespace Sys2Proof.Machine

/-- The block types of R532; `cq` stands for the 64 queue pages of BAR2 (R443) and `msix` and `pba` for a port's MSI-X table and pending bits. -/
inductive Blk where
  | til | dst | sqr | nmc | fmc | dbg | cur | crs | ing | ings | kvs | hdd | stp | upd | ckp | tok | mde | exe
  | gatl | gats | chk | hpt | prt | prtp | ao | pwr | clk | tim | err | sec | bst | cq | msix | pba
  deriving DecidableEq, Repr

/-- Numbers of the pages with one instance (R532). -/
abbrev pKVS : Nat := 0x0A00
abbrev pHDD : Nat := 0x0A01
abbrev pSTP : Nat := 0x0A02
abbrev pUPD : Nat := 0x0A03
abbrev pCKP : Nat := 0x0A04
abbrev pTOK : Nat := 0x0A05
abbrev pGATS : Nat := 0x0A18
abbrev pPRT : Nat := 0x0A38
abbrev pDBGM : Nat := 0x0A40
abbrev pAO : Nat := 0x0B00
abbrev pPWR : Nat := 0x0B01
abbrev pCLK : Nat := 0x0B02
abbrev pTIM : Nat := 0x0B03
abbrev pERR : Nat := 0x0B04
abbrev pSEC : Nat := 0x0B05
abbrev pBST : Nat := 0x0B06
/-- Pages with several instances. -/
def pDST (d : Nat) : Nat := 0x0600 + 0x20 * d
def pSQR (d : Nat) : Nat := 0x0601 + 0x20 * d
def pNMC (d : Nat) : Nat := 0x0602 + 0x20 * d
def pDBG (d : Nat) : Nat := 0x0603 + 0x20 * d
def pFMC (c : Nat) : Nat := 0x0700 + c
def pCRS (i : Nat) : Nat := 0x0720 + i
def pING : Nat := 0x0800
def pINGS (stream : Nat) : Nat := 0x0801 + stream
def pMDE (k : Nat) : Nat := 0x0A08 + k
def pEXE (k : Nat) : Nat := 0x0A0C + k
def pGAT (g : Nat) : Nat := 0x0A10 + g
def pCHK (u : Nat) : Nat := 0x0A20 + u
def pHPT (h : Nat) : Nat := 0x0A30 + h
def pPRTP (p : Nat) : Nat := 0x0A39 + p
/-- BAR2 pages, numbered after the register pages: queue pages, the ports' MSI-X tables and pending-bit arrays (R443). -/
def pCQ (q : Nat) : Nat := 0x4000 + q
def pMSIX (h : Nat) : Nat := 0x4080 + h
def pPBA (h : Nat) : Nat := 0x4090 + h

/-- Block type and instance of a page number; none for an unassigned page (R532, R534). -/
def pageBlk (p : Nat) : Option (Blk × Nat) :=
  if p < 0x600 then (if p / 16 % 16 ≤ 12 then some (.til, p) else none)
  else if p < 0x6C0 then
    let d := (p - 0x600) / 0x20
    let o := (p - 0x600) % 0x20
    if o = 0 then some (.dst, d) else if o = 1 then some (.sqr, d) else if o = 2 then some (.nmc, d)
    else if o = 3 then some (.dbg, 1 + d) else if 16 ≤ o then some (.cur, 16 * d + (o - 16)) else none
  else if p < 0x700 then none
  else if p < 0x720 then some (.fmc, p - 0x700)
  else if p < 0x74C then some (.crs, p - 0x720)
  else if p < 0x800 then none
  else if p = 0x800 then some (.ing, 0)
  else if p < 0x901 then some (.ings, p - 0x800)
  else if p < 0xA00 then none
  else if p = pKVS then some (.kvs, 0) else if p = pHDD then some (.hdd, 0) else if p = pSTP then some (.stp, 0)
  else if p = pUPD then some (.upd, 0) else if p = pCKP then some (.ckp, 0) else if p = pTOK then some (.tok, 0)
  else if p < 0xA08 then none
  else if p < 0xA0B then some (.mde, p - 0xA08)
  else if p < 0xA0C then none
  else if p < 0xA10 then some (.exe, p - 0xA0C)
  else if p < 0xA18 then some (.gatl, p - 0xA10)
  else if p = 0xA18 then some (.gats, 8)
  else if p < 0xA20 then none
  else if p < 0xA30 then some (.chk, p - 0xA20)
  else if p < 0xA38 then some (.hpt, p - 0xA30)
  else if p = 0xA38 then some (.prt, 0)
  else if p < 0xA3F then some (.prtp, p - 0xA38)
  else if p = 0xA40 then some (.dbg, 0)
  else if p < 0xB00 then none
  else if p = pAO then some (.ao, 0) else if p = pPWR then some (.pwr, 0) else if p = pCLK then some (.clk, 0)
  else if p = pTIM then some (.tim, 0) else if p = pERR then some (.err, 0) else if p = pSEC then some (.sec, 0)
  else if p = pBST then some (.bst, 0)
  else if p < 0x4000 then none
  else if p < 0x4040 then some (.cq, p - 0x4000)
  else if p < 0x4080 then none
  else if p < 0x4088 then some (.msix, p - 0x4080)
  else if p < 0x4090 then none
  else if p < 0x4098 then some (.pba, p - 0x4090)
  else none

/-- PAGE_ID.TYPE of a block (R532). -/
def Blk.typeCode : Blk → Nat
  | .til => 0x01 | .dst => 0x02 | .sqr => 0x03 | .nmc => 0x04 | .fmc => 0x05 | .crs => 0x06 | .cur => 0x07
  | .kvs => 0x08 | .hdd => 0x09 | .stp => 0x0A | .upd => 0x0B | .ckp => 0x0C | .ing => 0x0D | .ings => 0x0D
  | .tok => 0x0E | .mde => 0x0F | .exe => 0x10 | .gatl => 0x11 | .gats => 0x11 | .chk => 0x12 | .hpt => 0x13
  | .prt => 0x14 | .prtp => 0x14 | .ao => 0x20 | .pwr => 0x21 | .clk => 0x22 | .tim => 0x23 | .err => 0x24
  | .sec => 0x25 | .bst => 0x26 | .dbg => 0x30 | .cq => 0 | .msix => 0 | .pba => 0

/-- PAGE_CAP: NEVT and PWR (R532). -/
def Blk.cap : Blk → Nat
  | .til => 0x4A | .dst => 0x40 | .sqr => 0x41 | .nmc => 0x44 | .dbg => 0x40 | .cur => 0x40 | .fmc => 0x44
  | .crs => 0x41 | .ing => 0x41 | .ings => 0x4C | .kvs => 0x46 | .hdd => 0x43 | .stp => 0x4E | .upd => 0x43
  | .ckp => 0x44 | .tok => 0x41 | .mde => 0x41 | .exe => 0x43 | .gatl => 0x46 | .gats => 0x46 | .chk => 0x40
  | .hpt => 0x06 | .prt => 0x01 | .prtp => 0x02 | .ao => 0x07 | .pwr => 0x07 | .clk => 0x02 | .tim => 0x00
  | .err => 0x03 | .sec => 0x04 | .bst => 0x04 | .cq => 0 | .msix => 0 | .pba => 0

/-- NEVT: the events a page defines. -/
def Blk.nevt (b : Blk) : Nat := b.cap % 64

/-- District-bound pages (R535, R536): PART follows the district map. -/
def Blk.bound : Blk → Bool
  | .til | .dst | .sqr | .nmc | .cur | .hpt => true
  | _ => false

/-- Pages that belong to the module: PART = 7 at reset (R535). -/
def Blk.modulePage : Blk → Bool
  | .ao | .pwr | .clk | .tim | .err | .sec | .bst | .prt | .prtp => true
  | _ => false

/-- The always-on pages whose EN and SRST have no effect (R537). -/
def Blk.alwaysOn (b : Blk) : Bool := b.modulePage

/-- The switched power domain of a page's block; none for AO (R486, R532). -/
def pageDomain (b : Blk) (inst : Nat) : Option Nat :=
  match b with
  | .til => if inst / 16 % 16 = 12 then some (24 + inst / 256) else some (4 * (inst / 256) + inst / 16 % 16 / 3)
  | .nmc => some (30 + inst)
  | .fmc => some 37
  | .gatl | .gats => some 38
  | .ing | .ings | .tok | .mde | .exe => some 39
  | .hpt | .cq | .msix | .pba => some 40
  | .ao | .pwr | .clk | .tim | .err | .sec | .bst | .prt | .prtp => none
  | _ => some 36

/-- The register rows of a block. -/
def Blk.rows : Blk → List RegRow
  | .til => regRowsTIL | .dst => regRowsDST | .nmc => regRowsNMC | .fmc => regRowsNMC | .dbg => regRowsDBG
  | .crs => regRowsCRS | .ing => regRowsING | .ings => regRowsINGS | .kvs => regRowsKVS | .hdd => regRowsHDD
  | .stp => regRowsSTP | .upd => regRowsUPD | .ckp => regRowsCKP | .tok => regRowsTOK | .mde => regRowsMDE
  | .exe => regRowsEXE | .gatl => regRowsGATL | .gats => regRowsGATS | .chk => regRowsCHK | .hpt => regRowsHPT
  | .prt => regRowsPRT | .prtp => regRowsPRTP | .ao => regRowsAO | .pwr => regRowsPWR | .clk => regRowsCLK
  | .tim => regRowsTIM | .err => regRowsERR | .sec => regRowsSEC | .bst => regRowsBST | .cq => regRowsCQ
  | .msix => [⟨0, 64, 16, 0, 0xFFFFFFFC, 0, 0, 0⟩, ⟨4, 64, 16, 0, 0xFFFFFFFF, 0, 0, 0⟩,
      ⟨8, 64, 16, 0, 0xFFFFFFFF, 0, 0, 0⟩, ⟨12, 64, 16, 1, 1, 0, 0, 0⟩]
  | .sqr | .cur | .pba => []

/-- Whether byte offset `off` is one of a row's registers. -/
def RegRow.covers (r : RegRow) (off : Nat) : Bool :=
  decide (r.off ≤ off) && decide ((off - r.off) % r.stride = 0) && decide ((off - r.off) / r.stride < r.count)

/-- The row of a register, none where no register occupies the offset (R447). -/
def findRow (b : Blk) (off : Nat) : Option RegRow := b.rows.find? (·.covers off)

/-- Reset values of a crossing's registers (R327). -/
def crsReset (inst off : Nat) : Nat :=
  let pick := fun (a b c d : Nat) => if inst < 32 then a else if inst < 40 then b else if inst < 43 then c else d
  if off = R.CRS_DEF_NORMAL then pick 2048 8192 10000000 65536
  else if off = R.CRS_DEF_URGENT then pick 256 1024 1000000 4096
  else if off = R.CRS_QUOTA then
    pick (16 + 1024 * 256) (8 + 4096 * 256) (4 + 10000000 * 256) (4 + 1000000 * 256) % 2 ^ 32
  else if off = R.CRS_WDOG then pick 10 100 100000 10000
  else 0

/-- The reset value of the register at offset `off` of page p (R14, R535). Values from flash and fuses: log entry 3. -/
def regReset (p off : Nat) : Nat :=
  match pageBlk p with
  | none => 0
  | some (b, inst) =>
    if off < 0x40 ∧ b ≠ .cq ∧ b ≠ .msix then
      if off = R.PAGE_ID then b.typeCode + inst % 4096 * 2 ^ 8 + 0x01000000
      else if off = R.PAGE_CAP then b.cap
      else if off = R.PAGE_CTL then 1
      else if off = R.EVT_ROUTE then 0x40
      else if off = R.PAGE_OWNER then
        if b.modulePage ∨ p = pDBGM then 7 else 0
      else 0
    else
      match findRow b off with
      | none => 0
      | some r =>
        match b with
        | .crs => if r.reset ≠ 0 then r.reset else crsReset inst off
        | .prtp => if off = R.PRT_P_FAR_SIZE ∧ inst = 1 then 2032 else r.reset
        | _ => r.reset

/-- Event classes (R538): 0 notice, 1 CORRECTED, 2 NONFATAL, 3 FATAL. -/
def evtClass (b : Blk) (e : Nat) : Nat :=
  match b with
  | .til => nth 0 [0, 2, 2, 2, 1, 2, 2, 1, 2, 2] e
  | .sqr => 2
  | .nmc | .fmc => nth 0 [1, 2, 2, 2] e
  | .crs => 2
  | .kvs => nth 0 [0, 2, 2, 0, 2, 0] e
  | .hdd => nth 0 [0, 2, 0] e
  | .stp => nth 0 [0, 0, 0, 0, 2, 2, 2, 2, 2, 2, 2, 2, 2, 3] e
  | .upd => nth 0 [2, 2, 0] e
  | .ckp => nth 0 [0, 2, 0, 0] e
  | .ing => 2
  | .ings => nth 0 [2, 2, 2, 2, 2, 2, 2, 2, 2, 0, 0, 0] e
  | .tok => 2
  | .mde => 2
  | .exe => nth 0 [0, 2, 0] e
  | .gatl => nth 0 [0, 2, 2, 2, 2, 2] e
  | .gats => nth 0 [0, 2, 2, 2, 2, 0] e
  | .hpt => nth 0 [2, 0, 0, 2, 2, 2] e
  | .prt => 0
  | .prtp => nth 0 [2, 0] e
  | .ao => nth 0 [2, 0, 2, 2, 3, 3, 2] e
  | .pwr => nth 0 [0, 0, 0, 2, 2, 0, 2] e
  | .clk => 3
  | .err => 0
  | .sec => nth 0 [0, 0, 2, 0] e
  | .bst => nth 0 [0, 2, 2, 0] e
  | _ => 0

/-- MEM_UE and SRAM_UE, the uncorrectable memory errors of R11 (R539). -/
def evtIsUE (b : Blk) (e : Nat) : Bool :=
  match b with
  | .til => e == 5
  | .nmc | .fmc => e == 1
  | _ => false

/-- A logical tile ID that R68 assigns. -/
def isTile (t : Nat) : Bool := decide (t / 256 < 6) && decide (t / 16 % 16 < 12)

/-- A signal target (R569). -/
def isTarget (t : Nat) : Bool := isTile t || t == 0x700

/-- A physical site: district × 256 + street × 16 + column, street 0 to 12. -/
def isSite (t : Nat) : Bool := decide (t / 256 < 6) && decide (t / 16 % 16 < 13)

/-- Every physical site, in rising order. -/
def allSites : List Nat := (List.range 0x600).filter isSite

/-- Every logical tile ID. -/
def allTiles : List Nat := (List.range 0x600).filter isTile

end Sys2Proof.Machine
end

