-- ==== Sys2Proof/Machine/State.lean ====
section
/-! DEFINITION. Machine/State.lean: everything the spec gives the machine, as plain data. A register of a page lives in `regs`
under one key; what no register holds (queues, latches, engines' progress) has a field here. -/
namespace Sys2Proof.Machine

/-- Why the machine stops with a fault. -/
inductive Fault where
  /-- Raised by the memory-controller commands (MEMORY_READ, MEMORY_WRITE, FMAX, UADD, OR) for an address that the map of
  R303 gives no memory: no controller exists to serve it. Safe: the spec names no effect of such a request. -/
  | noSuchAddress (a : Nat)
  deriving DecidableEq, Repr

/-- Why the machine refuses a command. -/
inductive Refusal where
  /-- Answered only by an arm of exec that has no meaning yet. Safe. -/
  | notModelled (mnemonic : String)
  deriving DecidableEq, Repr

/-- What a link sends by itself (R378, R381, R385): a NAK, a resend of held flits, its identity, empty flits. -/
inductive LinkMsg where
  | nak (seq : Nat)
  | resend (seq : Nat)
  | ident (i : Ident)
  | pad (flits : Nat)
  deriving DecidableEq, Repr

/-- Something the module sends out, in the order it sends it. -/
inductive Out where
  | msix (port vector : Nat)
  | supv (page event : Nat)
  | hostWrite (port addr : Nat) (data : List Nat)
  | hostRead (port addr len req : Nat)
  | hostPoison (port addr : Nat) (data : List Nat)
  | packet (gate link : Nat) (pkt : Packet)
  | linkCtl (gate link : Nat) (m : LinkMsg)
  | reply (port : Nat) (data : List Nat)
  | cfgRetry (port : Nat)
  | cfgData (port value : Nat)
  | smbus (data : List Nat)
  deriving DecidableEq, Repr

/-- One record of the error log (R431). -/
structure LogRec where
  mt : Nat
  seq : Nat
  page : Nat
  event : Nat
  flags : Nat
  info0 : Nat
  info1 : Nat
  step : Nat
  moduleId : Nat
  deriving DecidableEq, Repr

/-- A counter signal on its way (R90, R102): sender, target (tile ID or 0x700), counter and increment, and the site that the
target had when it left (R107). -/
structure SigMsg where
  sender : Nat
  target : Nat
  ctr : Nat
  inc : Nat
  site : Nat := 0
  deriving DecidableEq, Repr

/-- A barrier arrival on its way to its square (R104). -/
structure BarMsg where
  tile : Nat
  barId : Nat
  count : Nat
  pos : Nat
  deriving DecidableEq, Repr

/-- A barrier in use (R104): the count of its first arrival, the arrivals and the waiting descriptors (tile, position). -/
structure Barrier where
  count : Nat := 0
  waiters : List (Nat × Nat) := []
  deriving DecidableEq, Repr

/-- A merge into a tensor record that a descriptor makes when it retires (R54): record address, FP32 maximum, counts, flags. -/
structure Merge where
  addr : Nat
  amax : Nat
  sat : Nat
  ftz : Nat
  nan : Bool
  inf : Bool
  nz : Bool
  deriving DecidableEq, Repr

/-- How far a descriptor that has issued has come. -/
inductive RunSt where
  | working                 -- waits for data, a barrier, a drain or its turn
  | yielded                 -- has given up the array (R218)
  | done                    -- every write visible; ready to retire
  | flushed                 -- stopped by FLUSH, EXCISE or a halt; retires as flushed
  | faulted (code : Nat)    -- a MOV or UPD that faulted (R101)
  deriving DecidableEq, Repr

/-- A descriptor that has issued and not retired: queue count, its 64 bytes as a number, micro-batch stamp, whether it came
from the deferred queue, the merges it owes, and what it overwrote (address, old byte). -/
structure Run where
  pos : Nat
  desc : Nat
  stamp : Nat
  parked : Bool
  st : RunSt
  /-- A BARRIER whose arrival has left (R104). -/
  arrived : Bool := false
  merges : List Merge := []
  undo : List (Nat × Nat) := []
  /-- Accumulator elements, vector words and predicates it wrote: a flush leaves them undefined (R92, R114). -/
  undoBanks : List Nat := []
  undoVregs : List Nat := []
  undoPregs : List Nat := []
  /-- The packed count a VCH writes when it retires, with its register (R127). -/
  packed : Option (Nat × Nat) := none
  deriving DecidableEq, Repr

/-- A parked descriptor (R216). -/
structure Parked where
  pos : Nat
  desc : Nat
  stamp : Nat
  deriving DecidableEq, Repr

/-- One entry of the statistics store (R144). -/
structure StatEntry where
  mu : Nat
  r : Nat
  m : Nat
  sigma : Nat
  kind : Nat
  step : Nat
  bad : LineErr
  deriving DecidableEq, Repr

/-- One activation slot that does not hold its ROM image (R132, R136): the loaded image, or none when invalid. -/
structure ActSlot where
  valid : Bool
  image : List Nat
  deriving DecidableEq, Repr

/-- A descriptor that halted its sequencer (R91): queue count, and whether it still stands unissued. -/
structure Halt where
  pos : Nat
  running : Bool
  parked : Bool
  deriving DecidableEq, Repr

/-- What a tile site holds beside its registers and SRAM. -/
structure TileState where
  /-- Retired queue counts at or beyond the head, and parked ones (R89, R216). -/
  retired : List Nat := []
  /-- Micro-batch stamps by queue count (R221). -/
  stamps : List (Nat × Nat) := []
  running : List Run := []
  /-- The deferred queue, oldest first (R216). -/
  parked : List Parked := []
  halted : Option Halt := none
  /-- Deferred descriptors that found the queue full and run as ordinary ones (R216). -/
  overflowed : List Nat := []
  /-- Descriptors whose rounding at sites 0 and 1 a change of TIL_RND_CTL at a wrong time leaves open, by queue count (a parked one's
  plus 65,536): the bits that changed and a free number (R67). -/
  rndLoose : List (Nat × (Nat × Nat)) := []
  /-- PHASE 3 descriptors for which a change of SKIP_FROZEN at a wrong time leaves open whether it counts as set, by queue count,
  with a free number (R227). -/
  skipLoose : List (Nat × Nat) := []
  /-- Queue count for which SEQ_STALL has been raised (R93). -/
  stallFor : Option Nat := none
  /-- Accumulator elements, W36 encodings at bank × 8192 + row × 128 + column (R75). -/
  banks : List (Nat × Nat) := []
  /-- Vector register words at register × 128 + word (R110). -/
  vregs : List (Nat × Nat) := []
  /-- Predicate registers (R110). -/
  pregs : List (Nat × Nat) := []
  /-- Statistics store by entry (R144). -/
  stats : List (Nat × StatEntry) := []
  /-- Activation slots that do not hold their ROM image (R132). -/
  acts : List (Nat × ActSlot) := []
  /-- A table load in progress: slot and SRAM address (R136). -/
  actLoad : Option (Nat × Nat) := none
  clkStopped : Bool := false
  scrubLine : Nat := 0
  deriving DecidableEq, Repr

/-- What a host port holds beside its registers (R442, R452, R463, R468, R471 to R475). -/
structure PortState where
  /-- Configuration requests are answered (R442); PERST# is deasserted. -/
  released : Bool := false
  perstN : Bool := true
  busMaster : Bool := false
  msixEn : Bool := false
  funcMask : Bool := false
  /-- Pending bits of masked vectors, vectors in their holdoff with MT of their last message, and those with signals merged
  meanwhile (R452). -/
  pba : Nat := 0
  holdoff : List (Nat × Nat) := []
  merged : Nat := 0
  /-- Consecutive completion timeouts (R463), window entries as flags and host address, registers to reset on return (R469). -/
  timeouts : Nat := 0
  win : List (Nat × (Nat × Nat)) := []
  resetDue : Bool := false
  /-- The port's copy of the staging registers (R473): slot, key words by number, salt, check value. -/
  keySel : Nat := 0
  keyWords : List (Nat × Nat) := []
  keySalt : Nat := 0
  kcv : Nat := 0
  /-- BAR4 entry 15 maps the staging area (R471). -/
  staged : Bool := false
  /-- SPDM: exchanges done (1 version, 2 capabilities, 3 algorithms) and the session (0 none, 1 in handshake, 2 secured); IDE key
  messages by stream (R472, R475). -/
  spdm : Nat := 0
  session : Nat := 0
  ideKeys : List (Nat × List Nat) := []
  deriving DecidableEq, Repr

/-- A command of a queue that has left the ring's unexecuted part (R456): its count since EN was set, its entries, its header,
and whether it has completed; its MOVs' faults for a COPY. -/
structure CqCmd where
  idx : Nat
  len : Nat
  hdr : Nat
  done : Bool
  parts : Nat := 0
  fault : Option Nat := none
  deriving DecidableEq, Repr

/-- A command queue (R454 to R461): counts since EN was set of the next entry to execute and to fetch, the entries fetched and not
executed, commands in ring order of which HEAD has not passed all, the MT at which the WAIT or DESC at the front began, and
the count up to which FLUSH completes commands. -/
structure CqState where
  next : Nat := 0
  fetch : Nat := 0
  buf : List Nat := []
  live : List CqCmd := []
  since : Option Nat := none
  flushTo : Option Nat := none
  deriving DecidableEq, Repr

/-- An image being programmed (R471): slot, bytes, and the outcome of its verification. -/
structure ImageJob where
  slot : Nat
  image : List Nat
  result : Nat
  deriving DecidableEq, Repr

/-- What the security block and the supervisor hold beside registers (R470 to R476): key-store slots by partition × 16 + slot as
key and salt, images programmed into flash by slot, the staging area's bytes, a programming job, the fused security version, the
running image's, the RECOVERY-independent fact that boot has ended, and the test controller's hold. -/
structure SecState where
  keys : List (Nat × (Nat × Nat)) := []
  flash : List (Nat × List Nat) := []
  staging : List (Nat × Nat) := []
  job : Option ImageJob := none
  svnFused : Nat := 0
  svnRun : Nat := 0
  booted : Bool := false
  scanHold : Bool := false
  deriving DecidableEq, Repr

/-- The load governor (R493 to R502), powers in milliwatts: reference, floor, ceiling, sums for the 1-s average (this
millisecond's, its microseconds, and the last thousand averages), steps below full duty for power, and by district for heat with
MT of their last change and whether the district was above T_HI, tiles running filler, the rotation's next district, microseconds
above the limit, the millisecond of the last FLOOR_SHORT, and wake grants by district as (microsecond, count). -/
structure GovState where
  r : Nat := 0
  floor : Nat := 0
  top : Nat := 0
  msSum : Nat := 0
  msTicks : Nat := 0
  avgs : List Nat := []
  avg : Nat := 0
  duty : Nat := 0
  therm : List (Nat × Nat) := []
  thermAt : List (Nat × Nat) := []
  hot : List Nat := []
  memHot : List Nat := []
  filling : List Nat := []
  rot : Nat := 0
  overBudget : Nat := 0
  limitRaised : Bool := false
  shortMs : Option Nat := none
  wakes : List (Nat × (Nat × Nat)) := []
  deferred : List Nat := []
  deriving DecidableEq, Repr

/-- Supplies, domains, clocks and park (R480 to R509): voltages in millivolts, VIN's current in 10 mA, the internal input node,
the sequence latch, MT at which VIO12 came into range and whether VANA_LATE was raised, RESET_N low, the converters, the levels of
PARK_N and THROTTLE_N (true is high) and their noise states, the domain whose rail ramps with MT of its admission, domains whose
requests are ignored, PLLs that lost lock and MT of the last PLL start, the grace period's start, whether the park
request ends in SHUTDOWN, a park that waits for a self-test run, a resume under way, far channels that hold their contents in self-refresh, a thermal trip whose heat
remains, an emergency off since the last start, and the hottest temperature of the last sample. -/
structure PwrState where
  vio12 : Nat := 0
  vana : Nat := 0
  vin : Nat := 0
  vinCur : Nat := 0
  node : Nat := 0
  seqLatch : Bool := false
  held : Bool := false
  vioAt : Nat := 0
  lateRaised : Bool := false
  rstLow : Bool := false
  conv : Bool := false
  parkN : Bool := true
  throttleN : Bool := true
  noise : List Nat := []
  ramping : Option (Nat × Nat) := none
  faulted : List Nat := []
  pllLost : List Nat := []
  pllAt : Option Nat := none
  grace : Option Nat := none
  toShutdown : Bool := false
  waitTest : Bool := false
  resuming : Bool := false
  farHeld : List Nat := []
  tripped : Bool := false
  emergency : Bool := false
  hottest : Nat := 0
  gov : GovState := {}
  deriving DecidableEq, Repr

/-- A test record in flash (R511, R520). -/
structure TestRecord where
  pass : Nat
  fail : Nat
  fence : Nat
  info0 : Nat
  info1 : Nat
  windows : List Nat
  count : Nat
  full : Bool
  deriving DecidableEq, Repr

/-- A self-test run (R510 to R522): its cause as BST_STS.CAUSE shows it, domains still to be tested, domains that the run turned
on, windows with failed restores, milliseconds taken, and whether it ends after the domain under test. -/
structure BstRun where
  cause : Nat
  todo : List Nat
  turnedOn : List Nat := []
  windows : List Nat := []
  ms : Nat := 0
  abort : Bool := false
  deriving DecidableEq, Repr

/-- The test controller: its run, the record in flash with the start count, and whether an emergency off or thermal trip has
occurred since the record was written. -/
structure BstState where
  run : Option BstRun := none
  record : Option TestRecord := none
  starts : Nat := 0
  emergency : Bool := false
  deriving DecidableEq, Repr

/-- The test access port (R560, R561): instruction, the boundary register's update latches, and what its capture stage holds. -/
structure TapState where
  ir : Nat := 0x01
  boundary : Nat := 0
  shift : Nat := 0
  deriving DecidableEq, Repr

/-- A message handed to the gates for the control tree (R397, R399, R410, R411), in the order it was handed over. -/
inductive CtlMsg where
  | vote (r : VoteRec)
  | squash (step : Nat)
  deriving DecidableEq, Repr
/-- What the step controller holds beside its registers (R279 to R302). -/
structure StepState where
  /-- B and the targets of the open step, latched on entry to FWD (R282). -/
  b : Nat := 1
  tgtFwd : Nat := 0
  tgtBwdi : Nat := 0
  tgtBwdw : Nat := 0
  tgtGather : Nat := 0
  tgtRed : Nat := 0
  tgtUpd : Nat := 0
  /-- The UPDATE target of the step before the open one. -/
  updTgt : Nat := 0
  /-- TIL_UPD_GMUL0 and 1 and their valid bits, one home for every tile's copy (R254, R284). -/
  gmul0 : Nat := 0x3F800000
  gmul1 : Nat := 0x3F800000
  gmv0 : Bool := false
  gmv1 : Bool := false
  /-- The provisional multiplier written at CHECK (R288). -/
  provisional : Option Nat := none
  /-- The job seed broadcast at START (R49). -/
  seed : Nat := 0
  /-- Tokens of the kept micro-batches of the open step (R290). -/
  tokens : Nat := 0
  sloc : Nat := 0
  /-- The verdict bits found locally, and the final multiplier of a commit verdict. -/
  localBits : Nat := 0
  gmul : Nat := 0
  /-- A restage's flush is outstanding (R292), and STP_CTL.EN was cleared during a squash or a COMMIT (R571). -/
  restaging : Bool := false
  enCleared : Bool := false
  /-- The verdict is commit and the step waits in CHECK for ERR_FATAL.PEND to clear (R433). -/
  commitHeld : Bool := false
  /-- A staged UPD of the run-ahead tag retired faulted (R293). -/
  stagedFault : Bool := false
  /-- Staged UPDs that have retired and not been abandoned: shard, first element, count (R266, R267). -/
  covered : List (Nat × (Nat × Nat)) := []
  /-- Contributions to the open step's reductions: expected, included, deferred, dropped (R10). -/
  clExp : Nat := 0
  clInc : Nat := 0
  clDef : Nat := 0
  clDrop : Nat := 0
  /-- STOP was given because the partition's owner port detached: its streams stop at that COMMIT (R468). -/
  orphanStop : Bool := false
  /-- MT of the local verdict (R291). -/
  verdictAt : Nat := 0
  deriving DecidableEq, Repr
/-- Who names a descriptor that has issued: its site, queue count, and whether it was parked. -/
structure Owner where
  site : Nat
  pos : Nat
  parked : Bool
  deriving DecidableEq, Repr

/-- A request that waits for pages (R186) since a time of MT: the store command at the ring's head, or a MOV with its pool and
context. -/
inductive KvWaiter where
  | command (pool since : Nat)
  | walk (o : Owner) (pool ctx since : Nat)
  /-- A page of a RING_SEND that arrives from module src under its request number (R212). -/
  | ring (pool ctx src req since : Nat)
  deriving DecidableEq, Repr

def KvWaiter.pool : KvWaiter → Nat
  | .command n _ => n
  | .walk _ n _ _ => n
  | .ring n _ _ _ _ => n

def KvWaiter.since : KvWaiter → Nat
  | .command _ t => t
  | .walk _ _ _ t => t
  | .ring _ _ _ _ t => t

def KvWaiter.isCommand : KvWaiter → Bool
  | .command _ _ => true
  | .walk _ _ _ _ => false
  | .ring _ _ _ _ _ => false

/-- A pool of the KV page store (R184, R190, R193): its lists, most recently added first, and the latched counts. -/
structure Pool where
  free : List Nat := []
  reserve : List Nat := []
  initBusy : Bool := false
  latReserve : Nat := 0
  latRefsum : Nat := 0
  latPins : Nat := 0
  evicting : Bool := false
  /-- Next context to visit, and visits since the last eviction (R193). -/
  cursor : Nat := 0
  idle : Nat := 0
  deriving DecidableEq, Repr

/-- A RING_SEND that arrives (R212): sender and request number, context, the pages written and not yet present as (track,
logical page, page), pieces received, the message that ends it, and whether it has failed. -/
structure RingRx where
  src : Nat
  req : Nat
  ctx : Nat
  pages : List (Nat × (Nat × Nat)) := []
  got : Nat := 0
  fin : Option Body := none
  failed : Bool := false
  deriving DecidableEq, Repr

/-- A head dispatch in progress (R204): descriptors not yet written (tile, 64 bytes), and whether ABORT was written. -/
structure Dispatch where
  todo : List (Nat × Nat) := []
  abort : Bool := false
  deriving DecidableEq, Repr

/-- What stands behind a crossing request (R327): a MOV, a media part of a sample (stream, record handle, part), the CRC checks
of a sample (stream, record handle), the checkpoint engine, or another block. -/
inductive CrsOwner where
  | mov (o : Owner)
  | part (stream handle idx : Nat)
  | check (stream handle : Nat)
  | ckp
  | other
  deriving DecidableEq, Repr

/-- A waiting request of a crossing (R321): requester, class, D, arrival, named server, transfers still to be granted. -/
structure CrsReq where
  requester : Nat
  urgent : Bool
  d : Nat
  arrived : Nat
  server : Option Nat
  left : Nat
  owner : CrsOwner
  deriving DecidableEq, Repr

/-- A grant that is running (R324): its holder, class, start. -/
structure CrsGrant where
  requester : Nat
  urgent : Bool
  start : Nat
  owner : CrsOwner
  deriving DecidableEq, Repr

/-- A crossing (R321 to R330): requests in arrival order, lost rounds, urgent grants of the window, its start, and grants. -/
structure Crossing where
  reqs : List CrsReq := []
  lost : List (Nat × Nat) := []
  urgents : List (Nat × Nat) := []
  winStart : Nat := 0
  grants : List (Nat × CrsGrant) := []
  deriving DecidableEq, Repr
/-- A part of a taken sample (R334): its entry, what its headers declare, the media rows a core has produced, and how far it
has come. -/
structure MediaPart where
  codec : Nat
  slot : Nat
  addr : Nat
  bytes : Nat
  aux : Nat
  hdr : List Nat := []
  positions : Nat := 0
  tokens : List Nat := []
  rows : List (List Nat) := []
  done : Bool := false
  band : Nat := 0
  deriving DecidableEq, Repr

/-- A sample that a stream holds (R338, R339, R351): take number, a handle of the record being read, ring unit and length, record
header, parts, failure (0 DIM_IMPLAUSIBLE, 1 DECODE_TIMEOUT, 2 DECODE_ERR, 3 BAD_RECORD), spare in use and tries, whether it
still counts in PENDING, its bucket, its cut length, and the step tag and micro-batch of its batch. -/
structure Sample where
  take : Nat
  handle : Nat
  unit : Nat
  len : Nat
  recAddr : Nat
  id : Nat := 0
  epoch : Nat := 0
  noaug : Bool := false
  parts : List MediaPart := []
  fail : Option Nat := none
  spare : Option Nat := none
  tries : Nat := 0
  ledger : Bool := true
  bucket : Option Nat := none
  cut : Option Nat := none
  batch : Option (Nat × Nat) := none
  deriving DecidableEq, Repr

/-- One position of a sample in a batch (R363): its part, the slot of a media position, and its token. -/
structure PosItem where
  part : Nat
  slot : Option Nat
  token : Nat
  deriving DecidableEq, Repr

/-- A sample's place in a batch row; a failed sample's place is void (R351). -/
structure RowEntry where
  take : Nat
  void : Bool
  items : List PosItem
  deriving DecidableEq, Repr

/-- The request being served (R360, R362): its count and words, the rows so far, whether it has closed, and when the lookahead
became the only obstacle. -/
structure BatchReq where
  count : Nat
  bucket : Nat
  flags : Nat
  tag : Nat
  mb : Nat
  sig : Nat
  dst : Nat
  rows : List (List RowEntry)
  closed : Bool := false
  limitSince : Option Nat := none
  deriving DecidableEq, Repr

/-- The mark of a step tag (R340). -/
structure Mark where
  tag : Nat
  take : Nat
  cursor : Nat
  spareIdx : Nat
  deriving DecidableEq, Repr

/-- What a sample stream holds beside its registers (R331 to R364): the 64-bit ledger counters, samples in take order, marks, the
request being served, discarded requests still in the ring, and the last RING_DRY. -/
structure Stream where
  nextTake : Nat := 0
  nextHandle : Nat := 0
  taken : Nat := 0
  used : Nat := 0
  replaced : Nat := 0
  skipped : Nat := 0
  rewound : Nat := 0
  pending : Nat := 0
  samples : List Sample := []
  marks : List Mark := []
  req : Option BatchReq := none
  dropped : List Nat := []
  spareIdx : Nat := 0
  dryAt : Option Nat := none
  deriving DecidableEq, Repr

/-- An export encoder's job (R365 to R369): its 64 bytes, frame, first row of the next slice, rate-control values as FP32
patterns, QPs, rows encoded in the frame, complete frames, and whether it is to end after its slice. -/
structure EncJob where
  words : Nat
  frame : Nat := 0
  row : Nat := 0
  carry : Nat := 0
  used : Nat := 0
  target : Nat := 0
  qp : Nat := 0
  qpI : Nat := 0
  qpP : Nat := 0
  abort : Bool := false
  waited : Bool := false
  deriving DecidableEq, Repr

/-- An encoder core: its job, the record that waits for HEAD with the time it began to wait, and whether that record is the
job's last. -/
structure Encoder where
  job : Option EncJob := none
  held : List Nat := []
  heldSince : Nat := 0
  heldBytes : Nat := 0
  heldLast : Bool := false
  deriving DecidableEq, Repr
/-- A check unit's words that no register holds (R529, R531): a CHK_VALUE_LO write waiting for the HI write, and the HI halves
latched by reads of CHK_VALUE_LO and CHK_RESULT_LO. -/
structure ChkUnit where
  heldLo : Nat := 0
  latValue : Nat := 0
  latResult : Nat := 0
  deriving DecidableEq, Repr

/-- A packet whose slots have all arrived at a link and that still holds them (R384): virtual channel, slots, header slot. -/
structure RxPkt where
  vc : Nat
  slots : Nat
  hdr : List Nat
  deriving DecidableEq, Repr

/-- A packet waiting to leave by a gate: the links it may use, the value that chooses among them (R388, R395), and itself. -/
structure TxPkt where
  mask : Nat
  h : Nat
  pkt : Packet
  deriving DecidableEq, Repr

/-- An Ezoux link beside its registers (R377 to R385). -/
structure Link where
  /-- Consecutive failed attempts; the attempt failed and waits for its restart; MT of the last state change (R380). -/
  attempts : Nat := 0
  waiting : Bool := false
  since : Nat := 0
  /-- Two lanes were aligned; a RETRAIN write asks for four (R382). -/
  x2 : Bool := false
  widen : Bool := false
  /-- Next SEQ to send, SEQ expected, and held flits as (SEQ, packet number), 0 for a flit without a packet (R378). -/
  txSeq : Nat := 0
  rxSeq : Nat := 0
  replay : List (Nat × Nat) := []
  txNo : Nat := 1
  /-- Packets assigned to the link and not sent, and the virtual channel served last in turn (R383). -/
  txq : List TxPkt := []
  lastVc : Nat := 6
  /-- Slots sent and not yet reported freed, in the order sent: virtual channel, class, slots (R384). -/
  spent : List (Nat × (Nat × Nat)) := []
  /-- Last CR_COUNT received and slots freed here since ACTIVE, by virtual channel (R384). -/
  crSeen : List (Nat × Nat) := []
  freed : List (Nat × Nat) := []
  /-- A NAK has been sent since the last good flit; the flit that was NAKed last and how often in a row (R378, R379). -/
  naked : Bool := false
  nakSeq : Nat := 0
  nakRun : Nat := 0
  /-- MT of the retrains of the last second and of uncorrectable codewords of the last millisecond (R379). -/
  retrains : List Nat := []
  ues : List Nat := []
  /-- Packets arriving, by virtual channel, slot after slot, and packets that have arrived (R383). -/
  arriving : List (Nat × List Nat) := []
  rx : List RxPkt := []
  /-- The segment being received: headers and payloads, failures, and the key, salt and count of its key slot when an install has
  replaced them meanwhile (R385, R474). -/
  seg : List (Nat × List Nat) := []
  segFails : Nat := 0
  rxOld : Option (Nat × (Nat × Nat)) := none
  /-- Flits of the segment being sent, MT of its first, whether its key has been replaced meanwhile, and a pending change of
  KEY_PHASE. -/
  txSeg : Nat := 0
  txSegStart : Nat := 0
  txOld : Bool := false
  switchTo : Option Nat := none
  /-- A boundary scan took the link DOWN: EN must be written 0 before 1 acts (R561). -/
  scanned : Bool := false
  deriving DecidableEq, Repr

/-- One end of a tree edge (R394): gate and link mask. -/
structure Edge where
  gate : Nat
  mask : Nat
  deriving DecidableEq, Repr

/-- A tree entry of a plan (R394). -/
structure Tree where
  head : Bool
  root : Bool
  parent : Option Edge
  kids : List (Edge × Bool)
  deriving DecidableEq, Repr

/-- A block of a job on this module (R396 to R402): blocks from children, the module's own total before and after a held
total, as it goes up, and what has been done with it. -/
structure BlkState where
  ups : List (Nat × RedBlock) := []
  /-- Own stretch sum, before a held total is added. -/
  raw : Option RedBlock := none
  /-- Own stretch sum, or on a head the group total written to HOLD. -/
  total : Option RedBlock := none
  sentUp : Bool := false
  final : Bool := false
  deriving DecidableEq, Repr

/-- A reduction job that has been taken (R392): ring count, record, GRAD_CNT, trees of its plan, blocks. -/
structure RedJob where
  idx : Nat
  desc : Nat
  cnt : Nat
  trees : List Tree
  blocks : List (Nat × BlkState) := []
  /-- Its stretch-tier work has been counted for READY (R397); the job is finished, failed or discarded. -/
  counted : Bool := false
  done : Bool := false
  deriving DecidableEq, Repr

/-- A block in a gate's block store (R405): the link it came by, whether it comes down the tree, the block. -/
structure Stored where
  gate : Nat
  link : Nat
  down : Bool
  blk : RedBlock
  deriving DecidableEq, Repr

/-- What the gates hold for reductions and votes beside their registers (R392 to R411). -/
structure GateState where
  /-- Ring count of the next job to take, jobs taken and not retired, blocks stored. -/
  nextJob : Nat := 0
  jobs : List RedJob := []
  store : List Stored := []
  /-- Jobs of the open step whose stretch work is finished, and READY sent (R397). -/
  stepDone : Nat := 0
  readySent : Bool := false
  /-- Coordinator: modules that have sent READY (R399). -/
  readyFrom : List Nat := []
  /-- The include decision of the open step. -/
  go : Option GoMsg := none
  /-- CONTRIB values of the open step's results (R409). -/
  contribs : List Nat := []
  /-- The group carries a total deferred from the step before; the open step's total has been deferred or dropped, and the
  head has been told that the total may not be kept (R407). -/
  carried : Bool := false
  mayKeep : Bool := true
  /-- A held total of the open step carries NAN, INF or SKEW. -/
  totalBad : Bool := false
  /-- Votes (R410): own record, records of children by index, whether the combined one has been sent, and the coordinator's
  formed result. -/
  own : Option VoteRec := none
  kids : List (Nat × VoteRec) := []
  voted : Bool := false
  formed : Option VoteRec := none
  /-- Coordinator (R398): V, the last results' MT of a run of committed steps, intervals, newest last, and per group the
  consecutive exclusions (R408). -/
  v : Nat := 0
  prevV : Option Nat := none
  curV : Option Nat := none
  intervals : List Nat := []
  streaks : List (Nat × Nat) := []
  /-- Consecutive committed steps that excluded this module's group. -/
  run : Nat := 0
  /-- The neighbour a squash notice came from, to which it does not go back (R411). -/
  squashFrom : Option (Nat × Nat) := none
  deriving DecidableEq, Repr

/-- A place of a stash stack (R238, R240): plan entry, parity, size in 64 KiB units, freed. -/
structure StashSlot where
  entry : Nat
  par : Nat
  size : Nat
  freed : Bool := false
  deriving DecidableEq, Repr

/-- A capture in hand (R419 to R423): resume step, local bank written, the image's header, and for the buddy the bank, header
and pieces of the image by offset. -/
structure Capture where
  resume : Nat
  bank : Option Nat
  header : List Nat
  buddy : Option (Nat × (List Nat × List (Nat × List Nat)))
  deriving DecidableEq, Repr

/-- The checkpoint engine beside its registers (R419 to R424): the step whose UPDATE starts a capture, the capture, CKP_LATE
raised for it, the buddy send with its bank, resume step, header and whether that has been sent. -/
structure CkpState where
  due : Option Nat := none
  cap : Option Capture := none
  late : Bool := false
  send : Option (Nat × (Nat × (List Nat × Bool))) := none
  deriving DecidableEq, Repr

/-- A transfer of the courier engines (R99, R100, R458): what it serves (a MOV of a tile, or a COPY of queue q with site
0x1000 + q and four times its ring index plus its part), its tile, its 64 bytes, partition, engine (district × 16 + engine), MT of its issue, rows already begun, page it pins,
the last address written in each host window that is not yet confirmed (R463), its fault and whether that was the first of
its COPY, whether its last row has begun, whether
it stalls at the stash (R239), the bytes that a snooping check unit has still to be fed, by request number (none: it has not
arrived), and bytes that arrived for memory that is still being initialised: request, address, bytes, first poisoned one. -/
structure Xfer where
  owner : Owner
  tile : Nat
  d : Nat
  part : Nat
  engine : Nat
  issued : Nat
  row : Nat := 0
  pin : Option (Nat × Nat) := none
  unsure : List Nat := []
  fault : Option Nat := none
  first : Bool := false
  rowsDone : Bool := false
  stalled : Bool := false
  feed : List (Nat × Option (List Nat)) := []
  held : List (Nat × (Nat × (List Nat × Nat))) := []
  deriving DecidableEq, Repr

/-- What an outstanding request serves. -/
inductive ReqOwner where
  | xfer (o : Owner)
  | buddy
  | ring
  deriving DecidableEq, Repr

/-- A request to a host port (R463) or another module (R390) that has not been answered: its number, what it serves, the port or
none for a module, MT of its sending, whether it is a write, where the bytes of a read go, and the window offset or address it names. -/
structure OutReq where
  id : Nat
  owner : ReqOwner
  port : Option Nat
  since : Nat
  write : Bool
  dst : Nat := 0
  len : Nat := 0
  addr : Nat := 0
  deriving DecidableEq, Repr
/-- The machine. -/
structure State where
  /-- Module time in nanoseconds (R435). -/
  mt : Nat := 0
  /-- The always-on domain runs: VIO12 has come into range (R483). -/
  aoOn : Bool := false
  /-- The module is in HOLD (R434). -/
  hold : Bool := false
  /-- Registers by page × 1024 + word; an unlisted one holds its reset value. -/
  regs : List (Nat × BitVec 32) := []
  /-- Near memory, far memory, tile SRAM and descriptor queues by device address; tile windows by physical site. -/
  mem : List (Nat × BitVec 8) := []
  /-- Lines that hold the poison pattern (R314), by line address / 64, rising. -/
  poison : List Nat := []
  /-- Lines whose stored bits an upset has damaged: line address / 64, true where uncorrectable (R82, R313). -/
  upsets : List (Nat × Bool) := []
  /-- Corrected errors of the current 1 ms window by memory page × 128 + channel: window number and count (R315). -/
  ceWin : List (Nat × (Nat × Nat)) := []
  /-- The next line of each channel's patrol scrubber, by memory page × 128 + channel (R315). -/
  scrubPos : List (Nat × Nat) := []
  tiles : List (Nat × TileState) := []
  signals : List SigMsg := []
  arrivals : List BarMsg := []
  barriers : List (Nat × Barrier) := []
  step : StepState := {}
  /-- Messages of the step controller waiting at the gates for the control tree. -/
  ctlOut : List CtlMsg := []
  /-- Unread error-log records, oldest first (R431), the latched words, and whether LOG_OVERWRITE was raised (R432). -/
  log : List LogRec := []
  logLatch : List Nat := []
  logOverwrote : Bool := false
  /-- ERR_VOID_CAUSE: which conditions of R11 have occurred since the last module reset (R12, R436). -/
  voidCause : Nat := 0
  ports : List (Nat × PortState) := []
  /-- KV page store: pools, requests that wait for pages, and the head dispatcher. -/
  pools : List (Nat × Pool) := []
  kvWaiters : List KvWaiter := []
  rings : List RingRx := []
  dispatch : Option Dispatch := none
  crossings : List (Nat × Crossing) := []
  /-- Ingest: sample streams, the tokenizer queue (stream, handle, part), and the export encoders. -/
  streams : List (Nat × Stream) := []
  tokQueue : List (Nat × Nat × Nat) := []
  encoders : List (Nat × Encoder) := []
  chk : List (Nat × ChkUnit) := []
  /-- Links by gate × 12 + link, packets of each gate that no ACTIVE link can take, routing entries by module ID, link keys
  (key, salt, segments it has served) by link × 4 + direction × 2 + slot, direction 0 sending. -/
  links : List (Nat × Link) := []
  stranded : List TxPkt := []
  routes : List (Nat × Nat) := []
  linkKeys : List (Nat × (Nat × (Nat × Nat))) := []
  gate : GateState := {}
  /-- Stash stacks 0 to 5 (near), 6 (far) and 7 (host), lowest place first. -/
  stashStacks : List (Nat × List StashSlot) := []
  ckp : CkpState := {}
  /-- Courier transfers that have not retired, requests to hosts and other modules that are outstanding, and the number of the
  next request. -/
  xfers : List Xfer := []
  reqs : List OutReq := []
  nextReq : Nat := 1
  /-- Module time: a first exchange has stepped it, consecutive offsets within ±50 ns, intervals without an exchange, the
  correction still to be slewed in nanoseconds, and reference periods since its last nanosecond (R391). -/
  timeSynced : Bool := false
  timeGood : Nat := 0
  timeMissed : Nat := 0
  slew : Int := 0
  slewTicks : Nat := 0
  /-- Command queues, the security block, supplies with domains and governor, self-test, and the test access port. -/
  queues : List (Nat × CqState) := []
  sec : SecState := {}
  pwr : PwrState := {}
  bst : BstState := {}
  tap : TapState := {}
  /-- Pages whose soft reset is running (R450). -/
  srstBusy : List Nat := []
  /-- MT of the last STEP of a debug page, by instance (R540). -/
  dbgStep : List (Nat × Nat) := []
  /-- What the module has sent out, oldest first. -/
  out : List Out := []
  /-- The answer of the last read, word by word or byte by byte. -/
  answer : List Nat := []
  /-- The model's own counter of free values. -/
  freeCtr : Nat := 0
  /-- Commands waiting, first in first out. -/
  pending : List Instr := []
  deriving DecidableEq, Repr

/-- The machine right after reset: every register at its reset value, memory with nothing listed. -/
def State.reset : State := {}

end Sys2Proof.Machine
end

