-- ==== Sys2Proof/Machine/Ops.lean ====
section
/-! DEFINITION. Machine/Ops.lean: the named operations over the state: registers, memory, tiles, partitions and power, and
the one operation that raises an event (R429 to R434, R451, R452), with its signals, first-error latch and log. -/
namespace Sys2Proof.Machine

/-! ### Registers -/

/-- The register of district d's spare map for column c (R106). -/
def State.spareEntry (s : State) (d c : Nat) : Nat :=
  (sget (BitVec.ofNat 32 (regReset (pDST d) (R.DST_SPARE_MAP + 4 * c))) s.regs
    (pDST d * 1024 + (R.DST_SPARE_MAP + 4 * c) / 4)).toNat

/-- The physical site of a logical tile (R106). -/
def State.siteOf (s : State) (t : Nat) : Nat :=
  let d := t / 256
  let c := t % 16
  let e := s.spareEntry d c
  if t / 16 % 16 < 12 ∧ bit e 4 = true ∧ e % 16 = t / 16 % 16 then d * 256 + 12 * 16 + c else t

/-- The page that holds a page number's registers: TIL_ pages through the spare map (R533). -/
def State.canon (s : State) (p : Nat) : Nat := if p < 0x600 then s.siteOf p else p

/-- A register's value as a number. -/
def State.reg (s : State) (p off : Nat) : Nat :=
  (sget (BitVec.ofNat 32 (regReset p off)) s.regs (p * 1024 + off / 4)).toNat

/-- A register set to the low 32 bits of v. -/
def State.setReg (s : State) (p off v : Nat) : State :=
  { s with regs := sset (BitVec.ofNat 32 (regReset p off)) s.regs (p * 1024 + off / 4) (BitVec.ofNat 32 v) }

/-- Bits [hi:lo] of a register. -/
def State.fld (s : State) (p off hi lo : Nat) : Nat := bits (s.reg p off) hi lo

/-- Bits [hi:lo] of a register set. -/
def State.setFld (s : State) (p off hi lo v : Nat) : State := s.setReg p off (setBits (s.reg p off) hi lo v)

/-- A 64-bit value held in a LO and a HI register. -/
def State.reg64 (s : State) (p off : Nat) : Nat := s.reg p off + 2 ^ 32 * s.reg p (off + 4)

/-- A counter register raised by n, sticking at all ones (R45). -/
def State.bump (s : State) (p off n : Nat) : State := s.setReg p off (stick (s.reg p off + n) 32)

/-- A counter register raised by n modulo 2^32. -/
def State.wrapAdd (s : State) (p off n : Nat) : State := s.setReg p off (s.reg p off + n)

/-- Bits ORed into a register. -/
def State.orReg (s : State) (p off v : Nat) : State := s.setReg p off (s.reg p off ||| v)

/-- Every register of page p at byte offset 0x040 and above returned to its reset value (R450). -/
def State.resetBlock (s : State) (p : Nat) : State :=
  { s with regs := s.regs.filter fun e => !(e.1 / 1024 == p && decide (16 ≤ e.1 % 1024)) }

/-- Every register of page p returned to its reset value, header included (R535). -/
def State.resetPage (s : State) (p : Nat) : State :=
  { s with regs := s.regs.filter fun e => !(e.1 / 1024 == p) }

/-! ### Memory -/

/-- Where tile site `site`'s SRAM begins in `mem`. -/
def sramBase (site : Nat) : Nat := 0x040000000000 + site * 0x800000

/-- The memory key of a device address: tile windows reach the physical site (R304). -/
def State.key (s : State) (a : Nat) : Nat :=
  if 0x040000000000 ≤ a ∧ a < 0x040400000000 then
    sramBase (s.siteOf ((a - 0x040000000000) / 0x800000)) + (a - 0x040000000000) % 0x800000
  else a

/-- The one canonical form of memory: addresses strictly rising and no byte listed that equals what an unlisted one reads as. -/
def Memory.wf (m : List (Nat × BitVec 8)) : Bool := swf 0 m

/-- The byte at a memory key; a byte nothing has written reads 0 (R84, R317, R318). -/
def State.byte (s : State) (k : Nat) : Nat := (sget 0 s.mem k).toNat

/-- n bytes from a memory key on. -/
def State.bytes (s : State) (k n : Nat) : List Nat := (List.range n).map fun i => s.byte (k + i)

/-- The little-endian value of n bytes at a memory key. -/
def State.le (s : State) (k n : Nat) : Nat := leNat (s.bytes k n)

/-- One byte stored. -/
def State.setByte (s : State) (k v : Nat) : State := { s with mem := sset 0 s.mem k (BitVec.ofNat 8 v) }

/-- Bytes stored from a memory key on, poison and upsets untouched. -/
def putList (m : List (Nat × BitVec 8)) (k : Nat) : List Nat → List (Nat × BitVec 8)
  | [] => m
  | b :: r => putList (sset 0 m k (BitVec.ofNat 8 b)) (k + 1) r

/-- The lines (key / 64) that n bytes at k cover whole. -/
def wholeLines (k n : Nat) : List Nat :=
  let a := (k + 63) / 64
  let b := (k + n) / 64
  (List.range (b - a)).map (a + ·)

/-- The lines that n bytes at k touch. -/
def touchedLines (k n : Nat) : List Nat :=
  if n = 0 then [] else (List.range ((k + n - 1) / 64 + 1 - k / 64)).map (k / 64 + ·)

/-- A write of good data: a whole line clears poison and any upset of that line (R314). -/
def State.store (s : State) (k : Nat) (l : List Nat) : State :=
  let ws := wholeLines k l.length
  { s with
    mem := putList s.mem k l
    poison := s.poison.filter fun x => !ws.contains x
    upsets := s.upsets.filter fun x => !ws.contains x.1 }

/-- An n-byte little-endian value stored. -/
def State.storeLe (s : State) (k n v : Nat) : State := s.store k (leBytes v n)

/-- Whether any line of n bytes at k is poisoned or uncorrectable. -/
def State.badAt (s : State) (k n : Nat) : Bool :=
  (touchedLines k n).any fun x => s.poison.contains x || s.upsets.any fun u => u.1 == x && u.2

/-- The first bad line of n bytes at k. -/
def State.firstBad (s : State) (k n : Nat) : Option Nat :=
  (touchedLines k n).find? fun x => s.poison.contains x || s.upsets.any fun u => u.1 == x && u.2

/-- The lines of n bytes at k that hold a correctable upset. -/
def State.ceLines (s : State) (k n : Nat) : List Nat :=
  (touchedLines k n).filter fun x => s.upsets.any fun u => u.1 == x && !u.2

/-- A line marked poisoned. -/
def State.poisonLine (s : State) (line : Nat) : State := { s with poison := sinsert line s.poison }

/-- Upset marks of a line removed. -/
def State.clearUpset (s : State) (line : Nat) : State :=
  { s with upsets := s.upsets.filter fun u => u.1 != line }

/-- Memory contents of keys lo to hi − 1 become zero, with valid check bits (R84, R317, R318). -/
def State.zeroRange (s : State) (lo hi : Nat) : State :=
  { s with
    mem := s.mem.filter fun e => !(decide (lo ≤ e.1) && decide (e.1 < hi))
    poison := s.poison.filter fun x => !(decide (lo ≤ x * 64) && decide (x * 64 < hi))
    upsets := s.upsets.filter fun x => !(decide (lo ≤ x.1 * 64) && decide (x.1 * 64 < hi)) }

/-! ### Tiles -/

def State.tile (s : State) (site : Nat) : TileState := sget {} s.tiles site

def State.setTile (s : State) (site : Nat) (t : TileState) : State := { s with tiles := sset {} s.tiles site t }

def State.modTile (s : State) (site : Nat) (f : TileState → TileState) : State := s.setTile site (f (s.tile site))

/-- A fresh number for the opaque free values. -/
def State.fresh (s : State) : Nat × State := (s.freeCtr, { s with freeCtr := s.freeCtr + 1 })

def State.port (s : State) (h : Nat) : PortState := sget {} s.ports h

def State.setPort (s : State) (h : Nat) (p : PortState) : State := { s with ports := sset {} s.ports h p }

/-- HPT_STS.LINK_UP and DETACHED of a port (R468, R477). -/
def State.linkUp (s : State) (h : Nat) : Bool := bit (s.reg (pHPT h) R.HPT_STS) 0
def State.detached (s : State) (h : Nat) : Bool := bit (s.reg (pHPT h) R.HPT_STS) 9

/-! ### Power and partitions -/

/-- A switched domain has its rail (R486): its bit of PWR_DOM_STS. -/
def State.domRaw (s : State) (d : Nat) : Bool :=
  if d < 32 then bit (s.reg pPWR R.PWR_DOM_STS_LO) d else bit (s.reg pPWR R.PWR_DOM_STS_HI) (d - 32)

/-- The domain is under test: its pages behave as though it were off (R513). -/
def State.underTest (s : State) (d : Nat) : Bool :=
  s.sec.scanHold && (match s.bst.run with
    | some r => r.todo.head? == some d
    | none => false)

/-- A switched domain is on for what works in it. -/
def State.domOn (s : State) (d : Nat) : Bool := s.domRaw d && !s.underTest d

def State.setDom (s : State) (d : Nat) (on : Bool) : State :=
  if d < 32 then s.setReg pPWR R.PWR_DOM_STS_LO (setBit (s.reg pPWR R.PWR_DOM_STS_LO) d on)
  else s.setReg pPWR R.PWR_DOM_STS_HI (setBit (s.reg pPWR R.PWR_DOM_STS_HI) (d - 32) on)

/-- A page's block has power: its domain is on, or it is always on. -/
def State.pageOn (s : State) (p : Nat) : Bool :=
  s.aoOn &&
  match pageBlk (s.canon p) with
  | none => false
  | some (b, i) =>
    match pageDomain b i with
    | none => true
    | some d => s.domOn d

/-- A tile site has power. -/
def State.siteOn (s : State) (site : Nat) : Bool := s.pageOn site && isSite site

/-- The partition of a district, 7 for none (R464). -/
def State.partOf (s : State) (d : Nat) : Nat :=
  let v := s.reg pPRT (R.PRT_MAP + 4 * d) % 8
  if v = 6 then 7 else v

/-- The owner port of a partition. -/
def State.ownerPort (s : State) (p : Nat) : Nat := s.reg (pPRTP p) R.PRT_P_OWNER % 8

/-- The partition's far range in GiB: base and size. -/
def State.farRange (s : State) (p : Nat) : Nat × Nat :=
  (s.reg (pPRTP p) R.PRT_P_FAR_BASE % 4096, s.reg (pPRTP p) R.PRT_P_FAR_SIZE % 4096)

/-- A partition holds at least one district. -/
def State.holdsDistrict (s : State) (p : Nat) : Bool := (List.range 6).any fun d => s.partOf d == p

/-- A partition is valid (R464). -/
def State.partValid (s : State) (p : Nat) : Bool :=
  decide (p < 6) && s.holdsDistrict p &&
  (let (b, n) := s.farRange p
   decide (b + n ≤ 2032) &&
   (List.range 6).all fun q =>
     q == p || !s.holdsDistrict q ||
     (s.ownerPort q != s.ownerPort p &&
      (let (c, m) := s.farRange q
       decide (b + n ≤ c) || decide (c + m ≤ b))))

/-- The valid partition a port owns, 7 for none. -/
def State.portPart (s : State) (h : Nat) : Nat :=
  ((List.range 6).find? fun p => s.partValid p && s.ownerPort p == h).getD 7

/-- PAGE_OWNER.PART of a page (R466, R536). -/
def State.pagePart (s : State) (p : Nat) : Nat :=
  match pageBlk (s.canon p) with
  | none => 7
  | some (b, i) =>
    match b with
    | .til => s.partOf (i / 256)
    | .dst | .sqr | .nmc => s.partOf i
    | .cur => s.partOf (i / 16)
    | .dbg => if i = 0 then 7 else s.partOf (i - 1)
    | .hpt => s.portPart i
    | _ => s.reg p R.PAGE_OWNER % 8

/-- The admin port (R478). -/
def State.adminPort (s : State) : Nat := s.reg pPRT R.PRT_ADMIN % 8

/-- The port a command queue belongs to; none when unassigned (R454). -/
def State.queuePort (s : State) (q : Nat) : Option Nat :=
  let v := bits (s.reg pPRT (R.PRT_QMAP + 4 * (q / 8))) (q % 8 * 4 + 3) (q % 8 * 4)
  if v < 8 then some v else none

/-! ### Signals to hosts (R451, R452) -/

/-- An MSI-X message leaves, and the holdoff of its vector starts. -/
def State.sendMsix (s : State) (h v : Nat) : State :=
  let p := s.port h
  let p' := if s.fld (pHPT h) R.HPT_IRQ_HOLDOFF 15 0 = 0 then p
            else { p with holdoff := sput p.holdoff v s.mt }
  { s.setPort h p' with out := s.out ++ [.msix h v] }

/-- A signal to a port on a vector (R452). -/
def State.signalPort (s : State) (h v : Nat) : State :=
  let p := s.port h
  if !p.msixEn || !p.busMaster || !s.linkUp h || s.detached h || !bit (s.reg (pHPT h) R.HPT_CTL) 0 then
    s.bump (pHPT h) R.HPT_IRQ_DROP 1
  else if p.funcMask || bit (s.reg (pMSIX h) (16 * v + 12)) 0 then s.setPort h { p with pba := p.pba ||| 2 ^ v }
  else if p.holdoff.any (fun e => e.1 == v) then s.setPort h { p with merged := p.merged ||| 2 ^ v }
  else s.sendMsix h v

/-- A signal of page p's event to every target that EVT_ROUTE names (R451). -/
def State.signal (s : State) (p e : Nat) : State :=
  let cp := s.canon p
  let rt := s.reg cp R.EVT_ROUTE
  let part := s.pagePart p
  let irqPort : Option Nat :=
    if part = 7 then some s.adminPort else if s.partValid part then some (s.ownerPort part) else none
  let s1 := if bit rt 6 then (match irqPort with
    | some h => s.signalPort h (rt % 64)
    | none => s) else s
  let fd := bits (s.reg cp R.PAGE_OWNER) 15 8
  let s2 := if bit rt 7 then (List.range 8).foldl (fun a h => if bit fd h then a.signalPort h (rt % 64) else a) s1 else s1
  if bit rt 9 then { s2 with out := s2.out ++ [.supv p e] } else s2

/-! ### Raising events -/

/-- MT is locked to the time tree (TIM_STS.LOCK = LOCKED). -/
def State.mtLocked (s : State) : Bool := s.fld pTIM R.TIM_STS 1 0 == 2

/-- The bytes of a record in the layout of R431. -/
def LogRec.toBytes (r : LogRec) : List Nat :=
  leBytes r.mt 8 ++ leBytes r.seq 4 ++ leBytes r.page 2 ++ [r.event % 256, r.flags % 256] ++ leBytes r.info0 4 ++
  leBytes r.info1 4 ++ leBytes r.step 4 ++ leBytes r.moduleId 2 ++ [0, 0]

/-- The record of an event raised now. -/
def State.mkRec (s : State) (p e flags i0 i1 : Nat) : LogRec :=
  { mt := s.mt, seq := s.reg pERR R.ERR_LOG_SEQ, page := p, event := e, flags := flags,
    info0 := i0 % 2 ^ 32, info1 := i1 % 2 ^ 32, step := s.reg pSTP R.STP_OPEN_STEP,
    moduleId := s.reg pGATS R.GAT_MODULE_ID % 2 ^ 14 }

/-- With tracing on, an event is written into the trace ring (R540). -/
def State.trace (s : State) (r : LogRec) : State :=
  let c := s.reg pDBGM R.DBG_TRACE_CTL
  if bit c 0 then
    let n := s.reg pDBGM R.DBG_TRACE_HEAD
    let sz := 2 ^ (max 12 (min 30 (bits c 5 1)))
    let a := s.reg64 pDBGM R.DBG_TRACE_BASE_LO + n * 32 % sz
    (s.store (s.key a) r.toBytes).setReg pDBGM R.DBG_TRACE_HEAD (n + 1)
  else s

/-- EVT_STS bit e of page p set, with its signal when it goes from 0 to 1 while enabled (R451). -/
def State.setEvt (s : State) (p e : Nat) : State :=
  let cp := s.canon p
  let old := s.reg cp R.EVT_STS
  let s1 := s.setReg cp R.EVT_STS (old ||| 2 ^ e)
  if !bit old e && bit (s.reg cp R.EVT_EN) e then s1.signal p e else s1

/-- A notice is raised: neither latched nor logged (R429). -/
def State.notice (s : State) (p e : Nat) (info : Nat := 0) : State :=
  (s.setEvt p e).trace (s.mkRec p e 0 info 0)

/-- A condition of R11 has occurred (R12, R436). -/
def State.voidBy (s : State) (cause : Nat) : State := { s with voidCause := s.voidCause ||| 2 ^ cause }

/-- Whether ERR_FATAL.PEND is set. -/
def State.fatalPend (s : State) : Bool := bit (s.reg pERR R.ERR_FATAL) 0

/-- The index of the record a full log removes (R432). -/
def State.logVictim (s : State) : Nat :=
  match s.log.findIdx? fun r => r.flags % 4 != 3 with
  | some i => i
  | none =>
    (s.log.findIdx? fun r => !(s.fatalPend && r.seq == s.reg pERR R.ERR_FATAL_SEQ)).getD 0

/-- A record appended to the error log, removing one from a full log (R431, R432). -/
def State.logAppend (s : State) (r : LogRec) : State :=
  let s1 :=
    if s.log.length < 256 then s
    else
      let s0 := ({ s with log := s.log.eraseIdx s.logVictim }).bump pERR R.ERR_LOST 1
      if s0.logOverwrote then s0 else { s0.notice pERR 2 with logOverwrote := true }
  ({ s1 with log := s1.log ++ [r] }).wrapAdd pERR R.ERR_LOG_SEQ 1

/-- What a logged FATAL error does (R433, R434). -/
def State.fatalAct (s : State) (seq : Nat) : State :=
  if s.fatalPend then
    if s.hold then s
    else (({ s with hold := true }).voidBy 2).notice pERR 1
  else
    ((s.orReg pERR R.ERR_FATAL 1).setReg pERR R.ERR_FATAL_SEQ seq).notice pERR 0

/-- An error is raised by page p with class c: first-error latch (R430), log (R431), UE (R539), FATAL (R433). -/
def State.logError (s : State) (p e c i0 i1 : Nat) (ue forced esc : Bool) : State :=
  let cp := s.canon p
  let first := !bit (s.reg cp R.ERR_FIRST) 31
  let s1 :=
    if first then
      ((((s.setReg cp R.ERR_FIRST (e % 256 + c * 2 ^ 8 + b2n forced * 2 ^ 10 + b2n ue * 2 ^ 11 + 2 ^ 31)).setReg cp
        R.ERR_INFO0 i0).setReg cp R.ERR_INFO1 i1).setReg cp R.TS_LO s.mt).setReg cp R.TS_HI (s.mt / 2 ^ 32)
    else s.bump cp R.ERR_COUNT 1
  let flags := c + 4 * b2n first + 8 * b2n forced + 16 * b2n ue + 32 * b2n s.mtLocked + 64 * b2n esc
  let r := s1.mkRec p e flags i0 i1
  let s2 := if ue then s1.voidBy 1 else s1
  let s3 := (s2.logAppend r).trace r
  if c = 3 then s3.fatalAct r.seq else s3

/-- The one operation that raises event e of page p, with its information words (R429, R451, R573). `esc` escalates it to
FATAL, `forced` marks one raised through EVT_FORCE. -/
def State.raise (s : State) (p e : Nat) (i0 : Nat := 0) (i1 : Nat := 0) (esc : Bool := false) (forced : Bool := false) :
    State :=
  match pageBlk (s.canon p) with
  | none => s
  | some (b, _) =>
    if b.nevt ≤ e then s
    else
      let c := evtClass b e
      let c' := if esc && c != 0 then 3 else c
      if c' = 0 then s.notice p e i0
      else (s.setEvt p e).logError p e c' i0 i1 (evtIsUE b e) forced esc

/-! ### Refusals of host accesses (R448) -/

/-- A port access refused with a reason code of HPT_DENY_INFO (R477). -/
def State.deny (s : State) (h page reason : Nat) : State :=
  ((s.bump (pHPT h) R.HPT_DENY_COUNT 1).setReg (pHPT h) R.HPT_DENY_INFO (page % 2 ^ 14 + reason * 2 ^ 16)).notice (pHPT h) 2

/-! ### Counters and signals (R90, R569) -/

/-- INC added to counter c of a tile, or of the step controller's counters (R90, R281). -/
def State.addCtr (s : State) (target ctr inc : Nat) : State :=
  if target = 0x700 then s.wrapAdd pSTP (R.STP_EVC + 4 * (ctr % 16)) inc
  else if isTile target then s.wrapAdd (s.siteOf target) (R.TIL_EVC + 4 * (ctr % 16)) inc
  else s

/-- A counter's value. -/
def State.ctr (s : State) (target c : Nat) : Nat :=
  if target = 0x700 then s.reg pSTP (R.STP_EVC + 4 * (c % 16))
  else s.reg (s.siteOf target) (R.TIL_EVC + 4 * (c % 16))

/-- A counter signal put on its way; one to an ID that is no signal target is discarded (R569). -/
def State.send (s : State) (sender target ctr inc : Nat) : State :=
  if isTarget target then { s with signals := s.signals ++ [⟨sender, target, ctr, inc, if target = 0x700 then 0 else s.siteOf target⟩] } else s

/-- The module works: the always-on domain runs and the module is not in HOLD (R434). -/
def State.live (s : State) : Bool := s.aoOn && !s.hold

/-- A block of partition `part` signals a counter that a register or a record names: outside the partition, or not a signal
target, the signal is discarded (R569, R465). `sender` is the block's page. -/
def State.blockSignal (s : State) (part sender target ctr inc : Nat) : State :=
  let mine := if target = 0x700 then s.pagePart pSTP == part else s.partOf (target / 256) == part
  if mine then s.send sender target ctr inc else s

/-- The PLL that clocks a domain (R492); none for the host ports. -/
def pllOf (d : Nat) : Option Nat :=
  if d < 24 then some (d / 4) else if d < 30 then some (d - 24) else if d < 36 then some (d - 30)
  else if d < 40 then some (d - 30) else none

/-- The clock of a page's block has not been lost (R494). -/
def State.clocked (s : State) (p : Nat) : Bool :=
  match pageBlk (s.canon p) with
  | some (b, i) =>
    (match (pageDomain b i).bind pllOf with
     | some k => !s.pwr.pllLost.contains k
     | none => true)
  | none => true

/-- A page's block runs: live, powered, clocked and PAGE_CTL.EN set (R449). -/
def State.blockRuns (s : State) (p : Nat) : Bool := s.live && s.pageOn p && s.clocked p && bit (s.reg p R.PAGE_CTL) 0

/-- The compute clock of a tile is stopped by a debug page whose scope holds it (R540): FREEZE is 1, but for the cycle that STEP
runs, which stands at the MT of its write. -/
def State.frozen (s : State) (site : Nat) : Bool :=
  [(0, pDBGM), (1 + site / 256, pDBG (site / 256))].any fun e =>
    bit (s.reg e.2 R.DBG_CTL) 0 && sget none (s.dbgStep.map fun x => (x.1, some x.2)) e.1 != some s.mt

/-- A read's answer. -/
def State.reply (s : State) (l : List Nat) : State := { s with answer := l }

end Sys2Proof.Machine
end

