-- ==== Sys2Proof/Machine/Access.lean ====
section
/-! DEFINITION. Machine/Access.lean: who may reach a register page (R446 to R448, R453, R465 to R467, R471, R475, R489, R534)
and the one way in which every command that is a register write or read is admitted. -/
namespace Sys2Proof.Machine

/-- Reason codes of HPT_DENY_INFO (R477). -/
abbrev dnOwner : Nat := 1
abbrev dnFeeder : Nat := 2
abbrev dnSize : Nat := 3
abbrev dnLocked : Nat := 4
abbrev dnReserve : Nat := 5
abbrev dnAperture : Nat := 6
abbrev dnIde : Nat := 7

/-- A BAR2 page: a queue page or an MSI-X table (R443). -/
def isBar2 (page : Nat) : Bool := decide (0x4000 ≤ page)

/-- Port h is one of a stream page's feeders (R467). -/
def State.feeds (s : State) (h page : Nat) : Bool :=
  match pageBlk page with
  | some (.ings, _) => bit (s.reg page R.PAGE_OWNER) (8 + h)
  | _ => false

/-- The port lacks the secure IDE stream that SEC_CTL.IDE_REQ asks of it (R475). -/
def State.ideMissing (s : State) (h : Nat) : Bool :=
  bit (s.reg pSEC R.SEC_CTL) (8 + h) && bits (s.reg (pHPT h) R.HPT_STS) 12 10 == 0

/-- RECOVERY: only the AO_ and SEC_ pages respond (R471). -/
def State.recovery (s : State) : Bool := bit (s.reg pSEC R.SEC_STS) 2

/-- SEC_ registers that a port owning a partition may write (R473, R474, R479). -/
def secOwnerReg (off : Nat) : Bool :=
  decide (R.SEC_KEY_SEL ≤ off) && decide (off ≤ R.SEC_LINK_CMD)

/-- The page is locked and the offset lies under the lock (R453). -/
def State.lockedAt (s : State) (page off : Nat) : Bool :=
  bit (s.reg (s.canon page) R.PAGE_LOCK) 31 && (off == R.PAGE_CTL || off == R.EVT_FORCE || decide (0x40 ≤ off))

/-- Why an access of a port to a register page is refused; none when it is performed (R448, R467). -/
def State.portRefusal (s : State) (h page off : Nat) (wr : Bool) : Option Nat :=
  let part := s.pagePart page
  let mine := s.portPart h
  let admin := h == s.adminPort
  if s.ideMissing h then some dnIde
  else if s.recovery && page != pAO && page != pSEC then some dnOwner
  else if s.recovery && page == pSEC && off == R.SEC_IMG_CTL then none
  else if isBar2 page then
    (match pageBlk page with
     | some (.cq, q) => if s.queuePort q = some h then none else some dnOwner
     | some (.msix, k) => if k = h then none else some dnOwner
     | some (.pba, k) => if k = h then none else some dnOwner
     | _ => none)
  else if off == R.PAGE_OWNER && admin then none
  else if part < 6 && part == mine then (if wr && off == R.PAGE_OWNER then some dnOwner
    else if wr && s.lockedAt page off then some dnLocked else none)
  else if off == R.PAGE_OWNER && !wr && (mine < 6 || s.feeds h page) then none
  else if s.feeds h page then
    (if !wr then none else if off == R.ING_STR_TAIL then (if s.lockedAt page off then some dnLocked else none)
     else some dnFeeder)
  else if part == 7 then
    (if !wr then none
     else if admin then (if s.lockedAt page off then some dnLocked else none)
     else if page == pSEC && secOwnerReg off && mine < 6 then (if s.lockedAt page off then some dnLocked else none)
     else some dnOwner)
  else some dnOwner

/-- Whether a device-side block of partition p may name a page: its own pages, TIM_ and ERR_ to read (R467); any other is an
unmapped address (R448). -/
def State.deviceNames (s : State) (p page : Nat) (wr : Bool) : Bool :=
  !isBar2 page && (pageBlk page).isSome &&
  (s.pagePart page == p || (s.pagePart page == 7 && !wr && (page == pTIM || page == pERR)))

/-- What still responds in HOLD (R434): the AO_ and ERR_ pages and the error registers of every header. -/
def respondsInHold (page off : Nat) : Bool :=
  page == pAO || page == pERR || (decide (0x20 ≤ off) && decide (off ≤ 0x34) && !isBar2 page)

/-- The port can receive accesses: HIO on, its link up, released and not in D3hot (R441, R442, R486). -/
def State.portUp (s : State) (h : Nat) : Bool :=
  s.domOn 40 && s.linkUp h && (s.port h).released && !bit (s.reg (pHPT h) R.HPT_STS) 13

/-- What becomes of an access to a register. -/
inductive Verdict where
  | absent                 -- nothing can make this access now
  | drop                   -- read answers 0 or ones as `ones` says; write has no effect
  | ones
  | denied (port reason : Nat)
  | granted
  deriving DecidableEq, Repr

/-- The verdict on one word access (R434, R446 to R450, R467, R489, R534). While a page's domain is off its debug registers take
no write either (R541). -/
def State.judge (s : State) (src : Src) (page off : Nat) (wr : Bool) : Verdict :=
  if s.aoOn = false then .absent
  else
    let inner : Verdict :=
      if s.hold && !respondsInHold page off && src != .supervisor then .ones
      else if s.pwr.held && page != pAO && page != pPWR then .drop
      else if (pageBlk page).isNone then .drop
      else if decide (0x40 ≤ off) && !isBar2 page && !s.pageOn page then .drop
      else if wr && !isBar2 page && !s.pageOn page && (off == R.EVT_FORCE ||
          (off != R.PAGE_CTL && match pageBlk page with
            | some (.dbg, _) => true
            | _ => false)) then .drop
      else if decide (0x40 ≤ off) && s.srstBusy.contains (s.canon page) then .drop
      else .granted
    match src with
    | .supervisor => inner
    | .device p =>
      if s.deviceNames p page wr = false then .absent
      else if off == R.PAGE_OWNER || (wr && s.lockedAt page off) then .ones
      else inner
    | .port h =>
      if s.portUp h = false then .absent
      else if s.hold && !respondsInHold page off then .ones
      else if (pageBlk page).isNone && !isBar2 page then .drop
      else
        match s.portRefusal h page off wr with
        | some r => .denied h r
        | none => inner

/-- A write of a debug register that is performed voids the guarantees; the page of the first one is recorded (R12, R436, R541). -/
def State.debugVoid (s : State) (page : Nat) : State :=
  let s1 := s.voidBy 0
  if bit (s1.reg pERR R.ERR_VOID_PAGE) 31 then s1 else s1.setReg pERR R.ERR_VOID_PAGE (page % 2 ^ 14 + 2 ^ 31)

/-- Every register of a debug page is a debug register (R541). -/
def State.touchDebug (s : State) (page : Nat) : State :=
  match pageBlk page with
  | some (.dbg, _) => s.debugVoid page
  | _ => s

/-- A command that is a register write: refused, dropped, or its effect (R448). -/
def State.onWrite (s : State) (src : Src) (page off : Nat) (act : State → State) : State :=
  match s.judge src page off true with
  | .granted => act (s.touchDebug page)
  | .denied h r => s.deny h (if isBar2 page then 0x3FFF else page) r
  | _ => s

/-- A command that is a register read with an effect of its own: refused and dropped reads answer ones or 0 (R448, R489). -/
def State.onRead (s : State) (src : Src) (page off : Nat) (act : State → State) : State :=
  match s.judge src page off false with
  | .granted => act s
  | .denied h r => (s.deny h (if isBar2 page then 0x3FFF else page) r).reply [0xFFFFFFFF]
  | .ones => s.reply [0xFFFFFFFF]
  | .drop => s.reply [0]
  | .absent => s

end Sys2Proof.Machine
end

