-- ==== Sys2Proof/Machine/Mem.lean ====
section
/-! DEFINITION. Machine/Mem.lean: the device address map (R303 to R307), what a partition may name (R465), the memory
controllers' reads with their check bits (R313 to R315, R82), and the atomic merges (R316). -/
namespace Sys2Proof.Machine

/-- Where a device address leads (R303 to R306). -/
inductive Region where
  | near (district : Nat)
  | far (off : Nat)
  | sram (tile off : Nat)
  | queue (tile off : Nat)
  | regs (page off : Nat)
  | host (port off : Nat)
  | stash (off : Nat)
  | remote (module addr : Nat)
  | unmapped
  deriving DecidableEq, Repr

/-- The first address of far memory. -/
def farBase : Nat := 0x020000000000

/-- The first address of the service reserve (R312). -/
def reserveBase : Nat := 0x03FC00000000

/-- The module's own 14-bit ID. -/
def State.moduleId (s : State) : Nat := s.reg pGATS R.GAT_MODULE_ID % 2 ^ 14

/-- A remote-window address of this module is served locally (R305). -/
def State.localAddr (s : State) (a : Nat) : Nat :=
  if 2 ^ 63 ≤ a ∧ bits a 62 62 = 0 ∧ bits a 47 42 = 0 ∧ bits a 61 48 = s.moduleId then a % 2 ^ 42 else a

/-- Near or far memory, the only local targets a remote module may name (R305). -/
def isNearFar (a : Nat) : Bool :=
  decide (a < 0x00C000000000) || (decide (farBase ≤ a) && decide (a < 0x040000000000))

/-- The target of a device address. -/
def State.region (s : State) (a0 : Nat) : Region :=
  let a := s.localAddr a0
  if a ≠ a0 ∧ isNearFar a = false then .unmapped
  else if a < 0x00C000000000 then .near (a / 2 ^ 37)
  else if a < farBase then .unmapped
  else if a < 0x040000000000 then .far (a - farBase)
  else if a < 0x040400000000 then
    let t := (a - 0x040000000000) / 0x800000
    let o := (a - 0x040000000000) % 0x800000
    if isTile t = false then .unmapped
    else if o < 0x400000 then .sram t o else if o < 0x404000 then .queue t o else .unmapped
  else if 0x050000000000 ≤ a ∧ a < 0x050004000000 then
    .regs ((a - 0x050000000000) / 0x1000) ((a - 0x050000000000) % 0x1000)
  else if 0x100000000000 ≤ a ∧ a < 0x180000000000 then .host ((a - 0x100000000000) / 2 ^ 40) (a % 2 ^ 40)
  else if 0x200000000000 ≤ a ∧ a < 0x208000000000 then
    if s.fld pSTP R.STP_STASH_APT 24 0 = 0x40 ∧ bit (s.reg pSTP R.STP_STASH_CTL) 0 = true then
      .stash (a - 0x200000000000)
    else .unmapped
  else if 2 ^ 63 ≤ a ∧ bits a 62 62 = 0 ∧ bits a 47 42 = 0 then
    if isNearFar (a % 2 ^ 42) then .remote (bits a 61 48) (a % 2 ^ 42) else .unmapped
  else .unmapped

/-- The address one past the region that holds a (R307). -/
def State.regionEnd (s : State) (a0 : Nat) : Nat :=
  let a := s.localAddr a0
  let d := a0 - a
  match s.region a0 with
  | .near _ => 0x00C000000000 + d
  | .far _ => 0x040000000000 + d
  | .sram t _ => 0x040000000000 + t * 0x800000 + 0x400000
  | .queue t _ => 0x040000000000 + t * 0x800000 + 0x404000
  | .regs _ _ => 0x050004000000
  | .host h _ => 0x100000000000 + (h + 1) * 2 ^ 40
  | .stash _ => 0x208000000000
  | .remote m r => 2 ^ 63 + m * 2 ^ 48 + (if r < farBase then 0x00C000000000 else 0x040000000000)
  | .unmapped => 0

/-- Whether partition p owns a register page for a tile, courier or block (R467). -/
def State.pageOfPart (s : State) (p page : Nat) (wr : Bool) : Bool :=
  match pageBlk (s.canon page) with
  | none => false
  | some _ =>
    s.pagePart page == p || (s.pagePart page == 7 && !wr && (page == pTIM || page == pERR))

/-- A range of n bytes at a is mapped for partition p: it lies in one region and p's resources hold it (R307, R312,
R465). -/
def State.maps (s : State) (p a n : Nat) (wr : Bool) : Bool :=
  n == 0 || (decide (a + n ≤ s.regionEnd a) && decide (p < 6) &&
  match s.region a with
  | .near d => (List.range 6).all fun k => !(decide (d ≤ k) && decide (k ≤ (s.localAddr a + n - 1) / 2 ^ 37)) || s.partOf k == p
  | .far o =>
    let (b, z) := s.farRange p
    s.partValid p && decide (b * 2 ^ 30 ≤ o) && decide (o + n ≤ (b + z) * 2 ^ 30) && decide (farBase + o + n ≤ reserveBase)
  | .sram t _ => s.partOf (t / 256) == p
  | .queue t _ => s.partOf (t / 256) == p
  | .regs g o => (List.range ((o + n - 1) / 0x1000 + 1)).all fun k => s.pageOfPart p (g + k) wr
  | .host h _ => s.ownerPort p == h
  | .stash _ => s.pagePart pSTP == p
  | .remote _ _ => s.pagePart pGATS == p
  | .unmapped => false)

/-- The partition a tile works for. -/
def State.tilePart (s : State) (tile : Nat) : Nat := s.partOf (tile / 256)

/-- The register page of the controller that serves a memory address, with the channel within the page (R308, R311). -/
def State.ctlOf (s : State) (a0 : Nat) : Option (Nat × Nat) :=
  let a := s.localAddr a0
  match s.region a0 with
  | .near d =>
    let o := a % 2 ^ 37
    some (pNMC d, bits o 14 8 ^^^ bits o 21 15 ^^^ bits o 28 22 ^^^ bits o 35 29 ^^^ bits o 36 36)
  | .far o =>
    let g := o / 256
    some (pFMC (bits g 4 0 ^^^ bits g 9 5 ^^^ bits g 14 10), 0)
  | _ => none

/-- A target's power domain is off: DOMAIN_OFF (R489). -/
def State.targetOff (s : State) (a : Nat) : Bool :=
  match s.region a with
  | .near d => !s.domOn (30 + d)
  | .far _ => !s.domOn 37
  | .sram t _ => !s.siteOn (s.siteOf t)
  | .queue t _ => !s.siteOn (s.siteOf t)
  | .regs g _ => !s.pageOn g
  | .host _ _ => !s.domOn 40
  | .stash _ => !s.domOn 36
  | .remote _ _ => !s.domOn 38
  | .unmapped => false

/-- An access waits because its memory is still being initialised (R84, R317, R318) or has lost its clock (R494). -/
def State.targetWaits (s : State) (a : Nat) : Bool :=
  match s.region a with
  | .sram t _ | .queue t _ => !bit (s.reg (s.siteOf t) R.TIL_SRAM_STS) 0 || !s.clocked t
  | .near _ | .far _ =>
    match s.ctlOf a with
    | some (p, _) => !bit (s.reg p R.NMC_STS) 0 || !s.clocked p
    | none => false
  | _ => false

/-- Any 256-byte granule of a range meets a condition. -/
def State.anyGranule (s : State) (a n : Nat) (f : State → Nat → Bool) : Bool :=
  n != 0 && (List.range ((a + n - 1) / 256 - a / 256 + 1)).any fun k => f s (if k = 0 then a else (a / 256 + k) * 256)

/-- A block's structure in near or far memory, of n bytes at a, can be reached now: mapped for partition p, powered,
initialised and without poison. -/
def State.reachable (s : State) (p a n : Nat) : Bool :=
  s.maps p a n false && !s.anyGranule a n State.targetOff && !s.badAt (s.key (s.localAddr a)) n

/-! ### Reads through a controller -/

/-- The window of CE_STORM counts (R315): one corrected error more for a channel. -/
def State.countCe (s : State) (page ch : Nat) : State :=
  let w := s.mt / 1000000
  let (w0, c0) := sget (0, 0) s.ceWin (page * 128 + ch)
  let c := if w0 = w then c0 + 1 else 1
  let s1 := { s with ceWin := sset (0, 0) s.ceWin (page * 128 + ch) (w, c) }
  if c = 65 then s1.raise page 2 ch (w * 1000000 % 2 ^ 32) else s1

/-- A line with a correctable error is corrected and counted (R313, R82). `a` is the device address of the line. -/
def State.correctLine (s : State) (a : Nat) : State :=
  let line := s.key (s.localAddr a) / 64
  let s1 := s.clearUpset line
  match s.region a with
  | .sram t o => (s1.bump (s.siteOf t) R.TIL_SRAM_CE 1).raise t 4 (o / 64 * 64)
  | .queue t o => (s1.bump (s.siteOf t) R.TIL_SRAM_CE 1).raise t 4 (o / 64 * 64)
  | _ =>
    match s.ctlOf a with
    | some (p, ch) =>
      let la := s.localAddr a / 64 * 64
      (((s1.bump p R.NMC_CE_COUNT 1).raise p 0 la (la / 2 ^ 32)).countCe p ch)
    | none => s1

/-- A consumer meets an uncorrectable or poisoned line (R314, R82). `seq` is what ERR_INFO1 of SRAM_UE holds; `esc`
escalates the record (R429). -/
def State.badLine (s : State) (a seq : Nat) (esc : Bool) : State :=
  match s.region a with
  | .sram t o => (s.orReg (s.siteOf t) R.TIL_SRAM_STS 2).raise t 5 (o / 64 * 64) seq esc
  | .queue t o => (s.orReg (s.siteOf t) R.TIL_SRAM_STS 2).raise t 5 (o / 64 * 64) seq esc
  | _ =>
    match s.ctlOf a with
    | some (p, _) =>
      let la := s.localAddr a / 64 * 64
      (((s.bump p R.NMC_UE_COUNT 1).orReg p R.NMC_STS 2).raise p 1 la (la / 2 ^ 32) esc).poisonLine
        (s.key (s.localAddr a) / 64)
    | none => s

/-- Device addresses, one per line that n bytes at a touch. -/
def lineAddrs (a n : Nat) : List Nat :=
  if n = 0 then [] else
    (List.range ((a + n - 1) / 64 + 1 - a / 64)).map fun k => if k = 0 then a else (a / 64 + k) * 64

/-- A read of one line's check bits: corrected, bad, or neither. -/
def State.lineRead (s : State) (a seq : Nat) (esc : Bool) : State × Bool :=
  let k := s.key (s.localAddr a)
  if s.badAt k 1 then (s.badLine a seq esc, true)
  else if s.ceLines k 1 ≠ [] then (s.correctLine a, false)
  else (s, false)

/-- Reads of the lines of a list until one is bad. -/
def State.readLines (s : State) (seq : Nat) (esc : Bool) : List Nat → State × Option Nat
  | [] => (s, none)
  | a :: r =>
    let (s1, b) := s.lineRead a seq esc
    if b then (s1, some a) else s1.readLines seq esc r

/-- A read of n bytes at device address a by a consumer: the state after, the bytes, and the first bad line. -/
def State.devRead (s : State) (a n seq : Nat) (esc : Bool := false) : State × List Nat × Option Nat :=
  let (s1, b) := s.readLines seq esc (lineAddrs a n)
  (s1, s1.bytes (s1.key (s1.localAddr a)) n, b)

/-- A write of bytes at a device address of near memory, far memory or a tile window (R310, R314). -/
def State.devWrite (s : State) (a : Nat) (l : List Nat) : State := s.store (s.key (s.localAddr a)) l

/-- The little-endian value of n bytes at a device address. -/
def State.devLe (s : State) (a n : Nat) : Nat := s.le (s.key (s.localAddr a)) n

/-- An n-byte value written at a device address. -/
def State.devPut (s : State) (a n v : Nat) : State := s.devWrite a (leBytes v n)

/-! ### Atomic merges (R316) -/

/-- FMAX of two FP32 words, −0 below +0. -/
def fmax32 (old new : Nat) : Nat :=
  match fp32 old, fp32 new with
  | .nan, _ => old
  | _, .nan => old
  | x, y =>
    if x.lt y then new
    else if x.isZero && y.isZero && x.sign && !y.sign then new else old

/-- UADD of two words, sticking. -/
def uadd32 (old new : Nat) : Nat := min (old + new) 0xFFFFFFFF

/-- An atomic operation on the word at a: the state after, and whether it was performed. -/
def State.atomic (s : State) (a : Nat) (f : Nat → Nat) : State × Bool :=
  let (s1, b) := s.lineRead a 0xFFFF false
  if b then (s1, false) else (s1.devPut a 4 (f (s1.devLe a 4)), true)

end Sys2Proof.Machine
end

