-- ==== Sys2Proof/Machine/Seq.lean ====
section
/-! DEFINITION. Machine/Seq.lean: the tile sequencer's queue, the descriptor header, which descriptor may issue (R85 to R95,
R215 to R221, R251, R280, R286), discarding (R92, R220) and the sequencer's halt (R91). -/
namespace Sys2Proof.Machine

/-! ### The header (R95) -/

/-- Field [hi:lo] of a descriptor counted from bit 0 of byte b. -/
def df (d b hi lo : Nat) : Nat := bits d (8 * b + hi) (8 * b + lo)

def dKind (d : Nat) : Nat := d % 256
def dIrq (d : Nat) : Bool := bit d 8
def dBarrier (d : Nat) : Bool := bit d 9
def dDefer (d : Nat) : Bool := bit d 10
def dPhase (d : Nat) : Nat := df d 2 3 0
def dSigCtr (d : Nat) : Nat := df d 3 3 0
def dSigEn (d : Nat) : Bool := bit d 31
def dTag (d : Nat) : Nat := df d 4 31 0
def dSeqId (d : Nat) : Nat := df d 14 15 0

/-- Units of a kind (R87): array 1, vector 2, row 4, courier port 8, sequencer 16. -/
def unitsOf (kind : Nat) : Nat :=
  match kind with
  | 1 => 1 | 2 => 1 | 3 => 2 | 4 => 4 | 5 => 7 | 6 => 8 | 7 => 16 | 8 => 2 | 9 => 3 | _ => 0

/-- Banks a descriptor writes, as a mask (R78). -/
def banksWritten (d : Nat) : Nat :=
  match dKind d with
  | 1 => 2 ^ df d 24 19 19
  | 2 => if df d 18 3 0 ≤ 5 then 2 ^ df d 19 0 0 else 0
  | 5 => 3
  | 9 => 3
  | _ => 0

/-- Banks a descriptor reads without writing them: VCH and ROW with ACC_EN (R78). -/
def banksRead (d : Nat) : Nat :=
  match dKind d with
  | 3 => if bit (df d 20 15 0) 10 then 2 ^ df d 20 11 11 else 0
  | _ => 0

/-! ### The queue (R85) -/

def State.head (s : State) (site : Nat) : Nat := s.reg site R.TIL_SEQ_HEAD % 2 ^ 16
def State.tail (s : State) (site : Nat) : Nat := s.reg site R.TIL_SEQ_TAIL % 2 ^ 16

/-- The 64 bytes of the descriptor with a queue count. -/
def State.descAt (s : State) (site pos : Nat) : Nat := s.le (sramBase site + 0x400000 + 64 * (pos % 256)) 64

/-- Queue counts from head to tail, oldest first. -/
def State.queued (s : State) (site : Nat) : List Nat :=
  (List.range ((s.tail site + 2 ^ 16 - s.head site) % 2 ^ 16)).map fun i => (s.head site + i) % 2 ^ 16

/-- Queue counts not retired and not parked, oldest first. -/
def State.unretired (s : State) (site : Nat) : List Nat :=
  (s.queued site).filter fun p => !(s.tile site).retired.contains p

/-- The 16 oldest unretired descriptors (R88). -/
def State.window (s : State) (site : Nat) : List Nat := (s.unretired site).take 16

/-- TIL_SEQ_STS.DEPTH: unretired descriptors. -/
def State.depth (s : State) (site : Nat) : Nat := (s.unretired site).length

/-- The record of a running window descriptor. -/
def State.runOf (s : State) (site pos : Nat) : Option Run :=
  (s.tile site).running.find? fun r => r.pos == pos && !r.parked

def State.isRunning (s : State) (site pos : Nat) : Bool := (s.runOf site pos).isSome

/-- The stamp of a queue count (R221). -/
def State.stampOf (s : State) (site pos : Nat) : Nat := sget 0 (s.tile site).stamps pos

/-- Running descriptors taken from the deferred queue. -/
def State.parkedRuns (s : State) (site : Nat) : List Run := (s.tile site).running.filter (·.parked)

/-- What a descriptor's meaning works on. -/
structure DCtx where
  tile : Nat
  site : Nat
  pos : Nat
  d : Nat
  stamp : Nat
  parked : Bool
  deriving DecidableEq, Repr

def State.ctxOf (s : State) (tile pos : Nat) : DCtx :=
  let site := s.siteOf tile
  ⟨tile, site, pos, s.descAt site pos, s.stampOf site pos, false⟩

/-! ### Step tags (R94, R279, R280) -/

def State.openStep (s : State) : Nat := s.reg pSTP R.STP_OPEN_STEP
def State.raOpen (s : State) : Bool := bit (s.reg pSTP R.STP_STS) 4
def State.decided (s : State) : Nat := s.fld pSTP R.STP_MB_STS 10 0

/-- The next step's tag. -/
def State.nextStep (s : State) : Nat := (s.openStep + 1) % 2 ^ 32

/-- Bit j of the excise map (R302). -/
def State.excisedBit (s : State) (j : Nat) : Bool :=
  decide (j < 1024) && bit (s.reg pSTP (R.STP_EXCISE_MAP + 4 * (j / 32))) (j % 32)

/-- The descriptor uses the staged scales (R94). -/
def State.useStaged (s : State) (d : Nat) : Bool := dPhase d != 0 && dTag d == s.nextStep

/-- The gradient multiplier of a parity is valid. -/
def State.gmv (s : State) (par : Nat) : Bool := if par % 2 = 0 then s.step.gmv0 else s.step.gmv1

def State.gmulOf (s : State) (par : Nat) : Nat := if par % 2 = 0 then s.step.gmul0 else s.step.gmul1

/-- Stage bit of a UPD. -/
def updStage (d : Nat) : Bool := bit (df d 20 7 0) 0

/-- The conditions of R251, R277, R280 and R286 that hold a descriptor back. -/
def State.stepGate (s : State) (d stamp : Nat) : Bool :=
  let ph := dPhase d
  let tag := dTag d
  let n := s.openStep
  let updOk := if dKind d = 8 ∨ dKind d = 9 then bit (s.reg pUPD R.UPD_CTL) 0 && bit (s.reg pUPD R.PAGE_CTL) 0 else true
  let gmOk := if dKind d = 8 then s.gmv (tag + 1) else true
  let ra :=
    if ph ≠ 0 ∧ tag = s.nextStep then
      if dKind d = 8 then (if updStage d then s.raOpen else false)
      else if ph = 1 then s.raOpen
      else if ph = 5 then s.raOpen
      else if ph = 2 ∨ ph = 3 ∨ ph = 4 then false
      else true
    else true
  let loss :=
    if bit (s.reg pSTP R.STP_CTL) 4 ∧ tag = n ∧ (ph = 2 ∨ ph = 3) ∧ stamp < 1024 then decide (stamp < s.decided) else true
  updOk && gmOk && ra && loss

/-- A backward descriptor of an excised micro-batch retires as flushed on entry to the window (R286). -/
def State.exciseHit (s : State) (d stamp : Nat) : Bool :=
  dTag d == s.openStep && (dPhase d == 2 || dPhase d == 3) && s.excisedBit stamp

/-! ### Issue (R88) -/

/-- A header wait is met (R90). -/
def waitMet (ctr v : Nat) : Bool := decide ((ctr % 2 ^ 16 + 2 ^ 16 - v) % 2 ^ 16 < 2 ^ 15)

/-- Both header waits are met. -/
def State.waitsMet (s : State) (site d : Nat) : Bool :=
  (!bit d 71 || waitMet (s.reg site (R.TIL_EVC + 4 * df d 8 3 0)) (df d 10 15 0)) &&
  (!bit d 79 || waitMet (s.reg site (R.TIL_EVC + 4 * df d 9 3 0)) (df d 12 15 0))

def RunSt.isFaulted : RunSt → Bool
  | .faulted _ => true
  | _ => false

/-- A running descriptor that a discard still stops. -/
def Run.stoppable (r : Run) : Bool := r.st != .flushed && !r.st.isFaulted

/-- Units that a running descriptor holds: a yielded one holds none (R218). -/
def Run.units (r : Run) : Nat := if r.st = .yielded then 0 else unitsOf (dKind r.desc)

/-- The descriptor is a SYN FENCE or SYN BARRIER (R104). -/
def isFence (d : Nat) : Bool := dKind d == 7 && (df d 16 7 0 == 0 || df d 16 7 0 == 2)

def isDrain (d : Nat) : Bool := dKind d == 7 && df d 16 7 0 == 3

/-- Unretired descriptors before a queue count, as their 64 bytes. -/
def State.earlier (s : State) (site pos : Nat) : List Nat :=
  ((s.unretired site).takeWhile (· != pos)).map (s.descAt site)

/-- A tile is able to start work: powered, its page enabled, its clock running, not frozen or halted, module live. -/
def State.tileWorks (s : State) (site : Nat) : Bool :=
  s.live && s.siteOn site && s.clocked site && bit (s.reg site R.PAGE_CTL) 0 && !(s.tile site).clkStopped && !s.frozen site

/-- The bank interlock of R78 against a list of unretired descriptors. -/
def bankFree (d : Nat) (es : List Nat) : Bool :=
  es.all fun e => (banksWritten d &&& (banksWritten e ||| banksRead e) ||| banksRead d &&& banksWritten e) == 0

/-- The conditions of R88 for a window descriptor, apart from those of its step and the parked queue. -/
def State.windowReady (s : State) (site pos : Nat) : Bool :=
  let d := s.descAt site pos
  let es := s.earlier site pos
  let pr := s.parkedRuns site
  (s.window site).contains pos && !s.isRunning site pos && (s.tile site).halted.isNone &&
  (es.all fun e => (unitsOf (dKind e) &&& unitsOf (dKind d)) == 0) &&
  (pr.all fun r => (r.units &&& unitsOf (dKind d)) == 0) &&
  s.waitsMet site d &&
  (!dBarrier d || (es.isEmpty && pr.isEmpty && (s.tile site).parked.isEmpty)) &&
  bankFree d (es ++ pr.map (·.desc)) &&
  (es.all fun e => !isFence e) &&
  (dPhase d != 4 || (pr.isEmpty && (s.tile site).parked.isEmpty)) &&
  s.stepGate d (s.stampOf site pos) && !s.exciseHit d (s.stampOf site pos)

/-- A drain is pending (R219): a window descriptor waits for the deferred queue. -/
def State.drainPending (s : State) (site : Nat) : Bool :=
  !((s.tile site).parked.isEmpty && (s.parkedRuns site).isEmpty) &&
  (s.window site).any fun p =>
    let d := s.descAt site p
    isDrain d || ((dBarrier d || dPhase d == 4) && !s.isRunning site p)

/-- The oldest parked descriptor could issue, window descriptors apart (R217). -/
def State.parkedReady (s : State) (site : Nat) : Option Parked :=
  match (s.tile site).parked with
  | [] => none
  | p :: _ =>
    let busy := (s.tile site).running
    if (s.tile site).halted.isNone && s.waitsMet site p.desc &&
      (busy.all fun r => (r.units &&& unitsOf (dKind p.desc)) == 0) &&
      bankFree p.desc (busy.map (·.desc)) && s.stepGate p.desc p.stamp
    then some p else none

/-- Whether a window descriptor issues now (R88, R219). -/
def State.canIssue (s : State) (site pos : Nat) : Bool :=
  s.tileWorks site && s.windowReady site pos &&
  (!s.drainPending site ||
    match s.parkedReady site with
    | some p => (unitsOf (dKind p.desc) &&& unitsOf (dKind (s.descAt site pos))) == 0
    | none => true)

/-- A yielded descriptor stands among the running ones and could take its units again (R217, R218). -/
def State.yieldedRun (s : State) (site : Nat) : Option Run :=
  (s.tile site).running.find? fun r => r.st == .yielded

/-- The oldest parked descriptor issues now (R217, R219): no window descriptor can issue on its units, unless a drain is
pending. -/
def State.canIssueParked (s : State) (site : Nat) : Option Parked :=
  match s.tileWorks site, s.parkedReady site with
  | true, some p =>
    if s.drainPending site ||
      !((s.window site).any fun q => s.windowReady site q && (unitsOf (dKind (s.descAt site q)) &&& unitsOf (dKind p.desc)) != 0)
    then some p else none
  | _, _ => none

/-! ### Head, retirement bookkeeping and halts -/

/-- The head moves over retired counts (R89). -/
def advanceHead : Nat → Nat → Nat → List Nat → Nat × List Nat
  | 0, h, _, ret => (h, ret)
  | f + 1, h, t, ret =>
    if h ≠ t ∧ ret.contains h = true then advanceHead f ((h + 1) % 2 ^ 16) t (ret.filter (· != h)) else (h, ret)

/-- A queue count counts as retired for the head. -/
def State.passHead (s : State) (site pos : Nat) : State :=
  let t := s.tile site
  let (h, ret) := advanceHead 257 (s.head site) (s.tail site) (pos :: t.retired)
  (s.setTile site { t with
    retired := ret, stamps := sdel t.stamps pos, overflowed := t.overflowed.filter (· != pos), rndLoose := sdel t.rndLoose pos,
    skipLoose := sdel t.skipLoose pos,
    stallFor := if t.stallFor = some pos then none else t.stallFor }).setReg site R.TIL_SEQ_HEAD h

/-- What every retirement does (R89, R95): the SIG increment and DESC_DONE. -/
def State.retireSignals (s : State) (tile site d : Nat) : State :=
  let s1 := if dSigEn d then s.wrapAdd site (R.TIL_EVC + 4 * dSigCtr d) 1 else s
  if dIrq d then s1.notice tile 0 else s1

/-- A queued descriptor retires as flushed or skipped without having issued. -/
def State.retireUnissued (s : State) (tile site pos : Nat) : State :=
  (s.retireSignals tile site (s.descAt site pos)).passHead site pos

/-- The sequencer halts for a descriptor (R91). -/
def State.haltFor (s : State) (site d reason : Nat) (h : Halt) : State :=
  let rej := dSeqId d + dKind d * 2 ^ 16 + reason * 2 ^ 24
  (s.modTile site fun t => { t with halted := some h }).setReg site R.TIL_SEQ_REJ rej

/-- A descriptor fails its issue checks (R91). -/
def State.reject (s : State) (tile site pos d reason : Nat) (h : Halt) : State :=
  let s1 := s.haltFor site d reason h
  s1.raise tile 1 (s1.reg site R.TIL_SEQ_REJ) (pos % 256)

/-! ### Discarding (R92, R220) -/

/-- A free choice for each byte a stopped descriptor had written: its old value or its new one (R92). -/
def State.blurBytes (s : State) : List (Nat × Nat) → State
  | [] => s
  | (k, old) :: r =>
    let (n, s1) := s.fresh
    ((if Sys2Proof.Config.freeBit n then s1.setByte k old else s1).blurBytes r)

/-- Undefined values after a stop, by a setter of one place. -/
def State.blurWith (s : State) (put : State → Nat → Nat → State) : List Nat → State
  | [] => s
  | k :: r =>
    let (n, s1) := s.fresh
    (put s1 k (Sys2Proof.Config.freeNat n)).blurWith put r

def State.setBank (s : State) (site i v : Nat) : State :=
  s.modTile site fun t => { t with banks := sset 0 t.banks i (v % 2 ^ 36) }

def State.setVreg (s : State) (site i v : Nat) : State :=
  s.modTile site fun t => { t with vregs := sset 0 t.vregs i (v % 2 ^ 32) }

def State.setPreg (s : State) (site i v : Nat) : State :=
  s.modTile site fun t => { t with pregs := sset 0 t.pregs i (v % 2 ^ 256) }

/-- What a stopped descriptor leaves: its output bytes old or new, what it wrote in banks and registers undefined. -/
def State.blurRun (s : State) (site : Nat) (r : Run) : State :=
  (((s.blurBytes r.undo).blurWith (fun a k v => a.setBank site k v) r.undoBanks).blurWith
    (fun a k v => a.setVreg site k v) r.undoVregs).blurWith (fun a k v => a.setPreg site k v) r.undoPregs

/-- A running descriptor after it has stopped. -/
def Run.stopped (r : Run) : Run :=
  { r with st := .flushed, merges := [], undo := [], undoBanks := [], undoVregs := [], undoPregs := [], packed := none }

/-- Running descriptors that meet a condition stop; they retire as flushed later. -/
def State.stopRuns (s : State) (site : Nat) (hit : Run → Bool) : State :=
  let rs := (s.tile site).running.filter fun r => hit r && r.stoppable
  (rs.foldl (fun a r => a.blurRun site r) s).modTile site fun t =>
    { t with running := t.running.map fun r => if hit r && r.stoppable then r.stopped else r }

/-- Unissued queued descriptors that meet a condition on their bytes and stamp. -/
def State.queuedHits (s : State) (site : Nat) (hit : Nat → Nat → Bool) : List Nat :=
  (s.unretired site).filter fun p => !s.isRunning site p && hit (s.descAt site p) (s.stampOf site p)

/-- Queued descriptors retire as flushed, oldest first. -/
def State.dropQueued (s : State) (tile site : Nat) (ps : List Nat) : State :=
  ps.foldl (fun a p => a.retireUnissued tile site p) s

/-- Parked descriptors that meet a condition retire as flushed (R220). -/
def State.dropParked (s : State) (tile site : Nat) (hit : Nat → Nat → Bool) : State :=
  let ps := (s.tile site).parked.filter fun p => hit p.desc p.stamp
  let s1 := s.modTile site fun t => { t with
    parked := t.parked.filter fun p => !hit p.desc p.stamp
    rndLoose := ps.foldl (fun m p => sdel m (p.pos + 65536)) t.rndLoose }
  ps.foldl (fun a p => a.retireSignals tile site p.desc) s1

/-- HALT is cleared when the halted descriptor is among those discarded (R92). -/
def State.clearHaltIf (s : State) (site : Nat) (hit : Nat → Nat → Bool) : State :=
  match (s.tile site).halted with
  | none => s
  | some h =>
    let (d, st) :=
      if h.running then
        match (s.tile site).running.find? fun r => r.pos == h.pos && r.parked == h.parked with
        | some r => (r.desc, r.stamp)
        | none => (0, 0)
      else (s.descAt site h.pos, s.stampOf site h.pos)
    if hit d st then s.modTile site fun t => { t with halted := none } else s

/-- Every queued, parked or running descriptor that meets a condition is discarded (R92, R220). -/
def State.discard (s : State) (tile site : Nat) (hit : Nat → Nat → Bool) : State :=
  let s0 := s.clearHaltIf site hit
  let qs := s0.queuedHits site hit
  let s1 := s0.stopRuns site fun r => hit r.desc r.stamp
  (s1.dropParked tile site hit).dropQueued tile site qs

/-- What FLUSH discards (R92). -/
def State.flushHit (s : State) (tag : Nat) (d : Nat) : Bool :=
  dPhase d != 0 && decide (tag ≤ dTag d) && !(dKind d == 8 && !updStage d && dTag d == s.openStep)

/-- FLUSH of one tile by its TIL_SEQ_FLUSH_TAG (R92). -/
def State.flushTile (s : State) (tile : Nat) : State :=
  let site := s.siteOf tile
  s.discard tile site fun d _ => s.flushHit (s.reg site R.TIL_SEQ_FLUSH_TAG) d

/-- What EXCISE discards (R220). -/
def State.exciseTest (s : State) (mb d stamp : Nat) : Bool :=
  (dPhase d == 2 || dPhase d == 3) && dTag d == s.openStep && stamp == mb

/-- EXCISE of one tile: EXCISE_LATE for each running descriptor it stops (R220). -/
def State.exciseTile (s : State) (tile : Nat) : State :=
  let site := s.siteOf tile
  let mb := s.fld site R.TIL_EXCISE_MB 19 0
  let late := (s.tile site).running.filter fun r => s.exciseTest mb r.desc r.stamp && r.st != .flushed
  let s1 := s.discard tile site (s.exciseTest mb)
  late.foldl (fun a r => a.raise tile 8 (dSeqId r.desc) r.stamp) s1

/-- Tiles whose site has power. -/
def State.liveTiles (s : State) : List Nat := allTiles.filter fun t => s.siteOn (s.siteOf t)

/-- Every tile flushed with one tag, as the step controller does (R292, R296). -/
def State.flushAll (s : State) (tag : Nat) : State :=
  s.liveTiles.foldl (fun a t => (a.setReg (a.siteOf t) R.TIL_SEQ_FLUSH_TAG tag).flushTile t) s

/-- Every discarded descriptor has retired (R92). -/
def State.flushDone (s : State) : Bool := s.tiles.all fun e => e.2.running.all fun r => r.st != .flushed

end Sys2Proof.Machine
end

