-- ==== Sys2Proof/Machine/Flags.lean ====
section
/-! DEFINITION. Machine/Flags.lean: the sticky numeric flags of a tile (R65, R66), of its vector engine (R148) and of its
window generator. -/
namespace Sys2Proof.Machine

/-- The NaN bit of TIL_NUM_FLAGS for a descriptor; the infinity bit lies above it (R65, R95). -/
def flagBit (d : Nat) : Nat :=
  let par := dTag d % 2
  match dPhase d with
  | 1 => 8 * par
  | 2 => 8 * par + 2
  | 3 => 8 * par + 2
  | 4 => 8 * par + 2
  | 5 => 8 * par + 4
  | _ => 16

/-- The sticky numeric flags a result sets (R65, R66). -/
def flagMask (d : Nat) (nan inf rsvd scaleNaN : Bool) : Nat :=
  b2n nan * 2 ^ flagBit d + b2n inf * 2 ^ (flagBit d + 1) + b2n rsvd * 2 ^ 18 + b2n scaleNaN * 2 ^ 19

/-- The sticky flags of TIL_VEC_FLAGS (R124, R131, R148). -/
structure VecFlags where
  laneRange : Bool := false
  f2iSat : Bool := false
  divZero : Bool := false
  narrowSat : Bool := false
  deriving DecidableEq, Repr

def VecFlags.join (a b : VecFlags) : VecFlags :=
  ⟨a.laneRange || b.laneRange, a.f2iSat || b.f2iSat, a.divZero || b.divZero, a.narrowSat || b.narrowSat⟩

/-- As bits of the register. -/
def VecFlags.mask (f : VecFlags) : Nat := b2n f.laneRange + 2 * b2n f.f2iSat + 4 * b2n f.divZero + 8 * b2n f.narrowSat

end Sys2Proof.Machine
end

