-- ==== Sys2Proof/Machine/StepCore.lean ====
section
/-! DEFINITION. Machine/StepCore.lean: the step controller's phase, the start of a squash (R295, R296), step errors and the
escalations of R429, the running tensor-record merges of R54, and the scale operations of R56 to R59. -/
namespace Sys2Proof.Machine

/-! ### Phases and verdict bits (R283, R301) -/

abbrev phIdle : Nat := 0
abbrev phFwd : Nat := 1
abbrev phBwdI : Nat := 2
abbrev phBwdW : Nat := 3
abbrev phReduce : Nat := 4
abbrev phCheck : Nat := 5
abbrev phCommit : Nat := 6
abbrev phSquash : Nat := 7
abbrev phRestage : Nat := 8

abbrev vbNanGrad : Nat := 0
abbrev vbInfGrad : Nat := 1
abbrev vbNormNan : Nat := 2
abbrev vbExciseLimit : Nat := 3
abbrev vbLossLate : Nat := 4
abbrev vbClip : Nat := 5
abbrev vbStepSkew : Nat := 6
abbrev vbLedger : Nat := 7
abbrev vbStash : Nat := 8
abbrev vbStepErr : Nat := 9
abbrev vbLossErr : Nat := 10
abbrev vbRemote : Nat := 11
abbrev vbVoteTimeout : Nat := 12
abbrev vbSoft : Nat := 13
abbrev vbFwdFlags : Nat := 14
abbrev vbEmpty : Nat := 15
abbrev vbUpdateNan : Nat := 16

def State.phase (s : State) : Nat := s.fld pSTP R.STP_STS 3 0
def State.setPhase (s : State) (p : Nat) : State := s.setFld pSTP R.STP_STS 3 0 p
def State.stpEn (s : State) : Bool := bit (s.reg pSTP R.STP_CTL) 0
def State.setStsBit (s : State) (b : Nat) (v : Bool) : State := s.setFld pSTP R.STP_STS b b (b2n v)

/-- The GMV bit of a parity written (R284, R292, R296). -/
def State.setGmv (s : State) (par : Nat) (v : Bool) : State :=
  if par % 2 = 0 then { s with step := { s.step with gmv0 := v } } else { s with step := { s.step with gmv1 := v } }

/-- A gradient multiplier written and marked valid in every tile (R254). -/
def State.writeGmul (s : State) (par g : Nat) : State :=
  if par % 2 = 0 then { s with step := { s.step with gmul0 := g, gmv0 := true } }
  else { s with step := { s.step with gmul1 := g, gmv1 := true } }

/-- The tiles report that they hold no work of a tag and phases 1 to 4 (R289). -/
def State.tagDrained (s : State) (tag : Nat) : Bool :=
  let mine := fun d => dTag d == tag && decide (1 ≤ dPhase d) && decide (dPhase d ≤ 4)
  s.liveTiles.all fun t =>
    let site := s.siteOf t
    !((s.unretired site).any fun p => mine (s.descAt site p)) &&
    !((s.tile site).parked.any fun p => mine p.desc) && !((s.tile site).running.any fun r => mine r.desc)

/-- The first part of a squash (R296): phase, permission, multiplier, flush and the notice to the vote group (R295). -/
def State.startSquash (s : State) (verdict : Nat) : State :=
  let n := s.openStep
  let s1 := ((s.setPhase phSquash).setStsBit 4 false).setStsBit 6 false
  let s2 := (s1.setGmv n false).setReg pSTP R.STP_VERDICT verdict
  let s3 := { s2 with step := { s2.step with restaging := false, commitHeld := false, provisional := none } }
  let s4 := if bit (s.reg pSTP R.STP_VOTE_CTL) 16 then { s3 with ctlOut := s3.ctlOut ++ [.squash n] } else s3
  s4.flushAll n

/-- A squash cause of the open step arises (R295, R571). -/
def State.cause (s : State) (vbit : Nat) : State :=
  let ph := s.phase
  if s.stpEn = false ∨ ph = phIdle then s
  else if ph = phSquash then s.orReg pSTP R.STP_VERDICT (2 ^ vbit)
  else s.startSquash (2 ^ vbit)

/-- Whether a step error of a descriptor is escalated to FATAL: update work of the open step (R295, R429). -/
def State.escalates (s : State) (d : Nat) : Bool := dPhase d == 5 && dTag d == s.openStep

/-- A step error of a descriptor with PHASE ≠ 0 (R295). -/
def State.stepError (s : State) (d : Nat) : State :=
  if dPhase d = 0 ∨ s.escalates d = true then s
  else if dTag d = s.openStep ∨ dTag d = s.nextStep then s.cause vbStepErr
  else s

/-! ### Tensor records (R53, R54) -/

/-- Device address of tensor record i of a tile (R97). -/
def State.trecAddr (s : State) (site i : Nat) : Nat := s.reg64 site R.TIL_TREC_BASE_LO + 64 * i

/-- A little-endian field of a record. -/
def State.recLe (s : State) (a off n : Nat) : Nat := s.devLe (a + off) n

/-- TENSOR_ID of a record, 0xFFFF_FFFF for none (R97). -/
def State.tensorId (s : State) (site i : Nat) : Nat := if i = 0xFFFF then 0xFFFFFFFF else s.recLe (s.trecAddr site i) 0 4

/-- SCALE and RSCALE, or the staged pair (R94). -/
def State.recScale (s : State) (a : Nat) (staged : Bool) : Nat × Nat :=
  if staged then (s.recLe a 0x10 4, s.recLe a 0x14 4) else (s.recLe a 0x08 4, s.recLe a 0x0C 4)

/-- Where a merge of a descriptor can fail: the record's memory off, or its line poisoned (R570). -/
def State.mergeFault (s : State) (a : Nat) : Option Nat :=
  if s.targetOff a then some 0x11 else if s.badAt (s.key (s.localAddr a)) 1 then some 0x0A else none

/-- One merge of a descriptor into a tensor record (R54): the maximum and flags by the tag's parity, the counts; PHASE 0
merges its counts only. -/
def State.mergeRecord (s : State) (d : Nat) (m : Merge) : State :=
  let par := dTag d % 2
  let s1 := if dPhase d = 0 then s else
    ((s.atomic (m.addr + 0x18 + 4 * par) (fun o => fmax32 o m.amax)).1.atomic (m.addr + 0x2C)
      (fun o => o ||| ((b2n m.nan + 2 * b2n m.inf + 4 * b2n m.nz) * 2 ^ (24 + 3 * par)))).1
  ((s1.atomic (m.addr + 0x20) (fun o => uadd32 o m.sat)).1.atomic (m.addr + 0x24) (fun o => uadd32 o m.ftz)).1

/-- MOV_FAULT with the layout of R101. -/
def State.movFault (s : State) (tile d code addr : Nat) : State :=
  let s1 := s.raise tile 9 (code % 32 + dSeqId d * 2 ^ 16) (addr % 2 ^ 32) (s.escalates d)
  s1.stepError d

/-- Every merge of a retiring descriptor, a failed one reported (R570). -/
def State.mergeAll (s : State) (tile d : Nat) : List Merge → State
  | [] => s
  | m :: r =>
    match s.mergeFault m.addr with
    | none => (s.mergeRecord d m).mergeAll tile d r
    | some code =>
      let s1 := if code = 0x0A then s.badLine m.addr 0xFFFF (s.escalates d) else s
      (s1.movFault tile d code m.addr).mergeAll tile d r

/-! ### Scale histories (R56 to R59) -/

/-- HLEN as a window length (R53). -/
def hlenOf (b : Nat) : Nat := if b = 0 then 16 else min b 32

/-- The newest n maxima of a record's history, newest first. -/
def State.histNewest (s : State) (a n : Nat) : List Nat :=
  let head := s.recLe a 0x2D 1 % 32
  let base := s.recLe a 0x30 8
  (List.range n).map fun k => s.devLe (base + 4 * ((head + 31 - k) % 32)) 4

/-- The largest of a list of FP32 maxima, passing over NaN (R57). -/
def maxOf (l : List Nat) : Fp := l.foldl (fun m v => maxIgnNaN m (fp32 v)) Fp.zero

/-- The scale pair R57 gives for a record from its maxima. -/
def State.scaleFrom (s : State) (a : Nat) (h : Fp) : Nat × Nat :=
  scaleOf (Fmt.ofCode (s.recLe a 4 1 % 32)) h (sext (s.recLe a 7 1) 8) (bit (s.recLe a 5 1) 1) (s.recLe a 8 4)

/-- The record's format has an fmt_max (R57). -/
def State.hasFmtMax (s : State) (a : Nat) : Bool :=
  match Fmt.ofCode (s.recLe a 4 1 % 32) with
  | some f => f.fmtMax.isSome
  | none => false

/-- STG_SCALE and STG_RSCALE computed when CHECK opens, AMAX_STG of the parity as newest (R56). -/
def State.stageScale (s : State) (a par : Nat) : State :=
  if s.hasFmtMax a = false then s
  else
    let n := hlenOf (s.recLe a 6 1)
    let fill := min (s.recLe a 0x2E 1) 32
    let h := maxOf (s.recLe a (0x18 + 4 * par) 4 :: s.histNewest a (min (n - 1) fill))
    let (sc, rs) := s.scaleFrom a h
    (s.devPut (a + 0x10) 4 sc).devPut (a + 0x14) 4 rs

/-- COMMIT of one scaled tensor record (R58): the state and the new ZERO_STREAK when it advanced. It sticks, as the record's
counters do (R45). -/
def State.commitScale (s : State) (a par : Nat) : State × Option Nat :=
  let amax := s.recLe a (0x18 + 4 * par) 4
  let head := s.recLe a 0x2D 1 % 32
  let fill := min 32 (s.recLe a 0x2E 1 + 1)
  let s1 := ((s.devPut (s.recLe a 0x30 8 + 4 * head) 4 amax).devPut (a + 0x2D) 1 ((head + 1) % 32)).devPut (a + 0x2E) 1 fill
  let s2 :=
    if bit (s1.recLe a 0x38 1) 0 then
      ((s1.devPut (a + 8) 4 (s1.recLe a 0x10 4)).devPut (a + 0x0C) 4 (s1.recLe a 0x14 4)).devPut (a + 0x38) 1
        (setBit (s1.recLe a 0x38 1) 0 false)
    else if s1.hasFmtMax a = false then s1
    else
      let n := hlenOf (s1.recLe a 6 1)
      let (sc, rs) := s1.scaleFrom a (maxOf (s1.histNewest a (min n fill)))
      (s1.devPut (a + 8) 4 sc).devPut (a + 0x0C) 4 rs
  let sts := s2.recLe a 0x2F 1
  let grad := bit (s2.recLe a 5 1) 2
  let nz := bit sts (3 * par + 2)
  let old := s2.recLe a 0x28 4
  let streak := if nz then 0 else min (old + 1) (2 ^ 32 - 1)
  let s3 := if grad then s2.devPut (a + 0x28) 4 streak else s2
  let left := s3.recLe a 0x2C 1 - 1
  let s4 := if bit sts 7 then
      (s3.devPut (a + 0x2C) 1 left).devPut (a + 0x2F) 1 (if left = 0 then setBit sts 7 false else sts)
    else s3
  let s5 := (s4.devPut (a + 0x18 + 4 * par) 4 0).devPut (a + 0x2F) 1 (setBits (s4.recLe a 0x2F 1) (3 * par + 2) (3 * par) 0)
  (s5, if grad && !nz && streak != old then some streak else none)

/-- A squash of one scaled tensor record (R59). -/
def State.squashScale (s : State) (a : Nat) : State :=
  let s1 := (s.devPut (a + 0x18) 4 0).devPut (a + 0x1C) 4 0
  let s2 := s1.devPut (a + 0x2F) 1 (setBits (s1.recLe a 0x2F 1) 5 0 0)
  let s3 := s2.devPut (a + 0x38) 1 (setBit (s2.recLe a 0x38 1) 0 false)
  (s3.devPut (a + 0x10) 4 (s3.recLe a 8 4)).devPut (a + 0x14) 4 (s3.recLe a 0x0C 4)

/-- A restage of one record for the run-ahead parity (R292 step 3). `par` is the parity of n + 1. -/
def State.restageScale (s : State) (a par : Nat) : State :=
  let s1 := (s.devPut (a + 0x18 + 4 * par) 4 0).devPut (a + 0x2F) 1 (setBits (s.recLe a 0x2F 1) (3 * par + 2) (3 * par) 0)
  if bit (s1.recLe a 0x38 1) 0 then
    (s1.devPut (a + 0x38) 1 (setBit (s1.recLe a 0x38 1) 0 false)).stageScale a (1 - par)
  else s1

end Sys2Proof.Machine
end

