-- ==== Sys2Proof/Machine/Issue.lean ====
section
/-! DEFINITION. Machine/Issue.lean: the issue of a descriptor: the checks every kind shares (R91), frozen skips (R226), the
one way in which a tile's own units read and write (R82, R87, R570), and the reject codes. -/
namespace Sys2Proof.Machine

/-- Reason codes of R91. -/
abbrev rjKindRsvd : Nat := 0x01
abbrev rjFmtRsvd : Nat := 0x02
abbrev rjRndRsvd : Nat := 0x03
abbrev rjShapeLimit : Nat := 0x04
abbrev rjAddrRange : Nat := 0x05
abbrev rjBadLayout : Nat := 0x06
abbrev rjFmtRole : Nat := 0x07
abbrev rjFmtScale : Nat := 0x08
abbrev rjStepRange : Nat := 0x09
abbrev rjShapeEmpty : Nat := 0x0A
abbrev rjSramUe : Nat := 0x0B
abbrev rjKindField : Nat := 0x0C

/-- A reason when a condition holds. -/
def rj (c : Bool) (r : Nat) : List Nat := if c then [r] else []

/-- Bytes of tile SRAM. -/
def sramSize : Nat := 0x400000

/-- A region of tile SRAM that leaves it (R91). -/
def outside (a n : Nat) : Bool := n != 0 && decide (sramSize < a + n)

/-! ### What a descriptor does to its tile -/

/-- What a descriptor of the tile's own units reads, writes and reports. Addresses are tile SRAM byte addresses. -/
structure Eff where
  reads : List (Nat × Nat) := []
  writes : List (Nat × List Nat) := []
  banks : List (Nat × Nat) := []
  vregs : List (Nat × Nat) := []
  pregs : List (Nat × Nat) := []
  stats : List (Nat × StatEntry) := []
  dropped : List Nat := []
  merges : List Merge := []
  sat : Nat := 0
  ftz : Nat := 0
  esc : Nat := 0
  nan : Bool := false
  inf : Bool := false
  rsvd : Bool := false
  scaleNaN : Bool := false
  adds : List (Nat × Nat) := []
  ors : List (Nat × Nat) := []
  sets : List (Nat × Nat) := []
  overrun : Bool := false
  packed : Option (Nat × Nat) := none
  deriving DecidableEq, Repr

/-- SRAM keys of the lines a list of regions touches, without repeats. -/
def regionLines (site : Nat) (l : List (Nat × Nat)) : List Nat :=
  uniq (l.flatMap fun r => touchedLines (sramBase site + r.1) r.2)

/-- Lines that writes modify by parts of a 64-bit word, which a read-modify-write reads (R80, R82). -/
def partialLines (site : Nat) (l : List (Nat × List Nat)) : List Nat :=
  uniq (l.flatMap fun w =>
    let a := sramBase site + w.1
    let e := a + w.2.length
    if w.2 = [] then [] else
      (if a % 8 = 0 then [] else [a / 64]) ++ (if e % 8 = 0 then [] else [(e - 1) / 64]))

/-- A correctable error of a tile's own read: corrected, written back and counted (R82). -/
def State.ceOwn (s : State) (tile site line : Nat) : State :=
  ((s.clearUpset line).bump site R.TIL_SRAM_CE 1).raise tile 4 (line * 64 - sramBase site)

/-- Whether a line holds an uncorrectable error or poison. -/
def State.lineBad (s : State) (line : Nat) : Bool := s.poison.contains line || s.upsets.any fun u => u.1 == line && u.2

def State.lineCe (s : State) (line : Nat) : Bool := s.upsets.any fun u => u.1 == line && !u.2

/-- Correctable lines of a list, each corrected. -/
def State.ceOwnAll (s : State) (tile site : Nat) (ls : List Nat) : State :=
  (ls.filter s.lineCe).foldl (fun a l => a.ceOwn tile site l) s

/-- The record of an issued descriptor. -/
def mkRun (c : DCtx) (st : RunSt) : Run := { pos := c.pos, desc := c.d, stamp := c.stamp, parked := c.parked, st := st }

/-- A descriptor joins the running ones. -/
def State.addRun (s : State) (site : Nat) (r : Run) : State :=
  s.modTile site fun t => { t with running := t.running ++ [r] }

/-- An uncorrectable error in a read by the tile's own units (R82): SRAM_UE, the halt, and a step error. -/
def State.sramUe (s : State) (c : DCtx) (line : Nat) : State :=
  let s1 := (s.addRun c.site (mkRun c .working)).orReg c.site R.TIL_SRAM_STS 2
  let s2 := s1.raise c.tile 5 (line * 64 - sramBase c.site) (dSeqId c.d)
  (s2.haltFor c.site c.d rjSramUe ⟨c.pos, true, c.parked⟩).stepError c.d

/-- The next annex entry lies beyond tile SRAM (R74): the descriptor stops and the sequencer halts with ADDR_RANGE. -/
def State.annexStop (s : State) (c : DCtx) : State :=
  let s1 := (s.addRun c.site (mkRun c .working)).haltFor c.site c.d rjAddrRange ⟨c.pos, true, c.parked⟩
  (s1.raise c.tile 1 (s1.reg c.site R.TIL_SEQ_REJ) (c.pos % 256)).stepError c.d

/-- The old bytes under a write. -/
def State.oldBytes (s : State) (site : Nat) (l : List (Nat × List Nat)) : List (Nat × Nat) :=
  l.flatMap fun w => (List.range w.2.length).map fun i => (sramBase site + w.1 + i, s.byte (sramBase site + w.1 + i))

/-- The writes of a descriptor into its tile SRAM. -/
def State.applyWrites (s : State) (site : Nat) (l : List (Nat × List Nat)) : State :=
  l.foldl (fun a w => a.store (sramBase site + w.1) w.2) s

/-- Bank, register and statistics values written. -/
def TileState.applyEff (t : TileState) (e : Eff) : TileState :=
  { t with
    banks := e.banks.foldl (fun m p => sset 0 m p.1 (p.2 % 2 ^ 36)) t.banks
    vregs := e.vregs.foldl (fun m p => sset 0 m p.1 (p.2 % 2 ^ 32)) t.vregs
    pregs := e.pregs.foldl (fun m p => sset 0 m p.1 (p.2 % 2 ^ 256)) t.pregs
    stats := (e.stats.foldl (fun m p => sput m p.1 p.2) (e.dropped.foldl (fun m p => sdel m p) t.stats)) }

/-- Sticky counters, sticky flags and values of the tile's page. -/
def State.applyRegs (s : State) (c : DCtx) (e : Eff) : State :=
  let s1 := ((s.bump c.site R.TIL_SAT_COUNT e.sat).bump c.site R.TIL_FTZ_COUNT e.ftz).bump c.site R.TIL_ESC_COUNT e.esc
  let s2 := s1.orReg c.site R.TIL_NUM_FLAGS (flagMask c.d e.nan e.inf e.rsvd e.scaleNaN)
  let s3 := e.adds.foldl (fun a p => a.bump c.site p.1 p.2) s2
  let s4 := e.ors.foldl (fun a p => a.orReg c.site p.1 p.2) s3
  let s5 := e.sets.foldl (fun a p => a.setReg c.site p.1 p.2) s4
  e.dropped.foldl (fun a n => (a.orReg c.site R.TIL_ROW_FLAGS 2).raise c.tile 7 n) s5

/-- SRAM lines whose check bits a descriptor reads (R82). -/
def Eff.lines (e : Eff) (site : Nat) : List Nat := regionLines site e.reads ++ partialLines site e.writes

/-- A line that a descriptor reads holds an uncorrectable error (R82), or an annex runs out of tile SRAM (R74). -/
def State.effFails (s : State) (c : DCtx) (e : Eff) : Bool := (e.lines c.site).any s.lineBad || e.overrun

/-- The effect of a descriptor of the tile's own units, and its record (R87, R89, R570). -/
def State.effDone (s : State) (c : DCtx) (e : Eff) : State :=
  let r := { mkRun c .done with
    merges := e.merges, undo := s.oldBytes c.site e.writes, undoBanks := e.banks.map (·.1),
    undoVregs := e.vregs.map (·.1), undoPregs := e.pregs.map (·.1), packed := e.packed }
  (((s.applyWrites c.site e.writes).modTile c.site fun t => t.applyEff e).applyRegs c e).addRun c.site r

/-- A descriptor of the tile's own units runs with its effect (R82, R87, R89, R570). -/
def State.runEff (s : State) (c : DCtx) (e : Eff) : State :=
  let rl := e.lines c.site
  match rl.find? s.lineBad with
  | some l => (s.ceOwnAll c.tile c.site (rl.takeWhile fun x => !s.lineBad x)).sramUe c l
  | none =>
    let s0 := s.ceOwnAll c.tile c.site rl
    if e.overrun then s0.annexStop c else s0.effDone c e

/-! ### Frozen skips (R226) -/

/-- Whether tensor t is frozen as a whole: its bit of the bitmap. -/
def State.frozenBitAddr (s : State) (site t : Nat) : Nat := s.reg64 site R.TIL_FROZEN_BASE_LO + t / 8

/-- A read failed, or the tensor is frozen or not. -/
inductive FrozenAns where
  | unreadable (poison : Option Nat)
  | yes
  | no
  deriving DecidableEq, Repr

/-- A structure of n bytes at a, read by a sequencer: none when it can be read, else the poisoned address if that is why. -/
def State.seqReadFails (s : State) (part a n : Nat) : Option (Option Nat) :=
  if s.maps part a n false = false then some none
  else if s.targetOff a then some none
  else if s.badAt (s.key (s.localAddr a)) n then some (some a) else none

/-- Whether the tensor a record names is frozen. -/
def State.frozenRec (s : State) (tile site i : Nat) : FrozenAns :=
  let part := s.tilePart tile
  let ra := s.trecAddr site i
  match s.seqReadFails part ra 64 with
  | some p => .unreadable p
  | none =>
    let t := s.recLe ra 0 4
    if 2 ^ 20 ≤ t then .no
    else
      let ba := s.frozenBitAddr site t
      match s.seqReadFails part ba 1 with
      | some p => .unreadable p
      | none => if bit (s.devLe ba 1) (t % 8) then .yes else .no

/-- Output formats whose record field names a tensor record (R116). -/
def namesRecord (fmt rec : Nat) : Bool := decide (fmt ≤ 6) && rec != 0xFFFF

/-- SKIP_FROZEN as a descriptor sees it (R226, R227). -/
def State.skipOn (s : State) (c : DCtx) : Bool :=
  match (s.tile c.site).skipLoose.find? fun e => e.1 == c.pos with
  | some e => Sys2Proof.Config.looseSkip e.2 c.pos
  | none => bit (s.reg c.site R.TIL_BWD_CTL) 0

/-- A bit of TIL_RND_CTL (R66) as a rounding of a descriptor sees it: open where the bit changed while the descriptor waited (R67). -/
def State.rndSr (s : State) (c : DCtx) (b chunk elem : Nat) : Bool :=
  let key := if c.parked then c.pos + 65536 else c.pos
  let e := sget (0, 0) (s.tile c.site).rndLoose key
  bit (s.reg c.site R.TIL_RND_CTL) b != (bit e.1 b && Sys2Proof.Config.looseRound e.2 key chunk elem)

/-- Whether a descriptor is skipped as frozen (R226). -/
def State.frozenSkip (s : State) (c : DCtx) : FrozenAns :=
  if dPhase c.d ≠ 3 ∨ s.skipOn c = false then .no
  else
    match dKind c.d with
    | 1 => let i := df c.d 52 15 0; if i = 0xFFFF then .no else s.frozenRec c.tile c.site i
    | 2 => let i := df c.d 52 15 0; if i = 0xFFFF then .no else s.frozenRec c.tile c.site i
    | 3 =>
      let i0 := df c.d 48 15 0
      let i1 := df c.d 50 15 0
      let f0 := df c.d 34 37 33
      let f1 := df c.d 39 37 33
      if bit (df c.d 23 7 0) 2 = false ∨ namesRecord f0 i0 = false then .no
      else
        match s.frozenRec c.tile c.site i0 with
        | .yes =>
          if bit (df c.d 23 7 0) 3 = false then .yes
          else if namesRecord f1 i1 = false then .no
          else s.frozenRec c.tile c.site i1
        | a => a
    | _ => .no

/-! ### The shared checks (R91) -/

/-- DEFER is valid for the kind and phase (R215). -/
def deferValid (d : Nat) : Bool := dPhase d == 3 && (dKind d == 1 || dKind d == 2 || dKind d == 3 || dKind d == 6)

/-- The descriptor goes to the deferred queue (R215, R216). -/
def State.deferActive (s : State) (c : DCtx) : Bool :=
  dDefer c.d && deferValid c.d && bit (s.reg c.site R.TIL_BWD_CTL) 1

/-- Reasons every kind shares: reserved kind, phase, DEFER, step range (R91, R95, R215, R465). -/
def State.commonReasons (s : State) (c : DCtx) : List Nat :=
  let ph := dPhase c.d
  let tag := dTag c.d
  rj (unitsOf (dKind c.d) == 0) rjKindRsvd ++ rj (decide (6 ≤ ph)) rjKindField ++
  rj (dDefer c.d && !deferValid c.d) rjKindField ++
  rj (ph != 0 && (s.pagePart pSTP != s.tilePart c.tile || !(tag == s.openStep || tag == s.nextStep))) rjStepRange

/-- Addresses of the tensor records with the given indices, 0xFFFF naming none. -/
def State.recAddrs (s : State) (c : DCtx) (l : List Nat) : List Nat :=
  (l.filter (· != 0xFFFF)).map (s.trecAddr c.site)

/-- ADDR_RANGE for a record that cannot be read (log entry 12). -/
def State.recReasons (s : State) (c : DCtx) (ra : List Nat) : List Nat :=
  rj (ra.any fun a => (s.seqReadFails (s.tilePart c.tile) a 64).isSome) rjAddrRange

/-- Poisoned records met by the check are reported by their controllers (R314). -/
def State.reportPoison (s : State) (c : DCtx) (ra : List Nat) : State :=
  ra.foldl (fun a x => match a.seqReadFails (a.tilePart c.tile) x 64 with
    | some (some p) => a.badLine p 0xFFFF (a.escalates c.d)
    | _ => a) s

/-- The lowest of a list of reasons. -/
def lowest : List Nat → Option Nat
  | [] => none
  | a :: r =>
    match lowest r with
    | none => some a
    | some b => some (min a b)

/-- What a kind's chapter gives for its descriptors: the records read, the further reasons, and the effect. -/
structure Meaning where
  recs : List Nat
  reasons : List Nat
  deriving DecidableEq, Repr

/-- The descriptor is checked and either rejected or run (R91). `mine` says which descriptors the command stands for. -/
def State.issueWith (s : State) (tile pos : Nat) (mine : Nat → Bool) (check : State → DCtx → Meaning)
    (run : State → DCtx → State) : State :=
  let c := s.ctxOf tile pos
  if isTile tile = false ∨ s.canIssue c.site pos = false ∨ mine c.d = false then s
  else if s.deferActive c = true ∧ (s.tile c.site).overflowed.contains pos = false ∧ s.frozenSkip c = .no then s
  else
    match s.frozenSkip c with
    | .yes => s
    | .unreadable p =>
      let s1 := match p with
        | some a => s.badLine a 0xFFFF false
        | none => s
      s1.reject tile c.site pos c.d ((lowest (rjAddrRange :: s.commonReasons c)).getD rjAddrRange) ⟨pos, false, false⟩
    | .no =>
      let m := check s c
      let ra := s.recAddrs c m.recs
      if ra.any s.targetWaits then s
      else
        match lowest (s.commonReasons c ++ m.reasons ++ s.recReasons c ra) with
        | some r => (s.reportPoison c ra).reject tile c.site pos c.d r ⟨pos, false, false⟩
        | none => run s c

end Sys2Proof.Machine
end

