-- ==== Sys2Proof/Machine/Operands.lean ====
section
/-! DEFINITION. Machine/Operands.lean: every operand form of the tile's units: rows of elements in every format with their
scale planes and annexes (R28, R29, R32, R96, R125), per-tensor scales (R41, R54, R94, R97), and output rows with the
conversion, its counts and its merge (R42 to R46, R54). -/
namespace Sys2Proof.Machine

/-- A reader of tile SRAM bytes by address. -/
def State.rd (s : State) (site a : Nat) : Nat := s.byte (sramBase site + a)

/-- Bytes of n elements of a format's code plane. -/
def codeBytes (f : Fmt) (n : Nat) : Nat := if f = .p4x then 20 * ((n + 31) / 32) else (n * f.width + 7) / 8

/-- Scale bytes of n elements. -/
def scaleBytes (f : Fmt) (n : Nat) : Nat := if f.hasScalePlane then (n + f.block - 1) / f.block else 0

/-- The code bytes of one block or group (R96); 1 for a format without blocks. -/
def blkBytes (f : Fmt) : Nat := if f.isBlock then f.blockBytes else 1

/-- The elements of one row of n: values, annex entries used so far, and what decoding noticed. -/
structure RowVals where
  vals : List Fp
  annex : Nat
  ev : DecEv

/-- Blocks of a P4X row one after another, annex entries consumed in order (R32, R74). -/
def readP4xBlocks (rd : Nat → Nat) (a aux : Nat) : Nat → Nat → RowVals
  | 0, ax => ⟨[], ax, {}⟩
  | k + 1, ax =>
    let (vs, n, ev) := decodeP4x (fun i => rd (a + i)) (fun i => rd (aux + 2 * i) + 256 * rd (aux + 2 * i + 1)) ax
    let r := readP4xBlocks rd (a + 20) aux k (ax + n)
    ⟨vs ++ r.vals, r.annex, ev.join r.ev⟩

/-- One row of n elements at byte a, with its scale bytes or annex at aux. -/
def readRow (rd : Nat → Nat) (f : Fmt) (a aux n ax : Nat) : RowVals :=
  if f = .p4x then
    let r := readP4xBlocks rd a aux ((n + 31) / 32) ax
    ⟨r.vals.take n, r.annex, r.ev⟩
  else if f = .t2 then
    let es := (List.range n).map fun i => decodeT2 (getCode rd a 2 i) (rd (aux + i / 64))
    ⟨es.map (·.1), ax,
      ⟨es.any (·.2), (List.range ((n + 63) / 64)).any fun b => (decodeFp fE4M3 (rd (aux + b))).isNaN, 0⟩⟩
  else if f.hasScalePlane then
    ⟨(List.range n).map fun i => decodeMx f (getCode rd a f.width i) (rd (aux + i / 32)), ax,
      ⟨false, (List.range ((n + 31) / 32)).any fun b => rd (aux + b) == 0xFF, 0⟩⟩
  else ⟨(List.range n).map fun i => decodePlain f (getCode rd a f.width i), ax, {}⟩

/-- An operand stored as rows: format, code base, auxiliary base and row stride in bytes, rows and columns as stored. -/
structure MatSrc where
  fmt : Fmt
  base : Nat
  aux : Nat
  stride : Nat
  rows : Nat
  cols : Nat
  deriving DecidableEq, Repr

/-- Stride of the scale plane (R96). -/
def MatSrc.auxStride (m : MatSrc) : Nat := m.stride / blkBytes m.fmt

/-- Rows of a stored operand from row r on. -/
def readRows (rd : Nat → Nat) (m : MatSrc) : Nat → Nat → Nat → List (List Fp) × Nat × DecEv
  | 0, _, ax => ([], ax, {})
  | k + 1, r, ax =>
    let aux := if m.fmt = .p4x then m.aux else m.aux + r * m.auxStride
    let v := readRow rd m.fmt (m.base + r * m.stride) aux m.cols ax
    let (rest, ax', ev) := readRows rd m k (r + 1) v.annex
    (v.vals :: rest, ax', v.ev.join ev)

/-- The rows of a stored operand, the annex entries it used, and what decoding noticed. -/
def MatSrc.read (m : MatSrc) (rd : Nat → Nat) : List (List Fp) × Nat × DecEv := readRows rd m m.rows 0 0

/-- Regions of tile SRAM a stored operand covers, its annex apart. -/
def MatSrc.regions (m : MatSrc) : List (Nat × Nat) :=
  (List.range m.rows).flatMap fun r =>
    (m.base + r * m.stride, codeBytes m.fmt m.cols) ::
    (if m.fmt.hasScalePlane then [(m.aux + r * m.auxStride, scaleBytes m.fmt m.cols)] else [])

/-- A stored operand leaves tile SRAM. -/
def MatSrc.outside (m : MatSrc) : Bool := m.regions.any fun r => Sys2Proof.Machine.outside r.1 r.2

/-- The annex entries run past the end of tile SRAM (R74). -/
def annexOver (aux used : Nat) : Bool := used != 0 && decide (sramSize < aux + 2 * used)

/-- Element (r, c) of a list of rows. -/
def at2 (l : List (List Fp)) (r c : Nat) : Fp := (l.getD r []).getD c Fp.zero

/-- Rows and columns exchanged. -/
def transpose (l : List (List Fp)) (cols : Nat) : List (List Fp) :=
  (List.range cols).map fun c => l.map fun row => row.getD c Fp.zero

/-! ### Scales -/

/-- Whether a per-tensor scale applies to a format with its SCL bit (R97). -/
def scaleApplies (f : Fmt) (scl : Bool) : Bool := f.isScaled || (f.isFloat && scl)

/-- The reciprocal scale of an operand, none where no scale applies. -/
def State.rscaleOf (s : State) (c : DCtx) (f : Fmt) (scl : Bool) (rec : Nat) : Option Fp :=
  if scaleApplies f scl && rec != 0xFFFF then some (fp32 (s.recScale (s.trecAddr c.site rec) (s.useStaged c.d)).2) else none

/-- The scale of an output, 1 where none applies. -/
def State.scaleFor (s : State) (c : DCtx) (f : Fmt) (scl : Bool) (rec : Nat) : Option Fp :=
  if scaleApplies f scl && rec != 0xFFFF then some (fp32 (s.recScale (s.trecAddr c.site rec) (s.useStaged c.d)).1) else none

def optNaN (x : Option Fp) : Bool :=
  match x with
  | some v => v.isNaN
  | none => false

/-- FMT_SCALE: a scale that applies without a record (R97). -/
def needsRec (f : Option Fmt) (scl : Bool) (rec : Nat) : Bool :=
  match f with
  | some x => scaleApplies x scl && rec == 0xFFFF
  | none => false

/-! ### Outputs -/

/-- What a conversion of output values showed. -/
structure OutEv where
  sat : Nat := 0
  ftz : Nat := 0
  amax : Fp := Fp.zero
  nan : Bool := false
  inf : Bool := false
  nz : Bool := false
  deriving DecidableEq, Repr

def OutEv.join (a b : OutEv) : OutEv :=
  ⟨a.sat + b.sat, a.ftz + b.ftz, maxIgnNaN a.amax b.amax, a.nan || b.nan, a.inf || b.inf, a.nz || b.nz⟩

/-- What the values show before conversion (R54, R65). -/
def evOf (l : List Fp) : OutEv :=
  { amax := l.foldl (fun m v => maxIgnNaN m v.abs) Fp.zero, nan := l.any Fp.isNaN, inf := l.any Fp.isInf }

/-- What an output row shows: its conversions' counts, and the values written, read back (R54, R65, R298). -/
def OutEv.written (e : OutEv) (cs : List ConvEv) (back : List Fp) : OutEv :=
  { e with sat := sumNat (cs.map (·.sat)), ftz := sumNat (cs.map (·.ftz)), nan := e.nan || back.any Fp.isNaN
           inf := e.inf || back.any Fp.isInf, nz := back.any fun v => !v.isZero }

/-- One output row: its code bytes, its scale bytes, and what the conversion showed. `tail` is the byte under the last code
byte (R79, R28), `rnd` the rounding of element i, `sc` the per-tensor scale. -/
def writeRow (f : Fmt) (rnd : Nat → Rnd) (sc : Option Fp) (l : List Fp) (tail : Nat) : List Nat × List Nat × OutEv :=
  let e0 := evOf l
  let xs := match sc with
    | some v => l.map fun x => x.mul v
    | none => l
  if f = .p4x then
    let bs := (chunksOf 32 xs.length xs).zipIdx.map fun (b, k) => encodeP4x (fun i => rnd (32 * k + i)) b
    (bs.flatMap (·.1), [], e0.written (bs.map (·.2)) (bs.flatMap fun b => (decodeP4x (fun i => b.1.getD i 0) (fun _ => 0) 0).1))
  else if f = .t2 then
    let bs := (chunksOf 64 xs.length xs).zipIdx.map fun (b, k) => encodeT2 (fun i => rnd (64 * k + i)) b
    (packCodes 2 (bs.flatMap (·.1)) tail, bs.map (·.2.1),
      e0.written (bs.map (·.2.2)) (bs.flatMap fun b => b.1.map fun c => (decodeT2 c b.2.1).1))
  else if f.hasScalePlane then
    let bs := (chunksOf 32 xs.length xs).zipIdx.map fun (b, k) => encodeMx f (fun i => rnd (32 * k + i)) b
    (packCodes f.width (bs.flatMap (·.1)) tail, bs.map (·.2.1),
      e0.written (bs.map (·.2.2)) (bs.flatMap fun b => b.1.map fun c => decodeMx f c b.2.1))
  else
    let cs := xs.zipIdx.map fun (x, i) => encodePlain f (rnd i) x
    (packCodes f.width (cs.map (·.1)) tail, [], e0.written (cs.map (·.2)) (cs.map fun c => decodePlain f c.1))

/-- The largest magnitude as an FP32 word (R54; log entry 16). -/
def amaxBits (v : Fp) : Nat := encodeFp fFP32 (convFp fFP32 .rne v).1

/-- The merge of an output into record i, none where it names none (R54, R97). -/
def State.mergeOf (s : State) (c : DCtx) (i : Nat) (e : OutEv) : List Merge :=
  if i = 0xFFFF then [] else
    [⟨s.trecAddr c.site i, amaxBits e.amax, e.sat, e.ftz, e.nan, e.inf, e.nz⟩]

/-- The random-word key of a descriptor for a rounding site, chunk and tensor (R49). -/
def State.srKey (s : State) (c : DCtx) (site chunk tensor : Nat) : SrKey := ⟨s.step.seed, site, chunk, tensor, dTag c.d⟩

end Sys2Proof.Machine
end

