-- ==== Sys2Proof/Machine/Mma.lean ====
section
/-! DEFINITION. Machine/Mma.lean: the matrix array (R37 to R41, R69 to R79) and the MMA descriptor (R96 to R98). The sum over
K, its chunks and the drain are shared with CONV. -/
namespace Sys2Proof.Machine

/-! ### Sums over K (R37 to R39, R76) -/

/-- One product (R37): exact in W36, or rounded once to W36 for FP32 (split). -/
def arrayProd (split : Bool) (a b : Fp) : Fp := if split then w36Mul a b else a.mul b

/-- Groups of 32 consecutive K indices from k, each summed by the tree and added to the accumulator (R38). -/
def sumGroups (prod : Nat → Fp) (stop : Nat) : Nat → Nat → Fp → Fp
  | 0, _, acc => acc
  | g + 1, k, acc =>
    let terms := (List.range 32).map fun i => if k + i < stop then prod (k + i) else Fp.zero
    sumGroups prod stop g (k + 32) (w36Add acc (w36Tree 5 terms))

/-- What the array leaves for one element: its value, the counts of its spills, the last value spilled, and whether a spill
showed a NaN or an infinity. -/
structure AccOut where
  acc : Fp
  ev : ConvEv
  spilled : Option Nat
  deriving DecidableEq, Repr

/-- Chunks j, j + 1, … of one element (R76): each ends in a spill but the last. -/
def accChunks (prod : Nat → Fp) (k kchunk : Nat) (spill : Nat → Rnd) : Nat → Nat → AccOut → AccOut
  | 0, _, o => o
  | f + 1, j, o =>
    let stop := min k ((j + 1) * kchunk)
    let acc := sumGroups prod stop ((stop - j * kchunk + 31) / 32) (j * kchunk) o.acc
    if f = 0 then { o with acc := acc }
    else
      let (v, ev) := convFp fFP32 (spill j) acc
      accChunks prod k kchunk spill f (j + 1) ⟨v, o.ev.add ev, some (encodeFp fFP32 v)⟩

/-- One element's whole sum over K. -/
def accElem (prod : Nat → Fp) (k kchunk : Nat) (spill : Nat → Rnd) (acc0 : Fp) : AccOut :=
  accChunks prod k kchunk spill ((k + kchunk - 1) / kchunk) 0 ⟨acc0, {}, none⟩

/-- The rounding of a spill (R39, R48). -/
def State.spillRnd (s : State) (c : DCtx) (tensor elem chunk0 j : Nat) : Rnd :=
  if s.rndSr c 0 (chunk0 + j) elem then .sr (srWord (s.srKey c 0 (chunk0 + j) tensor) elem) else .rne

/-- The accumulator before the sum (R75). -/
def State.bank0 (s : State) (c : DCtx) (acc : Bool) (bank row col : Nat) : Fp :=
  if acc then decodeFp fW36 (sget 0 (s.tile c.site).banks (bank * 8192 + row * 128 + col)) else Fp.zero

/-- The spill area of a bank (R76). -/
def State.spillBase (s : State) (site bank : Nat) : Nat := s.fld site R.TIL_SPILL_BASE 21 16 * 0x10000 + bank * 0x8000

/-- The region spilled by an M × N region of a bank. -/
def State.spillWrites (s : State) (c : DCtx) (bank : Nat) (outs : List (List AccOut)) : List (Nat × List Nat) :=
  if outs.any (fun r => r.any fun o => o.spilled.isSome) then
    outs.zipIdx.map fun (r, m) => (s.spillBase c.site bank + m * 512, r.flatMap fun o => leBytes (o.spilled.getD 0) 4)
  else []

/-- Bank elements written by an M × N region. -/
def bankWrites (bank : Nat) (outs : List (List AccOut)) : List (Nat × Nat) :=
  outs.zipIdx.flatMap fun (r, m) => r.zipIdx.map fun (o, n) => (bank * 8192 + m * 128 + n, encodeFp fW36 o.acc)

/-- The product of the reciprocal scales of the two operands (R41). -/
def rscaleProd (a b : Option Fp) : Option Fp :=
  match a, b with
  | some x, some y => some (x.mul y)
  | some x, none => some x
  | none, y => y

/-- Input scales on a drained element (R41). -/
def applyRs (r : Option Fp) (v : Fp) : Fp :=
  match r with
  | some x => roundFp fW36 (v.mul x)
  | none => v

/-- Where and how a drain writes: format, rounding code, scale, base and row stride in bytes, scale plane and its stride. -/
structure Drain where
  fmt : Fmt
  rnd : Nat
  scale : Option Fp
  key : SrKey
  addr : Nat → Nat
  aux : Nat → Nat
  elem : Nat → Nat → Nat

/-- The drain of rows of values (R79): writes and what the conversion showed. -/
def drainRows (rd : Nat → Nat) (w : Drain) (rows : List (List Fp)) : List (Nat × List Nat) × OutEv :=
  let rs := rows.zipIdx.map fun (l, m) =>
    let a := w.addr m
    let (cb, sb, ev) := writeRow w.fmt (fun i => rndOf w.rnd w.key (w.elem m i)) w.scale l
      (rd (a + codeBytes w.fmt l.length - 1))
    ([(a, cb)] ++ (if sb = [] then [] else [(w.aux m, sb)]), ev)
  (rs.flatMap (·.1), rs.foldl (fun e p => e.join p.2) {})

/-- Spill conversions of a region counted together. -/
def spillEv (outs : List (List AccOut)) : ConvEv := outs.foldl (fun e r => r.foldl (fun f o => f.add o.ev) e) {}

/-! ### The MMA body (R96) -/

def mmaM (d : Nat) : Nat := df d 16 5 0 + 1
def mmaN (d : Nat) : Nat := df d 16 12 6 + 1
def mmaKchunk (d : Nat) : Nat := (df d 16 21 13 + 1) * 32
def mmaK (d : Nat) : Nat := df d 20 15 0 + 1
def mmaChunk0 (d : Nat) : Nat := df d 20 31 16
def mmaFmtA (d : Nat) : Option Fmt := Fmt.ofCode (df d 24 4 0)
def mmaFmtB (d : Nat) : Option Fmt := Fmt.ofCode (df d 24 9 5)
def mmaFmtC (d : Nat) : Option Fmt := Fmt.ofCode (df d 24 14 10)
def mmaRnd (d : Nat) : Nat := df d 24 16 15
def mmaTransA (d : Nat) : Bool := df d 24 17 17 == 1
def mmaTransB (d : Nat) : Bool := df d 24 18 18 == 1
def mmaBank (d : Nat) : Nat := df d 24 19 19
def mmaAcc (d : Nat) : Bool := df d 24 20 20 == 1
def mmaOut (d : Nat) : Nat := df d 24 22 21
def mmaScl (d i : Nat) : Bool := df d 24 (23 + i) (23 + i) == 1
def mmaOrigin (d : Nat) : Nat := df d 54 41 0
def mmaPitch (d : Nat) : Nat := df d 60 31 0
def mmaRec (d i : Nat) : Nat := df d (48 + 2 * i) 15 0

/-- Operand A as stored: M × K, or K × M when transposed. -/
def mmaA (d : Nat) (f : Fmt) : MatSrc :=
  let t := mmaTransA d
  ⟨f, df d 28 16 0 * 32, df d 28 33 17 * 32, df d 28 49 34 * 32, if t then mmaK d else mmaM d, if t then mmaM d else mmaK d⟩

/-- Operand B as stored: K × N, or N × K when transposed. -/
def mmaB (d : Nat) (f : Fmt) : MatSrc :=
  let t := mmaTransB d
  ⟨f, df d 36 16 0 * 32, df d 36 33 17 * 32, df d 36 49 34 * 32, if t then mmaN d else mmaK d, if t then mmaK d else mmaN d⟩

def mmaCaddr (d m : Nat) : Nat := df d 44 15 0 * 64 + m * (df d 44 31 16 * 64)

/-- R72, R73 and whole blocks in a stride, for one operand. -/
def badOperand (f : Fmt) (blocksAlongK : Bool) (k stride : Nat) : Bool :=
  f.isBlock && (!blocksAlongK || k % f.block != 0 || stride % blkBytes f != 0)

/-- The checks of R70, R72, R73, R91, R96 and R97. -/
def mmaReasons (d : Nat) : List Nat :=
  let st := mmaOut d == 1
  rj (decide (2 ≤ mmaOut d)) rjKindField ++
  rj ((mmaFmtA d).isNone || (mmaFmtB d).isNone || (st && (mmaFmtC d).isNone)) rjFmtRsvd ++
  rj (st && mmaRnd d == 3) rjRndRsvd ++
  rj (needsRec (mmaFmtA d) (mmaScl d 0) (mmaRec d 0) || needsRec (mmaFmtB d) (mmaScl d 1) (mmaRec d 1) ||
    (st && needsRec (mmaFmtC d) (mmaScl d 2) (mmaRec d 2))) rjFmtScale ++
  (match mmaFmtA d, mmaFmtB d with
   | some a, some b =>
     rj (a == .t2 || (a == .fp32) != (b == .fp32) || a.isInt || b.isInt) rjFmtRole ++
     rj (badOperand a (!mmaTransA d) (mmaK d) (mmaA d a).stride || badOperand b (mmaTransB d) (mmaK d) (mmaB d b).stride)
       rjBadLayout ++
     rj ((mmaA d a).outside || (mmaB d b).outside) rjAddrRange
   | _, _ => []) ++
  (if st then
    match mmaFmtC d with
    | some f =>
      rj f.isInt rjFmtRole ++
      rj (f.isBlock && (mmaN d % f.block != 0 || df d 44 31 16 * 64 % blkBytes f != 0)) rjBadLayout ++
      rj ((List.range (mmaM d)).any fun m => outside (mmaCaddr d m) (codeBytes f (mmaN d))) rjAddrRange
    | none => []
   else [])

/-- Tensor records an MMA reads (R97). -/
def mmaRecs (d : Nat) : List Nat :=
  let u := fun (f : Option Fmt) i => match f with
    | some x => if scaleApplies x (mmaScl d i) then [mmaRec d i] else []
    | none => []
  u (mmaFmtA d) 0 ++ u (mmaFmtB d) 1 ++ [mmaRec d 2]

/-- What an MMA does (R75, R76, R79, R96 to R98). -/
def mmaEff (s : State) (c : DCtx) : Eff :=
  let d := c.d
  match mmaFmtA d, mmaFmtB d with
  | some fa, some fb =>
    let ma := mmaA d fa
    let mb := mmaB d fb
    let (ra, na, ea) := ma.read (s.rd c.site)
    let (rb, nb, eb) := mb.read (s.rd c.site)
    let a := if mmaTransA d then transpose ra (mmaM d) else ra
    let bt := if mmaTransB d then rb else transpose rb (mmaN d)
    let tensor := s.tensorId c.site (mmaRec d 2)
    let elem := fun m n => mmaOrigin d + m * mmaPitch d + n
    let split := fa == .fp32
    let outs := a.zipIdx.map fun (row, m) => bt.zipIdx.map fun (col, n) =>
      accElem (fun k => arrayProd split (row.getD k Fp.zero) (col.getD k Fp.zero)) (mmaK d) (mmaKchunk d)
        (fun j => s.spillRnd c tensor (elem m n) (mmaChunk0 d) j) (s.bank0 c (mmaAcc d) (mmaBank d) m n)
    let sp := spillEv outs
    let rsA := s.rscaleOf c fa (mmaScl d 0) (mmaRec d 0)
    let rsB := s.rscaleOf c fb (mmaScl d 1) (mmaRec d 1)
    let base : Eff :=
      { reads := ma.regions ++ mb.regions ++ (if na = 0 then [] else [(ma.aux, 2 * na)]) ++
          (if nb = 0 then [] else [(mb.aux, 2 * nb)])
        writes := s.spillWrites c (mmaBank d) outs
        banks := bankWrites (mmaBank d) outs
        sat := sp.sat, ftz := sp.ftz, esc := ea.annex + eb.annex
        nan := outs.any fun r => r.any fun o => o.acc.isNaN
        inf := outs.any fun r => r.any fun o => o.acc.isInf
        rsvd := ea.rsvd || eb.rsvd
        scaleNaN := ea.scaleNaN || eb.scaleNaN || optNaN rsA || optNaN rsB
        overrun := annexOver ma.aux na || annexOver mb.aux nb }
    if mmaOut d = 1 then
      match mmaFmtC d with
      | some fc =>
        let rs := rscaleProd rsA rsB
        let sc := s.scaleFor c fc (mmaScl d 2) (mmaRec d 2)
        let cstride := df d 44 31 16 * 64
        let w : Drain := ⟨fc, mmaRnd d, sc, s.srKey c 3 0 tensor, mmaCaddr d,
          fun m => (Sys2Proof.Config.scalePlane d + m * (cstride / blkBytes fc)) % (sramSize - 64), elem⟩
        let (ws, ev) := drainRows (s.rd c.site) w (outs.map fun r => r.map fun o => applyRs rs o.acc)
        { base with
          writes := base.writes ++ ws, sat := ev.sat + sp.sat, ftz := ev.ftz + sp.ftz, nan := base.nan || ev.nan, inf := base.inf || ev.inf
          scaleNaN := base.scaleNaN || optNaN sc, merges := s.mergeOf c (mmaRec d 2) ev }
      | none => base
    else base
  | _, _ => {}

def mmaCheck (_ : State) (c : DCtx) : Meaning := ⟨mmaRecs c.d, mmaReasons c.d⟩

def mmaRun (s : State) (c : DCtx) : State := s.runEff c (mmaEff s c)

/-- MMA (R96): the descriptor at a queue count issues. A descriptor of a reserved kind meets its rejection here too. -/
def execMma (tile pos : Nat) (s : State) : Host.Outcome State Fault Refusal :=
  .next (s.issueWith tile pos (fun d => dKind d == 1 || unitsOf (dKind d) == 0) mmaCheck mmaRun)

end Sys2Proof.Machine
end

