-- ==== Sys2Proof/Machine/Vector.lean ====
section
/-! DEFINITION. Machine/Vector.lean: the vector engine (R110 to R131, R223, R228), the VCH descriptor, and the activation
tables (R132 to R136). -/
namespace Sys2Proof.Machine

/-! ### Activation tables (R132 to R136) -/

/-- Bytes of a table image. -/
def actBytes : Nat := 8320

/-- Byte `off` of ROM image k: VERSION 1, EMIN −8, the rest free (log entry 15). -/
def romImage (k off : Nat) : Nat :=
  if off = 0 then 1 else if off = 1 then 0xF8 else if 4 + 8 ≤ off ∧ off < 0x3C then 0 else Sys2Proof.Config.romByte k off % 256

/-- Byte `off` of the image in a slot; after a domain's turn-on slot k holds ROM image k (R135). -/
def TileState.actByte (t : TileState) (slot off : Nat) : Nat :=
  match sget none (t.acts.map fun p => (p.1, some p.2)) slot with
  | some a => a.image.getD off 0
  | none => romImage slot off

/-- A slot is valid. -/
def TileState.actValid (t : TileState) (slot : Nat) : Bool :=
  match sget none (t.acts.map fun p => (p.1, some p.2)) slot with
  | some a => a.valid
  | none => true

/-- The cubic of a segment, Horner's steps rounded (R134). -/
def cubic (c : Nat → Fp) (t : Fp) : Fp := f32Fma (f32Fma (f32Fma (c 3) t (c 2)) t (c 1)) t (c 0)

/-- A table evaluated at an FP32 input (R134). -/
def actEval (img : Nat → Nat) (x : Nat) : Nat :=
  let word := fun o => leNat ((List.range 4).map fun i => img (o + i))
  match fp32 x with
  | .nan => quietNaN
  | .inf s => encodeFp fFP32 (fp32 (word (if s then 8 else 4)))
  | .fin s m e =>
    let emin := sext (img 1) 8
    let seg := fun n k => fp32 (word (0x40 + 16 * n + 4 * k))
    let v := Fp.fin s m e
    if v.abs.lt (.fin false 1 emin) then encodeFp fFP32 (cubic (seg (512 + b2n s)) v)
    else if v.abs.lt (.fin false 1 (emin + 16)) then
      let ex : Int := (bits x 30 23 : Int) - 127
      let n := 256 * b2n s + 16 * (ex - emin).toNat + bits x 22 19
      encodeFp fFP32 (cubic (seg n) (.fin false (x % 2 ^ 19) (-19)))
    else encodeFp fFP32 (cubic (seg (514 + b2n s)) v)

/-- One bit of a reflected CRC-32 (R133). -/
def crc32Bit : Nat → Nat → Nat
  | 0, c => c
  | n + 1, c => crc32Bit n (if c % 2 = 1 then c / 2 ^^^ 0xEDB88320 else c / 2)

/-- CRC-32 with the IEEE 802.3 settings (R133). -/
def crc32 (l : List Nat) : Nat := l.foldl (fun c b => crc32Bit 8 (c ^^^ b % 256)) 0xFFFFFFFF ^^^ 0xFFFFFFFF

/-- VERSION, EMIN and CRC of an image are in order (R136). -/
def imageGood (img : List Nat) : Bool :=
  let emin := sext (img.getD 1 0) 8
  img.getD 0 0 == 1 && decide (-126 ≤ emin) && decide (emin ≤ 112) &&
  leNat ((img.drop 0x3C).take 4) == crc32 (img.take 0x3C ++ img.drop 0x40)

/-- A VCH is running in a tile. -/
def State.vchRunning (s : State) (site : Nat) : Bool := (s.tile site).running.any fun r => dKind r.desc == 3

/-- ACT_LOAD (R136): a write of TIL_ACT_LOAD. Its fields are stored; GO starts a load unless one is in progress. -/
def actLoadWrite (tile v : Nat) (s : State) : State :=
  let site := s.siteOf tile
  if bit v 31 ∧ (s.tile site).actLoad.isSome = true then s
  else
    let s1 := s.setReg site R.TIL_ACT_LOAD (v % 2 ^ 25)
    if bit v 31 then s1.modTile site fun t => { t with actLoad := some (bits v 19 16, v % 2 ^ 25) } else s1

def execActLoad (src : Src) (tile value : Nat) (s : State) : Host.Outcome State Fault Refusal :=
  .next (if isTile tile then s.onWrite src tile R.TIL_ACT_LOAD (actLoadWrite tile value) else s)

/-- The slot after a load. -/
def State.putSlot (s : State) (site slot : Nat) (a : ActSlot) : State :=
  s.modTile site fun t => { t with actLoad := none, acts := sput t.acts slot a }

/-- The load fails its checks: LAST_BAD and ACT_TBL_BAD. -/
def State.actBad (s : State) (tile site slot : Nat) (img : List Nat) : State :=
  let s1 := (s.putSlot site slot ⟨false, img⟩).orReg site R.TIL_ACT_STS (2 ^ 17)
  s1.raise tile 6 slot (leNat ((img.drop 2).take 2))

/-- ACT_LOAD_DONE (R136): with no VCH running, the load in progress completes. -/
def actLoadFinish (tile : Nat) (s : State) : State :=
  let site := s.siteOf tile
  match (s.tile site).actLoad with
  | none => s
  | some (slot, v) =>
    if s.live = false ∨ s.siteOn site = false ∨ s.vchRunning site = true then s
    else if bit v 24 then
      let rom := bits v 23 20
      (s.putSlot site slot ⟨true, (List.range actBytes).map (romImage rom)⟩).setFld site R.TIL_ACT_STS 17 17 0
    else
      let a := v % 2 ^ 16 * 64
      let img := s.bytes (sramBase site + a) actBytes
      if outside a actBytes then s.actBad tile site slot (List.replicate actBytes 0)
      else
        let ls := regionLines site [(a, actBytes)]
        let s1 := s.ceOwnAll tile site (ls.filter fun l => !s.lineBad l)
        match ls.find? s.lineBad with
        | some l => ((s1.orReg site R.TIL_SRAM_STS 2).raise tile 5 (l * 64 - sramBase site) 0xFFFF).actBad tile site slot img
        | none =>
          if imageGood img then (s1.putSlot site slot ⟨true, img⟩).setFld site R.TIL_ACT_STS 17 17 0
          else s1.actBad tile site slot img

def execActLoadDone (tile : Nat) (s : State) : Host.Outcome State Fault Refusal :=
  .next (if isTile tile then actLoadFinish tile s else s)

/-! ### The VCH body (R116) -/

def vcRows (d : Nat) : Nat := df d 18 15 0 + 1
def vcVl (d : Nat) : Nat := df d 20 8 0
/-- ESZ = 16. -/
def vcHalf (d : Nat) : Bool := df d 20 9 9 == 1
def vcAccEn (d : Nat) : Bool := df d 20 10 10 == 1
def vcBank (d : Nat) : Nat := df d 20 11 11
def vcRow0 (d : Nat) : Nat := df d 22 5 0
/-- Stream i enabled: 0 S0, 1 S1, 2 O0, 3 O1. -/
def vcEn (d i : Nat) : Bool := bit (df d 23 7 0) i
def vcScl (d i : Nat) : Bool := bit (df d 23 7 0) (4 + i)
def vcBase (d i : Nat) : Nat := df d (24 + 5 * i) 16 0 * 32
def vcStride (d i : Nat) : Nat := df d (24 + 5 * i) 32 17 * 32
def vcFmt (d i : Nat) : Option Fmt := Fmt.ofCode (df d (24 + 5 * i) 37 33)
def vcRnd (d i : Nat) : Nat := df d (24 + 5 * i) 39 38
def vcRec (d i : Nat) : Nat := df d (44 + 2 * i) 15 0
def vcOrigin (d : Nat) : Nat := df d 52 41 0
def vcPitch (d : Nat) : Nat := df d 58 31 0
def vcPack (d : Nat) : Bool := df d 62 0 0 == 1
def vcPackReg (d : Nat) : Nat := df d 62 5 1
def vcUnpack (d : Nat) : Bool := df d 62 6 6 == 1
def vcUpred (d : Nat) : Nat := df d 63 2 0
/-- Element width. -/
def vcW (d : Nat) : Nat := if vcHalf d then 16 else 32
def vcChain (d : Nat) : Nat := df d 16 15 0 * 64

/-- S0 read unpacked, or O0 written packed: a flat array. -/
def vcFlat (d i : Nat) : Bool := (i == 0 && vcUnpack d) || (i == 2 && vcPack d)

/-! ### Stage words (R117 to R120) -/

def sgOp (w : Nat) : Nat := w % 256
/-- SRC_A, SRC_B, SRC_C. -/
def sgSrc (w i : Nat) : Nat := bits w (13 + 6 * i) (8 + 6 * i)
def sgDst (w : Nat) : Nat := bits w 31 26
def sgPsel (w : Nat) : Nat := bits w 34 32
def sgPen (w : Nat) : Bool := bit w 35
def sgPinv (w : Nat) : Bool := bit w 36
def sgPzero (w : Nat) : Bool := bit w 37
def sgOut (w i : Nat) : Bool := bit w (38 + i)
def sgSub (w : Nat) : Nat := bits w 47 40
def sgImm (w : Nat) : Nat := bits w 63 48

/-- The stages of a chain: up to the first END. -/
def chainStages (rec : List Nat) : List Nat := rec.takeWhile fun w => sgOp w != 0

/-- The chain record's stage words (R117). -/
def State.chainOf (s : State) (c : DCtx) : List Nat :=
  chainStages ((List.range 8).map fun k => s.le (sramBase c.site + vcChain c.d + 8 * k) 8)

/-- The combining operator of SCAN and REDUCE is a floating-point one. -/
def scanFloat (w : Nat) : Bool := bits (sgSub w) 3 2 != 3

/-- An operation whose operands or result are floating-point. -/
def isFpOp (w : Nat) : Bool :=
  (decide (1 ≤ sgOp w) && decide (sgOp w ≤ 0x17) && sgOp w != 0x14 && sgOp w != 0x15) ||
  ((sgOp w == 0x30 || sgOp w == 0x31) && scanFloat w)

/-- A floating-point result: its NaN and infinities set flags (R124). -/
def fpResult (w : Nat) : Bool := isFpOp w && sgOp w != 0x13 && sgOp w != 0x17

def opReserved (o : Nat) : Bool :=
  (decide (0x18 ≤ o) && decide (o ≤ 0x1F)) || (decide (0x2C ≤ o) && decide (o ≤ 0x2F)) || decide (0x39 ≤ o)

/-- Operands an operation uses: a, b, c. -/
def usesSrc (w i : Nat) : Bool :=
  let o := sgOp w
  match i with
  | 0 => true
  | 1 => [0x01, 0x02, 0x03, 0x04, 0x05, 0x09, 0x0A, 0x0D, 0x12, 0x13, 0x14, 0x30, 0x32, 0x33, 0x36, 0x37].contains o ||
      (decide (0x20 ≤ o) && decide (o ≤ 0x2B))
  | _ => [0x04, 0x0D, 0x14, 0x33, 0x37].contains o || (o == 0x30 && bit (sgSub w) 1)

/-- A source code that stage k may not use. -/
def badSrc (d k code : Nat) : Bool :=
  (decide (0x20 ≤ code) && decide (code ≤ 0x27) && decide (k ≤ code - 0x20)) ||
  (code == 0x28 && !vcEn d 0) || (code == 0x29 && !vcEn d 1) || (code == 0x2A && !vcAccEn d) || decide (0x2F ≤ code)

/-- A stage that R120 rejects. -/
def badStage (t : TileState) (d k w : Nat) : Bool :=
  opReserved (sgOp w) || (List.range 3).any (fun i => usesSrc w i && badSrc d k (sgSrc w i)) ||
  decide (0x29 ≤ sgDst w) || (vcHalf d && isFpOp w) ||
  ((sgOp w == 0x11 || sgOp w == 0x12) && !t.actValid (sgSub w % 16)) ||
  (sgOp w == 0x13 && sgSub w % 8 == 7) || (sgOp w == 0x2B && decide (6 ≤ sgSub w % 8))

/-! ### Stage operations (R122 to R131) -/

def el (l : List Nat) (i : Nat) : Nat := l.getD i 0

/-- Comparison ⊙ of SUB[2:0] on two values; 6 is UNORD. -/
def cmpCode (sub : Nat) (lt eq unord : Bool) : Bool :=
  match sub % 8 with
  | 0 => eq | 1 => !eq | 2 => lt | 3 => lt || eq | 4 => !lt && !eq && !unord | 5 => !lt && !unord | _ => unord

/-- F2I (R122): the pattern and whether it saturated. -/
def f2i (rtz : Bool) (a : Nat) : Nat × Bool :=
  match fp32 a with
  | .nan => (0, true)
  | .inf s => (if s then 2 ^ 31 else 2 ^ 31 - 1, true)
  | .fin s m e =>
    let n := roundQ (if rtz then .rtz else .rne) m 1 e 0
    if s then (if 2 ^ 31 < n then (2 ^ 31, true) else (wrapInt (-(n : Int)) 32, false))
    else if 2 ^ 31 ≤ n then (2 ^ 31 - 1, true) else (n, false)

/-- An element-wise operation on one element's operands: result pattern and flags. -/
def laneOp (t : TileState) (w width a b c : Nat) : Nat × VecFlags :=
  let x := fp32 a
  let y := fp32 b
  let z := fp32 c
  let enc := fun (v : Fp) => (encodeFp fFP32 v, ({} : VecFlags))
  let num := fun (n : Nat) => (n % 2 ^ width, ({} : VecFlags))
  let ia := sext a width
  let ib := sext b width
  match sgOp w with
  | 0x01 => enc (f32Add x y)
  | 0x02 => enc (f32Sub x y)
  | 0x03 => enc (f32Mul x y)
  | 0x04 => enc (f32Fma x y z)
  | 0x05 => (encodeFp fFP32 (f32Div x y), { divZero := y.isZero && x.isFin && !x.isZero })
  | 0x06 => enc (f32Sqrt x)
  | 0x07 => num (unitRsqrt a)
  | 0x08 => num (unitRcp a)
  | 0x09 => enc (fpMin x y)
  | 0x0A => enc (fpMax x y)
  | 0x0B => enc x.abs
  | 0x0C => enc x.neg
  | 0x0D => enc (fpMin (fpMax x y) z)
  | 0x0E => num (unitExp false a)
  | 0x0F => num (unitExp true a)
  | 0x10 => num (unitLog a)
  | 0x11 => num (actEval (t.actByte (sgSub w % 16)) a)
  | 0x12 => enc (f32Mul x (fp32 (actEval (t.actByte (sgSub w % 16)) b)))
  | 0x13 => num (b2n (cmpCode (sgSub w) (x.lt y) (x.eqv y) (x.isNaN || y.isNaN)))
  | 0x14 => num (if c = 0 then b else a)
  | 0x15 => num a
  | 0x16 => enc (roundFp fFP32 (Fp.ofInt (sext a 32)))
  | 0x17 => let r := f2i (bit (sgSub w) 0) a; (r.1, { f2iSat := r.2 })
  | 0x20 => num (a + b)
  | 0x21 => num (a + 2 ^ width - b % 2 ^ width)
  | 0x22 => num (a * b)
  | 0x23 => num (a &&& b)
  | 0x24 => num (a ||| b)
  | 0x25 => num (a ^^^ b)
  | 0x26 => num (if width ≤ b % 256 then 0 else a <<< (b % 256))
  | 0x27 => num (if width ≤ b % 256 then 0 else a >>> (b % 256))
  | 0x28 => num (wrapInt (ia / (2 ^ min (b % 256) (width - 1) : Nat)) width)
  | 0x29 => num (if ib < ia then b else a)
  | 0x2A => num (if ia < ib then b else a)
  | _ => num (b2n (cmpCode (sgSub w) (decide (ia < ib)) (decide (ia = ib)) false))

/-- The combining operator of SCAN and REDUCE and its identity (R128). -/
def scanOp (w width : Nat) (a b : Nat) : Nat :=
  match bits (sgSub w) 3 2 with
  | 0 => encodeFp fFP32 (f32Add (fp32 a) (fp32 b))
  | 1 => encodeFp fFP32 (fpMax (fp32 a) (fp32 b))
  | 2 => encodeFp fFP32 (fpMin (fp32 a) (fp32 b))
  | _ => (a + b) % 2 ^ width

def scanId (w : Nat) : Nat :=
  match bits (sgSub w) 3 2 with
  | 1 => fInf true
  | 2 => fInf false
  | _ => 0

/-- A segment head stands in lanes lo to hi. -/
def headIn (heads : List Bool) (lo hi : Nat) : Bool := ((heads.drop lo).take (hi + 1 - lo)).any id

/-- The doubling rounds of SCAN (R128). -/
def scanRounds (op : Nat → Nat → Nat) (heads : List Bool) (vl : Nat) : Nat → Nat → List Nat → List Nat
  | 0, _, y => y
  | f + 1, st, y =>
    if vl ≤ st then y
    else scanRounds op heads vl f (2 * st) ((List.range vl).map fun i =>
      if st ≤ i ∧ headIn heads (i + 1 - st) i = false then op (el y (i - st)) (el y i) else el y i)

/-- SCAN (R128). -/
def scanStage (w width vl : Nat) (active : Nat → Bool) (a b c : List Nat) : List Nat :=
  let op := scanOp w width
  let e := scanId w
  let heads := (List.range vl).map fun i => bit (sgSub w) 1 && el c i != 0
  let y0 := (List.range vl).map fun i => if active i then el a i else e
  let y1 := scanRounds op heads vl 9 1 y0
  let y := (List.range vl).map fun i => if headIn heads 0 i then el y1 i else op (el b 0) (el y1 i)
  if bit (sgSub w) 0 then
    (List.range vl).map fun i => if heads.getD i false then e else if i = 0 then el b 0 else el y (i - 1)
  else y

/-- One stage's result before predication, with its flags (R122, R128 to R131). -/
def stageOp (t : TileState) (w width vl : Nat) (active : Nat → Bool) (a b c : List Nat) : List Nat × VecFlags :=
  let lanes := List.range vl
  let all := fun v => lanes.map fun _ => v
  let perm := fun (n : Nat) (f : Nat → Nat) =>
    (lanes.map fun i => if el b i < n then f (el b i) else 0,
      ({ laneRange := lanes.any fun i => active i && decide (n ≤ el b i) } : VecFlags))
  match sgOp w with
  | 0x30 => (scanStage w width vl active a b c, {})
  | 0x31 => (all (treeFold (scanOp w width) (scanId w) (treeDepth vl)
      (lanes.map fun i => if active i then el a i else scanId w)), {})
  | 0x32 => perm vl (el a)
  | 0x33 => perm (2 * vl) fun i => if i < vl then el a i else el c (i - vl)
  | 0x34 => if sgSub w < vl then (all (el a (sgSub w)), {}) else (all 0, { laneRange := lanes.any active })
  | 0x35 => (all (el a (vl - 1)), {})
  | 0x36 =>
    let l := (lanes.filter fun i => el b i != 0).map (el a)
    (lanes.map fun i => el l i, {})
  | 0x37 => (lanes.map fun i => if el c i ≠ 0 then el a ((lanes.take i).filter fun j => el c j != 0).length else el b i, {})
  | 0x38 => (all ((lanes.filter fun i => el a i != 0).length), {})
  | _ =>
    let rs := lanes.map fun i => laneOp t w width (el a i) (el b i) (el c i)
    (rs.map (·.1), (rs.zipIdx.filter fun p => active p.2).foldl (fun f p => f.join p.1.2) {})

/-! ### An iteration (R112, R113, R118, R119) -/

/-- What a chain works on from one iteration to the next: a scratch machine that takes its writes, the registers and predicates
it has written, and what it has shown so far. -/
structure VAcc where
  st : State
  regs : List (Nat × List Nat) := []
  preds : List (Nat × Nat) := []
  reads : List (Nat × Nat) := []
  writes : List (Nat × List Nat) := []
  flags : VecFlags := {}
  nan : Bool := false
  inf : Bool := false
  dec : DecEv := {}
  conv : ConvEv := {}
  annex0 : Nat := 0
  annex1 : Nat := 0
  pastEnd : Bool := false
  unpacked : Nat := 0
  packed : Nat := 0
  out0 : OutEv := {}
  out1 : OutEv := {}

/-- Elements 0 to VL − 1 of a vector register in the tile. -/
def TileState.vregElems (t : TileState) (width v vl : Nat) : List Nat :=
  (List.range vl).map fun i =>
    if width = 32 then sget 0 t.vregs (v * 128 + i)
    else (sget 0 t.vregs (v * 128 + i / 2) >>> (16 * (i % 2))) % 2 ^ 16

def VAcc.reg (x : VAcc) (site width vl v : Nat) : List Nat :=
  match sget none (x.regs.map fun p => (p.1, some p.2)) v with
  | some l => l
  | none => (x.st.tile site).vregElems width v vl

def VAcc.pred (x : VAcc) (site p : Nat) : Nat :=
  match sget none (x.preds.map fun q => (q.1, some q.2)) p with
  | some v => v
  | none => sget 0 (x.st.tile site).pregs p

/-- The immediate of a stage as an element (R117). -/
def immElem (w width : Nat) : Nat :=
  if width = 16 then sgImm w
  else if isFpOp w && sgOp w != 0x16 || (!isFpOp w && (sgOp w == 0x14 || sgOp w == 0x15 ||
      (decide (0x32 ≤ sgOp w) && decide (sgOp w ≤ 0x38))) && Sys2Proof.Config.moveImmBf16 (sgOp w)) then sgImm w * 2 ^ 16
  else wrapInt (sext (sgImm w) 16) 32

/-- The sources of an iteration. -/
structure VSrc where
  s0 : List Nat
  s1 : List Nat
  acc : List Nat
  row : Nat

/-- A source operand (R118). -/
def fetchSrc (x : VAcc) (site width vl : Nat) (v : VSrc) (ts : List (List Nat)) (w code : Nat) : List Nat :=
  if code < 0x20 then x.reg site width vl code
  else if code < 0x28 then ts.getD (code - 0x20) []
  else if code = 0x28 then v.s0
  else if code = 0x29 then v.s1
  else if code = 0x2A then v.acc
  else if code = 0x2B then (List.range vl).map fun _ => immElem w width
  else if code = 0x2C then List.range vl
  else if code = 0x2D then (List.range vl).map fun _ => v.row % 2 ^ width
  else (List.range vl).map fun _ => 0

/-- A row written to an output stream: its values and, for each element, whether its stage is active there. -/
structure VRow where
  vals : List Nat
  act : List Bool

/-- The results of an iteration's stages so far. -/
structure VStages where
  ts : List (List Nat) := []
  flags : VecFlags := {}
  nan : Bool := false
  inf : Bool := false
  o0 : VRow := ⟨[], []⟩
  o1 : VRow := ⟨[], []⟩

/-- One stage (R112, R113, R119, R124). -/
def runStage (x : VAcc) (site width vl : Nat) (v : VSrc) (g : VStages) (w : Nat) : VStages :=
  let p := x.pred site (sgPsel w)
  let active := fun i => !sgPen w || (bit p i != sgPinv w)
  let src := fun i => fetchSrc x site width vl v g.ts w (sgSrc w i)
  let a := src 0
  let (y, f) := stageOp (x.st.tile site) w width vl active a (if usesSrc w 1 then src 1 else []) (if usesSrc w 2 then src 2 else [])
  let act := (List.range vl).map active
  let res := (List.range vl).map fun i => if active i then el y i else if sgPzero w then 0 else el a i
  let shown := if fpResult w then (List.range vl).filter active else []
  { ts := g.ts ++ [res], flags := g.flags.join f
    nan := g.nan || shown.any fun i => (fp32 (el res i)).isNaN
    inf := g.inf || shown.any fun i => (fp32 (el res i)).isInf
    o0 := if sgOut w 0 then ⟨res, act⟩ else g.o0
    o1 := if sgOut w 1 then ⟨res, act⟩ else g.o1 }

/-- Predicate bits from a result (R119). -/
def predBits (old vl : Nat) (l : List Nat) : Nat :=
  (List.range vl).foldl (fun m i => setBit m i (el l i != 0)) old

/-- Register and predicate writes at the end of an iteration, in stage order (R119). -/
def commitStages (x : VAcc) (site vl : Nat) : List Nat → List (List Nat) → VAcc
  | w :: ws, l :: ls =>
    let k := sgDst w
    let x1 :=
      if k < 0x20 then { x with regs := sput x.regs k l }
      else if 0x21 ≤ k ∧ k ≤ 0x28 then { x with preds := sput x.preds (k - 0x21) (predBits (x.pred site (k - 0x21)) vl l) }
      else x
    commitStages x1 site vl ws ls
  | _, _ => x

/-! ### Streams (R125 to R127) -/

/-- Decoded elements as patterns for 32-bit elements: value, scale, and the conversion of block-scaled values (R125). -/
def inElem (f : Fmt) (sc : Option Fp) (v : Fp) : Nat × ConvEv :=
  match sc with
  | some r => (encodeFp fFP32 (roundFp fFP32 (v.mul r)), {})
  | none =>
    if f.isBlock then let (y, ev) := convFp fFP32 .rne v; (encodeFp fFP32 y, ev)
    else (encodeFp fFP32 v, {})

/-- Raw integer or 16-bit patterns of a stream's element (R125). -/
def inRaw (f : Fmt) (code : Nat) : Nat :=
  match f with
  | .int16 => wrapInt (sext code 16) 32
  | _ => code

/-- n elements of input stream i at byte a of its code plane. -/
def readIn (s : State) (c : DCtx) (i : Nat) (f : Fmt) (x : VAcc) (a aux n ax : Nat) : List Nat × VAcc × Nat :=
  let rd := x.st.rd c.site
  let regs := (a, codeBytes f n) :: (if f.hasScalePlane then [(aux, scaleBytes f n)] else [])
  let x1 := { x with reads := x.reads ++ regs }
  if vcHalf c.d then ((List.range n).map fun k => getCode rd a f.width k, x1, ax)
  else if f.isInt then ((List.range n).map fun k => inRaw f (getCode rd a f.width k), x1, ax)
  else
    let r := readRow rd f a aux n ax
    let sc := s.rscaleOf c f (vcScl c.d i) (vcRec c.d i)
    let es := r.vals.map (inElem f sc)
    (es.map (·.1),
      { x1 with
        dec := x1.dec.join { r.ev with scaleNaN := r.ev.scaleNaN || optNaN sc }
        conv := es.foldl (fun e p => e.add p.2) x1.conv
        pastEnd := x1.pastEnd || (f == .p4x && annexOver aux r.annex)
        reads := if f = .p4x ∧ ax < r.annex then x1.reads ++ [(aux + 2 * ax, 2 * (r.annex - ax))] else x1.reads }, r.annex)

/-- The auxiliary address of row r of stream i. -/
def vcAux (d i r : Nat) (f : Fmt) : Nat :=
  vcRec d i * 64 + (if f = .p4x then 0 else r * (vcStride d i / blkBytes f))

/-- Row r of input stream i (R125, R127). -/
def inRow (s : State) (c : DCtx) (i r : Nat) (x : VAcc) : List Nat × VAcc :=
  let d := c.d
  match vcEn d i, vcFmt d i with
  | true, some f =>
    if vcFlat d i then
      let p := x.pred c.site (vcUpred d)
      let lanes := (List.range (vcVl d)).filter (bit p)
      let (l, x1, _) := readIn s c i f x (vcBase d i + x.unpacked * (f.width / 8)) 0 lanes.length 0
      ((List.range (vcVl d)).map fun k => if bit p k then el l ((lanes.takeWhile (· != k)).length) else 0,
        { x1 with unpacked := x.unpacked + lanes.length })
    else
      let ax := if vcStride d i = 0 then 0 else if i = 0 then x.annex0 else x.annex1
      let (l, x1, ax') := readIn s c i f x (vcBase d i + r * vcStride d i) (vcAux d i r f) (vcVl d) ax
      (l, if i = 0 then { x1 with annex0 := ax' } else { x1 with annex1 := ax' })
  | _, _ => ([], x)

/-- The accumulator row of an iteration (R115). -/
def accRow (s : State) (c : DCtx) (r : Nat) (x : VAcc) : List Nat × VAcc :=
  if vcAccEn c.d then
    let es := (List.range (vcVl c.d)).map fun n =>
      let (v, ev) := convFp fFP32 .rne (s.bank0 c true (vcBank c.d) (vcRow0 c.d + r) n)
      (encodeFp fFP32 v, ev)
    (es.map (·.1), { x with conv := es.foldl (fun e p => e.add p.2) x.conv })
  else ([], x)

/-- O0 accumulates a gradient across micro-batches (R223). -/
def mbAccum (d : Nat) : Bool := dPhase d == 3 && vcEn d 2 && vcEn d 0 && vcRec d 2 == vcRec d 0 && vcRec d 2 != 0xFFFF

/-- The tensor of an output stream for random words (R126). -/
def vcTensor (s : State) (c : DCtx) (i : Nat) (f : Fmt) : Nat :=
  if namesRecord (df c.d (24 + 5 * i) 37 33) (vcRec c.d i) && !f.isBlock then s.tensorId c.site (vcRec c.d i) else 0xFFFFFFFF

/-- The rounding of element `elem` of output stream i (R46, R223). -/
def vcRounding (s : State) (c : DCtx) (i : Nat) (f : Fmt) (elem : Nat) : Rnd :=
  let t := vcTensor s c i f
  if i = 2 ∧ mbAccum c.d = true then
    (if s.rndSr c 1 0 elem then .sr (srWord (s.srKey c 1 c.stamp t) elem) else .rne)
  else rndOf (vcRnd c.d i) (s.srKey c 3 0 t) elem

/-- An integer element narrowed to the stream's format: pattern and saturation (R125). -/
def outRaw (f : Fmt) (width v : Nat) : Nat × Bool :=
  let x := sext v width
  match f with
  | .int16 => if width = 16 then (v, false) else
      if x < -32768 then (0x8000, true) else if 32767 < x then (0x7FFF, true) else (wrapInt x 16, false)
  | .uint8 => if x < 0 then (0, true) else if 255 < x then (255, true) else (x.toNat, false)
  | _ => (v, false)

/-- Elements written to output stream i at byte a, their first linear index `e0` (R125, R126). -/
def writeOut (s : State) (c : DCtx) (i : Nat) (f : Fmt) (x : VAcc) (a aux e0 : Nat) (l : List Nat) : VAcc × OutEv :=
  let put := fun (x : VAcc) (ws : List (Nat × List Nat)) =>
    { x with st := x.st.applyWrites c.site ws, writes := x.writes ++ ws }
  if vcHalf c.d || f.isInt then
    let es := l.map (outRaw f (vcW c.d))
    (put { x with flags := x.flags.join { narrowSat := es.any (·.2) } } [(a, packCodes f.width (es.map (·.1)) 0)], {})
  else
    let sc := s.scaleFor c f (vcScl c.d i) (vcRec c.d i)
    let (cb, sb, ev) := writeRow f (fun k => vcRounding s c i f (e0 + k)) sc (l.map fp32) (x.st.rd c.site (a + codeBytes f l.length - 1))
    (put { x with dec := x.dec.join { scaleNaN := optNaN sc } } ([(a, cb)] ++ (if sb = [] then [] else [(aux, sb)])), ev)

/-- Row r to output stream i (R112, R126, R127). -/
def outRow (s : State) (c : DCtx) (i r : Nat) (row : VRow) (x : VAcc) : VAcc :=
  let d := c.d
  match vcEn d i, vcFmt d i with
  | true, some f =>
    if vcFlat d i then
      let l := (row.vals.zip row.act).filterMap fun p => if p.2 then some p.1 else none
      if l = [] then x
      else
        let (x1, ev) := writeOut s c i f x (vcBase d i + x.packed * (f.width / 8)) 0 (vcOrigin d + x.packed) l
        { x1 with packed := x.packed + l.length, out0 := x1.out0.join ev }
    else
      let (x1, ev) := writeOut s c i f x (vcBase d i + r * vcStride d i) (vcAux d i r f) (vcOrigin d + r * vcPitch d) row.vals
      if i = 2 then { x1 with out0 := x1.out0.join ev } else { x1 with out1 := x1.out1.join ev }
  | _, _ => x

/-- One iteration of a chain (R116, R119). -/
def vchIter (s : State) (c : DCtx) (stages : List Nat) (r : Nat) (x : VAcc) : VAcc :=
  let (s0, x1) := inRow s c 0 r x
  let (s1, x2) := inRow s c 1 r x1
  let (ac, x3) := accRow s c r x2
  let g := stages.foldl (runStage x3 c.site (vcW c.d) (vcVl c.d) ⟨s0, s1, ac, r⟩) {}
  let x4 := outRow s c 3 r g.o1 (outRow s c 2 r g.o0 x3)
  let x5 := { x4 with flags := x4.flags.join g.flags, nan := x4.nan || g.nan, inf := x4.inf || g.inf }
  commitStages x5 c.site (vcVl c.d) stages g.ts

/-- Iterations r, r + 1, … of a chain. -/
def vchIters (s : State) (c : DCtx) (stages : List Nat) : Nat → Nat → VAcc → VAcc
  | 0, _, x => x
  | n + 1, r, x => vchIters s c stages n (r + 1) (vchIter s c stages r x)

/-- Vector register words of a register's elements. -/
def vregWords (t : TileState) (width v : Nat) (l : List Nat) : List (Nat × Nat) :=
  if width = 32 then l.zipIdx.map fun p => (v * 128 + p.2, p.1)
  else (List.range ((l.length + 1) / 2)).map fun k =>
    let old := sget 0 t.vregs (v * 128 + k)
    (v * 128 + k, el l (2 * k) + 2 ^ 16 * (if 2 * k + 1 < l.length then el l (2 * k + 1) else old / 2 ^ 16))

/-- What a VCH does (R116 to R131). -/
def vchEff (s : State) (c : DCtx) : Eff :=
  let d := c.d
  let x := vchIters s c (s.chainOf c) (vcRows d) 0 { st := s }
  let merge := fun i (e : OutEv) => if vcEn d i && namesRecord (df d (24 + 5 * i) 37 33) (vcRec d i) then s.mergeOf c (vcRec d i) e else []
  { reads := (vcChain d, 64) :: x.reads
    writes := x.writes
    vregs := x.regs.flatMap fun p => vregWords (s.tile c.site) (vcW d) p.1 p.2
    pregs := x.preds
    merges := merge 2 x.out0 ++ merge 3 x.out1
    sat := x.conv.sat + x.out0.sat + x.out1.sat, ftz := x.conv.ftz + x.out0.ftz + x.out1.ftz, esc := x.dec.annex
    nan := x.nan || x.out0.nan || x.out1.nan, inf := x.inf || x.out0.inf || x.out1.inf
    rsvd := x.dec.rsvd, scaleNaN := x.dec.scaleNaN
    ors := [(R.TIL_VEC_FLAGS, x.flags.mask)], overrun := x.pastEnd
    packed := if vcPack d then some (x.packed, vcPackReg d) else none }

/-! ### Checks (R91, R120) -/

/-- Regions of tile SRAM that stream i may touch; a flat stream's largest extent. -/
def vcRegions (d i : Nat) (f : Fmt) : List (Nat × Nat) :=
  if vcFlat d i then [(vcBase d i, vcRows d * vcVl d * (f.width / 8))]
  else
    (List.range (vcRows d)).flatMap fun r =>
      (vcBase d i + r * vcStride d i, codeBytes f (vcVl d)) ::
      (if f.hasScalePlane then [(vcAux d i r f, scaleBytes f (vcVl d))] else [])

/-- The reasons of one stream. -/
def streamReasons (d i : Nat) : List Nat :=
  if vcEn d i = false then []
  else
    let usesRnd := fun (f : Fmt) => decide (2 ≤ i) && !vcHalf d && !f.isInt && !(i == 2 && mbAccum d)
    match vcFmt d i with
    | none => [rjFmtRsvd]
    | some f =>
      rj (usesRnd f && vcRnd d i == 3) rjRndRsvd ++
      rj ((vcRegions d i f).any fun g => outside g.1 g.2) rjAddrRange ++
      rj (f.isBlock && (vcVl d % f.block != 0 || (!vcFlat d i && vcStride d i % blkBytes f != 0))) rjBadLayout ++
      rj (vcFlat d i && (f.isBlock || !(f.width == 8 || f.width == 16 || f.width == 32))) rjBadLayout ++
      rj (vcHalf d && !(f == .int16 || f == .bf16 || f == .fp16 || f == .uint8)) rjFmtRole ++
      rj (!vcHalf d && needsRec (some f) (vcScl d i) (vcRec d i)) rjFmtScale

/-- The checks of R120 on the chain. -/
def chainReasons (t : TileState) (d : Nat) (stages : List Nat) : List Nat :=
  let outs := fun i => (stages.filter fun w => sgOut w i).length
  rj (stages.isEmpty || stages.zipIdx.any (fun p => badStage t d p.2 p.1) || (vcHalf d && vcAccEn d) ||
    outs 0 != b2n (vcEn d 2) || outs 1 != b2n (vcEn d 3)) rjKindField

/-- The checks of R120. -/
def vchReasons (t : TileState) (d : Nat) (stages : List Nat) : List Nat :=
  rj (vcVl d == 0 || decide ((if vcHalf d then 256 else 128) < vcVl d) ||
    (vcAccEn d && decide (64 < vcRow0 d + vcRows d))) rjShapeLimit ++
  chainReasons t d stages ++ (List.range 4).flatMap (streamReasons d)

/-- Tensor records a VCH reads. -/
def vchRecs (d : Nat) : List Nat :=
  (List.range 4).flatMap fun i =>
    if vcEn d i && !vcHalf d && namesRecord (df d (24 + 5 * i) 37 33) (vcRec d i) then [vcRec d i] else []

def vchCheck (s : State) (c : DCtx) : Meaning :=
  ⟨vchRecs c.d, vchReasons (s.tile c.site) c.d (s.chainOf c)⟩

/-- The conversion pass of just-in-time scaling (R60): an output stream converts into the format of a record whose MODE is 1
or whose WARM is 1. The scale pair that the step tag selects is set from AMAX_STG alone. -/
def State.jitScale (s : State) (c : DCtx) (i : Nat) : State :=
  let d := c.d
  let a := s.trecAddr c.site (vcRec d i)
  match vcFmt d i with
  | some f =>
    if vcEn d i = true ∧ dPhase d ≠ 0 ∧ vcRec d i ≠ 0xFFFF ∧ scaleApplies f (vcScl d i) = true ∧
      Fmt.ofCode (s.recLe a 4 1 % 32) = some f ∧ (bit (s.recLe a 5 1) 0 || bit (s.recLe a 0x2F 1) 7) = true then
      let (sc, rs) := s.scaleFrom a (maxOf [s.recLe a (0x18 + 4 * (dTag d % 2)) 4])
      if s.useStaged d then
        (((s.devPut (a + 0x10) 4 sc).devPut (a + 0x14) 4 rs).devPut (a + 0x38) 1 (setBit (s.recLe a 0x38 1) 0 true))
      else (s.devPut (a + 8) 4 sc).devPut (a + 0x0C) 4 rs
    else s
  | none => s

def vchRun (s : State) (c : DCtx) : State :=
  let s1 := (s.jitScale c 2).jitScale c 3
  s1.runEff c (vchEff s1 c)

/-- VCH (R116): the descriptor issues; none issues while a table load is in progress (R136). -/
def execVch (tile pos : Nat) (s : State) : Host.Outcome State Fault Refusal :=
  .next (if (s.tile (s.siteOf tile)).actLoad.isSome then s
    else s.issueWith tile pos (fun d => dKind d == 3) vchCheck vchRun)

end Sys2Proof.Machine
end

