-- ==== Sys2Proof/Machine/Row.lean ====
section
/-! DEFINITION. Machine/Row.lean: the row engine (R137 to R143), the statistics store (R144 to R146, R229) and the ROW
descriptor. Values of FP32 are kept as exact values on the FP32 grid. -/
namespace Sys2Proof.Machine

/-! ### The ROW body (R138) -/

def rwOp (d : Nat) : Nat := df d 16 7 0
def rwSave (d : Nat) : Bool := df d 17 0 0 == 1
def rwGammaEn (d : Nat) : Bool := df d 17 1 1 == 1
def rwBetaEn (d : Nat) : Bool := df d 17 2 2 == 1
def rwPgradEn (d : Nat) : Bool := df d 17 3 3 == 1
def rwN (d : Nat) : Nat := df d 18 17 0 + 1
def rwRows (d : Nat) : Nat := df d 21 15 0 + 1
def rwStat (d : Nat) : Nat := df d 24 13 0
/-- Base, stride and format of X (0), Y (1) and G (2). -/
def rwBase (d i : Nat) : Nat := df d (26 + 5 * i) 16 0 * 32
def rwStride (d i : Nat) : Nat := df d (26 + 5 * i) 32 17 * 32
def rwCode (d i : Nat) : Nat := df d (26 + 5 * i) 37 33
def rwFmt (d i : Nat) : Option Fmt := Fmt.ofCode (rwCode d i)
def rwRnd (d : Nat) : Nat := df d 31 39 38
def rwGamma (d : Nat) : Nat := df d 41 16 0 * 32
def rwBeta (d : Nat) : Nat := df d 41 33 17 * 32
def rwPfmt (d : Nat) : Option Fmt := Fmt.ofCode (df d 41 38 34)
def rwPgrad (d : Nat) : Nat := df d 46 15 0 * 64
def rwEps (d : Nat) : Fp := fp32 (df d 48 31 0)
def rwRec (d i : Nat) : Nat := df d (52 + 2 * i) 15 0
def rwOrigin (d : Nat) : Nat := df d 58 41 0

abbrev roLnormF : Nat := 0x01
abbrev roRmsF : Nat := 0x02
abbrev roSoftmaxF : Nat := 0x03
abbrev roLogsmF : Nat := 0x04
abbrev roXentF : Nat := 0x05
abbrev roLnormB : Nat := 0x11
abbrev roRmsB : Nat := 0x12
abbrev roSoftmaxB : Nat := 0x13
abbrev roLogsmB : Nat := 0x14
abbrev roXentB : Nat := 0x15

/-- The operations of R137. -/
def rowOps : List Nat :=
  [roLnormF, roRmsF, roSoftmaxF, roLogsmF, roXentF, roLnormB, roRmsB, roSoftmaxB, roLogsmB, roXentB]

def rwXent (d : Nat) : Bool := rwOp d == roXentF || rwOp d == roXentB
/-- The operation reads upstream gradient rows. -/
def rwHasG (d : Nat) : Bool := [roLnormB, roRmsB, roSoftmaxB, roLogsmB].contains (rwOp d)
/-- The operation uses γ. -/
def rwUsesGamma (d : Nat) : Bool := rwGammaEn d && [roLnormF, roRmsF, roLnormB, roRmsB].contains (rwOp d)
def rwUsesBeta (d : Nat) : Bool := rwBetaEn d && [roLnormF, roRmsF].contains (rwOp d)
def rwUsesPgrad (d : Nat) : Bool := rwPgradEn d && [roLnormB, roRmsB].contains (rwOp d)
/-- The kind of statistics an operation writes or reads; 0 for none. -/
def rwKind (d : Nat) : Nat :=
  match rwOp d with
  | 0x01 => 1 | 0x02 => 2 | 0x03 => 3 | 0x04 => 3 | 0x05 => 3 | 0x11 => 1 | 0x12 => 2 | 0x15 => 3 | _ => 0
/-- The operation writes statistics, or reads them. -/
def rwWritesStat (d : Nat) : Bool := rwSave d && decide (rwOp d ≤ 5)
def rwReadsStat (d : Nat) : Bool := [roLnormB, roRmsB, roXentB].contains (rwOp d)

/-! ### Arithmetic (R140) -/

/-- The row sum in W36: chunks of 128, each by the pairwise tree (R140, R568). -/
def rowSum (l : List Fp) : Fp :=
  (chunksOf 128 l.length l).foldl (fun a ch => w36Add a (treeFold w36Add Fp.zero 7 ch)) Fp.zero

/-- rne32(x / n). -/
def divN (x : Fp) (n : Nat) : Fp :=
  match x with
  | .fin s m e => roundRat fFP32 s m n e
  | y => y

def w36 (x : Fp) : Fp := roundFp fW36 x
def rne32 (x : Fp) : Fp := roundFp fFP32 x

/-- rne32(1 / √x), rounded once. -/
def invSqrt (x : Fp) : Fp :=
  match x with
  | .nan => .nan
  | .inf s => if s then .nan else Fp.zero
  | .fin s m e => if m = 0 then .inf s else if s then .nan else fp32 (rsqrtRef m e)

/-- The units of R123 on exact FP32 values. -/
def expF (x : Fp) : Fp := fp32 (unitExp false (toFp32 x))
def logF (x : Fp) : Fp := fp32 (unitLog (toFp32 x))

/-- A row that R141 turns into NaN. -/
def rowBad (l : List Fp) : Bool :=
  l.any (fun v => v.isNaN || v == .inf false) || l.all fun v => v == .inf true

/-- The statistics of a row. -/
structure RowStats where
  mu : Fp := Fp.zero
  r : Fp := Fp.zero
  m : Fp := Fp.zero
  sigma : Fp := Fp.zero
  deriving DecidableEq, Repr

/-- μ and r of LNORM (rms = false) and RMS. -/
def normStats (rms : Bool) (eps : Fp) (l : List Fp) : RowStats :=
  if rowBad l then { mu := if rms then Fp.zero else .nan, r := .nan }
  else
    let n := l.length
    let mu := if rms then Fp.zero else divN (rowSum l) n
    let sq := l.map fun x => let d := f32Sub x mu; w36 (d.mul d)
    { mu := mu, r := invSqrt (f32Add (divN (rowSum sq) n) eps) }

/-- Pass 1 of the softmax family: m and s over the chunks. -/
def softPass : List (List Fp) → Fp → Fp → Fp × Fp
  | [], m, s => (m, s)
  | ch :: r, m, s =>
    let mn := fpMax m (ch.foldl fpMax (.inf true))
    let s' := if mn = .inf true then s
      else w36Add (w36Mul s (expF (f32Sub m mn))) (treeFold w36Add Fp.zero 7 (ch.map fun x => expF (f32Sub x mn)))
    softPass r mn s'

/-- m and Σ of a row. -/
def softStats (l : List Fp) : RowStats :=
  if rowBad l then { m := .nan, sigma := .nan }
  else
    let (m, s) := softPass (chunksOf 128 l.length l) (.inf true) Fp.zero
    { m := m, sigma := rne32 s }

/-- The statistics an operation recomputes or saves. -/
def statsOf (d : Nat) (l : List Fp) : RowStats :=
  match rwKind d with
  | 1 => normStats false (rwEps d) l
  | 2 => normStats true (rwEps d) l
  | _ => softStats l

/-- Forward outputs before conversion (R140): γ and β are 1 and +0 where disabled. -/
def rowForward (d : Nat) (st : RowStats) (gamma beta : Nat → Fp) (label : Nat) (l : List Fp) : List Fp :=
  if rowBad l then (if rwOp d = roXentF then [.nan] else l.map fun _ => .nan)
  else
    let lsum := logF st.sigma
    match rwOp d with
    | 0x03 => l.map fun x => f32Div (expF (f32Sub x st.m)) st.sigma
    | 0x04 => l.map fun x => (f32Sub x st.m).sub lsum
    | 0x05 => [f32Sub (f32Add st.m lsum) (l.getD label .nan)]
    | _ => l.zipIdx.map fun (x, i) => (f32Mul (f32Mul (f32Sub x st.mu) st.r) (gamma i)).add (beta i)

/-- x̂ of the norm backward operations (R143). -/
def xhat (st : RowStats) (l : List Fp) : List Fp := l.map fun x => f32Mul (f32Sub x st.mu) st.r

/-- dx before conversion (R143). -/
def rowBackward (d : Nat) (st : RowStats) (gamma : Nat → Fp) (label : Nat) (g : Fp) (l dy : List Fp) : List Fp :=
  let n := l.length
  match rwOp d with
  | 0x13 =>
    let t := rne32 (rowSum ((l.zip dy).map fun p => w36 (p.1.mul p.2)))
    (l.zip dy).map fun p => f32Mul p.1 (f32Sub p.2 t)
  | 0x14 =>
    let t := rne32 (rowSum dy)
    (l.zip dy).map fun p => f32Sub p.2 (f32Mul (expF p.1) t)
  | 0x15 => l.zipIdx.map fun (x, i) =>
      let p := f32Div (expF (f32Sub x st.m)) st.sigma
      f32Mul g (f32Sub p (if i = label then Fp.one else Fp.zero))
  | _ =>
    let xh := xhat st l
    let gh := if rwGammaEn d then dy.zipIdx.map fun (y, i) => f32Mul y (gamma i) else dy
    let a := if rwOp d = roRmsB then Fp.zero else divN (rowSum gh) n
    let b := divN (rowSum ((gh.zip xh).map fun p => w36 (p.1.mul p.2))) n
    (gh.zip xh).map fun p => f32Mul st.r (f32Sub (f32Sub p.1 a) (f32Mul p.2 b))

/-! ### Rows of a descriptor -/

/-- What a ROW works on from row to row. -/
structure RAcc where
  st : State
  reads : List (Nat × Nat) := []
  writes : List (Nat × List Nat) := []
  stats : List (Nat × StatEntry) := []
  dropped : List Nat := []
  misses : Nat := 0
  nan : Bool := false
  inf : Bool := false
  dec : DecEv := {}
  conv : ConvEv := {}
  annexX : Nat := 0
  annexG : Nat := 0
  pastEnd : Bool := false
  labelBad : Bool := false
  out : OutEv := {}

/-- An input element as FP32: scaled operands rounded once, others converted (R54, R125). -/
def rowElem (sc : Option Fp) (v : Fp) : Fp × ConvEv :=
  match sc with
  | some r => (roundFp fFP32 (v.mul r), {})
  | none => convFp fFP32 .rne v

/-- The auxiliary address of row r of operand i. -/
def rwAux (d i r : Nat) (f : Fmt) : Nat := rwRec d i * 64 + (if f = .p4x then 0 else r * (rwStride d i / blkBytes f))

/-- Row r of operand i in format f with annex entries from ax on: its values, and what reading it showed. -/
def rowRead (s : State) (c : DCtx) (i r : Nat) (f : Fmt) (x : RAcc) (ax : Nat) : List Fp × RAcc × Nat :=
  let d := c.d
  let a := rwBase d i + r * rwStride d i
  let aux := rwAux d i r f
  let v := readRow (x.st.rd c.site) f a aux (rwN d) ax
  let sc := s.rscaleOf c f false (rwRec d i)
  let es : List (Fp × ConvEv) := v.vals.map (rowElem sc)
  let used : List (Nat × Nat) := if f = .p4x ∧ ax < v.annex then [(aux + 2 * ax, 2 * (v.annex - ax))] else []
  (es.map (·.1),
    { x with
      reads := x.reads ++ [(a, codeBytes f (rwN d))] ++ (if f.hasScalePlane then [(aux, scaleBytes f (rwN d))] else []) ++ used
      dec := x.dec.join { v.ev with scaleNaN := v.ev.scaleNaN || optNaN sc }
      conv := es.foldl (fun e p => e.add p.2) x.conv
      pastEnd := x.pastEnd || (f == .p4x && annexOver aux v.annex) }, v.annex)

/-- Row r of operand i: 0 is X, 2 is G. -/
def rowIn (s : State) (c : DCtx) (i r : Nat) (x : RAcc) : List Fp × RAcc :=
  match rwFmt c.d i with
  | none => ([], x)
  | some f =>
    let (l, x1, ax) := rowRead s c i r f x (if rwStride c.d i = 0 then 0 else if i = 0 then x.annexX else x.annexG)
    (l, if i = 0 then { x1 with annexX := ax } else { x1 with annexG := ax })

/-- The parameter vector γ or β at a base (R138); where its scale plane lies is left open (log entry 13). -/
def paramRow (s : State) (c : DCtx) (base : Nat) : List Fp :=
  match rwPfmt c.d with
  | some f => ((readRow (s.rd c.site) f base (Sys2Proof.Config.scalePlane (c.d + base) % sramSize) (rwN c.d) 0).vals.map
      (rowElem none)).map (·.1)
  | none => []

/-- The label of row r: none for an ignored row, and whether it lies outside its range (R142). -/
def rowLabel (d : Nat) (x : RAcc) (site r : Nat) : Option Nat × Bool :=
  let v := sext (x.st.le (sramBase site + rwBase d 2 + 4 * r) 4) 32
  if v < 0 then (none, decide (v < -1)) else if (rwN d : Int) ≤ v then (none, true) else (some v.toNat, false)

/-- The key of a ROW's random words (R140). -/
def rowKey (s : State) (c : DCtx) : SrKey :=
  s.srKey c 3 0 (if namesRecord (rwCode c.d 1) (rwRec c.d 1) then s.tensorId c.site (rwRec c.d 1) else 0xFFFFFFFF)

/-- Values written to row r of Y. -/
def rowOut (s : State) (c : DCtx) (r : Nat) (l : List Fp) (x : RAcc) : RAcc :=
  let d := c.d
  match rwFmt d 1 with
  | none => x
  | some f =>
    let loss := rwOp d == roXentF
    let a := if loss then rwBase d 1 + 4 * r else rwBase d 1 + r * rwStride d 1
    let e0 := if loss then rwOrigin d + r else rwOrigin d + r * rwN d
    let sc := s.scaleFor c f false (rwRec d 1)
    let (cb, sb, ev) := writeRow f (fun i => rndOf (rwRnd d) (rowKey s c) (e0 + i)) sc l
      (x.st.rd c.site (a + codeBytes f l.length - 1))
    let ws := [(a, cb)] ++ (if sb = [] then [] else [(rwAux d 1 r f, sb)])
    { x with
      st := x.st.applyWrites c.site ws, writes := x.writes ++ ws, out := x.out.join ev
      dec := x.dec.join { scaleNaN := optNaN sc } }

/-- The entry a forward operation saves (R144). -/
def saveEntry (d : Nat) (st : RowStats) : StatEntry :=
  { mu := toFp32 st.mu, r := toFp32 st.r, m := toFp32 st.m, sigma := toFp32 st.sigma, kind := rwKind d
    step := dTag d % 2 ^ 16, bad := .clean }

/-- A forward row (R140 to R142, R144). -/
def rowFwd (s : State) (c : DCtx) (gamma beta : Nat → Fp) (r : Nat) (x : RAcc) : RAcc :=
  let d := c.d
  let (l, x1) := rowIn s c 0 r x
  let st := statsOf d l
  let x2 := if rwWritesStat d then { x1 with stats := x1.stats ++ [(rwStat d + r, saveEntry d st)] } else x1
  if rwOp d = roXentF then
    let (lab, bad) := rowLabel d x2 c.site r
    let x3 := { x2 with labelBad := x2.labelBad || bad, reads := x2.reads ++ [(rwBase d 2 + 4 * r, 4)] }
    match lab with
    | none => rowOut s c r [Fp.zero] { x3 with dec := x.dec }
    | some k =>
      rowOut s c r (rowForward d st gamma beta k l) { x3 with nan := x3.nan || st.m.isNaN }
  else
    let y := rowForward d st gamma beta 0 l
    rowOut s c r y { x2 with nan := x2.nan || y.any Fp.isNaN, inf := x2.inf || y.any Fp.isInf }

/-- The statistics of a backward row: from the store on a hit, else recomputed; a damaged entry is dropped (R144 to R146). -/
def rowStats (s : State) (c : DCtx) (r : Nat) (l : List Fp) (x : RAcc) : RowStats × RAcc :=
  let d := c.d
  let n := rwStat d + r
  let entry : Option StatEntry := sget none ((s.tile c.site).stats.map fun p => (p.1, some p.2)) n
  let miss := fun (x : RAcc) => (statsOf d l, { x with misses := x.misses + 1 })
  match entry with
  | none => miss x
  | some e =>
    if e.bad = .uncorrectable then miss { x with dropped := x.dropped ++ [n] }
    else if e.kind = rwKind d ∧ e.step = dTag d % 2 ^ 16 then
      (⟨fp32 e.mu, fp32 e.r, fp32 e.m, fp32 e.sigma⟩, x)
    else miss x

/-- dγ and dβ of a row added to the buffer (R143). -/
def rowPgrad (c : DCtx) (st : RowStats) (l dy : List Fp) (x : RAcc) : RAcc :=
  let d := c.d
  if rwUsesPgrad d then
    let n := rwN d
    let old := fun i => fp32 (x.st.le (sramBase c.site + rwPgrad d + 4 * i) 4)
    let dg := (dy.zip (xhat st l)).zipIdx.map fun (p, i) => f32Add (old i) (f32Mul p.1 p.2)
    let db := dy.zipIdx.map fun (y, i) => f32Add (old (n + i)) y
    let vs := dg ++ db
    let ws := [(rwPgrad d, vs.flatMap fun v => leBytes (encodeFp fFP32 v) 4)]
    { x with
      st := x.st.applyWrites c.site ws, writes := x.writes ++ ws, reads := x.reads ++ [(rwPgrad d, 8 * n)]
      nan := x.nan || vs.any Fp.isNaN, inf := x.inf || vs.any Fp.isInf }
  else x

/-- A backward row (R143). -/
def rowBwd (s : State) (c : DCtx) (gamma : Nat → Fp) (r : Nat) (x : RAcc) : RAcc :=
  let d := c.d
  let (l, x1) := rowIn s c 0 r x
  let (dy, x2) := if rwHasG d then rowIn s c 2 r x1 else ([], x1)
  let (st, x3) := if rwReadsStat d then rowStats s c r l x2 else ({}, x2)
  let put := fun (lab : Nat) (g : Fp) (x : RAcc) =>
    let y := rowBackward d st gamma lab g l dy
    rowOut s c r y { x with nan := x.nan || y.any Fp.isNaN, inf := x.inf || y.any Fp.isInf }
  if rwOp d = roXentB then
    let (lab, bad) := rowLabel d x3 c.site r
    let x4 := { x3 with labelBad := x3.labelBad || bad, reads := x3.reads ++ [(rwBase d 2 + 4 * r, 4), (rwGamma d, 4)] }
    match lab with
    | none => rowOut s c r (l.map fun _ => Fp.zero) { x4 with dec := x.dec }
    | some k => put k (fp32 (x4.st.le (sramBase c.site + rwGamma d) 4)) x4
  else rowPgrad c st l dy (put 0 Fp.zero x3)

/-- Rows r, r + 1, … -/
def rowIters (f : Nat → RAcc → RAcc) : Nat → Nat → RAcc → RAcc
  | 0, _, x => x
  | n + 1, r, x => rowIters f n (r + 1) (f r x)

/-- Regions of γ and β. -/
def paramRegions (d : Nat) : List (Nat × Nat) :=
  match rwPfmt d with
  | some f =>
    (if rwUsesGamma d then [(rwGamma d, codeBytes f (rwN d))] else []) ++
    (if rwUsesBeta d then [(rwBeta d, codeBytes f (rwN d))] else [])
  | none => []

/-- What a ROW does (R137 to R146). -/
def rowEff (s : State) (c : DCtx) : Eff :=
  let d := c.d
  let gs := if rwUsesGamma d then paramRow s c (rwGamma d) else []
  let bs := if rwUsesBeta d then paramRow s c (rwBeta d) else []
  let gamma := fun i => if rwUsesGamma d then gs.getD i Fp.zero else Fp.one
  let beta := fun i => if rwUsesBeta d then bs.getD i Fp.zero else Fp.zero
  let step := if rwOp d ≤ 5 then rowFwd s c gamma beta else rowBwd s c gamma
  let x := rowIters step (rwRows d) 0 { st := s }
  { reads := paramRegions d ++ x.reads, writes := x.writes, stats := x.stats, dropped := x.dropped
    merges := if namesRecord (rwCode d 1) (rwRec d 1) then s.mergeOf c (rwRec d 1) x.out else []
    sat := x.conv.sat + x.out.sat, ftz := x.conv.ftz + x.out.ftz, esc := x.dec.annex
    nan := x.nan || x.out.nan, inf := x.inf || x.out.inf, rsvd := x.dec.rsvd, scaleNaN := x.dec.scaleNaN
    adds := [(R.TIL_ROW_MISS, x.misses)], ors := if x.labelBad then [(R.TIL_ROW_FLAGS, 1)] else [], overrun := x.pastEnd }

/-! ### Checks (R91, R139) -/

/-- Rows of operand i as regions. -/
def rwRegions (d i : Nat) (f : Fmt) : List (Nat × Nat) :=
  (List.range (rwRows d)).flatMap fun r =>
    (rwBase d i + r * rwStride d i, codeBytes f (rwN d)) ::
    (if f.hasScalePlane then [(rwAux d i r f, scaleBytes f (rwN d))] else [])

def isFloatFmt (f : Option Fmt) : Bool :=
  match f with
  | some x => !x.isInt && x != .t2
  | none => true

/-- Reasons of a row operand of format f. -/
def rwOperand (d i : Nat) : List Nat :=
  match rwFmt d i with
  | none => [rjFmtRsvd]
  | some f =>
    rj (f.isBlock && ((i != 2 && rwN d % 32 != 0) || rwStride d i % blkBytes f != 0)) rjBadLayout ++
    rj (needsRec (some f) false (rwRec d i)) rjFmtScale ++
    rj ((rwRegions d i f).any fun g => outside g.1 g.2) rjAddrRange

/-- Reasons of γ and β. -/
def rwParams (d : Nat) : List Nat :=
  if rwUsesGamma d || rwUsesBeta d then
    rj (rwPfmt d).isNone rjFmtRsvd ++ rj (!isFloatFmt (rwPfmt d)) rjFmtRole ++ rj (needsRec (rwPfmt d) false 0xFFFF) rjFmtScale ++
    rj ((paramRegions d).any fun g => outside g.1 g.2) rjAddrRange
  else []

/-- The checks of R139. -/
def rowReasons (d : Nat) : List Nat :=
  if rowOps.contains (rwOp d) = false then [rjKindField]
  else
    rj ((rwWritesStat d || rwReadsStat d) && decide (16384 < rwStat d + rwRows d)) rjShapeLimit ++
    rj (rwRnd d == 3) rjRndRsvd ++
    rj (!isFloatFmt (rwFmt d 0) || !isFloatFmt (rwFmt d 1)) rjFmtRole ++ rwOperand d 0 ++
    (if rwOp d = roXentF then
      rj (rwFmt d 1 != some .fp32) rjFmtRole ++ rj (rwFmt d 1).isNone rjFmtRsvd ++ rj (outside (rwBase d 1) (4 * rwRows d)) rjAddrRange
     else rwOperand d 1) ++
    (if rwHasG d then rwOperand d 2 else []) ++
    (if rwXent d then
      rj (rwFmt d 2).isNone rjFmtRsvd ++ rj (rwFmt d 2 != some .int32) rjFmtRole ++ rj (outside (rwBase d 2) (4 * rwRows d)) rjAddrRange
     else []) ++
    rj (rwOp d == roXentB && outside (rwGamma d) 4) rjAddrRange ++
    rj (rwUsesPgrad d && outside (rwPgrad d) (8 * rwN d)) rjAddrRange ++ rwParams d

/-- Tensor records a ROW reads. -/
def rowRecs (d : Nat) : List Nat :=
  let u := fun i => if namesRecord (rwCode d i) (rwRec d i) then [rwRec d i] else []
  u 0 ++ u 1 ++ (if rwHasG d then u 2 else [])

def rowCheck (_ : State) (c : DCtx) : Meaning := ⟨rowRecs c.d, rowReasons c.d⟩

def rowRun (s : State) (c : DCtx) : State := s.runEff c (rowEff s c)

/-- A ROW whose OP is `op`; a reserved OP meets its rejection under the first operation. -/
def isRowOp (op d : Nat) : Bool :=
  dKind d == 4 && (rwOp d == op || (op == roLnormF && !rowOps.contains (rwOp d)))

def State.rowOp (s : State) (op tile pos : Nat) : State := s.issueWith tile pos (isRowOp op) rowCheck rowRun

/-- LNORM_F (R140). -/
def execLnormF (tile pos : Nat) (s : State) : Host.Outcome State Fault Refusal := .next (s.rowOp roLnormF tile pos)

/-- RMS_F (R140). -/
def execRmsF (tile pos : Nat) (s : State) : Host.Outcome State Fault Refusal := .next (s.rowOp roRmsF tile pos)

/-- SOFTMAX_F (R140). -/
def execSoftmaxF (tile pos : Nat) (s : State) : Host.Outcome State Fault Refusal := .next (s.rowOp roSoftmaxF tile pos)

/-- LOGSM_F (R140). -/
def execLogsmF (tile pos : Nat) (s : State) : Host.Outcome State Fault Refusal := .next (s.rowOp roLogsmF tile pos)

/-- XENT_F (R140, R142). -/
def execXentF (tile pos : Nat) (s : State) : Host.Outcome State Fault Refusal := .next (s.rowOp roXentF tile pos)

/-- LNORM_B (R143). -/
def execLnormB (tile pos : Nat) (s : State) : Host.Outcome State Fault Refusal := .next (s.rowOp roLnormB tile pos)

/-- RMS_B (R143). -/
def execRmsB (tile pos : Nat) (s : State) : Host.Outcome State Fault Refusal := .next (s.rowOp roRmsB tile pos)

/-- SOFTMAX_B (R143). -/
def execSoftmaxB (tile pos : Nat) (s : State) : Host.Outcome State Fault Refusal := .next (s.rowOp roSoftmaxB tile pos)

/-- LOGSM_B (R143). -/
def execLogsmB (tile pos : Nat) (s : State) : Host.Outcome State Fault Refusal := .next (s.rowOp roLogsmB tile pos)

/-- XENT_B (R142, R143). -/
def execXentB (tile pos : Nat) (s : State) : Host.Outcome State Fault Refusal := .next (s.rowOp roXentB tile pos)

/-! ### Invalidation (R145, R229) -/

/-- Every entry of a site's statistics store becomes invalid, and its epoch counts it. -/
def State.invalStats (s : State) (site : Nat) : State :=
  (s.modTile site fun t => { t with stats := [] }).setReg site R.TIL_STAT_EPOCH ((s.reg site R.TIL_STAT_EPOCH + 1) % 2 ^ 16)

/-- INVAL (R145): a write of TIL_ROW_CTL with INVAL = 1. -/
def execInval (src : Src) (tile : Nat) (s : State) : Host.Outcome State Fault Refusal :=
  .next (if isTile tile then s.onWrite src tile R.TIL_ROW_CTL fun a => a.invalStats (a.siteOf tile) else s)

end Sys2Proof.Machine
end

