-- ==== Sys2Proof/Machine/Att.lean ====
section
/-! DEFINITION. Machine/Att.lean: the ATT descriptor (R195 to R203): masks, the online softmax of BLOCK and the combination of
MERGE. -/
namespace Sys2Proof.Machine

/-! ### The ATT body (R196) -/

def atRec (d : Nat) : Nat := df d 16 15 0 * 64
def atOp (d : Nat) : Nat := df d 18 3 0
def atInit (d : Nat) : Bool := df d 18 4 4 == 1
def atFinal (d : Nat) : Bool := df d 18 5 5 == 1
def atCausal (d : Nat) : Bool := df d 18 6 6 == 1
def atSegEn (d : Nat) : Bool := df d 18 7 7 == 1
def atM (d : Nat) : Nat := df d 19 5 0 + 1
def atLse (d : Nat) : Bool := df d 19 6 6 == 1
def atNk (d : Nat) : Nat := df d 20 6 0 + 1
def atQ (d : Nat) : Nat := df d 24 16 0 * 32
def atQaux (d : Nat) : Nat := df d 24 33 17 * 32
def atK (d : Nat) : Nat := df d 24 50 34 * 32
def atKaux (d : Nat) : Nat := df d 32 16 0 * 32
def atV (d : Nat) : Nat := df d 32 33 17 * 32
def atO (d : Nat) : Nat := df d 40 15 0 * 64
def atState (d : Nat) : Nat := df d 40 31 16 * 64
def atSegQ (d : Nat) : Nat := df d 44 15 0 * 64
def atSegK (d : Nat) : Nat := df d 44 31 16 * 64
def atQpos (d : Nat) : Nat := df d 48 25 0
def atKpos (d : Nat) : Nat := df d 52 25 0
def atOrigin (d : Nat) : Nat := df d 56 41 0

/-- The 64 bytes of the attention record, read at issue (R195, R230). -/
def State.attRec (s : State) (c : DCtx) : Nat := s.le (sramBase c.site + atRec c.d) 64

/-- The head size of a DH code (R178). -/
def headSize (code : Nat) : Nat := 32 * 2 ^ (code % 4)

/-- Format i of an attention record's leading bytes. -/
def arFmt (a i : Nat) : Option Fmt := Fmt.ofCode (df a i 4 0)

/-! ### The forward record (R195) -/

def arD (a : Nat) : Nat := headSize (df a 4 1 0)
def arRnd (a : Nat) : Nat := df a 4 3 2
def arScale (a : Nat) : Fp := fp32 (df a 8 31 0)
def arWindow (a : Nat) : Nat := df a 0x0C 25 0
def arTrec (a i : Nat) : Nat := df a (0x10 + 2 * i) 15 0
def arQstride (a : Nat) : Nat := df a 0x18 31 0
def arOstride (a : Nat) : Nat := df a 0x1C 31 0
def arOpitch (a : Nat) : Nat := df a 0x20 31 0

/-- Query rows of a format with their scale plane. -/
def qRows (d : Nat) (f : Fmt) (stride dh : Nat) : MatSrc := ⟨f, atQ d, atQaux d, stride, atM d, dh⟩

/-- Key rows: dense token slots (R174, R195). -/
def kRows (d : Nat) (f : Fmt) (dh : Nat) : MatSrc := ⟨f, atK d, atKaux d, codeBytes f dh, atNk d, dh⟩

/-- Value rows. -/
def vRows (d : Nat) (f : Fmt) (dh : Nat) : MatSrc := ⟨f, atV d, 0, codeBytes f dh, atNk d, dh⟩

/-- Key j is masked for query row i (R198). -/
def attMasked (rd : Nat → Nat) (d window i j : Nat) : Bool :=
  let q := atQpos d + i
  let k := atKpos d + j
  let seg := fun b n => rd (b + 2 * n) + 256 * rd (b + 2 * n + 1)
  (atCausal d && decide (q < k)) || (window != 0 && decide (window ≤ q - k) && decide (k ≤ q)) ||
  (atSegEn d && seg (atSegQ d) i != seg (atSegK d) j)

/-- A W36 sum of products over K indices 0 to n − 1, scaled as R41 states. -/
def dotW36 (rs : Option Fp) (n : Nat) (a b : Nat → Fp) : Fp :=
  applyRs rs (accElem (fun k => (a k).mul (b k)) n (max 32 n) (fun _ => .rne) Fp.zero).acc

/-- The logits before masking: s = rne32(q·k). -/
def attLogits (rs : Option Fp) (dh : Nat) (qs ks : List (List Fp)) : List (List Fp) :=
  qs.map fun q => ks.map fun k => rne32 (dotW36 rs dh (fun i => q.getD i Fp.zero) (fun i => k.getD i Fp.zero))

/-- x of R199: masked logits are −Inf. -/
def attX (rd : Nat → Nat) (d window : Nat) (scale : Fp) (l : List (List Fp)) : List (List Fp) :=
  l.zipIdx.map fun (row, i) => row.zipIdx.map fun (v, j) =>
    if attMasked rd d window i j then .inf true else rne32 (v.mul scale)

/-! ### The state area (R197) -/

/-- One row of the running state. -/
structure AttRow where
  m : Fp
  l : Fp
  o : List Fp
  deriving DecidableEq, Repr

def attStateSize (dh : Nat) : Nat := 0x4200 + 256 * dh

/-- The state of row i at an area. -/
def readAttRow (rd : Nat → Nat) (base dh i : Nat) : AttRow :=
  let w := fun a => fp32 (leNat ((List.range 4).map fun k => rd (a + k)))
  ⟨w (base + 4 * i), w (base + 0x100 + 4 * i), (List.range dh).map fun c => w (base + 0x4200 + 4 * (i * dh + c))⟩

/-- The empty state of a row. -/
def emptyAttRow (dh : Nat) : AttRow := ⟨.inf true, Fp.zero, (List.range dh).map fun _ => Fp.zero⟩

/-- FP32 values as bytes. -/
def fp32Bytes (l : List Fp) : List Nat := l.flatMap fun v => leBytes (encodeFp fFP32 v) 4

/-- Writes of the state rows. -/
def attStateWrites (base dh : Nat) (rows : List AttRow) : List (Nat × List Nat) :=
  [(base, fp32Bytes (rows.map (·.m))), (base + 0x100, fp32Bytes (rows.map (·.l)))] ++
  rows.zipIdx.map fun (r, i) => (base + 0x4200 + 4 * (i * dh), fp32Bytes r.o)

/-- A probability rounded to BF16, with the flush count of its conversion. -/
def toBf16 (x : Fp) : Fp × ConvEv := convFp fBF16 .rne x

/-- One row of BLOCK (R199): the new state and the probabilities. -/
def attBlockRow (rsV : Option Fp) (x : List Fp) (vs : List (List Fp)) (st : AttRow) : AttRow × List (Fp × ConvEv) :=
  let mn := fpMax st.m (x.foldl fpMax (.inf true))
  if mn = .inf true then (st, x.map fun _ => (Fp.zero, {}))
  else
    let alpha := if st.m.eqv mn then Fp.one else expF (f32Sub st.m mn)
    let ps := x.map fun v => toBf16 (if v.eqv mn then Fp.one else expF (f32Sub v mn))
    let p := ps.map (·.1)
    let l := f32Add (f32Mul st.l alpha) (rne32 (rowSum p))
    let o := st.o.zipIdx.map fun (oc, c) =>
      f32Add (f32Mul oc alpha) (rne32 (dotW36 rsV p.length (fun j => p.getD j Fp.zero) (fun j => at2 vs j c)))
    (⟨mn, l, o⟩, ps)

/-- One row of MERGE (R202). -/
def attMergeRow (a b : AttRow) : AttRow :=
  let m := fpMax a.m b.m
  if m = .inf true then a
  else
    let f := fun (v : Fp) => if v.eqv m then Fp.one else expF (f32Sub v m)
    let fa := f a.m
    let fb := f b.m
    ⟨m, f32Add (f32Mul a.l fa) (f32Mul b.l fb), (a.o.zip b.o).map fun p => f32Add (f32Mul p.1 fa) (f32Mul p.2 fb)⟩

/-- The output row and LSE of FINAL (R199, R201). -/
def attFinal (r : AttRow) : List Fp × Fp :=
  if r.m = .inf true ∧ r.l.isZero = true then (r.o.map fun _ => Fp.zero, .inf true)
  else (r.o.map fun v => f32Div v r.l, f32Add r.m (logF r.l))

/-- Accumulator elements that an ATT leaves: no rule says which product stands in which bank, so the rows it used hold free
values in both (log entry 18). -/
def freeBanks (s : State) (m : Nat) : List (Nat × Nat) :=
  (List.range (2 * m * 128)).map fun k =>
    (k / (m * 128) * 8192 + k % (m * 128), Sys2Proof.Config.freeNat (s.freeCtr + k) % 2 ^ 36)

/-- Free bytes, taken after the first n free values. -/
def freeBytesAt (s : State) (skip n : Nat) : List Nat :=
  (List.range n).map fun k => Sys2Proof.Config.freeNat (s.freeCtr + skip + k) % 256

/-- Effect of a set of state rows: state, probabilities and, at FINAL, outputs and LSE. -/
def attFinish (s : State) (c : DCtx) (a : Nat) (rows : List AttRow) (e : Eff) : Eff :=
  let d := c.d
  let dh := arD a
  let bad := fun (p : Fp → Bool) => rows.any fun r => p r.l || r.o.any p
  let e1 : Eff :=
    { e with
      writes := e.writes ++ attStateWrites (atState d) dh rows, banks := freeBanks s (atM d)
      nan := e.nan || bad Fp.isNaN, inf := e.inf || bad Fp.isInf }
  match atFinal d, arFmt a 3 with
  | true, some f =>
    let key := s.srKey c 3 0 (s.tensorId c.site (arTrec a 3))
    let sc := s.scaleFor c f false (arTrec a 3)
    let outs := rows.map attFinal
    let w : Drain := ⟨f, arRnd a, sc, key, fun i => atO d + i * arOstride a, fun _ => 0,
      fun i k => atOrigin d + i * arOpitch a + k⟩
    let (ws, ev) := drainRows (s.rd c.site) w (outs.map (·.1))
    let lse := if atLse d then [(atO d + atM d * arOstride a, fp32Bytes (outs.map (·.2)))] else []
    { e1 with
      writes := e1.writes ++ ws ++ lse, sat := e1.sat + ev.sat, ftz := e1.ftz + ev.ftz, nan := e1.nan || ev.nan
      inf := e1.inf || ev.inf, scaleNaN := e1.scaleNaN || optNaN sc, merges := s.mergeOf c (arTrec a 3) ev }
  | _, _ => e1

/-- Regions of segment IDs. -/
def segRegions (d : Nat) : List (Nat × Nat) :=
  if atSegEn d then [(atSegQ d, 2 * atM d), (atSegK d, 2 * atNk d)] else []

/-- The state area's region. -/
def attStateRegion (d dh : Nat) : Nat × Nat := (atState d, attStateSize dh)

/-- Annex entries read, as a region. -/
def annexRegion (aux used : Nat) : List (Nat × Nat) := if used = 0 then [] else [(aux, 2 * used)]

/-- ATT BLOCK (R199). -/
def attBlockEff (s : State) (c : DCtx) : Eff :=
  let d := c.d
  let a := s.attRec c
  let dh := arD a
  match arFmt a 0, arFmt a 1, arFmt a 2 with
  | some fq, some fk, some fv =>
    let rd := s.rd c.site
    let mq := qRows d fq (arQstride a) dh
    let mk := kRows d fk dh
    let mv := vRows d fv dh
    let (qs, nq, eq) := mq.read rd
    let (ks, nk, ek) := mk.read rd
    let (vs, _, ev) := mv.read rd
    let rsQ := s.rscaleOf c fq false (arTrec a 0)
    let rsK := s.rscaleOf c fk false (arTrec a 1)
    let rsV := s.rscaleOf c fv false (arTrec a 2)
    let logits := attLogits (rscaleProd rsQ rsK) dh qs ks
    let xs := attX rd d (arWindow a) (arScale a) logits
    let res := xs.zipIdx.map fun (x, i) =>
      attBlockRow rsV x vs (if atInit d then emptyAttRow dh else readAttRow rd (atState d) dh i)
    let ev3 := eq.join (ek.join ev)
    let ps := res.map (·.2)
    attFinish s c a (res.map (·.1))
      { reads := (atRec d, 64) :: (mq.regions ++ mk.regions ++ mv.regions ++ segRegions d ++ annexRegion (atQaux d) nq ++
          annexRegion (atKaux d) nk ++ (if atInit d then [] else [attStateRegion d dh]))
        writes := ps.zipIdx.map fun (l, i) => (atState d + 0x200 + 256 * i, l.flatMap fun p => leBytes (encodeFp fBF16 p.1) 2)
        ftz := sumNat (ps.map fun l => sumNat (l.map fun p => p.2.ftz)), esc := ev3.annex, rsvd := ev3.rsvd
        nan := logits.any fun r => r.any Fp.isNaN, inf := logits.any fun r => r.any Fp.isInf
        scaleNaN := ev3.scaleNaN || optNaN rsQ || optNaN rsK || optNaN rsV
        overrun := annexOver (atQaux d) nq || annexOver (atKaux d) nk }
  | _, _, _ => {}

/-- ATT MERGE (R202). -/
def attMergeEff (s : State) (c : DCtx) : Eff :=
  let d := c.d
  let a := s.attRec c
  let dh := arD a
  let rd := s.rd c.site
  let rows := (List.range (atM d)).map fun i => attMergeRow (if atInit d then emptyAttRow dh else readAttRow rd (atState d) dh i)
    (readAttRow rd (atQ d) dh i)
  attFinish s c a rows { reads := [(atRec d, 64), (atQ d, attStateSize dh)] ++ (if atInit d then [] else [attStateRegion d dh]) }

/-! ### Checks (R203) -/

/-- Two regions share a byte. -/
def regionMeets (a b : Nat × Nat) : Bool := a.2 != 0 && b.2 != 0 && decide (a.1 < b.1 + b.2) && decide (b.1 < a.1 + a.2)

def anyMeets (as bs : List (Nat × Nat)) : Bool := as.any fun a => bs.any (regionMeets a)

/-- A format that ATT accepts as Q or K, and as V or O (R203). -/
def attQk (f : Fmt) : Bool := f != .fp32 && f != .t2 && !f.isInt
def attVo (f : Fmt) : Bool := f != .fp32 && !f.isBlock && !f.isInt

/-- A stride of Q that is not whole blocks. -/
def qLayout (f : Option Fmt) (stride : Nat) : List Nat :=
  match f with
  | some x => rj (x.isBlock && stride % blkBytes x != 0) rjBadLayout
  | none => []

def fmtIs (f : Option Fmt) (p : Fmt → Bool) : Bool :=
  match f with
  | some x => p x
  | none => true

/-- Regions of the operands of BLOCK. -/
def attOperands (d a : Nat) : List (Nat × Nat) :=
  let dh := arD a
  (match arFmt a 0 with
   | some f => (qRows d f (arQstride a) dh).regions
   | none => []) ++
  (match arFmt a 1 with
   | some f => (kRows d f dh).regions
   | none => []) ++
  (match arFmt a 2 with
   | some f => (vRows d f dh).regions
   | none => []) ++ segRegions d

/-- Regions FINAL writes beside the state. -/
def attOutRegions (d a : Nat) : List (Nat × Nat) :=
  if atFinal d then
    (match arFmt a 3 with
     | some f => (List.range (atM d)).map fun i => (atO d + i * arOstride a, codeBytes f (arD a))
     | none => []) ++ (if atLse d then [(atO d + atM d * arOstride a, 4 * atM d)] else [])
  else []

/-- Reasons of the output fields. -/
def attOutReasons (d a : Nat) : List Nat :=
  rj (arFmt a 3).isNone rjFmtRsvd ++ rj (!fmtIs (arFmt a 3) attVo) rjFmtRole ++
  rj (atFinal d && arRnd a == 3) rjRndRsvd ++ rj (atFinal d && needsRec (arFmt a 3) false (arTrec a 3)) rjFmtScale ++
  rj ((attOutRegions d a).any fun g => outside g.1 g.2) rjAddrRange

/-- The checks of BLOCK. -/
def attBlockReasons (d a : Nat) : List Nat :=
  let ops := attOperands d a
  let st := attStateRegion d (arD a)
  rj (decide (5 ≤ atOp d)) rjKindField ++
  (if 5 ≤ atOp d then [] else
    rj ((List.range 3).any fun i => (arFmt a i).isNone) rjFmtRsvd ++
    rj (!fmtIs (arFmt a 0) attQk || !fmtIs (arFmt a 1) attQk || !fmtIs (arFmt a 2) attVo) rjFmtRole ++
    rj ((List.range 3).any fun i => needsRec (arFmt a i) false (arTrec a i)) rjFmtScale ++ qLayout (arFmt a 0) (arQstride a) ++
    rj (ops.any (fun g => outside g.1 g.2) || outside st.1 st.2 || anyMeets [st] ops) rjAddrRange ++ attOutReasons d a)

/-- The checks of MERGE. -/
def attMergeReasons (d a : Nat) : List Nat :=
  let st := attStateRegion d (arD a)
  let other := (atQ d, attStateSize (arD a))
  rj (atSegEn d) rjKindField ++ rj (outside st.1 st.2 || outside other.1 other.2 || regionMeets st other) rjAddrRange ++
  attOutReasons d a

/-- Tensor records of a forward ATT. -/
def attRecs (a : Nat) (l : List Nat) : List Nat :=
  l.flatMap fun i => if namesRecord (df a i 4 0) (arTrec a i) then [arTrec a i] else []

def attBlockCheck (s : State) (c : DCtx) : Meaning :=
  let a := s.attRec c
  ⟨attRecs a ([0, 1, 2] ++ (if atFinal c.d then [3] else [])), attBlockReasons c.d a⟩

def attMergeCheck (s : State) (c : DCtx) : Meaning :=
  let a := s.attRec c
  ⟨attRecs a (if atFinal c.d then [3] else []), attMergeReasons c.d a⟩

/-- Free values used by a descriptor are used up. -/
def State.useFree (s : State) (n : Nat) : State := { s with freeCtr := s.freeCtr + n }

def attBlockRun (s : State) (c : DCtx) : State := (s.runEff c (attBlockEff s c)).useFree 16384

def attMergeRun (s : State) (c : DCtx) : State := (s.runEff c (attMergeEff s c)).useFree 16384

/-- An ATT whose OP is `op`; a reserved OP meets its rejection under BLOCK. -/
def isAttOp (op d : Nat) : Bool := dKind d == 5 && (atOp d == op || (op == 0 && decide (5 ≤ atOp d)))

/-- ATT_BLOCK (R199). -/
def execAttBlock (tile pos : Nat) (s : State) : Host.Outcome State Fault Refusal :=
  .next (s.issueWith tile pos (isAttOp 0) attBlockCheck attBlockRun)

/-- ATT_MERGE (R202). -/
def execAttMerge (tile pos : Nat) (s : State) : Host.Outcome State Fault Refusal :=
  .next (s.issueWith tile pos (isAttOp 1) attMergeCheck attMergeRun)

end Sys2Proof.Machine
end

