-- ==== Sys2Proof/Machine/AttBack.lean ====
section
/-! DEFINITION. Machine/AttBack.lean: the backward operations of ATT (R230 to R234): BPREP, BQ and BKV. -/
namespace Sys2Proof.Machine

/-! ### The backward attention record (R230) -/

abbrev bfQ : Nat := 0
abbrev bfK : Nat := 1
abbrev bfV : Nat := 2
abbrev bfDo : Nat := 3
abbrev bfO : Nat := 4
abbrev bfDq : Nat := 5
abbrev bfDk : Nat := 6
abbrev bfDv : Nat := 7

/-- Tensor record of tensor i: Q, K, V, DO, O, DQ, DK, DV, in the order of the formats. -/
def abTrec (a i : Nat) : Nat := df a (0x14 + 2 * i) 15 0
def abD (a : Nat) : Nat := headSize (df a 8 1 0)
def abRnd (a : Nat) : Nat := df a 8 3 2
def abScale (a : Nat) : Fp := fp32 (df a 0x0C 31 0)
def abWindow (a : Nat) : Nat := df a 0x10 25 0
def abQstride (a : Nat) : Nat := df a 0x24 31 0
def abDoStride (a : Nat) : Nat := df a 0x28 31 0
def abPitch (a : Nat) : Nat := df a 0x2C 31 0

/-- Where the LSE values lie, with Δ directly after (R232). -/
def lseAt (d a : Nat) : Nat := atO d + atM d * abDoStride a
def deltaAt (d a : Nat) : Nat := lseAt d a + 4 * atM d

/-- dO rows (R231). -/
def doRows (d a : Nat) (f : Fmt) : MatSrc := ⟨f, atO d, 0, abDoStride a, atM d, abD a⟩

/-- O rows of BPREP. -/
def oRows (d a : Nat) (f : Fmt) : MatSrc := ⟨f, atQ d, atQaux d, abDoStride a, atM d, abD a⟩

/-- An FP32 value at a byte. -/
def f32At (rd : Nat → Nat) (a : Nat) : Fp := fp32 (leNat ((List.range 4).map fun k => rd (a + k)))

/-- BPREP (R233): Δ of each query row. -/
def bprepEff (s : State) (c : DCtx) : Eff :=
  let d := c.d
  let a := s.attRec c
  match arFmt a bfDo, arFmt a bfO with
  | some fd, some fo =>
    let rd := s.rd c.site
    let md := doRows d a fd
    let mo := oRows d a fo
    let (dos, _, ed) := md.read rd
    let (os, no, eo) := mo.read rd
    let rsD := s.rscaleOf c fd false (abTrec a bfDo)
    let rsO := s.rscaleOf c fo false (abTrec a bfO)
    let delta := (dos.zip os).map fun p =>
      rne32 (applyRs (rscaleProd rsD rsO) (rowSum ((p.1.zip p.2).map fun q => w36 (q.1.mul q.2))))
    { reads := (atRec d, 64) :: (md.regions ++ mo.regions ++ annexRegion (atQaux d) no)
      writes := [(deltaAt d a, fp32Bytes delta)], banks := freeBanks s (atM d)
      esc := ed.annex + eo.annex, rsvd := ed.rsvd || eo.rsvd
      scaleNaN := ed.scaleNaN || eo.scaleNaN || optNaN rsD || optNaN rsO
      nan := delta.any Fp.isNaN, inf := delta.any Fp.isInf, overrun := annexOver (atQaux d) no }
  | _, _ => {}

/-- Probabilities and dS of a pair of blocks, with the operands they came from. -/
structure BackCore where
  q : List (List Fp)
  k : List (List Fp)
  dO : List (List Fp)
  p : List (List (Fp × ConvEv))
  ds : List (List (Fp × ConvEv))
  rsQ : Option Fp
  rsK : Option Fp
  rsD : Option Fp
  reads : List (Nat × Nat)
  ev : DecEv
  nan : Bool
  inf : Bool
  pastEnd : Bool

/-- p of one pair (R233). -/
def backP (x lse : Fp) (masked : Bool) : Fp × ConvEv :=
  if masked || lse == .inf true then (Fp.zero, {}) else toBf16 (expF (f32Sub x lse))

/-- The part BQ and BKV share: logits, p, dp and ds. -/
def backCore (s : State) (c : DCtx) (a : Nat) (fq fk fv fd : Fmt) : BackCore :=
  let d := c.d
  let dh := abD a
  let rd := s.rd c.site
  let mq := qRows d fq (abQstride a) dh
  let mk := kRows d fk dh
  let mv := vRows d fv dh
  let md := doRows d a fd
  let (qs, nq, eq) := mq.read rd
  let (ks, nk, ek) := mk.read rd
  let (vs, _, ev) := mv.read rd
  let (dos, _, ed) := md.read rd
  let rs := fun f i => s.rscaleOf c f false (abTrec a i)
  let rsQ := rs fq bfQ
  let rsK := rs fk bfK
  let rsV := rs fv bfV
  let rsD := rs fd bfDo
  let logits := attLogits (rscaleProd rsQ rsK) dh qs ks
  let masked := attMasked rd d (abWindow a)
  let p := logits.zipIdx.map fun (row, i) => row.zipIdx.map fun (v, j) =>
    backP (rne32 (v.mul (abScale a))) (f32At rd (lseAt d a + 4 * i)) (masked i j)
  let dp := attLogits (rscaleProd rsD rsV) dh dos vs
  let ds := p.zipIdx.map fun (row, i) => row.zipIdx.map fun (pv, j) =>
    if masked i j then (Fp.zero, ({} : ConvEv))
    else toBf16 (f32Mul pv.1 (f32Sub (at2 dp i j) (f32At rd (deltaAt d a + 4 * i))))
  let bad := fun (t : Fp → Bool) => [logits, dp].any fun l => l.any fun r => r.any t
  { q := qs, k := ks, dO := dos, p := p, ds := ds, rsQ := rsQ, rsK := rsK, rsD := rsD
    reads := (atRec d, 64) :: (mq.regions ++ mk.regions ++ mv.regions ++ md.regions ++ [(lseAt d a, 8 * atM d)] ++ segRegions d ++
      annexRegion (atQaux d) nq ++ annexRegion (atKaux d) nk)
    ev := { eq.join (ek.join (ev.join ed)) with
      scaleNaN := eq.scaleNaN || ek.scaleNaN || ev.scaleNaN || ed.scaleNaN || [rsQ, rsK, rsV, rsD].any optNaN }
    nan := bad Fp.isNaN || ds.any (fun r => r.any fun v => v.1.isNaN)
    inf := bad Fp.isInf || ds.any (fun r => r.any fun v => v.1.isInf)
    pastEnd := annexOver (atQaux d) nq || annexOver (atKaux d) nk }

/-- BF16 scratch rows of 128 elements. -/
def scratchWrites (base : Nat) (l : List (List (Fp × ConvEv))) : List (Nat × List Nat) :=
  l.zipIdx.map fun (r, i) => (base + 256 * i, r.flatMap fun p => leBytes (encodeFp fBF16 p.1) 2)

def ftzOf (l : List (List (Fp × ConvEv))) : Nat := sumNat (l.map fun r => sumNat (r.map fun p => p.2.ftz))

/-- An accumulator of n rows at a byte: +0 with INIT. -/
def accumAt (rd : Nat → Nat) (init : Bool) (base dh r c : Nat) : Fp :=
  if init then Fp.zero else f32At rd (base + 4 * (r * dh + c))

/-- One output of a backward operation at FINAL: the packed rows, the accumulators' remaining bytes undefined (R232). -/
def backOut (s : State) (c : DCtx) (a i base skip : Nat) (rows : List (List Fp)) : List (Nat × List Nat) × OutEv × Bool :=
  match arFmt a i with
  | none => ([], {}, false)
  | some f =>
    let dh := abD a
    let w := codeBytes f dh
    let sc := s.scaleFor c f false (abTrec a i)
    let dr : Drain := ⟨f, abRnd a, sc, s.srKey c 3 0 (s.tensorId c.site (abTrec a i)), fun r => base + r * w, fun _ => 0,
      fun r k => atOrigin c.d + r * abPitch a + k⟩
    let (ws, ev) := drainRows (s.rd c.site) dr rows
    let rest := rows.length * (4 * dh - w)
    (ws ++ (if rest = 0 then [] else [(base + rows.length * w, freeBytesAt s skip rest)]), ev, optNaN sc)

/-- Free values that come before those of the outputs. -/
def bankFrees : Nat := 16384

/-- The writes of an accumulator, or at FINAL of its converted rows. -/
def backStore (s : State) (c : DCtx) (a i base skip : Nat) (scale : Option Fp) (rows : List (List Fp)) (e : Eff) : Eff :=
  let bad := fun (t : Fp → Bool) => rows.any fun r => r.any t
  let e1 := { e with nan := e.nan || bad Fp.isNaN, inf := e.inf || bad Fp.isInf }
  if atFinal c.d then
    let outs := match scale with
      | some k => rows.map fun r => r.map fun v => f32Mul v k
      | none => rows
    let (ws, ev, sn) := backOut s c a i base skip outs
    { e1 with
      writes := e1.writes ++ ws, sat := e1.sat + ev.sat, ftz := e1.ftz + ev.ftz, nan := e1.nan || ev.nan
      inf := e1.inf || ev.inf, scaleNaN := e1.scaleNaN || sn, merges := e1.merges ++ s.mergeOf c (abTrec a i) ev }
  else { e1 with writes := e1.writes ++ [(base, fp32Bytes rows.flatten)] }

/-- What BQ and BKV share of their effect. -/
def backBase (s : State) (c : DCtx) (b : BackCore) : Eff :=
  { reads := b.reads, writes := scratchWrites (atState c.d) b.p ++ scratchWrites (atState c.d + 0x4000) b.ds
    banks := freeBanks s (atM c.d), ftz := ftzOf b.p + ftzOf b.ds, esc := b.ev.annex, rsvd := b.ev.rsvd
    nan := b.nan, inf := b.inf, scaleNaN := b.ev.scaleNaN, overrun := b.pastEnd }

/-- BQ (R233). -/
def bqEff (s : State) (c : DCtx) : Eff :=
  let d := c.d
  let a := s.attRec c
  match arFmt a bfQ, arFmt a bfK, arFmt a bfV, arFmt a bfDo with
  | some fq, some fk, some fv, some fd =>
    let b := backCore s c a fq fk fv fd
    let dh := abD a
    let base := atState d + 0x8000
    let rows := b.ds.zipIdx.map fun (r, i) => (List.range dh).map fun k =>
      f32Add (accumAt (s.rd c.site) (atInit d) base dh i k)
        (rne32 (dotW36 b.rsK (atNk d) (fun j => (r.getD j (Fp.zero, {})).1) (fun j => at2 b.k j k)))
    let e := backBase s c b
    backStore s c a bfDq base bankFrees (some (abScale a)) rows
      { e with reads := e.reads ++ (if atInit d then [] else [(base, 4 * atM d * dh)]) }
  | _, _, _, _ => {}

/-- Sum over query rows of a column of p or ds times a column of an operand (R233). -/
def backCol (rs : Option Fp) (m : Nat) (l : List (List (Fp × ConvEv))) (x : List (List Fp)) (j k : Nat) : Fp :=
  rne32 (dotW36 rs m (fun i => ((l.getD i []).getD j (Fp.zero, {})).1) (fun i => at2 x i k))

/-- BKV (R233). -/
def bkvEff (s : State) (c : DCtx) : Eff :=
  let d := c.d
  let a := s.attRec c
  match arFmt a bfQ, arFmt a bfK, arFmt a bfV, arFmt a bfDo with
  | some fq, some fk, some fv, some fd =>
    let b := backCore s c a fq fk fv fd
    let dh := abD a
    let kBase := atState d + 0x8000
    let vBase := kBase + 512 * dh
    let sum := fun base rs l x => (List.range (atNk d)).map fun j => (List.range dh).map fun k =>
      f32Add (accumAt (s.rd c.site) (atInit d) base dh j k) (backCol rs (atM d) l x j k)
    let dk := sum kBase b.rsQ b.ds b.q
    let dv := sum vBase b.rsD b.p b.dO
    let e := backBase s c b
    let e1 := { e with reads := e.reads ++ (if atInit d then [] else [(kBase, 4 * atNk d * dh), (vBase, 4 * atNk d * dh)]) }
    backStore s c a bfDv vBase (bankFrees + 4 * 128 * 256) none dv
      (backStore s c a bfDk kBase bankFrees (some (abScale a)) dk e1)
  | _, _, _, _ => {}

/-! ### Checks (R234) -/

def isFp8 (f : Fmt) : Bool := f == .e4m3 || f == .e5m2
def backDoOk (f : Fmt) : Bool := isFp8 f || f == .bf16 || f == .fp16
def backOutOk (f : Fmt) : Bool := isFp8 f || f.isFloat

/-- Inputs of a backward operation and its outputs. -/
def backIns (op : Nat) : List Nat := if op = 2 then [bfDo, bfO] else [bfQ, bfK, bfV, bfDo]
def backOuts (op : Nat) : List Nat := if op = 3 then [bfDq] else if op = 4 then [bfDk, bfDv] else []

/-- The operand regions. -/
def backOperands (d a : Nat) : List (Nat × Nat) :=
  let r := fun i (m : Fmt → MatSrc) => match arFmt a i with
    | some f => (m f).regions
    | none => []
  r bfDo (doRows d a) ++
  (if atOp d = 2 then r bfO (oRows d a)
   else r bfQ (fun f => qRows d f (abQstride a) (abD a)) ++ r bfK (fun f => kRows d f (abD a)) ++
     r bfV (fun f => vRows d f (abD a)) ++ segRegions d)

/-- State area, and the LSE and Δ rows. -/
def backAreas (d a : Nat) : List (Nat × Nat) :=
  (lseAt d a, 8 * atM d) ::
  (if atOp d = 2 then [] else [(atState d, 0x8000 + (if atOp d = 3 then 256 else 1024) * abD a)])

def backReasons (d a : Nat) : List Nat :=
  let op := atOp d
  let ins := backIns op
  let outs := backOuts op
  let areas := backAreas d a
  let opnds := backOperands d a
  rj ((ins ++ outs).any fun i => (arFmt a i).isNone) rjFmtRsvd ++
  rj (!fmtIs (arFmt a bfDo) backDoOk || outs.any (fun i => !fmtIs (arFmt a i) backOutOk) ||
    (op != 2 && (!fmtIs (arFmt a bfQ) attQk || !fmtIs (arFmt a bfK) attQk || !fmtIs (arFmt a bfV) attVo))) rjFmtRole ++
  rj (ins.any (fun i => needsRec (arFmt a i) false (abTrec a i)) ||
    (atFinal d && outs.any fun i => needsRec (arFmt a i) false (abTrec a i))) rjFmtScale ++
  rj (op != 2 && atFinal d && abRnd a == 3) rjRndRsvd ++
  (if op = 2 then qLayout (arFmt a bfO) (abDoStride a) else qLayout (arFmt a bfQ) (abQstride a)) ++
  rj ((areas ++ opnds).any (fun g => outside g.1 g.2) || anyMeets areas opnds ||
    (areas.zipIdx.any fun x => areas.zipIdx.any fun y => decide (x.2 < y.2) && regionMeets x.1 y.1)) rjAddrRange

/-- Tensor records of a backward operation. -/
def backRecs (d a : Nat) : List Nat :=
  (backIns (atOp d) ++ (if atFinal d then backOuts (atOp d) else [])).flatMap fun i =>
    if namesRecord (df a i 4 0) (abTrec a i) then [abTrec a i] else []

def backCheck (s : State) (c : DCtx) : Meaning :=
  let a := s.attRec c
  ⟨backRecs c.d a, backReasons c.d a⟩

/-- Free values a backward operation may use. -/
def backFrees : Nat := bankFrees + 2 * (4 * 128 * 256)

def bprepRun (s : State) (c : DCtx) : State := (s.runEff c (bprepEff s c)).useFree backFrees
def bqRun (s : State) (c : DCtx) : State := (s.runEff c (bqEff s c)).useFree backFrees
def bkvRun (s : State) (c : DCtx) : State := (s.runEff c (bkvEff s c)).useFree backFrees

/-- BPREP (R233). -/
def execBprep (tile pos : Nat) (s : State) : Host.Outcome State Fault Refusal :=
  .next (s.issueWith tile pos (isAttOp 2) backCheck bprepRun)

/-- BQ (R233). -/
def execBq (tile pos : Nat) (s : State) : Host.Outcome State Fault Refusal :=
  .next (s.issueWith tile pos (isAttOp 3) backCheck bqRun)

/-- BKV (R233). -/
def execBkv (tile pos : Nat) (s : State) : Host.Outcome State Fault Refusal :=
  .next (s.issueWith tile pos (isAttOp 4) backCheck bkvRun)

end Sys2Proof.Machine
end

