-- ==== Sys2Proof/Machine/Crossing.lean ====
section
/-! DEFINITION. Machine/Crossing.lean: the crossing arbiter (R321 to R330): requests, effective deadlines, grants, the urgent
quota and its windows. -/
namespace Sys2Proof.Machine

def State.crs (s : State) (i : Nat) : Crossing := sget {} s.crossings i
def State.setCrs (s : State) (i : Nat) (c : Crossing) : State := { s with crossings := sset {} s.crossings i c }

/-- Servers of a crossing (R327). -/
def crsServers (i : Nat) : Nat :=
  if i < 40 then 1 else if i = 40 then 48 else if i = 41 then 32 else if i = 42 then 16 else if i = 43 then 16 else 0

/-- A grant ends by itself when its server falls free: far channels and host egress (R327). -/
def crsSelfEnding (i : Nat) : Bool := decide (i < 40)

/-- The crossing's default budget of a class (R321). -/
def State.crsDefault (s : State) (i : Nat) (urgent : Bool) : Nat :=
  s.reg (pCRS i) (if urgent then R.CRS_DEF_URGENT else R.CRS_DEF_NORMAL) % 2 ^ 24

/-- A request joins a crossing (R321). -/
def State.crsRequest (s : State) (i : Nat) (r : CrsReq) : State :=
  if r.left = 0 then s else s.setCrs i { s.crs i with reqs := (s.crs i).reqs ++ [r] }

/-- A request of another block: normal class, D its arrival plus the default (R321). -/
def State.crsPlain (s : State) (i requester left : Nat) (owner : CrsOwner := .other) : State :=
  s.crsRequest i ⟨requester, false, s.mt + s.crsDefault i false, s.mt, none, left, owner⟩

/-- Window length (R325, R329). -/
def State.crsWindow (s : State) (i : Nat) : Nat := max 1 (bits (s.reg (pCRS i) R.CRS_QUOTA) 31 8)

/-- The windows that have ended by now are ended: consecutive windows from the crossing's start (R325). -/
def State.rollWindow (s : State) (i : Nat) : State :=
  let c := s.crs i
  let w := s.crsWindow i
  let n := (s.mt - c.winStart) / w
  if n = 0 then s else s.setCrs i { c with winStart := c.winStart + n * w, urgents := [] }

/-- A requester's urgent requests are masked (R325). -/
def State.crsMasked (s : State) (i : Nat) (r : CrsReq) : Bool :=
  let q := s.reg (pCRS i) R.CRS_QUOTA % 256
  r.urgent && q != 0 && decide (q ≤ sget 0 (s.crs i).urgents r.requester)

/-- Head requests: the oldest of each requester. -/
def crsHeads : List CrsReq → List Nat → List CrsReq
  | [], _ => []
  | r :: l, seen => if seen.contains r.requester then crsHeads l seen else r :: crsHeads l (r.requester :: seen)

def State.heads (s : State) (i : Nat) : List CrsReq := crsHeads (s.crs i).reqs []

/-- The effective deadline (R322). -/
def State.effective (s : State) (i : Nat) (r : CrsReq) : Nat :=
  r.d - sget 0 (s.crs i).lost r.requester * (s.reg (pCRS i) R.CRS_CTL % 2 ^ 12)

/-- The server takes grants: a far channel or host port whose page is enabled, the port's requests allowed (R449, R477); a media
core that its pool serves and that is not disabled (R372); a check unit that is not claimed (R525). -/
def State.serverOpen (s : State) (i v : Nat) : Bool :=
  if i < 32 then s.blockRuns (pFMC i)
  else if i < 40 then s.blockRuns (pHPT (i - 32)) && bit (s.reg (pHPT (i - 32)) R.HPT_CTL) 0 && (s.port (i - 32)).busMaster
  else if i < 43 then
    let p := pMDE (i - 40)
    s.blockRuns p && bit (s.reg p R.MDE_CTL) 0 && !bit (s.reg p (R.MDE_CORE_DIS_LO + 4 * (v / 32))) (v % 32)
  else s.blockRuns (pCHK v) && !bit (s.reg (pCHK v) R.CHK_CTL) 0

/-- Servers without a grant that take one, lowest first. -/
def State.freeServers (s : State) (i : Nat) : List Nat :=
  (List.range (crsServers i)).filter fun v => s.serverOpen i v && !(s.crs i).grants.any fun g => g.1 == v

/-- A head request names this server, or names none and this is the lowest free one (R323). -/
def State.crsNames (s : State) (i : Nat) (r : CrsReq) (server : Nat) : Bool :=
  match r.server with
  | some v => v == server
  | none => (s.freeServers i).head? == some server

/-- The eligible head request with the smallest E, ties to the lower requester number (R323). -/
def State.crsBest (s : State) (i server : Nat) : Option CrsReq :=
  ((s.heads i).filter fun r => s.crsNames i r server && !s.crsMasked i r).foldl (fun best r => match best with
    | none => some r
    | some b =>
      if s.effective i r < s.effective i b ∨ (s.effective i r = s.effective i b ∧ r.requester < b.requester) then some r
      else some b) none

/-- One of a request's transfers is taken off it. -/
def takeTransfer (q : CrsReq) (now : Nat) : List CrsReq → List CrsReq
  | [] => []
  | r :: l => if r = q then (if r.left ≤ 1 then l else { r with left := r.left - 1, arrived := now } :: l) else r :: takeTransfer q now l

/-- A grant ends. -/
def State.endGrant (s : State) (i server : Nat) : State :=
  s.setCrs i { s.crs i with grants := sdel (s.crs i).grants server }

/-- A round for a free server (R322, R323, R325): the state after, and the grant made. -/
def State.crsRound (s0 : State) (i server : Nat) : State × Option CrsReq :=
  let s := s0.rollWindow i
  let waiting := (s.heads i).filter fun r => s.crsNames i r server
  let masked := waiting.any (s.crsMasked i)
  let s1 := if masked then s.bump (pCRS i) R.CRS_MASK_COUNT 1 else s
  match s1.crsBest i server with
  | none => (s1, none)
  | some b =>
    let c := s1.crs i
    let losers := (waiting.filter fun r => !s1.crsMasked i r && r.requester != b.requester).map (·.requester)
    let lost := losers.foldl (fun m q => sset 0 m q (min 65535 (sget 0 m q + 1))) (sset 0 c.lost b.requester 0)
    let urgents := if b.urgent then sset 0 c.urgents b.requester (sget 0 c.urgents b.requester + 1) else c.urgents
    let s2 := s1.setCrs i { c with
      reqs := takeTransfer b s1.mt c.reqs, lost := lost, urgents := urgents,
      grants := sput c.grants server ⟨b.requester, b.urgent, s1.mt, b.owner⟩ }
    let s3 := s2.bump (pCRS i) R.CRS_GRANT_COUNT 1
    let s4 := if b.d < s1.mt then s3.bump (pCRS i) R.CRS_MISS_COUNT 1 else s3
    (s4.setReg (pCRS i) R.CRS_WAIT_MAX (max (s4.reg (pCRS i) R.CRS_WAIT_MAX) (stick (s1.mt - b.arrived) 32)), some b)

/-- ARBITRATION_ROUND (R323): the server falls free, ending a grant that ends by itself, and a round is held for it. A request
that names no server waits for the round of the lowest free one. -/
def execArbitrationRound (crossing server : Nat) (s : State) : Host.Outcome State Fault Refusal :=
  .next (
    if 44 ≤ crossing ∨ crsServers crossing ≤ server ∨ s.blockRuns (pCRS crossing) = false then s
    else
      let s1 := if crsSelfEnding crossing then s.endGrant crossing server else s
      if (s1.freeServers crossing).contains server = false then s1 else (s1.crsRound crossing server).1)

/-- QUOTA_WINDOW_END (R325). -/
def execQuotaWindowEnd (crossing : Nat) (s : State) : Host.Outcome State Fault Refusal :=
  .next (if 44 ≤ crossing ∨ s.blockRuns (pCRS crossing) = false then s else s.rollWindow crossing)

/-- A write of CRS_QUOTA (R330). -/
def crsQuotaWrite (i v : Nat) (s : State) : State :=
  (s.setReg (pCRS i) R.CRS_QUOTA v).setCrs i { s.crs i with winStart := s.mt, urgents := [] }

/-- CRS_QUOTA_WRITE (R330). -/
def execCrsQuotaWrite (src : Src) (crossing value : Nat) (s : State) : Host.Outcome State Fault Refusal :=
  .next (if crossing < 44 then s.onWrite src (pCRS crossing) R.CRS_QUOTA (crsQuotaWrite crossing value) else s)

/-! ### Requests of blocks (R327) -/

/-- Transfers of up to 256 bytes within one granule, by far channel, for a range of far memory. -/
def State.farTransfers (s : State) (a n : Nat) : List Nat :=
  if n = 0 then [] else
    ((List.range ((a + n - 1) / 256 + 1 - a / 256)).map fun k => (a / 256 + k) * 256).filterMap fun g =>
      match s.region g, s.ctlOf g with
      | .far _, some (p, _) => some (p - 0x700)
      | _, _ => none

/-- A block's transfers to far memory become requests of its requester number. -/
def State.farTouch (s : State) (requester a n : Nat) : State :=
  (List.range 32).foldl (fun st ch =>
    st.crsPlain ch requester ((s.farTransfers a n).filter (· == ch)).length) s

/-- An owner still has requests or grants at a crossing. -/
def State.crsOwned (s : State) (o : CrsOwner) : Bool :=
  s.crossings.any fun c => (c.2.reqs.any fun r => r.owner == o) || c.2.grants.any fun g => g.2.owner == o

/-- The further requests of an owner are withdrawn (R324). -/
def State.crsWithdraw (s : State) (o : CrsOwner) : State :=
  (List.range 44).foldl (fun a i => a.setCrs i { a.crs i with reqs := (a.crs i).reqs.filter fun r => r.owner != o }) s

end Sys2Proof.Machine
end

