-- ==== Sys2Proof/Machine/HostPath.lean ====
section
/-! DEFINITION. Machine/HostPath.lean: how the module reaches host memory (R462, R463) and how its blocks write to a device
address: near and far memory, tile windows, or a host window. -/
namespace Sys2Proof.Machine

/-- Window entry of an offset of port h's window: flags and host address (R462). -/
def State.winEntry (s : State) (h off : Nat) : Nat × Nat := sget (0, 0) (s.port h).win (off / 2 ^ 32 % 256)

/-- Why a request to a host window faults: HOST_DOWN or HOST_UNMAPPED (R462, R463). -/
def State.hostFault (s : State) (h off : Nat) (wr : Bool) : Option Nat :=
  if s.detached h ∨ s.linkUp h = false then some 0x10
  else
    let e := (s.winEntry h off).1
    if bit e 0 = false ∨ (wr = true ∧ bit e 1 = false) then some 0x0E else none

/-- The host bus address of a window offset. -/
def State.hostAddr (s : State) (h off : Nat) : Nat := (s.winEntry h off).2 * 2 ^ 32 + off % 2 ^ 32

/-- TLPs of n bytes at a: payloads of up to 512 bytes that do not cross a 512-byte boundary (R441). -/
def tlpCount (a n : Nat) : Nat := if n = 0 then 0 else (a + n - 1) / 512 + 1 - a / 512

/-- A write to a host window, its TLPs queued at the port's egress crossing (R327). The range lies in one entry. -/
def State.hostPiece (s : State) (h off requester : Nat) (l : List Nat) : State :=
  if l = [] then s
  else ({ s with out := s.out ++ [Out.hostWrite h (s.hostAddr h off) l] }).crsPlain (32 + h) requester (tlpCount off l.length)

/-- A write to a host window, split where it crosses from one entry into the next. -/
def State.hostSend (s : State) (h off requester : Nat) (l : List Nat) : State :=
  let n := 2 ^ 32 - off % 2 ^ 32
  (s.hostPiece h off requester (l.take n)).hostPiece h (off + n) requester (l.drop n)

/-- A block of partition `part` writes bytes at a device address, as requester `req` of the far channels and `hreq` of the host
ports. A write that its partition may not make, or whose target is off, is dropped. -/
def State.blockStore (s : State) (part req hreq a : Nat) (l : List Nat) : State :=
  if s.maps part a l.length true = false ∨ s.anyGranule a l.length State.targetOff = true then s
  else
    match s.region a with
    | .near _ | .far _ | .sram _ _ | .queue _ _ => (s.devWrite a l).farTouch req a l.length
    | .host h off => if (s.hostFault h off true).isSome then s else s.hostSend h off hreq l
    | _ => s

end Sys2Proof.Machine
end

