-- ==== Sys2Proof/Machine/Kv.lean ====
section
/-! DEFINITION. Machine/Kv.lean: the KV page store (R173 to R194, R213): pools, contexts, references, the page walk of one run,
copy-on-write, store commands and eviction. -/
namespace Sys2Proof.Machine

/-! ### Geometry (R174, R175) -/

/-- Formats a half accepts (R175). -/
def halfOk (v : Bool) (f : Fmt) : Bool :=
  match f with
  | .bf16 | .fp16 | .e4m3 | .e5m2 => true
  | .mxE4m3 | .mxE5m2 | .mxfp4 | .p4 => !v
  | _ => false

/-- Bytes of one token in the code plane and the scale plane (R174). -/
def tokCodes (f : Fmt) (dh : Nat) : Nat := dh * f.width / 8
def tokScales (f : Fmt) (dh : Nat) : Nat := if f.hasScalePlane then dh / 32 else 0

/-- Tokens one half can hold: the largest power of two up to 1,024 whose slots fit in 32 KiB. -/
def halfTokens (f : Fmt) (dh : Nat) : Nat :=
  ([1024, 512, 256, 128, 64, 32].find? fun n => decide (n * (tokCodes f dh + tokScales f dh) ≤ 32768)).getD 32

/-! ### Pools (R176, R177, R184) -/

def nullPage : Nat := 0x3FFFFFF

/-- Register offset of pool n's registers. -/
def poolReg (n off : Nat) : Nat := off + 0x40 * n

def State.pool (s : State) (n : Nat) : Pool := sget {} s.pools n
def State.setPool (s : State) (n : Nat) (p : Pool) : State := { s with pools := sset {} s.pools n p }
def State.kvReg (s : State) (off : Nat) : Nat := s.reg pKVS off
def State.poolFirst (s : State) (n : Nat) : Nat := s.kvReg (poolReg n R.KVS_POOL_FIRST) % 2 ^ 26
def State.poolCount (s : State) (n : Nat) : Nat := s.kvReg (poolReg n R.KVS_POOL_COUNT) % 2 ^ 26
def State.poolReady (s : State) (n : Nat) : Bool := s.kvReg (poolReg n R.KVS_POOL_CTL) % 4 == 3

/-- Device address of page p of pool n. -/
def State.pageAddr (s : State) (n p : Nat) : Nat := s.reg64 pKVS (poolReg n R.KVS_POOL_ADDR_LO) + (p - s.poolFirst n) * 65536

/-- Device address of a page's metadata word. -/
def State.metaAddr (s : State) (n p : Nat) : Nat := s.reg64 pKVS (poolReg n R.KVS_POOL_META_LO) + 8 * (p - s.poolFirst n)

def State.pageMeta (s : State) (n p : Nat) : Nat := s.devLe (s.metaAddr n p) 8
def State.setMeta (s : State) (n p v : Nat) : State := s.devPut (s.metaAddr n p) 8 v
def State.refcnt (s : State) (n p : Nat) : Nat := bits (s.pageMeta n p) 15 0
def State.pincnt (s : State) (n p : Nat) : Nat := bits (s.pageMeta n p) 24 16
def State.setRef (s : State) (n p v : Nat) : State := s.setMeta n p (setBits (s.pageMeta n p) 15 0 v)
def State.setPins (s : State) (n p v : Nat) : State := s.setMeta n p (setBits (s.pageMeta n p) 24 16 v)
def State.setNext (s : State) (n p q : Nat) : State := s.setMeta n p (setBits (s.pageMeta n p) 57 32 q)

/-- POOL_LOW when the free list falls to its threshold (log entry 19). -/
def State.poolFell (s : State) (n before : Nat) : State :=
  let th := Sys2Proof.Config.poolLow n
  if th < before ∧ (s.pool n).free.length ≤ th then s.notice pKVS 3 n else s

/-- A page put at the head of the free list. -/
def State.pushFree (s : State) (n p : Nat) : State :=
  let q := s.pool n
  (s.setNext n p (q.free.headD nullPage)).setPool n { q with free := p :: q.free }

/-- One page moves from the free list to the reserve list. -/
def State.freeToReserve (s : State) (n : Nat) : State :=
  let q := s.pool n
  match q.free with
  | [] => s
  | p :: r => ((s.setNext n p (q.reserve.headD nullPage)).setPool n { q with free := r, reserve := p :: q.reserve }).poolFell n
      q.free.length

/-- One page moves from the reserve list to the free list. -/
def State.reserveToFree (s : State) (n : Nat) : State :=
  let q := s.pool n
  match q.reserve with
  | [] => s
  | p :: r => (s.setPool n { q with reserve := r }).pushFree n p

/-- A reference added to a referenced page (R184). -/
def State.addRef (s : State) (n p : Nat) : State := (s.setRef n p (s.refcnt n p + 1)).freeToReserve n

/-- A reference dropped (R184). -/
def State.dropRef (s : State) (n p : Nat) : State :=
  let r := s.refcnt n p
  if 2 ≤ r then (s.setRef n p (r - 1)).reserveToFree n
  else if r = 1 then (s.setRef n p 0).pushFree n p
  else s

/-- A page allocated (R184). -/
def State.allocPage (s : State) (n : Nat) : Option (State × Nat) :=
  let q := s.pool n
  match q.free with
  | [] => none
  | p :: r =>
    let s1 := ((s.setPool n { q with free := r }).setRef n p 1).poolFell n q.free.length
    some (s1.bump pKVS R.KVS_ALLOC_COUNT 1, p)

/-- Allocations and shares of k pages may take them now (R186). -/
def State.mayTake (s : State) (n k : Nat) : Bool :=
  decide (s.kvReg R.KVS_PIN_FLOOR % 2 ^ 26 + k ≤ (s.pool n).free.length)

/-- A page pinned; none while no page is free for the pin (R185). -/
def State.pin (s : State) (n p : Nat) : Option State :=
  if (s.pool n).free = [] then none else some ((s.addRef n p).setPins n p (s.pincnt n p + 1))

/-- A pin released. -/
def State.unpin (s : State) (n p : Nat) : State := (s.setPins n p (s.pincnt n p - 1)).dropRef n p

/-- 64 KiB copied line by line, a bad line becoming poison (R187, R314). -/
def State.copyLines (s : State) (src dst : Nat) : Nat → State
  | 0 => s
  | k + 1 =>
    let (s1, bad) := s.lineRead src 0xFFFF false
    let s2 := s1.devWrite dst (s1.bytes (s1.key (s1.localAddr src)) 64)
    (if bad then s2.poisonLine (s2.key (s2.localAddr dst) / 64) else s2).copyLines (src + 64) (dst + 64) k

/-! ### Contexts (R178 to R180) -/

def State.ctxAddr (s : State) (c : Nat) : Nat := s.reg64 pKVS R.KVS_CTX_BASE_LO + 64 * (c % 16384)

/-- A field of a context record. -/
def State.cx (s : State) (c off n : Nat) : Nat := s.devLe (s.ctxAddr c + off) n
def State.setCx (s : State) (c off n v : Nat) : State := s.devPut (s.ctxAddr c + off) n v

def State.cxValid (s : State) (c : Nat) : Bool :=
  s.reachable (s.pagePart pKVS) (s.ctxAddr c) 64 && bit (s.cx c 0 1) 0
def State.cxPool (s : State) (c : Nat) : Nat := s.cx c 1 1 % 8
def State.cxDh (s : State) (c : Nat) : Nat := 32 * 2 ^ (s.cx c 4 1 % 4)
def State.cxFmt (s : State) (c : Nat) (v : Bool) : Option Fmt :=
  match Fmt.ofCode (s.cx c (if v then 3 else 2) 1 % 32) with
  | some f => if halfOk v f then some f else none
  | none => none
def State.cxTracks (s : State) (c : Nat) : Nat := s.cx c 8 2 + 1
def State.cxLen (s : State) (c : Nat) : Nat := s.cx c 0x0C 4 % 2 ^ 26
def State.cxStride (s : State) (c : Nat) : Nat := s.cx c 0x10 4 % 2 ^ 26
def State.setLen (s : State) (c v : Nat) : State := s.setCx c 0x0C 4 (setBits (s.cx c 0x0C 4) 25 0 v)

/-- Tokens per page of a context; none where a half's format is not allowed. -/
def State.cxTp (s : State) (c : Nat) : Option Nat :=
  match s.cxFmt c false, s.cxFmt c true with
  | some k, some v => some (min (halfTokens k (s.cxDh c)) (halfTokens v (s.cxDh c)))
  | _, _ => none

def State.entryAddr (s : State) (c track j : Nat) : Nat := s.cx c 0x18 8 + 4 * (track * s.cxStride c + j)
def State.entry (s : State) (c track j : Nat) : Nat := s.devLe (s.entryAddr c track j) 4
def State.setEntry (s : State) (c track j v : Nat) : State := s.devPut (s.entryAddr c track j) 4 v
def entryPage (e : Nat) : Nat := e % 2 ^ 26
def entryEvicted (e : Nat) : Bool := bit e 26
def entryHas (e : Nat) : Bool := entryPage e != nullPage

/-! ### One run of the page walk (R182, R185 to R187) -/

/-- The walk start of the paged side (R181). -/
structure Walk where
  ctx : Nat
  track : Nat
  v : Bool
  scales : Bool
  deriving DecidableEq, Repr

def walkOf (ctx w : Nat) : Walk := ⟨ctx % 16384, w % 2 ^ 16, bit w 16, bit w 17⟩

/-- Bytes per token of a plane; none where the plane does not exist. -/
def State.planeBytes (s : State) (w : Walk) : Option Nat :=
  match s.cxFmt w.ctx w.v with
  | some f => if w.scales then (if f.hasScalePlane then some (tokScales f (s.cxDh w.ctx)) else none) else some (tokCodes f (s.cxDh w.ctx))
  | none => none

/-- Device address of token slot `slot` of the plane in page p (R173, R174). -/
def State.slotAddr (s : State) (w : Walk) (p slot : Nat) : Nat :=
  let dh := s.cxDh w.ctx
  let base := s.pageAddr (s.cxPool w.ctx) p + (if w.v then 32768 else 0)
  match s.cxFmt w.ctx w.v, s.cxTp w.ctx with
  | some f, some tp =>
    if w.scales then base + tp * tokCodes f dh + slot * tokScales f dh else base + slot * tokCodes f dh
  | _, _ => base

/-- What a walk meets at a run. -/
inductive WalkAns where
  | fault (code : Nat)
  /-- It waits: for pages (with the time limit of R186) or for a pin. -/
  | waitAlloc
  | waitPin
  /-- The page, pinned. -/
  | page (s : State) (p : Nat)

/-- Checks before any move (R182, R183): the reason of R101, none where the walk may start. -/
def State.walkCheck (s : State) (w : Walk) (rowBytes : Nat) : Option Nat :=
  if s.cxValid w.ctx = false then some 0x01
  else if s.cxTracks w.ctx ≤ w.track then some 0x07
  else if s.planeBytes w = some rowBytes ∧ (s.cxTp w.ctx).isSome = true then none else some 0x06

/-- The page for writing through an entry with page p (R187). -/
def State.writablePage (s : State) (w : Walk) (j p : Nat) : Option (State × Nat) :=
  let n := s.cxPool w.ctx
  if s.refcnt n p - s.pincnt n p ≤ 1 then some (s, p)
  else
    match (s.pool n).reserve with
    | [] => none
    | q :: r =>
      let s1 := s.copyLines (s.pageAddr n p) (s.pageAddr n q) 1024
      let s2 := (s1.setPool n { s1.pool n with reserve := r }).setEntry w.ctx w.track j q
      let s3 := (s2.setRef n q 1).setRef n p (s2.refcnt n p - 1)
      some (s3.bump pKVS R.KVS_COW_COUNT 1, q)

/-- Pin a page that a walk found or made. -/
def State.walkPin (s : State) (n p : Nat) : WalkAns :=
  if s.refcnt n p = 65535 then .fault 0x08
  else
    match s.pin n p with
    | some s1 => .page s1 p
    | none => .waitPin

/-- A walk at logical page j, for tokens up to `last` (R182). -/
def State.walkPage (s : State) (w : Walk) (j last : Nat) (write : Bool) : WalkAns :=
  let c := w.ctx
  let n := s.cxPool c
  let e := s.entry c w.track j
  if s.cxStride c ≤ j then .fault 0x02
  else if !write && decide (s.cxLen c ≤ last) then .fault 0x02
  else if entryEvicted e then .fault 0x04
  else if entryHas e = false then
    if !write then .fault 0x03
    else if s.poolReady n && s.mayTake n 1 then
      (match s.allocPage n with
       | some (s1, p) => (s1.setEntry c w.track j p).walkPin n p
       | none => .waitAlloc)
    else .waitAlloc
  else if write then
    (match s.writablePage w j (entryPage e) with
     | some (s1, p) => s1.walkPin n p
     | none => .waitPin)
  else s.walkPin n (entryPage e)

/-- WALK_FAULT (R183, R213). -/
def State.walkFault (s : State) (tile ctx tok code : Nat) : State :=
  (s.bump pKVS R.KVS_FAULT_COUNT 1).raise pKVS 2 (tok % 2 ^ 26 + code * 2 ^ 26) (ctx % 2 ^ 14 + tile % 2 ^ 11 * 2 ^ 16)

/-- The store serves walks and commands. -/
def State.kvsRuns (s : State) : Bool := s.blockRuns pKVS && bit (s.kvReg R.KVS_CTL) 0

/-! ### Registers with an effect -/

/-- POOL_ENABLE (R177): EN from 0 to 1 zeroes the metadata; the lists are built when initialisation ends. -/
def poolCtlWrite (n v : Nat) (s : State) : State :=
  let off := poolReg n R.KVS_POOL_CTL
  let old := s.kvReg off
  if bit v 0 && !bit old 0 then
    let a := s.reg64 pKVS (poolReg n R.KVS_POOL_META_LO)
    let s1 := s.zeroRange (s.key a) (s.key a + 8 * s.poolCount n)
    (s1.setPool n { s1.pool n with free := [], reserve := [], initBusy := true }).setReg pKVS off 1
  else if bit v 0 then s
  else (s.setPool n {}).setReg pKVS off 0

def execPoolEnable (src : Src) (pool value : Nat) (s : State) : Host.Outcome State Fault Refusal :=
  .next (if pool < 8 then s.onWrite src pKVS (poolReg pool R.KVS_POOL_CTL) (poolCtlWrite pool value) else s)

/-- Pages pushed one after another. -/
def State.pushAll (s : State) (n : Nat) (l : List Nat) : State := l.foldl (fun a p => a.pushFree n p) s

/-- POOL_INIT_DONE (R177): the free list holds all pages, added in ascending order. -/
def execPoolInitDone (pool : Nat) (s : State) : Host.Outcome State Fault Refusal :=
  .next (if (s.pool pool).initBusy = true ∧ s.blockRuns pKVS = true then
    let s1 := s.setPool pool { s.pool pool with initBusy := false }
    let s2 := s1.pushAll pool ((List.range (s.poolCount pool)).map (s.poolFirst pool + ·))
    s2.orReg pKVS (poolReg pool R.KVS_POOL_CTL) 2
  else s)

/-- Page numbers of a pool. -/
def State.poolPages (s : State) (n : Nat) : List Nat := (List.range (s.poolCount n)).map (s.poolFirst n + ·)

/-- Sums over a pool's pages (R190). -/
def State.poolRefsum (s : State) (n : Nat) : Nat := sumNat ((s.poolPages n).map (s.refcnt n))
def State.poolPins (s : State) (n : Nat) : Nat := sumNat ((s.poolPages n).map (s.pincnt n))

/-- A read of KVS_POOLn_FREE latches the other three counters (R190). -/
def poolFreeLatch (n : Nat) (s : State) : State :=
  let q := s.pool n
  let up := bit (s.kvReg (poolReg n R.KVS_POOL_CTL)) 1
  let s1 := s.setPool n { q with
    latReserve := q.reserve.length, latRefsum := if up then s.poolRefsum n else 0, latPins := if up then s.poolPins n else 0 }
  s1.reply [q.free.length]

def execPoolFreeRead (src : Src) (pool : Nat) (s : State) : Host.Outcome State Fault Refusal :=
  .next (if pool < 8 then s.onRead src pKVS (poolReg pool R.KVS_POOL_FREE) (poolFreeLatch pool) else s)

/-- A producer's tail write under R85 and R86: the new count is accepted unless it overfills the ring or moves backward. -/
def tailOk (size head old v : Nat) : Bool :=
  let d := (v + 2 ^ 16 - head) % 2 ^ 16
  decide (d ≤ size) && decide ((old + 2 ^ 16 - head) % 2 ^ 16 ≤ d)

/-- KVS_CMD_TAIL_WRITE (R191). -/
def kvsTailWrite (v : Nat) (s : State) : State :=
  let v' := v % 2 ^ 16
  if tailOk 256 (s.kvReg R.KVS_CMD_HEAD % 2 ^ 16) (s.kvReg R.KVS_CMD_TAIL % 2 ^ 16) v' then s.setReg pKVS R.KVS_CMD_TAIL v' else s

def execKvsCmdTailWrite (src : Src) (value : Nat) (s : State) : Host.Outcome State Fault Refusal :=
  .next (s.onWrite src pKVS R.KVS_CMD_TAIL (kvsTailWrite value))

/-! ### Store commands (R191, R192) -/

def State.kvHead (s : State) : Nat := s.kvReg R.KVS_CMD_HEAD % 2 ^ 16

/-- The 32 bytes of the command at the ring's head; none when the ring is empty or the store does not run. -/
def State.kvCommand (s : State) : Option Nat :=
  if s.kvsRuns = false ∨ s.kvHead = s.kvReg R.KVS_CMD_TAIL % 2 ^ 16 then none
  else some (s.devLe (s.reg64 pKVS R.KVS_CMD_BASE_LO + 32 * (s.kvHead % 256)) 32)

def kcOp (k : Nat) : Nat := k % 256
def kcCtx (k : Nat) : Nat := df k 2 13 0
def kcCtx2 (k : Nat) : Nat := df k 4 13 0
def kcModule (k : Nat) : Nat := df k 6 13 0
def kcPg0 (k : Nat) : Nat := df k 8 25 0
def kcNpg (k : Nat) : Nat := df k 12 25 0

/-- A command completes (R191): error, signal, notice, and the head advances. -/
def State.kvFinish (s : State) (k : Nat) (ok : Bool) : State :=
  let s0 := { s with kvWaiters := s.kvWaiters.filter fun w => !w.isCommand }
  let s1 := if ok then s0 else s0.raise pKVS 1 (s.kvHead % 256)
  let s2 := if bit (df k 1 7 0) 0 then s1.blockSignal (s1.pagePart pKVS) pKVS (df k 16 10 0) (df k 16 14 11) 1 else s1
  let s3 := if bit (df k 1 7 0) 2 then s2.notice pKVS 0 else s2
  s3.setReg pKVS R.KVS_CMD_HEAD ((s.kvHead + 1) % 2 ^ 16)

/-- A command whose OP a constructor stands for; reserved codes fail under the first. -/
def kvIsOp (op k : Nat) : Bool := kcOp k == op || (op == 1 && (kcOp k == 0 || decide (7 ≤ kcOp k)))

/-- The command at the head, when it is of operation `op`. -/
def State.kvRun (s : State) (op : Nat) (f : Nat → State → State) : State :=
  match s.kvCommand with
  | some k => if kvIsOp op k then f k s else s
  | none => s

/-- Every (track, logical page) pair of a range of pages. -/
def State.trackPages (s : State) (c : Nat) (js : List Nat) : List (Nat × Nat) :=
  (List.range (s.cxTracks c)).flatMap fun t => js.map fun j => (t, j)

/-- The count of evicted pages changed where a cleared or copied page was evicted in track 0. -/
def State.adjEvicted (s : State) (c add sub : Nat) : State :=
  s.setCx c 0x14 4 (s.cx c 0x14 4 + add - sub)

/-- Entries cleared, their references dropped (R188, R194). -/
def State.clearEntries (s : State) (c : Nat) (js : List Nat) : State :=
  let ev := (js.filter fun j => entryEvicted (s.entry c 0 j)).length
  let n := s.cxPool c
  ((s.trackPages c js).foldl (fun a p =>
    let e := a.entry c p.1 p.2
    let a1 := a.setEntry c p.1 p.2 nullPage
    if entryHas e then a1.dropRef n (entryPage e) else a1) s).adjEvicted c 0 ev

/-- The fields that SHARE needs equal. -/
def State.sameShape (s : State) (a b : Nat) : Bool :=
  s.cx a 2 1 % 32 == s.cx b 2 1 % 32 && s.cx a 3 1 % 32 == s.cx b 3 1 % 32 && s.cx a 4 1 % 4 == s.cx b 4 1 % 4 &&
  s.cxTracks a == s.cxTracks b && s.cxPool a == s.cxPool b

/-- The request waits for pages (R186): at once a failure where no wait is set. -/
def State.kvWait (s : State) (k n : Nat) : State :=
  if s.kvReg R.KVS_ALLOC_WAIT % 2 ^ 16 = 0 then (s.raise pKVS 4 n 0x3FFF).kvFinish k false
  else if s.kvWaiters.any (·.isCommand) then s
  else { s with kvWaiters := s.kvWaiters ++ [.command n s.mt] }

/-- SHARE_PAGES carried out: the receiver's entries name the giver's pages, each counted once more (R192). -/
def kvShareGo (k : Nat) (s : State) : State :=
  let a := kcCtx k
  let b := kcCtx2 k
  let js := (List.range (kcNpg k)).map (kcPg0 k + ·)
  let hi := kcPg0 k + kcNpg k
  let n := s.cxPool a
  let tps := s.trackPages a js
  let evA := (js.filter fun j => entryEvicted (s.entry a 0 j)).length
  let evB := (js.filter fun j => entryEvicted (s.entry b 0 j)).length
  let s1 := tps.foldl (fun x p =>
    let e := x.entry a p.1 p.2
    let x1 := x.setEntry b p.1 p.2 e
    if entryHas e then x1.addRef n (entryPage e) else x1) s
  let len := max (s.cxLen b) (min (s.cxLen a) (hi * (s.cxTp a).getD 0))
  ((s1.setLen b len).adjEvicted b evA evB).kvFinish k true

/-- SHARE (R192). -/
def kvShare (k : Nat) (s : State) : State :=
  let a := kcCtx k
  let b := kcCtx2 k
  let js := (List.range (kcNpg k)).map (kcPg0 k + ·)
  let hi := kcPg0 k + kcNpg k
  let n := s.cxPool a
  if kcOp k ≠ 1 ∨ s.cxValid a = false ∨ s.cxValid b = false then s.kvFinish k false
  else if s.sameShape a b = false ∨ (s.cxTp a).isNone = true ∨ s.cxStride a < hi ∨ s.cxStride b < hi then s.kvFinish k false
  else
    let tps := s.trackPages a js
    let present := (tps.map fun p => s.entry a p.1 p.2).filter entryHas
    if tps.any fun p => entryHas (s.entry b p.1 p.2) then s.kvFinish k false
    else if present.any fun e => s.refcnt n (entryPage e) = 65535 then s.kvFinish k false
    else if s.mayTake n present.length = false ∧ present ≠ [] then s.kvWait k n
    else
      kvShareGo k s

/-- FREE (R192). -/
def kvFree (k : Nat) (s : State) : State :=
  let a := kcCtx k
  if s.cxValid a = false ∨ s.cxStride a < kcPg0 k + kcNpg k then s.kvFinish k false
  else (s.clearEntries a ((List.range (kcNpg k)).map (kcPg0 k + ·))).kvFinish k true

/-- TRUNCATE (R192). -/
def kvTruncate (k : Nat) (s : State) : State :=
  let a := kcCtx k
  match s.cxTp a with
  | none => s.kvFinish k false
  | some tp =>
    if s.cxValid a = false ∨ s.cxLen a < kcPg0 k then s.kvFinish k false
    else
      let j0 := (kcPg0 k + tp - 1) / tp
      ((s.setLen a (kcPg0 k)).clearEntries a ((List.range (s.cxStride a - j0)).map (j0 + ·))).kvFinish k true

/-- FREE_CTX (R192). -/
def kvFreeCtx (k : Nat) (s : State) : State :=
  let a := kcCtx k
  if s.cxValid a = false then s.kvFinish k false
  else
    let s1 := s.clearEntries a (List.range (s.cxStride a))
    (s1.setCx a 0 1 (setBit (s1.cx a 0 1) 0 false)).kvFinish k true

/-- SET_LEN (R192). -/
def kvSetLen (k : Nat) (s : State) : State :=
  let a := kcCtx k
  match s.cxTp a with
  | none => s.kvFinish k false
  | some tp =>
    if s.cxValid a = false ∨ s.cxStride a * tp < kcPg0 k then s.kvFinish k false
    else (s.setLen a (kcPg0 k)).kvFinish k true

def execSharePages (s : State) : Host.Outcome State Fault Refusal := .next (s.kvRun 1 kvShare)
def execFreePages (s : State) : Host.Outcome State Fault Refusal := .next (s.kvRun 2 kvFree)
def execTruncate (s : State) : Host.Outcome State Fault Refusal := .next (s.kvRun 3 kvTruncate)
def execFreeCtx (s : State) : Host.Outcome State Fault Refusal := .next (s.kvRun 4 kvFreeCtx)
def execSetLen (s : State) : Host.Outcome State Fault Refusal := .next (s.kvRun 5 kvSetLen)

/-! ### Eviction (R193, R194) -/

/-- Contexts that eviction may visit. -/
def State.evictable (s : State) (n c : Nat) : Bool := s.cxValid c && bit (s.cx c 0 1) 2 && s.cxPool c == n && (s.cxTp c).isSome

/-- The eligible logical page with the lowest score, ties to the lowest (R193). -/
def State.victim (s : State) (n c : Nat) : Option Nat :=
  let tp := (s.cxTp c).getD 1
  let len := s.cxLen c
  let hi := if len = 0 then 0 else (len - 1) / tp + 1 - s.cx c 7 1
  let ok := fun j =>
    decide (s.cx c 6 1 ≤ j) && entryHas (s.entry c 0 j) &&
    (List.range (s.cxTracks c)).all fun t => !(entryHas (s.entry c t j) && decide (0 < s.pincnt n (entryPage (s.entry c t j))))
  let score := fun j => s.devLe (s.cx c 0x20 8 + 2 * j) 2
  ((List.range (min hi (s.cxStride c))).filter ok).foldl (fun best j => match best with
    | none => some j
    | some b => if score j < score b then some j else some b) none

/-- Logical page j of context c is evicted. -/
def State.evictPage (s : State) (n c j : Nat) : State :=
  let s1 := (List.range (s.cxTracks c)).foldl (fun a t =>
    let e := a.entry c t j
    let a1 := a.setEntry c t j (nullPage + 2 ^ 26)
    if entryHas e then a1.dropRef n (entryPage e) else a1) s
  (s1.adjEvicted c 1 0).bump pKVS R.KVS_EVICT_COUNT 1

/-- EVICTION (R193): one visit, eviction starting or ending first where its conditions say so. -/
def evictVisit (n : Nat) (s : State) : State :=
  let q := s.pool n
  let free := q.free.length
  let waits := s.kvWaiters.any fun w => w.pool == n
  if s.kvsRuns = false ∨ s.poolReady n = false then s
  else if bit (s.kvReg R.KVS_CTL) 1 = false then s.setPool n { q with evicting := false }
  else if q.evicting = false ∧ s.kvReg R.KVS_EVICT_LOW % 2 ^ 26 < free ∧ waits = false then s
  else if s.kvReg R.KVS_EVICT_HIGH % 2 ^ 26 ≤ free then s.setPool n { q with evicting := false, idle := 0 }
  else
    let cs := (List.range 16384).filter (s.evictable n)
    if cs = [] ∨ (q.evicting = true ∧ cs.length ≤ q.idle) then
      (s.setPool n { q with evicting := false, idle := 0 }).notice pKVS 5
    else
      let c := (cs.find? fun c => decide (q.cursor ≤ c)).getD (cs.headD 0)
      match s.victim n c with
      | some j =>
        let s1 := s.evictPage n c j
        s1.setPool n { s1.pool n with evicting := true, cursor := c + 1, idle := 0 }
      | none => s.setPool n { q with evicting := true, cursor := c + 1, idle := q.idle + 1 }

def execEviction (pool : Nat) (s : State) : Host.Outcome State Fault Refusal :=
  .next (if pool < 8 then evictVisit pool s else s)

end Sys2Proof.Machine
end

