-- ==== Sys2Proof/Machine/Export.lean ====
section
/-! DEFINITION. Machine/Export.lean: the export encoders (R365 to R369, R374): jobs, rate control and the output ring. The bits
of a slice come from the encoder core; any conforming stream is admitted (R366). -/
namespace Sys2Proof.Machine

def State.enc (s : State) (c : Nat) : Encoder := sget {} s.encoders c
def State.setEnc (s : State) (c : Nat) (e : Encoder) : State := { s with encoders := sset {} s.encoders c e }

def ejFlags (w : Nat) : Nat := df w 0 7 0
def ejOutW (w : Nat) : Nat := df w 8 15 0
def ejOutH (w : Nat) : Nat := df w 0x0A 15 0
def ejFrames (w : Nat) : Nat := df w 0x0C 31 0
def ejBitrate (w : Nat) : Nat := df w 0x28 31 0
def ejFpsNum (w : Nat) : Nat := df w 0x2C 15 0
def ejFpsDen (w : Nat) : Nat := df w 0x2E 15 0
def ejGop (w : Nat) : Nat := df w 0x30 15 0
def ejIRatio (w : Nat) : Nat := df w 0x32 7 0
def ejSliceRows (w : Nat) : Nat := df w 0x33 7 0
def ejQpInit (w : Nat) : Nat := df w 0x34 7 0
def ejQpMin (w : Nat) : Nat := df w 0x35 7 0
def ejQpMax (w : Nat) : Nat := df w 0x36 7 0
def ejSig (w : Nat) : Nat := df w 0x38 15 0
def ejStream (w : Nat) : Nat := df w 0x3C 31 0

/-- CTU rows of a frame. -/
def ejRows (w : Nat) : Nat := (ejOutH w + 63) / 64

/-- Limits of the levels of ITU-T H.265 Annex A, Main tier: luma picture size, luma sample rate, bit rate. -/
def hevcLevels : List (Nat × Nat × Nat) :=
  [(36864, 552960, 128000), (122880, 3686400, 1500000), (245760, 7372800, 3000000), (552960, 16588800, 6000000),
   (983040, 33177600, 10000000), (2228224, 66846720, 12000000), (2228224, 133693440, 20000000),
   (8912896, 267386880, 25000000), (8912896, 534773760, 40000000), (8912896, 1069547520, 60000000),
   (35651584, 1069547520, 60000000), (35651584, 2139095040, 120000000), (35651584, 4278190080, 240000000)]

/-- The lowest level that admits a job (R366). -/
def ejLevel (w : Nat) : Option Nat :=
  let a := ejOutW w * ejOutH w
  hevcLevels.findIdx? fun l =>
    decide (a ≤ l.1) && decide (ejOutW w * ejOutW w ≤ 8 * l.1) && decide (ejOutH w * ejOutH w ≤ 8 * l.1) &&
    decide (a * ejFpsNum w ≤ l.2.1 * ejFpsDen w) && decide (ejBitrate w ≤ l.2.2)

/-- A job breaks no range and some level admits it (R365). -/
def ejOk (w : Nat) : Bool :=
  let r := fun v lo hi => decide (lo ≤ v) && decide (v ≤ hi)
  decide (df w 1 7 0 ≤ 2) && r (df w 4 15 0) 16 8192 && r (df w 6 15 0) 16 8192 &&
  ejOutW w % 8 == 0 && ejOutH w % 8 == 0 && r (ejOutW w) 64 4096 && r (ejOutH w) 64 2304 &&
  r (ejFrames w) 1 (2 ^ 24) && r (ejGop w) 1 1024 && r (ejIRatio w) 1 16 && r (ejSliceRows w) 1 36 &&
  decide (ejQpMin w ≤ ejQpInit w) && decide (ejQpInit w ≤ ejQpMax w) && decide (ejQpMax w ≤ 51) && (ejLevel w).isSome

/-! ### Rate control (R368) -/

/-- Bits of an intra frame and of a predicted frame. -/
def ejTargets (w : Nat) : Fp × Fp :=
  let n := fun v => Fp.ofNat v
  let bf := f32Div (f32Mul (roundFp fFP32 (n (ejBitrate w))) (n (ejFpsDen w))) (n (ejFpsNum w))
  let g := f32Mul bf (n (ejGop w))
  let ti := if ejGop w = 1 then g else f32Div (f32Mul g (n (ejIRatio w))) (n (ejIRatio w + ejGop w - 1))
  (ti, f32Div (f32Sub g ti) (n (ejGop w - 1)))

def ejIdr (w frame : Nat) : Bool := frame % max 1 (ejGop w) == 0

/-- The target of a frame, clamped. -/
def ejTarget (w frame : Nat) (carry : Fp) : Fp :=
  let base := if ejIdr w frame then (ejTargets w).1 else (ejTargets w).2
  fpMin (fpMax (f32Sub base (f32Div carry (.ofNat 4))) (f32Div base (.ofNat 2))) (f32Mul (.ofNat 2) base)

/-- A job at the start of a frame. -/
def EncJob.startFrame (j : EncJob) : EncJob :=
  { j with row := 0, used := 0, target := toFp32 (ejTarget j.words j.frame (fp32 j.carry)),
           qp := if ejIdr j.words j.frame then j.qpI else j.qpP }

/-- One CTU row of `n` bits: the job after, and the QP the row used. -/
def EncJob.encodeRow (j : EncJob) (n : Nat) : EncJob × Nat :=
  let w := j.words
  let used := f32Add (fp32 j.used) (roundFp fFP32 (.ofNat n))
  let tr := f32Div (f32Mul (fp32 j.target) (.ofNat (j.row + 1))) (.ofNat (ejRows w))
  let hi := f32Mul (roundRat fFP32 false 11 10 0) tr
  let lo := f32Mul (roundRat fFP32 false 9 10 0) tr
  let qp := if hi.lt used then min (j.qp + 1) (ejQpMax w) else if used.lt lo then max (j.qp - 1) (ejQpMin w) else j.qp
  ({ j with used := toFp32 used, qp := qp, row := j.row + 1 }, j.qp)

/-- The rows of a slice in order: the job after, and the sum of their QPs. -/
def EncJob.encodeRows (j : EncJob) : List Nat → EncJob × Nat
  | [] => (j, 0)
  | n :: r =>
    let (j1, q) := j.encodeRow n
    let (j2, t) := j1.encodeRows r
    (j2, q + t)

/-- A frame has ended: the carry and the QP kept for its kind. -/
def EncJob.endFrame (j : EncJob) : EncJob :=
  let j1 := { j with carry := toFp32 (f32Sub (f32Add (fp32 j.carry) (fp32 j.used)) (fp32 j.target)) }
  let j2 := if ejIdr j.words j.frame then { j1 with qpI := j1.qp } else { j1 with qpP := j1.qp }
  { j2 with frame := j2.frame + 1 }

/-! ### Jobs (R365) -/

def State.exeHead (s : State) (c : Nat) : Nat := s.reg (pEXE c) R.EXE_JOB_HEAD % 2 ^ 16

/-- A write of EXE_JOB_TAIL (R365): the producer rules over 16 entries. -/
def exeTailWrite (c v : Nat) (s : State) : State :=
  let v' := v % 2 ^ 16
  if tailOk 16 (s.exeHead c) (s.reg (pEXE c) R.EXE_JOB_TAIL % 2 ^ 16) v' then s.setReg (pEXE c) R.EXE_JOB_TAIL v' else s

/-- EXE_JOB_TAIL_WRITE (R365). -/
def execExeJobTailWrite (src : Src) (core value : Nat) (s : State) : Host.Outcome State Fault Refusal :=
  .next (if core < 4 then s.onWrite src (pEXE core) R.EXE_JOB_TAIL (exeTailWrite core value) else s)

/-- A job's signal, and the head moves on (R365). -/
def State.retireExport (s : State) (c w : Nat) : State :=
  let s1 := if bit (ejFlags w) 0 then
      s.blockSignal (s.pagePart (pEXE c)) (pEXE c) (bits (ejSig w) 10 0) (bits (ejSig w) 14 11) 1
    else s
  s1.setReg (pEXE c) R.EXE_JOB_HEAD ((s.exeHead c + 1) % 2 ^ 16)

/-- ENCODE_JOB (R365). -/
def execEncodeJob (core : Nat) (s : State) : Host.Outcome State Fault Refusal :=
  .next (
    let p := pEXE core
    let a := s.reg64 p R.EXE_JOB_BASE_LO + 64 * (s.exeHead core % 16)
    if 4 ≤ core ∨ s.blockRuns p = false ∨ bit (s.reg p R.EXE_CTL) 0 = false ∨ (s.enc core).job.isSome ∨
      s.exeHead core = s.reg p R.EXE_JOB_TAIL % 2 ^ 16 ∨ s.reachable (s.pagePart p) a 64 = false then s
    else
      let w := s.devLe a 64
      if ejOk w = false then (s.raise p 1 (s.exeHead core % 16)).retireExport core w
      else
        let j : EncJob := { words := w, qpI := ejQpInit w, qpP := ejQpInit w }
        s.setEnc core { s.enc core with job := some j.startFrame })

/-! ### The output ring (R369) -/

def State.outUnits (s : State) (c : Nat) : Nat := 2 ^ (s.reg (pEXE c) R.EXE_OUT_SIZE % 64) / 32

/-- The record on hand is written where HEAD leaves room; otherwise it waits. -/
def State.outFlush (s : State) (c : Nat) : State :=
  let p := pEXE c
  let e := s.enc c
  let n := s.outUnits c
  let len := e.held.length / 32
  let t := s.reg p R.EXE_OUT_TAIL
  let pad := if n < t % n + len then n - t % n else 0
  let fill := (t + pad + len + 2 ^ 32 - s.reg p R.EXE_OUT_HEAD) % 2 ^ 32
  if e.held = [] ∨ n = 0 ∨ n < fill then s
  else
    let base := s.reg64 p R.EXE_OUT_BASE_LO
    let put := fun (a : State) pos l => a.blockStore (a.pagePart p) 98 (99 + c) (base + 32 * (pos % n)) l
    let s1 := if pad = 0 then s else put s t (leBytes (pad + 16 * 2 ^ 96) 32)
    let s2 := ((put s1 (t + pad) e.held).setReg p R.EXE_OUT_TAIL (t + pad + len)).bump p R.EXE_BYTES e.heldBytes
    let s3 := s2.bump p R.EXE_OUT_WAIT ((s.mt - e.heldSince) / 1000)
    let e1 := { e with held := [] }
    match e.heldLast, e.job with
    | true, some j =>
      let s4 := if bit (ejFlags j.words) 1 || j.abort then s3.notice p 0 (if j.abort then j.frame else 0) else s3
      (s4.setEnc c { e1 with job := none }).retireExport c j.words
    | _, _ => s3.setEnc c e1

/-- The record just made is written, or begins to wait (R369, R374). -/
def State.outRecord (s : State) (c : Nat) (e : Encoder) : State :=
  let s1 := (s.setEnc c e).outFlush c
  let e1 := s1.enc c
  match e1.held, e1.job with
  | _ :: _, some j => if j.waited then s1 else (s1.setEnc c { e1 with job := some { j with waited := true } }).notice (pEXE c) 2
  | _, _ => s1

/-- The record of the slice that a core has encoded is formed and offered to its output ring (R368, R369). -/
def State.sliceOut (s : State) (core : Nat) (payload rowBits : List Nat) (j : EncJob) : State :=
  let w := j.words
  let first := j.row
  let n := min (ejSliceRows w) (ejRows w - first)
  let (j1, qps) := j.encodeRows ((List.range n).map fun i => rowBits.getD i 0)
  let endF := decide (ejRows w ≤ first + n)
  let j2 := if endF then j1.endFrame else j1
  let last := j.abort || (endF && decide (ejFrames w ≤ j.frame + 1))
  let j3 := if endF && !last then j2.startFrame else j2
  let idr := ejIdr w j.frame
  let flags := b2n idr + 2 * b2n endF + 4 * b2n (idr && first == 0) + 8 * b2n last
  let body := alignUp payload.length 32
  let rec_ := leBytes (1 + body / 32) 4 ++ leBytes (ejStream w) 4 ++ leBytes j.frame 4 ++ leBytes flags 2 ++ leBytes first 2 ++
    [n % 256, qps / max 1 n % 256, 0, 0] ++ leBytes payload.length 4 ++ leBytes 0 8 ++ payload ++ List.replicate (body - payload.length) 0
  let s1 := if endF then s.bump (pEXE core) R.EXE_FRAMES 1 else s
  s1.outRecord core { job := some j3, held := rec_, heldSince := s.mt, heldBytes := payload.length, heldLast := last }

/-- SLICE_ENCODED (R368, R369): the core has encoded the next slice, its CTU rows taking `rowBits` bits. -/
def execSliceEncoded (core : Nat) (payload rowBits : List Nat) (s : State) : Host.Outcome State Fault Refusal :=
  .next (
    let e := s.enc core
    match e.job with
    | none => s
    | some j =>
      if 4 ≤ core ∨ s.blockRuns (pEXE core) = false ∨ e.held ≠ [] then s
      else
        s.sliceOut core payload rowBits j)

/-- A write of EXE_OUT_HEAD (R374): one that passes TAIL is ignored. -/
def exeOutHeadWrite (c v : Nat) (s : State) : State :=
  let p := pEXE c
  let h := s.reg p R.EXE_OUT_HEAD
  if (v % 2 ^ 32 + 2 ^ 32 - h) % 2 ^ 32 ≤ (s.reg p R.EXE_OUT_TAIL + 2 ^ 32 - h) % 2 ^ 32 then (s.setReg p R.EXE_OUT_HEAD v).outFlush c
  else s

/-- OUT_HEAD_WRITE (R374). -/
def execOutHeadWrite (src : Src) (core value : Nat) (s : State) : Host.Outcome State Fault Refusal :=
  .next (if core < 4 then s.onWrite src (pEXE core) R.EXE_OUT_HEAD (exeOutHeadWrite core value) else s)

/-- A write of EXE_CTL (R369, R374). -/
def exeCtlWrite (c v : Nat) (s : State) : State :=
  let s1 := s.setReg (pEXE c) R.EXE_CTL (v % 2)
  if bit v 1 then
    let e := s1.enc c
    s1.setEnc c { e with job := e.job.map fun j => { j with abort := true } }
  else s1

/-- EXE_ABORT (R369). -/
def execExeAbort (src : Src) (core : Nat) (s : State) : Host.Outcome State Fault Refusal :=
  .next (if core < 4 then s.onWrite src (pEXE core) R.EXE_CTL fun t => exeCtlWrite core (t.reg (pEXE core) R.EXE_CTL % 2 + 2) t else s)

end Sys2Proof.Machine
end

