-- ==== Sys2Proof/Machine/Syn.lean ====
section
/-! DEFINITION. Machine/Syn.lean: the SYN operations (R103, R104, R569) and the barriers of the squares. -/
namespace Sys2Proof.Machine

def snOp (d : Nat) : Nat := df d 16 7 0

/-- The target of a SIGNAL, 0x7FF standing for the issuing tile. -/
def snTarget (tile d : Nat) : Nat := if df d 18 10 0 = 0x7FF then tile else df d 18 10 0

/-- A signal target of a descriptor lies outside the partition (R569). -/
def State.targetForeign (s : State) (tile target : Nat) : Bool :=
  if target = 0x700 then s.pagePart pSTP != s.tilePart tile else s.partOf (target / 256) != s.tilePart tile

/-- The checks of a SYN (R103, R569). -/
def synCheck (s : State) (c : DCtx) : Meaning :=
  let op := snOp c.d
  let t := snTarget c.tile c.d
  let n := df c.d 24 10 0
  { recs := []
    reasons :=
      rj (decide (4 ≤ op)) rjKindField ++
      rj (op == 1 && !isTarget t) rjKindField ++
      rj (op == 1 && isTarget t && s.targetForeign c.tile t) rjAddrRange ++
      rj (op == 2 && (decide (48 ≤ df c.d 22 5 0) || n == 0 || decide (1152 < n))) rjKindField }

/-- A SYN of one operation; reserved operations stand with FENCE. -/
def isSynOp (op d : Nat) : Bool := dKind d == 7 && (snOp d == op || (op == 0 && decide (4 ≤ snOp d)))

/-- A FENCE or DRAIN begins; it retires by R104. -/
def synWait (s : State) (c : DCtx) : State := s.addRun c.site (mkRun c .working)

/-- SIGNAL: the increment leaves as a mesh message (R104). -/
def synSend (s : State) (c : DCtx) : State :=
  (s.addRun c.site (mkRun c .done)).send c.tile (snTarget c.tile c.d) (df c.d 18 14 11) (df c.d 20 15 0)

/-- SYN_FENCE (R104). -/
def execSynFence (tile pos : Nat) (s : State) : Host.Outcome State Fault Refusal :=
  .next (s.issueWith tile pos (isSynOp 0) synCheck synWait)

/-- SYN_SIGNAL (R104). -/
def execSynSignal (tile pos : Nat) (s : State) : Host.Outcome State Fault Refusal :=
  .next (s.issueWith tile pos (isSynOp 1) synCheck synSend)

/-- SYN_DRAIN (R104). -/
def execSynDrain (tile pos : Nat) (s : State) : Host.Outcome State Fault Refusal :=
  .next (s.issueWith tile pos (isSynOp 3) synCheck synWait)

/-- The fence of a running BARRIER ends once every earlier descriptor has retired, and its one arrival leaves (R104). Its
record says that it has left. -/
def State.barrierArrive (s : State) (tile pos : Nat) : State :=
  let site := s.siteOf tile
  match s.runOf site pos with
  | some r =>
    if isSynOp 2 r.desc && r.st == .working && !r.arrived && (s.earlier site pos).isEmpty then
      let s1 := s.modTile site fun t =>
        { t with running := t.running.map fun x => if x.pos == pos && !x.parked then { x with arrived := true } else x }
      { s1 with arrivals := s1.arrivals ++ [⟨tile, df r.desc 22 5 0, df r.desc 24 10 0, pos⟩] }
    else s
  | none => s

/-- SYN_BARRIER (R104): the fence begins, or, once it has begun and ended, the arrival leaves. -/
def execSynBarrier (tile pos : Nat) (s : State) : Host.Outcome State Fault Refusal :=
  .next (if s.isRunning (s.siteOf tile) pos then s.barrierArrive tile pos
    else (s.issueWith tile pos (isSynOp 2) synCheck synWait).barrierArrive tile pos)

/-- The district whose square holds a barrier: D0 for module scope (R104). -/
def barrierHome (tile barId : Nat) : Nat := if 32 ≤ barId then 0 else tile / 256

/-- A waiting BARRIER descriptor is released. -/
def State.releaseBarrier (s : State) (l : List (Nat × Nat)) : State :=
  l.foldl (fun a w =>
    a.modTile (a.siteOf w.1) fun t =>
      { t with running := t.running.map fun r =>
          if r.pos == w.2 && !r.parked && r.st == .working && isSynOp 2 r.desc then { r with st := .done } else r }) s

/-- One arrival counted at its square (R104). -/
def State.countArrival (s : State) (m : BarMsg) : State :=
  let d := barrierHome m.tile m.barId
  let key := d * 64 + m.barId
  let b := sget {} s.barriers key
  let first := b.waiters.isEmpty
  let count := if first then m.count else b.count
  let s1 := if count = m.count then s else
    s.raise (pSQR d) 0 (m.barId + m.tile * 2 ^ 16) (count + m.count * 2 ^ 16)
  let ws := b.waiters ++ [(m.tile, m.pos)]
  if count ≤ ws.length then ({ s1 with barriers := sset {} s1.barriers key {} }).releaseBarrier ws
  else { s1 with barriers := sset {} s1.barriers key ⟨count, ws⟩ }

/-- BARRIER_ARRIVAL (R104): the oldest arrival on its way from a tile reaches its square. -/
def execBarrierArrival (tile : Nat) (s : State) : Host.Outcome State Fault Refusal :=
  .next (match s.arrivals.find? fun m => m.tile == tile with
    | some m =>
      if s.blockRuns (pSQR (barrierHome m.tile m.barId)) then
        ({ s with arrivals := s.arrivals.eraseP fun x => x.tile == tile }).countArrival m
      else s
    | none => s)

end Sys2Proof.Machine
end

