-- ==== Sys2Proof/Machine/TileQ.lean ====
section
/-! DEFINITION. Machine/TileQ.lean: the commands at a tile's queue and page: tail writes (R85, R86, R221), RESUME and FLUSH
(R91, R92), the watchdog (R93), the idle clock stop (R105), scrub and initialisation (R83, R84), the spare map (R106, R107),
frozen and excised descriptors (R220, R226, R286) and the yield of a parked product (R218). -/
namespace Sys2Proof.Machine

/-! ### The queue -/

/-- A write of TIL_SEQ_TAIL (R85, R86, R221). -/
def tilSeqTailWrite (tile v : Nat) (s : State) : State :=
  let site := s.siteOf tile
  let v' := v % 2 ^ 16
  let old := s.tail site
  if tailOk 256 (s.head site) old v' then
    let fresh := (List.range ((v' + 2 ^ 16 - old) % 2 ^ 16)).map fun i => (old + i) % 2 ^ 16
    let mb := s.fld site R.TIL_MB 19 0
    (s.modTile site fun t => { t with stamps := fresh.foldl (fun m p => sset 0 m p mb) t.stamps }).setReg site R.TIL_SEQ_TAIL v'
  else s.raise tile 2 v' (s.head site)

/-- TIL_SEQ_TAIL_WRITE (R86). -/
def execTilSeqTailWrite (src : Src) (tile value : Nat) (s : State) : Host.Outcome State Fault Refusal :=
  .next (if isSite tile then s.onWrite src tile R.TIL_SEQ_TAIL (tilSeqTailWrite tile value) else s)

/-- RESUME: the halted descriptor retires as flushed and issue restarts (R91). -/
def tilResume (tile : Nat) (s : State) : State :=
  let site := s.siteOf tile
  match (s.tile site).halted with
  | none => s
  | some h =>
    let s1 := s.modTile site fun t => { t with halted := none }
    if h.running then
      let mine := fun r : Run => r.pos == h.pos && r.parked == h.parked
      match (s1.tile site).running.find? mine with
      | none => s1
      | some r =>
        let s2 := (s1.blurRun site r).modTile site fun t => { t with running := t.running.filter fun x => !mine x }
        let s3 := s2.retireSignals tile site r.desc
        if r.parked then s3 else s3.passHead site r.pos
    else s1.retireUnissued tile site h.pos

/-- A write of TIL_SEQ_CTL: FLUSH acts before RESUME (R91, R92). -/
def tilSeqCtlWrite (tile v : Nat) (s : State) : State :=
  let s1 := if bit v 1 then s.flushTile tile else s
  if bit v 0 then tilResume tile s1 else s1

/-- RESUME (R91). -/
def execResume (src : Src) (tile : Nat) (s : State) : Host.Outcome State Fault Refusal :=
  .next (if isSite tile then s.onWrite src tile R.TIL_SEQ_CTL (tilSeqCtlWrite tile 1) else s)

/-- FLUSH (R92). -/
def execFlush (src : Src) (tile : Nat) (s : State) : Host.Outcome State Fault Refusal :=
  .next (if isSite tile then s.onWrite src tile R.TIL_SEQ_CTL (tilSeqCtlWrite tile 2) else s)

/-- The sequencer runs, its compute clock apart. -/
def State.seqUp (s : State) (site : Nat) : Bool :=
  s.live && s.siteOn site && s.clocked site && bit (s.reg site R.PAGE_CTL) 0 && !s.frozen site

/-- SEQ_STALL (R93): the watchdog of the oldest unretired descriptor expires. -/
def execSeqStall (tile : Nat) (s : State) : Host.Outcome State Fault Refusal :=
  .next (
    let site := s.siteOf tile
    match s.unretired site with
    | [] => s
    | p :: _ =>
      if isTile tile = false ∨ s.seqUp site = false ∨ s.fld site R.TIL_SEQ_WDOG 23 0 = 0 ∨ s.isRunning site p = true ∨
        (s.tile site).stallFor = some p then s
      else
        let d := s.descAt site p
        (s.modTile site fun t => { t with stallFor := some p }).raise tile 3 (dSeqId d + dKind d * 2 ^ 16) (dTag d))

/-! ### Idle clock stop (R105) -/

/-- The tile with its compute clock running. -/
def State.withClock (s : State) (site : Nat) : State := s.modTile site fun t => { t with clkStopped := false }

/-- Some descriptor can issue once the compute clock runs. -/
def State.someIssue (s : State) (site : Nat) : Bool :=
  let s1 := s.withClock site
  (s1.window site).any (s1.canIssue site) || (s1.canIssueParked site).isSome

/-! ### Tile SRAM (R82 to R84) -/

/-- The logical tile that a site runs: its own, or the one the spare map puts on site (12, c); a site that nothing reaches
has none. -/
def State.tileAt (s : State) (site : Nat) : Option Nat :=
  if site / 16 % 16 = 12 then
    some (((List.range 12).map fun st => site / 256 * 256 + st * 16 + site % 16).find? (fun t => s.siteOf t == site) |>.getD site)
  else if s.siteOf site = site then some site
  else none

/-- What a line's check bits show now, joined with the damage the state knows of. -/
def State.lineUpset (s : State) (line : Nat) (err : LineErr) : State :=
  match err with
  | .clean => s
  | .correctable =>
    if s.upsets.any fun u => u.1 == line then s else { s with upsets := sput s.upsets line false }
  | .uncorrectable => { s with upsets := sput s.upsets line true }

/-- SRAM_SCRUB (R83): one line is read and, where necessary, corrected. -/
def execSramScrub (site : Nat) (err : LineErr) (s : State) : Host.Outcome State Fault Refusal :=
  .next (
    match s.tileAt site with
    | none => s
    | some tile =>
      if isSite site = false ∨ (s.live && s.siteOn site) = false ∨ bit (s.reg site R.TIL_SRAM_STS) 0 = false ∨
        s.fld site R.TIL_SRAM_SCRUB 15 0 = 0 then s
      else
        let n := (s.tile site).scrubLine % 65536
        let line := sramBase site / 64 + n
        let s1 := (s.lineUpset line err).modTile site fun t => { t with scrubLine := (n + 1) % 65536 }
        if s1.lineBad line then (s1.orReg site R.TIL_SRAM_STS 2).raise tile 5 (n * 64) 0xFFFF
        else if s1.lineCe line then s1.ceOwn tile site line
        else s1)

/-- SRAM_INIT_DONE (R84). -/
def execSramInitDone (site : Nat) (s : State) : Host.Outcome State Fault Refusal :=
  .next (if isSite site = true ∧ (s.live && s.siteOn site) = true ∧ bit (s.reg site R.TIL_SRAM_STS) 0 = false then
      (s.zeroRange (sramBase site) (sramBase site + 0x800000)).orReg site R.TIL_SRAM_STS 1
    else s)

/-! ### The spare map (R106, R107) -/

/-- A site holds work: a queued, parked or running descriptor. -/
def State.siteBusy (s : State) (site : Nat) : Bool :=
  s.unretired site != [] || (s.tile site).parked != [] || (s.tile site).running != []

/-- Undefined results of the running work of a site (log entry 20): each output old or new. -/
def State.blurSite (s : State) (site : Nat) : State := (s.tile site).running.foldl (fun a r => a.blurRun site r) s

/-- Each signal on its way to a tile may be lost (log entry 20). -/
def State.loseSignals (s : State) (tile : Nat) : List SigMsg → State
  | [] => s
  | m :: r =>
    if m.target = tile ∨ m.sender = tile then
      let (n, s1) := s.fresh
      (if Sys2Proof.Config.freeBit n then { s1 with signals := s1.signals.erase m } else s1).loseSignals tile r
    else s.loseSignals tile r

/-- A write of a spare-map entry (R107, R109, R145). A write while either site works or messages are on their way is applied
all the same, and what they do then is undefined. -/
def spareMapWrite (d c v : Nat) (s : State) : State :=
  let off := R.DST_SPARE_MAP + 4 * c
  let old := s.spareEntry d c
  if bit old 5 then s
  else
    let st := v % 16
    let valid := bit v 4 && decide (st < 12)
    let spare := d * 256 + 12 * 16 + c
    let changed := [(bit old 4, old % 16), (valid, st)].filterMap fun p =>
      if p.1 && decide (p.2 < 12) then some (d * 256 + p.2 * 16 + c) else none
    let busy := s.siteBusy spare || changed.any fun t => s.siteBusy t || s.signals.any fun m => m.target == t
    let s0 := if busy then
        (changed.foldl (fun a t => a.loseSignals t a.signals) s).blurSite spare
      else s
    let s1 := if busy then changed.foldl (fun a t => a.blurSite t) s0 else s0
    (s1.setReg (pDST d) off (st + 16 * b2n valid)).invalStats spare

/-- SPARE_MAP_WRITE (R107). -/
def execSpareMapWrite (src : Src) (district column value : Nat) (s : State) : Host.Outcome State Fault Refusal :=
  .next (if district < 6 ∧ column < 16 then
      s.onWrite src (pDST district) (R.DST_SPARE_MAP + 4 * column) (spareMapWrite district column value)
    else s)

/-! ### Deferred and skipped descriptors -/

/-- Queue counts of the descriptors of a site that have not issued. -/
def State.unissued (s : State) (site : Nat) : List Nat := (s.unretired site).filter fun p => !s.isRunning site p

/-- TIL_RND_CTL changes in the bits of `mask`: for what is queued or parked, at which product is open (R67). -/
def State.openRounding (s : State) (site mask : Nat) : State :=
  let ps := s.unissued site ++ (s.tile site).parked.map fun p => p.pos + 65536
  if mask = 0 ∨ ps = [] then s
  else
    let (n, s1) := s.fresh
    s1.modTile site fun t => { t with
      rndLoose := ps.foldl (fun m p => sset (0, 0) m p ((sget (0, 0) m p).1 ||| mask, n)) t.rndLoose }

/-- SKIP_FROZEN changes: whether a PHASE 3 descriptor that is queued sees it set is open (R227). -/
def State.openSkip (s : State) (site : Nat) : State :=
  let ps := (s.unissued site).filter fun p => dPhase (s.descAt site p) == 3
  if ps = [] then s
  else
    let (n, s1) := s.fresh
    s1.modTile site fun t => { t with skipLoose := ps.foldl (fun m p => sput m p n) t.skipLoose }

/-- A write of TIL_RND_CTL (R66, R67). -/
def tilRndWrite (page v : Nat) (s : State) : State :=
  let site := s.canon page
  let old := s.reg site R.TIL_RND_CTL
  let s1 := s.setReg site R.TIL_RND_CTL (v % 4)
  s1.openRounding site (old ^^^ (v % 4))

/-- A write of TIL_BWD_CTL with EXCISE = 1 (R220). -/
def tilExcise (tile : Nat) (s : State) : State :=
  let site := s.siteOf tile
  let mb := s.fld site R.TIL_EXCISE_MB 19 0
  let late := (s.tile site).running.any fun r => s.exciseTest mb r.desc r.stamp && r.st != .flushed
  (s.exciseTile tile).setFld site R.TIL_BWD_STS 9 9 (b2n late)

/-- EXCISE (R220). -/
def execExcise (src : Src) (tile : Nat) (s : State) : Host.Outcome State Fault Refusal :=
  .next (if isSite tile then s.onWrite src tile R.TIL_BWD_CTL (tilExcise tile) else s)

/-- A descriptor has entered the issue window and not issued. -/
def State.inWindow (s : State) (tile pos : Nat) : Bool :=
  let site := s.siteOf tile
  isTile tile && s.seqUp site && (s.window site).contains pos && !s.isRunning site pos

/-- FROZEN_SKIP (R226): the descriptor retires at once, writing and merging nothing. -/
def execFrozenSkip (tile pos : Nat) (s : State) : Host.Outcome State Fault Refusal :=
  .next (
    let c := s.ctxOf tile pos
    if s.inWindow tile pos = true ∧ s.frozenSkip c = .yes then
      (s.retireUnissued tile c.site pos).bump c.site R.TIL_BWD_SKIP 1
    else s)

/-- EXCISE_MAP_DISCARD (R286): a backward descriptor of an excised micro-batch enters the window and retires as flushed. -/
def execExciseMapDiscard (tile pos : Nat) (s : State) : Host.Outcome State Fault Refusal :=
  .next (
    let c := s.ctxOf tile pos
    if s.inWindow tile pos = true ∧ s.exciseHit c.d c.stamp = true then s.retireUnissued tile c.site pos else s)

/-- A parked product of the array that has finished its chunk. -/
def atChunkEnd (r : Run) : Bool := r.parked && r.st == .done && (dKind r.desc == 1 || dKind r.desc == 2)

/-- The parked products of a tile that have finished their chunk yield the array. -/
def State.yieldAll (s : State) (site : Nat) : State :=
  s.modTile site fun t => { t with running := t.running.map fun r => if atChunkEnd r then { r with st := .yielded } else r }

/-- YIELD (R218): a running parked product gives up the array to a window descriptor. -/
def execYield (tile : Nat) (s : State) : Host.Outcome State Fault Refusal :=
  .next (
    let site := s.siteOf tile
    let s1 := s.yieldAll site
    if isTile tile = true ∧ s.seqUp site = true ∧ (s.tile site).running.any atChunkEnd = true ∧ s.drainPending site = false ∧
      (s1.window site).any (fun p => unitsOf (dKind (s1.descAt site p)) % 2 == 1 && s1.canIssue site p) = true then s1
    else s)

end Sys2Proof.Machine
end

