-- ==== Sys2Proof/Machine/Hdd.lean ====
section
/-! DEFINITION. Machine/Hdd.lean: the head dispatcher (R204 to R211, R214): items, key blocks, pieces, their tiles, and the
descriptors it writes into the tiles' queues. -/
namespace Sys2Proof.Machine

/-! ### Descriptors as fields (R95, R99, R103, R196) -/

/-- A descriptor from its fields: bit position, width, value. -/
def packFields (l : List (Nat × Nat × Nat)) : Nat := l.foldl (fun a f => a + (f.2.2 % 2 ^ f.2.1) * 2 ^ f.1) 0

/-- A wait of the header: counter and value. -/
abbrev Wait := Option (Nat × Nat)

/-- The common header (R95). -/
def headerFields (kind phase tag seq : Nat) (barrier : Bool) (sig : Option Nat) (a b : Wait) : List (Nat × Nat × Nat) :=
  [(0, 8, kind), (9, 1, b2n barrier), (16, 4, phase), (32, 32, tag), (112, 16, seq)] ++
  (match sig with | some c => [(24, 4, c), (31, 1, 1)] | none => []) ++
  (match a with | some (c, v) => [(64, 4, c), (71, 1, 1), (80, 16, v)] | none => []) ++
  (match b with | some (c, v) => [(72, 4, c), (79, 1, 1), (96, 16, v)] | none => [])

/-- The body of a MOV (R99) of `rows` rows. -/
def movFields (src dst rowBytes rows ss ds : Nat) : List (Nat × Nat × Nat) :=
  [(128, 64, src), (192, 64, dst), (256, 24, rowBytes), (288, 20, rows), (320, 32, ss), (352, 32, ds)]

/-! ### Items (R205) -/

structure HItem where
  index : Nat
  ctx : Nat
  track : Nat
  k0 : Nat
  k1 : Nat
  qn : Nat
  qpos : Nat
  causal : Bool
  lse : Bool
  nosplit : Bool
  qAddr : Nat
  oAddr : Nat
  lseAddr : Nat
  origin : Nat
  qStride : Nat
  oStride : Nat
  deriving DecidableEq, Repr

def State.hddPart (s : State) : Nat := s.pagePart pHDD

/-- Item i of the list; none where it raises ITEM_ERR (R214) or its 64 bytes cannot be read. -/
def State.hddItem (s : State) (i : Nat) : Option HItem :=
  let a := s.reg64 pHDD R.HDD_ITEM_BASE_LO + 64 * i
  if s.reachable s.hddPart a 64 = false then none
  else
    let w := s.devLe a 64
    let c := df w 0 13 0
    let t := df w 2 15 0
    let e := df w 8 25 0
    let k1 := if e = 0 then s.cxLen c else e
    let fl := df w 0x14 31 0
    if s.cxValid c = false ∨ s.cxTracks c ≤ t ∨ s.cxLen c < k1 ∨ k1 < df w 4 25 0 then none
    else some
      { index := i, ctx := c, track := t, k0 := df w 4 25 0, k1 := k1, qn := df w 0x0C 31 0, qpos := df w 0x10 25 0,
        causal := bit fl 0, lse := bit fl 1, nosplit := bit fl 2, qAddr := df w 0x18 63 0, oAddr := df w 0x20 63 0,
        lseAddr := df w 0x28 63 0, origin := df w 0x30 41 0, qStride := df w 0x38 31 0, oStride := df w 0x3C 31 0 }

/-- Global position of a token (R178). -/
def State.cxPos (s : State) (c t : Nat) : Nat :=
  let sp := s.cx c 0x2C 4 % 2 ^ 26
  if sp = 0 ∨ t < sp then s.cx c 0x28 4 % 2 ^ 26 + t else s.cx c 0x30 4 % 2 ^ 26 + (t - sp)

/-! ### Key blocks (R206, R211) -/

/-- Points at which a run of tokens is cut: page boundaries where it contains an evicted page, and POS_SPLIT. -/
def State.cutPoints (s : State) (it : HItem) (lo hi : Nat) : List Nat :=
  let tp := (s.cxTp it.ctx).getD 1
  let js := (List.range ((hi - 1) / tp + 1 - lo / tp)).map (lo / tp + ·)
  let pages := if js.any fun j => entryEvicted (s.entry it.ctx it.track j) then (js.map (· * tp)) else []
  let sp := s.cx it.ctx 0x2C 4 % 2 ^ 26
  (sp :: pages).filter fun x => decide (lo < x) && decide (x < hi)

/-- A run split at rising points. -/
def splitAt (lo hi : Nat) : List Nat → List (Nat × Nat)
  | [] => [(lo, hi)]
  | x :: r => (lo, x) :: splitAt x hi r

/-- The key blocks of an item before evicted ones are left out: first token and one past the last. -/
def State.keyBlocks (s : State) (it : HItem) : List (Nat × Nat) :=
  (List.range ((it.k1 - it.k0 + 127) / 128)).flatMap fun b =>
    let lo := it.k0 + 128 * b
    let hi := min (lo + 128) it.k1
    splitAt lo hi (uniq (s.cutPoints it lo hi))

/-- A key block lies wholly in evicted logical pages. -/
def State.blockEvicted (s : State) (it : HItem) (b : Nat × Nat) : Bool :=
  let tp := (s.cxTp it.ctx).getD 1
  (List.range ((b.2 - 1) / tp + 1 - b.1 / tp)).all fun k => entryEvicted (s.entry it.ctx it.track (b.1 / tp + k))

/-- Query rows of query block i. -/
def HItem.rows (it : HItem) (i : Nat) : Nat := min 64 (it.qn - 64 * i)

/-- Key blocks that query block i meets (R206). -/
def State.blocksFor (s : State) (it : HItem) (l : List (Nat × Nat)) (i : Nat) : List (Nat × Nat) :=
  l.filter fun b => !(it.causal && decide (it.qpos + 64 * i + it.rows i - 1 < s.cxPos it.ctx b.1))

/-! ### Pieces (R206, R207) -/

/-- A piece: its item, index, how many pieces the item has, its first scratch slot, its key blocks, and its cost. -/
structure Piece where
  it : HItem
  k : Nat
  n : Nat
  slot0 : Nat
  blocks : List (Nat × Nat)
  cost : Nat
  tile : Nat := 0
  home : Nat := 0
  deriving DecidableEq, Repr

/-- The pieces of an item with `left` scratch slots left: the pieces, slots taken, and whether it went unsplit for want of
slots. -/
def State.piecesOf (s : State) (it : HItem) (slot0 left : Nat) : List Piece × Nat × Bool :=
  let bl := (s.keyBlocks it).filter fun b => !s.blockEvicted it b
  let range := it.k1 - it.k0
  let sl := s.reg pHDD R.HDD_SPLIT_LEN % 2 ^ 26
  let want := !it.nosplit && sl != 0 && decide (sl < range)
  let n := min 16 ((range + sl - 1) / max sl 1)
  let len := if 16 < (range + sl - 1) / max sl 1 then alignUp ((range + 15) / 16) 128 else alignUp sl 128
  let n' := (range + len - 1) / max len 1
  let split := want && decide (n' ≤ left + 1) && decide (1 < n)
  let count := if split then n' else 1
  let nq := (it.qn + 63) / 64
  let ps := (List.range count).map fun k =>
    let mine := if split then bl.filter fun b => decide (it.k0 + k * len ≤ b.1) && decide (b.1 < it.k0 + (k + 1) * len) else bl
    { it := it, k := k, n := count, slot0 := slot0, blocks := mine,
      cost := sumNat ((List.range nq).map fun i => (s.blocksFor it mine i).length) : Piece }
  (ps, count - 1, want && !split)

/-- Pieces of all items, in item order. -/
def State.allPieces (s : State) : List HItem → Nat → List Piece × Bool
  | [], _ => ([], false)
  | it :: r, used =>
    let slots := s.reg pHDD R.HDD_SCRATCH_SLOTS % 2 ^ 16
    let (ps, k, full) := s.piecesOf it used (slots - used)
    let (rest, f) := s.allPieces r (used + k)
    (ps ++ rest, (full && slots != 0) || f)

/-- A piece put in its place: largest cost first, ties as they came. -/
def insertPiece (p : Piece) : List Piece → List Piece
  | [] => [p]
  | q :: r => if q.cost < p.cost then p :: q :: r else q :: insertPiece p r

def sortPieces (l : List Piece) : List Piece := l.foldl (fun m p => insertPiece p m) []

/-- The tile with the smallest total cost, the lowest ID first. -/
def leastLoaded (set : List Nat) (load : List (Nat × Nat)) : Nat :=
  (set.foldl (fun (best : Option Nat) t => match best with
    | none => some t
    | some b => if sget 0 load t < sget 0 load b then some t else some b) none).getD 0

/-- Each piece in turn to a tile: the pieces with their tiles, and the loads. -/
def assignPieces (set : List Nat) : List Piece → List (Nat × Nat) → List Piece × List (Nat × Nat)
  | [], load => ([], load)
  | p :: r, load =>
    let t := leastLoaded set load
    let (l, f) := assignPieces set r (sset 0 load t (sget 0 load t + p.cost))
    ({ p with tile := t } :: l, f)

/-- The tiles of the set that belong to the dispatcher's partition (R214, R465). -/
def State.hddTiles (s : State) : List Nat :=
  let v := s.reg pHDD R.HDD_TILESET
  allTiles.filter fun t =>
    bit v (t / 256) && decide (bits v 11 8 ≤ t / 16 % 16) && decide (t / 16 % 16 < bits v 11 8 + bits v 15 12) &&
    s.partOf (t / 256) == s.hddPart

/-! ### The descriptors of a piece (R208, R209) -/

/-- Counts of signalling descriptors placed on each tile, for counters 12 to 14. -/
structure Counts where
  c12 : List (Nat × Nat) := []
  c13 : List (Nat × Nat) := []
  c14 : List (Nat × Nat) := []
  deriving DecidableEq, Repr

/-- What is fixed for a dispatch: buffer base, phase, tag, SEQ_ID, scratch base. -/
structure HEnv where
  buf : Nat
  phase : Nat
  tag : Nat
  seq : Nat
  scratch : Nat
  arec : Nat
  deriving DecidableEq, Repr

def HEnv.hdr (e : HEnv) (kind : Nat) (barrier : Bool) (sig : Option Nat) (a b : Wait) : List (Nat × Nat × Nat) :=
  headerFields kind e.phase e.tag e.seq barrier sig a b

/-- Device address of the buffer region's byte o in a tile. -/
def HEnv.at (e : HEnv) (tile o : Nat) : Nat := 0x040000000000 + tile * 0x800000 + e.buf + o

/-- Descriptors of one query block of one piece, with the counts after it. -/
def State.hddBlock (s : State) (e : HEnv) (p : Piece) (others : List Piece) (i : Nat) (n : Counts) : List Nat × Counts :=
  let it := p.it
  let t := p.tile
  let ar := s.le (sramBase (s.siteOf t) + e.arec) 64
  let m := it.rows i
  let dh := s.cxDh it.ctx
  let bs := s.blocksFor it p.blocks i
  let parts := if p.k = 0 then others.filter fun o => (s.blocksFor it o.blocks i) != [] else []
  if bs = [] ∧ parts = [] then ([], n)
  else
    let fk := (s.cxFmt it.ctx false).getD .bf16
    let fv := (s.cxFmt it.ctx true).getD .bf16
    let fq := (arFmt ar 0).getD .bf16
    let fo := (arFmt ar 3).getD .bf16
    -- no other piece takes part: the unsplit form
    let alone := p.n == 1 || (p.k == 0 && parts.isEmpty)
    let w14 := sget 0 n.c14 t + parts.length
    let a12 := sget 0 n.c12 t
    let a13 := sget 0 n.c13 t
    -- row 1: the query rows
    let q := packFields (e.hdr 6 true (some 12) none none ++
      movFields (it.qAddr + 64 * i * it.qStride) (e.at t 0) (codeBytes fq dh) m it.qStride (arQstride ar))
    let qs := if fq.hasScalePlane then
        [packFields (e.hdr 6 true (some 12) none none ++
          movFields (Sys2Proof.Config.scalePlane it.index + 64 * i * scaleBytes fq dh) (e.at t 0x8000) (scaleBytes fq dh) m
            (scaleBytes fq dh) (qRows 0 fq (arQstride ar) dh).auxStride)]
      else []
    let row1 := q :: qs
    -- rows 2 and 3: key blocks
    let perBlock := 2 + b2n fk.hasScalePlane
    let kv := (bs.zipIdx.flatMap fun (b, k) =>
      let nk := b.2 - b.1
      let w : Wait := if 2 ≤ k then some (13, a13 + k - 1) else none
      let walk := fun (v sc dst bytes : Nat) =>
        packFields (e.hdr 6 false (some 12) w none ++
          movFields (it.track + v * 2 ^ 16 + sc * 2 ^ 17) dst bytes nk 0 bytes ++ [(384, 1, 1), (416, 14, it.ctx), (448, 26, b.1)])
      let kOff := 0x10000 + 0x10000 * (k % 2)
      let vOff := 0x30000 + 0x10000 * (k % 2)
      let aOff := 0x8400 + 0x400 * (k % 2)
      let last := k + 1 == bs.length
      let att := packFields (e.hdr 5 false (some 13) (some (12, a12 + row1.length + perBlock * (k + 1))) none ++
        [(128, 16, e.arec / 64), (144, 4, 0), (148, 1, b2n (k == 0)), (149, 1, b2n (last && alone)), (150, 1, b2n it.causal),
         (152, 6, m - 1), (158, 1, b2n it.lse), (160, 7, nk - 1),
         (192, 17, e.buf / 32), (209, 17, (e.buf + 0x8000) / 32), (226, 17, (e.buf + kOff) / 32),
         (256, 17, (e.buf + aOff) / 32), (273, 17, (e.buf + vOff) / 32),
         (320, 16, (e.buf + 0x68000) / 64), (336, 16, (e.buf + 0x50000) / 64),
         (384, 26, it.qpos + 64 * i), (416, 26, s.cxPos it.ctx b.1), (448, 42, it.origin + 64 * i * arOpitch ar)])
      [walk 0 0 (e.at t kOff) (tokCodes fk dh)] ++
      (if fk.hasScalePlane then [walk 0 1 (e.at t aOff) (tokScales fk dh)] else []) ++
      [walk 1 0 (e.at t vOff) (tokCodes fv dh), att])
    let b12 := a12 + row1.length + perBlock * bs.length
    let b13 := a13 + bs.length
    -- row 4, unsplit form: output rows and LSE
    let outs := fun (at13 : Nat) =>
      let wt : Wait := some (13, at13)
      [packFields (e.hdr 6 false none wt none ++
        movFields (e.at t 0x68000) (it.oAddr + 64 * i * it.oStride) (codeBytes fo dh) m (arOstride ar) it.oStride)] ++
      (if it.lseAddr = 0 then [] else
        [packFields (e.hdr 6 false none wt none ++
          movFields (e.at t 0x68000 + m * arOstride ar) (it.lseAddr + 4 * 64 * i) (4 * m) 1 0 0)])
    let size := attStateSize dh
    let slotOf := fun (k : Nat) => e.scratch + 0x20000 * (p.slot0 + k - 1)
    if alone = true then
      (row1 ++ kv ++ outs b13, { n with c12 := sset 0 n.c12 t b12, c13 := sset 0 n.c13 t b13 })
    else if p.k ≠ 0 then
      -- row 4: the state to its scratch slot
      let st := packFields (e.hdr 6 false none (some (13, b13)) none ++
        movFields (e.at t 0x50000) (slotOf p.k) size 1 0 0 ++ [(391, 1, 1), (400, 11, p.home), (411, 4, 14)])
      (row1 ++ kv ++ [st], { n with c12 := sset 0 n.c12 t b12, c13 := sset 0 n.c13 t b13 })
    else
      -- row 5: the home tile merges the other pieces in order
      let merges := parts.zipIdx.flatMap fun (o, k) =>
        [packFields (e.hdr 6 false (some 12) (some (14, w14)) (some (13, b13 + k)) ++
          movFields (slotOf o.k) (e.at t 0x10000) size 1 0 0),
         packFields (e.hdr 5 false (some 13) (some (12, b12 + k + 1)) none ++
          [(128, 16, e.arec / 64), (144, 4, 1), (148, 1, b2n (bs.isEmpty && k == 0)), (149, 1, b2n (k + 1 == parts.length)), (152, 6, m - 1), (158, 1, b2n it.lse),
           (192, 17, (e.buf + 0x10000) / 32), (320, 16, (e.buf + 0x68000) / 64), (336, 16, (e.buf + 0x50000) / 64),
           (448, 42, it.origin + 64 * i * arOpitch ar)])]
      let k := parts.length
      (row1 ++ kv ++ merges ++ (if k = 0 then [] else outs (b13 + k)),
        { n with c12 := sset 0 n.c12 t (b12 + k), c13 := sset 0 n.c13 t (b13 + k), c14 := sset 0 n.c14 t w14 })

/-! ### A dispatch (R204) -/

/-- Descriptors of every query block of a piece. -/
def State.hddPiece (s : State) (e : HEnv) (ps : List Piece) (p : Piece) (n : Counts) : List Nat × Counts :=
  let others := ps.filter fun o => o.it.index == p.it.index && o.k != 0
  let os := (List.range p.n).flatMap fun k => others.filter fun o => o.k == k
  (List.range ((p.it.qn + 63) / 64)).foldl (fun (acc : List Nat × Counts) i =>
    let (l, n1) := s.hddBlock e p os i acc.2
    (acc.1 ++ l, n1)) ([], n)

/-- Every descriptor of a dispatch with its tile, in the order of the sorted pieces. -/
def State.hddAll (s : State) (e : HEnv) (ps : List Piece) : List (Nat × Nat) :=
  (ps.foldl (fun (acc : List (Nat × Nat) × Counts) p =>
    let (l, n1) := s.hddPiece e ps p acc.2
    (acc.1 ++ l.map (p.tile, ·), n1)) ([], {})).1

/-- One descriptor written into a tile's queue, with its tail write; none while the queue has no room or cannot be reached
yet. A queue without power takes nothing. -/
def State.hddWrite (s : State) (tile d : Nat) : Option State :=
  let site := s.siteOf tile
  if s.siteOn site = false then some s
  else if bit (s.reg site R.TIL_SRAM_STS) 0 = false ∨ 256 ≤ (s.tail site + 2 ^ 16 - s.head site) % 2 ^ 16 then none
  else
    let s1 := s.store (sramBase site + 0x400000 + 64 * (s.tail site % 256)) (leBytes d 64)
    some (tilSeqTailWrite tile (s1.tail site + 1) s1)

/-- Descriptors written as far as the queues have room, each tile's in order: the state and what is left. -/
def State.hddEmit (s : State) (full : List Nat) : List (Nat × Nat) → State × List (Nat × Nat)
  | [] => (s, [])
  | (t, d) :: r =>
    if full.contains t then
      let (s1, l) := s.hddEmit full r
      (s1, (t, d) :: l)
    else
      match s.hddWrite t d with
      | some s1 => s1.hddEmit full r
      | none =>
        let (s1, l) := s.hddEmit (t :: full) r
        (s1, (t, d) :: l)

/-- What HDD_DONE_SIG appends to a tile's queue (R204). -/
def State.hddDone (s : State) (e : HEnv) : Nat :=
  let v := s.reg pHDD R.HDD_DONE_SIG
  packFields (e.hdr 7 true none none none ++ [(128, 8, 1), (144, 11, bits v 10 0), (155, 4, bits v 14 11), (160, 16, 1)])

/-- Counters 12 to 15 of a tile set to 0. -/
def State.hddClear (s : State) (t : Nat) : State :=
  let site := s.siteOf t
  if s.siteOn site then [12, 13, 14, 15].foldl (fun a c => a.setReg site (R.TIL_EVC + 4 * c) 0) s else s

/-- A dispatch over a list of cnt items: its pieces are placed, the registers written and the first descriptors queued. -/
def hddStart (cnt : Nat) (s : State) : State :=
  let set := s.hddTiles
  let s0 := set.foldl State.hddClear s
  let s1 := (s0.setFld pHDD R.HDD_STS 1 0 1)
  let (seq, s2) := s1.fresh
  let bad := (List.range cnt).filter fun i => (s2.hddItem i).isNone
  let s3 := bad.foldl (fun a i => (a.setFld pHDD R.HDD_STS 1 1 1).raise pHDD 1 i) s2
  let items := (List.range cnt).filterMap s2.hddItem
  let (pieces, scratchFull) := s3.allPieces items 0
  let (placed, load) := assignPieces set (sortPieces (pieces.filter fun p => p.cost != 0)) []
  let homeOf := fun (p : Piece) => ((placed.find? fun o => o.it.index == p.it.index && o.k == 0).map (·.tile)).getD p.tile
  let ps := placed.map fun p => { p with home := homeOf p }
  let e : HEnv :=
    { buf := bits (s.reg pHDD R.HDD_BUF) 21 16 * 65536, phase := s.fld pHDD R.HDD_CTL 5 2, tag := s.reg pHDD R.HDD_STEP_TAG,
      seq := Sys2Proof.Config.freeNat seq, scratch := s.reg64 pHDD R.HDD_SCRATCH_LO, arec := s.reg pHDD R.HDD_AREC % 2 ^ 16 * 64 }
  let used := set.filter fun t => ps.any fun p => p.tile == t
  let dones := if bit (s.reg pHDD R.HDD_DONE_SIG) 15 then used.map fun t => (t, s3.hddDone e) else []
  let evs := sumNat (items.map fun it => ((s3.keyBlocks it).filter (s3.blockEvicted it)).length)
  let loads := set.map fun t => sget 0 load t
  let s4 := ((s3.setReg pHDD R.HDD_TILES_USED used.length).setReg pHDD R.HDD_LOAD_MAX (loads.foldl max 0)).setReg pHDD
    R.HDD_LOAD_MIN (loads.foldl min (loads.headD 0))
  let s5 := s4.bump pHDD R.HDD_EVICT_SKIP evs
  let s6 := if scratchFull then s5.notice pHDD 2 else s5
  let (s7, todo) := s6.hddEmit [] (s6.hddAll e ps ++ dones)
  { s7 with dispatch := some ⟨todo, false⟩ }

/-- A write of HDD_CTL.GO (R204 to R208). -/
def hddGo (s : State) : State :=
  let cnt := s.reg pHDD R.HDD_ITEM_COUNT % 2 ^ 17
  if s.blockRuns pHDD = false ∨ s.dispatch.isSome = true ∨ cnt = 0 then s else hddStart cnt s

/-- A write of HDD_CTL.ABORT (R204). -/
def hddAbort (s : State) : State :=
  match s.dispatch with
  | some _ => { s with dispatch := some ⟨[], true⟩ }
  | none => s

/-- A write of HDD_CTL: PHASE, GO and ABORT. -/
def hddCtlWrite (v : Nat) (s : State) : State :=
  let s1 := s.setReg pHDD R.HDD_CTL (v % 64 / 4 * 4)
  let s2 := if bit v 1 then hddAbort s1 else s1
  if bit v 0 then hddGo s2 else s2

/-- DISPATCH (R204): GO is written. -/
def execDispatch (src : Src) (s : State) : Host.Outcome State Fault Refusal := .next (s.onWrite src pHDD R.HDD_CTL hddGo)

/-- DISPATCH_ABORT (R204). -/
def execDispatchAbort (src : Src) (s : State) : Host.Outcome State Fault Refusal := .next (s.onWrite src pHDD R.HDD_CTL hddAbort)

/-- DISPATCH_DONE (R204): descriptors still unwritten are written as far as the queues have room; with the last of them BUSY
clears and DISPATCH_DONE is raised. -/
def execDispatchDone (s : State) : Host.Outcome State Fault Refusal :=
  .next (match s.dispatch with
    | none => s
    | some p =>
      if s.blockRuns pHDD = false then s
      else
        let (s1, todo) := s.hddEmit [] p.todo
        if todo = [] then ({ s1 with dispatch := none }.setFld pHDD R.HDD_STS 0 0 0).notice pHDD 0
        else { s1 with dispatch := some { p with todo := todo } })

end Sys2Proof.Machine
end

