-- ==== Sys2Proof/Machine/MemCmd.lean ====
section
/-! DEFINITION. Machine/MemCmd.lean: the commands at the near- and far-memory controllers (R308 to R318): reads, writes, atomic
merges, patrol scrub, and the zero fills. -/
namespace Sys2Proof.Machine

/-- An address range that lies wholly in near or in far memory. -/
def State.inStore (s : State) (a n : Nat) : Bool :=
  (match s.region a with
   | .near _ | .far _ => true
   | _ => false) && decide (a + n ≤ s.regionEnd a)

/-- The controller of a range serves it now: powered, enabled and initialised; otherwise the request waits. -/
def State.storeServes (s : State) (a n : Nat) : Bool :=
  s.live && !s.anyGranule a n State.targetOff && !s.anyGranule a n State.targetWaits

/-- Every line of a list is read: the state after, and whether any was bad. -/
def State.readAllLines (s : State) (seq : Nat) (esc : Bool) : List Nat → State × Bool
  | [] => (s, false)
  | a :: r =>
    let (s1, b) := s.lineRead a seq esc
    let (s2, c) := s1.readAllLines seq esc r
    (s2, b || c)

/-- MEMORY_READ (R313, R314): the first line shows the given check bits; the answer is the data and a last word that is 1 for
data marked poisoned. -/
def execMemoryRead (addr len : Nat) (err : LineErr) (s : State) : Host.Outcome State Fault Refusal :=
  if s.inStore addr len = false then .fault (.noSuchAddress addr)
  else .next (
    if s.storeServes addr len = false then s
    else
      let k := s.key (s.localAddr addr)
      let (s1, bad) := (s.lineUpset (k / 64) err).readAllLines 0xFFFF false (lineAddrs addr len)
      s1.reply (s1.bytes k len ++ [b2n bad]))

/-- MEMORY_WRITE (R310, R314): good data, which clears the poison of whole lines, or lines written as poison. -/
def execMemoryWrite (addr : Nat) (data : List Nat) (poisoned : Bool) (s : State) : Host.Outcome State Fault Refusal :=
  if s.inStore addr data.length = false then .fault (.noSuchAddress addr)
  else .next (
    if s.storeServes addr data.length = false then s
    else
      let s1 := s.devWrite addr data
      if poisoned then (touchedLines (s.key (s.localAddr addr)) data.length).foldl State.poisonLine s1 else s1)

/-- An atomic command on the aligned word that holds an address (R316). -/
def State.atomicCmd (s : State) (addr : Nat) (f : Nat → Nat) : Host.Outcome State Fault Refusal :=
  let a := addr / 4 * 4
  if s.inStore a 4 = false then .fault (.noSuchAddress addr)
  else .next (if s.storeServes a 4 then (s.atomic a f).1 else s)

/-- FMAX (R316). -/
def execFmax (addr value : Nat) (s : State) : Host.Outcome State Fault Refusal :=
  s.atomicCmd addr fun o => fmax32 o (value % 2 ^ 32)

/-- UADD (R316). -/
def execUadd (addr value : Nat) (s : State) : Host.Outcome State Fault Refusal :=
  s.atomicCmd addr fun o => uadd32 o (value % 2 ^ 32)

/-- OR (R316): bytes not enabled offer zero. -/
def execOr32 (addr value : Nat) (s : State) : Host.Outcome State Fault Refusal :=
  s.atomicCmd addr fun o => o ||| value % 2 ^ 32

/-! ### Patrol scrub (R315) -/

/-- The device address of line n of a near channel, in address order (R308). -/
def nearLine (district ch n : Nat) : Nat :=
  let blk := n / 4
  let hi := blk * 2 ^ 15
  let g := ch ^^^ bits hi 21 15 ^^^ bits hi 28 22 ^^^ bits hi 35 29 ^^^ bits hi 36 36
  district * 2 ^ 37 + hi + g * 256 + n % 4 * 64

/-- The device address of line n of a far channel, in address order (R311). -/
def farLine (ch n : Nat) : Nat :=
  let hi := n / 4
  let g := ch ^^^ hi % 32 ^^^ bits hi 9 5
  farBase + (hi * 32 + g) * 256 + n % 4 * 64

/-- MEM_SCRUB (R315): the scrubber of one channel of a page reads its next line, whose check bits show `err`. -/
def execMemScrub (page channel : Nat) (err : LineErr) (s : State) : Host.Outcome State Fault Refusal :=
  .next (
    let target : Option (Nat × Nat) :=
      match pageBlk page with
      | some (.nmc, d) => if channel < 128 then some (nearLine d channel (sget 0 s.scrubPos (page * 128 + channel)), 2 ^ 24) else none
      | some (.fmc, c) => if channel = 0 then some (farLine c (sget 0 s.scrubPos (page * 128)), 2 ^ 30) else none
      | _ => none
    match target with
    | none => s
    | some (a, lines) =>
      if s.blockRuns page = false ∨ bit (s.reg page R.NMC_CTL) 0 = false ∨ bit (s.reg page R.NMC_STS) 0 = false then s
      else
        let k := page * 128 + channel
        let s1 := { s with scrubPos := sset 0 s.scrubPos k ((sget 0 s.scrubPos k + 1) % lines) }
        if s1.poison.contains (a / 64) then s1
        else ((s1.lineUpset (a / 64) err).lineRead a 0xFFFF false).1)

/-! ### Zero fills (R317, R318) -/

/-- A write of ZERO starts a fill. -/
def nmcCtlWrite (page v : Nat) (s : State) : State :=
  let s1 := s.setReg page R.NMC_CTL (v % 4)
  if bit v 2 then s1.orReg page R.NMC_STS 16 else s1

/-- Initialisation of a page's memory is complete. -/
def State.fillDone (s : State) (page : Nat) : State :=
  s.setReg page R.NMC_STS (setBit (s.reg page R.NMC_STS ||| 1) 4 false)

/-- NEAR_INIT_DONE (R317): the whole slice is zero with valid check bits. -/
def execNearInitDone (district : Nat) (s : State) : Host.Outcome State Fault Refusal :=
  .next (if district < 6 ∧ s.live = true ∧ s.pageOn (pNMC district) = true ∧ bit (s.reg (pNMC district) R.NMC_STS) 4 = true then
      (s.zeroRange (district * 2 ^ 37) ((district + 1) * 2 ^ 37)).fillDone (pNMC district)
    else s)

/-- ZERO (R318). -/
def execZero (src : Src) (channel : Nat) (s : State) : Host.Outcome State Fault Refusal :=
  .next (if channel < 32 then
      s.onWrite src (pFMC channel) R.NMC_CTL fun s => nmcCtlWrite (pFMC channel) (s.reg (pFMC channel) R.NMC_CTL + 4) s
    else s)

/-- A far memory key belongs to a channel (R311). -/
def farKeyOf (channel k : Nat) : Bool :=
  decide (farBase ≤ k) && decide (k < 0x040000000000) &&
  (let g := (k - farBase) / 256
   bits g 4 0 ^^^ bits g 9 5 ^^^ bits g 14 10) == channel

/-- A far channel's contents become zero with valid check bits (R318). -/
def State.zeroChannel (s : State) (ch : Nat) : State :=
  { s with
    mem := s.mem.filter fun e => !farKeyOf ch e.1
    poison := s.poison.filter fun x => !farKeyOf ch (x * 64)
    upsets := s.upsets.filter fun x => !farKeyOf ch (x.1 * 64) }

/-- ZERO_FILL_DONE (R318). -/
def execZeroFillDone (channel : Nat) (s : State) : Host.Outcome State Fault Refusal :=
  .next (if channel < 32 ∧ s.live = true ∧ s.pageOn (pFMC channel) = true ∧ bit (s.reg (pFMC channel) R.NMC_STS) 4 = true then
      (s.zeroChannel channel).fillDone (pFMC channel)
    else s)

end Sys2Proof.Machine
end

