-- ==== Sys2Proof/Machine/Errors.lean ====
section
/-! DEFINITION. Machine/Errors.lean: the commands at the error registers, the error log and module time (R430 to R433, R437,
R438, R440). -/
namespace Sys2Proof.Machine

/-- A write of ERR_LOG_POP removes the oldest unread record when its SEQ equals the written value (R431). -/
def errLogPopWrite (v : Nat) (s : State) : State :=
  match s.log with
  | r :: l => if r.seq = v % 2 ^ 32 then { s with log := l, logOverwrote := false } else s
  | [] => s

/-- ERR_LOG_POP (R431). -/
def execErrLogPop (src : Src) (seq : Nat) (s : State) : Host.Outcome State Fault Refusal :=
  .next (s.onWrite src pERR R.ERR_LOG_POP (errLogPopWrite seq))

/-- Words of the oldest unread record; an empty log shows zeros. -/
def State.logWords (s : State) : List Nat :=
  match s.log with
  | r :: _ => (List.range 8).map fun k => leNat ((r.toBytes.drop (4 * k)).take 4)
  | [] => List.replicate 8 0

/-- A read of ERR_LOG_DATA0 latches the other seven words (R431). -/
def logData0 (s : State) : State := ({ s with logLatch := s.logWords.drop 1 }).reply [s.logWords.getD 0 0]

/-- LOG_DATA0_READ (R431). -/
def execLogData0Read (src : Src) (s : State) : Host.Outcome State Fault Refusal :=
  .next (s.onRead src pERR R.ERR_LOG_DATA logData0)

/-- A write of ERR_FIRST (R430, R437): VALID is cleared by a 1. -/
def errFirstWrite (page v : Nat) (s : State) : State :=
  let cp := s.canon page
  if bit v 31 then s.setReg cp R.ERR_FIRST (setBit (s.reg cp R.ERR_FIRST) 31 false) else s

/-- ERR_FIRST_REARM (R430). -/
def execErrFirstRearm (src : Src) (page : Nat) (s : State) : Host.Outcome State Fault Refusal :=
  .next (if isBar2 page = true then s else s.onWrite src page R.ERR_FIRST (errFirstWrite page (2 ^ 31)))

/-- A write of ERR_FATAL clears PEND by a 1 (R433). -/
def errFatalWrite (v : Nat) (s : State) : State := if bit v 0 then s.setFld pERR R.ERR_FATAL 0 0 0 else s

/-- FATAL_CLEAR (R433). -/
def execFatalClear (src : Src) (s : State) : Host.Outcome State Fault Refusal :=
  .next (s.onWrite src pERR R.ERR_FATAL (errFatalWrite 1))

/-- A read of TIM_MT_LO latches TIM_MT_HI (R440). -/
def mtLatch (s : State) : State := (s.setReg pTIM R.TIM_MT_HI (s.mt / 2 ^ 32)).reply [s.mt % 2 ^ 32]

/-- MT_LO_READ (R440). -/
def execMtLoRead (src : Src) (s : State) : Host.Outcome State Fault Refusal :=
  .next (s.onRead src pTIM R.TIM_MT_LO mtLatch)

end Sys2Proof.Machine
end

