-- ==== Sys2Proof/Machine/Crc.lean ====
section
/-! DEFINITION. Machine/Crc.lean: the CRC of a check unit (R523), bit by bit, and the settings in use (R336, R422). -/
namespace Sys2Proof.Machine

/-- The low w bits of v in reverse order. -/
def reflect : Nat → Nat → Nat
  | 0, _ => 0
  | w + 1, v => (v % 2) * 2 ^ w + reflect w (v / 2)

/-- The settings of a CRC (R523). -/
structure CrcCfg where
  width : Nat
  poly : Nat
  init : Nat
  refin : Bool
  refout : Bool
  xorout : Nat
  deriving DecidableEq, Repr

/-- One bit taken most significant first: `b` is the byte shifted so that its next bit is bit 7. -/
def crcMsb (w poly : Nat) : Nat → Nat → Nat → Nat
  | 0, _, v => v
  | n + 1, b, v =>
    let top := bit v (w - 1) != bit b 7
    let v' := v * 2 % 2 ^ w
    crcMsb w poly n (b * 2) (if top then v' ^^^ poly else v')

/-- Bits taken least significant first; `rpoly` is the reflected polynomial. -/
def crcLsb (rpoly : Nat) : Nat → Nat → Nat → Nat
  | 0, _, v => v
  | n + 1, b, v =>
    let low := v % 2 != b % 2
    crcLsb rpoly n (b / 2) (if low then v / 2 ^^^ rpoly else v / 2)

/-- The running value after one byte. -/
def CrcCfg.byte (c : CrcCfg) (v b : Nat) : Nat :=
  let p := c.poly % 2 ^ c.width
  if c.refin then crcLsb (reflect c.width p) 8 (b % 256) (v % 2 ^ c.width)
  else crcMsb c.width p 8 (b % 256) (v % 2 ^ c.width)

/-- The running value that a reset loads. -/
def CrcCfg.start (c : CrcCfg) : Nat :=
  let i := c.init % 2 ^ c.width
  if c.refin then reflect c.width i else i

/-- The result of a running value. -/
def CrcCfg.result (c : CrcCfg) (v : Nat) : Nat :=
  let u := v % 2 ^ c.width
  (if c.refin = c.refout then u else reflect c.width u) ^^^ (c.xorout % 2 ^ c.width)

/-- The running value after a list of bytes. -/
def CrcCfg.feed (c : CrcCfg) (v : Nat) (l : List Nat) : Nat := l.foldl c.byte v

/-- The CRC of a list of bytes. -/
def CrcCfg.of (c : CrcCfg) (l : List Nat) : Nat := c.result (c.feed c.start l)

/-- CRC-32C (R336). -/
def crc32c : CrcCfg := ⟨32, 0x1EDC6F41, 0xFFFFFFFF, true, true, 0xFFFFFFFF⟩
/-- CRC-32 (R336, R133). -/
def crcIeee : CrcCfg := ⟨32, 0x04C11DB7, 0xFFFFFFFF, true, true, 0xFFFFFFFF⟩
/-- CRC-16 of FLAC frames (R336). -/
def crcFlac : CrcCfg := ⟨16, 0x8005, 0, false, false, 0⟩
/-- CRC-64 of checkpoint segments (R422). -/
def crc64 : CrcCfg := ⟨64, 0x42F0E1EBA9EA3693, 0xFFFFFFFFFFFFFFFF, true, true, 0xFFFFFFFFFFFFFFFF⟩

end Sys2Proof.Machine
end

