-- ==== Sys2Proof/Machine/Fec.lean ====
section
/-! DEFINITION. Machine/Fec.lean: the flit on the wire (R377): Reed-Solomon codewords, the record CRC and the header. -/
namespace Sys2Proof.Machine

/-! ### GF(2^8) with polynomial 0x11D -/

/-- Product of two field elements; the first argument bounds the bits of b that are taken. -/
def gfMulN : Nat → Nat → Nat → Nat
  | 0, _, _ => 0
  | n + 1, a, b =>
    let a2 := if 128 ≤ a then (a * 2) ^^^ 0x11D else a * 2
    (if b % 2 = 1 then a else 0) ^^^ gfMulN n a2 (b / 2)

def gfMul (a b : Nat) : Nat := gfMulN 8 a b

/-- α^n. -/
def gfExp : Nat → Nat
  | 0 => 1
  | n + 1 => gfMul 2 (gfExp n)

/-- x^(2^8 − 2), the inverse of a non-zero element. -/
def gfInv (x : Nat) : Nat :=
  let x2 := gfMul x x
  let x4 := gfMul x2 x2
  let x8 := gfMul x4 x4
  let x16 := gfMul x8 x8
  let x32 := gfMul x16 x16
  let x64 := gfMul x32 x32
  let x128 := gfMul x64 x64
  gfMul x2 (gfMul x4 (gfMul x8 (gfMul x16 (gfMul x32 (gfMul x64 x128)))))

/-! ### RS(72,68) -/

/-- Syndrome i: the received polynomial, highest degree first, at α^i. -/
def rsSyn (cw : List Nat) (i : Nat) : Nat := cw.foldl (fun acc b => gfMul acc (gfExp i) ^^^ b) 0

/-- A codeword decoded: the bytes, and none where it is uncorrectable, else whether a byte was corrected. -/
def rsDecode (cw : List Nat) : List Nat × Option Bool :=
  let s0 := rsSyn cw 0
  let s1 := rsSyn cw 1
  let s2 := rsSyn cw 2
  let s3 := rsSyn cw 3
  let fix := fun (l : List Nat) (p e : Nat) => setNth l (71 - p) (nth 0 l (71 - p) ^^^ e)
  if s0 = 0 ∧ s1 = 0 ∧ s2 = 0 ∧ s3 = 0 then (cw, some false)
  else
    let det := gfMul s0 s2 ^^^ gfMul s1 s1
    if det = 0 then
      -- one byte in error: S1 = S0 X, S2 = S1 X, S3 = S2 X
      if s0 = 0 then (cw, none)
      else
        let x := gfMul s1 (gfInv s0)
        match (List.range 72).find? fun p => gfExp p == x with
        | some p => if gfMul s1 x = s2 ∧ gfMul s2 x = s3 then (fix cw p s0, some true) else (cw, none)
        | none => (cw, none)
    else
      let d := gfInv det
      let c1 := gfMul (gfMul s0 s3 ^^^ gfMul s1 s2) d
      let c0 := gfMul (gfMul s1 s3 ^^^ gfMul s2 s2) d
      -- X^2 + c1 X + c0 has the two locations as roots
      match (List.range 72).filter fun p => (gfMul (gfExp p) (gfExp p) ^^^ gfMul c1 (gfExp p) ^^^ c0) == 0 with
      | [p, q] =>
        let x := gfExp p
        let y := gfExp q
        let e1 := gfMul (s1 ^^^ gfMul s0 y) (gfInv (x ^^^ y))
        (fix (fix cw p e1) q (s0 ^^^ e1), some true)
      | _ => (cw, none)

/-- Codeword j of a flit: its data bytes, then its parity (R377). -/
def flitWord (l : List Nat) (j : Nat) : List Nat :=
  (List.range 68).map (fun k => nth 0 l (4 * k + j) % 256) ++ (List.range 4).map fun k => nth 0 l (272 + 4 * j + k) % 256

/-- A flit after FEC: its 272 bytes, codewords corrected, codewords uncorrectable. -/
def flitFec (l : List Nat) : List Nat × Nat × Nat :=
  let ws := (List.range 4).map fun j => rsDecode (flitWord l j)
  let data := (List.range 272).map fun i => nth 0 (nth ([], none) ws (i % 4)).1 (i / 4)
  (data, (ws.filter fun w => w.2 == some true).length, (ws.filter fun w => w.2 == none).length)

/-- The CRC of bytes 0 to 267 matches bytes 268 to 271 (R377, R336). -/
def flitCrcOk (data : List Nat) : Bool := crc32c.of (data.take 268) == leNat (data.drop 268)

/-- Header fields (R377) of the header as a 96-bit number. -/
def fhKind (h : Nat) : Nat := bits h 1 0
def fhNak (h : Nat) : Bool := bit h 2
def fhPhase (h : Nat) : Nat := bits h 3 3
def fhSeq (h : Nat) : Nat := bits h 15 4
def fhAck (h : Nat) : Nat := bits h 27 16
def fhValid (h k : Nat) : Bool := bit h (28 + k)
def fhSop (h k : Nat) : Bool := bit h (32 + k)
def fhVc (h k : Nat) : Nat := bits h (38 + 3 * k) (36 + 3 * k)
def fhCrVc (h : Nat) : Nat := bits h 50 48
def fhCrCount (h : Nat) : Nat := bits h 62 51

/-- The header fields that a segment's tag authenticates (R385). -/
def fhAad (h : Nat) : List Nat := [fhKind h, fhSeq h, bits h 31 28, bits h 35 32, bits h 47 36]

end Sys2Proof.Machine
end

