-- ==== Sys2Proof/Machine/Links.lean ====
section
/-! DEFINITION. Machine/Links.lean: the Ezoux links (R375 to R385): bring-up, flits, replay, retraining, credits, segments; and
the choice of a link for a packet (R388). -/
namespace Sys2Proof

/-! ### Packets on virtual channels (R383, R403) -/

def Body.vc : Body → Nat
  | .write _ _ _ _ | .readReq _ _ _ | .signal _ _ _ => 0
  | .readRsp _ _ _ _ | .ack _ _ => 1
  | .redUp _ => 2
  | .redDn _ => 3
  | .ready _ _ _ | .go _ | .vote _ _ | .voteResult _ | .squash _ _ => 4
  | .bulkWrite _ _ _ | .bulkPage _ _ _ _ _ _ _ | .bulkEnd _ _ _ _ _ _ _ _ _ _ _ => 6

/-- TYPE of a packet's header (R403). -/
def Body.type : Body → Nat
  | .write _ _ _ _ => 0x01
  | .readReq _ _ _ => 0x02
  | .readRsp _ _ _ _ => 0x03
  | .ack _ _ => 0x04
  | .signal _ _ _ => 0x05
  | .bulkWrite _ _ _ | .bulkPage _ _ _ _ _ _ _ | .bulkEnd _ _ _ _ _ _ _ _ _ _ _ => 0x06
  | .redUp _ => 0x10
  | .redDn _ => 0x11
  | .ready _ _ _ => 0x20
  | .go _ => 0x21
  | .vote _ _ => 0x22
  | .voteResult _ => 0x23
  | .squash _ _ => 0x24

/-- Data slots after the header slot (R403). GO's bitmap and list travel in data slots (DEDUCED: BODY has 48 bytes). -/
def Body.dataSlots : Body → Nat
  | .write _ d _ _ | .readRsp _ _ _ d | .bulkWrite _ d _ | .bulkPage _ _ _ _ _ d _ => (d.length + 63) / 64
  | .redUp b | .redDn b => (b.data.length * b.ebytes + 63) / 64
  | .go g => (Nat.log2 g.bitmap / 8 + 1 + 4 * g.late.length + 63) / 64
  | _ => 0

def Packet.slots (p : Packet) : Nat := 1 + p.body.dataSlots

end Sys2Proof

namespace Sys2Proof.Machine

/-! ### Registers and places -/

def linkIx (g k : Nat) : Nat := g * 12 + k
def isLink (g k : Nat) : Bool := decide (g < 8) && decide (k < 12)
def lnkReg (k off : Nat) : Nat := off + 0x20 * k
def State.link (s : State) (g k : Nat) : Link := sget {} s.links (linkIx g k)
def State.setLink (s : State) (g k : Nat) (l : Link) : State := { s with links := sset {} s.links (linkIx g k) l }
def State.modLink (s : State) (g k : Nat) (f : Link → Link) : State := s.setLink g k (f (s.link g k))

abbrev lsDown : Nat := 0
abbrev lsDetect : Nat := 1
abbrev lsTrain : Nat := 2
abbrev lsAlign : Nat := 3
abbrev lsIdent : Nat := 4
abbrev lsActive : Nat := 5
abbrev lsRetrain : Nat := 6
abbrev lsFault : Nat := 7

/-- GAT_LNKk_STS.STATE (R380), and a change of it. -/
def State.lstate (s : State) (g k : Nat) : Nat := s.fld (pGAT g) (lnkReg k R.GAT_LNK_STS) 2 0
def State.toLstate (s : State) (g k v : Nat) : State :=
  (s.setFld (pGAT g) (lnkReg k R.GAT_LNK_STS) 2 0 v).modLink g k fun l => { l with since := s.mt, waiting := false }
def State.lnkBump (s : State) (g k off n : Nat) : State := if n = 0 then s else s.bump (pGAT g) (lnkReg k off) n

def State.encReq (s : State) (g k : Nat) : Bool := bit (s.reg (pGAT g) (lnkReg k R.GAT_LNK_CTL)) 1
def State.encOn (s : State) (g k : Nat) : Bool := bit (s.reg (pGAT g) (lnkReg k R.GAT_LNK_STS)) 4

/-- Every link is DOWN (R386). -/
def State.allLinksDown (s : State) : Bool :=
  (List.range 8).all fun g => (List.range 12).all fun k => s.lstate g k == lsDown

/-- The gate works. -/
def State.gateRuns (s : State) (g : Nat) : Bool := decide (g < 8) && s.blockRuns (pGAT g)

/-- Virtual channels whose packets are routed over several hops. -/
def vcRouted (v : Nat) : Bool := v == 0 || v == 1 || v == 6

/-- A receiver's allocation in slots (R383). -/
def vcAlloc (v : Nat) : Nat := nth 0 [768, 512, 1024, 1024, 128, 32, 576, 32] v

/-- Credit class: the dateline bit on routed channels (R383). -/
def pktCls (p : Packet) : Nat := if vcRouted p.body.vc then b2n p.dateline else 0

/-- Credits left for a channel and class: the allocation less what is in flight or not yet reported freed (R384). -/
def Link.credits (l : Link) (vc c : Nat) : Nat :=
  (if vcRouted vc then vcAlloc vc / 2 else vcAlloc vc) -
  sumNat ((l.spent.filter fun e => e.1 == vc && e.2.1 == c).map (·.2.2))

/-! ### Sending -/

/-- Flits that a number of slots takes; in an encrypted segment the last flit carries three (R385). `pos` is the flit's place in
its segment. Each packet starts a flit (DESIGN CHOICE, log entry 27). -/
def flitsFor (enc : Bool) : Nat → Nat → Nat → Nat
  | 0, _, _ => 0
  | f + 1, pos, n => if n = 0 then 0 else 1 + flitsFor enc f ((pos + 1) % 16) (n - (if enc && pos == 15 then 3 else 4))

def Link.flitsOf (l : Link) (enc : Bool) (p : Packet) : Nat := flitsFor enc (p.slots + 1) l.txSeg p.slots

/-- A packet can leave now: credits, and room in the replay buffer (R378, R384). -/
def Link.canSend (l : Link) (enc : Bool) (p : Packet) : Bool :=
  decide (p.slots ≤ l.credits p.body.vc (pktCls p)) && decide (l.replay.length + l.flitsOf enc p ≤ 1024)

/-- n flits take their SEQ and their places in the segment (R378, R385). -/
def Link.putFlits (no now : Nat) (enc : Bool) : Nat → Link → Link
  | 0, l => l
  | n + 1, l =>
    let l1 := { l with replay := l.replay ++ [(l.txSeq, no)], txSeq := (l.txSeq + 1) % 4096 }
    let l2 := if enc then
        (if l1.txSeg + 1 = 16 then { l1 with txSeg := 0, txOld := false }
         else { l1 with txSeg := l1.txSeg + 1, txSegStart := if l1.txSeg = 0 then now else l1.txSegStart })
      else l1
    l2.putFlits no now enc n

/-- KEY_PHASE changes at a segment boundary (R385, R474). -/
def State.turnPhase (s : State) (g k : Nat) : State :=
  let l := s.link g k
  match l.switchTo with
  | some p =>
    if l.txSeg = 0 then
      (s.setFld (pGAT g) (lnkReg k R.GAT_LNK_STS) 5 5 p).setLink g k { l with switchTo := none }
    else s
  | none => s

/-- A key slot of a link: key, salt and the segments that it has served; direction 0 sends. -/
def State.linkKey (s : State) (g k dir slot : Nat) : Option (Nat × (Nat × Nat)) :=
  (s.linkKeys.find? fun e => e.1 == linkIx g k * 4 + dir * 2 + slot).map (·.2)

/-- A key slot has served n more segments (R385, R474). -/
def State.countSegs (s : State) (g k dir slot n : Nat) : State :=
  { s with linkKeys := s.linkKeys.map fun e =>
      if e.1 == linkIx g k * 4 + dir * 2 + slot then (e.1, (e.2.1, (e.2.2.1, (e.2.2.2 + n) % 2 ^ 64))) else e }

/-- The segments that n more flits complete count for the key of the link's KEY_PHASE; one that began under a replaced key does
not. -/
def State.countSent (s : State) (g k n : Nat) : State :=
  if s.encOn g k then
    let l := s.link g k
    s.countSegs g k 0 (s.fld (pGAT g) (lnkReg k R.GAT_LNK_STS) 5 5) ((l.txSeg + n) / 16 - b2n (l.txOld && decide (16 ≤ l.txSeg + n)))
  else s

/-- A packet leaves by a link. -/
def State.emit (s0 : State) (g k : Nat) (p : Packet) : State :=
  let s1 := s0.turnPhase g k
  let enc := s1.encOn g k
  let s := s1.countSent g k ((s1.link g k).flitsOf enc p)
  let l := s.link g k
  let l1 := (l.putFlits l.txNo s.mt enc (l.flitsOf enc p))
  let l2 := { l1 with txNo := l.txNo + 1, spent := l1.spent ++ [(p.body.vc, ((pktCls p), p.slots))] }
  { s.setLink g k l2 with out := s.out ++ [.packet g k { p with gate := g, link := k }] }

/-- Virtual channels in the order a link serves them: 5, 4, 1, then the others in turn (R383). -/
def vcOrder (last : Nat) : List Nat :=
  let rest := [0, 2, 3, 6]
  [5, 4, 1] ++ rest.filter (fun v => decide (last < v)) ++ rest.filter (fun v => decide (v ≤ last))

/-- The next packet of a link's queue that may leave: the oldest of each channel and class in the order served. -/
def Link.next (l : Link) (enc : Bool) : Option TxPkt :=
  (vcOrder l.lastVc).findSome? fun v =>
    [0, 1].findSome? fun c =>
      match l.txq.find? fun t => t.pkt.body.vc == v && (pktCls t.pkt) == c with
      | some t => if l.canSend enc t.pkt then some t else none
      | none => none

/-- The first occurrence of a packet taken off a list. -/
def dropTx (t : TxPkt) : List TxPkt → List TxPkt
  | [] => []
  | x :: r => if x = t then r else x :: dropTx t r

/-- The packets of an ACTIVE link's queue that may leave do so. -/
def State.drainLink (g k : Nat) : Nat → State → State
  | 0, s => s
  | f + 1, s =>
    let l := s.link g k
    if s.lstate g k ≠ lsActive then s
    else
      match l.next (s.encOn g k) with
      | none => s
      | some t =>
        let v := t.pkt.body.vc
        let l1 := { l with txq := dropTx t l.txq, lastVc := if v = 0 ∨ v = 2 ∨ v = 3 ∨ v = 6 then v else l.lastVc }
        ((s.setLink g k l1).emit g k t.pkt).drainLink g k f

def State.drain (s : State) (g k : Nat) : State := s.drainLink g k ((s.link g k).txq.length + 1)

/-- ACTIVE links of a gate in a mask, lowest first. -/
def State.activeIn (s : State) (g mask : Nat) : List Nat :=
  (List.range 12).filter fun k => bit mask k && s.lstate g k == lsActive

/-- A packet leaves by the (h mod n)-th ACTIVE link of a mask; with none it waits (R388, R395). -/
def State.sendBy (s : State) (g mask h : Nat) (p : Packet) : State :=
  let as := s.activeIn g mask
  if as = [] then { s with stranded := s.stranded ++ [⟨mask, h, { p with gate := g }⟩] }
  else
    let k := nth 0 as (h % as.length)
    (s.modLink g k fun l => { l with txq := l.txq ++ [⟨mask, h, { p with gate := g }⟩] }).drain g k

/-- Packets that waited for an ACTIVE link are offered again. -/
def State.unstrand (s : State) : State :=
  s.stranded.foldl (fun a t => a.sendBy t.pkt.gate t.mask t.h t.pkt) { s with stranded := [] }

/-! ### State changes (R379 to R382) -/

/-- What a link forgets when it is not up. Keys, failure count and retrain times stay. -/
def Link.fresh (l : Link) : Link := { attempts := l.attempts, since := l.since, retrains := l.retrains }

/-- A link goes DOWN from ACTIVE or RETRAIN (R382): packets started and not finished are discarded and counted; those that had
not started look for another link. -/
def State.linkDown (s : State) (g k : Nat) : State :=
  let l := s.link g k
  let lost := (uniq ((l.replay.map (·.2)).filter (· != 0))).length + l.arriving.length
  let s1 := (s.setLink g k l.fresh).toLstate g k lsDown
  let s2 := s1.setFld (pGAT g) (lnkReg k R.GAT_LNK_STS) 31 3 0
  let s3 := (s2.lnkBump g k R.GAT_LNK_DROP lost).raise (pGAT g) 1 k
  { s3 with stranded := s3.stranded ++ l.txq }.unstrand

/-- An attempt at bring-up failed (R380). -/
def State.failAttempt (s : State) (g k : Nat) : State :=
  let n := (s.link g k).attempts + 1
  let s1 := s.modLink g k fun l => { l with attempts := n, x2 := false }
  if 8 ≤ n then (s1.toLstate g k lsFault).raise (pGAT g) 5 k
  else s1.modLink g k fun l => { l with waiting := true, since := s.mt }

/-- A retrain begins (R379); the fifth within a second takes the link DOWN. -/
def State.startRetrain (s : State) (g k : Nat) : State :=
  let recent := (s.link g k).retrains.filter fun t => decide (s.mt < t + 1000000000)
  let s1 := (s.lnkBump g k R.GAT_LNK_RETRAINS 1).modLink g k fun l =>
    { l with retrains := recent ++ [s.mt], ues := [], nakRun := 0 }
  if 5 ≤ recent.length + 1 then s1.linkDown g k else s1.toLstate g k lsRetrain

/-- A write of GAT_LNKk_CTL (R380, R381, R412): EN, ENC_REQ and RETRAIN. -/
def lnkCtlWrite (g k v : Nat) (s : State) : State :=
  let off := lnkReg k R.GAT_LNK_CTL
  let st := s.lstate g k
  let enc := if st = lsDown then bit v 1 else s.encReq g k
  let s1 := s.setReg (pGAT g) off (b2n (bit v 0) + 2 * b2n enc)
  if bit v 0 = false then
    if st = lsActive ∨ st = lsRetrain then s1.linkDown g k
    else ((s1.setLink g k {}).setReg (pGAT g) (lnkReg k R.GAT_LNK_STS) 0)
  else if st = lsDown then
    if (s1.link g k).scanned then s1 else (s1.setLink g k { (s1.link g k) with attempts := 0 }).toLstate g k lsDetect
  else if bit v 2 && st == lsActive then (s1.modLink g k fun l => { l with widen := true }).startRetrain g k
  else s1

/-- LINK_EN_WRITE (R380). -/
def execLinkEnWrite (src : Src) (gate link value : Nat) (s : State) : Host.Outcome State Fault Refusal :=
  .next (if isLink gate link then s.onWrite src (pGAT gate) (lnkReg link R.GAT_LNK_CTL) (lnkCtlWrite gate link value) else s)

/-- RETRAIN_WRITE (R382): a write of the control register with RETRAIN = 1. -/
def execRetrainWrite (src : Src) (gate link value : Nat) (s : State) : Host.Outcome State Fault Refusal :=
  .next (if isLink gate link then
    s.onWrite src (pGAT gate) (lnkReg link R.GAT_LNK_CTL) (lnkCtlWrite gate link (value ||| 4)) else s)

/-- A link that is in a bring-up state and not waiting for a restart, of a gate that works. -/
def State.inState (s : State) (g k st : Nat) : Bool :=
  isLink g k && s.gateRuns g && s.lstate g k == st && !(s.link g k).waiting

/-- PEER_DETECT (R380). -/
def execPeerDetect (gate link : Nat) (s : State) : Host.Outcome State Fault Refusal :=
  .next (if s.inState gate link lsDetect then s.toLstate gate link lsTrain else s)

/-- TRAIN_CONVERGE (R380). -/
def execTrainConverge (gate link : Nat) (s : State) : Host.Outcome State Fault Refusal :=
  .next (if s.inState gate link lsTrain then s.toLstate gate link lsAlign else s)

/-- Lanes as a mask: four, or one whole pair where GAT_CTL.WIDTH2_OK allows it (R382); none where they do not make a link. -/
def State.width (s : State) (g lanes : Nat) : Option Bool :=
  let two := bit (s.reg (pGAT g) R.GAT_CTL) 1
  let lo := bits lanes 1 0 == 3
  let hi := bits lanes 3 2 == 3
  if lo && hi then some false else if (lo || hi) && two then some true else none

/-- The identity flit that a link sends in IDENT (R381). -/
def State.ownIdent (s : State) (g k : Nat) : Ident := ⟨s.moduleId, linkIx g k, s.reg pGATS R.GAT_SYSTEM_TAG, s.encReq g k⟩

/-- LANE_ALIGN (R375, R380, R382): lanes deskewed and FEC aligned. -/
def execLaneAlign (gate link lanes : Nat) (s : State) : Host.Outcome State Fault Refusal :=
  .next (if s.inState gate link lsAlign then
    (match s.width gate lanes with
     | some x2 =>
       let s1 := (s.toLstate gate link lsIdent).modLink gate link fun l => { l with x2 := x2 }
       { s1 with out := s1.out ++ [.linkCtl gate link (.ident (s1.ownIdent gate link))] }
     | none => s)
  else s)

/-- The identity exchange agrees (R381). -/
def State.identOk (s : State) (g k : Nat) (i : Ident) : Bool :=
  i.tag == s.reg pGATS R.GAT_SYSTEM_TAG && i.peer % 2 ^ 14 != s.moduleId && i.enc == s.encReq g k &&
  (!i.enc || ((s.linkKey g k 0 0).isSome && (s.linkKey g k 1 0).isSome))

/-- IDENT_FLIT (R381, R382): the link becomes ACTIVE, or a foreign peer fails the attempt. -/
def execIdentFlit (gate link : Nat) (ident : Ident) (s : State) : Host.Outcome State Fault Refusal :=
  .next (if s.inState gate link lsIdent then
    if s.identOk gate link ident then
      let l := s.link gate link
      let s1 := (s.setLink gate link { since := s.mt, retrains := l.retrains, x2 := l.x2 }).toLstate gate link lsActive
      let s2 := s1.setFld (pGAT gate) (lnkReg link R.GAT_LNK_STS) 26 3
        (b2n l.x2 + 2 * b2n ident.enc + (ident.peer % 2 ^ 14) * 2 ^ 3 + (ident.link % 2 ^ 7) * 2 ^ 17)
      let s3 := s2.notice (pGAT gate) 0 link
      (if l.x2 then s3.raise (pGAT gate) 2 link else s3).unstrand
    else (s.raise (pGAT gate) 3 link).failAttempt gate link
  else s)

/-- LINK_STATE_TIMEOUT (R380): a state of the bring-up has not completed within 100 ms. -/
def execLinkStateTimeout (gate link : Nat) (s : State) : Host.Outcome State Fault Refusal :=
  .next (
    let st := s.lstate gate link
    if s.inState gate link st = true ∧ 1 ≤ st ∧ st ≤ 4 ∧ (s.link gate link).since + 100000000 ≤ s.mt then
      s.failAttempt gate link
    else s)

/-- LINK_RESTART_DELAY (R380): 10 ms after a failed attempt. -/
def execLinkRestartDelay (gate link : Nat) (s : State) : Host.Outcome State Fault Refusal :=
  .next (if isLink gate link = true ∧ s.gateRuns gate = true ∧ (s.link gate link).waiting = true ∧
      (s.link gate link).since + 10000000 ≤ s.mt then s.toLstate gate link lsDetect
    else s)

/-- A link is ACTIVE again at the width its lanes allow and resends from the oldest unacknowledged flit (R379, R382). -/
def State.retrained (s : State) (gate link : Nat) (two : Bool) : State :=
  let was := bit (s.reg (pGAT gate) (lnkReg link R.GAT_LNK_STS)) 3
  let l := s.link gate link
  let x2 := two || (was && !l.widen)
  let s1 := (s.setLink gate link { l with widen := false, x2 := x2, naked := false }).toLstate gate link lsActive
  let s2 := s1.setFld (pGAT gate) (lnkReg link R.GAT_LNK_STS) 3 3 (b2n x2)
  let s3 := s2.lnkBump gate link R.GAT_LNK_REPLAY l.replay.length
  let s4 := if l.replay = [] then s3 else
    { s3 with out := s3.out ++ [.linkCtl gate link (.resend ((l.replay.headD (0, 0)).1))] }
  ((if x2 && !was then s4.raise (pGAT gate) 2 link else s4).drain gate link).unstrand

/-- RETRAIN_DONE (R379, R382): traffic resumes from the oldest unacknowledged flit, or the link goes DOWN. -/
def execRetrainDone (gate link : Nat) (ok : Bool) (lanes : Nat) (s : State) : Host.Outcome State Fault Refusal :=
  .next (if s.inState gate link lsRetrain then
    match (if ok then s.width gate lanes else none) with
    | none => s.linkDown gate link
    | some two =>
      s.retrained gate link two
  else s)

/-- CODEWORD_ALIGNMENT_LOSS (R379). -/
def execCodewordAlignmentLoss (gate link : Nat) (s : State) : Host.Outcome State Fault Refusal :=
  .next (if s.inState gate link lsActive then s.startRetrain gate link else s)

/-! ### Receiving (R378, R384, R385) -/

/-- Held flits that an ACK covers leave the replay buffer. -/
def Link.acked (l : Link) (ack : Nat) : Link :=
  { l with replay := l.replay.filter fun e => decide (2048 ≤ (ack + 4096 - e.1) % 4096) }

/-- Slots of a channel reported freed, taken off what was sent, oldest first. -/
def freeSpent (vc : Nat) : Nat → List (Nat × (Nat × Nat)) → List (Nat × (Nat × Nat))
  | _, [] => []
  | n, e :: r =>
    if e.1 ≠ vc ∨ n = 0 then e :: freeSpent vc n r
    else if e.2.2 ≤ n then freeSpent vc (n - e.2.2) r
    else (e.1, (e.2.1, e.2.2 - n)) :: r

/-- Credits recovered from a cumulative count (R384). -/
def Link.recover (l : Link) (vc count : Nat) : Link :=
  let d := (count + 4096 - sget 0 l.crSeen vc) % 4096
  { l with crSeen := sset 0 l.crSeen vc count, spent := freeSpent vc d l.spent }

/-- A NAK: every held flit from `seq` on is resent in order (R378); the eighth NAK of one flit in a row retrains (R379). -/
def State.nak (s : State) (g k seq : Nat) : State :=
  let l0 := s.link g k
  let l := (l0.acked ((seq + 4095) % 4096))
  let run := if l0.nakSeq = seq ∧ l0.nakRun ≠ 0 then l0.nakRun + 1 else 1
  let s1 := s.setLink g k { l with nakSeq := seq, nakRun := run }
  if 8 ≤ run then s1.startRetrain g k
  else
    let s2 := s1.lnkBump g k R.GAT_LNK_REPLAY l.replay.length
    if l.replay = [] then s2 else { s2 with out := s2.out ++ [.linkCtl g k (.resend seq)] }

/-- NAK_RECEIVE (R378). -/
def execNakReceive (gate link seq : Nat) (s : State) : Host.Outcome State Fault Refusal :=
  .next (if s.inState gate link lsActive then (s.nak gate link (seq % 4096)).drain gate link else s)

/-- One slot of packet data arrives on a channel (R383): the packet is complete when LEN data slots have followed its header. -/
def Link.slot (l : Link) (vc : Nat) (sop : Bool) (b : List Nat) : Link :=
  let cur := if sop then b else sget [] l.arriving vc ++ b
  if cur.length = b.length ∧ sop = false then l
  else
    let n := 1 + nth 0 cur 1 % 128
    if 64 * n ≤ cur.length then
      { l with arriving := sdel l.arriving vc, rx := l.rx ++ [⟨vc, n, cur.take 64⟩] }
    else { l with arriving := sput l.arriving vc cur }

/-- The slots of a flit are delivered; `upto` leaves out the tag slot. -/
def Link.deliver (l : Link) (h : Nat) (pay : List Nat) (upto : Nat) : Link :=
  (List.range upto).foldl (fun a k =>
    if fhValid h k then a.slot (fhVc h k) (fhSop h k) ((pay.drop (64 * k)).take 64) else a) l

/-- A receiver's NAK is sent once per run of bad flits (R378). -/
def State.sendNak (s : State) (g k : Nat) : State :=
  let l := s.link g k
  if l.naked then s
  else { s.setLink g k { l with naked := true } with out := s.out ++ [.linkCtl g k (.nak l.rxSeq)] }

/-- A flit is discarded; uncorrectable codewords may start a retrain (R378, R379). -/
def State.badFlit (s : State) (g k ue : Nat) : State :=
  let now := s.mt
  let s1 := (s.modLink g k fun l =>
    { l with ues := (l.ues.filter fun t => decide (now < t + 1000000)) ++ List.replicate ue now }).sendNak g k
  if 1000 ≤ (s1.link g k).ues.length then s1.startRetrain g k else s1

/-- A segment of an encrypted link is complete: its slots are delivered when the tag verifies (R385). -/
def State.closeSegment (s : State) (g k : Nat) : State :=
  let l := s.link g k
  let phase := fhPhase (l.seg.headD (0, [])).1
  let opened := match (if l.rxOld.isSome then l.rxOld else s.linkKey g k 1 phase) with
    | some (key, salt, no) =>
      Sys2Proof.Config.linkOpen key salt no ((l.seg.map fun (e : Nat × List Nat) => fhAad e.1).flatten)
        ((l.seg.map fun (e : Nat × List Nat) => e.2).flatten)
    | none => [0]
  let firstSeq := fhSeq (l.seg.headD (0, [])).1
  if opened.headD 0 = 1 then
    let plain := chunksOf 256 16 (opened.drop 1)
    let l1 := (List.range 16).foldl (fun (a : Link) i =>
      a.deliver (nth (0, []) l.seg i).1 (nth [] plain i) (if i = 15 then 3 else 4)) l
    (s.countSegs g k 1 phase (b2n l.rxOld.isNone)).setLink g k { l1 with seg := [], segFails := 0, rxOld := none }
  else
    let s1 := (s.lnkBump g k R.GAT_LNK_AUTH 1).setLink g k { l with seg := [], segFails := l.segFails + 1, rxSeq := firstSeq }
    if 2 ≤ l.segFails + 1 then (s1.raise (pGAT g) 4 k).linkDown g k
    else { s1 with out := s1.out ++ [.linkCtl g k (.nak firstSeq)] }

/-- A DATA or LINK flit accepted in order. -/
def State.acceptFlit (s : State) (g k h : Nat) (pay : List Nat) : State :=
  let l := s.link g k
  let l1 := { l with rxSeq := (l.rxSeq + 1) % 4096, naked := false }
  if s.encOn g k then
    let s1 := s.setLink g k { l1 with seg := l1.seg ++ [(h, pay)] }
    if (s1.link g k).seg.length = 16 then s1.closeSegment g k else s1
  else s.setLink g k (if fhKind h = 1 then l1.deliver h pay 4 else l1)

/-- A flit is corrected, checked, acknowledged and its slots taken, or discarded (R377 to R379, R384, R385). -/
def State.takeFlit (s : State) (gate link : Nat) (flit : Flit) : State :=
  let (data, ce, ue) := flitFec flit.bytes
  let s1 := (s.lnkBump gate link R.GAT_LNK_FEC_CE ce).lnkBump gate link R.GAT_LNK_FEC_UE ue
  let h := leNat (data.take 12)
  let l := s1.link gate link
  if ue ≠ 0 ∨ flitCrcOk data = false ∨ fhKind h = 3 ∨ (fhKind h ≠ 0 ∧ fhSeq h ≠ l.rxSeq) then s1.badFlit gate link ue
  else
    let s2 := s1.setLink gate link (l.recover (fhCrVc h) (fhCrCount h))
    let s3 := if fhKind h = 0 then s2 else s2.acceptFlit gate link h ((data.drop 12).take 256)
    if s3.lstate gate link ≠ lsActive then s3
    else
      let s4 := if fhNak h then s3.nak gate link (fhAck h) else s3.modLink gate link fun x =>
        let y := x.acked (fhAck h)
        if y.replay.any (fun e => e.1 == y.nakSeq) then y else { y with nakRun := 0 }
      s4.drain gate link

/-- FLIT_RECEIVE (R377 to R379, R384, R385). A flit of the reserved KIND is discarded like a bad one (DESIGN CHOICE). -/
def execFlitReceive (gate link : Nat) (flit : Flit) (s : State) : Host.Outcome State Fault Refusal :=
  .next (if s.inState gate link lsActive then
    s.takeFlit gate link flit
  else s)

/-- SEGMENT_TIMEOUT (R385): a segment not complete 32 flit times after its first flit is completed with empty flits. A flit
takes 2.56 ns at four lanes and twice that at two. -/
def execSegmentTimeout (gate link : Nat) (s : State) : Host.Outcome State Fault Refusal :=
  .next (
    let l := s.link gate link
    let wait := if bit (s.reg (pGAT gate) (lnkReg link R.GAT_LNK_STS)) 3 then 164 else 82
    let n := 16 - l.txSeg
    if s.inState gate link lsActive = true ∧ s.encOn gate link = true ∧ l.txSeg ≠ 0 ∧ l.txSegStart + wait ≤ s.mt ∧
        l.replay.length + n ≤ 1024 then
      let s1 := (s.countSent gate link n).setLink gate link (l.putFlits 0 s.mt true n)
      (({ s1 with out := s1.out ++ [Out.linkCtl gate link (.pad n)] }).turnPhase gate link).drain gate link
    else s)

/-- The slots of a packet that has been forwarded or consumed are freed (R384): the oldest arrival with its header. -/
def takeRx (p : Packet) : List RxPkt → Option (RxPkt × List RxPkt)
  | [] => none
  | r :: l =>
    if r.vc = p.body.vc ∧ nth 0 r.hdr 0 = p.body.type ∧ leNat ((r.hdr.drop 2).take 2) % 2 ^ 14 = p.dst ∧
        leNat ((r.hdr.drop 4).take 2) % 2 ^ 14 = p.src then some (r, l)
    else (takeRx p l).map fun q => (q.1, r :: q.2)

def State.consumed (s : State) (p : Packet) : State :=
  if isLink p.gate p.link = false then s
  else
    let l := s.link p.gate p.link
    match takeRx p l.rx with
    | some (r, rest) =>
      s.setLink p.gate p.link { l with rx := rest, freed := sset 0 l.freed r.vc ((sget 0 l.freed r.vc + r.slots) % 4096) }
    | none => s

/-! ### Routing (R387, R388) -/

def State.routeOf (s : State) (m : Nat) : Nat := sget 0 s.routes m

/-- The initial time-to-live and a packet of this module. -/
def State.mkPacket (s : State) (dst flow : Nat) (b : Body) : Packet :=
  ⟨dst, s.moduleId, false, s.fld pGATS R.GAT_SYS_CTL 21 16, flow, 0, 0, b⟩

/-- The value that chooses among links (R388). -/
def flowHash (flow dst : Nat) : Nat := (flow ^^^ dst ^^^ (flow >>> 8)) % 256

/-- A routed packet of this module or of another leaves by its routing entry. -/
def State.routeOut (s : State) (p : Packet) : State :=
  let e := s.routeOf p.dst
  if bit e 3 = false then s.bump pGATS R.GAT_NOROUTE 1
  else s.sendBy (bits e 2 0) (bits e 15 4) (flowHash p.flow p.dst) { p with dateline := p.dateline || bit e 16 }

/-- A packet that arrived for another module is forwarded, its TTL decreased by one (R388). -/
def State.forward (s : State) (p : Packet) : State :=
  if bit (s.routeOf p.dst) 3 = false then s.bump pGATS R.GAT_NOROUTE 1
  else if p.ttl = 0 then s.bump pGATS R.GAT_TTL_DROP 1
  else s.routeOut { p with ttl := p.ttl - 1 }

/-- A read or write of GAT_ROUTE_DATA; each advances IDX (R387). -/
def advanceIdx (s : State) : State :=
  s.setReg pGATS R.GAT_ROUTE_IDX ((s.reg pGATS R.GAT_ROUTE_IDX % 16384 + 1) % 16384)

def routeDataWrite (v : Nat) (s : State) : State :=
  let i := s.reg pGATS R.GAT_ROUTE_IDX % 16384
  advanceIdx { s with routes := sset 0 s.routes i (v % 2 ^ 17) }

def routeDataRead (s : State) : State :=
  (advanceIdx s).reply [s.routeOf (s.reg pGATS R.GAT_ROUTE_IDX % 16384)]

/-- ROUTE_DATA_ACCESS (R387). -/
def execRouteDataAccess (src : Src) (write : Bool) (value : Nat) (s : State) : Host.Outcome State Fault Refusal :=
  .next (if write then s.onWrite src pGATS R.GAT_ROUTE_DATA (routeDataWrite value)
    else s.onRead src pGATS R.GAT_ROUTE_DATA routeDataRead)

/-! ### Module time (R391) -/

/-- TIME of GAT_SYS_STS and LOCK of TIM_STS, which are one state. -/
def State.setLock (s : State) (v : Nat) : State := s.setFld pTIM R.TIM_STS 1 0 v

/-- Module time is lost (R391). -/
def State.timeLost (s : State) : State :=
  { (s.setLock 0).raise pGATS 1 (s.reg pGATS R.GAT_TIME_OFFSET) with timeSynced := false, timeGood := 0, timeMissed := 0, slew := 0 }

/-- An offset measured by a completed exchange. -/
def State.timeOffset (s : State) (o : Int) : State :=
  let s0 := { (s.setReg pGATS R.GAT_TIME_OFFSET (wrapInt o 32)) with timeMissed := 0 }
  if s0.timeSynced = false then
    let s1 := { s0 with mt := wrapInt ((s0.mt : Int) + o) 64, timeSynced := true, timeGood := 0, slew := 0 }
    ((s1.setFld pTIM R.TIM_STS 2 2 1).setLock 1).notice pGATS 0
  else if o < -10000 ∨ 10000 < o then s0.timeLost
  else
    let good := if -50 ≤ o ∧ o ≤ 50 then s0.timeGood + 1 else 0
    let s1 := { s0 with timeGood := good, slew := o }
    if 16 ≤ good then s1.setLock 2 else if good = 0 then s1.setLock 1 else s1

/-- TIME_EXCHANGE (R391): an interval ends with the four times of an exchange, or without one. -/
def execTimeExchange (t1 t2 t3 t4 : Nat) (ok : Bool) (s : State) : Host.Outcome State Fault Refusal :=
  .next (
    let port := s.reg pGATS R.GAT_TIME_PORT
    if s.blockRuns pGATS = false ∨ bit port 7 = false ∨ bit (s.reg pGATS R.GAT_SYS_CTL) 2 = true then s
    else if ok then s.timeOffset ((((t2 : Int) - t1) - ((t4 : Int) - t3)) / 2)
    else
      let n := s.timeMissed + 1
      if 10 ≤ n then s.timeLost else { s with timeMissed := n })

/-- What a reference period adds to module time: 40 ns, and one nanosecond more or less in 125 periods while an offset is being
slewed away: ±200 ppm (R391, R435). -/
def State.passTime (s : State) : State :=
  if s.slew = 0 then { s with mt := (s.mt + 40) % 2 ^ 64, slewTicks := 0 }
  else if s.slewTicks < 124 then { s with mt := (s.mt + 40) % 2 ^ 64, slewTicks := s.slewTicks + 1 }
  else if s.slew < 0 then { s with mt := (s.mt + 39) % 2 ^ 64, slewTicks := 0, slew := s.slew + 1 }
  else { s with mt := (s.mt + 41) % 2 ^ 64, slewTicks := 0, slew := s.slew - 1 }

end Sys2Proof.Machine
end

