-- ==== Sys2Proof/Machine/Upd.lean ====
section
/-! DEFINITION. Machine/Upd.lean: the UPD descriptor (R245 to R270): groups, schedules, shards, update rules, programs,
grafting, working copies, and the step-counter check. -/
namespace Sys2Proof.Machine

/-! ### The UPD body (R250) -/

def udShard (d : Nat) : Nat := df d 16 19 0
def udWc (d : Nat) : Bool := df d 20 1 1 == 1
def udWc2 (d : Nat) : Bool := df d 20 2 2 == 1
def udRnd (d : Nat) : Nat := df d 20 4 3
def udRnd2 (d : Nat) : Nat := df d 20 6 5
def udFirst (d : Nat) : Nat := df d 24 31 0
def udCount (d : Nat) : Nat := df d 28 23 0 + 1

/-! ### Records in memory (R245, R247, R248, R259) -/

def State.updBase (s : State) (off : Nat) : Nat := s.reg64 pUPD off
def State.shardAddr (s : State) (i : Nat) : Nat := s.updBase R.UPD_SHARD_BASE_LO + 128 * i
def State.groupAddr (s : State) (g : Nat) : Nat := s.updBase R.UPD_GROUP_BASE_LO + 64 * g
def State.shardCount (s : State) : Nat := s.reg pUPD R.UPD_SHARD_COUNT % 2 ^ 21

/-- The 128 bytes of a shard record and the 64 bytes of a group record. -/
def State.shardRec (s : State) (i : Nat) : Nat := s.devLe (s.shardAddr i) 128
def State.groupRec (s : State) (g : Nat) : Nat := s.devLe (s.groupAddr g) 64

def shGroup (r : Nat) : Nat := df r 0 11 0
def shSide (r : Nat) : Nat := df r 2 0 0
def shPar (r : Nat) : Bool := df r 2 2 2 == 1
def shMaskEn (r : Nat) : Bool := df r 2 3 3 == 1
def shFmt (r i : Nat) : Option Fmt := Fmt.ofCode (df r (3 + i) 4 0)
def shTrec (r i : Nat) : Nat := df r (6 + 2 * i) 15 0
def shNelem (r : Nat) : Nat := df r 0x0C 31 0
def shCols (r : Nat) : Nat := df r 0x10 31 0
def shState (r side : Nat) : Nat := df r (0x20 + 8 * side) 63 0
def shGrad (r : Nat) : Nat := df r 0x30 63 0
def shPofs (r tag : Nat) : Nat := if shPar r && tag % 2 == 1 then df r 0x40 63 0 else 0
def shWc (r tag : Nat) : Nat := (df r 0x38 63 0 + shPofs r tag) % 2 ^ 64
def shWc2 (r tag : Nat) : Nat := (df r 0x48 63 0 + shPofs r tag) % 2 ^ 64
def shMask (r : Nat) : Nat := df r 0x50 63 0
def shPd (r : Nat) : Nat := df r 0x58 63 0
def shOrigin (r : Nat) : Nat := df r 0x60 41 0

abbrev ruSgd : Nat := 0
abbrev ruAdamw : Nat := 1
abbrev ruLion : Nat := 2
abbrev ruPrecond : Nat := 3
abbrev ruProg : Nat := 4

def grRule (g : Nat) : Nat := df g 0 2 0
def grFlag (g i : Nat) : Bool := df g 1 i i == 1
def grStep (g : Nat) : Nat := df g 4 31 0
def grF (g off : Nat) : Fp := fp32 (df g off 31 0)

/-- The program slot of a group, 32 words (R259). -/
def State.progAddr (s : State) (g : Nat) : Nat := s.updBase R.UPD_PROG_BASE_LO + 128 * df g 3 5 0
def State.progWord (s : State) (g i : Nat) : Nat := s.devLe (s.progAddr g + 4 * i) 4

/-- A program is invalid (R260). -/
def State.progInvalid (s : State) (g : Nat) : Bool :=
  let n := s.progWord g 0 % 32
  n == 0 || decide (24 < n) ||
  (List.range n).any fun i =>
    let w := s.progWord g (i + 1)
    decide (12 ≤ w % 16) || decide (bits w 8 4 < 16)

/-- MOM2 is present (R249). -/
def State.hasM2 (s : State) (g : Nat) : Bool :=
  grRule g == ruAdamw || grRule g == ruPrecond || (grRule g == ruProg && bit (s.progWord g 0) 7)

/-- Update number (R253). -/
def State.updNumber (s : State) (d g : Nat) : Nat := if dTag d = s.nextStep then (grStep g + 1) % 2 ^ 32 else grStep g

/-- Device address of the schedule record of a group. -/
def State.schedAddr (s : State) (g : Nat) : Nat := s.updBase R.UPD_SCHED_BASE_LO + 16 * df g 2 3 0

/-- Device address of the schedule factor of update u, none where the factor is 1 (R247). -/
def State.factorAddr (s : State) (g u : Nat) : Option Nat :=
  let a := s.schedAddr g
  let len := s.devLe (a + 8) 4
  if len = 0 ∨ u = 0 then none else some (s.devLe a 8 + 4 * (min u len - 1))

/-- lr_u (R247). -/
def State.lrOf (s : State) (g u : Nat) : Fp :=
  f32Mul (grF g 8) (match s.factorAddr g u with
    | some a => fp32 (s.devLe a 4)
    | none => Fp.one)

/-! ### Ranges (R249, R255, R256) -/

/-- Arrays of a side: (offset, bytes per element) of master, MOM1, MOM2 where present, carry. -/
def stateArrays (n : Nat) (m2 : Bool) : List (Nat × Nat) :=
  [(0, 4), (4 * n, 4)] ++ (if m2 then [(8 * n, 4), (12 * n, 1)] else [(8 * n, 1)])

/-- Device ranges of the elements of a UPD on one side. -/
def State.stateRanges (s : State) (d r g side : Nat) : List (Nat × Nat) :=
  (stateArrays (shNelem r) (s.hasM2 g)).map fun p => (shState r side + p.1 + p.2 * udFirst d, p.2 * udCount d)

/-- Bytes per gradient element. -/
def gradBytes (r : Nat) : Nat := match shFmt r 0 with
  | some f => f.width / 8
  | none => 0

/-- Code range of the working copy. -/
def wcRange (d r : Nat) (f : Fmt) : Nat × Nat :=
  if f = .p4x then (shWc r (dTag d) + 20 * (udFirst d / 32), 20 * (udCount d / 32))
  else (shWc r (dTag d) + udFirst d * f.width / 8, udCount d * f.width / 8)

/-- Rows of the matrix view that a UPD with WC2_EN covers: first and count. -/
def wc2Rows (d r : Nat) : Nat × Nat := (udFirst d / max 1 (shCols r), udCount d / max 1 (shCols r))

/-- Code range of column c of the transposed copy. -/
def wc2Range (d r : Nat) (f : Fmt) (c : Nat) : Nat × Nat :=
  let e := c * (shNelem r / max 1 (shCols r)) + (wc2Rows d r).1
  let n := (wc2Rows d r).2
  if f = .p4x then (shWc2 r (dTag d) + 20 * (e / 32), 20 * (n / 32)) else (shWc2 r (dTag d) + e * f.width / 8, n * f.width / 8)

/-- Mask bytes of a UPD. -/
def maskRange (d r : Nat) : Nat × Nat :=
  (shMask r + udFirst d / 256, (udFirst d + udCount d - 1) / 256 + 1 - udFirst d / 256)

/-- The gradient's range. -/
def gradRange (d r : Nat) : Nat × Nat := (shGrad r + udFirst d * gradBytes r, udCount d * gradBytes r)

/-- Device ranges a UPD reads, its gradient apart. -/
def State.updReads (s : State) (d r g : Nat) : List (Nat × Nat) :=
  s.stateRanges d r g (shSide r) ++ (if shMaskEn r then [maskRange d r] else []) ++
  (if grRule g = ruPrecond then [(shPd r + 4 * udFirst d, 4 * udCount d)] else [])

/-- Whether element i is frozen (R262); `all` is the group's and the tensor's part. -/
def State.elemFrozen (s : State) (r i : Nat) (all : Bool) : Bool :=
  all || (shMaskEn r && bit (s.devLe (shMask r + i / 256) 1) (i / 32 % 8))

/-- The group's and the tensor's part of freezing (R262). -/
def State.allFrozen (s : State) (site r g : Nat) : Bool :=
  let t := s.recLe (s.trecAddr site (shTrec r 0)) 0 4
  grFlag g 2 || (decide (t < 2 ^ 20) && bit (s.devLe (s.frozenBitAddr site t) 1) (t % 8))

/-- The gradient of the blocks that are not frozen: that of a frozen element is not read (R262). -/
def State.liveGrads (s : State) (site d r g : Nat) : List (Nat × Nat) :=
  let all := s.allFrozen site r g
  (List.range (udCount d / 32)).filterMap fun b =>
    let i := udFirst d + 32 * b
    if s.elemFrozen r i all then none else some (shGrad r + i * gradBytes r, 32 * gradBytes r)

/-- Every device range a UPD reads besides its records. -/
def State.updTakes (s : State) (site d r g : Nat) : List (Nat × Nat) := s.updReads d r g ++ s.liveGrads site d r g

def State.updWrites (s : State) (d r g : Nat) : List (Nat × Nat) :=
  s.stateRanges d r g (if updStage d then 1 - shSide r else shSide r) ++
  (match udWc d, shFmt r 1 with
   | true, some f => [wcRange d r f]
   | _, _ => []) ++
  (match udWc2 d, shFmt r 2 with
   | true, some f => (List.range (shCols r)).map (wc2Range d r f)
   | _, _ => [])

/-- A range lies in memory of the partition: near or far memory or a tile window. -/
def State.inMemory (s : State) (p a n : Nat) (wr : Bool) : Bool :=
  s.maps p a n wr &&
  match s.region a with
  | .near _ | .far _ | .sram _ _ => true
  | _ => false

/-! ### Checks (R252) -/

/-- A record the sequencer reads at issue cannot be read. -/
def State.unreadable (s : State) (c : DCtx) (a n : Nat) : Bool := (s.seqReadFails (s.tilePart c.tile) a n).isSome

/-- What the checks of a UPD find in its own bits. -/
def State.updBitChecks (s : State) (d : Nat) : List Nat :=
  rj (dPhase d != 5 || (updStage d && dTag d == s.openStep) || (udWc2 d && udRnd2 d == 2)) rjKindField ++
  rj ((udWc d && udRnd d == 3) || (udWc2 d && udRnd2 d == 3)) rjRndRsvd

/-- What they find in its shard record. -/
def updShardChecks (d r : Nat) : List Nat :=
  let n := shNelem r
  let first := udFirst d
  let cnt := udCount d
  let f0 := shFmt r 0
  let f1 := shFmt r 1
  let f2 := shFmt r 2
  let unit := if udWc d && f1 == some .t2 then 64 else 32
  let cols := shCols r
  rj (f0.isNone || (udWc d && f1.isNone) || (udWc2 d && f2.isNone)) rjFmtRsvd ++
  rj (first % unit != 0 || cnt % unit != 0 || decide (n < first + cnt)) rjShapeLimit ++
  rj (udWc2 d && (cols == 0 || cols % 32 != 0 || n % max 1 cols != 0 || first % (32 * max 1 cols) != 0 ||
    cnt % (32 * max 1 cols) != 0)) rjShapeLimit ++
  rj (match f0 with
    | some f => !(f == .fp32 || f == .bf16 || f == .fp16 || f == .e4m3 || f == .e5m2)
    | none => false) rjFmtRole ++
  rj (udWc d && (match f1 with
    | some f => f.isInt
    | none => false)) rjFmtRole ++
  rj (udWc2 d && (match f2 with
    | some f => f.isInt || f == .t2
    | none => false)) rjFmtRole ++
  rj (shTrec r 0 == 0xFFFF || (udWc d && needsRec f1 false (shTrec r 1)) || (udWc2 d && needsRec f2 false (shTrec r 2)))
    rjFmtScale

/-- What they find with its group record and the rest that it reads. -/
def State.updGroupChecks (s : State) (c : DCtx) (r g : Nat) : List Nat :=
  let d := c.d
  let epsBad := match grF g 0x14 with
    | .fin false m _ => m == 0
    | _ => true
  let u := s.updNumber d g
  let part := s.tilePart c.tile
  let gradRec := s.trecAddr c.site (shTrec r 0)
  rj (decide (5 ≤ grRule g) || ((grRule g == ruAdamw || grRule g == ruPrecond) && epsBad)) rjKindField ++
  (if grRule g = ruProg then
    (if s.unreadable c (s.progAddr g) 128 then [rjAddrRange] else rj (s.progInvalid g) rjKindField) else []) ++
  rj ((gradRange d r :: s.updReads d r g).any (fun p => !s.inMemory part p.1 p.2 false) ||
    (s.updWrites d r g).any (fun p => !s.inMemory part p.1 p.2 true)) rjAddrRange ++
  rj (s.unreadable c (s.schedAddr g) 16 || (match s.factorAddr g u with
    | some a => s.unreadable c a 4
    | none => false)) rjAddrRange ++
  (if shTrec r 0 = 0xFFFF then [] else
    let t := s.recLe gradRec 0 4
    rj (s.unreadable c gradRec 64 || (decide (t < 2 ^ 20) && s.unreadable c (s.frozenBitAddr c.site t) 1)) rjAddrRange)

/-- Tensor records that a UPD names. -/
def updRecs (d r : Nat) : List Nat :=
  [shTrec r 0] ++ (if udWc d then [shTrec r 1] else []) ++ (if udWc2 d then [shTrec r 2] else [])

/-- The checks of a UPD (R91, R252). -/
def updCheck (s : State) (c : DCtx) : Meaning :=
  let d := c.d
  let pre := s.updBitChecks d
  if s.shardCount ≤ udShard d then ⟨[], pre ++ [rjShapeLimit]⟩
  else if s.unreadable c (s.shardAddr (udShard d)) 128 then ⟨[], pre ++ [rjAddrRange]⟩
  else
    let r := s.shardRec (udShard d)
    ⟨updRecs d r, pre ++ updShardChecks d r ++
      (if s.unreadable c (s.groupAddr (shGroup r)) 64 then [rjAddrRange] else s.updGroupChecks c r (s.groupRec (shGroup r)))⟩

/-! ### Rules (R258, R261) -/

/-- β^u by square and multiply, every product rounded (R258). -/
def powU (b : Fp) (u : Nat) : Fp :=
  (List.range 32).reverse.foldl (fun p k =>
    let q := f32Mul p p
    if bit u k then f32Mul q b else q) Fp.one

/-- What a UPD computes once at issue. -/
structure UpdEnv where
  rule : Nat
  nesterov : Bool
  coupled : Bool
  lr : Fp
  beta1 : Fp
  beta2 : Fp
  eps : Fp
  wd : Fp
  bc1 : Fp
  bc2 : Fp
  ob1 : Fp
  ob2 : Fp
  u : Nat
  consts : List Fp
  prog : List Nat
  m2 : Bool

def State.updEnv (s : State) (d g : Nat) : UpdEnv :=
  let u := s.updNumber d g
  let b1 := grF g 0x0C
  let b2 := grF g 0x10
  let nobc := grFlag g 4
  { rule := grRule g, nesterov := grFlag g 0, coupled := grFlag g 1, lr := s.lrOf g u, beta1 := b1, beta2 := b2,
    eps := grF g 0x14, wd := grF g 0x18,
    bc1 := if nobc then Fp.one else f32Sub Fp.one (powU b1 u), bc2 := if nobc then Fp.one else f32Sub Fp.one (powU b2 u),
    ob1 := f32Sub Fp.one b1, ob2 := f32Sub Fp.one b2, u := u,
    consts := [grF g 0x1C, grF g 0x20, grF g 0x24, grF g 0x28],
    prog := if grRule g = ruProg then (List.range (1 + s.progWord g 0 % 32)).map (s.progWord g) else [],
    m2 := s.hasM2 g }

/-- Moments and direction of one element. -/
structure Dir where
  dir : Fp
  m1 : Fp
  m2 : Fp
  deriving DecidableEq, Repr

/-- AdamW (R258). -/
def adamw (e : UpdEnv) (g m1 m2 : Fp) : Dir :=
  let a := f32Add (f32Mul e.beta1 m1) (f32Mul e.ob1 g)
  let b := f32Add (f32Mul e.beta2 m2) (f32Mul e.ob2 (f32Mul g g))
  ⟨f32Div (f32Div a e.bc1) (f32Add (f32Sqrt (f32Div b e.bc2)) e.eps), a, b⟩

/-- sign(k): +1, −1, +0 for either zero, NaN for NaN. -/
def signFp (x : Fp) : Fp :=
  match x with
  | .nan => .nan
  | .inf s => .fin s 1 0
  | .fin s m _ => if m = 0 then Fp.zero else .fin s 1 0

/-- The hard-wired rules; PRECOND-ADAM gives AdamW's moments here (R258, R270). -/
def ruleDir (e : UpdEnv) (g w m1 m2 : Fp) : Dir :=
  match e.rule with
  | 0 =>
    let g1 := if e.coupled then f32Add g (f32Mul e.wd w) else g
    let a := f32Add (f32Mul e.beta1 m1) g1
    ⟨if e.nesterov then f32Add g1 (f32Mul e.beta1 a) else a, a, m2⟩
  | 2 =>
    let k := f32Add (f32Mul e.beta1 m1) (f32Mul e.ob1 g)
    ⟨signFp k, f32Add (f32Mul e.beta2 m1) (f32Mul e.ob2 g), m2⟩
  | _ => adamw e g m1 m2

/-- One operation of a program (R261). -/
def progOp (op : Nat) (a b c : Fp) : Fp :=
  match op with
  | 0 => f32Add a b
  | 1 => f32Sub a b
  | 2 => f32Mul a b
  | 3 => f32Fma a b c
  | 4 => f32Div a b
  | 5 => f32Sqrt a
  | 6 => fp32 (unitRsqrt (toFp32 a))
  | 7 => fpMin a b
  | 8 => fpMax a b
  | 9 => a.abs
  | 10 => signFp a
  | _ => if Fp.zero.lt c then a else b

/-- A program run on the registers of one element (R261). -/
def runProg (regs : List Fp) : List Nat → List Fp
  | [] => regs
  | w :: r =>
    let g := fun (hi lo : Nat) => regs.getD (bits w hi lo) Fp.zero
    runProg (setNth regs (bits w 8 4) (progOp (w % 16) (g 13 9) (g 18 14) (g 23 19))) r

/-- The programmable rule: update d and the new moments. -/
def progDir (e : UpdEnv) (g w m1 m2 : Fp) : Dir :=
  let init := [g, w, m1, if e.m2 then m2 else Fp.zero, e.lr, e.bc1, e.bc2, rne32 (Fp.ofNat e.u)] ++ e.consts ++
    [e.beta1, e.beta2, e.eps, e.wd] ++ List.replicate 16 Fp.zero
  let out := runProg init (e.prog.drop 1)
  let h := e.prog.headD 0
  ⟨out.getD 16 Fp.zero, if bit h 5 then out.getD 17 Fp.zero else m1, if bit h 6 then out.getD 18 Fp.zero else m2⟩

/-! ### Elements (R254, R255) -/

/-- One element: FP32 words of master and moments, and the carry. -/
structure UElem where
  w : Nat
  m1 : Nat
  m2 : Nat
  c : Nat
  deriving DecidableEq, Repr

/-- The state of element i on a side. -/
def State.stateElem (s : State) (r side i : Nat) (m2 : Bool) : UElem :=
  let b := shState r side
  let n := shNelem r
  ⟨s.devLe (b + 4 * i) 4, s.devLe (b + 4 * n + 4 * i) 4, if m2 then s.devLe (b + 8 * n + 4 * i) 4 else 0,
    s.devLe (b + (if m2 then 12 else 8) * n + i) 1⟩

/-- g of element i (R254). -/
def State.gradOf (s : State) (r i : Nat) (rscale gmul : Fp) : Fp :=
  match shFmt r 0 with
  | some f => f32Mul (f32Mul (decodePlain f (s.devLe (shGrad r + i * gradBytes r) (gradBytes r))) rscale) gmul
  | none => .nan

/-- A result of one element: its new state, whether it is frozen, what it showed. -/
structure UOut where
  e : UElem
  frozen : Bool
  nan : Bool
  inf : Bool
  sat : Bool
  deriving DecidableEq, Repr

/-- The update of one element (R255). `pd` is the grafted direction of PRECOND-ADAM, none for the other rules. -/
def updElem (e : UpdEnv) (x : UElem) (g : Fp) (pd : Option Fp) : UOut :=
  let w := fp32 x.w
  let (d, r) :=
    if e.rule = ruProg then
      let q := progDir e g w (fp32 x.m1) (fp32 x.m2)
      (q.dir, q)
    else
      let q := ruleDir e g w (fp32 x.m1) (fp32 x.m2)
      let dir := match pd with
        | some v => v
        | none => q.dir
      let wd := if e.rule = ruSgd && e.coupled then Fp.zero else e.wd
      ((f32Mul e.lr (f32Add dir (f32Mul wd w))).neg, q)
  let (wn, cn, wv, sat) := carryApply x.w (encodeFp fFP32 d) x.c
  let vs := [g, r.m1, wv] ++ (if e.m2 then [r.m2] else [])
  ⟨⟨wn, encodeFp fFP32 r.m1, if e.m2 then encodeFp fFP32 r.m2 else x.m2, cn⟩, false, vs.any Fp.isNaN, vs.any Fp.isInf, sat⟩

/-- The grafting factor s of PRECOND-ADAM over the range (R270). -/
def graftScale (dirs pds : List Fp) (frozen : List Bool) (gEps : Fp) : Fp :=
  let live := fun (l : List Fp) => (l.zip frozen).map fun p => if p.2 then Fp.zero else p.1
  let sq := fun (l : List Fp) => (live l).map fun v => w36Mul v v
  let na := f32Sqrt (rne32 (rowSum (sq dirs)))
  let np := f32Sqrt (rne32 (rowSum (sq pds)))
  if (live pds).any fun v => !v.isFin then .nan
  else if np.isZero then Fp.zero
  else f32Div na (f32Add np gEps)

/-- Everything a UPD computes: results of its elements in order (R255, R270). -/
def State.updResults (s : State) (c : DCtx) (r g : Nat) : List UOut :=
  let d := c.d
  let e := s.updEnv d g
  let rec0 := s.trecAddr c.site (shTrec r 0)
  let rs := fp32 (s.recScale rec0 (s.useStaged d)).2
  let gm := fp32 (s.gmulOf (dTag d + 1))
  let all := s.allFrozen c.site r g
  let is := (List.range (udCount d)).map (udFirst d + ·)
  let xs := is.map fun i => s.stateElem r (shSide r) i e.m2
  let fz := is.map fun i => s.elemFrozen r i all
  let gs := (is.zip fz).map fun p => if p.2 then Fp.zero else s.gradOf r p.1 rs gm
  let pds := if e.rule = ruPrecond then is.map fun i => fp32 (s.devLe (shPd r + 4 * i) 4) else []
  let sc := if e.rule = ruPrecond then
      graftScale ((xs.zip gs).map fun p => (adamw e p.2 (fp32 p.1.m1) (fp32 p.1.m2)).dir) pds fz (grF g 0x2C)
    else Fp.zero
  (List.range (udCount d)).map fun k =>
    let x := xs.getD k ⟨0, 0, 0, 0⟩
    if fz.getD k false then ⟨x, true, false, false, false⟩
    else updElem e x (gs.getD k Fp.zero) (if e.rule = ruPrecond then some (f32Mul (pds.getD k Fp.zero) sc) else none)

/-! ### Working copies (R256) -/

/-- A copy of a run of elements written at device address a: the state, and what the conversion showed. `planeOff` is the
byte of the scale plane of the run's first block. -/
def State.wcWrite (s : State) (part : Nat) (r a planeOff : Nat) (f : Fmt) (rnd : Nat → Rnd) (sc : Option Fp) (l : List Fp) :
    State × OutEv :=
  let (cb, sb, ev) := writeRow f rnd sc l 0
  let pa := Sys2Proof.Config.scalePlane r + planeOff
  let s1 := s.devWrite a cb
  (if sb != [] && s.inMemory part pa sb.length true then s1.devWrite pa sb else s1, ev)

/-- The working copy and the transposed one: the state, what each conversion showed. -/
def State.wcAll (s : State) (c : DCtx) (r : Nat) (ws : List Fp) : State × OutEv × OutEv :=
  let d := c.d
  let part := s.tilePart c.tile
  let (s1, e1) := match udWc d, shFmt r 1 with
    | true, some f =>
      let i := shTrec r 1
      let key := s.srKey c 3 0 (s.tensorId c.site i)
      let sc := if i = 0xFFFF then none else s.scaleFor c f true i
      s.wcWrite part r (wcRange d r f).1 (udFirst d / f.block) f (fun k => rndOf (udRnd d) key (shOrigin r + udFirst d + k)) sc ws
    | _, _ => (s, {})
  let (s2, e2) := match udWc2 d, shFmt r 2 with
    | true, some f =>
      let i := shTrec r 2
      let sc := if i = 0xFFFF then none else s1.scaleFor c f true i
      let cols := shCols r
      let nr := (wc2Rows d r).2
      (List.range cols).foldl (fun (acc : State × OutEv) k =>
        let col := (List.range nr).map fun j => ws.getD (j * cols + k) Fp.zero
        let (a, ev) := acc.1.wcWrite part (r + 1) (wc2Range d r f k).1
          ((k * (shNelem r / max 1 cols) + (wc2Rows d r).1) / f.block) f (fun _ => if udRnd2 d = 1 then .rtz else .rne) sc col
        (a, acc.2.join ev)) (s1, {})
    | _, _ => (s1, {})
  (s2, e1, e2)

/-! ### The run -/

/-- The state arrays of a list of results written on a side. -/
def State.writeStates (s : State) (r side first : Nat) (m2 all : Bool) (l : List UOut) : State :=
  let b := shState r side
  let n := shNelem r
  l.zipIdx.foldl (fun a p =>
    let i := first + p.2
    if p.1.frozen && !all then a
    else
      let a1 := (a.devPut (b + 4 * i) 4 p.1.e.w).devPut (b + 4 * n + 4 * i) 4 p.1.e.m1
      let a2 := if m2 then a1.devPut (b + 8 * n + 4 * i) 4 p.1.e.m2 else a1
      a2.devPut (b + (if m2 then 12 else 8) * n + i) 1 p.1.e.c) s

/-- A UPD retires faulted before it writes anything. -/
def State.updFault (s : State) (c : DCtx) (code : Nat) : State := s.addRun c.site (mkRun c (.faulted code))

/-- The step-counter check at issue (R264). -/
def State.updSkewed (s : State) (d r g : Nat) : Bool :=
  !grFlag g 3 && !(df r 0x14 31 0 == (dTag d + 2 ^ 32 - 1) % 2 ^ 32 &&
    df r 0x18 31 0 == (s.updNumber d g + 2 ^ 32 - 1) % 2 ^ 32)

/-- STEP_SKEW of a UPD: before COMMIT the step is squashed, after it the error is fatal (R264). -/
def State.updSkew (s : State) (c : DCtx) (g : Nat) : State :=
  let s1 := ((s.updFault c 0).orReg c.site R.TIL_UPD_FLAGS 1).bump pUPD R.UPD_SKEW_COUNT 1
  let s2 := s1.raise pUPD 0 g (udShard c.d) (s1.escalates c.d)
  if s1.escalates c.d then s2 else s2.cause vbStepSkew

/-- The first read range with a bad line, the lines before it corrected. -/
def State.readRanges (s : State) (esc : Bool) : List (Nat × Nat) → State × Option Nat
  | [] => (s, none)
  | p :: r =>
    let (s1, b) := s.readLines 0xFFFF esc (lineAddrs p.1 p.2)
    match b with
    | some a => (s1, some a)
    | none => s1.readRanges esc r

/-- Old bytes of device ranges, for a discard. -/
def State.oldRanges (s : State) (l : List (Nat × Nat)) : List (Nat × Nat) :=
  l.flatMap fun p => (List.range p.2).map fun i => let k := s.key (s.localAddr p.1) + i; (k, s.byte k)

/-- The effect of a UPD on shard record r and group record g, once its ranges rs have been read (R255 to R257, R264, R270, R294). -/
def State.updDone (s0 : State) (c : DCtx) (r g eng : Nat) (rs writes : List (Nat × Nat)) : State :=
  let d := c.d
  let outs := s0.updResults c r g
  let old := s0.oldRanges writes
  let s1 := s0.writeStates r (if updStage d then 1 - shSide r else shSide r) (udFirst d) (s0.hasM2 g) (updStage d) outs
  let ws := outs.map fun o => fp32 o.e.w
  let (s2, e1, e2) := s1.wcAll c r ws
  let nan := outs.any (·.nan)
  let inf := outs.any (·.inf)
  let s3 := ((s2.bump c.site R.TIL_SAT_COUNT (e1.sat + e2.sat + (outs.filter (·.sat)).length)).bump c.site R.TIL_FTZ_COUNT
    (e1.ftz + e2.ftz)).orReg c.site R.TIL_NUM_FLAGS (flagMask d (nan || e1.nan || e2.nan) (inf || e1.inf || e2.inf) false false)
  let merges := (if udWc d then s3.mergeOf c (shTrec r 1) e1 else []) ++ (if udWc2 d then s3.mergeOf c (shTrec r 2) e2 else [])
  let s4 := (s3.addRun c.site { mkRun c .done with merges := merges, undo := old }).fresh.2
  let s5 := rs.foldl (fun a p => a.farTouch eng p.1 p.2) s4
  if (nan || inf) && !updStage d then s5.raise pSTP 10 (dTag d) c.tile true else s5

/-- A UPD that passed its checks runs: it waits for memory, stops on skew or a fault, or has its effect. -/
def updRun (s : State) (c : DCtx) : State :=
  let d := c.d
  let r := s.shardRec (udShard d)
  let gi := shGroup r
  let g := s.groupRec gi
  let reads := s.updTakes c.site d r g
  let writes := s.updWrites d r g
  let rs := reads ++ writes
  let eng := c.tile / 256 * 16 + Sys2Proof.Config.freeNat s.freeCtr % 16
  if rs.any fun p => s.anyGranule p.1 p.2 State.targetWaits then s
  else if s.updSkewed d r g then s.updSkew c gi
  else
    match rs.find? fun p => s.anyGranule p.1 p.2 State.targetOff with
    | some p => (s.updFault c 0x11).movFault c.tile d 0x11 p.1
    | none =>
      let (s0, bad) := s.readRanges (s.escalates d) reads
      match bad with
      | some _ => (s0.updFault c 0x0A).stepError d
      | none => s0.updDone c r g eng rs writes

/-- UPD (R255). -/
def execUpd (tile pos : Nat) (s : State) : Host.Outcome State Fault Refusal :=
  .next (s.issueWith tile pos (fun d => dKind d == 8) updCheck updRun)

/-- A UPD with STAGE = 1 sets STG_VALID when it retires (R266). -/
def State.updRetire (s : State) (d : Nat) : State :=
  if updStage d then
    let a := s.shardAddr (udShard d) + 2
    { s.devPut a 1 (s.devLe a 1 ||| 2) with step := { s.step with covered := (udShard d, (udFirst d, udCount d)) :: s.step.covered } }
  else s

end Sys2Proof.Machine
end

