-- ==== Sys2Proof/Machine/Gates.lean ====
section
/-! DEFINITION. Machine/Gates.lean: reductions in the gates (R392 to R406), the deadline and the include set (R398, R399), held
totals and the ledger (R407 to R409), and the vote and squash notices on the control tree (R410, R411). -/
namespace Sys2Proof.Machine

/-! ### Registers -/

def State.gatsReg (s : State) (off : Nat) : Nat := s.reg pGATS off
def State.gatsEn (s : State) : Bool := s.blockRuns pGATS && bit (s.gatsReg R.GAT_SYS_CTL) 0
def State.lateEn (s : State) : Bool := bit (s.gatsReg R.GAT_SYS_CTL) 3
def State.attempt (s : State) : Nat := s.fld pGATS R.GAT_SYS_STS 15 8
def State.groupsN (s : State) : Nat := s.fld pGATS R.GAT_GROUPS 13 0
def State.groupSize (s : State) : Nat := max 1 (s.fld pGATS R.GAT_GROUPS 29 16)
def State.ownGroup (s : State) : Nat := s.fld pGATS R.GAT_GROUP 12 0
def State.gatsPart (s : State) : Nat := s.pagePart pGATS
def State.modGate (s : State) (f : GateState → GateState) : State := { s with gate := f s.gate }

/-- The gate engine of g adds and forwards (R412). -/
def State.redRuns (s : State) (g : Nat) : Bool := s.gateRuns g && bit (s.reg (pGAT g) R.GAT_CTL) 0 && s.gatsEn

/-! ### Plans and trees (R394) -/

/-- An edge field: link mask, gate, present. -/
def edgeOf (v : Nat) : Option Edge := if bit v 15 then some ⟨bits v 14 12, v % 2 ^ 12⟩ else none

/-- A tree entry of 32 bytes as a number; none where it is invalid. -/
def treeOf (e : Nat) : Option Tree :=
  let n := df e 1 7 0
  let root := df e 0 2 2 == 1
  let parent := edgeOf (df e 2 15 0)
  let kids := (List.range n).map fun c => (edgeOf (df e (8 + 2 * c) 15 0), bit (df e 4 7 0) c)
  if df e 0 0 0 = 1 ∧ n ≤ 8 ∧ parent.isNone = root ∧ (kids.all fun k => k.1.isSome) = true then
    some ⟨df e 0 1 1 == 1, root, parent, kids.filterMap fun k => k.1.map fun x => (x, k.2)⟩
  else none

/-- The trees of a plan, up to the first invalid entry. -/
def State.planTrees (s : State) (p : Nat) : List Tree :=
  let a := s.reg64 pGATS R.GAT_PLAN_BASE_LO + 256 * p
  if s.reachable s.gatsPart a 256 = false then []
  else ((List.range 8).map fun i => treeOf (s.devLe (a + 32 * i) 32)).takeWhile Option.isSome |>.filterMap id

/-- The control tree: tree 0 of plan 0. -/
def State.ctlTree (s : State) : Option Tree := (s.planTrees 0).head?

/-- This module is the coordinator. -/
def State.isCoord (s : State) : Bool := match s.ctlTree with
  | some t => t.root
  | none => false

/-- A packet arrived by an edge. -/
def Edge.has (e : Edge) (g k : Nat) : Bool := e.gate == g && bit e.mask k

/-- The child of a tree that an arrival comes from: index and tier. -/
def Tree.childAt (t : Tree) (g k : Nat) : Option (Nat × Bool) :=
  (List.range t.kids.length).findSome? fun c =>
    match t.kids[c]? with
    | some (e, tier) => if e.has g k then some (c, tier) else none
    | none => none

def Tree.stretchKids (t : Tree) : List Nat := (List.range t.kids.length).filter fun c => !(nth (⟨0, 0⟩, false) t.kids c).2
def Tree.replicaKids (t : Tree) : List Nat := (List.range t.kids.length).filter fun c => (nth (⟨0, 0⟩, false) t.kids c).2

/-- A packet to the module at the other end of an edge. -/
def State.sendEdge (s : State) (e : Edge) (h : Nat) (b : Body) : State :=
  let as := s.activeIn e.gate e.mask
  let dst := match as with
    | [] => 0
    | _ => s.fld (pGAT e.gate) (lnkReg (nth 0 as (h % as.length)) R.GAT_LNK_STS) 19 6
  s.sendBy e.gate e.mask h (s.mkPacket dst h b)

def State.sendEdges (s : State) (es : List Edge) (h : Nat) (b : Body) : State := es.foldl (fun a e => a.sendEdge e h b) s

/-- To every child of the control tree, and to its parent. -/
def State.ctlDown (s : State) (b : Body) : State := match s.ctlTree with
  | some t => s.sendEdges (t.kids.map (·.1)) 0 b
  | none => s
def State.ctlUp (s : State) (b : Body) : State := match s.ctlTree with
  | some t => (match t.parent with
    | some e => s.sendEdge e 0 b
    | none => s)
  | none => s

/-! ### Job records (R392) -/

def jFlag (d i : Nat) : Bool := bit (df d 0 7 0) i
def jPlan (d : Nat) : Nat := df d 1 7 0
def jFmt (d : Nat) : Option Fmt := match Fmt.ofCode (df d 2 4 0) with
  | some .fp32 => some .fp32
  | some .bf16 => some .bf16
  | some .fp16 => some .fp16
  | _ => none
def jFb (d : Nat) : Nat := match jFmt d with
  | some f => f.width / 8
  | none => 4
def jWire (d : Nat) : Bool := df d 3 0 0 == 1
def jWb (d : Nat) : Nat := if jWire d then 2 else 4
def jWf (d : Nat) : FloatFmt := if jWire d then fBF16 else fFP32
def jId (d : Nat) : Nat := df d 4 15 0
def jGroup (d : Nat) : Nat := df d 6 11 0
def jTag (d : Nat) : Nat := df d 8 31 0
def jCount (d : Nat) : Nat := df d 0x0C 31 0
def jSrc (d : Nat) : Nat := df d 0x10 63 0
def jDst (d : Nat) : Nat := df d 0x18 63 0
def jHold (d : Nat) : Nat := df d 0x20 63 0
def jPofs (d : Nat) : Nat := df d 0x28 31 0
def jTensor (d : Nat) : Nat := df d 0x2C 31 0
def jOrigin (d : Nat) : Nat := df d 0x30 41 0
def jWrF (d : Nat) : Nat := df d 0x38 31 0
def jWrC (d : Nat) : Nat := df d 0x3C 31 0
def jShard0 (d : Nat) : Nat := df d 0x40 19 0
def jShardN (d : Nat) : Nat := df d 0x44 31 0
def jNorm (d : Nat) : Nat := df d 0x48 15 0
/-- Elements of the window: [first, first + count); WR_COUNT 0 stands for all. -/
def jWin (d : Nat) : Nat × Nat := if jWrC d = 0 then (0, jCount d) else (jWrF d, jWrC d)
def jBlocks (d : Nat) : Nat := (jCount d + 511) / 512
def jNelem (d b : Nat) : Nat := min 512 (jCount d - 512 * b)
/-- Device address of block b of the held total of a tag's parity. -/
def jHoldAt (d tag b : Nat) : Nat := jHold d + (if tag % 2 = 1 then jPofs d else 0) + 512 * b * jWb d

def RedJob.treeAt (j : RedJob) (b : Nat) : Option Tree := if j.trees = [] then none else j.trees[b % j.trees.length]?

/-- A memory range a gate reads or writes. -/
def State.gateMaps (s : State) (a n : Nat) (wr : Bool) : Bool := s.inMemory s.gatsPart a n wr

/-- The checks of R393. -/
def State.jobBad (s : State) (d : Nat) (trees : List Tree) : Bool :=
  let n := jCount d
  let isHead := trees.any (·.head)
  let win := jWin d
  jTag d != s.openStep || (jFmt d).isNone || decide (2 ≤ df d 3 7 0) || decide (16 ≤ jPlan d) || trees.isEmpty ||
  n == 0 || decide (2 ^ 31 < n) || decide (n < jWrF d + jWrC d) || (isHead && jHold d == 0) || decide (4096 < jShardN d) ||
  !s.gateMaps (jSrc d) (n * jFb d) false || !s.gateMaps (jDst d + win.1 * jFb d) (win.2 * jFb d) true ||
  (isHead && !(s.gateMaps (jHold d) (n * jWb d) true && s.gateMaps (jHold d + jPofs d) (n * jWb d) true)) ||
  (jShardN d != 0 && !s.gateMaps (s.shardAddr (jShard0 d)) (128 * jShardN d) true) ||
  (jNorm d != 0xFFFF && !s.gateMaps (s.reg64 pSTP R.STP_NORM_BASE_LO + 4 * jNorm d) 4 true)

/-! ### Jobs in hand -/

def State.jobOf (s : State) (idx : Nat) : Option RedJob := s.gate.jobs.find? fun j => j.idx == idx
def State.modJob (s : State) (idx : Nat) (f : RedJob → RedJob) : State :=
  s.modGate fun g => { g with jobs := g.jobs.map fun j => if j.idx = idx then f j else j }
def RedJob.blk (j : RedJob) (b : Nat) : BlkState := sget {} j.blocks b
def State.modBlk (s : State) (idx b : Nat) (f : BlkState → BlkState) : State :=
  s.modJob idx fun j => { j with blocks := sset {} j.blocks b (f (j.blk b)) }

/-- The head count moves over finished jobs in ring order (R402). -/
def gateHead : Nat → Nat → List RedJob → Nat × List RedJob
  | 0, h, l => (h, l)
  | f + 1, h, l =>
    match l.find? fun j => j.idx == h with
    | some j => if j.done then gateHead f ((h + 1) % 2 ^ 16) (l.filter fun x => x.idx != h) else (h, l)
    | none => (h, l)

def State.advanceJobs (s : State) : State :=
  let (h, l) := gateHead 257 (s.gatsReg R.GAT_JOB_HEAD % 2 ^ 16) s.gate.jobs
  (s.modGate fun g => { g with jobs := l }).setReg pGATS R.GAT_JOB_HEAD h

/-- SIG and the head of a job that retires, and what it leaves (R402). -/
def State.retireJob (s : State) (idx d : Nat) : State :=
  let s1 := if jFlag d 0 then s.blockSignal s.gatsPart pGATS (df d 0x4A 10 0) (df d 0x4A 14 11) 1 else s
  let s2 := if jFlag d 1 then s1.notice pGATS 5 (idx % 256) else s1
  (s2.modJob idx fun j => { j with done := true, blocks := [] }).advanceJobs

/-- A job fails (R393): a step error. -/
def State.failJob (s : State) (idx d : Nat) : State :=
  ((s.retireJob idx d).raise pGATS 4 (idx % 256)).cause vbStepErr

/-! ### Sums (R396, R400, R401, R404) -/

/-- Elements of a block as values. -/
def blkVals (b : RedBlock) : List Fp := b.data.map (decodeFp (if b.wireBf16 then fBF16 else fFP32))

/-- A block rewritten from values, with the flags its values set. -/
def blkPut (b : RedBlock) (f : FloatFmt) (l : List Fp) (stage : Nat) : RedBlock :=
  { b with data := l.map (encodeFp f), nan := b.nan || l.any Fp.isNaN, inf := b.inf || l.any Fp.isInf, stage := stage }

/-- The rounding of element e of a job at a reduction stage (R400). -/
def State.redRnd (s : State) (d stage e : Nat) : Rnd :=
  if bit (s.gatsReg R.GAT_SYS_CTL) 1 then
    .sr (srWord ⟨s.step.seed, 2, stage, jTensor d, jTag d⟩ (jOrigin d + e))
  else .rne

/-- Chunk index of a rounding: this module and the place c of the addition. -/
def State.stageOf (s : State) (c : Nat) : Nat := s.moduleId * 16 + c

/-- a + b element by element, each sum exact and rounded once to WIRE (R400). -/
def State.sumVals (s : State) (d b c : Nat) (x y : List Fp) : List Fp :=
  (List.range x.length).map fun i =>
    (convFp (jWf d) (s.redRnd d (s.stageOf c) (512 * b + i)) ((nth Fp.zero x i).add (nth Fp.zero y i))).1

/-- One block added to another at stage c; flags and contributions join. -/
def State.addBlocks (s : State) (d c : Nat) (x y : RedBlock) : RedBlock :=
  let z := { x with
    nan := x.nan || y.nan, inf := x.inf || y.inf, skew := x.skew || y.skew, contrib := (x.contrib + y.contrib) % 2 ^ 14 }
  if y.data = [] then z
  else if x.data = [] then { z with data := y.data, stage := y.stage, ebytes := y.ebytes, wireBf16 := y.wireBf16 }
  else blkPut z (jWf d) (s.sumVals d x.block c (blkVals x) (blkVals y)) (s.stageOf c)

/-- Flags of a block set those of the module for the tag's parity (R404). -/
def State.redFlags (s : State) (tag : Nat) (b : RedBlock) : State :=
  s.orReg pGATS R.GAT_RED_FLAGS ((b2n b.nan + 2 * b2n b.inf + 4 * b2n b.skew) * 2 ^ (3 * (tag % 2)))

/-- A received block's CNT compared with the job's; the group of the first skew is recorded (R404). -/
def State.skewCheck (s : State) (j : RedJob) (b : RedBlock) : State × RedBlock :=
  let b1 := if b.cnt = j.cnt then b else { b with skew := true }
  let first := b1.skew && !bit (s.gatsReg R.GAT_RED_FLAGS) 2 && !bit (s.gatsReg R.GAT_RED_FLAGS) 5
  let s1 := if first then s.setReg pGATS R.GAT_SKEW_GROUP (jGroup j.desc) else s
  (s1.redFlags (jTag j.desc) b1, b1)

/-- A block of this module for a job, without data. -/
def State.emptyBlock (s : State) (j : RedJob) (b : Nat) : RedBlock :=
  { stepTag := jTag j.desc, cnt := j.cnt, jobId := jId j.desc, group := jGroup j.desc, attempt := s.attempt,
    nan := false, inf := false, skew := false, wireBf16 := jWire j.desc, final := false, contrib := 0, block := b, stage := 0,
    nelem := jNelem j.desc b, ebytes := jWb j.desc, data := [] }

/-- Values in WIRE; one that no addition has rounded and that WIRE cannot hold takes a free value (log entry 25). -/
def toWire (d : Nat) (x : Fp) : Fp :=
  let y := (convFp (jWf d) .rne x).1
  if x.eqv y || x.isNaN || x.isInf then y else decodeFp fBF16 (Sys2Proof.Config.wireRound (toFp32 x) % 2 ^ 16)

/-- This module's SRC block, decoded exactly (R396). -/
def State.ownBlock (s : State) (j : RedJob) (b : Nat) : List Fp :=
  let fb := jFb j.desc
  let bytes := s.bytes (s.key (s.localAddr (jSrc j.desc + 512 * b * fb))) (jNelem j.desc b * fb)
  (chunksOf fb (jNelem j.desc b) bytes).map fun l => decodePlain ((jFmt j.desc).getD .fp32) (leNat l)

/-- The stretch sum of a block (R396): the own block, then each stretch child in ascending index. -/
def State.stretchSum (s : State) (j : RedJob) (b : Nat) (t : Tree) : RedBlock :=
  let own := s.ownBlock j b
  let kids := t.stretchKids.filterMap fun c => ((j.blk b).ups.find? fun e => e.1 == c).map fun e => (c, e.2)
  let d := j.desc
  match kids with
  | [] => blkPut (s.emptyBlock j b) (jWf d) (own.map (toWire d)) (s.stageOf 0)
  | (c, x) :: rest =>
    let z := { (s.emptyBlock j b) with nan := x.nan, inf := x.inf, skew := x.skew }
    let first := blkPut z (jWf d) (s.sumVals d b c own (blkVals x)) (s.stageOf c)
    rest.foldl (fun a e => s.addBlocks d e.1 a e.2) first

/-- A group total written to HOLD of its parity in WIRE format. -/
def State.writeHold (s : State) (d b : Nat) (x : RedBlock) : State :=
  s.devWrite (jHoldAt d (jTag d) b) ((x.data.map fun v => leBytes v (jWb d)).flatten)

/-- The held total of the step before, as a block. -/
def State.heldBlock (s : State) (j : RedJob) (b : Nat) : RedBlock :=
  let d := j.desc
  let bytes := s.bytes (s.key (s.localAddr (jHoldAt d (jTag d + 1) b))) (jNelem d b * jWb d)
  { (s.emptyBlock j b) with data := (chunksOf (jWb d) (jNelem d b) bytes).map leNat }

/-- This module's group is in the include set. -/
def State.included (s : State) : Bool := match s.gate.go with
  | some g => bit g.bitmap s.ownGroup
  | none => false
/-- This module is excused for the open step (R407). -/
def State.excused (s : State) : Bool := s.gate.go.isSome && !s.included

/-- A head's total of a block goes to HOLD, with a carried total added where the group still carries one (R396, R407). -/
def State.holdTotal (s : State) (j : RedJob) (b : Nat) (raw : RedBlock) : State :=
  let x := if s.gate.carried && !s.excused then s.addBlocks j.desc 8 raw (s.heldBlock j b) else raw
  let s1 := (s.writeHold j.desc b x).redFlags (jTag j.desc) x
  let s2 := if x.nan || x.inf || x.skew then s1.modGate fun g => { g with totalBad := true } else s1
  s2.modBlk j.idx b fun k => { k with raw := some raw, total := some x }

/-- The stretch tier of a block (R396), once every stretch child's block is there. -/
def State.doStretch (s : State) (j : RedJob) (b : Nat) (t : Tree) : State :=
  let k := j.blk b
  if k.total.isSome ∨ (t.stretchKids.all fun c => k.ups.any fun e => e.1 == c) = false then s
  else
    let raw := s.stretchSum j b t
    let s0 := s.redFlags (jTag j.desc) raw
    if t.head then s0.holdTotal j b raw
    else
      let s1 := s0.modBlk j.idx b fun k => { k with raw := some raw, total := some raw, sentUp := true }
      match t.parent with
      | some e => s1.sendEdge e (b % 256) (.redUp raw)
      | none => s1

/-- Bytes of the window's part of a block written to DST (R401, R402). -/
def State.writeWindow (s : State) (d : Nat) (x : RedBlock) : State :=
  let (w0, wn) := jWin d
  let fb := jFb d
  (List.range x.data.length).foldl (fun a i =>
    let e := 512 * x.block + i
    if w0 ≤ e ∧ e < w0 + wn then a.devWrite (jDst d + e * fb) (leBytes (nth 0 x.data i) fb) else a) s

/-- A block's result has been received or formed (R401, R402, R404). -/
def State.finalBlock (s : State) (j : RedJob) (t : Tree) (x0 : RedBlock) : State :=
  let (s1, x) := s.skewCheck j x0
  let s2 := s1.modGate fun g => { g with contribs := sinsert x.contrib g.contribs }
  let s3 := s2.writeWindow j.desc x
  let s4 := s3.modBlk j.idx x.block fun k => { k with final := true }
  s4.sendEdges (t.kids.map (·.1)) (x.block % 256) (.redDn x)

/-- The replica sum of a head's block (R401): HOLD if included, then each replica child in ascending index. -/
def State.replicaSum (s : State) (j : RedJob) (b : Nat) (t : Tree) : RedBlock :=
  let k := j.blk b
  let start := if s.included then { (k.total.getD (s.emptyBlock j b)) with contrib := 1 } else s.emptyBlock j b
  t.replicaKids.foldl (fun a c => match k.ups.find? fun e => e.1 == c with
    | some e => s.addBlocks j.desc c a e.2
    | none => a) start

/-- The root converts its sum to FMT at stage 9. -/
def State.toFmt (s : State) (j : RedJob) (x : RedBlock) : RedBlock :=
  let d := j.desc
  let f := (((jFmt d).getD .fp32).elem).getD fFP32
  let l := (List.range x.data.length).map fun i =>
    (convFp f (s.redRnd d (s.stageOf 9) (512 * x.block + i)) (nth Fp.zero (blkVals x) i)).1
  { (blkPut x f l (s.stageOf 9)) with final := true, ebytes := jFb d, wireBf16 := false }

/-- The replica tier of a head's block, after GO and once every replica child's block is there (R401). -/
def State.doReplica (s : State) (j : RedJob) (b : Nat) (t : Tree) : State :=
  let k := j.blk b
  let goHere := match s.gate.go with
    | some g => g.stepTag == jTag j.desc
    | none => false
  if goHere = false ∨ t.head = false ∨ k.sentUp = true ∨ (s.included = true ∧ k.total.isNone = true) ∨
      (t.replicaKids.all fun c => k.ups.any fun e => e.1 == c) = false then s
  else
    let x := s.replicaSum j b t
    let s1 := (s.redFlags (jTag j.desc) x).modBlk j.idx b fun k => { k with sentUp := true }
    match t.parent with
    | some e => s1.sendEdge e (b % 256) (.redUp x)
    | none =>
      match s1.jobOf j.idx with
      | some j1 => s1.finalBlock j1 t (s1.toFmt j1 x)
      | none => s1

/-- A block of a job goes as far as it can. -/
def State.progress (s : State) (idx b : Nat) : State :=
  match s.jobOf idx with
  | none => s
  | some j =>
    match j.treeAt b with
    | none => s
    | some t =>
      let s1 := s.doStretch j b t
      match s1.jobOf idx with
      | some j1 => s1.doReplica j1 b t
      | none => s1

/-- Stretch-tier work of every block of a job is finished (R397). -/
def RedJob.stretchDone (j : RedJob) : Bool := (List.range (jBlocks j.desc)).all fun b => (j.blk b).total.isSome

/-! ### The include set (R398, R399, R408) -/

/-- The median of the last 16 intervals (R398); 0 while fewer are held. -/
def medianOf (l : List Nat) : Nat :=
  if l.length < 16 then 0
  else nth 0 ((l.foldl (fun acc x => (acc.takeWhile (· ≤ x)) ++ [x] ++ acc.dropWhile (· ≤ x)) []) ) 7

/-- The reduction deadline; none while there is none. -/
def State.deadline (s : State) : Option Nat :=
  if s.lateEn = false ∨ s.gate.intervals.length < 16 then none
  else
    let f := s.gatsReg R.GAT_LATE_FACTOR % 2 ^ 16
    some (s.gate.v + (if f = 0 then 256 else f) * medianOf s.gate.intervals / 256)

/-- GAT_MEDIAN and GAT_DEADLINE brought up to date. -/
def State.showDeadline (s : State) : State :=
  let s1 := s.setReg pGATS R.GAT_MEDIAN (medianOf s.gate.intervals)
  let d := s.deadline.getD (2 ^ 64 - 1)
  (s1.setReg pGATS R.GAT_DEADLINE_LO d).setReg pGATS R.GAT_DEADLINE_HI (d / 2 ^ 32)

/-- Modules of a group (DEDUCED from the example of R411: consecutive module IDs). -/
def State.groupModules (s : State) (g : Nat) : List Nat := (List.range s.groupSize).map (g * s.groupSize + ·)

/-- Groups whose modules have all sent READY. -/
def State.groupReady (s : State) (g : Nat) : Bool := (s.groupModules g).all fun m => s.gate.readyFrom.contains m

/-- GO applied on a module (R399, R401, R407). -/
def State.applyGo (s : State) (g : GoMsg) : State :=
  let s1 := s.modGate fun x => { x with go := some g }
  let out := s1.excused
  let run := if out then s1.gate.run + 1 else s1.gate.run
  let s2 := (s1.setReg pSTP R.STP_RESCALE g.rs).setReg pGATS R.GAT_LATE_STS
    (g.k % 2 ^ 14 + min run 255 * 2 ^ 14 + b2n out * 2 ^ 22)
  let s3 := if out && s2.gate.carried then
      -- the carried total is dropped: the group's own total alone stays in HOLD
      s2.gate.jobs.foldl (fun a j => (List.range (jBlocks j.desc)).foldl (fun a b =>
        match j.treeAt b, (j.blk b).raw with
        | some t, some raw => if t.head then a.holdTotal j b raw else a
        | _, _ => a) a) s2
    else s2
  let s4 := s3.ctlDown (.go g)
  s4.gate.jobs.foldl (fun a j => (List.range (jBlocks j.desc)).foldl (fun a b => a.progress j.idx b) a) s4

/-- The coordinator fixes the include set and sends GO (R399, R408). -/
def State.fixSet (s : State) : State :=
  let n := s.groupsN
  let out := (List.range n).filter fun g => !s.groupReady g
  let k := out.length
  let slow := fun g => ((s.groupModules g).filter fun m => !s.gate.readyFrom.contains m).getLastD 0
  let bitmap := sumNat (((List.range n).filter s.groupReady).map fun g => 2 ^ g)
  let rs := if bit (s.gatsReg R.GAT_SYS_CTL) 5 then 0x3F800000
    else encodeFp fFP32 (roundRat fFP32 false (n - k) (max 1 n) 0)
  let limit := s.gatsReg R.GAT_LATE_LIMIT % 256
  let s1 := out.foldl (fun a g =>
    let a1 := a.raise pGATS 2 g (slow g)
    if limit ≠ 0 ∧ sget 0 a.gate.streaks g + 1 = limit then a1.raise pGATS 3 g (slow g) else a1) s
  s1.applyGo ⟨s.openStep, s.attempt, bitmap, k, rs, out.map fun g => (g, slow g)⟩

/-- The include set is fixed as soon as R399 allows. -/
def State.tryFix (s : State) : State :=
  let gs := List.range s.groupsN
  if s.isCoord = false ∨ s.gate.go.isSome = true ∨ s.gatsEn = false ∨ gs = [] then s
  else if gs.all s.groupReady then s.fixSet
  else
    match s.deadline with
    | some d => if d ≤ s.mt ∧ (gs.any s.groupReady) = true then s.fixSet else s
    | none => s

/-- READY of a module reaches the coordinator or goes on up (R397). -/
def State.takeReady (s : State) (tag m t : Nat) : State :=
  if s.isCoord then
    (if tag = s.openStep then (s.modGate fun g => { g with readyFrom := sinsert m g.readyFrom }).tryFix else s)
  else s.ctlUp (.ready tag m t)

/-- Jobs whose stretch work is finished are counted; READY leaves with the last of them (R397). -/
def State.countStretch (s : State) : State :=
  let hit := fun (j : RedJob) => !j.done && !j.counted && jTag j.desc == s.openStep && j.stretchDone
  let n := (s.gate.jobs.filter hit).length
  let s1 := s.modGate fun g => { g with
    jobs := g.jobs.map fun j => if hit j then { j with counted := true } else j, stepDone := g.stepDone + n }
  let want := max 1 (s.gatsReg R.GAT_STEP_JOBS % 2 ^ 16)
  if want ≤ s1.gate.stepDone ∧ s1.gate.readySent = false then
    (s1.modGate fun g => { g with readySent := true }).takeReady s.openStep s.moduleId s.mt
  else s1

/-! ### Blocks received (R404, R405) -/

/-- Bytes of stored blocks, of a gate or of one of its links. -/
def redBytes (b : RedBlock) : Nat := b.data.length * b.ebytes
def State.storeUsed (s : State) (g : Nat) : Nat := sumNat ((s.gate.store.filter fun e => e.gate == g).map fun e => redBytes e.blk)

/-- Room in a gate's 4 MiB store, of which each link has 8 KiB to itself (R405). -/
def State.storeRoom (s : State) (g k n : Nat) : Bool :=
  let use := fun l => sumNat ((s.gate.store.filter fun e => e.gate == g && e.link == l).map fun e => redBytes e.blk)
  let shared := sumNat ((List.range 12).map fun l => use l - 8192)
  decide (use k + n ≤ 8192) || decide (shared + (use k + n - 8192) - (use k - 8192) ≤ 2 ^ 22 - 12 * 8192)

/-- A block is stale (R405). -/
def State.staleBlock (s : State) (b : RedBlock) : Bool :=
  let age := (s.openStep + 2 ^ 32 - b.stepTag) % 2 ^ 32
  (age != 0 && decide (age < 2 ^ 31)) ||
  (age == 0 && b.attempt != s.attempt && decide ((s.attempt + 256 - b.attempt % 256) % 256 < 128))

/-- The job a block belongs to. -/
def State.jobFor (s : State) (b : RedBlock) : Option RedJob :=
  if b.stepTag = s.openStep ∧ b.attempt ≠ s.attempt then none
  else s.gate.jobs.find? fun j => !j.done && jId j.desc == b.jobId && jTag j.desc == b.stepTag

/-- A block of a job in hand, from a child or from the parent. -/
def State.useBlock (s : State) (j : RedJob) (e : Stored) : State :=
  match j.treeAt e.blk.block with
  | none => s
  | some t =>
    if jBlocks j.desc ≤ e.blk.block then s
    else if e.down then
      (match t.parent with
       | some p => if p.has e.gate e.link && !(j.blk e.blk.block).final then s.finalBlock j t e.blk else s
       | none => s)
    else
      match t.childAt e.gate e.link with
      | none => s
      | some (c, _) =>
        if (j.blk e.blk.block).ups.any fun u => u.1 == c then s
        else
          let (s1, x) := s.skewCheck j e.blk
          ((s1.modBlk j.idx x.block fun k => { k with ups := k.ups ++ [(c, x)] }).progress j.idx x.block).countStretch

/-- A reduction block arrives (R405): stale ones are counted and dropped, early ones stored while there is room. -/
def State.recvBlock (s : State) (p : Packet) (down : Bool) (b : RedBlock) : State :=
  if s.redRuns p.gate = false then s
  else if s.staleBlock b then (s.consumed p).bump pGATS R.GAT_STALE 1
  else
    match s.jobFor b with
    | some j => (s.consumed p).useBlock j ⟨p.gate, p.link, down, b⟩
    | none =>
      if s.storeRoom p.gate p.link (redBytes b) then
        (s.consumed p).modGate fun g => { g with store := g.store ++ [⟨p.gate, p.link, down, b⟩] }
      else s

/-- Stored blocks of a job that has just been taken are used, in the order they came. -/
def State.useStored (s : State) (idx : Nat) : State :=
  s.gate.store.foldl (fun a e =>
    match a.jobFor e.blk with
    | some j =>
      if j.idx = idx then (a.modGate fun g => { g with store := g.store.erase e }).useBlock j e else a
    | none => a) s

/-! ### The control tree (R410, R411) -/

/-- A vote record combined with a child's (R410). -/
def joinVotes (a b : VoteRec) : VoteRec :=
  { a with reasons := a.reasons ||| b.reasons, d := (a.d + b.d) % 2 ^ 64, voters := (a.voters + b.voters) % 2 ^ 64,
           sloc := toFp32 (f32Add (fp32 a.sloc) (fp32 b.sloc)) }

/-- What a module puts into the vote: nothing when excused, and its sum of squares only in the lowest included group. -/
def State.ownPart (s : State) (r : VoteRec) : VoteRec :=
  if s.excused then { r with reasons := 0, sloc := 0, d := 0, voters := 0 }
  else
    let lowest := match s.gate.go with
      | some g => (List.range s.groupsN).find? fun i => bit g.bitmap i
      | none => none
    if lowest = some s.ownGroup then r else { r with sloc := 0 }

/-- The combined record leaves when every part is there and GO has come; the coordinator forms the result (R398, R410). -/
def State.tryVote (s : State) : State :=
  match s.ctlTree, s.gate.own with
  | some t, some own =>
    let n := t.kids.length
    if s.gatsEn = false ∨ s.gate.voted = true ∨ s.gate.go.isNone = true ∨
        ((List.range n).all fun c => s.gate.kids.any fun e => e.1 == c) = false then s
    else
      let r := (List.range n).foldl (fun a c => match s.gate.kids.find? fun e => e.1 == c with
        | some e => joinVotes a e.2
        | none => a) (s.ownPart own)
      let s1 := s.modGate fun g => { g with voted := true }
      if t.root then
        let res := { r with mt := s.mt }
        let s2 := s1.modGate fun g => { g with formed := some res, v := s.mt, curV := some s.mt }
        (s2.showDeadline).ctlDown (.voteResult res)
      else s1.ctlUp (.vote r (s.excused && own.reasons != 0))
  | _, _ => s

/-- Messages of the step controller leave by the control tree (R410, R411). -/
def State.drainCtl (s : State) : State :=
  if s.gatsEn = false then s
  else
    s.ctlOut.foldl (fun a m => match m with
      | .vote r =>
        let a1 := a.modGate fun g => { g with own := some r, mayKeep := g.mayKeep && !(a.excused && r.reasons != 0) }
        a1.tryVote
      | .squash n =>
        let es : List Edge := match a.ctlTree with
          | some t => (t.kids.map fun k => k.1) ++ t.parent.toList
          | none => []
        let keep := es.filter fun e => match a.gate.squashFrom with
          | some (g, k) => !e.has g k
          | none => true
        a.sendEdges keep 0 (.squash n a.attempt)) { s with ctlOut := [] }

/-! ### What the step controller asks of the gates -/

/-- The ledger at the close of REDUCE (R409). -/
def State.gateLedger (s : State) : State :=
  let g := s.gate
  let c := b2n g.carried
  let goN := match g.go with
    | some m => s.groupsN - m.k
    | none => 0
  let whole := g.contribs.all (· == goN)
  let keep := bit (s.gatsReg R.GAT_SYS_CTL) 4 && g.mayKeep && !g.totalBad
  let st :=
    if s.gatsEn = false then { s.step with clExp := 0, clInc := 0, clDef := 0, clDrop := 0 }
    else if s.excused then { s.step with clExp := 1 + c, clInc := 0, clDef := b2n keep, clDrop := c + b2n (!keep) }
    else { s.step with clExp := 1 + c, clInc := if s.included && whole then 1 + c else 0, clDef := 0, clDrop := 0 }
  { s with step := st }

/-- A new step or attempt begins: nothing of the vote or of the include set is left. -/
def GateState.clear (g : GateState) : GateState :=
  { g with stepDone := 0, readySent := false, readyFrom := [], go := none, contribs := [], mayKeep := true, totalBad := false,
           own := none, kids := [], voted := false, formed := none, squashFrom := none }

/-- Flags of a parity cleared (R404). -/
def State.clearRedFlags (s : State) (tag : Nat) : State :=
  let v := setBits (s.gatsReg R.GAT_RED_FLAGS) (3 * (tag % 2) + 2) (3 * (tag % 2)) 0
  (s.setReg pGATS R.GAT_RED_FLAGS v).setReg pGATS R.GAT_SKEW_GROUP (if v = 0 then 0 else s.gatsReg R.GAT_SKEW_GROUP)

/-- COMMIT of step n in the gates (R398, R404, R405, R407, R408). -/
def State.gateCommit (s : State) (n : Nat) : State :=
  let g := s.gate
  let out := s.excused
  let keep := bit (s.gatsReg R.GAT_SYS_CTL) 4 && g.mayKeep && !g.totalBad
  let ivs := match g.prevV, g.curV with
    | some a, some b => (g.intervals ++ [b - a]).drop ((g.intervals.length + 1) - 16)
    | _, _ => g.intervals
  let streaks := match g.go with
    | some m => (List.range s.groupsN).foldl (fun l i =>
        sset 0 l i (if bit m.bitmap i then 0 else sget 0 l i + 1)) g.streaks
    | none => g.streaks
  let s1 := s.modGate fun x => { x.clear with
    carried := out && keep, run := if out then g.run + 1 else 0, intervals := ivs, prevV := g.curV, curV := none,
    streaks := if s.isCoord then streaks else g.streaks, store := g.store.filter fun e => e.blk.stepTag != n }
  let s2 := (s1.setFld pGATS R.GAT_SYS_STS 15 8 0).setFld pGATS R.GAT_LATE_STS 22 22 0
  (s2.clearRedFlags n).showDeadline

/-- Ring counts of jobs that have not been taken. -/
def State.untaken (s : State) : List Nat :=
  let n := (s.gatsReg R.GAT_JOB_TAIL + 2 ^ 16 - s.gate.nextJob) % 2 ^ 16
  (List.range n).map fun i => (s.gate.nextJob + i) % 2 ^ 16

def State.jobAddr (s : State) (idx : Nat) : Nat := s.reg64 pGATS R.GAT_JOB_BASE_LO + 128 * (idx % 256)

/-- A squash of step n in the gates (R406): jobs of n and n + 1, their blocks and totals are discarded. -/
def State.gateSquash (s : State) (n : Nat) : State :=
  let mine := fun t => t == n || t == (n + 1) % 2 ^ 32
  let un := s.untaken.filter fun i => mine (s.devLe (s.jobAddr i + 8) 4)
  let g := s.gate
  let gone := un.filter fun i => !g.jobs.any fun j => j.idx == i
  let jobs := (g.jobs.map fun j => if mine (jTag j.desc) then { j with done := true, blocks := [] } else j) ++
    gone.map fun i => { idx := i, desc := 0, cnt := 0, trees := [], done := true }
  let s1 := s.modGate fun x => { x.clear with
    jobs := jobs, store := x.store.filter fun e => !mine e.blk.stepTag, prevV := none, curV := none }
  let s2 := s1.setFld pGATS R.GAT_SYS_STS 15 8 (s.attempt + 1)
  (((s2.setFld pGATS R.GAT_LATE_STS 22 22 0).clearRedFlags n).clearRedFlags (n + 1)).advanceJobs

/-! ### Commands -/

/-- A write of GAT_JOB_TAIL (R85, R86, R392). -/
def gatJobTailWrite (v : Nat) (s : State) : State :=
  let v' := v % 2 ^ 16
  if tailOk 256 (s.gatsReg R.GAT_JOB_HEAD % 2 ^ 16) (s.gatsReg R.GAT_JOB_TAIL % 2 ^ 16) v' then
    s.setReg pGATS R.GAT_JOB_TAIL v' else s

def execGatJobTailWrite (src : Src) (value : Nat) (s : State) : Host.Outcome State Fault Refusal :=
  .next (s.onWrite src pGATS R.GAT_JOB_TAIL (gatJobTailWrite value))

/-- The next job to take: counts discarded by a squash are passed over. -/
def State.nextTake (s : State) : Option Nat := s.untaken.find? fun i => !s.gate.jobs.any fun j => j.idx == i

/-- A job is taken (R392 to R396). -/
def State.takeJob (s : State) (idx : Nat) : State :=
  let a := s.jobAddr idx
  let s0 := s.modGate fun g => { g with nextJob := (idx + 1) % 2 ^ 16 }
  let put := fun (x : State) (d cnt : Nat) (ts : List Tree) => x.modGate fun g =>
    { g with jobs := g.jobs ++ [{ idx := idx, desc := d, cnt := cnt, trees := ts }] }
  if s.reachable s.gatsPart a 128 = false then
    (((put s0 0 0 []).modJob idx fun j => { j with done := true }).advanceJobs.raise pGATS 4 (idx % 256)).cause vbStepErr
  else
    let d := s.devLe a 128
    let ts := if 16 ≤ jPlan d then [] else s.planTrees (jPlan d)
    let cnt := grStep (s.groupRec (jGroup d))
    let s1 := put s0 d cnt ts
    if s.jobBad d ts then s1.failJob idx d
    else
      let n := jCount d * jFb d
      let (s2, bad) := s1.readLines 0xFFFF false (lineAddrs (jSrc d) n)
      if bad.isSome then s2.failJob idx d
      else
        let s3 := s2.farTouch 99 (jSrc d) n
        let s4 := (List.range (jBlocks d)).foldl (fun x b => x.progress idx b) s3
        (s4.useStored idx).countStretch

/-- JOB_TAKE (R392, R393). -/
def execJobTake (gate : Nat) (s : State) : Host.Outcome State Fault Refusal :=
  .next (
    if s.redRuns gate = false then s
    else
      match s.nextTake with
      | none => s
      | some idx =>
        let d := s.devLe (s.jobAddr idx) 128
        if s.anyGranule (s.jobAddr idx) 128 State.targetWaits || s.anyGranule (jSrc d) (jCount d * jFb d) State.targetWaits
        then s else (s.takeJob idx).drainCtl)

/-- RED_UP (R396, R401, R404, R405). -/
def execRedUp (pkt : Packet) (s : State) : Host.Outcome State Fault Refusal :=
  .next (match pkt.body with
    | .redUp b => (s.recvBlock pkt false b).drainCtl
    | _ => s)

/-- RED_DN (R401, R402, R404, R405). -/
def execRedDn (pkt : Packet) (s : State) : Host.Outcome State Fault Refusal :=
  .next (match pkt.body with
    | .redDn b => (s.recvBlock pkt true b).drainCtl
    | _ => s)

/-- Sum of squares of the window (R402). -/
def State.windowNorm (s : State) (d : Nat) : Nat :=
  let (w0, wn) := jWin d
  let fb := jFb d
  let bytes := s.bytes (s.key (s.localAddr (jDst d + w0 * fb))) (wn * fb)
  let l := (chunksOf fb wn bytes).map fun x => decodePlain ((jFmt d).getD .fp32) (leNat x)
  toFp32 (rowSum (l.map fun x => w36Mul x x))

/-- A reduction whose blocks are all final writes its shard records, its norm and its completion (R402). -/
def State.jobDone (s : State) (job : Nat) (j : RedJob) (d : Nat) : State :=
  let s1 := (List.range (jShardN d)).foldl (fun a i =>
    let r := a.shardAddr (jShard0 d + i)
    (a.devPut (r + 0x14) 4 (jTag d)).devPut (r + 0x18) 4 j.cnt) s
  let s2 := if jNorm d = 0xFFFF then s1
    else s1.devPut (s1.reg64 pSTP R.STP_NORM_BASE_LO + 4 * jNorm d) 4 (s1.windowNorm d)
  let s3 := s2.farTouch 99 (jDst d + (jWin d).1 * jFb d) ((jWin d).2 * jFb d)
  (s3.retireJob job d).drainCtl

/-- JOB_COMPLETE (R402): every block received or formed, every stretch sum sent or held. -/
def execJobComplete (job : Nat) (s : State) : Host.Outcome State Fault Refusal :=
  .next (match s.jobOf job with
    | none => s
    | some j =>
      let d := j.desc
      if s.gatsEn = false ∨ j.done = true ∨ j.stretchDone = false ∨
          ((List.range (jBlocks d)).all fun b => (j.blk b).final) = false then s
      else
        s.jobDone job j d)

/-- READY (R397, R399). -/
def execReady (pkt : Packet) (s : State) : Host.Outcome State Fault Refusal :=
  .next (match pkt.body with
    | .ready tag m t => if s.gatsEn then ((s.consumed pkt).takeReady tag m t).drainCtl else s
    | _ => s)

/-- DEADLINE (R399): MT has reached D. -/
def execDeadline (s : State) : Host.Outcome State Fault Refusal := .next (s.tryFix.tryVote)

/-- GO (R399, R401, R407). -/
def execGo (pkt : Packet) (s : State) : Host.Outcome State Fault Refusal :=
  .next (match pkt.body with
    | .go g =>
      if s.gatsEn = false then s
      else if g.stepTag ≠ s.openStep ∨ g.attempt ≠ s.attempt ∨ s.gate.go.isSome = true then s.consumed pkt
      else (((s.consumed pkt).applyGo g).countStretch).tryVote.drainCtl
    | _ => s)

/-- VOTE (R407, R410): a child's record. -/
def execVote (pkt : Packet) (s : State) : Host.Outcome State Fault Refusal :=
  .next (match pkt.body, s.ctlTree with
    | .vote r bad, some t =>
      if s.gatsEn = false then s
      else
        let s1 := s.consumed pkt
        (match t.childAt pkt.gate pkt.link with
         | some (c, _) =>
           if r.stepTag ≠ s.openStep ∨ r.attempt ≠ s.attempt ∨ (s.gate.kids.any fun e => e.1 == c) = true then s1
           else (s1.modGate fun g => { g with kids := g.kids ++ [(c, r)], mayKeep := g.mayKeep && !bad }).tryVote
         | none => s1)
    | _, _ => s)

/-- SQUASH_NOTICE (R291, R398, R411). -/
def execSquashNotice (pkt : Packet) (s : State) : Host.Outcome State Fault Refusal :=
  .next (match pkt.body with
    | .squash tag att =>
      if s.gatsEn = false then s
      else
        let s1 := s.consumed pkt
        if tag ≠ s.openStep ∨ att ≠ s.attempt then s1
        else
          let s2 := if s1.isCoord then (s1.modGate fun g => { g with v := s.mt }).showDeadline else s1
          let s3 := if s2.phase = phSquash then s2 else s2.modGate fun g => { g with squashFrom := some (pkt.gate, pkt.link) }
          (s3.cause vbRemote).drainCtl
    | _ => s)

end Sys2Proof.Machine
end

