-- ==== Sys2Proof/Machine/Crypto.lean ====
section
/-! DEFINITION. Machine/Crypto.lean: the standard functions that the security block uses (R470, R473): SHA-384, ECDSA
verification over P-384, and the AES-256 encryption of one block. -/
namespace Sys2Proof.Machine

/-! ### SHA-384 -/

/-- Big-endian value of a list of bytes. -/
def beNat (l : List Nat) : Nat := l.foldl (fun a b => a * 256 + b % 256) 0

/-- The n big-endian bytes of a value. -/
def beBytes (v n : Nat) : List Nat := (leBytes v n).reverse

def rotr64 (x n : Nat) : Nat := (x >>> n ||| x <<< (64 - n)) % 2 ^ 64

/-- The 80 round constants. -/
def shaK : List Nat :=
  [0x428A2F98D728AE22, 0x7137449123EF65CD, 0xB5C0FBCFEC4D3B2F, 0xE9B5DBA58189DBBC, 0x3956C25BF348B538,
   0x59F111F1B605D019, 0x923F82A4AF194F9B, 0xAB1C5ED5DA6D8118, 0xD807AA98A3030242, 0x12835B0145706FBE,
   0x243185BE4EE4B28C, 0x550C7DC3D5FFB4E2, 0x72BE5D74F27B896F, 0x80DEB1FE3B1696B1, 0x9BDC06A725C71235,
   0xC19BF174CF692694, 0xE49B69C19EF14AD2, 0xEFBE4786384F25E3, 0x0FC19DC68B8CD5B5, 0x240CA1CC77AC9C65] ++
  [0x2DE92C6F592B0275, 0x4A7484AA6EA6E483, 0x5CB0A9DCBD41FBD4, 0x76F988DA831153B5, 0x983E5152EE66DFAB,
   0xA831C66D2DB43210, 0xB00327C898FB213F, 0xBF597FC7BEEF0EE4, 0xC6E00BF33DA88FC2, 0xD5A79147930AA725,
   0x06CA6351E003826F, 0x142929670A0E6E70, 0x27B70A8546D22FFC, 0x2E1B21385C26C926, 0x4D2C6DFC5AC42AED,
   0x53380D139D95B3DF, 0x650A73548BAF63DE, 0x766A0ABB3C77B2A8, 0x81C2C92E47EDAEE6, 0x92722C851482353B] ++
  [0xA2BFE8A14CF10364, 0xA81A664BBC423001, 0xC24B8B70D0F89791, 0xC76C51A30654BE30, 0xD192E819D6EF5218,
   0xD69906245565A910, 0xF40E35855771202A, 0x106AA07032BBD1B8, 0x19A4C116B8D2D0C8, 0x1E376C085141AB53,
   0x2748774CDF8EEB99, 0x34B0BCB5E19B48A8, 0x391C0CB3C5C95A63, 0x4ED8AA4AE3418ACB, 0x5B9CCA4F7763E373,
   0x682E6FF3D6B2B8A3, 0x748F82EE5DEFB2FC, 0x78A5636F43172F60, 0x84C87814A1F0AB72, 0x8CC702081A6439EC] ++
  [0x90BEFFFA23631E28, 0xA4506CEBDE82BDE9, 0xBEF9A3F7B2C67915, 0xC67178F2E372532B, 0xCA273ECEEA26619C,
   0xD186B8C721C0C207, 0xEADA7DD6CDE0EB1E, 0xF57D4F7FEE6ED178, 0x06F067AA72176FBA, 0x0A637DC5A2C898A6,
   0x113F9804BEF90DAE, 0x1B710B35131C471B, 0x28DB77F523047D84, 0x32CAAB7B40C72493, 0x3C9EBE0A15C9BEBC,
   0x431D67C49C100D4C, 0x4CC5D4BECB3E42B6, 0x597F299CFC657E2A, 0x5FCB6FAB3AD6FAEC, 0x6C44198C4A475817]

/-- The initial value of SHA-384. -/
def shaInit : List Nat :=
  [0xCBBB9D5DC1059ED8, 0x629A292A367CD507, 0x9159015A3070DD17, 0x152FECD8F70E5939,
   0x67332667FFC00B31, 0x8EB44A8768581511, 0xDB0C2E0D64F98FA7, 0x47B5481DBEFA4FA4]

/-- The message schedule, newest word first. -/
def shaSchedule : Nat → List Nat → List Nat
  | 0, w => w
  | n + 1, w =>
    let a := nth 0 w 14
    let b := nth 0 w 1
    let s0 := rotr64 a 1 ^^^ rotr64 a 8 ^^^ (a >>> 7)
    let s1 := rotr64 b 19 ^^^ rotr64 b 61 ^^^ (b >>> 6)
    shaSchedule n ((nth 0 w 15 + s0 + nth 0 w 6 + s1) % 2 ^ 64 :: w)

/-- One round. -/
def shaRound (v : List Nat) (kw : Nat × Nat) : List Nat :=
  let a := nth 0 v 0
  let e := nth 0 v 4
  let g := nth 0 v 6
  let s1 := rotr64 e 14 ^^^ rotr64 e 18 ^^^ rotr64 e 41
  let ch := (e &&& nth 0 v 5) ^^^ ((e ^^^ (2 ^ 64 - 1)) &&& g)
  let t1 := nth 0 v 7 + s1 + ch + kw.1 + kw.2
  let s0 := rotr64 a 28 ^^^ rotr64 a 34 ^^^ rotr64 a 39
  let mj := (a &&& nth 0 v 1) ^^^ (a &&& nth 0 v 2) ^^^ (nth 0 v 1 &&& nth 0 v 2)
  [(t1 + s0 + mj) % 2 ^ 64, a, nth 0 v 1, nth 0 v 2, (nth 0 v 3 + t1) % 2 ^ 64, e, nth 0 v 5, g]

/-- One block of 128 bytes. -/
def shaBlock (h b : List Nat) : List Nat :=
  let w := (shaSchedule 64 (((List.range 16).map fun j => beNat ((b.drop (8 * j)).take 8)).reverse)).reverse
  let v := (shaK.zip w).foldl shaRound h
  (h.zip v).map fun p => (p.1 + p.2) % 2 ^ 64

/-- The SHA-384 digest of a list of bytes, 48 bytes. -/
def sha384 (m : List Nat) : List Nat :=
  let n := m.length
  let p := m ++ 0x80 :: (List.replicate ((239 - n % 128) % 128) 0 ++ beBytes (8 * n) 16)
  ((((chunksOf 128 p.length p).foldl shaBlock shaInit).take 6).map fun w => beBytes w 8).flatten

/-! ### P-384 -/

def p384 : Nat := 2 ^ 384 - 2 ^ 128 - 2 ^ 96 + 2 ^ 32 - 1
/-- The order of the base point. -/
def p384n : Nat := 0xFFFFFFFFFFFFFFFFFFFFFFFFFFFFFFFFFFFFFFFFFFFFFFFFC7634D81F4372DDF581A0DB248B0A77AECEC196ACCC52973
def p384b : Nat := 0xB3312FA7E23EE7E4988E056BE3F82D19181D9C6EFE8141120314088F5013875AC656398D8A2ED19D2A85C8EDD3EC2AEF
def p384g : Nat × Nat :=
  (0xAA87CA22BE8B05378EB1C71EF320AD746E1D3B628BA79B9859F741E082542A385502F25DBF55296C3A545E3872760AB7,
   0x3617DE4A96262C6F5D9E98BF9292DC29F8F41DBD289A147CE9DA3113B5F0B8C00A60B1CE1D7E819D7A431D7C90EA0E5F)

/-- b to the power e modulo m; fuel bounds the bits of e. -/
def powMod (m : Nat) : Nat → Nat → Nat → Nat
  | 0, _, _ => 1 % m
  | f + 1, b, e =>
    let r := powMod m f (b * b % m) (e / 2)
    if e % 2 = 1 then r * b % m else r

/-- The inverse modulo a prime. -/
def invMod (m a : Nat) : Nat := powMod m 400 (a % m) (m - 2)

/-- a − b modulo p. -/
def subP (a b : Nat) : Nat := (a % p384 + (p384 - b % p384)) % p384

/-- The sum of two points; none is the point at infinity. -/
def p384Add : Option (Nat × Nat) → Option (Nat × Nat) → Option (Nat × Nat)
  | none, q => q
  | some a, none => some a
  | some (x1, y1), some (x2, y2) =>
    if x1 = x2 ∧ (y1 + y2) % p384 = 0 then none
    else
      let l := if x1 = x2 then subP (3 * x1 * x1) 3 * invMod p384 (2 * y1) % p384
        else subP y2 y1 * invMod p384 (subP x2 x1) % p384
      let x := subP (subP (l * l) x1) x2
      some (x, subP (l * subP x1 x) y1)

/-- k times a point; fuel bounds the bits of k. -/
def p384Mul : Nat → Nat → Option (Nat × Nat) → Option (Nat × Nat)
  | 0, _, _ => none
  | f + 1, k, q =>
    let r := p384Mul f (k / 2) (p384Add q q)
    if k % 2 = 1 then p384Add q r else r

/-- A point of the curve. -/
def onP384 (x y : Nat) : Bool :=
  decide (x < p384) && decide (y < p384) && y * y % p384 == subP (x * x * x + p384b) (3 * x)

/-- ECDSA verification under FIPS 186-5 with SHA-384: public key as an uncompressed point of 97 bytes, signature r then s. -/
def ecdsaOk (pub sig msg : List Nat) : Bool :=
  let x := beNat ((pub.drop 1).take 48)
  let y := beNat ((pub.drop 49).take 48)
  let r := beNat (sig.take 48)
  let s := beNat ((sig.drop 48).take 48)
  let w := invMod p384n s
  let e := beNat (sha384 msg)
  nth 0 pub 0 == 4 && onP384 x y && decide (0 < r) && decide (r < p384n) && decide (0 < s) && decide (s < p384n) &&
  (match p384Add (p384Mul 384 (e * w % p384n) (some p384g)) (p384Mul 384 (r * w % p384n) (some (x, y))) with
   | some (px, _) => px % p384n == r
   | none => false)

/-! ### AES-256 -/

/-- The product with x in the field of AES. -/
def aesX (a : Nat) : Nat := if a < 128 then 2 * a else (2 * a) ^^^ 0x11B

/-- The product of two bytes; fuel bounds the bits of b. -/
def aesMul : Nat → Nat → Nat → Nat
  | 0, _, _ => 0
  | f + 1, a, b => (if b % 2 = 1 then a else 0) ^^^ aesMul f (aesX a) (b / 2)

/-- a to the power 254: its inverse, 0 for 0. -/
def aesInv (a : Nat) : Nat := (List.range 6).foldl (fun r _ => let t := aesMul 8 r r; aesMul 8 t a) a |> fun r => aesMul 8 r r

/-- The substitution of a byte. -/
def aesSub (a : Nat) : Nat :=
  let i := aesInv a
  let rot := fun n => (i <<< n ||| i >>> (8 - n)) % 256
  i ^^^ rot 1 ^^^ rot 2 ^^^ rot 3 ^^^ rot 4 ^^^ 0x63

/-- Bytes of two equal lists combined. -/
def xorList (a b : List Nat) : List Nat := (a.zip b).map fun p => p.1 ^^^ p.2

/-- The key schedule, words of four bytes, newest first; i is the next word's number. -/
def aesExpand : Nat → Nat → List (List Nat) → List (List Nat)
  | 0, _, w => w
  | n + 1, i, w =>
    let t := nth [] w 0
    let u := if i % 8 = 0 then
        xorList ((t.drop 1 ++ t.take 1).map aesSub) [2 ^ (i / 8 - 1), 0, 0, 0]
      else if i % 8 = 4 then t.map aesSub else t
    aesExpand n (i + 1) (xorList (nth [] w 7) u :: w)

/-- Row i of the state moves left by i. -/
def aesShift (s : List Nat) : List Nat := (List.range 16).map fun k => nth 0 s ((k + 4 * (k % 4)) % 16)

/-- One column mixed. -/
def aesMix (c : List Nat) : List Nat :=
  (List.range 4).map fun i =>
    aesMul 8 (nth 0 c i) 2 ^^^ aesMul 8 (nth 0 c ((i + 1) % 4)) 3 ^^^ nth 0 c ((i + 2) % 4) ^^^ nth 0 c ((i + 3) % 4)

/-- The AES-256 encryption of a 16-byte block under a 32-byte key. -/
def aes256 (key blk : List Nat) : List Nat :=
  let w := (aesExpand 52 8 (chunksOf 4 8 key).reverse).reverse
  let rk := fun r => ((w.drop (4 * r)).take 4).flatten
  let s := (List.range 13).foldl (fun s i =>
    xorList (((chunksOf 4 4 (aesShift (s.map aesSub))).map aesMix).flatten) (rk (i + 1))) (xorList blk (rk 0))
  xorList (aesShift (s.map aesSub)) (rk 14)

end Sys2Proof.Machine
end

