-- ==== Sys2Proof/Machine/Check.lean ====
section
/-! DEFINITION. Machine/Check.lean: the check units (R523 to R531): claims, register feeds, the running value. A feed is taken
at once, so the feed queue of R526 is empty between commands. -/
namespace Sys2Proof.Machine

def State.chkUnit (s : State) (u : Nat) : ChkUnit := sget {} s.chk u
def State.setChkUnit (s : State) (u : Nat) (c : ChkUnit) : State := { s with chk := sset {} s.chk u c }

/-- A crossing grant holds the unit (CHK_STS.BUSY). -/
def State.chkBusy (s : State) (u : Nat) : Bool := (s.crs 43).grants.any fun g => g.1 == u

/-- The unit is claimed (CHK_STS.CLAIMED): its claim bit is set and no grant remains (R525). -/
def State.chkClaimed (s : State) (u : Nat) : Bool := bit (s.reg (pCHK u) R.CHK_CTL) 0 && !s.chkBusy u

/-- The settings of a unit. -/
def State.chkCfg (s : State) (u : Nat) : CrcCfg :=
  let p := pCHK u
  let c := s.reg p R.CHK_CFG
  ⟨c % 64 + 1, s.reg64 p R.CHK_POLY_LO, s.reg64 p R.CHK_INIT_LO, bit c 6, bit c 7, s.reg64 p R.CHK_XOROUT_LO⟩

/-- The running value. -/
def State.chkValue (s : State) (u : Nat) : Nat := s.reg64 (pCHK u) R.CHK_VALUE_LO

def State.setChkValue (s : State) (u v : Nat) : State :=
  (s.setReg (pCHK u) R.CHK_VALUE_LO v).setReg (pCHK u) R.CHK_VALUE_HI (v / 2 ^ 32)

/-- Bytes fed to a unit, counted (R523, R526). -/
def State.chkFeed (s : State) (u : Nat) (l : List Nat) : State :=
  (s.setChkValue u ((s.chkCfg u).feed (s.chkValue u) l)).bump (pCHK u) R.CHK_BYTES l.length

/-- A write that R524 forbids during a grant. -/
def State.chkGuard (s : State) (u : Nat) (f : State → State) : State :=
  if s.chkBusy u then s.orReg (pCHK u) R.CHK_FLAGS 2 else f s

/-- A write of CHK_CTL (R523 to R525). -/
def chkCtlWrite (u v : Nat) (s : State) : State :=
  let s1 := s.setReg (pCHK u) R.CHK_CTL (v % 2)
  if bit v 1 then s1.chkGuard u fun t => t.setChkValue u (t.chkCfg u).start else s1

/-- A write of a setting register (R524). -/
def chkSetWrite (u off v : Nat) (s : State) : State :=
  s.chkGuard u fun t => t.setReg (pCHK u) off (if off = R.CHK_CFG then v % 256 else v)

/-- A write of CHK_VALUE_LO waits for the HI write (R529). -/
def chkValueLoWrite (u v : Nat) (s : State) : State :=
  s.chkGuard u fun t => t.setChkUnit u { t.chkUnit u with heldLo := v % 2 ^ 32 }

/-- A write of CHK_VALUE_HI loads the running value from both words (R529). -/
def chkValueHiWrite (u v : Nat) (s : State) : State :=
  s.chkGuard u fun t => t.setChkValue u ((t.chkUnit u).heldLo + v % 2 ^ 32 * 2 ^ 32)

/-- A feed write of n bytes (R525, R526). -/
def chkFeedWrite (u n v : Nat) (s : State) : State :=
  if s.chkClaimed u then s.chkFeed u (leBytes v n) else s.orReg (pCHK u) R.CHK_FLAGS 1

/-- A read of CHK_VALUE_LO latches the HI half (R529). -/
def chkValueLoRead (u : Nat) (s : State) : State :=
  let v := s.chkValue u
  (s.setChkUnit u { s.chkUnit u with latValue := v / 2 ^ 32 }).reply [v % 2 ^ 32]

/-- A read of CHK_RESULT_LO latches the HI half (R531). -/
def chkResultLoRead (u : Nat) (s : State) : State :=
  let r := (s.chkCfg u).result (s.chkValue u)
  (s.setChkUnit u { s.chkUnit u with latResult := r / 2 ^ 32 }).reply [r % 2 ^ 32]

/-- A command that writes a register of a unit. -/
def State.chkWrite (s : State) (src : Src) (u off : Nat) (f : State → State) : State :=
  if u < 16 then s.onWrite src (pCHK u) off f else s

/-- CLAIM (R525). -/
def execClaim (src : Src) (unit : Nat) (claim : Bool) (s : State) : Host.Outcome State Fault Refusal :=
  .next (s.chkWrite src unit R.CHK_CTL (chkCtlWrite unit (b2n claim)))

/-- CHK_RESET (R523). -/
def execChkReset (src : Src) (unit : Nat) (s : State) : Host.Outcome State Fault Refusal :=
  .next (s.chkWrite src unit R.CHK_CTL fun t => chkCtlWrite unit (t.reg (pCHK unit) R.CHK_CTL % 2 + 2) t)

/-- FEED8 (R526). -/
def execFeed8 (src : Src) (unit value : Nat) (s : State) : Host.Outcome State Fault Refusal :=
  .next (s.chkWrite src unit R.CHK_FEED8 (chkFeedWrite unit 1 value))

/-- FEED16 (R526). -/
def execFeed16 (src : Src) (unit value : Nat) (s : State) : Host.Outcome State Fault Refusal :=
  .next (s.chkWrite src unit R.CHK_FEED16 (chkFeedWrite unit 2 value))

/-- FEED32 (R526). -/
def execFeed32 (src : Src) (unit value : Nat) (s : State) : Host.Outcome State Fault Refusal :=
  .next (s.chkWrite src unit R.CHK_FEED32 (chkFeedWrite unit 4 value))

/-- VALUE_HI_WRITE (R529). -/
def execValueHiWrite (src : Src) (unit value : Nat) (s : State) : Host.Outcome State Fault Refusal :=
  .next (s.chkWrite src unit R.CHK_VALUE_HI (chkValueHiWrite unit value))

/-- CHK_VALUE_LO_READ (R529). -/
def execChkValueLoRead (src : Src) (unit : Nat) (s : State) : Host.Outcome State Fault Refusal :=
  .next (if unit < 16 then s.onRead src (pCHK unit) R.CHK_VALUE_LO (chkValueLoRead unit) else s)

/-- CHK_RESULT_LO_READ (R531). -/
def execChkResultLoRead (src : Src) (unit : Nat) (s : State) : Host.Outcome State Fault Refusal :=
  .next (if unit < 16 then s.onRead src (pCHK unit) R.CHK_RESULT_LO (chkResultLoRead unit) else s)

end Sys2Proof.Machine
end

