-- ==== Sys2Proof/Machine/Media.lean ====
section
/-! DEFINITION. Machine/Media.lean: what ingest computes from a slot record and a decoded part (R337, R345, R352 to R358):
slot checks, plausibility, augmentation, media rows, audio, and the tokenizer. -/
namespace Sys2Proof.Machine

/-! ### Codecs and slot records (R334, R337) -/

/-- The slot kind of a codec (R334). -/
def codecKind : Nat → Option Nat
  | 0x00 => some 1 | 0x01 => some 2 | 0x10 => some 3 | 0x11 => some 3
  | 0x20 => some 4 | 0x21 => some 4 | 0x22 => some 4 | 0x30 => some 5 | 0x31 => some 5 | 0x32 => some 5
  | _ => none

/-- The core pool of a slot kind: 0 image, 1 video, 2 audio; none for text (R343). -/
def kindPool (kind : Nat) : Option Nat := if 3 ≤ kind ∧ kind ≤ 5 then some (kind - 3) else none

def slKind (k : Nat) : Nat := df k 0 7 0
def slFmt (k : Nat) : Option Fmt := Fmt.ofCode (df k 1 7 0)
def slBos (k : Nat) : Bool := bit k 16
def slEos (k : Nat) : Bool := bit k 17
def slAug (k : Nat) : Bool := bit k 18
def slToken (k : Nat) : Nat := df k 4 31 0
def slMaxPos (k : Nat) : Nat := df k 8 31 0
def slW (k : Nat) : Nat := df k 0x10 15 0
def slH (k : Nat) : Nat := df k 0x12 15 0
def slPatch (k : Nat) : Nat := df k 0x14 7 0
def slTube (k : Nat) : Nat := df k 0x15 7 0
def slFit (k : Nat) : Bool := df k 0x16 0 0 == 1
def slFilter (k : Nat) : Nat := df k 0x16 2 1
def slRot (k : Nat) : Nat := if df k 0x17 3 0 = 0 then 1 else df k 0x17 3 0
def slF (k off : Nat) : Fp := fp32 (df k off 31 0)
def slFrames (k : Nat) : Nat := if slKind k = 4 then df k 0x48 15 0 else 1
def slRate (k : Nat) : Nat := df k 0x10 31 0
def slMel (k : Nat) : Bool := df k 0x15 7 0 == 1
def slHop (k : Nat) : Nat := df k 0x16 15 0
def slWin (k : Nat) : Nat := df k 0x18 15 0
def slNfft (k : Nat) : Nat := df k 0x1A 15 0
def slBins (k : Nat) : Nat := df k 0x1C 15 0
def slMaxMs (k : Nat) : Nat := df k 0x2C 31 0
def slDict (k : Nat) : Nat := df k 0x10 1 0

/-- Bytes lo to hi − 1 of a record are zero. -/
def zeroBytes (k lo hi : Nat) : Bool := k >>> (8 * lo) % 2 ^ (8 * (hi - lo)) == 0

/-- A finite FP32 field in a range of integers. -/
def inRange (x : Fp) (lo hi : Nat) : Bool := x.isFin && !x.lt (.ofNat lo) && !(Fp.ofNat hi).lt x

/-- A slot record breaks none of the ranges of R337. -/
def slotOk (k : Nat) : Bool :=
  let fmtOk := match slFmt k with
    | some .fp32 | some .bf16 | some .fp16 => true
    | some .uint8 => slKind k == 3 || slKind k == 4
    | _ => false
  let head := df k 2 7 3 == 0 && zeroBytes k 3 4 && zeroBytes k 0x0C 0x10
  let p := slPatch k
  head &&
  match slKind k with
  | 1 => zeroBytes k 0x10 128
  | 2 => df k 0x10 7 2 == 0 && zeroBytes k 0x11 0x14 && zeroBytes k 0x20 128
  | 3 | 4 =>
    fmtOk && [8, 14, 16, 32].contains p && slW k % p == 0 && slH k % p == 0 && slW k != 0 && slH k != 0 &&
    decide (slW k ≤ 4096) && decide (slH k ≤ 4096) &&
    (if slKind k = 3 then slTube k == 1 && zeroBytes k 0x48 128
     else [1, 2, 4].contains (slTube k) && decide (1 ≤ slFrames k) && decide (slFrames k ≤ 1024) &&
       slFrames k % slTube k == 0 && decide (1 ≤ df k 0x4A 15 0) && decide (df k 0x4A 15 0 ≤ 64) && zeroBytes k 0x4C 128) &&
    df k 0x16 7 3 == 0 && decide (slFilter k ≤ 2) && df k 0x17 7 4 == 0 && inRange (slF k 0x18) 0 45 && zeroBytes k 0x1E 0x20
  | 5 =>
    fmtOk && decide (8000 ≤ slRate k) && decide (slRate k ≤ 48000) && decide (df k 0x14 7 0 ≤ 1) &&
    decide (df k 0x15 7 0 ≤ 1) && decide (1 ≤ slHop k) && decide (slHop k ≤ 4096) && decide (slWin k ≤ slNfft k) &&
    [256, 512, 1024, 2048, 4096].contains (slNfft k) && decide (1 ≤ slBins k) && decide (slBins k ≤ 256) &&
    zeroBytes k 0x1E 0x20 && zeroBytes k 0x30 128
  | _ => false

/-- Elements of one media row. -/
def rowElems (k : Nat) : Nat :=
  if slKind k = 5 then (if slMel k then slBins k else slHop k) else slPatch k * slPatch k * 3 * slTube k

/-- Bytes of one media row. -/
def rowBytesOf (k : Nat) : Nat := rowElems k * (match slFmt k with
  | some f => f.width / 8
  | none => 0)

/-! ### Headers and plausibility (R345) -/

/-- What a media part's headers declare. -/
structure MediaHeader where
  ok : Bool
  w : Nat
  h : Nat
  channels : Nat
  total : Nat
  rate : Nat
  early : Bool
  deriving DecidableEq, Repr

def mediaHeader (codec : Nat) (data : List Nat) : MediaHeader :=
  let l := Sys2Proof.Config.mediaHeader codec data
  ⟨l.getD 0 0 % 2 == 1, l.getD 1 0, l.getD 2 0, l.getD 3 0, l.getD 4 0, l.getD 5 0, l.getD 6 0 % 2 == 1⟩

/-- The codec's limits of width and height (R346, R347). -/
def codecLimit (codec : Nat) : Nat × Nat := if codec / 16 = 1 then (16384, 16384) else (8192, 4320)

/-- The declared output is larger than RATIO allows. -/
def ratioBad (limit bytes declared : Nat) : Bool :=
  limit % 2 ^ 16 != 0 && decide (limit % 2 ^ 16 * bytes < declared)

/-- The headers of a part fail the plausibility checks before it requests a core (R345). -/
def implausible (limit codec bytes frames : Nat) (h : MediaHeader) : Bool :=
  if codec / 16 = 3 then h.early && ratioBad limit bytes (h.channels * h.total)
  else
    let m := if limit / 2 ^ 16 % 2 ^ 16 = 0 then 16384 else limit / 2 ^ 16 % 2 ^ 16
    let (lw, lh) := codecLimit codec
    h.w == 0 || h.h == 0 || decide (min m lw < h.w) || decide (min m lh < h.h) ||
    ratioBad limit bytes (h.w * h.h * (if codec / 16 = 2 then frames else 1))

/-- Work area bytes that a decoded part needs (R350). -/
def workBytes (codec w h depth channels samples : Nat) : Nat :=
  if codec / 16 = 1 then 4 * w * h
  else if codec / 16 = 2 then (if depth = 8 then 24 else 48) * w * h
  else 4 * channels * samples

/-! ### Augmentation (R352, R353) -/

/-- An integer rounded to nearest, ties to even, and one rounded down. -/
def rneInt : Fp → Int
  | .fin s m e => let n : Int := roundQ .rne m 1 e 0; if s then -n else n
  | _ => 0
def floorNat : Fp → Nat
  | .fin false m e => roundQ .rtz m 1 e 0
  | _ => 0

def clampInt (v : Int) (lo hi : Nat) : Nat := if v < lo then lo else if (hi : Int) < v then hi else v.toNat

/-- What is applied to a part. -/
structure Aug where
  cw : Nat
  ch : Nat
  x0 : Nat
  y0 : Nat
  fh : Bool
  fv : Bool
  q : Nat
  theta : Fp
  deriving DecidableEq, Repr

/-- The draw u_d of a part (R352). -/
def augDraw (seed id epoch part d : Nat) : Fp :=
  let o := philoxN 10 (id % 2 ^ 32, bits id 63 32, epoch % 2 ^ 32, 0xA0000000 + part * 2 ^ 16 + d) (seed % 2 ^ 32) (bits seed 63 32)
  .fin false (o.1 >>> 8) (-24)

/-- The k-th set bit of a 4-bit mask. -/
def nthBit (m k : Nat) : Nat := ((List.range 4).filter (bit m ·)).getD k 0

/-- A part's augmentation, drawn or off (R352). -/
def augment (k seed id epoch part w h : Nat) (on : Bool) : Aug :=
  if on = false then ⟨w, h, 0, 0, false, false, nthBit (slRot k) 0, Fp.zero⟩
  else
    let u := augDraw seed id epoch part
    let amin := slF k 0x20
    let a := f32Add amin (f32Mul (u 0) (f32Sub (slF k 0x24) amin))
    let lmin := slF k 0x28
    let e := f32Add lmin (f32Mul (u 1) (f32Sub (slF k 0x2C) lmin))
    let r := fp32 (unitExp false (toFp32 e))
    let awh := f32Mul (f32Mul a (.ofNat w)) (.ofNat h)
    let cw := clampInt (rneInt (f32Sqrt (f32Mul awh r))) 1 w
    let ch := clampInt (rneInt (f32Sqrt (f32Div awh r))) 1 h
    let rot := slRot k
    let n := ((List.range 4).filter (bit rot ·)).length
    { cw := cw, ch := ch, x0 := floorNat (f32Mul (u 2) (.ofNat (w - cw + 1))), y0 := floorNat (f32Mul (u 3) (.ofNat (h - ch + 1))),
      fh := (u 4).lt (.fin false (df k 0x1C 7 0) (-8)), fv := (u 5).lt (.fin false (df k 0x1D 7 0) (-8)),
      q := nthBit rot (floorNat (f32Mul (u 6) (.ofNat n))),
      theta := f32Mul (f32Sub (f32Mul (.ofNat 2) (u 7)) Fp.one) (slF k 0x18) }

/-- Width and height of the turned crop. -/
def Aug.turned (a : Aug) : Nat × Nat := if a.q % 2 = 1 then (a.ch, a.cw) else (a.cw, a.ch)

/-- The output size (R353). -/
def outSize (k : Nat) (a : Aug) : Nat × Nat :=
  if slFit k = false then (slW k, slH k)
  else
    let (w, h) := a.turned
    let p := slPatch k
    let down := fun v => max p (v / p * p)
    if slW k * h ≤ slH k * w then (down (slW k), down (slW k * h / w)) else (down (slH k * w / h), down (slH k))

/-- Media rows of an image or video part (R354). -/
def visualRows (k : Nat) (a : Aug) : Nat :=
  let (w, h) := outSize k a
  (h / slPatch k) * (w / slPatch k) * (slFrames k / slTube k)

/-! ### Pixels and media rows (R353, R354) -/

/-- Channel c of a source pixel as x in [0, 1] (R354). -/
def frameValue (f : MediaFrame) (x y c : Nat) : Fp :=
  let k := if f.ch < 3 then 0 else c
  let v := f.px.getD ((y * f.w + x) * f.ch + k) 0
  if f.depth = 8 then f32Div (.ofNat v) (.ofNat 255)
  else if f.depth = 16 then f32Div (.ofNat v) (.ofNat 65535)
  else fp32 v

/-- Where a pixel of the flipped and turned crop comes from. -/
def Aug.source (a : Aug) (x y : Nat) : Nat × Nat :=
  let (w, h) := a.turned
  let tx := if a.fh then w - 1 - x else x
  let ty := if a.fv then h - 1 - y else y
  let (cx, cy) := match a.q with
    | 0 => (tx, ty)
    | 1 => (ty, a.ch - 1 - tx)
    | 2 => (a.cw - 1 - tx, a.ch - 1 - ty)
    | _ => (a.cw - 1 - ty, tx)
  (a.x0 + cx, a.y0 + cy)

/-- The value x of an output pixel, none outside the source (R353). -/
def outPixel (k : Nat) (a : Aug) (f : MediaFrame) (x y c : Nat) : Option Fp :=
  let (w, h) := outSize k a
  if (w, h) = a.turned ∧ a.theta.isZero = true then
    let (sx, sy) := a.source x y
    some (frameValue f sx sy c)
  else
    let ps := [slFilter k, toFp32 a.theta, a.q, b2n a.fh, b2n a.fv, a.x0, a.y0, a.cw, a.ch, w, h, x, y, c]
    if !a.theta.isZero && Sys2Proof.Config.turnedOutside ps then none
    else some (fp32 (Sys2Proof.Config.resample ps ([f.w, f.h, f.ch, f.depth] ++ f.px)))

/-- A value in the slot's format, as little-endian bytes. -/
def mediaCode (k : Nat) (c : Nat) (v : Option Fp) : List Nat :=
  match slFmt k, v with
  | some .uint8, some x => [clampInt (rneInt (f32Mul (.ofNat 255) x)) 0 255]
  | some .uint8, none => [0]
  | some f, some x =>
    leBytes (encodePlain f .rne (f32Mul (f32Sub x (slF k (0x30 + 4 * c))) (slF k (0x3C + 4 * c)))).1 (f.width / 8)
  | some f, none => List.replicate (f.width / 8) 0
  | none, _ => []

/-- One media row: the patch at column px, row py of a tubelet's frames. -/
def patchRow (k : Nat) (a : Aug) (fs : List MediaFrame) (px py : Nat) : List Nat :=
  let p := slPatch k
  fs.flatMap fun f => (List.range p).flatMap fun y => (List.range p).flatMap fun x => (List.range 3).flatMap fun c =>
    mediaCode k c (outPixel k a f (px * p + x) (py * p + y) c)

/-- The media rows of one band: a row of patches of one tubelet (R355). -/
def bandRows (k : Nat) (a : Aug) (fs : List MediaFrame) (py : Nat) : List (List Nat) :=
  (List.range ((outSize k a).1 / slPatch k)).map fun px => patchRow k a fs px py

/-- Bands of a tubelet. -/
def bandsPerTube (k : Nat) (a : Aug) : Nat := (outSize k a).2 / slPatch k

/-- Every media row of an image. -/
def imageRows (k : Nat) (a : Aug) (f : MediaFrame) : List (List Nat) :=
  (List.range (bandsPerTube k a)).flatMap fun py => bandRows k a [f] py

/-! ### Sound (R356) -/

/-- Samples of a part after the conversion, the dropped head and the cut: the number, and whether a cut was made. -/
def audioKept (k aux n : Nat) : Nat × Bool :=
  let m := n - aux * slRate k / 1000
  let mx := slMaxMs k * slRate k / 1000
  if slMaxMs k ≠ 0 ∧ mx < m then (mx, true) else (m, false)

/-- Media rows that S samples give. -/
def audioRows (k s : Nat) : Nat :=
  if slMel k then 1 + (s - slWin k + slHop k - 1) / max 1 (slHop k) else (s + slHop k - 1) / max 1 (slHop k)

/-- One sample scaled to [−1, 1) (R356). -/
def pcmScale (bits v : Nat) : Fp :=
  let i := sext v bits
  .fin (decide (i < 0)) i.natAbs (1 - (bits : Int))

/-- The samples of a part reduced to one channel. -/
def pcmMono (k : Nat) (r : DecodeResult) : List Fp :=
  let n := max 1 r.channels
  (chunksOf n r.pcm.length r.pcm).map fun c =>
    let l := c.map (pcmScale r.bits)
    if df k 0x14 7 0 = 1 then l.headD Fp.zero else f32Div (l.foldl f32Add Fp.zero) (.ofNat n)

/-- FP32 samples after every step of R356. -/
def audioSamples (k aux : Nat) (r : DecodeResult) : List Nat :=
  let l := Sys2Proof.Config.rateConvert r.rate (slRate k) ((pcmMono k r).map (encodeFp fFP32))
  (l.drop (aux * slRate k / 1000)).take (audioKept k aux l.length).1

/-- Samples i to i + n − 1, +0 beyond the end. -/
def sampleRun (l : List Nat) (i n : Nat) : List Nat := (List.range n).map fun j => l.getD (i + j) 0

/-- The media rows of a sound part. `bank` holds each bin's START, COUNT and weights. -/
def audioMediaRows (k : Nat) (l : List Nat) (bank : List (Nat × Nat × List Nat)) : List (List Nat) :=
  let code := fun (x : Fp) => match slFmt k with
    | some f => leBytes (encodePlain f .rne x).1 (f.width / 8)
    | none => []
  (List.range (audioRows k l.length)).map fun i =>
    if slMel k then
      let frame := sampleRun l (i * slHop k) (slWin k)
      bank.flatMap fun b =>
        let sum := fp32 (Sys2Proof.Config.melSum ([slNfft k, slWin k, b.1, b.2.1] ++ b.2.2) frame)
        code (fp32 (unitLog (toFp32 (fpMax sum (slF k 0x28)))))
    else (sampleRun l (i * slHop k) (slHop k)).flatMap fun v => code (fp32 v)

/-! ### Tokenizer (R357, R358) -/

/-- A dictionary image read through a function from byte offset and size to a value. -/
structure DictView where
  rd : Nat → Nat → Nat
  nodes : Nat
  depth : Nat

def DictView.token (d : DictView) (n : Nat) : Nat := d.rd (0x40 + 16 * n) 4

/-- The child of a node by a byte. -/
def DictView.child (d : DictView) (n b : Nat) : Option Nat :=
  let first := d.rd (0x40 + 16 * n + 4) 4
  let cnt := d.rd (0x40 + 16 * n + 8) 2
  let e := fun i => 0x40 + 16 * d.nodes + 8 * (first + i)
  ((List.range cnt).find? fun i => d.rd (e i) 1 == b).map fun i => d.rd (e i + 4) 4

/-- The longest match from a node: best token and its length (fuel bounds the depth). -/
def DictView.walk (d : DictView) : Nat → Nat → Nat → List Nat → Option (Nat × Nat) → Option (Nat × Nat)
  | 0, _, _, _, best => best
  | _, _, _, [], best => best
  | f + 1, node, n, b :: r, best =>
    match d.child node b with
    | none => best
    | some c =>
      let t := d.token c
      d.walk f c (n + 1) r (if t < 2 ^ 31 then some (t, n + 1) else best)

/-- What the tokenizer produced. -/
structure TokOut where
  tokens : List Nat
  used : Nat
  fallback : Nat
  deriving DecidableEq, Repr

/-- The loop of R358 (fuel bounds the bytes); `room` is none without a limit. -/
def DictView.run (d : DictView) (byteBase : Nat) : Nat → List Nat → Option Nat → TokOut → TokOut
  | 0, _, _, o => o
  | _, [], _, o => o
  | f + 1, b :: r, room, o =>
    if (match room with
      | some n => decide (n ≤ o.tokens.length)
      | none => false) then o
    else match d.walk d.depth 0 0 (b :: r) none with
      | none => d.run byteBase f r room { o with tokens := o.tokens ++ [(byteBase + b) % 2 ^ 32], used := o.used + 1, fallback := o.fallback + 1 }
      | some (t, n) => d.run byteBase f ((b :: r).drop n) room { o with tokens := o.tokens ++ [t], used := o.used + n }

/-- A TEXT part tokenized (R358): the result, and whether it was truncated. -/
def tokenize (k : Nat) (d : DictView) (s : List Nat) : TokOut × Bool :=
  let room := if slMaxPos k = 0 then none else some (slMaxPos k - b2n (slEos k))
  let o := d.run (df k 0x1C 31 0) s.length s room ⟨if slBos k then [df k 0x14 31 0] else [], 0, 0⟩
  ({ o with tokens := if slEos k then o.tokens ++ [df k 0x18 31 0] else o.tokens }, decide (o.used < s.length))

/-- A continuation byte of UTF-8. -/
def utf8Cont (b : Nat) : Bool := b / 64 == 2

/-- The UTF-8 rules of RFC 3629 (fuel bounds the bytes). -/
def utf8Ok : Nat → List Nat → Bool
  | _, [] => true
  | 0, _ => false
  | f + 1, b :: r =>
    if b < 0x80 then utf8Ok f r
    else match r with
      | [] => false
      | c :: r2 =>
        if 0xC2 ≤ b ∧ b ≤ 0xDF then utf8Cont c && utf8Ok f r2
        else match r2 with
          | [] => false
          | d :: r3 =>
            if 0xE0 ≤ b ∧ b ≤ 0xEF then
              (if b = 0xE0 then decide (0xA0 ≤ c) else if b = 0xED then decide (c ≤ 0x9F) else true) &&
              utf8Cont c && utf8Cont d && utf8Ok f r3
            else match r3 with
              | [] => false
              | e :: r4 =>
                decide (0xF0 ≤ b) && decide (b ≤ 0xF4) &&
                (if b = 0xF0 then decide (0x90 ≤ c) else if b = 0xF4 then decide (c ≤ 0x8F) else true) &&
                utf8Cont c && utf8Cont d && utf8Cont e && utf8Ok f r4

end Sys2Proof.Machine
end

