-- ==== Sys2Proof/Machine/Ingest.lean ====
section
/-! DEFINITION. Machine/Ingest.lean: sample streams (R331 to R351), the tokenizer's queue (R357, R358), batch assembly (R359 to
R364), and what the step controller does to them (R339 to R341). -/
namespace Sys2Proof.Machine

/-! ### Streams -/

def State.str (s : State) (k : Nat) : Stream := sget {} s.streams k
def State.setStr (s : State) (k : Nat) (x : Stream) : State := { s with streams := sset {} s.streams k x }
def State.modStr (s : State) (k : Nat) (f : Stream → Stream) : State := s.setStr k (f (s.str k))

/-- A register of a stream's page. -/
def State.sreg (s : State) (k off : Nat) : Nat := s.reg (pINGS k) off

/-- Ingest runs, and the stream's page with it (R370). -/
def State.ingRuns (s : State) (k : Nat) : Bool := s.blockRuns pING && bit (s.reg pING R.ING_CTL) 0 && s.blockRuns (pINGS k)
def State.chkEn (s : State) : Bool := bit (s.reg pING R.ING_CTL) 1
def State.strEn (s : State) (k : Nat) : Bool := bit (s.sreg k R.ING_STR_CTL) 0

/-- Units of a ring, and the address of a position (R332). -/
def State.ringUnits (s : State) (k : Nat) : Nat := 2 ^ (s.sreg k R.ING_STR_RING_SIZE % 64 - 6)
def State.unitAddr (s : State) (k p : Nat) : Nat := s.reg64 (pINGS k) R.ING_STR_RING_BASE_LO + 64 * (p % s.ringUnits k)

/-- RING_LOOKAHEAD (R338, R371). -/
def State.lookahead (s : State) (k : Nat) : Nat := max 1 (s.sreg k R.ING_STR_LOOKAHEAD % 2 ^ 13)

/-- Unplaced samples: pending and in no batch (R338). -/
def Stream.unplaced (x : Stream) : Nat := (x.samples.filter fun m => m.ledger && m.batch.isNone).length

def State.atLimit (s : State) (k : Nat) : Bool := decide (s.lookahead k ≤ (s.str k).unplaced)

/-- The ring breaks no rule of R331. -/
def State.ringOk (s : State) (k : Nat) : Bool :=
  let lg := s.sreg k R.ING_STR_RING_SIZE % 64
  let a := s.reg64 (pINGS k) R.ING_STR_RING_BASE_LO
  decide (16 ≤ lg) && decide (lg ≤ 36) && a % 2 ^ lg == 0 && decide (farBase ≤ a) && decide (a + 2 ^ lg ≤ reserveBase)

/-- A write of ING_STR_CTL (R331, R371). -/
def strCtlWrite (k v : Nat) (s : State) : State :=
  let old := s.strEn k
  let s1 := s.setReg (pINGS k) R.ING_STR_CTL (v % 8)
  if bit v 0 = false then s1.setFld (pINGS k) R.ING_STR_STS 0 0 0
  else if old = false ∧ s.ringOk k = false then
    (s1.setReg (pINGS k) R.ING_STR_CTL (v % 8 - 1)).raise (pINGS k) 7 (s.sreg k R.ING_STR_CURSOR) (s.sreg k R.ING_STR_HEAD)
  else s1

/-- STREAM_ENABLE (R331). -/
def execStreamEnable (src : Src) (stream value : Nat) (s : State) : Host.Outcome State Fault Refusal :=
  .next (if stream < 256 then s.onWrite src (pINGS stream) R.ING_STR_CTL (strCtlWrite stream value) else s)

/-- A write of ING_STR_TAIL (R332). -/
def strTailWrite (k v : Nat) (s : State) : State :=
  let v' := v % 2 ^ 32
  let h := s.sreg k R.ING_STR_HEAD
  let d := (v' + 2 ^ 32 - h) % 2 ^ 32
  if s.ringUnits k < d ∨ d < (s.sreg k R.ING_STR_TAIL + 2 ^ 32 - h) % 2 ^ 32 then s.raise (pINGS k) 8 v' h
  else (s.setReg (pINGS k) R.ING_STR_TAIL v').modStr k fun x => { x with dryAt := none }

/-- ING_STR_TAIL_WRITE (R332). -/
def execIngStrTailWrite (src : Src) (stream value : Nat) (s : State) : Host.Outcome State Fault Refusal :=
  .next (if stream < 256 then s.onWrite src (pINGS stream) R.ING_STR_TAIL (strTailWrite stream value) else s)

/-- A write of ING_STR_CURSOR (R371). -/
def strCursorWrite (k v : Nat) (s : State) : State :=
  if s.strEn k = false ∧ (s.str k).pending = 0 then
    (s.setReg (pINGS k) R.ING_STR_CURSOR v).setReg (pINGS k) R.ING_STR_HEAD v
  else s

/-- CURSOR_WRITE (R371). -/
def execCursorWrite (src : Src) (stream value : Nat) (s : State) : Host.Outcome State Fault Refusal :=
  .next (if stream < 256 then s.onWrite src (pINGS stream) R.ING_STR_CURSOR (strCursorWrite stream value) else s)

/-- A write of ING_STR_REQ_TAIL (R360): the producer rules of R85 and R86 over 64 entries. -/
def strReqTailWrite (k v : Nat) (s : State) : State :=
  let v' := v % 2 ^ 16
  if tailOk 64 (s.sreg k R.ING_STR_REQ_HEAD % 2 ^ 16) (s.sreg k R.ING_STR_REQ_TAIL % 2 ^ 16) v' then
    s.setReg (pINGS k) R.ING_STR_REQ_TAIL v'
  else s

/-- ING_STR_REQ_TAIL_WRITE (R360). -/
def execIngStrReqTailWrite (src : Src) (stream value : Nat) (s : State) : Host.Outcome State Fault Refusal :=
  .next (if stream < 256 then s.onWrite src (pINGS stream) R.ING_STR_REQ_TAIL (strReqTailWrite stream value) else s)

/-- A read of ING_STR_TAKEN_LO latches the twelve halves (R342). -/
def ledgerLatch (k : Nat) (s : State) : State :=
  let x := s.str k
  let s1 := ([x.taken, x.used, x.replaced, x.skipped, x.rewound, x.pending].zipIdx).foldl (fun a p =>
    (a.setReg (pINGS k) (R.ING_STR_TAKEN_LO + 8 * p.2) p.1).setReg (pINGS k) (R.ING_STR_TAKEN_HI + 8 * p.2) (p.1 / 2 ^ 32)) s
  s1.reply [x.taken % 2 ^ 32]

/-- LEDGER_LATCH_READ (R342). -/
def execLedgerLatchRead (src : Src) (stream : Nat) (s : State) : Host.Outcome State Fault Refusal :=
  .next (if stream < 256 then s.onRead src (pINGS stream) R.ING_STR_TAKEN_LO (ledgerLatch stream) else s)

/-! ### Samples -/

/-- The samples of a stream changed where a handle matches. -/
def State.modSample (s : State) (k handle : Nat) (f : Sample → Sample) : State :=
  s.modStr k fun x => { x with samples := x.samples.map fun m => if m.handle = handle then f m else m }

def State.sampleBy (s : State) (k handle : Nat) : Option Sample := (s.str k).samples.find? fun m => m.handle == handle
def State.sampleOf (s : State) (k take : Nat) : Option Sample := (s.str k).samples.find? fun m => m.take == take

/-- The 128 bytes of slot record i (R337). -/
def State.slotRec (s : State) (i : Nat) : Nat := s.devLe (s.reg64 pING R.ING_SLOT_BASE_LO + 128 * (i % 8)) 128

/-- A sample's identity in events (R371). -/
def State.raiseSample (s : State) (k e : Nat) (m : Sample) : State := s.raise (pINGS k) e (m.id % 2 ^ 32) (m.id / 2 ^ 32)

/-- The augmentation of part i (R352). -/
def State.augOf (s : State) (m : Sample) (i : Nat) (p : MediaPart) : Aug :=
  let k := s.slotRec p.slot
  augment k s.step.seed m.id m.epoch i (p.hdr.getD 1 0) (p.hdr.getD 2 0) (slAug k && !m.noaug)

/-- The media rows or tokens that a media part will have (R356, R361). -/
def State.mediaPositions (s : State) (m : Sample) (i : Nat) (p : MediaPart) (h : MediaHeader) : Nat :=
  let k := s.slotRec p.slot
  if slKind k = 5 then
    let n := audioRows k (audioKept k p.aux (Sys2Proof.Config.rateLen h.rate (slRate k) h.total)).1
    if slMaxPos k = 0 then n else min n (slMaxPos k)
  else visualRows k (s.augOf m i p)

/-- The part table of a record (R333, R334). -/
def readParts (recAddr : Nat) (bytes : List Nat) : List MediaPart :=
  (List.range (bytes.getD 5 0)).map fun i =>
    let f := fun o n => leNat ((bytes.drop (0x20 + 16 * i + o)).take n)
    { codec := f 8 1, slot := f 9 1 % 8, addr := recAddr + f 0 4, bytes := f 4 4, aux := f 0xC 4 }

/-- The record-level checks of R335. -/
def State.badRecord (s : State) (len : Nat) (bytes : List Nat) (parts : List MediaPart) (recAddr : Nat) : Bool :=
  let n := bytes.getD 5 0
  n == 0 || decide (8 < n) || decide (len * 64 < 0x20 + 16 * n) ||
  (parts.any fun p => decide (recAddr + len * 64 < p.addr + p.bytes) || codecKind p.codec != some (slKind (s.slotRec p.slot))) ||
  (bit (bytes.getD 6 0) 0 && s.chkEn &&
    crc32c.of (bytes.take 0x14 ++ [0, 0, 0, 0] ++ bytes.drop 0x18) != leNat ((bytes.drop 0x14).take 4))

/-- What the parser makes of one part: the part, its failure, a faulty slot record, and whether it was cut. -/
structure PartRead where
  p : MediaPart
  fail : Option Nat := none
  badSlot : Bool := false
  cut : Bool := false
  deriving DecidableEq, Repr

/-- One part parsed (R337, R345, R358). -/
def State.readPart (s : State) (k : Nat) (m : Sample) (i : Nat) (p : MediaPart) : PartRead :=
  let sl := s.slotRec p.slot
  let data := s.bytes (s.key (s.localAddr p.addr)) p.bytes
  if slotOk sl = false then { p := p, fail := some 2, badSlot := true }
  else if p.codec = 0 then
    if p.bytes % 4 ≠ 0 then { p := p, fail := some 2 }
    else
      let t := (chunksOf 4 p.bytes data).map leNat
      let u := if slMaxPos sl = 0 then t else t.take (slMaxPos sl)
      { p := { p with tokens := u, positions := u.length, done := true }, cut := decide (u.length < t.length) }
  else if p.codec = 1 then { p := p }
  else
    let h := mediaHeader p.codec data
    let q := { p with hdr := [b2n h.ok, h.w, h.h, h.channels, h.total, h.rate, b2n h.early] }
    if h.ok = false then { p := q, fail := some 2 }
    else if implausible (s.sreg k R.ING_STR_LIMIT) p.codec p.bytes (slFrames sl) h then { p := q, fail := some 0 }
    else
      { p := { q with positions := s.mediaPositions m i q h },
        cut := slKind sl == 5 && (audioKept sl p.aux (Sys2Proof.Config.rateLen h.rate (slRate sl) h.total)).2 }

/-- The first failure of a list of parsed parts. -/
def firstFail (l : List PartRead) : Option Nat := (l.find? fun r => r.fail.isSome).bind (·.fail)

/-- A media part requests a core (R343). -/
def State.requestCore (s : State) (k handle i pool : Nat) : State :=
  let urgent := bit (s.sreg k R.ING_STR_CTL) 1
  let b := s.sreg k R.ING_STR_BUDGET % 2 ^ 24
  let d := s.mt + (if b = 0 then s.crsDefault (40 + pool) urgent else b * 1000)
  s.crsRequest (40 + pool) ⟨k, urgent, d, s.mt, none, 1, .part k handle i⟩

/-- The parts of a sample that passed its parse ask for cores and engines, in part order (R343, R358). -/
def State.startParts (s : State) (k handle : Nat) (parts : List MediaPart) : State :=
  parts.zipIdx.foldl (fun a p =>
    if p.1.codec = 1 then { a with tokQueue := a.tokQueue ++ [(k, handle, p.2)] }
    else match (codecKind p.1.codec).bind kindPool with
      | some pool => a.requestCore k handle p.2 pool
      | none => a) s

/-- The sample waits for a check unit or holds one (R336). -/
def State.checkWaits (s : State) (k handle : Nat) : Bool := (s.crs 43).reqs.any fun r => r.owner == .check k handle

/-- A sample's check-unit grant ends, its bytes counted (R336, R528). -/
def State.releaseCheck (s : State) (k : Nat) (m : Sample) : State :=
  let o := CrsOwner.check k m.handle
  let held := (s.crs 43).grants.filter fun g => g.2.owner == o
  let s1 := held.foldl (fun a g => (a.bump (pCHK g.1) R.CHK_BYTES (64 * m.len)).endGrant 43 g.1) s
  s1.setCrs 43 { s1.crs 43 with reqs := (s1.crs 43).reqs.filter fun r => r.owner != o }

/-- Every part of a sample has been decoded. -/
def Sample.ready (m : Sample) : Bool := m.fail.isNone && m.parts.all (·.done)

/-- One outcome of a sample that counts in the ledger (R339). -/
def State.leave (s : State) (k : Nat) (m : Sample) (f : Stream → Stream) : State :=
  if m.ledger then s.modStr k fun x => { f x with pending := x.pending - 1 } else s

/-- A sample whose decodes have all passed: its check ends, and a spare takes the failed sample's place (R351). -/
def State.settle (s : State) (k handle : Nat) : State :=
  match s.sampleBy k handle with
  | none => s
  | some m =>
    if m.ready = false then s
    else
      let s1 := s.releaseCheck k m
      if m.spare.isSome && m.ledger then
        (s1.leave k m fun x => { x with replaced := x.replaced + 1 }).modSample k handle fun t => { t with ledger := false }
      else s1

/-- A record is read for a sample: its header, checks and parts. `ringOk` says that LENGTH and KIND are sound. -/
def State.beginSample (s : State) (k : Nat) (m : Sample) (ringOk : Bool) : State :=
  let (s1, bytes, bad) := s.devRead m.recAddr (if ringOk then m.len * 64 else 64) 0xFFFF
  let parts := if ringOk then readParts m.recAddr bytes else []
  let m1 := { m with id := leNat ((bytes.drop 8).take 8), epoch := leNat ((bytes.drop 0x10).take 4), noaug := bit (bytes.getD 6 0) 1 }
  let put := fun (a : State) (t : Sample) => a.modSample k m.handle fun _ => t
  if bad.isSome || !ringOk || s1.badRecord m.len bytes parts m.recAddr then put s1 { m1 with fail := some 3 }
  else
    let rs := parts.zipIdx.map fun p => s1.readPart k m1 p.2 p.1
    let s2 := (rs.filter (·.badSlot)).foldl (fun a r => a.raise pING 0 r.p.slot) s1
    let s3 := s2.bump (pINGS k) R.ING_STR_TRUNCATED (rs.filter (·.cut)).length
    let m2 := { m1 with parts := rs.map (·.p), fail := firstFail rs }
    let s4 := put s3 m2
    if m2.fail.isSome then s4
    else
      let need := s.chkEn && (bit (bytes.getD 6 0) 0 || parts.any fun p => p.codec == 0x11 || p.codec == 0x30)
      let s5 := if need then s4.crsPlain 43 96 1 (.check k m.handle) else s4
      let s6 := s5.startParts k m.handle m2.parts
      if need then s6 else s6.settle k m.handle

/-! ### Taking (R335, R338) -/

/-- RING_FAULT: the stream stops taking (R335). -/
def State.ringFault (s : State) (k : Nat) : State :=
  (s.orReg (pINGS k) R.ING_STR_STS 1).raise (pINGS k) 7 (s.sreg k R.ING_STR_CURSOR) (s.sreg k R.ING_STR_HEAD)

/-- The stream may take the record at its cursor (R338). -/
def State.mayTakeSample (s : State) (k : Nat) : Bool :=
  s.ingRuns k && s.strEn k && !bit (s.sreg k R.ING_STR_STS) 0 && s.sreg k R.ING_STR_CURSOR != s.sreg k R.ING_STR_TAIL && !s.atLimit k

/-- The record at the cursor is passed or taken (fuel: WRAP records passed). -/
def State.takeAt (s : State) (k : Nat) : Nat → State
  | 0 => s
  | f + 1 =>
    if s.mayTakeSample k = false then s
    else
      let c := s.sreg k R.ING_STR_CURSOR
      let a := s.unitAddr k c
      if s.maps (s.pagePart (pINGS k)) a 64 false = false ∨ s.targetOff a = true ∨ s.targetWaits a = true then s.ringFault k
      else
        let (s1, bytes, bad) := s.devRead a 64 0xFFFF
        let len := leNat (bytes.take 4)
        let kind := bytes.getD 4 0
        let room := (s.sreg k R.ING_STR_TAIL + 2 ^ 32 - c) % 2 ^ 32
        let toEnd := s.ringUnits k - c % s.ringUnits k
        let next := fun (t : State) => t.setReg (pINGS k) R.ING_STR_CURSOR (c + len)
        if bad.isSome || len == 0 || decide (room < len) || decide (toEnd < len) || decide (2 ≤ kind) || (kind == 0 && len != toEnd) then
          s1.ringFault k
        else if kind = 0 then (next s1).takeAt k f
        else
          let x := s1.str k
          let m : Sample := { take := x.nextTake, handle := x.nextHandle, unit := c, len := len, recAddr := a }
          let s2 := (next s1).setStr k { x with nextTake := x.nextTake + 1, nextHandle := x.nextHandle + 1, taken := x.taken + 1,
                                                pending := x.pending + 1, samples := x.samples ++ [m], dryAt := none }
          s2.beginSample k m true

/-- TAKE_SAMPLE (R338). -/
def execTakeSample (stream : Nat) (s : State) : Host.Outcome State Fault Refusal :=
  .next (if stream < 256 then s.takeAt stream 2 else s)

/-- A request waits at TAIL (ING_STR_STS.DRY). -/
def State.strDry (s : State) (k : Nat) : Bool :=
  s.ingRuns k && s.strEn k && s.sreg k R.ING_STR_CURSOR == s.sreg k R.ING_STR_TAIL && !s.atLimit k &&
  (match (s.str k).req with
   | some r => !r.closed
   | none => false)

/-- RING_DRY (R338). -/
def execRingDry (stream : Nat) (s : State) : Host.Outcome State Fault Refusal :=
  .next (
    let us := max 1 (s.reg pING R.ING_DRY_US % 2 ^ 24)
    let due := match (s.str stream).dryAt with
      | none => true
      | some t => decide (t + us * 1000 ≤ s.mt)
    if stream < 256 ∧ s.strDry stream = true ∧ due = true then
      (s.notice (pINGS stream) 9).modStr stream fun x => { x with dryAt := some s.mt }
    else s)

/-! ### Batches (R359 to R363) -/

/-- A bucket record (R359). -/
structure Bucket where
  pack : Bool
  labelNext : Bool
  b : Nat
  l : Nat
  pad : Nat
  mrows : List Nat
  deriving DecidableEq, Repr

/-- Bucket k; none where it is not valid. -/
def State.bucket (s : State) (k : Nat) : Option Bucket :=
  let w := s.devLe (s.reg64 pING R.ING_BUCKET_BASE_LO + 64 * k) 64
  let l := df w 4 31 0
  let b := df w 2 15 0 + 1
  if bit w 0 = false ∨ l % 16 ≠ 0 ∨ l < 16 ∨ 131072 < l ∨ 1024 < b then none
  else some ⟨bit w 1, bit w 2, b, l, df w 8 31 0, (List.range 8).map fun i => df w (0x10 + 2 * i) 15 0⟩

/-- The positions of a sample, in part order, cut where it was truncated (R361, R363). -/
def State.itemsOf (s : State) (m : Sample) : List PosItem :=
  let l := m.parts.zipIdx.flatMap fun p =>
    if p.1.codec ≤ 1 then p.1.tokens.map fun t => ⟨p.2, none, t⟩
    else List.replicate p.1.positions ⟨p.2, some p.1.slot, slToken (s.slotRec p.1.slot)⟩
  match m.cut with
  | none => l
  | some n => l.take n

/-- Media rows of a list of positions in each slot. -/
def mediaCount (l : List PosItem) : List Nat := (List.range 8).map fun i => (l.filter fun x => x.slot == some i).length

/-- Media rows that a bucket has left. -/
def mediaFits (mrows used need : List Nat) : Bool := (List.range 8).all fun i => decide (used.getD i 0 + need.getD i 0 ≤ mrows.getD i 0)

def rowUsed (r : List RowEntry) : Nat := sumNat (r.map (·.items.length))
def allItems (rows : List (List RowEntry)) : List PosItem := rows.flatMap fun r => r.flatMap (·.items)

/-- The rows with an entry added to the first row that has room for it (R362). -/
def placeIn (b : Bucket) (e : RowEntry) : List (List RowEntry) → Option (List (List RowEntry))
  | [] => none
  | r :: rs =>
    if (if b.pack then decide (rowUsed r + e.items.length ≤ b.l) else r.isEmpty && decide (e.items.length ≤ b.l)) then
      some ((r ++ [e]) :: rs)
    else (placeIn b e rs).map (r :: ·)

/-- One candidate placed where it fits (R362). -/
def State.placeOne (s : State) (k : Nat) (b : Bucket) (m : Sample) : State :=
  match (s.str k).req with
  | none => s
  | some r =>
    let items := s.itemsOf m
    if mediaFits b.mrows (mediaCount (allItems r.rows)) (mediaCount items) = false then s
    else match placeIn b ⟨m.take, false, items⟩ r.rows with
      | none => s
      | some rows =>
        (s.modStr k fun x => { x with req := some { r with rows := rows } }).modSample k m.handle fun t => { t with batch := some (r.tag, r.mb) }

/-- The samples held for bucket j, in take order (R361). -/
def Stream.held (x : Stream) (j : Nat) : List Sample :=
  x.samples.filter fun m => m.bucket == some j && m.batch.isNone && m.fail.isNone

/-- A row is full. -/
def rowFull (b : Bucket) (r : List RowEntry) : Bool := if b.pack then decide (b.l ≤ rowUsed r) else !r.isEmpty

/-- Where each media position of a batch lies in its slot's array: sample, part, row within the part, slot, index (R363). -/
structure MediaPlace where
  take : Nat
  void : Bool
  part : Nat
  row : Nat
  slot : Nat
  idx : Nat
  deriving DecidableEq, Repr

/-- The running numbering of media rows over a batch in position order. -/
def numberItems : List (RowEntry × PosItem) → List Nat → List ((Nat × Nat) × Nat) → List MediaPlace
  | [], _, _ => []
  | (e, x) :: r, cnt, seen =>
    match x.slot with
    | none => numberItems r cnt seen
    | some sl =>
      let key := (e.take * 2 + b2n e.void, x.part)
      let row := ((seen.find? fun p => p.1 == key).map (·.2)).getD 0
      let seen' := (key, row + 1) :: seen.filter fun p => p.1 != key
      ⟨e.take, e.void, x.part, row, sl, cnt.getD sl 0⟩ :: numberItems r (cnt.set sl (cnt.getD sl 0 + 1)) seen'

def placesOf (rows : List (List RowEntry)) : List MediaPlace :=
  numberItems (rows.flatMap fun r => r.flatMap fun e => e.items.map fun x => (e, x)) (List.replicate 8 0) []

/-- The places of one row's items, in order: taken off the batch's list. -/
def midxOf (n : Nat) (e : RowEntry) (x : PosItem) (ps : List MediaPlace) : Nat :=
  if e.void ∨ x.slot.isNone then 2 ^ 32 - 1
  else ((ps.filter fun p => p.take == e.take && !p.void && p.part == x.part).getD n ⟨0, false, 0, 0, 0, 0⟩).idx

/-- One position's TOKENS, SEG, POS, LABELS and MIDX. -/
structure PosOut where
  tok : Nat
  seg : Nat
  pos : Nat
  label : Nat
  midx : Nat
  deriving DecidableEq, Repr

/-- The positions of one entry, number j of its row (R363). -/
def entryOut (b : Bucket) (ps : List MediaPlace) (j : Nat) (e : RowEntry) : List PosOut :=
  e.items.zipIdx.map fun p =>
    if e.void then ⟨b.pad, 0, 0, 2 ^ 32 - 1, 2 ^ 32 - 1⟩
    else
      let before := ((e.items.take p.2).filter fun y => y.part == p.1.part).length
      let label := match p.1.slot, e.items[p.2 + 1]? with
        | none, some nx => if b.labelNext && nx.slot.isNone then nx.token else 2 ^ 32 - 1
        | _, _ => 2 ^ 32 - 1
      ⟨p.1.token, j + 1, p.2, label, midxOf before e p.1 ps⟩

/-- The positions of one row, padded (R363). -/
def bucketRow (b : Bucket) (ps : List MediaPlace) (r : List RowEntry) : List PosOut :=
  let l := r.zipIdx.flatMap fun e => entryOut b ps e.2 e.1
  l ++ List.replicate (b.l - l.length) ⟨b.pad, 0, 0, 2 ^ 32 - 1, 2 ^ 32 - 1⟩

/-- Offset of slot i's media array in a batch region (R363). -/
def State.mediaOff (s : State) (b : Bucket) : Nat → Nat
  | 0 => alignUp (18 * b.b * b.l) 64
  | i + 1 => alignUp (s.mediaOff b i + b.mrows.getD i 0 * rowBytesOf (s.slotRec i)) 64

/-- Ingest writes bytes of a batch, in memory that the stream's partition holds. -/
def State.ingStore (s : State) (k a : Nat) (l : List Nat) : State :=
  match s.region a with
  | .near _ | .far _ | .sram _ _ => s.blockStore (s.pagePart (pINGS k)) 98 98 a l
  | _ => s

/-- The five position arrays of a batch written (R363). -/
def State.writeArrays (s : State) (k : Nat) (b : Bucket) (r : BatchReq) : State :=
  let out := (r.rows.map (bucketRow b (placesOf r.rows))).flatten
  let n := b.b * b.l
  let put := fun (a : State) (off w : Nat) (f : PosOut → Nat) => a.ingStore k (r.dst + off) (out.flatMap fun o => leBytes (f o) w)
  put (put (put (put (put s 0 4 (·.tok)) (4 * n) 2 (·.seg)) (6 * n) 4 (·.pos)) (10 * n) 4 (·.label)) (14 * n) 4 (·.midx)

/-- One media row written to its place: the data, or +0 where `l` is empty. -/
def State.writeMediaRow (s : State) (k : Nat) (b : Bucket) (r : BatchReq) (slot idx : Nat) (l : List Nat) : State :=
  let n := rowBytesOf (s.slotRec slot)
  s.ingStore k (r.dst + s.mediaOff b slot + idx * n) (if l = [] then List.replicate n 0 else l)

/-- The rows that a sample's part has, written to their places in a closed batch. -/
def State.writePartRows (s : State) (k : Nat) (b : Bucket) (r : BatchReq) (m : Sample) : State :=
  ((placesOf r.rows).filter fun p => p.take == m.take && !p.void).foldl (fun a p =>
    match ((m.parts.getD p.part { codec := 0, slot := 0, addr := 0, bytes := 0, aux := 0 }).rows)[p.row]? with
    | some l => a.writeMediaRow k b r p.slot p.idx l
    | none => a) s

/-- A request closes (R362): every array is written, media rows that are not ready as +0. -/
def State.closeReq (s : State) (k : Nat) : State :=
  match (s.str k).req with
  | none => s
  | some r =>
    let r' := { r with closed := true, limitSince := none }
    let s1 := s.modStr k fun x => { x with req := some r' }
    match s.bucket r.bucket with
    | none => s1
    | some b =>
      let s2 := s1.writeArrays k b r'
      let s3 := (List.range 8).foldl (fun a i => (List.range (b.mrows.getD i 0)).foldl (fun c j => c.writeMediaRow k b r' i j []) a) s2
      (s3.str k).samples.foldl (fun a m => a.writePartRows k b r' m) s3

/-- The rows are filled from the holding queues, and the request closes where R362 says so. -/
def State.fillReq (s : State) (k : Nat) : State :=
  match (s.str k).req with
  | none => s
  | some r =>
    if r.closed then s
    else match s.bucket r.bucket with
      | none => s
      | some b =>
        let cands := (List.range (r.bucket + 1)).reverse.flatMap fun j => (s.str k).held j
        let s1 := cands.foldl (fun a m => a.placeOne k b m) s
        match (s1.str k).req with
        | none => s1
        | some r1 =>
          let settled := (s1.str k).samples.all fun m => !(m.ledger && m.batch.isNone) || (m.bucket.isSome && m.fail.isNone)
          if r1.rows.all (rowFull b) then s1.closeReq k
          else if s1.atLimit k then
            (if settled then s1.closeReq k
             else s1.modStr k fun x => { x with req := some { r1 with limitSince := some (r1.limitSince.getD s1.mt) } })
          else s1.modStr k fun x => { x with req := some { r1 with limitSince := none } }

/-- Entry c of a stream's request ring (R360). -/
def State.reqEntry (s : State) (k c : Nat) : Nat := s.devLe (s.reg64 (pINGS k) R.ING_STR_REQ_BASE_LO + 32 * (c % 64)) 32

/-- The SIG increment and REQ_DONE of a request's words (R360, R371). -/
def State.reqSignals (s : State) (k flags sig : Nat) : State :=
  let s1 := if bit flags 0 then s.blockSignal (s.pagePart (pINGS k)) (pINGS k) (bits sig 10 0) (bits sig 14 11) 1 else s
  if bit flags 1 then s1.notice (pINGS k) 11 else s1

/-- REQ_HEAD moves past a completed request and past discarded ones behind it (fuel). -/
def State.passReq (s : State) (k : Nat) : Nat → State
  | 0 => s
  | f + 1 =>
    let h := s.sreg k R.ING_STR_REQ_HEAD % 2 ^ 16
    if (s.str k).dropped.contains h then
      ((s.setReg (pINGS k) R.ING_STR_REQ_HEAD ((h + 1) % 2 ^ 16)).modStr k fun x => { x with dropped := x.dropped.filter (· != h) }).passReq k f
    else s

/-- The request at the ring's head completes. -/
def State.reqDone (s : State) (k : Nat) : State :=
  let h := s.sreg k R.ING_STR_REQ_HEAD % 2 ^ 16
  (s.modStr k fun x => { x with req := none, dropped := h :: x.dropped.filter (· != h) }).passReq k 65

/-- The request at queue count h is taken up: its mark is recorded and its rows are filled, or it fails for its bucket (R340, R360). -/
def State.takeRequest (s : State) (k h : Nat) : State :=
  let w := s.reqEntry k h
  let tag := df w 4 31 0
  let x := s.str k
  let s1 := if x.marks.any fun m => m.tag == tag then s else
    s.setStr k { x with marks := x.marks ++ [⟨tag, x.nextTake, s.sreg k R.ING_STR_CURSOR, x.spareIdx⟩] }
  match s.bucket (df w 0 2 0) with
  | none => ((s1.notice (pINGS k) 10).reqSignals k (df w 1 7 0) (df w 0x0C 15 0)).reqDone k
  | some b =>
    let r : BatchReq := { count := h, bucket := df w 0 2 0, flags := df w 1 7 0, tag := tag, mb := df w 8 19 0,
                          sig := df w 0x0C 15 0, dst := df w 0x10 63 0, rows := List.replicate b.b [] }
    (s1.modStr k fun y => { y with req := some r }).fillReq k

/-- BATCH_REQUEST (R340, R360, R362): the request at the head is taken up, its mark recorded, and its rows are filled. -/
def execBatchRequest (stream : Nat) (s : State) : Host.Outcome State Fault Refusal :=
  .next (
    let k := stream
    if 256 ≤ k ∨ s.ingRuns k = false then s
    else if (s.str k).req.isSome then s.fillReq k
    else
      let h := s.sreg k R.ING_STR_REQ_HEAD % 2 ^ 16
      if h = s.sreg k R.ING_STR_REQ_TAIL % 2 ^ 16 ∨ s.reachable (s.pagePart (pINGS k)) (s.reg64 (pINGS k) R.ING_STR_REQ_BASE_LO + 32 * (h % 64)) 32 = false then s
      else
        s.takeRequest k h)

/-- FILL_WAIT_EXPIRE (R362). -/
def execFillWaitExpire (stream : Nat) (s : State) : Host.Outcome State Fault Refusal :=
  .next (
    let us := max 1 (s.reg pING R.ING_FILL_WAIT % 2 ^ 24)
    match (s.str stream).req.bind (·.limitSince) with
    | some t =>
      if stream < 256 ∧ s.ingRuns stream = true ∧ t + us * 1000 ≤ s.mt then (s.closeReq stream).notice (pINGS stream) 10 else s
    | none => s)

/-- Bands of a video part that a batch keeps: those with a row among the kept ones. -/
def State.bandsKept (s : State) (m : Sample) (i : Nat) (p : MediaPart) (kept : Nat) : Nat :=
  let w := (outSize (s.slotRec p.slot) (s.augOf m i p)).1 / max 1 (slPatch (s.slotRec p.slot))
  (kept + w - 1) / max 1 w

/-- Every media row of a sample that a batch keeps is visible. -/
def State.entryVisible (s : State) (k : Nat) (e : RowEntry) : Bool :=
  e.void ||
  match s.sampleOf k e.take with
  | none => true
  | some m => m.parts.zipIdx.all fun p =>
      p.1.done && (p.1.codec / 16 != 2 ||
        decide (s.bandsKept m p.2 p.1 ((e.items.filter fun x => x.part == p.2).length) ≤ p.1.band))

/-- REQUEST_COMPLETE (R362). -/
def execRequestComplete (stream : Nat) (s : State) : Host.Outcome State Fault Refusal :=
  .next (
    match (s.str stream).req with
    | none => s
    | some r =>
      if 256 ≤ stream ∨ r.closed = false ∨ s.ingRuns stream = false ∨
        (r.rows.all fun l => l.all (s.entryVisible stream)) = false then s
      else
        ((s.bump (pINGS stream) R.ING_STR_PAD_ROWS (r.rows.filter (·.isEmpty)).length).reqSignals stream r.flags r.sig).reqDone stream)

/-! ### Assignment (R361) -/

/-- A sample leaves the stream; what it still asks for is withdrawn. -/
def State.dropSample (s : State) (k : Nat) (m : Sample) : State :=
  let s1 := s.releaseCheck k m
  let s2 := m.parts.zipIdx.foldl (fun a p => a.crsWithdraw (.part k m.handle p.2)) s1
  let s3 := { s2 with tokQueue := s2.tokQueue.filter fun q => !(q.1 == k && q.2.1 == m.handle) }
  s3.modStr k fun x => { x with samples := x.samples.filter fun t => t.handle != m.handle }

/-- The lowest valid bucket that holds a sample, and the valid bucket of largest L (R361). -/
def State.bucketFor (s : State) (items : List PosItem) : Option Nat :=
  (List.range 8).find? fun j => match s.bucket j with
    | some b => decide (items.length ≤ b.l) && mediaFits b.mrows [] (mediaCount items)
    | none => false
def State.lastBucket (s : State) : Option (Nat × Bucket) :=
  (List.range 8).foldl (fun a j => match s.bucket j with
    | some b => some (j, b)
    | none => a) none

/-- A sample takes its bucket, is truncated into the last one, or leaves as too long (R361). -/
def State.assignBucket (s : State) (k : Nat) (m : Sample) : State :=
  let items := s.itemsOf m
  match s.bucketFor items with
  | some j => (s.modSample k m.handle fun t => { t with bucket := some j }).fillReq k
  | none =>
    let s1 := (s.bump (pINGS k) R.ING_STR_TOO_LONG 1).raiseSample k 4 m
    match bit (s.sreg k R.ING_STR_CTL) 2, s.lastBucket with
    | true, some (j, b) =>
      ((s1.bump (pINGS k) R.ING_STR_TRUNCATED 1).modSample k m.handle fun t => { t with bucket := some j, cut := some b.l }).fillReq k
    | _, _ => ((s1.leave k m fun x => { x with skipped := x.skipped + 1 }).dropSample k m).fillReq k

/-- BUCKET_ASSIGN (R361). -/
def execBucketAssign (stream take : Nat) (s : State) : Host.Outcome State Fault Refusal :=
  .next (
    let k := stream
    match s.sampleOf k take with
    | none => s
    | some m =>
      if 256 ≤ k ∨ s.ingRuns k = false ∨ m.fail.isSome ∨ m.bucket.isSome ∨ s.checkWaits k m.handle = true ∨
        (m.parts.any fun p => p.codec == 1 && !p.done) = true then s
      else
        s.assignBucket k m)

/-! ### Decoding (R343 to R350) -/

/-- The mel bins of a slot: START, COUNT and weights (R356). -/
def State.melBank (s : State) (sl : Nat) : List (Nat × Nat × List Nat) :=
  let fb := df sl 0x20 63 0
  (List.range (slBins sl)).map fun b =>
    let n := s.devLe (fb + 8 * b + 2) 2
    let w := s.devLe (fb + 8 * b + 4) 4
    (s.devLe (fb + 8 * b) 2, n, (List.range n).map fun j => s.devLe (fb + w + 4 * j) 4)

/-- The media rows of a decoded image or sound part, cut or filled to the positions its headers gave it. -/
def State.decodedRows (s : State) (m : Sample) (i : Nat) (p : MediaPart) (r : DecodeResult) : List (List Nat) :=
  let sl := s.slotRec p.slot
  let l := if p.codec / 16 = 1 then imageRows sl (s.augOf m i p) r.frame
    else if p.codec / 16 = 3 then audioMediaRows sl (audioSamples sl p.aux r) (s.melBank sl) else []
  if p.codec / 16 = 2 then [] else
    (List.range p.positions).map fun j => l.getD j (List.replicate (rowBytesOf sl) 0)

/-- A closed batch that holds the sample receives the rows that are ready. -/
def State.deliverRows (s : State) (k handle : Nat) : State :=
  match s.sampleBy k handle, (s.str k).req with
  | some m, some r => if r.closed && m.batch.isSome then (match s.bucket r.bucket with
      | some b => s.writePartRows k b r m
      | none => s) else s
  | _, _ => s

/-- A part of a sample changed. -/
def State.modPart (s : State) (k handle i : Nat) (f : MediaPart → MediaPart) : State :=
  s.modSample k handle fun m => { m with parts := m.parts.zipIdx.map fun p => if p.2 = i then f p.1 else p.1 }

/-- Why a decode fails: DIM_IMPLAUSIBLE found while decoding, DECODE_ERR, or none (R345, R349, R350). -/
def State.decodeFail (s : State) (k pool : Nat) (p : MediaPart) (r : DecodeResult) : Option Nat :=
  let work := s.reg (pMDE pool) R.MDE_WORK_STRIDE % 2 ^ 26 * 65536
  if p.codec / 16 = 3 ∧ p.hdr.getD 6 0 = 0 ∧ ratioBad (s.sreg k R.ING_STR_LIMIT) p.bytes (p.hdr.getD 3 0 * p.hdr.getD 4 0) = true then some 0
  else if r.ok = false ∨ work < workBytes p.codec (p.hdr.getD 1 0) (p.hdr.getD 2 0) r.frame.depth (p.hdr.getD 3 0) (p.hdr.getD 4 0) then some 2
  else none

/-- The sample and part behind a core's grant. -/
def State.coreOwner (s : State) (kind core : Nat) : Option (Nat × Nat × Nat × CrsGrant) :=
  match (s.crs (40 + kind)).grants.find? fun g => g.1 == core with
  | some (_, g) => (match g.owner with
    | .part k h i => some (k, h, i, g)
    | _ => none)
  | none => none

/-- A core has ended part i of sample h of stream k: the part fails, or its rows are kept and delivered (R349). -/
def State.decodeStore (s : State) (kind core : Nat) (result : DecodeResult) (k h i : Nat) : State :=
  let s1 := s.endGrant (40 + kind) core
  match s1.sampleBy k h with
  | none => s1
  | some m =>
    match m.fail, m.parts[i]? with
    | none, some p =>
      (match s1.decodeFail k kind p result with
       | some r => (if r = 2 then s1.bump (pMDE kind) R.MDE_ERRORS 1 else s1).modSample k h fun t => { t with fail := some r }
       | none =>
         let s2 := (s1.bump (pMDE kind) R.MDE_DECODED 1).modPart k h i fun q => { q with done := true, rows := s1.decodedRows m i p result }
         (s2.deliverRows k h).settle k h)
    | _, _ => s1

/-- DECODE_DONE (R349). -/
def execDecodeDone (kind core : Nat) (result : DecodeResult) (s : State) : Host.Outcome State Fault Refusal :=
  .next (
    if 3 ≤ kind ∨ s.blockRuns (pMDE kind) = false then s
    else match s.coreOwner kind core with
      | none => s
      | some (k, h, i, _) =>
        s.decodeStore kind core result k h i)

/-- DECODE_TIMEOUT (R344, R372). -/
def execDecodeTimeout (kind core : Nat) (s : State) : Host.Outcome State Fault Refusal :=
  .next (
    if 3 ≤ kind ∨ s.blockRuns (pMDE kind) = false then s
    else match s.coreOwner kind core with
      | none => s
      | some (k, h, _, g) =>
        let b := s.sreg k R.ING_STR_BUDGET % 2 ^ 24
        if b = 0 ∨ s.mt < g.start + b * 1000 then s
        else
          let s1 := ((s.endGrant (40 + kind) core).bump (pMDE kind) R.MDE_ABANDONED 1).raise (pMDE kind) 0 core
          s1.modSample k h fun t => { t with fail := some (t.fail.getD 1) })

/-- A core that holds a part has been granted, or the part is decoded. -/
def State.partGranted (s : State) (k handle i : Nat) (p : MediaPart) : Bool :=
  p.done || (s.crs 41).grants.any fun g => g.2.owner == .part k handle i

/-- The counter that a band increments (R355). -/
def State.bandSignal (s : State) (k : Nat) : State :=
  let v := s.sreg k R.ING_STR_BAND_SIG
  if bit v 15 then s.blockSignal (s.pagePart (pINGS k)) (pINGS k) (bits v 10 0) (bits v 14 11) 1 else s

/-- The bands of a video part that are due are transformed, written into their rows and signalled (R355). -/
def State.writeBand (s : State) (k take idx : Nat) (frames : List MediaFrame) (m : Sample) (r : BatchReq) (b : Bucket) (sl : Nat)
    (a : Aug) (todo : List Nat) : State :=
  let rows := todo.flatMap (bandRows sl a frames)
  let s1 := s.modPart k m.handle idx fun q => { q with rows := q.rows ++ rows, band := q.band + todo.length }
  let s2 := (s1.sampleOf k take).elim s1 (s1.writePartRows k b r)
  todo.foldl (fun t _ => t.bandSignal k) s2

/-- BAND_WRITE (R355): the next band of a video part whose batch has closed; under a turn of 1 or 3, or a free angle, the bands
of the tubelet together. -/
def execBandWrite (stream take idx : Nat) (frames : List MediaFrame) (s : State) : Host.Outcome State Fault Refusal :=
  .next (
    let k := stream
    match s.sampleOf k take, (s.str k).req with
    | some m, some r =>
      (match m.parts[idx]?, s.bucket r.bucket with
       | some p, some b =>
         let sl := s.slotRec p.slot
         let a := s.augOf m idx p
         let per := max 1 (bandsPerTube sl a)
         let whole := a.q % 2 == 1 || !a.theta.isZero
         let kept := ((placesOf r.rows).filter fun q => q.take == take && !q.void && q.part == idx).length
         let last := s.bandsKept m idx p kept
         let py := p.band % per
         let todo := (List.range (min (last - p.band) (if whole then per - py else 1))).map (py + ·)
         if 256 ≤ k ∨ p.codec / 16 ≠ 2 ∨ m.fail.isSome ∨ r.closed = false ∨ m.batch.isNone ∨ frames.length ≠ slTube sl ∨
           s.partGranted k m.handle idx p = false ∨ todo = [] then s
         else
           s.writeBand k take idx frames m r b sl a todo
       | _, _ => s)
    | _, _ => s)

/-! ### The tokenizer (R357, R358) -/

def State.dictReg (s : State) (d off : Nat) : Nat := s.reg pTOK (off + 0x10 * d)
def State.dictBase (s : State) (d : Nat) : Nat := s.reg64 pTOK (R.TOK_DICT_BASE_LO + 0x10 * d)
def State.dictView (s : State) (d : Nat) : DictView :=
  let a := s.dictBase d
  ⟨fun o n => s.devLe (a + o) n, s.devLe (a + 4) 4, s.devLe (a + 1) 1⟩

/-- A write of TOK_DICTd_CTL (R357, R373). -/
def dictCtlWrite (d v : Nat) (s : State) : State :=
  let off := R.TOK_DICT_CTL + 0x10 * d
  let old := s.reg pTOK off
  if bit v 0 = false then s.setReg pTOK off 0
  else if bit old 0 then s
  else s.setReg pTOK off 5

/-- DICT_ENABLE (R357). -/
def execDictEnable (src : Src) (dict value : Nat) (s : State) : Host.Outcome State Fault Refusal :=
  .next (if dict < 4 then s.onWrite src pTOK (R.TOK_DICT_CTL + 0x10 * dict) (dictCtlWrite dict value) else s)

/-- The dictionary image passes its check (R357). -/
def State.dictGood (s : State) (d : Nat) : Bool :=
  let a := s.dictBase d
  let part := s.pagePart pTOK
  s.reachable part a 64 &&
  (let nodes := s.devLe (a + 4) 4
   let edges := s.devLe (a + 8) 4
   let n := 16 * nodes + 8 * edges
   s.devLe a 1 == 1 && decide (1 ≤ s.devLe (a + 1) 1) && decide (s.devLe (a + 1) 1 ≤ 64) &&
   decide (1 ≤ nodes) && decide (nodes ≤ 2 ^ 24) && decide (edges ≤ 2 ^ 24) && s.reachable part (a + 64) n &&
   crc32c.of (s.bytes (s.key (s.localAddr (a + 64))) n) == s.devLe (a + 12) 4)

/-- DICT_CHECK_DONE (R357). -/
def execDictCheckDone (dict : Nat) (s : State) : Host.Outcome State Fault Refusal :=
  .next (
    let off := R.TOK_DICT_CTL + 0x10 * dict
    if 4 ≤ dict ∨ s.blockRuns pTOK = false ∨ bit (s.reg pTOK off) 2 = false then s
    else if s.dictGood dict then s.setReg pTOK off 3
    else (s.setReg pTOK off 1).raise pTOK 0 dict)

/-- Part i of sample h of stream k is tokenized: tokens and counters (R358). -/
def State.tokenizePart (s : State) (k h i : Nat) (p : MediaPart) : State :=
  let sl := s.slotRec p.slot
  let d := slDict sl
  if bit (s.dictReg d R.TOK_DICT_CTL) 1 = false then s.modSample k h fun t => { t with fail := some 2 }
  else
    let data := s.bytes (s.key (s.localAddr p.addr)) p.bytes
    let (o, cut) := tokenize sl (s.dictView d) data
    let s2 := ((s.bump pTOK R.TOK_BYTES o.used).bump pTOK R.TOK_TOKENS o.tokens.length).bump pTOK R.TOK_FALLBACK o.fallback
    let s3 := if utf8Ok data.length data then s2 else s2.bump pTOK R.TOK_UTF8_ERR 1
    let s4 := if cut then s3.bump (pINGS k) R.ING_STR_TRUNCATED 1 else s3
    (s4.modPart k h i fun q => { q with tokens := o.tokens, positions := o.tokens.length, done := true }).settle k h

/-- TOKENIZE (R358): the first part of the queue, by the first free engine. -/
def execTokenize (engine : Nat) (s : State) : Host.Outcome State Fault Refusal :=
  .next (
    if 8 ≤ engine ∨ s.blockRuns pTOK = false ∨ bit (s.reg pTOK R.TOK_CTL) 0 = false then s
    else match s.tokQueue with
      | [] => s
      | (k, h, i) :: rest =>
        let s1 := { s with tokQueue := rest }
        match s1.sampleBy k h with
        | none => s1
        | some m =>
          match m.fail, m.parts[i]? with
          | none, some p =>
            s1.tokenizePart k h i p
          | _, _ => s1)

/-! ### Failures and spares (R351) -/

def State.spareBad (s : State) (k i : Nat) : Bool := bit (s.sreg k (R.ING_STR_SPARE_BAD_LO + 4 * (i / 32))) (i % 32)

/-- The next spare from the index, round robin, that is not marked bad. -/
def State.nextSpare (s : State) (k : Nat) : Option Nat :=
  let n := min 64 (s.sreg k R.ING_STR_SPARE_COUNT % 128)
  ((List.range n).map fun j => ((s.str k).spareIdx + j) % max 1 n).find? fun i => !s.spareBad k i

/-- The sample's place in the batch being served becomes padding and its media rows zero (R351). -/
def State.voidPlace (s : State) (k : Nat) (m : Sample) : State :=
  match (s.str k).req with
  | none => s
  | some r =>
    let old := placesOf r.rows
    let rows := r.rows.map fun l => l.map fun e => if e.take = m.take ∧ e.void = false then { e with void := true } else e
    let r' := { r with rows := rows }
    let s1 := s.modStr k fun x => { x with req := some r' }
    match r.closed, s.bucket r.bucket with
    | true, some b =>
      (old.filter fun p => p.take == m.take && !p.void).foldl (fun a p => a.writeMediaRow k b r' p.slot p.idx []) (s1.writeArrays k b r')
    | _, _ => s1

/-- A sample fails for reason r: it is counted, and a spare takes its place or it leaves (R351). -/
def State.sampleFailed (s : State) (k : Nat) (m : Sample) (r : Nat) : State :=
  let s0 := if m.batch.isSome then s.voidPlace k m else s
  let s1 := match m.spare with
    | none => (s0.bump (pINGS k) (R.ING_STR_DIM + 4 * r) 1).raiseSample k r m
    | some i => (s0.orReg (pINGS k) (R.ING_STR_SPARE_BAD_LO + 4 * (i / 32)) (2 ^ (i % 32))).raise (pINGS k) 5 i
  match decide (m.tries < 4), s1.nextSpare k with
  | true, some i =>
    let n := min 64 (s.sreg k R.ING_STR_SPARE_COUNT % 128)
    let x := s1.str k
    let a := s1.devLe (s1.reg64 (pINGS k) R.ING_STR_SPARE_BASE_LO + 8 * i) 8
    let len := s1.devLe a 4
    let good := s1.reachable (s1.pagePart (pINGS k)) a 64 && len != 0 && s1.devLe (a + 4) 1 == 1 &&
      s1.maps (s1.pagePart (pINGS k)) a (64 * len) false
    let m' : Sample := { take := m.take, handle := x.nextHandle, unit := m.unit, len := if good then len else m.len, recAddr := a,
                         spare := some i, tries := m.tries + 1, ledger := m.ledger }
    let s2 := s1.releaseCheck k m
    let s3 := m.parts.zipIdx.foldl (fun b p => b.crsWithdraw (.part k m.handle p.2)) s2
    let s4 := s3.setStr k { x with nextHandle := x.nextHandle + 1, spareIdx := (i + 1) % max 1 n,
                                   samples := x.samples.map fun t => if t.handle = m.handle then m' else t }
    s4.beginSample k m' good
  | _, _ =>
    let s2 := (s1.bump (pINGS k) R.ING_STR_SPARE_EMPTY 1).raiseSample k 6 m
    (s2.leave k m fun x => { x with skipped := x.skipped + 1 }).dropSample k m

/-- SAMPLE_FAIL (R351). -/
def execSampleFail (stream take : Nat) (s : State) : Host.Outcome State Fault Refusal :=
  .next (
    let k := stream
    match s.sampleOf k take with
    | none => s
    | some m =>
      match m.fail with
      | none => s
      | some r =>
        if 256 ≤ k ∨ s.ingRuns k = false ∨ s.checkWaits k m.handle = true then s
        else
          s.sampleFailed k m r)

/-! ### What the step controller asks for (R339 to R341, R364) -/

/-- The cores that decode a sample's parts are reset (R340). -/
def State.abandon (s : State) (k : Nat) (m : Sample) : State :=
  [0, 1, 2].foldl (fun a pool =>
    let mine := (a.crs (40 + pool)).grants.filter fun g => match g.2.owner with
      | .part k' h _ => k' == k && h == m.handle
      | _ => false
    mine.foldl (fun b g => (b.endGrant (40 + pool) g.1).bump (pMDE pool) R.MDE_ABANDONED 1) a) s

/-- A request of tag t or later, or older than the open step (R340, R364). -/
def discards (t open_ tag : Nat) : Bool := decide (t ≤ tag) || decide (tag < open_)

/-- The requests that a rewind discards complete with their signals and write nothing more (R364). -/
def State.dropRequests (s : State) (k t : Nat) : State :=
  let h := s.sreg k R.ING_STR_REQ_HEAD % 2 ^ 16
  let n := (s.sreg k R.ING_STR_REQ_TAIL % 2 ^ 16 + 2 ^ 16 - h) % 2 ^ 16
  let s1 := (List.range n).foldl (fun a i =>
    let c := (h + i) % 2 ^ 16
    let w := a.reqEntry k c
    if !(a.str k).dropped.contains c && discards t a.openStep (df w 4 31 0) then
      (a.reqSignals k (df w 1 7 0) (df w 0x0C 15 0)).modStr k fun x =>
        { x with dropped := x.dropped ++ [c], req := if (x.req.map (·.count)) = some c then none else x.req }
    else a) s
  if (s1.str k).req.isSome then s1 else s1.passReq k 65

/-- A rewind of one stream to tag t (R340). -/
def State.rewindStream (s : State) (k t : Nat) : State :=
  let s1 := s.dropRequests k t
  match (s1.str k).marks.find? fun m => m.tag == t with
  | none => s1
  | some m0 =>
    let s2 := ((s1.str k).samples.filter fun m => decide (m0.take ≤ m.take)).foldl (fun a m =>
      ((a.abandon k m).leave k m fun x => { x with rewound := x.rewound + 1 }).dropSample k m) s1
    let s3 := s2.modStr k fun x => { x with
      samples := x.samples.map fun m => match m.batch with
        | some (tag, _) => if t ≤ tag then { m with batch := none, parts := m.parts.map fun p =>
            if p.codec / 16 = 2 then { p with band := 0, rows := [] } else p } else m
        | none => m
      marks := x.marks.filter fun m => decide (m.tag ≤ t)
      spareIdx := m0.spareIdx
      dryAt := none }
    s3.setReg (pINGS k) R.ING_STR_CURSOR m0.cursor

/-- A rewind of every stream. -/
def State.rewindAll (s : State) (t : Nat) : State := (List.range 256).foldl (fun a k => a.rewindStream k t) s

/-- HEAD moves to the oldest unit still needed (R341). -/
def State.moveHead (s : State) (k : Nat) : State :=
  let x := s.str k
  let h := s.sreg k R.ING_STR_HEAD
  let dist := fun p => (p + 2 ^ 32 - h) % 2 ^ 32
  let ps := (x.samples.filter (·.ledger)).map (·.unit) ++ x.marks.map (·.cursor)
  s.setReg (pINGS k) R.ING_STR_HEAD (h + ps.foldl (fun m p => min m (dist p)) (dist (s.sreg k R.ING_STR_CURSOR)))

/-- The pending samples of step n leave as used, or as skipped where `keep` refuses their micro-batch (R339). -/
def State.settleStep (s : State) (k n : Nat) (keep : Nat → Bool) : State :=
  ((s.str k).samples).foldl (fun a m => match m.batch with
    | some (tag, mb) =>
      if tag = n then
        (a.leave k m fun x => if keep mb then { x with used := x.used + 1 } else { x with skipped := x.skipped + 1 }).dropSample k m
      else a
    | none => a) s

/-- COMMIT of step n for one stream (R293, R339, R341). -/
def State.commitStream (s : State) (k n : Nat) (keep : Nat → Bool) : State :=
  ((s.settleStep k n keep).modStr k fun x => { x with marks := x.marks.filter fun m => decide (n < m.tag) }).moveHead k

/-- A squash of step n under SKIP for one stream (R340): its samples are skipped, its mark goes, and the stream rewinds to n + 1. -/
def State.skipStream (s : State) (k n : Nat) : State :=
  ((s.settleStep k n fun _ => false).modStr k fun x => { x with marks := x.marks.filter fun m => m.tag != n }).rewindStream k ((n + 1) % 2 ^ 32)

end Sys2Proof.Machine
end

