-- ==== Sys2Proof/Machine/Root.lean ====
section
/-! DEFINITION. Machine/Root.lean: the ROOT descriptor (R271 to R275): statistic maxima, the blocks of a Newton iteration, the
test, and the swap of a root. -/
namespace Sys2Proof.Machine

def rtRec (d : Nat) : Nat := df d 16 11 0
def rtOp (d : Nat) : Nat := df d 18 2 0
def rtLast (d : Nat) : Bool := df d 18 3 3 == 1
def rtM (d : Nat) : Nat := df d 19 5 0 + 1
def rtN (d : Nat) : Nat := df d 20 6 0 + 1
def rtRow0 (d : Nat) : Nat := df d 22 10 0
def rtCol0 (d : Nat) : Nat := df d 24 10 0
def rtA (d : Nat) : Nat := df d 28 16 0 * 32
def rtAs (d : Nat) : Nat := df d 28 32 17 * 32
def rtB (d : Nat) : Nat := df d 36 16 0 * 32
def rtBs (d : Nat) : Nat := df d 36 32 17 * 32
def rtC (d : Nat) : Nat := df d 44 15 0 * 64
def rtCs (d : Nat) : Nat := df d 44 31 16 * 64

/-! ### The record (R271) -/

def State.rootAddr (s : State) (k : Nat) : Nat := s.updBase R.UPD_ROOT_BASE_LO + 64 * k
def State.rootCount (s : State) : Nat := s.reg pUPD R.UPD_ROOT_COUNT % 2 ^ 21
def State.rootF (s : State) (k off n : Nat) : Nat := s.devLe (s.rootAddr k + off) n
def State.setRoot (s : State) (k off n v : Nat) : State := s.devPut (s.rootAddr k + off) n v
def State.rootN (s : State) (k : Nat) : Nat := s.rootF k 0 2 % 2 ^ 11 + 1
def State.rootP (s : State) (k : Nat) : Nat := s.rootF k 2 1
def State.rootFlag (s : State) (k i : Nat) : Bool := bit (s.rootF k 3 1) i

abbrev rfBusy : Nat := 0
abbrev rfDone : Nat := 1
abbrev rfConv : Nat := 2
abbrev rfStall : Nat := 3
abbrev rfRnan : Nat := 4

def State.setRootFlag (s : State) (k i : Nat) (v : Bool) : State := s.setRoot k 3 1 (setBit (s.rootF k 3 1) i v)

/-! ### Blocks (R273) -/

/-- Rows of an FP32 block in tile SRAM, as regions. -/
def blockRegions (base stride rows cols : Nat) : List (Nat × Nat) := (List.range rows).map fun i => (base + i * stride, 4 * cols)

def State.blockRead (s : State) (site base stride rows cols : Nat) : List (List Fp) :=
  (List.range rows).map fun i => (List.range cols).map fun j => fp32 (s.le (sramBase site + base + i * stride + 4 * j) 4)

def blockWrites (base stride : Nat) (l : List (List Fp)) : List (Nat × List Nat) :=
  l.zipIdx.map fun p => (base + p.2 * stride, fp32Bytes p.1)

/-- δ of element (i, j) of the descriptor's block. -/
def rtDelta (d i j : Nat) : Bool := rtRow0 d + i == rtCol0 d + j

/-- Rows and columns of the operands an operation uses (R273). -/
def rtUsesA (op : Nat) : Bool := decide (op ≤ 3)
def rtUsesB (op : Nat) : Bool := op == 1 || op == 3
def rtUsesC (op : Nat) : Bool := op == 1 || op == 2 || op == 3

def State.rtARegions (s : State) (d : Nat) : List (Nat × Nat) :=
  blockRegions (rtA d) (rtAs d) (rtM d) (if rtOp d = 3 then s.rootN (rtRec d) else rtN d)
def State.rtBRegions (s : State) (d : Nat) : List (Nat × Nat) :=
  blockRegions (rtB d) (rtBs d) (if rtOp d = 3 then s.rootN (rtRec d) else rtM d) (rtN d)
def rtCRegions (d : Nat) : List (Nat × Nat) := blockRegions (rtC d) (rtCs d) (rtM d) (rtN d)

/-- z and z^(1/p) of R273. -/
def rootZ (n : Nat) (amax eps : Fp) : Fp := f32Div Fp.one (f32Mul (Fp.ofNat n) (f32Add amax eps))
def rootZp (p : Nat) (z : Fp) : Fp := if p = 4 then f32Sqrt (f32Sqrt z) else f32Sqrt z

def oneIf (b : Bool) : Fp := if b then Fp.one else Fp.zero

/-- Map over a block with its indices. -/
def mapBlock (f : Nat → Nat → Fp → Fp) (l : List (List Fp)) : List (List Fp) :=
  l.zipIdx.map fun r => r.1.zipIdx.map fun v => f r.2 v.2 v.1

/-- What INIT, TSTEP and PROD write, and the reads they make. -/
def rootEff (s : State) (c : DCtx) : Eff :=
  let d := c.d
  let k := rtRec d
  let op := rtOp d
  let p := s.rootP k
  let bad := fun (l : List (List Fp)) (f : Fp → Bool) => l.any fun r => r.any f
  let a := s.blockRead c.site (rtA d) (rtAs d) (rtM d) (if op = 3 then s.rootN k else rtN d)
  match op with
  | 0 => { reads := s.rtARegions d, banks := freeBanks s (rtM d) }
  | 1 =>
    let z := rootZ (s.rootN k) (fp32 (s.rootF k 0x10 4)) (fp32 (s.rootF k 0x0C 4))
    let eps := fp32 (s.rootF k 0x0C 4)
    let m0 := mapBlock (fun i j v => f32Mul z (f32Add v (eps.mul (oneIf (rtDelta d i j))))) a
    let x0 := mapBlock (fun i j _ => (rootZp p z).mul (oneIf (rtDelta d i j))) a
    { reads := s.rtARegions d, writes := blockWrites (rtC d) (rtCs d) m0 ++ blockWrites (rtB d) (rtBs d) x0,
      banks := freeBanks s (rtM d), nan := bad m0 Fp.isNaN || bad x0 Fp.isNaN, inf := bad m0 Fp.isInf || bad x0 Fp.isInf }
  | 2 =>
    let t := mapBlock (fun i j v => f32Div (f32Sub ((Fp.ofNat (p + 1)).mul (oneIf (rtDelta d i j))) v) (Fp.ofNat p)) a
    { reads := s.rtARegions d, writes := blockWrites (rtC d) (rtCs d) t, banks := freeBanks s (rtM d), nan := bad t Fp.isNaN,
      inf := bad t Fp.isInf }
  | 3 =>
    let n := s.rootN k
    let bt := transpose (s.blockRead c.site (rtB d) (rtBs d) n (rtN d)) (rtN d)
    let prod := a.map fun row => bt.map fun col =>
      convFp fFP32 .rne (accElem (fun q => arrayProd true (row.getD q Fp.zero) (col.getD q Fp.zero)) n 2048 (fun _ => .rne) Fp.zero).acc
    let v := prod.map fun r => r.map (·.1)
    { reads := s.rtARegions d ++ s.rtBRegions d, writes := blockWrites (rtC d) (rtCs d) v, banks := freeBanks s (rtM d),
      sat := sumNat (prod.map fun r => sumNat (r.map (·.2.sat))), ftz := sumNat (prod.map fun r => sumNat (r.map (·.2.ftz))),
      nan := bad v Fp.isNaN, inf := bad v Fp.isInf }
  | _ => {}

/-- A maximum and a NaN merged into the record (R273): word at `off`, RNAN. -/
def State.rootMerge (s : State) (c : DCtx) (off : Nat) (l : List (List Fp)) : State :=
  let k := rtRec c.d
  let a := s.rootAddr k + off
  let mx := l.foldl (fun m r => r.foldl (fun x v => maxIgnNaN x v.abs) m) Fp.zero
  match s.mergeFault a with
  | some code =>
    let s1 := if code = 0x0A then s.badLine a 0xFFFF false else s
    s1.movFault c.tile c.d code a
  | none =>
    let s1 := (s.atomic a fun o => fmax32 o (encodeFp fFP32 mx)).1
    if l.any fun r => r.any Fp.isNaN then (s1.atomic (s.rootAddr k) fun o => o ||| 2 ^ (24 + rfRnan)).1 else s1

/-- TEST (R274). -/
def State.rootTest (s : State) (k : Nat) : State :=
  let it := (s.rootF k 4 1 + 1) % 256
  let mi := if s.rootF k 5 1 = 0 then 16 else s.rootF k 5 1
  let resid := fp32 (s.rootF k 0x14 4)
  let bad := s.rootFlag k rfRnan || !resid.isFin
  let s1 := s.setRoot k 4 1 it
  let s2 := if bad then s1.setRootFlag k rfRnan true else s1
  let s3 :=
    if !bad && resid.lt (fp32 (s.rootF k 8 4)) then (s2.setRootFlag k rfConv true).setRootFlag k rfDone true
    else if bad || decide (mi ≤ it) then
      (((s2.setRootFlag k rfStall true).setRootFlag k rfDone true).bump pUPD R.UPD_STALL_COUNT 1).raise pUPD 1 k
    else s2
  s3.setRoot k 0x14 4 0

/-- The checks of a ROOT (R272). -/
def rootCheck (s : State) (c : DCtx) : Meaning :=
  let d := c.d
  let k := rtRec d
  let op := rtOp d
  let pre := rj (dPhase d != 0 || decide (5 ≤ op)) rjKindField ++ rj (decide (s.rootCount ≤ k)) rjShapeLimit
  if s.rootCount ≤ k then ⟨[], pre⟩
  else if s.unreadable c (s.rootAddr k) 64 then ⟨[], pre ++ [rjAddrRange]⟩
  else
    let n := s.rootN k
    let p := s.rootP k
    let out := fun (l : List (Nat × Nat)) => l.any fun g => outside g.1 g.2
    ⟨[], pre ++ rj ((p != 2 && p != 4) || decide (n < rtRow0 d + rtM d) || decide (n < rtCol0 d + rtN d)) rjKindField ++
      rj ((rtUsesA op && out (s.rtARegions d)) || (rtUsesB op && out (s.rtBRegions d)) || (rtUsesC op && out (rtCRegions d)))
        rjAddrRange⟩

/-- A ROOT that passed its checks runs (R272 to R274). -/
def rootRun (s : State) (c : DCtx) : State :=
  let d := c.d
  let k := rtRec d
  let op := rtOp d
  if op ≠ 0 ∧ s.rootFlag k rfDone = true then (s.addRun c.site (mkRun c .done)).bump c.site R.TIL_ROOT_SKIP 1
  else if op = 4 then (s.rootTest k).addRun c.site (mkRun c .done)
  else
    let e := rootEff s c
    let a := s.blockRead c.site (rtA d) (rtAs d) (rtM d) (rtN d)
    let s1 := (s.runEff c e).useFree 16384
    if s.effFails c e then s1
    else if op = 0 then s1.rootMerge c 0x10 a
    else if op = 3 ∧ rtLast d = true then
      s1.rootMerge c 0x14 (mapBlock (fun i j v => f32Sub v (oneIf (rtDelta d i j)))
        (s1.blockRead c.site (rtC d) (rtCs d) (rtM d) (rtN d)))
    else s1

/-- A ROOT whose OP is `op`; a reserved OP meets its rejection under AMAX. -/
def isRootOp (op d : Nat) : Bool := dKind d == 9 && (rtOp d == op || (op == 0 && decide (5 ≤ rtOp d)))

def State.rootOp (s : State) (op tile pos : Nat) : State := s.issueWith tile pos (isRootOp op) rootCheck rootRun

/-- ROOT_AMAX (R273). -/
def execRootAmax (tile pos : Nat) (s : State) : Host.Outcome State Fault Refusal := .next (s.rootOp 0 tile pos)

/-- ROOT_INIT (R273). -/
def execRootInit (tile pos : Nat) (s : State) : Host.Outcome State Fault Refusal := .next (s.rootOp 1 tile pos)

/-- ROOT_TSTEP (R273). -/
def execRootTstep (tile pos : Nat) (s : State) : Host.Outcome State Fault Refusal := .next (s.rootOp 2 tile pos)

/-- ROOT_PROD (R273). -/
def execRootProd (tile pos : Nat) (s : State) : Host.Outcome State Fault Refusal := .next (s.rootOp 3 tile pos)

/-- ROOT_TEST (R274). -/
def execRootTest (tile pos : Nat) (s : State) : Host.Outcome State Fault Refusal := .next (s.rootOp 4 tile pos)

/-! ### Swaps at COMMIT (R275) -/

/-- A record falls due when its group reaches STEP = u. -/
def State.rootDue (s : State) (k g u : Nat) : Bool :=
  s.rootFlag k rfBusy && s.rootF k 6 2 % 2 ^ 12 == g && s.rootF k 0x18 4 == u && u != 0

/-- One root swapped in at its COMMIT. -/
def State.rootSwap (s : State) (k : Nat) : State :=
  let n := s.rootN k
  let s1 :=
    if s.rootFlag k rfConv then
      (((s.devWrite (s.rootF k 0x20 8) (s.bytes (s.key (s.localAddr (s.rootF k 0x28 8))) (4 * n * n))).bump pUPD
        R.UPD_SWAP_COUNT 1)).notice pUPD 2 k
    else s
  (((s1.setRootFlag k rfBusy false).setRootFlag k rfDone false).setRootFlag k rfConv false).setRoot k 0x18 4 0

end Sys2Proof.Machine
end

