-- ==== Sys2Proof/Machine/Stash.lean ====
section
/-! DEFINITION. Machine/Stash.lean: the activation stash (R236 to R244): plan records, stacks, allocation and release. -/
namespace Sys2Proof.Machine

/-! ### Plan records (R237) -/

def State.stashAddr (s : State) (e : Nat) : Nat := s.reg64 pSTP R.STP_STASH_PLAN_LO + 64 * e
def State.stashCount (s : State) : Nat := s.reg pSTP R.STP_STASH_ENTRIES % 2 ^ 16
def State.stashF (s : State) (e off n : Nat) : Nat := s.devLe (s.stashAddr e + off) n
def State.stashSize (s : State) (e : Nat) : Nat := s.stashF e 0 2
def State.stashDist (s : State) (e : Nat) : Nat := s.stashF e 2 1 % 8
def State.stashValid (s : State) (e : Nat) : Bool := decide (e < s.stashCount) && bit (s.stashF e 3 1) 0
def State.stashRelease (s : State) (e : Nat) : Nat := s.stashF e 4 2
/-- Offset of ST and BASE of a parity. -/
def stOff (par : Nat) : Nat := if par % 2 = 0 then 0x08 else 0x18
def State.stashSt (s : State) (e par : Nat) : Nat := s.stashF e (stOff par) 4
def State.setStashSt (s : State) (e par v : Nat) : State := s.devPut (s.stashAddr e + stOff par) 4 v
def stWhere (v : Nat) : Nat := v % 4
def stFreed (v : Nat) : Bool := bit v 2
def stReads (v : Nat) : Nat := bits v 31 16
def State.stashBase (s : State) (e par : Nat) : Nat := s.stashF e (stOff par + 8) 8

/-! ### Stacks (R238, R240) -/

/-- Register offset of stack k's BASE_LO: 0 to 5 near, 6 far, 7 host. -/
def stackReg (k : Nat) : Nat := if k < 6 then R.STP_STASH_NEAR_BASE_LO + 0x10 * k else if k = 6 then R.STP_STASH_FAR_BASE_LO
  else R.STP_STASH_HOST_BASE_LO
def State.stack (s : State) (k : Nat) : List StashSlot := sget [] s.stashStacks k
def stackTop (l : List StashSlot) : Nat := sumNat (l.map (·.size))

/-- A stack replaced, USED following its top. -/
def State.setStack (s : State) (k : Nat) (l : List StashSlot) : State :=
  ({ s with stashStacks := sset [] s.stashStacks k l }).setReg pSTP (stackReg k + 12) (stackTop l)

/-- Freed places at a stack's top fall away. -/
def trimStack (l : List StashSlot) : List StashSlot := (l.reverse.dropWhile (·.freed)).reverse

/-- WHERE of a stack. -/
def stackWhere (k : Nat) : Nat := if k < 6 then 1 else if k = 6 then 2 else 3

/-- A stack has room for n units. -/
def State.stackRoom (s : State) (k n : Nat) : Bool :=
  decide (stackTop (s.stack k) + n ≤ s.reg pSTP (stackReg k + 8) % 2 ^ 26)

/-- An entry allocated on a stack. -/
def State.allocOn (s : State) (k e par : Nat) : State :=
  let n := s.stashSize e
  let l := s.stack k
  let base := s.reg64 pSTP (stackReg k) + stackTop l * 65536
  let s1 := s.setStack k (l ++ [⟨e, par % 2, n, false⟩])
  (s1.setStashSt e par (stackWhere k)).devPut (s1.stashAddr e + stOff par + 8) 8 base

/-- The stack a new entry goes to (R238, R239): near, far, then under SPILL_HOST the host's; none where none has room. -/
def State.stackFor (s : State) (e : Nat) : Option Nat :=
  let n := s.stashSize e
  let d := s.stashDist e
  if d < 6 ∧ s.stackRoom d n = true then some d
  else if s.stackRoom 6 n then some 6
  else if bit (s.reg pSTP R.STP_STASH_CTL) 1 = true ∧ s.stackRoom 7 n = true then some 7
  else none

/-- Neither near nor far has room: STASH_FULL (R239). -/
def State.stashFull (s : State) (e tag : Nat) : State :=
  ((s.bump pSTP R.STP_STASH_FULL_COUNT 1).raise pSTP 5 (e % 2 ^ 15) tag).orReg pSTP R.STP_STASH_STS 1

/-- What the first write to an entry finds (R238, R239). -/
inductive StashAlloc where
  | ok (s : State)
  /-- No room: the step is squashed with reason STASH. -/
  | full (s : State)

/-- An entry allocated for its first write (R238, R239). -/
def State.stashAlloc (s : State) (e tag : Nat) : StashAlloc :=
  match s.stackFor e with
  | some 7 => .ok (((s.stashFull e tag).setFld pSTP R.STP_STASH_STS 0 0 0).allocOn 7 e tag)
  | some k => .ok (s.allocOn k e tag)
  | none =>
    let s1 := s.stashFull e tag
    let s2 := if bit (s.reg pSTP R.STP_STASH_CTL) 1 then s1.orReg pSTP R.STP_STASH_STS 4 else s1
    .full (s2.cause vbStash)

/-- An entry of a parity is freed in its stacks. -/
def State.freeSlots (s : State) (hit : StashSlot → Bool) : State :=
  (List.range 8).foldl (fun a k =>
    let l := (a.stack k).map fun x => if hit x then { x with freed := true } else x
    a.setStack k (trimStack l)) s

/-- READS has reached RELEASE: the entry is freed within its step (R240). -/
def State.releaseEntry (s : State) (e par : Nat) : State :=
  (s.freeSlots fun x => x.entry == e && x.par == par % 2).setStashSt e par (4 + bits (s.stashSt e par) 31 16 * 2 ^ 16)

/-- A reading MOV has retired (R240). -/
def State.stashRead (s : State) (e par : Nat) : State :=
  let v := s.stashSt e par
  let n := (stReads v + 1) % 2 ^ 16
  let s1 := s.setStashSt e par (setBits v 31 16 n)
  if s.stashRelease e ≠ 0 ∧ n = s.stashRelease e then s1.releaseEntry e par else s1

/-- A record the step controller cannot reach: unmapped, off or poisoned (R572). -/
def State.ctlBad (s : State) (a n : Nat) : Bool := !s.reachable (s.pagePart pSTP) a n

/-- Poison met there is reported by its controller (R314). -/
def State.ctlPoison (s : State) (a n : Nat) : State :=
  if s.maps (s.pagePart pSTP) a n false && !s.anyGranule a n State.targetOff then s.badLine a 0xFFFF false else s

/-- RECORD_FAULT: from COMMIT step 2 on and in SQUASH a record is passed over (R572). -/
def State.overRec (s : State) (a n : Nat) (f : State → State) : State :=
  if s.ctlBad a n then (s.ctlPoison a n).raise pSTP 13 a (a / 2 ^ 32) else f s

/-- Every stash entry of a parity is freed, ready for the parity's next step (R240). -/
def State.freeStash (s : State) (par : Nat) : State :=
  let s1 := s.freeSlots fun x => x.par == par % 2
  if bit (s.reg pSTP R.STP_STASH_CTL) 0 = false then s1
  else
    let s2 := (List.range s.stashCount).foldl (fun a e =>
      a.overRec (a.stashAddr e) 64 fun b => if b.stashSt e par = 0 then b else b.setStashSt e par 0) s1
    s2.setFld pSTP R.STP_STASH_STS 0 0 0

end Sys2Proof.Machine
end

