-- ==== Sys2Proof/Machine/StepCtl.lean ====
section
/-! DEFINITION. Machine/StepCtl.lean: the step controller (R279 to R302, R571, R572): phases, losses and excision, CHECK, the
verdict and the vote, restage, COMMIT, squash, and the delivery of counter signals. -/
namespace Sys2Proof.Machine

/-! ### Registers -/

def State.stpReg (s : State) (off : Nat) : Nat := s.reg pSTP off
def State.stpRuns (s : State) : Bool := s.blockRuns pSTP && s.stpEn
def State.cfg (s : State) (hi lo : Nat) : Nat := s.fld pSTP R.STP_CFG hi lo
def State.runAhead (s : State) : Bool := s.cfg 6 0 != 0
def State.voteEn (s : State) : Bool := bit (s.stpReg R.STP_VOTE_CTL) 16
def State.voting (s : State) : Bool := bit (s.stpReg R.STP_STS) 6
def State.updPend (s : State) : Bool := bit (s.stpReg R.STP_STS) 5
def State.excisedN (s : State) : Nat := s.fld pSTP R.STP_MB_STS 21 11
def State.modStep (s : State) (f : StepState → StepState) : State := { s with step := f s.step }

/-- Counter of a code for a tag (R281). -/
def stpCtr (tag code : Nat) : Nat := 8 * (tag % 2) + code
def State.stpEvc (s : State) (tag code : Nat) : Nat := s.stpReg (R.STP_EVC + 4 * stpCtr tag code)

/-- STP_MB_COUNT as it acts. -/
def mbCount (v : Nat) : Nat := let c := v % 2 ^ 11; if c = 0 ∨ 1024 < c then 1024 else c

/-- Micro-batches kept. -/
def State.kept (s : State) : Nat := s.step.b - s.excisedN

/-- FWD is entered: the targets and B are latched (R282). -/
def State.enterFwd (s : State) : State :=
  let t := fun off => s.stpReg off % 2 ^ 24
  let st := { s.step with
    b := mbCount (s.stpReg R.STP_MB_COUNT), tgtFwd := t R.STP_TGT_FWD, tgtBwdi := t R.STP_TGT_BWDI, tgtBwdw := t R.STP_TGT_BWDW,
    tgtGather := t R.STP_TGT_GATHER, tgtRed := t R.STP_TGT_RED, tgtUpd := t R.STP_TGT_UPD,
    provisional := none, tokens := 0, sloc := 0, localBits := 0, gmul := 0, restaging := false, stagedFault := false,
    commitHeld := false, verdictAt := 0 }
  ({ s with step := st }).setPhase phFwd

/-- The signal to the producer (R292, R296). -/
def State.stpSignal (s : State) : State :=
  let v := s.stpReg R.STP_SIG
  if bit v 15 then s.blockSignal (s.pagePart pSTP) pSTP (v % 2 ^ 11) (bits v 14 11) 1 else s

/-- Tiles that have power, as the controller's broadcasts reach them. -/
def State.eachTile (s : State) (f : State → Nat → State) : State := s.liveTiles.foldl f s

/-- Numeric flags of a tag's parity cleared in every tile (R65). -/
def State.clearNumFlags (s : State) (tag : Nat) : State :=
  s.eachTile fun a t => a.setFld (a.siteOf t) R.TIL_NUM_FLAGS (8 * (tag % 2) + 7) (8 * (tag % 2)) 0

/-- Any tile has one of the numeric flags of a parity, given by its offset within the set (R65). -/
def State.numFlag (s : State) (tag off : Nat) : Option Nat :=
  s.liveTiles.find? fun t => bit (s.reg (s.siteOf t) R.TIL_NUM_FLAGS) (8 * (tag % 2) + off)

/-- Counters of a parity cleared, apart from code 5 where `keep5`. -/
def State.clearEvc (s : State) (tag : Nat) (keep5 : Bool) : State :=
  (List.range 8).foldl (fun a c =>
    if keep5 && c == 5 then a else a.setReg pSTP (R.STP_EVC + 4 * stpCtr tag c) 0) s

/-- The excise map and DECIDED cleared (R286). -/
def State.clearMap (s : State) : State :=
  ((List.range 32).foldl (fun a w => a.setReg pSTP (R.STP_EXCISE_MAP + 4 * w) 0) s).setReg pSTP R.STP_MB_STS 0

/-- Device addresses of the records of STP_TREC_BASE, and of a record's history. -/
def State.trecs (s : State) : List Nat :=
  (List.range (s.stpReg R.STP_TREC_COUNT % 2 ^ 16)).map fun i => s.reg64 pSTP R.STP_TREC_BASE_LO + 64 * i
def State.shards (s : State) : List Nat := (List.range s.shardCount).map s.shardAddr

/-- STG_VALID cleared in every shard record (R268, R269). -/
def State.clearStaged (s : State) : State :=
  (s.shards.foldl (fun a r => a.overRec r 128 fun b =>
    let v := b.devLe (r + 2) 1
    if bit v 1 then b.devPut (r + 2) 1 (setBit v 1 false) else b) s).modStep fun x => { x with covered := [] }

/-! ### Losses and excision (R285 to R287) -/

/-- Micro-batch j is excised (R286). -/
def State.excise (s : State) (j : Nat) : State :=
  let s1 := s.orReg pSTP (R.STP_EXCISE_MAP + 4 * (j / 32)) (2 ^ (j % 32))
  let s2 := s1.eachTile fun a t => (a.setFld (a.siteOf t) R.TIL_EXCISE_MB 19 0 j).exciseTile t
  let n := s2.excisedN + 1
  let s3 := ((s2.notice pSTP 2 j).bump pSTP R.STP_EXCISE_COUNT 1).setFld pSTP R.STP_MB_STS 21 11 n
  if s3.cfg 15 12 < n then s3.cause vbExciseLimit else s3

/-- One increment of counter 7: micro-batch DECIDED is decided (R286, R287, R572). -/
def State.decide1 (s : State) : State :=
  let j := s.decided
  let a := s.reg64 pSTP R.STP_LOSS_BASE_LO + 16 * j
  if s.stpRuns = false ∨ s.phase = phIdle ∨ s.phase = phSquash ∨ s.step.b ≤ j then s
  else if s.ctlBad a 16 then (s.ctlPoison a 16).cause vbStepErr
  else
    let tag := s.devLe (a + 8) 4
    let loss := fp32 (s.devLe a 4)
    if tag ≠ s.openStep then (s.raise pSTP 11 j tag).cause vbLossErr
    else if loss.isFin then
      (s.modStep fun x => { x with tokens := x.tokens + s.devLe (a + 4) 4 }).setFld pSTP R.STP_MB_STS 10 0 (j + 1)
    else if bit (s.stpReg R.STP_CTL) 4 then
      let s1 := s.excise j
      if s1.phase = phSquash then s1 else s1.setFld pSTP R.STP_MB_STS 10 0 (j + 1)
    else s.cause vbLossLate

def State.decideN : Nat → State → State
  | 0, s => s
  | n + 1, s => (s.decide1).decideN n

/-- The decisions that are due: one for each increment of counter 7 of the open step's parity, those of its run-ahead
work among them (R286). -/
def State.decideDue (s : State) : State := s.decideN (min (s.stpEvc s.openStep 7 - s.decided) 1024)

/-- FWD of the open step is entered, and the loss records already signalled are decided (R282, R286). -/
def State.beginFwd (s : State) : State := s.enterFwd.decideDue

/-! ### Writes of STP_CTL (R299, R301, R571) -/

/-- START from IDLE: the seed is broadcast, FWD is entered (R49, R282). -/
def State.stpStart (s : State) : State :=
  (s.modStep fun x => { x with seed := s.reg64 pSTP R.STP_JOB_SEED_LO }).beginFwd

/-- A write that clears EN (R571). -/
def State.stpClearEn (s : State) : State :=
  let ph := s.phase
  if ph = phIdle then s.setFld pSTP R.STP_CTL 0 0 0
  else
    let s1 := s.modStep fun x => { x with enCleared := true }
    if ph = phSquash ∨ ph = phCommit then s1 else s1.startSquash (2 ^ vbSoft)

/-- A write of STP_CTL (R301). -/
def stpCtlWrite (v : Nat) (s : State) : State :=
  let s0 := s.setFld pSTP R.STP_CTL 4 4 (b2n (bit v 4))
  let s1 :=
    if bit v 0 then s0.setFld pSTP R.STP_CTL 0 0 1
    else if s0.stpEn then s0.stpClearEn else s0
  if s1.stpEn = false ∨ bit v 0 = false then s1
  else
    let s2 := if bit v 1 && s1.phase == phIdle && s1.stpRuns then s1.stpStart else s1
    let s3 := if bit v 2 && s2.phase != phCommit then s2.cause vbSoft else s2
    if bit v 3 then s3.setStsBit 7 true else s3

/-- The bits of STP_CTL that a write of one command leaves as they are. -/
def State.stpKeep (s : State) : Nat := s.stpReg R.STP_CTL

/-- START (R283, R301). -/
def execStart (src : Src) (s : State) : Host.Outcome State Fault Refusal :=
  .next (s.onWrite src pSTP R.STP_CTL fun a => (stpCtlWrite (a.stpKeep ||| 2) a).drainCtl)

/-- SQUASH (R295, R301). -/
def execSquash (src : Src) (s : State) : Host.Outcome State Fault Refusal :=
  .next (s.onWrite src pSTP R.STP_CTL fun a => (stpCtlWrite (a.stpKeep ||| 4) a).drainCtl)

/-- STOP (R283, R301). -/
def execStop (src : Src) (s : State) : Host.Outcome State Fault Refusal :=
  .next (s.onWrite src pSTP R.STP_CTL fun a => stpCtlWrite (a.stpKeep ||| 8) a)

/-- STP_EN_CLEAR (R571). -/
def execStpEnClear (src : Src) (s : State) : Host.Outcome State Fault Refusal :=
  .next (s.onWrite src pSTP R.STP_CTL fun a => (stpCtlWrite (setBit a.stpKeep 0 false) a).drainCtl)

/-- A signal reaches its target (R90, R107, R281, R286). -/
def State.deliver (s : State) (m : SigMsg) : State :=
  let s0 := { s with signals := s.signals.erase m }
  if m.target = 0x700 then
    if s0.pageOn pSTP = false then s0
    else
      let s1 := s0.addCtr 0x700 m.ctr m.inc
      if m.ctr % 16 = stpCtr s1.openStep 7 then s1.decideDue else s1
  else if s0.siteOn m.site then s0.wrapAdd m.site (R.TIL_EVC + 4 * (m.ctr % 16)) m.inc
  else s0

/-- SIGNAL_ARRIVAL (R90, R102): the oldest signal of a sender to a target arrives. -/
def execSignalArrival (sender target : Nat) (s : State) : Host.Outcome State Fault Refusal :=
  .next (if s.live = false then s
    else
      match s.signals.find? fun m => m.sender == sender && m.target == target with
      | some m => (s.deliver m).drainCtl
      | none => s)

/-! ### Phases (R282 to R284) -/

/-- PHASE_END (R282, R283). -/
def execPhaseEnd (s : State) : Host.Outcome State Fault Refusal :=
  .next (
    let n := s.openStep
    let st := s.step
    let k := s.kept
    if s.stpRuns = false then s
    else if s.phase = phFwd then
      (if s.decided < st.b ∧ s.decided < s.stpEvc n 7 then s.decideDue.drainCtl
       else if st.b * st.tgtFwd ≤ s.stpEvc n 1 ∧ s.decided = st.b then s.setPhase phBwdI else s)
    else if s.phase = phBwdI then (if k * st.tgtBwdi ≤ s.stpEvc n 2 then s.setPhase phBwdW else s)
    else if s.phase = phBwdW then (if k * st.tgtBwdw + st.tgtGather ≤ s.stpEvc n 3 then s.setPhase phReduce else s)
    else s)

/-- UPDATE_COMPLETE (R282 to R284): UPDATE of step n − 1 has ended. -/
def execUpdateComplete (s : State) : Host.Outcome State Fault Refusal :=
  .next (
    let n := s.openStep
    if s.blockRuns pSTP = false ∨ s.updPend = false ∨ s.stpEvc n 5 < s.step.updTgt then s
    else ((s.setGmv (n + 1) false).setStsBit 5 false).setReg pSTP (R.STP_EVC + 4 * stpCtr n 5) 0)

/-! ### CHECK (R288) -/

/-- S_loc: the W36 sum of the norm slots in ascending order, rounded to FP32. -/
def State.normSum (s : State) : Nat :=
  let n := s.stpReg R.STP_NORM_SLOTS % 2 ^ 16
  let a := s.reg64 pSTP R.STP_NORM_BASE_LO
  toFp32 ((List.range n).foldl (fun acc i => w36Add acc (fp32 (s.devLe (a + 4 * i) 4))) Fp.zero)

/-- rne32(rs / rne32(float(d))) (R290). -/
def State.mulOf (s : State) (d : Nat) : Fp := f32Div (fp32 (s.stpReg R.STP_RESCALE)) (rne32 (Fp.ofNat d))

/-- Every structure that CHECK reads can be read (R572). -/
def State.checkReach (s : State) : Option (Nat × Nat) :=
  let recs := s.trecs
  let hist := recs.filterMap fun a =>
    if s.ctlBad a 64 || !s.hasFmtMax a then none else some (s.recLe a 0x30 8, 128)
  let norm := (s.reg64 pSTP R.STP_NORM_BASE_LO, 4 * (s.stpReg R.STP_NORM_SLOTS % 2 ^ 16))
  ((recs.map fun a => (a, 64)) ++ hist ++ (if norm.2 = 0 then [] else [norm])).find? fun p => s.ctlBad p.1 p.2

/-- CHECK opens for step n: the counters are published, scales staged and the local sum taken; with run-ahead the provisional
multiplier is written (R288, R289, R291). -/
def State.openCheck (s : State) (n : Nat) : State :=
  let s1 := s.gateLedger
  let s2 := (((s1.setReg pSTP R.STP_CL_EXPECTED s1.step.clExp).setReg pSTP R.STP_CL_INCLUDED s1.step.clInc).setReg pSTP
    R.STP_CL_DEFERRED s1.step.clDef).setReg pSTP R.STP_CL_DROPPED s1.step.clDrop
  let s3 := (s2.trecs.foldl (fun x a => x.stageScale a (n % 2)) s2)
  let s4 := (s3.modStep fun x => { x with sloc := s3.normSum }).setPhase phCheck
  if s4.runAhead then
    let g := toFp32 (s4.mulOf (max 1 (s4.stpReg R.STP_NORM_EXPECT)))
    ((s4.modStep fun x => { x with provisional := some g }).writeGmul n g).setStsBit 4 true
  else s4

/-- CHECK_OPEN (R283, R284, R288). -/
def execCheckOpen (s : State) : Host.Outcome State Fault Refusal :=
  .next (
    let n := s.openStep
    if s.stpRuns = false ∨ s.phase ≠ phReduce ∨ s.stpEvc n 4 < s.step.tgtRed ∨ s.updPend = true then s
    else
      match s.checkReach with
      | some (a, m) => ((s.ctlPoison a m).cause vbStepErr).drainCtl
      | none =>
        s.openCheck n)

/-! ### The verdict (R289 to R291) -/

/-- A capture holds the local verdict back (R419, R421). -/
def State.ckpReading (s : State) : Bool :=
  let sts := s.reg pCKP R.CKP_STS
  s.ckp.due.isSome || bit sts 0 || (bit sts 1 && !bit (s.reg pCKP R.CKP_CTL) 1)

/-- A capture delays the verdict (R419). -/
def State.ckpLate (s : State) : State :=
  if s.ckp.late then s else { (s.notice pCKP 2) with ckp := { s.ckp with late := true } }

/-- Reason bits of the local verdict (R289). -/
def State.localReasons (s : State) : Nat :=
  let n := s.openStep
  let rf := bits (s.reg pGATS R.GAT_RED_FLAGS) (3 * (n % 2) + 2) (3 * (n % 2))
  let nan := (s.numFlag n 2).isSome || bit rf 0
  let inf := (s.numFlag n 3).isSome || bit rf 1
  let fwd := s.cfg 18 18 == 1 && ((s.numFlag n 0).isSome || (s.numFlag n 1).isSome)
  let st := s.step
  let led := st.clExp != st.clInc + st.clDef + st.clDrop
  let sl := fp32 st.sloc
  let bad := !sl.isFin || sl.lt Fp.zero
  b2n nan * 2 ^ vbNanGrad + b2n inf * 2 ^ vbInfGrad + b2n fwd * 2 ^ vbFwdFlags + b2n (bit rf 2) * 2 ^ vbStepSkew +
  b2n led * 2 ^ vbLedger + b2n bad * 2 ^ vbNormNan

/-- D_loc (R290). -/
def State.dLoc (s : State) : Nat := if s.cfg 16 16 = 1 then s.step.tokens else s.kept

/-- The local verdict on step n: its reasons are raised and kept, and the module votes where voting is on (R290, R405). -/
def State.giveVerdict (s : State) (n : Nat) : State :=
  let v := s.localReasons
  let st := s.step
  let s1 := if bit v vbStepSkew then s.raise pSTP 7 (s.reg pGATS R.GAT_SKEW_GROUP) else s
  let s2 := if bit v vbLedger then
      s1.raise pSTP 8 n (min 255 st.clExp + min 255 st.clInc * 2 ^ 8 + min 255 st.clDef * 2 ^ 16 + min 255 st.clDrop * 2 ^ 24)
    else s1
  let s3 := (s2.modStep fun x => { x with localBits := v, verdictAt := s.mt }).setStsBit 6 true
  let rec_ : VoteRec := ⟨n, s.attempt, v, st.sloc, s.dLoc, 1, 0⟩
  if s3.voteEn then { s3 with ctlOut := s3.ctlOut ++ [.vote rec_] } else s3

/-- LOCAL_VERDICT (R289, R290, R419): the verdict is formed and the vote record sent. -/
def execLocalVerdict (s : State) : Host.Outcome State Fault Refusal :=
  .next (
    let n := s.openStep
    if s.stpRuns = false ∨ s.phase ≠ phCheck ∨ s.voting = true ∨ s.step.commitHeld = true ∨ s.tagDrained n = false then s
    else if s.ckpReading then s.ckpLate
    else
      (s.giveVerdict n).drainCtl)

/-- What a verdict of squash does: the reasons become STP_VERDICT (R290, R296). -/
def State.verdictSquash (s : State) (v : Nat) : State := s.startSquash v

/-- The numbers of R290: norm and multiplier, the reasons that arise from them, and whether the gradient is clipped. -/
def State.verdictMath (s : State) (d ssum : Nat) : Fp × Fp × Nat × Bool :=
  if d = 0 then (Fp.zero, Fp.zero, 2 ^ vbEmpty, false)
  else
    let p := s.mulOf d
    let sq := fp32 (if s.cfg 17 17 = 1 then ssum else s.step.sloc)
    let norm := f32Mul (f32Sqrt sq) p
    let clip := fp32 (s.stpReg R.STP_CLIP_NORM)
    if norm.isFin = false then (norm, Fp.zero, 2 ^ vbNormNan, false)
    else if clip.lt norm then
      if s.cfg 8 8 = 1 then (norm, Fp.zero, 2 ^ vbClip, false)
      else (norm, f32Mul p (f32Div clip norm), 0, true)
    else (norm, f32Mul p Fp.one, 0, false)

/-- COMMIT begins, unless a fatal error is pending: then the step waits in CHECK (R433). -/
def State.toCommit (s : State) : State :=
  if s.fatalPend then (s.setPhase phCheck).modStep fun x => { x with commitHeld := true } else s.setPhase phCommit

/-- Outcome of a vote with no reason: norm, multiplier, then restage or COMMIT (R290, R292). -/
def State.verdictCommit (s : State) (d ssum : Nat) : State :=
  let (norm, g, why, clipped) := s.verdictMath d ssum
  let s1 := if why = 2 ^ vbEmpty then s else s.setReg pSTP R.STP_NORM (toFp32 norm)
  if why ≠ 0 then s1.verdictSquash why
  else
    let gb := toFp32 g
    let s2 := ((if clipped then s1.bump pSTP R.STP_CLIP_COUNT 1 else s1).setReg pSTP R.STP_GMUL gb).modStep fun x => { x with gmul := gb }
    let s3 := s2.setStsBit 6 false
    match s3.step.provisional with
    | some q =>
      if s3.runAhead = true ∧ q ≠ gb then
        -- restage, steps 1 and 2 of R292
        let n := s3.openStep
        (((s3.setPhase phRestage).setStsBit 4 false).setGmv n false).modStep (fun x => { x with restaging := true })
          |>.flushAll ((n + 1) % 2 ^ 32)
      else s3.toCommit
    | none => s3.toCommit

/-- VOTE_RESULT (R290, R410): the vote's outcome, passed on down the control tree. -/
def execVoteResult (rec : VoteRec) (s : State) : Host.Outcome State Fault Refusal :=
  .next (
    if s.stpRuns = false ∨ s.phase ≠ phCheck ∨ s.voting = false then s
    else if s.voteEn = false then
      (if s.step.localBits ≠ 0 then (s.verdictSquash s.step.localBits).drainCtl
       else (s.verdictCommit s.dLoc s.step.sloc).drainCtl)
    else if rec.stepTag ≠ s.openStep ∨ rec.attempt ≠ s.attempt ∨
        (s.isCoord = true ∧ s.gate.formed ≠ some rec) then s
    else
      let s1 := if s.isCoord then s else s.ctlDown (.voteResult rec)
      let mine := if s.excused then 0 else s.step.localBits
      let remote := rec.reasons &&& (2 ^ 32 - 1 - mine % 2 ^ 32)
      if rec.reasons ≠ 0 then
        (s1.verdictSquash (rec.reasons ||| (if remote ≠ 0 then 2 ^ vbRemote else 0))).drainCtl
      else (s1.verdictCommit rec.d rec.sloc).drainCtl)

/-- VOTE_TIMEOUT (R291). -/
def execVoteTimeout (s : State) : Host.Outcome State Fault Refusal :=
  .next (
    let us := s.stpReg R.STP_VOTE_WAIT % 2 ^ 16
    if s.stpRuns = false ∨ s.phase ≠ phCheck ∨ s.voting = false ∨ s.voteEn = false ∨ us = 0 ∨
        s.mt < s.step.verdictAt + us * 1000 then s
    else ((s.raise pSTP 9 s.openStep).cause vbVoteTimeout).drainCtl)

/-! ### The end of a flush: squash and restage (R292, R296) -/

/-- Where a squash or COMMIT ends while EN was being cleared (R571). -/
def State.toIdle (s : State) : State :=
  ((s.setPhase phIdle).setFld pSTP R.STP_CTL 0 0 0).modStep fun x => { x with enCleared := false }

/-- The rest of a squash, once every tile has flushed (R296). -/
def State.finishSquash (s : State) : State :=
  let n := s.openStep
  let s1 := s.drainCtl.gateSquash n
  let s2 := s1.trecs.foldl (fun x a => x.overRec a 64 fun y => y.squashScale a) s1
  let s3 := (s2.clearNumFlags n).clearNumFlags (n + 1)
  let s4 := ((s3.clearStaged).freeStash 0).freeStash 1
  let s5 := s4.eachTile fun a t => a.invalStats (a.siteOf t)
  let s6 := ((s5.clearMap).clearEvc n true).clearEvc (n + 1) false
  let s7 := if s6.cfg 9 9 = 0 then s6.rewindAll n else (List.range 256).foldl (fun a k => a.skipStream k n) s6
  let s8 := (s7.bump pSTP R.STP_SQUASH_COUNT 1).setFld pSTP R.STP_STS 15 8 (stick (s7.fld pSTP R.STP_STS 15 8 + 1) 8)
  let s9 := (s8.notice pSTP 1 (s8.stpReg R.STP_VERDICT)).stpSignal
  if s9.step.enCleared then s9.toIdle else s9.beginFwd

/-- The rest of a restage (R292). -/
def State.finishRestage (s : State) : State :=
  let n := s.openStep
  let m := (n + 1) % 2 ^ 32
  let bad := s.checkReach
  match bad with
  | some (a, k) => (s.ctlPoison a k).cause vbStepErr
  | none =>
    let s1 := s.trecs.foldl (fun x a => x.restageScale a (m % 2)) s
    let s2 := (s1.clearNumFlags m).clearStaged
    let s3 := (s2.freeStash m).rewindAll m
    let s4 := s3.eachTile fun a t => a.invalStats (a.siteOf t)
    let s5 := (s4.clearEvc m false).writeGmul n s4.step.gmul
    let s6 := ((s5.notice pSTP 3 n).bump pSTP R.STP_RESTAGE_COUNT 1).stpSignal
    ((s6.setStsBit 4 true).modStep fun x => { x with restaging := false, stagedFault := false, provisional := some x.gmul }).toCommit

/-- FLUSH_COMPLETE (R292, R296): every tile reports its flush complete. -/
def execFlushComplete (s : State) : Host.Outcome State Fault Refusal :=
  .next (
    if s.blockRuns pSTP = false ∨ s.flushDone = false then s
    else if s.phase = phSquash then s.finishSquash.drainCtl
    else if s.phase = phRestage then s.finishRestage.drainCtl
    else s)

/-! ### COMMIT (R293) -/

/-- A UPD with STAGE = 1 and a tag is held by a sequencer (R268). -/
def State.stagedHeld (s : State) (tag : Nat) : Bool :=
  let mine := fun d => dKind d == 8 && updStage d && dTag d == tag
  s.liveTiles.any fun t =>
    let site := s.siteOf t
    ((s.unretired site).any fun p => mine (s.descAt site p)) || (s.tile site).running.any fun r => mine r.desc

/-- Group records whose FROZEN flag is 0. -/
def State.liveGroups (s : State) : List Nat := (List.range 4096).filter fun g => !grFlag (s.groupRec g) 2

/-- Roots that fall due when a group's STEP becomes u. -/
def State.rootsDue (s : State) (g u : Nat) : List Nat := (List.range s.rootCount).filter fun k => s.rootDue k g u

/-- Every root that this COMMIT swaps is DONE (R275). -/
def State.rootsReady (s : State) : Bool :=
  (List.range s.rootCount).all fun k =>
    let g := s.rootF k 6 2 % 2 ^ 12
    !(s.rootFlag k rfBusy && !grFlag (s.groupRec g) 2 && s.rootDue k g ((grStep (s.groupRec g) + 1) % 2 ^ 32)) ||
    s.rootFlag k rfDone

/-- Step 1 of COMMIT finds a reason to squash instead: a staged fault, or NaN or infinity of staged work. -/
def State.commitStop (s : State) : Option State :=
  let n := s.openStep
  if s.step.stagedFault then some (s.cause vbStepErr)
  else
    match s.numFlag (n + 1) 4, s.numFlag (n + 1) 5 with
    | none, none => none
    | a, b =>
      let t := match a, b with
        | some x, some y => min x y
        | some x, none => x
        | none, some y => y
        | none, none => 0
      some ((s.raise pSTP 10 ((n + 1) % 2 ^ 32) t true).cause vbUpdateNan)

/-- Step 2: scale histories, and the silence watch (R58, R298). -/
def State.commitScales (s : State) (n : Nat) : State :=
  let lim := s.stpReg R.STP_SILENCE % 2 ^ 16
  s.trecs.foldl (fun x a => x.overRec a 64 fun y =>
    y.overRec (y.recLe a 0x30 8) 128 fun z =>
      let (w, streak) := z.commitScale a (n % 2)
      match streak with
      | some k => if lim ≠ 0 ∧ k ≠ 0 ∧ k % lim = 0 then w.raise pSTP 4 (w.recLe a 0 4) k else w
      | none => w) s

/-- Ranges (first, count) that cover the elements 0 to n − 1 exactly once. -/
def coversOnce (n : Nat) (l : List (Nat × Nat)) : Bool :=
  sumNat (l.map (·.2)) == n && (l.all fun a => decide (a.1 + a.2 ≤ n)) &&
  decide (l.Pairwise fun a b => a.1 + a.2 ≤ b.1 ∨ b.1 + b.2 ≤ a.1)

/-- n bytes from a device address on take free values. -/
def State.freeDev (a : Nat) : Nat → State → State
  | 0, s => s
  | n + 1, s =>
    let (f, s1) := s.fresh
    (s1.devPut a 1 (Sys2Proof.Config.freeNat f % 256)).freeDev (a + 1) n

/-- A shard whose staged UPDs did not cover every element exactly once: its new side is undefined (R267). -/
def State.undefShard (s : State) (i : Nat) : State :=
  let r := s.shardRec i
  if coversOnce (shNelem r) ((s.step.covered.filter fun e => e.1 == i).map (·.2)) then s
  else (stateArrays (shNelem r) (s.hasM2 (s.groupRec (shGroup r)))).foldl (fun a p =>
    a.freeDev (shState r (1 - shSide r) + p.1) (p.2 * shNelem r)) s

/-- Step 3: sides flip (R268). -/
def State.flipSides (s : State) : State :=
  ((List.range s.shardCount).foldl (fun a i => a.overRec (a.shardAddr i) 128 fun b =>
    let r := b.shardAddr i
    let v := b.devLe (r + 2) 1
    if bit v 1 then (b.undefShard i).devPut (r + 2) 1 (setBit (setBit v 1 false) 0 (!bit v 0)) else b) s).modStep fun x =>
      { x with covered := [] }

/-- Step 4: roots swap and group counters advance (R263, R275). -/
def State.bumpGroups (s : State) : State :=
  (List.range 4096).foldl (fun a g => a.overRec (a.groupAddr g) 64 fun b =>
    if grFlag (b.groupRec g) 2 then b
    else
      let u := (grStep (b.groupRec g) + 1) % 2 ^ 32
      ((b.rootsDue g u).foldl (fun x k => x.rootSwap k) b).devPut (b.groupAddr g + 4) 4 u) s

/-- A capture falls due after this COMMIT (R419). -/
def State.ckpCommit (s : State) (n : Nat) : State :=
  let iv := s.reg pCKP R.CKP_INTERVAL % 2 ^ 24
  let hit := (iv != 0 && (n + 1) % iv == 0) || bit (s.reg pCKP R.CKP_STS) 4
  if bit (s.reg pCKP R.CKP_CTL) 0 && hit && s.pageOn pCKP then
    { s with ckp := { s.ckp with due := some n, late := false } }
  else s

/-- At the COMMIT that ends a step for an orphaned partition, its streams stop (R468). -/
def State.orphanStreams (s : State) (stop : Bool) : State :=
  if stop && s.step.orphanStop then
    ((List.range 256).foldl (fun a k =>
      if a.pagePart (pINGS k) = a.pagePart pSTP then a.setFld (pINGS k) R.ING_STR_CTL 0 0 0 else a) s).modStep fun x =>
        { x with orphanStop := false }
  else s

/-- Steps 2 to 7 of COMMIT (R293). -/
def State.doCommit (s : State) : State :=
  let n := s.openStep
  let m := (n + 1) % 2 ^ 32
  let s1 := if s.runAhead then s else s.writeGmul n s.step.gmul
  let s2 := ((s1.commitScales n).flipSides).bumpGroups
  let s3 := (s2.freeStash n).clearNumFlags n
  let ex := fun j => s3.excisedBit j
  let s4 := (s3.clearMap).clearEvc n true
  let s5 := (List.range 256).foldl (fun a k => a.commitStream k n fun mb => !ex mb) s4
  let s6 := (s5.setReg pSTP R.STP_LAST_COMMIT n).setReg pSTP R.STP_OPEN_STEP m
  let s7 := ((s6.setStsBit 4 false).setStsBit 5 true).setFld pSTP R.STP_STS 15 8 0
  let s8 := ((s7.notice pSTP 0 n).bump pSTP R.STP_COMMIT_COUNT 1).gateCommit n
  let s9 := (s8.ckpCommit n).modStep fun x => { x with updTgt := x.tgtUpd }
  let stop := bit (s9.stpReg R.STP_STS) 7
  let s10 := (s9.setStsBit 7 false).orphanStreams stop
  if s10.step.enCleared then
    (if stop then s10.toIdle else s10.enterFwd.startSquash (2 ^ vbSoft))
  else if stop then s10.setPhase phIdle
  else s10.beginFwd

/-- COMMIT of a step whose phase is COMMIT: step 1 waits for the staged UPDs and the due roots (R293). -/
def State.tryCommit (s : State) : State :=
  if s.stagedHeld ((s.openStep + 1) % 2 ^ 32) then s
  else
    match s.commitStop with
    | some t => t.drainCtl
    | none => if s.rootsReady = false then s else s.doCommit.drainCtl

/-- COMMIT (R293, R433): a step that waits in CHECK begins it once no fatal error is pending. -/
def execCommit (s : State) : Host.Outcome State Fault Refusal :=
  .next (
    if s.blockRuns pSTP = false then s
    else if s.phase = phCommit then s.tryCommit
    else if s.phase = phCheck ∧ s.step.commitHeld = true ∧ s.fatalPend = false then
      ((s.setPhase phCommit).modStep fun x => { x with commitHeld := false }).tryCommit
    else s)

end Sys2Proof.Machine
end

