-- ==== Sys2Proof/Machine/Ckp.lean ====
section
/-! DEFINITION. Machine/Ckp.lean: checkpoints (R416 to R424, R439, R61): the manifest, the image and its layout, capture, buddy
send and restore; and the requests that blocks keep outstanding at other modules (R390). -/
namespace Sys2Proof.Machine

/-! ### Outstanding requests (R390, R463) -/

/-- A request's record joins the outstanding ones under the next number. -/
def State.addReq (s : State) (r : OutReq) : State :=
  { s with reqs := s.reqs ++ [{ r with id := s.nextReq, since := s.mt }], nextReq := s.nextReq + 1 }

def State.reqOf (s : State) (id : Nat) : Option OutReq := s.reqs.find? fun r => r.id == id
def State.dropReq (s : State) (id : Nat) : State := { s with reqs := s.reqs.filter fun r => r.id != id }
def State.dropReqs (s : State) (o : ReqOwner) : State := { s with reqs := s.reqs.filter fun r => r.owner != o }
def State.hasReqs (s : State) (o : ReqOwner) : Bool := s.reqs.any fun r => r.owner == o

/-! ### The manifest (R416, R417) -/

abbrev ckNospace : Nat := 1
abbrev ckWrite : Nat := 2
abbrev ckCrc : Nat := 3
abbrev ckHeader : Nat := 4
abbrev ckBusy : Nat := 5
abbrev ckAborted : Nat := 6
abbrev ckManifest : Nat := 7

def State.ckReg (s : State) (off : Nat) : Nat := s.reg pCKP off
def State.ckCtl (s : State) (i : Nat) : Bool := bit (s.ckReg R.CKP_CTL) i
def State.ckSts (s : State) (i : Nat) : Bool := bit (s.ckReg R.CKP_STS) i
def State.setCkSts (s : State) (i : Nat) (v : Bool) : State := s.setFld pCKP R.CKP_STS i i (b2n v)
def State.ckPart (s : State) : Nat := s.pagePart pCKP

/-- A manifest entry. -/
structure ManEntry where
  cls : Nat
  noBuddy : Bool
  count : Nat
  addr : Nat
  deriving DecidableEq, Repr

def State.manAddr (s : State) (i : Nat) : Nat := s.reg64 pCKP R.CKP_MANIFEST_BASE_LO + 32 * i
def State.manCount (s : State) : Nat := s.ckReg R.CKP_MANIFEST_COUNT % 2 ^ 9
def State.manEntry (s : State) (i : Nat) : ManEntry :=
  let a := s.manAddr i
  ⟨s.devLe a 1, bit (s.devLe (a + 1) 1) 0, s.devLe (a + 4) 4, s.devLe (a + 8) 8⟩
def State.manEntries (s : State) : List ManEntry := (List.range s.manCount).map s.manEntry

/-- Bytes of the state arrays of a shard record (R249). -/
def State.shardBytes (s : State) (r : Nat) : Nat := (if s.hasM2 (s.groupRec (shGroup r)) then 13 else 9) * shNelem r

/-- Address of tensor record i of STP_TREC_BASE. -/
def State.stpTrec (s : State) (i : Nat) : Nat := s.reg64 pSTP R.STP_TREC_BASE_LO + 64 * i

/-- The ranges whose bytes, one after another, are an entry's content (R417). -/
def State.entryRanges (s : State) (e : ManEntry) : List (Nat × Nat) :=
  let ks := (List.range e.count).map (e.addr + ·)
  match e.cls with
  | 1 => [(e.addr, 64 * e.count)]
  | 2 => ks.flatMap fun k =>
      let r := s.shardRec k
      [(s.shardAddr k, 128), (shState r (shSide r), s.shardBytes r)]
  | 3 => ks.flatMap fun k =>
      (s.stpTrec k, 64) :: (if s.ckCtl 6 then [(s.recLe (s.stpTrec k) 0x30 8, 128)] else [])
  | 4 => ks.flatMap fun k => [(s.rootAddr k, 64), (s.rootF k 0x20 8, 4 * s.rootN k * s.rootN k)]
  | _ => []

/-- A valid entry: a class, a count, and mapped ranges (R416). -/
def State.entryOk (s : State) (e : ManEntry) : Bool :=
  decide (1 ≤ e.cls) && decide (e.cls ≤ 4) && e.count != 0 &&
  (s.entryRanges e).all fun p => s.inMemory s.ckPart p.1 p.2 false

def State.manifestOk (s : State) : Bool :=
  decide (s.manCount ≤ 256) && s.reachable s.ckPart (s.manAddr 0) (32 * s.manCount) && s.manEntries.all s.entryOk

/-! ### The image (R422, R423) -/

/-- A segment: manifest entry (0xFFFF the control block), offset within its content, bytes. -/
structure Seg where
  entry : Nat
  ofs : Nat
  data : List Nat
  deriving DecidableEq, Repr

/-- The bytes of ranges as the engine reads them, and whether a bad line was met (R314). -/
def State.readAll (s : State) : List (Nat × Nat) → State × List Nat × Bool
  | [] => (s, [], false)
  | p :: r =>
    let (s1, l, bad) := s.devRead p.1 p.2 0xFFFF
    let (s2, l2, bad2) := (s1.farTouch 96 p.1 p.2).readAll r
    (s2, l ++ l2, bad.isSome || bad2)

/-- Bytes per segment. -/
def State.segBytes (s : State) : Nat := max 1 (s.ckReg R.CKP_SEG_SIZE % 2 ^ 12) * 65536

/-- Content cut into segments. -/
def cutSegs (entry n : Nat) (l : List Nat) : List Seg :=
  (chunksOf n l.length l).zipIdx.map fun p => ⟨entry, p.2 * n, p.1⟩

/-- One stream's part of the control block. -/
def State.streamBlock (s : State) (k : Nat) : List Nat :=
  let h := s.sreg k R.ING_STR_HEAD
  let empty := h == s.sreg k R.ING_STR_TAIL
  let a := s.unitAddr k h
  let x := s.str k
  leBytes h 4 ++ leBytes 0 4 ++ leBytes (if empty then 2 ^ 64 - 1 else s.devLe (a + 8) 8) 8 ++
  leBytes (if empty then 0 else s.devLe (a + 0x10) 4) 4 ++ leBytes 0 4 ++
  [x.taken, x.used, x.replaced, x.skipped, x.rewound + x.pending].flatMap fun v => leBytes v 8

/-- The control block (R423). -/
def State.controlBlock (s : State) (resume : Nat) : List Nat :=
  leBytes resume 4 ++ leBytes 0 4 ++ leBytes (s.reg64 pSTP R.STP_JOB_SEED_LO) 8 ++ leBytes 0 0x30 ++
  (List.range 256).flatMap s.streamBlock

/-- Where segments lie: each on the next 64 KiB boundary from `at_` on. -/
def placeSegs : Nat → List Seg → List (Nat × Seg)
  | _, [] => []
  | o, g :: r => (o, g) :: placeSegs (alignUp (o + g.data.length) 65536) r

def segPlaces (l : List Seg) : List (Nat × Seg) := placeSegs (alignUp (0x10000 + 32 * l.length) 65536) l

/-- The index (R423). -/
def indexBytes (l : List (Nat × Seg)) : List Nat :=
  l.flatMap fun p => leBytes p.2.entry 4 ++ leBytes p.2.data.length 4 ++ leBytes p.2.ofs 8 ++ leBytes p.1 8 ++
    leBytes (crc64.of p.2.data) 8

/-- Bytes from offset 0 to the end of the last segment. -/
def imageBytes (l : List (Nat × Seg)) : Nat := l.foldl (fun m p => max m (p.1 + p.2.data.length)) 0x10000

def State.guaranteeVoid (s : State) : Bool := s.voidCause != 0

/-- The header (R423). -/
def State.imageHeader (s : State) (resume : Nat) (hist void : Bool) (l : List (Nat × Seg)) : List Nat :=
  let h := leBytes 0x4B435156 4 ++ leBytes 1 2 ++ leBytes (b2n hist + 2 * b2n void) 2 ++ leBytes resume 4 ++
    leBytes s.moduleId 4 ++ leBytes (s.reg pGATS R.GAT_SYSTEM_TAG) 4 ++ leBytes l.length 4 ++ leBytes s.mt 8 ++
    leBytes (imageBytes l) 8 ++ leBytes (crc64.of (indexBytes l)) 8 ++ leBytes 0 200
  h ++ leBytes (crc64.of h) 8

/-- The pieces of an image behind its header. -/
def imagePieces (l : List (Nat × Seg)) : List (Nat × List Nat) :=
  (0x10000, indexBytes l) :: l.map fun p => (p.1, p.2.data)

/-! ### Banks (R420, R421) -/

def State.ckBank (s : State) (buddy : Bool) (b : Nat) : Nat :=
  s.reg64 pCKP ((if buddy then R.CKP_BUDDY0_LO else R.CKP_BANK0_LO) + 8 * b)

/-- The bank that does not hold the newest complete copy; none where no bank is used. -/
def State.nextBank (s : State) (buddy : Bool) : Option Nat :=
  let last := if s.ckReg (if buddy then R.CKP_LAST_BUDDY else R.CKP_LAST_LOCAL) = 0xFFFFFFFF then 1
    else s.fld pCKP R.CKP_LAST_BANK (b2n buddy) (b2n buddy)
  let want := 1 - last
  if s.ckBank buddy want ≠ 0 then some want else if s.ckBank buddy last ≠ 0 then some last else none

/-- The running send reads the local bank b (R421). -/
def State.sendReads (s : State) (b : Nat) : Bool :=
  s.ckSts 1 && s.ckCtl 1 && s.ckReg R.CKP_LAST_LOCAL != 0xFFFFFFFF && s.fld pCKP R.CKP_LAST_BANK 0 0 == b

/-- A capture, send or restore fails (R420, R439). -/
def State.ckpFail (s : State) (reason : Nat) : State :=
  ((s.setFld pCKP R.CKP_STS 11 8 reason).bump pCKP R.CKP_FAILURES 1).raise pCKP 1 reason

/-- The check unit is given back (R422). -/
def State.endCkpGrants (s : State) : State :=
  ((s.crs 43).grants.filter fun g => g.2.owner == .ckp).foldl (fun a g => a.endGrant 43 g.1) (s.crsWithdraw .ckp)

/-- The running capture ends without a complete copy. -/
def State.stopCapture (s : State) (reason : Nat) : State :=
  let s1 := { s with ckp := { s.ckp with due := none, cap := none } }
  ((s1.endCkpGrants).setCkSts 0 false).ckpFail reason

/-- Pieces of an image written from a device address on. -/
def State.putPieces (s : State) (a : Nat) (l : List (Nat × List Nat)) : State :=
  l.foldl (fun t p => t.blockStore t.ckPart 96 98 (a + p.1) p.2) s

/-! ### Capture (R419 to R423) -/

/-- The manifest's segments, the state after their reading, and whether a bad line was met. -/
def State.readSegs (s : State) : List (ManEntry × Nat) → State × List (ManEntry × List Seg) × Bool
  | [] => (s, [], false)
  | (e, i) :: r =>
    let (s1, l, bad) := s.readAll (s.entryRanges e)
    let (s2, segs, bad2) := s1.readSegs r
    (s2, (e, cutSegs i s.segBytes l) :: segs, bad || bad2)

/-- The capture starts: NOW_PEND clears, the image is checked against its bank, read and written behind a zeroed header. -/
def State.startCapture (s : State) (n : Nat) : State :=
  let s0 := ({ s with ckp := { s.ckp with due := none } }).setCkSts 4 false
  let resume := (n + 1) % 2 ^ 32
  if s0.manifestOk = false then s0.ckpFail ckManifest
  else
    let hist := s0.ckCtl 6
    let (s1, parts, bad) := s0.readSegs s0.manEntries.zipIdx
    let ctl : Seg := ⟨0xFFFF, 0, s0.controlBlock resume⟩
    let all := segPlaces (ctl :: parts.flatMap (·.2))
    let forBuddy := segPlaces (ctl :: (parts.filter fun p => !p.1.noBuddy).flatMap (·.2))
    let room := s0.ckReg R.CKP_BANK_SIZE % 2 ^ 16 * 2 ^ 30
    let void := s0.guaranteeVoid
    let bank := if s0.ckCtl 1 then s0.nextBank false else none
    let bud := if s0.ckCtl 2 then
        (s0.nextBank true).map fun b => (b, (s0.imageHeader resume hist void forBuddy, imagePieces forBuddy)) else none
    if s0.ckCtl 1 = true ∧ (bank.isNone = true ∨ room < imageBytes all) then s0.ckpFail ckNospace
    else if (bank.any fun b => !s0.inMemory s0.ckPart (s0.ckBank false b) (imageBytes all) true) = true then s0.ckpFail ckWrite
    else
      let s2 := match bank with
        | none => s1
        | some b =>
          let a := s1.ckBank false b
          let z := s1.blockStore s1.ckPart 96 98 a (leBytes 0 256)
          let y := if z.ckReg R.CKP_LAST_LOCAL ≠ 0xFFFFFFFF ∧ z.fld pCKP R.CKP_LAST_BANK 0 0 = b then
              z.setReg pCKP R.CKP_LAST_LOCAL 0xFFFFFFFF else z
          if bad then y else y.putPieces a (imagePieces all)
      if bad then s2.ckpFail ckCrc
      else
        let s3 := s2.crsPlain 43 97 1 .ckp
        ({ s3 with ckp := { s3.ckp with
            cap := some ⟨resume, bank, s0.imageHeader resume hist void all, bud⟩ } }).setCkSts 0 true

/-- CAPTURE (R419): UPDATE of the checkpoint step has ended and no transfer holds the bank to be written. -/
def execCapture (s : State) : Host.Outcome State Fault Refusal :=
  .next (
    match s.ckp.due with
    | none => s
    | some n =>
      if s.blockRuns pCKP = false ∨ s.updPend = true ∨ s.ckSts 0 = true ∨
        (s.ckCtl 1 && (s.nextBank false).any s.sendReads) = true then s
      else s.startCapture n)

/-- Pieces of up to 4,096 bytes that one packet carries (R403), with their addresses. -/
def packetPieces (a : Nat) (l : List Nat) : List (Nat × List Nat) :=
  (chunksOf 4096 l.length l).zipIdx.map fun p => (a + 4096 * p.2, p.1)

/-- Remote writes of the buddy send, on the BULK channel (R421). -/
def State.bulkSend (s : State) (dst a : Nat) (l : List Nat) : State :=
  (packetPieces a l).foldl (fun t p =>
    (t.addReq ⟨0, .buddy, none, 0, true, p.1, p.2.length, p.1⟩).routeOut (t.mkPacket dst 96 (.bulkWrite p.1 p.2 t.nextReq))) s

/-- A buddy bank as module and address there. -/
def State.buddyAt (s : State) (b : Nat) : Option (Nat × Nat) :=
  match s.region (s.ckBank true b) with
  | .remote m a => if s.maps s.ckPart (s.ckBank true b) 1 true then some (m, a) else none
  | _ => none

/-- The send fails; the older buddy copy stays complete unless its bank is the one being written. -/
def State.buddyFail (s : State) (reason : Nat) : State :=
  (({ s.dropReqs .buddy with ckp := { s.ckp with send := none } }).setCkSts 1 false).ckpFail reason

/-- A buddy send starts: the bank's header is zeroed, then index and segments go out (R421). -/
def State.startSend (s : State) (resume b : Nat) (header : List Nat) (pieces : List (Nat × List Nat)) : State :=
  match s.buddyAt b with
  | none => s.ckpFail ckWrite
  | some (m, a) =>
    if s.ckReg R.CKP_BANK_SIZE % 2 ^ 16 * 2 ^ 30 < pieces.foldl (fun x p => max x (p.1 + p.2.length)) 0 then s.ckpFail ckNospace
    else
      let s1 := if s.ckReg R.CKP_LAST_BUDDY ≠ 0xFFFFFFFF ∧ s.fld pCKP R.CKP_LAST_BANK 1 1 = b then
          s.setReg pCKP R.CKP_LAST_BUDDY 0xFFFFFFFF else s
      let s2 := pieces.foldl (fun t p => t.bulkSend m (a + p.1) p.2) (s1.bulkSend m a (leBytes 0 256))
      ({ s2 with ckp := { s2.ckp with send := some (b, (resume, (header, false))) } }).setCkSts 1 true

/-- The header is written last, the local copy is complete, and the buddy send starts (R420). -/
def State.captured (s : State) (c : Capture) : State :=
  let units := (s.crs 43).grants.filter fun g => g.2.owner == .ckp
  let s1 := units.foldl (fun a g => a.bump (pCHK g.1) R.CHK_BYTES (leNat ((c.header.drop 0x20).take 8))) s
  let s2 := match c.bank with
    | none => s1.endCkpGrants
    | some b =>
      let t := (s1.endCkpGrants).blockStore s1.ckPart 96 98 (s1.ckBank false b) c.header
      (t.setReg pCKP R.CKP_LAST_LOCAL c.resume).setFld pCKP R.CKP_LAST_BANK 0 0 b
  let s3 := (({ s2 with ckp := { s2.ckp with cap := none } }).setCkSts 0 false).bump pCKP R.CKP_CAPTURES 1
  match c.buddy with
  | some (b, (h, l)) => s3.startSend c.resume b h l
  | none => if s3.ckCtl 2 then s3.ckpFail ckWrite else s3.notice pCKP 0 c.resume

/-- CAPTURE_DONE (R420): the header is written last; the local copy is complete and the buddy send starts. -/
def execCaptureDone (s : State) : Host.Outcome State Fault Refusal :=
  .next (
    match s.ckp.cap with
    | none => s
    | some c =>
      if s.blockRuns pCKP = false ∨ s.ckSts 0 = false ∨ ((s.crs 43).reqs.any fun r => r.owner == .ckp) = true ∨
        (c.buddy.isSome && s.ckSts 1) = true then s
      else
        s.captured c)

/-- BUDDY_SEND_DONE (R421): every remote write is acknowledged; the header goes out last, and with its acknowledgement the buddy
copy is complete. -/
def execBuddySendDone (s : State) : Host.Outcome State Fault Refusal :=
  .next (
    match s.ckp.send with
    | none => s
    | some (b, (resume, (header, sent))) =>
      if s.blockRuns pCKP = false ∨ s.hasReqs .buddy = true then s
      else if sent then
        let s1 := ({ s with ckp := { s.ckp with send := none } }).setCkSts 1 false
        ((s1.setReg pCKP R.CKP_LAST_BUDDY resume).setFld pCKP R.CKP_LAST_BANK 1 1 b).notice pCKP 0 resume
      else
        match s.buddyAt b with
        | none => s.buddyFail ckWrite
        | some (m, a) => { s.bulkSend m a header with ckp := { s.ckp with send := some (b, (resume, (header, true))) } })

/-! ### Commands (R419, R424, R439) -/

/-- The conditions under which a restore may start (R424). -/
def State.restoreIdle (s : State) : Bool :=
  !s.stpEn && !bit (s.reg pUPD R.UPD_CTL) 0 && !bit (s.reg pING R.ING_CTL) 0 && !bit (s.reg pGATS R.GAT_SYS_CTL) 0 &&
  (allTiles.all fun t => s.depth (s.siteOf t) == 0) && !s.ckSts 0 && !s.ckSts 1

/-- RESTORE written (R424). -/
def State.startRestore (s : State) : State :=
  if s.ckSts 2 then s
  else
    let s1 := s.setCkSts 3 false
    if s.restoreIdle then s1.setCkSts 2 true else s1.ckpFail ckBusy

/-- ABORT written (R439): the running transfers end at their next segment. -/
def State.abortCkp (s : State) : State :=
  let s1 := if s.ckSts 0 then s.stopCapture ckAborted else s
  let s2 := if s1.ckSts 1 then s1.buddyFail ckAborted else s1
  if s2.ckSts 2 then (s2.setCkSts 2 false).ckpFail ckAborted else s2

/-- A write of CKP_CTL. -/
def ckpCtlWrite (v : Nat) (s : State) : State :=
  let s1 := s.setReg pCKP R.CKP_CTL (v % 8 + bits v 6 6 * 64)
  let s2 := if bit v 3 then s1.setCkSts 4 true else s1
  let s3 := if bit v 5 then s2.abortCkp else s2
  if bit v 4 then s3.startRestore else s3

/-- The stored bits of CKP_CTL, as a command bit alone is written. -/
def State.ckKeep (s : State) : Nat := s.ckReg R.CKP_CTL

/-- NOW (R419). -/
def execNow (src : Src) (s : State) : Host.Outcome State Fault Refusal :=
  .next (s.onWrite src pCKP R.CKP_CTL fun a => ckpCtlWrite (a.ckKeep + 8) a)

/-- RESTORE (R424). -/
def execRestore (src : Src) (s : State) : Host.Outcome State Fault Refusal :=
  .next (s.onWrite src pCKP R.CKP_CTL fun a => ckpCtlWrite (a.ckKeep + 16) a)

/-- CKP_ABORT (R439). -/
def execCkpAbort (src : Src) (s : State) : Host.Outcome State Fault Refusal :=
  .next (s.onWrite src pCKP R.CKP_CTL fun a => ckpCtlWrite (a.ckKeep + 32) a)

/-! ### Restore (R417, R424) -/

/-- Bytes of the image at CKP_SRC: near and far memory are read; any other source answers `image`. The flag tells of a bad line. -/
def State.srcBytes (s : State) (image : List Nat) (o n : Nat) : State × List Nat × Bool :=
  let a := s.reg64 pCKP R.CKP_SRC_LO + o
  match s.region a with
  | .near _ | .far _ => (fun x : State × List Nat × Option Nat => (x.1, x.2.1, x.2.2.isSome)) (s.devRead a n 0xFFFF)
  | _ => (s, (image.drop o).take n, false)

/-- An entry's content written back as far as it has been read (R417). `k` counts records. -/
def State.putContent (s : State) (e : ManEntry) (hist : Bool) : Nat → Nat → List Nat → State
  | 0, _, _ => s
  | f + 1, k, l =>
    let put := fun (t : State) a b => t.blockStore t.ckPart 96 98 a b
    if l = [] ∨ e.count ≤ k then s
    else
      match e.cls with
      | 1 => put s e.addr l
      | 2 =>
        if l.length < 128 then s
        else
          let r := leNat (l.take 128)
          let n := s.shardBytes r
          let s1 := put s (s.shardAddr (e.addr + k)) (leBytes (setBits r 17 16 0) 128)
          (put s1 (shState r 0) ((l.drop 128).take n)).putContent e hist f (k + 1) (l.drop (128 + n))
      | 3 =>
        if l.length < 64 then s
        else
          let a := s.stpTrec (e.addr + k)
          let s1 := (put s a (l.take 64)).squashScale a
          let s2 := if hist then put s1 (leNat ((l.drop 0x30).take 8)) ((l.drop 64).take 128) else s1
          s2.putContent e hist f (k + 1) (l.drop (if hist then 192 else 64))
      | 4 =>
        if l.length < 64 then s
        else
          let r := leNat (l.take 64)
          let m := bits r 10 0 + 1
          let n := 4 * m * m
          let s1 := put s (s.rootAddr (e.addr + k)) (leBytes (setBits (setBits r 28 24 0) 223 192 0) 64)
          (put s1 (df r 0x20 63 0) ((l.drop 64).take n)).putContent e hist f (k + 1) (l.drop (64 + n))
      | _ => s

/-- What a restore has read so far: contents by entry, and the control block. -/
structure Restored where
  content : List (Nat × List Nat) := []
  control : List Nat := []
  deriving DecidableEq, Repr

/-- The segments of an index, each checked and written back; the first failure ends the restore with its reason. -/
def State.restoreSegs (s : State) (image : List Nat) (hist : Bool) (acc : Restored) :
    List (Nat × List Nat) → State × Restored × Option Nat
  | [] => (s, acc, none)
  | (i, x) :: r =>
    let entry := leNat (x.take 2)
    let (s1, l, bad) := s.srcBytes image (leNat ((x.drop 16).take 8)) (leNat ((x.drop 4).take 4))
    if bad ∨ crc64.of l ≠ leNat ((x.drop 24).take 8) then (s1.setReg pCKP R.CKP_FAIL_SEG i, acc, some ckCrc)
    else if entry = 0xFFFF then s1.restoreSegs image hist { acc with control := l } r
    else if s1.manCount ≤ entry then (s1, acc, some ckManifest)
    else
      let c := sget [] acc.content entry ++ l
      (s1.putContent (s1.manEntry entry) hist (c.length + 1) 0 c).restoreSegs image hist
        { acc with content := sset [] acc.content entry c } r

/-- The header's checks (R424). -/
def State.headerOk (s : State) (h ix : List Nat) (bad : Bool) : Bool :=
  !bad && h.length == 256 && leNat (h.take 4) == 0x4B435156 && leNat ((h.drop 4).take 2) == 1 &&
  leNat ((h.drop 0xF8).take 8) == crc64.of (h.take 0xF8) && leNat ((h.drop 0x28).take 8) == crc64.of ix &&
  leNat ((h.drop 0x10).take 4) == s.reg pGATS R.GAT_SYSTEM_TAG && bits (leNat ((h.drop 0x0C).take 2)) 13 0 == s.moduleId

/-- A stream set from its part of the control block. -/
def State.restoreStream (s : State) (k : Nat) (b : List Nat) : State :=
  let h := leNat (b.take 4)
  let w := fun i => leNat ((b.drop (0x18 + 8 * i)).take 8)
  let s1 := (s.str k).samples.foldl (fun a m => (a.abandon k m).dropSample k m) s
  let s2 := s1.modStr k fun x => { x with
    taken := w 0, used := w 1, replaced := w 2, skipped := w 3, rewound := w 4, pending := 0, samples := [], marks := [],
    req := none, dryAt := none }
  [R.ING_STR_CURSOR, R.ING_STR_HEAD, R.ING_STR_TAIL].foldl (fun a off => a.setReg (pINGS k) off h) s2

/-- Every scaled tensor goes into warm-up (R61). -/
def State.warmUp (s : State) : State :=
  let s1 := s.trecs.foldl (fun t a => t.overRec a 64 fun x =>
    let y := (x.devPut (a + 0x2D) 1 0).devPut (a + 0x2E) 1 0
    let z := y.devPut (a + 0x2F) 1 (setBit (setBit (y.recLe a 0x2F 1) 6 false) 7 true)
    z.devPut (a + 0x2C) 1 (hlenOf (z.recLe a 6 1))) s
  s1.raise pSTP 12 s.trecs.length

/-- Steps 3 to 5 of R424. -/
def State.endRestore (s : State) (resume : Nat) (hist : Bool) (c : List Nat) : State :=
  let seed := leNat ((c.drop 8).take 8)
  let n := leNat (c.take 4)
  let s1 := ((s.setReg pSTP R.STP_OPEN_STEP n).setReg pSTP R.STP_LAST_COMMIT (n + 2 ^ 32 - 1)).setReg pSTP R.STP_JOB_SEED_LO seed
  let s2 := s1.setReg pSTP R.STP_JOB_SEED_HI (seed / 2 ^ 32)
  let s3 := (List.range 256).foldl (fun a k => a.restoreStream k ((c.drop (0x40 + 64 * k)).take 64)) s2
  let s4 := s3.eachTile fun a t =>
    (a.invalStats (a.siteOf t)).setReg (a.siteOf t) R.TIL_NUM_FLAGS 0
  let s5 := ((s4.setReg pGATS R.GAT_RED_FLAGS 0).setFld pGATS R.GAT_SYS_STS 15 8 0).modGate fun g =>
    { g with carried := false, totalBad := false, intervals := [], prevV := none, curV := none }
  let s6 := if hist then s5 else s5.warmUp
  ((s6.setCkSts 2 false).setCkSts 3 true).notice pCKP 3 resume

/-- A restore verifies manifest, header and segments and puts them back, or fails with its reason (R424). -/
def State.restored (s : State) (image : List Nat) : State :=
  let fail := fun (t : State) reason => (t.setCkSts 2 false).ckpFail reason
  if s.maps s.ckPart (s.reg64 pCKP R.CKP_SRC_LO) 256 false = false then fail s ckHeader
  else if s.manifestOk = false then fail s ckManifest
  else
    let (s1, h, bad) := s.srcBytes image 0 256
    let segs := leNat ((h.drop 0x14).take 4)
    let (s2, ix, bad2) := s1.srcBytes image 0x10000 (32 * segs)
    if s2.headerOk h ix (bad || bad2) = false then fail s2 ckHeader
    else
      let hist := bit (leNat ((h.drop 6).take 2)) 0
      match s2.restoreSegs image hist {} ((chunksOf 32 segs ix).zipIdx.map fun p => (p.2, p.1)) with
      | (s3, _, some why) => fail s3 why
      | (s3, acc, none) => s3.endRestore (leNat ((h.drop 8).take 4)) hist acc.control

/-- RESTORE_DONE (R424): the restore of the image at CKP_SRC, whose bytes `image` gives where a host or another module holds it. -/
def execRestoreDone (image : List Nat) (s : State) : Host.Outcome State Fault Refusal :=
  .next (
    if s.blockRuns pCKP = false ∨ s.ckSts 2 = false then s
    else
      s.restored image)

end Sys2Proof.Machine
end

