-- ==== Sys2Proof/Machine/Courier.lean ====
section
/-! DEFINITION. Machine/Courier.lean: the transfers of the courier engines (R99 to R101, R321, R326, R458, R527): their records,
their fields, their crossing requests, their faults and their end. -/
namespace Sys2Proof.Machine

/-! ### Fields of a MOV (R99) -/

def mvSrc (d : Nat) : Nat := df d 16 63 0
def mvDst (d : Nat) : Nat := df d 24 63 0
def mvRowBytes (d : Nat) : Nat := df d 32 23 0
def mvRows (d : Nat) : Nat := df d 36 19 0
def mvSStride (d : Nat) : Int := sext (df d 40 31 0) 32
def mvDStride (d : Nat) : Int := sext (df d 44 31 0) 32
def mvPagedSrc (d : Nat) : Bool := bit (df d 48 15 0) 0
def mvPagedDst (d : Nat) : Bool := bit (df d 48 15 0) 1
def mvSnoop (d : Nat) : Bool := bit (df d 48 15 0) 2
def mvChk (d : Nat) : Nat := df d 48 6 3
def mvRsigEn (d : Nat) : Bool := bit (df d 48 15 0) 7
def mvUrgent (d : Nat) : Bool := bit (df d 48 15 0) 8
def mvRsigTile (d : Nat) : Nat := df d 50 10 0
def mvRsigCtr (d : Nat) : Nat := df d 50 14 11
def mvCtx (d : Nat) : Nat := df d 52 13 0
def mvTok (d : Nat) : Nat := df d 56 25 0
def mvBudget (d : Nat) : Nat := df d 60 15 0

/-- Address of a row; addresses wrap modulo 2^64. -/
def rowAddr (base : Nat) (stride : Int) (k : Nat) : Nat := wrapInt ((base : Int) + stride * (k : Int)) 64
def mvSrcRow (d k : Nat) : Nat := rowAddr (mvSrc d) (mvSStride d) k
def mvDstRow (d k : Nat) : Nat := rowAddr (mvDst d) (mvDStride d) k

/-- The 64 bytes of a MOV of PHASE 0 that serves a COPY (R458). -/
def copyMov (src dst rowBytes rows stride budget : Nat) : Nat :=
  6 + src * 2 ^ 128 + dst * 2 ^ 192 + rowBytes * 2 ^ 256 + rows * 2 ^ 288 + stride * 2 ^ 320 + stride * 2 ^ 352 + budget * 2 ^ 480

/-! ### Records -/

def State.xferOf (s : State) (o : Owner) : Option Xfer := s.xfers.find? fun x => x.owner == o
def State.modXfer (s : State) (o : Owner) (f : Xfer → Xfer) : State :=
  { s with xfers := s.xfers.map fun x => if x.owner == o then f x else x }
def State.dropXfer (s : State) (o : Owner) : State := { s with xfers := s.xfers.filter fun x => x.owner != o }

/-- A transfer of a tile's MOV. -/
def Xfer.isMov (x : Xfer) : Bool := decide (x.owner.site < 0x1000)

/-- The running record behind a transfer takes a new state. -/
def State.setRunSt (s : State) (o : Owner) (st : RunSt) : State :=
  if 0x1000 ≤ o.site then s
  else s.modTile o.site fun t => { t with running := t.running.map fun r =>
    if r.pos == o.pos && r.parked == o.parked then { r with st := st } else r }

def State.runAt (s : State) (o : Owner) : Option Run :=
  if 0x1000 ≤ o.site then none
  else (s.tile o.site).running.find? fun r => r.pos == o.pos && r.parked == o.parked

/-- What a running MOV overwrites joins its record (R92). -/
def State.noteUndo (s : State) (o : Owner) (l : List (Nat × Nat)) : State :=
  if 0x1000 ≤ o.site then s
  else s.modTile o.site fun t => { t with running := t.running.map fun r =>
    if r.pos == o.pos && r.parked == o.parked then { r with undo := l ++ r.undo } else r }

/-- A flush has stopped the MOV behind the transfer (R92). -/
def State.xFlushed (s : State) (o : Owner) : Bool :=
  match s.runAt o with
  | some r => r.st == .flushed
  | none => false

/-- The bytes of a transfer still move. -/
def State.xLive (s : State) (x : Xfer) : Bool := x.fault.isNone && !s.xFlushed x.owner

/-- Register page of courier engine e (district × 16 + engine). -/
def pCUR (e : Nat) : Nat := 0x610 + 0x20 * (e / 16) + e % 16

/-- The engines of a district that take new work. -/
def State.openEngines (s : State) (district : Nat) : List Nat :=
  ((List.range 16).map (district * 16 + ·)).filter fun e => s.blockRuns (pCUR e)

/-- A courier engine has just been chosen among those of a district (R99): no rule says which, so the choice is free. -/
def State.pickEngine (s : State) (district : Nat) : Option (Nat × State) :=
  let es := s.openEngines district
  if es = [] then none
  else
    let (n, s1) := s.fresh
    some (nth 0 es (Sys2Proof.Config.freeNat n % es.length), s1)

/-! ### Crossing requests (R321) -/

/-- The latest-service time of a MOV's requests at crossing i. -/
def State.xDue (s : State) (x : Xfer) (i : Nat) : Nat :=
  x.issued + (if mvBudget x.d = 0 then s.crsDefault i (mvUrgent x.d) else mvBudget x.d * 64)

def State.xReq (s : State) (x : Xfer) (i n : Nat) (server : Option Nat := none) : State :=
  s.crsRequest i ⟨x.engine, mvUrgent x.d, s.xDue x i, s.mt, server, n, .mov x.owner⟩

/-- Transfers of a range of far memory become requests of the engine at their channels. -/
def State.xFar (s : State) (x : Xfer) (a n : Nat) : State :=
  (uniq (s.farTransfers a n)).foldl (fun st ch => st.xReq x ch ((s.farTransfers a n).filter (· == ch)).length) s

/-- The transfer holds or waits for a grant of a far channel or a host port. -/
def State.xAtCrossing (s : State) (o : Owner) : Bool :=
  (List.range 40).any fun i => ((s.crs i).reqs.any fun r => r.owner == .mov o) || (s.crs i).grants.any fun g => g.2.owner == .mov o

/-- The check unit that snoops a transfer, once granted (R527). -/
def State.snoopGrant (s : State) (o : Owner) : Option Nat :=
  ((s.crs 43).grants.find? fun g => g.2.owner == .mov o).map (·.1)

/-! ### The snooping check unit (R527) -/

/-- The bytes that have arrived at the front of the feed list, and the rest. -/
def feedReady : List (Nat × Option (List Nat)) → List Nat × List (Nat × Option (List Nat))
  | [] => ([], [])
  | (_, some l) :: r =>
    let (a, b) := feedReady r
    (l ++ a, b)
  | e :: r => ([], e :: r)

/-- The unit is fed what may be fed: every byte written, rows ascending. -/
def State.xFeed (s : State) (o : Owner) : State :=
  match s.xferOf o, s.snoopGrant o with
  | some x, some u =>
    let (l, rest) := feedReady x.feed
    (if l = [] then s else s.chkFeed u l).modXfer o fun y => { y with feed := rest }
  | _, _ => s

/-- Bytes written at once. -/
def State.feedBytes (s : State) (o : Owner) (l : List Nat) : State :=
  (s.modXfer o fun x => if mvSnoop x.d then { x with feed := x.feed ++ [(0, some l)] } else x).xFeed o

/-- Bytes that request `id` will bring. -/
def State.feedLater (s : State) (o : Owner) (id : Nat) : State :=
  s.modXfer o fun x => if mvSnoop x.d then { x with feed := x.feed ++ [(id, none)] } else x

/-- Request `id` has brought its bytes. -/
def State.feedCame (s : State) (o : Owner) (id : Nat) (l : List Nat) : State :=
  (s.modXfer o fun x => { x with feed := x.feed.map fun e => if e.1 == id && id != 0 then (id, some l) else e }).xFeed o

/-! ### The end of a transfer -/

/-- The pinned page is given back. -/
def State.xUnpin (s : State) (o : Owner) : State :=
  match s.xferOf o with
  | some x =>
    match x.pin with
    | some (n, p) => (s.unpin n p).modXfer o fun y => { y with pin := none }
    | none => s
  | none => s

/-- Grants of an owner at crossing i end. -/
def State.endGrantsOf (s : State) (i : Nat) (o : CrsOwner) : State :=
  ((s.crs i).grants.filter fun g => g.2.owner == o).foldl (fun a g => a.endGrant i g.1) s

/-- What a transfer that stops early lets go: pins, waiting requests, reads not yet answered and, at a snooping check unit, its
grant; a grant of a far channel or host port runs to its end (R324). -/
def State.xStop (s : State) (o : Owner) : State :=
  let s1 := (s.xUnpin o).crsWithdraw (.mov o)
  let s2 := { s1 with
    reqs := s1.reqs.filter fun r => !(r.owner == ReqOwner.xfer o && !r.write)
    kvWaiters := s1.kvWaiters.filter fun w => match w with
      | .walk q _ _ _ => q != o
      | _ => true }
  s2.endGrantsOf 43 (.mov o)

/-- No other part of the same COPY has faulted (R458). -/
def State.xFirst (s : State) (o : Owner) : Bool :=
  !s.xfers.any fun y => y.owner.site == o.site && y.owner.pos / 4 == o.pos / 4 && y.fault.isSome

/-- A transfer faults (R101): it writes no further byte and reports; `report` is off where a further event stands in for
nothing but itself. -/
def State.xFault (s : State) (o : Owner) (code addr : Nat) : State :=
  match s.xferOf o with
  | none => s
  | some x =>
    if s.xLive x = false then s
    else
      let s0 := match s.snoopGrant o with
        | some u => s.orReg (pCHK u) R.CHK_FLAGS 4
        | none => s
      let s1 := (s0.xStop o).modXfer o fun y => { y with fault := some code, rowsDone := true, first := s.xFirst o }
      if x.isMov then (s1.setRunSt o (.faulted code)).movFault x.tile x.d code addr else s1

/-- A walk faults (R183, R213). -/
def State.xWalkFault (s : State) (o : Owner) (code tok : Nat) : State :=
  match s.xferOf o with
  | none => s
  | some x =>
    (s.walkFault x.tile (mvCtx x.d) tok code).xFault o code (if mvPagedSrc x.d then mvSrc x.d else mvDst x.d)

/-- An access to the stash aperture is refused (R241). -/
def State.xStashFault (s : State) (o : Owner) (entry off addr : Nat) : State :=
  ((s.bump pSTP R.STP_STASH_FAULT_COUNT 1).raise pSTP 6 (entry % 2 ^ 15) (off % 2 ^ 24)).xFault o 0x09 addr

/-- A transfer whose engine is reset faults (R326, R532): no rule says what address the record shows, so it is free. -/
def State.xReset (s : State) (o : Owner) (code : Nat) : State :=
  let (n, s1) := s.fresh
  s1.xFault o code (Sys2Proof.Config.freeNat n)

/-- Transfers that meet a condition fault with a reason (R532). -/
def State.xFaultAll (s : State) (code : Nat) (hit : Xfer → Bool) : State :=
  (s.xfers.filter hit).foldl (fun a x => a.xReset x.owner code) s

/-- Everything that the transfer's writes owe has been acknowledged and every grant has ended. -/
def State.xQuiet (s : State) (o : Owner) : Bool := !s.hasReqs (.xfer o) && !s.xAtCrossing o

/-- The transfer has ended: every byte visible, or faulted or flushed with its issued writes visible (R92, R100, R101). -/
def State.xEnded (s : State) (x : Xfer) : Bool :=
  s.xQuiet x.owner && (!s.xLive x || (x.rowsDone && x.pin.isNone && x.unsure.isEmpty && x.held.isEmpty))

/-- The record of an ended transfer is removed, its check unit freed. -/
def State.xFinish (s : State) (o : Owner) : State := ((s.xStop o).dropReqs (.xfer o)).dropXfer o

/-- The transfers of the COPYs of queues are forgotten: their queues have started anew. -/
def State.dropCopies (s : State) (hit : Nat → Bool) : State :=
  (s.xfers.filter fun x => !x.isMov && hit (x.owner.site - 0x1000)).foldl (fun a x => a.xFinish x.owner) s

/-- A new transfer, with its request for a check unit. -/
def State.newXfer (s : State) (x : Xfer) : State :=
  let s1 := { s with xfers := s.xfers ++ [x] }
  if mvSnoop x.d then s1.xReq x 43 1 (some (mvChk x.d)) else s1

/-! ### The stash aperture (R236 to R241) -/

/-- What an access to the aperture meets. -/
inductive StashAns where
  | at_ (s : State) (a : Nat)
  | fault (entry off : Nat)
  | badRecord
  | stall (s : State)

/-- An aperture access of n bytes at offset `off` by a transfer. A freed entry holds no allocation, so a read of it faults. -/
def State.stashAt (s : State) (x : Xfer) (off n : Nat) (wr : Bool) : StashAns :=
  let e := off / 2 ^ 24
  let o := off % 2 ^ 24
  let par := dTag x.d % 2
  if dPhase x.d = 0 ∨ mvPagedSrc x.d = true ∨ mvPagedDst x.d = true then .fault 0x7FFF o
  else if s.stashCount ≤ e then .fault e o
  else if s.ctlBad (s.stashAddr e) 64 then .badRecord
  else if s.stashValid e = false ∨ 2 ^ 24 < o + n ∨ s.stashSize e * 65536 < o + n then .fault e o
  else
    let st := s.stashSt e par
    if wr && stFreed st then .fault e o
    else if stWhere st ≠ 0 then .at_ s (s.stashBase e par + o)
    else if wr = false then .fault e o
    else
      match s.stashAlloc e (dTag x.d) with
      | .ok s1 => .at_ s1 (s1.stashBase e par + o)
      | .full s1 => .stall s1

/-- The stash entries that the source rows of a MOV name. -/
def State.stashSources (s : State) (d : Nat) : List Nat :=
  if mvPagedSrc d then []
  else uniq ((List.range (mvRows d)).filterMap fun k =>
    match s.region (mvSrcRow d k) with
    | .stash o => some (o / 2 ^ 24)
    | _ => none)

end Sys2Proof.Machine
end

