-- ==== Sys2Proof/Machine/Host.lean ====
section
/-! DEFINITION. Machine/Host.lean: the host ports (R441, R442, R452, R453, R462, R468, R469): configuration requests, interrupts,
window entries, page locks, detach and return; and the registers of the command queues (R454 to R456, R460, R461). -/
namespace Sys2Proof.Machine

def State.modPort (s : State) (h : Nat) (f : PortState → PortState) : State := s.setPort h (f (s.port h))
def State.hptSts (s : State) (h i : Nat) : Bool := bit (s.reg (pHPT h) R.HPT_STS) i
def State.setHptSts (s : State) (h i : Nat) (v : Bool) : State := s.setFld (pHPT h) R.HPT_STS i i (b2n v)

/-! ### Configuration space (R441, R442) -/

/-- What a configuration read of a word returns: identity (R441); the command register's Bus Master Enable; MSI-X message control
at a place no rule gives (log entry 28); every other word is open. -/
def State.cfgRead (s : State) (h off : Nat) : Nat :=
  let p := s.port h
  let w := off / 4 * 4
  if w = 0 then 0x00601F4D
  else if w = 8 then 0x120000B0
  else if w = Sys2Proof.Config.msixCap then 0x003F0011 + b2n p.funcMask * 2 ^ 30 + b2n p.msixEn * 2 ^ 31
  else if w = 4 then setBit (Sys2Proof.Config.cfgWord h 4) 2 p.busMaster
  else Sys2Proof.Config.cfgWord h w

/-- Vectors with a pending message are sent once they can be (R452). -/
def State.flushPba (s : State) (h : Nat) : State :=
  (List.range 64).foldl (fun a v =>
    let p := a.port h
    if bit p.pba v && !p.funcMask && !bit (a.reg (pMSIX h) (16 * v + 12)) 0 then
      (a.setPort h { p with pba := setBit p.pba v false }).signalPort h v
    else a) s

/-- A configuration write: Bus Master Enable, MSI-X Enable and Function Mask (R452). -/
def State.cfgWrite (s : State) (h off v : Nat) : State :=
  let w := off / 4 * 4
  if w = Sys2Proof.Config.msixCap then (s.modPort h fun p => { p with msixEn := bit v 31, funcMask := bit v 30 }).flushPba h
  else if w = 4 then s.modPort h fun p => { p with busMaster := bit v 2 }
  else s

/-- CONFIG_REQUEST (R442): Retry Status until the port is released. -/
def execConfigRequest (port : Nat) (write : Bool) (off value : Nat) (s : State) : Host.Outcome State Fault Refusal :=
  .next (
    if s.aoOn = false ∨ 8 ≤ port ∨ s.domOn 40 = false ∨ s.linkUp port = false then s
    else if (s.port port).released = false then { s with out := s.out ++ [.cfgRetry port] }
    else if write then s.cfgWrite port off value
    else { s with out := s.out ++ [.cfgData port (s.cfgRead port off)] })

/-! ### Interrupts (R452) -/

/-- IRQ_HOLDOFF_EXPIRE (R452): HPT_IRQ_HOLDOFF microseconds after a message, what was merged meanwhile leaves as one. -/
def execIrqHoldoffExpire (port vector : Nat) (s : State) : Host.Outcome State Fault Refusal :=
  .next (
    let p := s.port port
    match p.holdoff.find? fun e => e.1 == vector with
    | none => s
    | some e =>
      if s.aoOn = false ∨ s.mt < e.2 + s.reg (pHPT port) R.HPT_IRQ_HOLDOFF % 2 ^ 16 * 1000 then s
      else
        let s1 := s.setPort port { p with holdoff := sdel p.holdoff vector, merged := setBit p.merged vector false }
        if bit p.merged vector then s1.signalPort port vector else s1)

/-- The mask bit of a vector is written (R452). -/
def vectorCtlWrite (h v x : Nat) (s : State) : State := (s.setReg (pMSIX h) (16 * v + 12) (x % 2)).flushPba h

/-- VECTOR_UNMASK (R452). -/
def execVectorUnmask (port vector : Nat) (s : State) : Host.Outcome State Fault Refusal :=
  .next (if port < 8 ∧ vector < 64 then s.onWrite (.port port) (pMSIX port) (16 * vector + 12) (vectorCtlWrite port vector 0) else s)

/-! ### Windows (R462) -/

def State.winIdx (s : State) (h : Nat) : Nat := s.reg (pHPT h) R.HPT_WIN_IDX % 256
def State.setWin (s : State) (h : Nat) (e : Nat × Nat) : State :=
  s.modPort h fun p => { p with win := sset (0, 0) p.win (s.winIdx h) e }
def State.winNow (s : State) (h : Nat) : Nat × Nat := sget (0, 0) (s.port h).win (s.winIdx h)
def State.winNext (s : State) (h : Nat) : State := s.setReg (pHPT h) R.HPT_WIN_IDX ((s.winIdx h + 1) % 256)

def winLoWrite (h v : Nat) (s : State) : State := s.setWin h (v % 8, (s.winNow h).2)
def winHiWrite (h v : Nat) (s : State) : State := (s.setWin h ((s.winNow h).1, v % 2 ^ 32)).winNext h
def winHiRead (h : Nat) (s : State) : State := (s.winNext h).reply [(s.winNow h).2]

/-- WIN_DATA_HI_ACCESS (R462, R477). -/
def execWinDataHiAccess (src : Src) (port : Nat) (write : Bool) (value : Nat) (s : State) : Host.Outcome State Fault Refusal :=
  .next (if port < 8 then
    if write then s.onWrite src (pHPT port) R.HPT_WIN_DATA_HI (winHiWrite port value)
    else s.onRead src (pHPT port) R.HPT_WIN_DATA_HI (winHiRead port)
  else s)

/-! ### Page locks (R453) -/

/-- A write of PAGE_LOCK: locking stores KEY, unlocking needs it. A write with another key is refused with reason LOCKED; from the
device side it is dropped. The supervisor is not bound by locks. -/
def pageLockWrite (src : Src) (page v : Nat) (s : State) : State :=
  let cp := s.canon page
  let old := s.reg cp R.PAGE_LOCK
  if bit old 31 = false then (if bit v 31 then s.setReg cp R.PAGE_LOCK (v % 2 ^ 16 + 2 ^ 31) else s)
  else if bit v 31 = false ∧ (v % 2 ^ 16 = old % 2 ^ 16 ∨ src = .supervisor) then s.setReg cp R.PAGE_LOCK 0
  else if v % 2 ^ 16 = old % 2 ^ 16 then s
  else
    match src with
    | .port h => s.deny h page dnLocked
    | _ => s

/-- PAGE_LOCK_WRITE (R453). -/
def execPageLockWrite (src : Src) (page value : Nat) (s : State) : Host.Outcome State Fault Refusal :=
  .next (if isBar2 page then s else s.onWrite src page R.PAGE_LOCK (pageLockWrite src page value))

/-! ### Command queues: registers (R454 to R456, R460, R461) -/

def State.cq (s : State) (q : Nat) : CqState := sget {} s.queues q
def State.setCq (s : State) (q : Nat) (c : CqState) : State := { s with queues := sset {} s.queues q c }
def State.modCq (s : State) (q : Nat) (f : CqState → CqState) : State := s.setCq q (f (s.cq q))
def State.cqEn (s : State) (q : Nat) : Bool := bit (s.reg (pCQ q) R.HPT_CQ_CTL) 0
def State.cqLog (s : State) (q : Nat) : Nat := max 4 (min 16 (s.fld (pCQ q) R.HPT_CQ_CTL 20 16))
def State.cqHalt (s : State) (q : Nat) : Bool := bit (s.reg (pCQ q) R.HPT_CQ_STS) 0

/-- The count since EN was set that TAIL stands for. -/
def State.cqTail (s : State) (q : Nat) : Nat :=
  let n := (s.cq q).next
  n + (s.reg (pCQ q) R.HPT_CQ_TAIL % 2 ^ 16 + 2 ^ 16 - n % 2 ^ 16) % 2 ^ 16

/-- HEAD: the oldest command that has not completed. -/
def State.cqHead (s : State) (q : Nat) : State :=
  let c := s.cq q
  let live := c.live.dropWhile (·.done)
  let h := match live with
    | [] => c.next
    | x :: _ => x.idx
  (s.setCq q { c with live := live }).setReg (pCQ q) R.HPT_CQ_HEAD (h % 2 ^ 16)

/-- The completion record of a command (R460), and what follows it. -/
def State.cqReport (s : State) (q idx hdr status info : Nat) : State :=
  match s.queuePort q with
  | none => s
  | some h =>
    let lg := s.cqLog q
    let rec_ := leBytes (bits hdr 31 16) 2 ++ [status, b2n (idx / 2 ^ lg % 2 == 0)] ++ leBytes info 4 ++ leBytes s.mt 8
    let a := s.reg64 (pCQ q) R.HPT_CQ_CMPL_LO + 16 * (idx % 2 ^ lg)
    let gone := s.detached h
    let s1 := if (bit hdr 8 || status != 0) && !gone then s.blockStore (s.portPart h) 107 96 a rec_ else s
    let s2 := if bit hdr 9 && !gone then s1.signalPort h (s1.fld (pCQ q) R.HPT_CQ_CTL 8 3) else s1
    if status = 0 ∨ status = 5 then s2
    else
      ((s2.setFld (pCQ q) R.HPT_CQ_STS 15 8 status).orReg (pCQ q) R.HPT_CQ_STS 1).raise (pHPT h) 3
        (q + idx % 2 ^ 16 * 2 ^ 16) status

/-- The command at the front of the fetched entries leaves them: n entries in all, completed at once or (a COPY handed to the
couriers) later. -/
def State.cqTake (s : State) (q n : Nat) (done : Bool) (parts : Nat := 0) : State :=
  (s.modCq q fun c =>
    { c with next := c.next + n, buf := c.buf.drop n, since := none,
             live := c.live ++ [⟨c.next, n, nth 0 c.buf 0 % 2 ^ 64, done, parts, none⟩] }).cqHead q

/-- The command at the front completes with a status. -/
def State.cqFinish (s : State) (q n status : Nat) (info : Nat := 0) : State :=
  let c := s.cq q
  (s.cqReport q c.next (nth 0 c.buf 0 % 2 ^ 64) status info).cqTake q n true

def ceOp (e : Nat) : Nat := e % 256

/-- Entries of the command at the front of a list of entries: a DESC carries its descriptors. -/
def ceLen (e : Nat) : Nat := if ceOp e = 1 then 1 + df e 10 7 0 else 1

/-- FLUSH: every command that has been fetched completes as FLUSHED up to the count it was given; then the queue restarts. -/
def State.cqFlushRun (q : Nat) : Nat → State → State
  | 0, s => s
  | f + 1, s =>
    let c := s.cq q
    match c.flushTo with
    | none => s
    | some t =>
      if t ≤ c.next then
        (s.setCq q { c with flushTo := none }).setReg (pCQ q) R.HPT_CQ_STS (s.reg (pCQ q) R.HPT_CQ_STS &&& 0xFFFFFFF6)
      else if c.buf = [] then s
      else
        let n := min (ceLen (nth 0 c.buf 0)) (t - c.next)
        if c.buf.length < n then s else (s.cqFinish q n 5).cqFlushRun q f

/-- A write of HPT_CQ_TAIL (R455). -/
def cqTailWrite (q v : Nat) (s : State) : State :=
  let old := s.reg (pCQ q) R.HPT_CQ_TAIL % 2 ^ 16
  if tailOk (2 ^ s.cqLog q) (s.reg (pCQ q) R.HPT_CQ_HEAD % 2 ^ 16) old (v % 2 ^ 16) then
    s.setReg (pCQ q) R.HPT_CQ_TAIL (v % 2 ^ 16)
  else s.orReg (pCQ q) R.HPT_CQ_STS 4

/-- RESUME (R460): a halted queue restarts at the next command. -/
def State.cqResume (s : State) (q : Nat) : State :=
  s.setReg (pCQ q) R.HPT_CQ_STS (s.reg (pCQ q) R.HPT_CQ_STS &&& 0xFFFFFFF6)

/-- FLUSH (R460). -/
def State.cqFlush (s : State) (q : Nat) : State :=
  let t := s.cqTail q
  (s.modCq q fun c => { c with flushTo := some t }).cqFlushRun q (t - (s.cq q).next + 2)

/-- A write of HPT_CQ_CTL (R455, R460, R461). -/
def cqCtlWrite (q v : Nat) (s : State) : State :=
  let old := s.reg (pCQ q) R.HPT_CQ_CTL
  let s1 := s.setReg (pCQ q) R.HPT_CQ_CTL (b2n (bit v 0) + bits v 8 3 * 2 ^ 3 + bits v 20 16 * 2 ^ 16)
  let s2 := if bit v 0 && !bit old 0 then
      ((((s1.dropCopies (· == q)).setCq q {}).setReg (pCQ q) R.HPT_CQ_TAIL 0).setReg (pCQ q) R.HPT_CQ_HEAD 0).setFld (pCQ q) R.HPT_CQ_STS 2 2 0
    else s1
  let s3 := if bit v 1 then s2.cqResume q else s2
  if bit v 2 then s3.cqFlush q else s3

/-- An address register of a queue. -/
def cqAddrWrite (q off v : Nat) (s : State) : State :=
  s.setReg (pCQ q) off (if off = R.HPT_CQ_BASE_LO ∨ off = R.HPT_CQ_CMPL_LO then v / 4096 * 4096 else v)

/-- A write of a queue page. -/
def cqWrite (q off v : Nat) (s : State) : State :=
  if off = R.HPT_CQ_TAIL then cqTailWrite q v s
  else if off = R.HPT_CQ_CTL then cqCtlWrite q v s
  else if R.HPT_CQ_BASE_LO ≤ off ∧ off ≤ R.HPT_CQ_CMPL_HI then cqAddrWrite q off v s
  else s

/-- CQ_ENABLE (R455). -/
def execCqEnable (port queue value : Nat) (s : State) : Host.Outcome State Fault Refusal :=
  .next (if queue < 64 then s.onWrite (.port port) (pCQ queue) R.HPT_CQ_CTL (cqCtlWrite queue value) else s)

/-- CQ_DOORBELL (R455). -/
def execCqDoorbell (port queue value : Nat) (s : State) : Host.Outcome State Fault Refusal :=
  .next (if queue < 64 then s.onWrite (.port port) (pCQ queue) R.HPT_CQ_TAIL (cqTailWrite queue value) else s)

/-- CQ_RESUME (R460): a write of HPT_CQ_CTL with RESUME = 1. -/
def execCqResume (port queue value : Nat) (s : State) : Host.Outcome State Fault Refusal :=
  .next (if queue < 64 then s.onWrite (.port port) (pCQ queue) R.HPT_CQ_CTL (cqCtlWrite queue (setBit value 1 true)) else s)

/-- CQ_FLUSH (R460): a write of HPT_CQ_CTL with FLUSH = 1. -/
def execCqFlush (port queue value : Nat) (s : State) : Host.Outcome State Fault Refusal :=
  .next (if queue < 64 then s.onWrite (.port port) (pCQ queue) R.HPT_CQ_CTL (cqCtlWrite queue (setBit value 2 true)) else s)

/-! ### Detach and return (R468, R469) -/

/-- Queues assigned to a port. -/
def State.portQueues (s : State) (h : Nat) : List Nat := (List.range 64).filter fun q => s.queuePort q == some h

/-- A port detaches (R468), in the order of the rule. -/
def State.detach (s : State) (h cause : Nat) : State :=
  let s1 := (s.portQueues h).foldl (fun a q => a.orReg (pCQ q) R.HPT_CQ_STS 9) s
  let s2 := s1.setHptSts h 9 true
  let s3 := (s2.setFld (pHPT h) R.HPT_STS 12 10 0).modPort h fun p =>
    { p with ideKeys := [], session := 0, keySel := 0, keyWords := [], keySalt := 0, timeouts := 0 }
  let s4 := s3.raise (pHPT h) 0 cause
  let p := s4.portPart h
  if 6 ≤ p then s4
  else
    let s5 := (s4.orReg (pPRTP p) R.PRT_P_STS 4).raise (pPRTP p) 0 h
    if bit (s5.reg (pPRTP p) R.PRT_P_CTL) 1 && s5.pagePart pSTP == p && s5.stpEn then
      (s5.setStsBit 7 true).modStep fun x => { x with orphanStop := true }
    else s5

/-- The registers that an FLR, a hot reset or PERST# resets (R469): the HPT_ page from 0x040, queue pages, MSI-X table. -/
def State.resetPort (s : State) (h : Nat) : State :=
  let sts := s.reg (pHPT h) R.HPT_STS
  let s1 := (s.resetBlock (pHPT h)).setReg (pHPT h) R.HPT_STS sts
  let s2 := (s1.portQueues h).foldl (fun a q => ((a.dropCopies (· == q)).resetPage (pCQ q)).setCq q {}) s1
  (s2.resetPage (pMSIX h)).modPort h fun p =>
    { p with pba := 0, holdoff := [], merged := 0, win := [], timeouts := 0, resetDue := false }

/-- What a reset of the function or its link does at once to its configuration space. -/
def State.resetCfg (s : State) (h : Nat) : State :=
  s.modPort h fun p => { p with busMaster := false, msixEn := false, funcMask := false, resetDue := true, spdm := 0 }

/-- Host ports work: HIO on. -/
def State.hostOn (s : State) (h : Nat) : Bool := s.aoOn && decide (h < 8) && s.domOn 40

/-- PCIE_LINK_DOWN (R468). -/
def execPcieLinkDown (port : Nat) (s : State) : Host.Outcome State Fault Refusal :=
  .next (if s.hostOn port && s.linkUp port then
    let s1 := s.setHptSts port 0 false
    if s1.detached port then s1 else s1.detach port 1
  else s)

/-- HOT_RESET (R468). -/
def execHotReset (port : Nat) (s : State) : Host.Outcome State Fault Refusal :=
  .next (if s.hostOn port && s.linkUp port then
    let s1 := (s.setHptSts port 0 false).resetCfg port
    if s1.detached port then s1 else s1.detach port 2
  else s)

/-- FLR (R468). -/
def execFlr (port : Nat) (s : State) : Host.Outcome State Fault Refusal :=
  .next (if s.portUp port then
    let s1 := s.resetCfg port
    if s1.detached port then s1 else s1.detach port 3
  else s)

/-- D3HOT_ENTRY (R468). -/
def execD3hotEntry (port : Nat) (s : State) : Host.Outcome State Fault Refusal :=
  .next (if s.portUp port then
    let s1 := s.setHptSts port 13 true
    if s1.detached port then s1 else s1.detach port 4
  else s)

/-- A port's link is up and it is in D0 (R469): its first training raises nothing. -/
def State.portReturn (s : State) (h rate width : Nat) : State :=
  let was := s.detached h
  let s1 := if (s.port h).resetDue then s.resetPort h else s
  let s2 := s1.setReg (pHPT h) R.HPT_STS (1 + rate * 2 ^ 1 + width * 2 ^ 4)
  if was = false then s2
  else
    let s3 := s2.notice (pHPT h) 1
    let p := s3.portPart h
    if 6 ≤ p then s3
    else
      let o := bit (s3.reg (pPRTP p) R.PRT_P_STS) 2
      let s4 := s3.setFld (pPRTP p) R.PRT_P_STS 2 2 0
      if o then s4.notice (pPRTP p) 1 else s4

/-- An instruction of the test access port that holds the pads (R561): EXTEST, CLAMP, HIGHZ, EXTEST_PULSE, EXTEST_TRAIN. -/
def State.padsHeld (s : State) : Bool := [0, 4, 5, 6, 7].contains s.tap.ir

/-- PORT_RETURN (R469). -/
def execPortReturn (port rate width : Nat) (s : State) : Host.Outcome State Fault Refusal :=
  .next (if s.hostOn port && (s.port port).perstN && !s.padsHeld && (!s.linkUp port || s.detached port || s.hptSts port 13) then
    s.portReturn port (rate % 8) (width % 32)
  else s)

/-- The supervisor releases a port once it has booted or entered RECOVERY and PERST# is deasserted (R442, R470, R471). -/
def State.release (s : State) (h : Nat) : State :=
  if s.sec.booted && !s.pwr.held && (s.port h).perstN then s.modPort h fun p => { p with released := true } else s

/-- PERST_N_CHANGE (R442): assertion resets the port, its link goes down; deassertion starts its release. -/
def execPerstNChange (port : Nat) (level : Bool) (s : State) : Host.Outcome State Fault Refusal :=
  .next (
    if s.aoOn = false ∨ 8 ≤ port then s
    else
      let s0 := s.modPort port fun p => { p with perstN := level }
      if level then s0.release port
      else
        let s1 := (s0.modPort port fun p => { p with released := false }).resetCfg port
        if s1.linkUp port = false then s1
        else
          let s2 := s1.setHptSts port 0 false
          if s2.detached port then s2 else s2.detach port 1)

end Sys2Proof.Machine
end

