-- ==== Sys2Proof/Machine/Part.lean ====
section
/-! DEFINITION. Machine/Part.lean: partitions (R464 to R466, R478, R536): the writes that reassign districts, ports, far ranges and
pages, and the rule under which they are accepted. -/
namespace Sys2Proof.Machine

/-- Partition p is STOPPED (R466): tiles empty, no courier engine busy, its owner port's queues disabled. -/
def State.stopped (s : State) (p : Nat) : Bool :=
  let ds := (List.range 6).filter fun d => s.partOf d == p
  (ds.all fun d => (allTiles.filter fun t => t / 256 == d).all fun t => s.depth (s.siteOf t) == 0) &&
  (s.xfers.all fun x => !ds.contains (x.engine / 16)) &&
  ((s.portQueues (s.ownerPort p)).all fun q => !s.cqEn q)

/-- PRT_P_STS as read (R478). -/
def State.prtPSts (s : State) (p : Nat) : Nat :=
  b2n (s.partValid p) + b2n (s.stopped p) * 2 + bits (s.reg (pPRTP p) R.PRT_P_STS) 2 2 * 4 +
  sumNat ((List.range 6).map fun d => b2n (s.partOf d == p) * 2 ^ (4 + d))

/-- Every partition that holds a district is valid (R464). -/
def State.allValid (s : State) : Bool := (List.range 6).all fun p => !s.holdsDistrict p || s.partValid p

/-- An ignored write: PRT_ERR with its register (R466). -/
def State.prtErr (s : State) (page off : Nat) : State :=
  (s.setReg pPRT R.PRT_ERR_INFO (page % 2 ^ 14 + off / 4 * 2 ^ 16)).notice pPRT 0

/-- Key slots of a partition are zeroed (R466). -/
def State.dropKeys (s : State) (p : Nat) : State :=
  { s with sec := { s.sec with keys := s.sec.keys.filter fun e => e.1 / 16 != p } }

/-- After a change, partitions that lost a district or validity lose their keys. -/
def State.keysAfter (old s : State) : State :=
  (List.range 6).foldl (fun a p =>
    let lost := (List.range 6).any fun d => old.partOf d == p && s.partOf d != p
    if lost || (old.partValid p && !s.partValid p) then a.dropKeys p else a) s

/-- A write that R466 governs: `parts` are the partitions it takes from and gives to, `act` the change. -/
def prtChange (page off : Nat) (parts : List Nat) (act : State → State) (s : State) : State :=
  let s1 := act s
  if (parts.all fun p => decide (6 ≤ p) || s.stopped p) && s1.allValid then s.keysAfter s1 else s.prtErr page off

/-- The write from its source: only the admin port and the supervisor are heard; a port that may not write the page is refused,
and its write is one that R466 ignores with PRT_ERR. -/
def State.onPrt (s : State) (src : Src) (page off : Nat) (act : State → State) : State :=
  match s.judge src page off true with
  | .granted =>
    (match src with
     | .port h => if h = s.adminPort then act (s.touchDebug page) else s.prtErr page off
     | .device _ => s.prtErr page off
     | .supervisor => act (s.touchDebug page))
  | .denied h r => let s1 := s.deny h page r
                   if r = dnOwner then s1.prtErr page off else s1
  | _ => s

def prtMapWrite (d v : Nat) (s : State) : State :=
  let off := R.PRT_MAP + 4 * d
  let new := if v % 8 = 6 then 7 else v % 8
  prtChange pPRT off [s.partOf d, new] (fun a => a.setReg pPRT off (v % 8)) s

def prtOwnerWrite (p v : Nat) (s : State) : State :=
  prtChange (pPRTP p) R.PRT_P_OWNER [p] (fun a => a.setReg (pPRTP p) R.PRT_P_OWNER (v % 8)) s

def prtFarWrite (p : Nat) (size : Bool) (v : Nat) (s : State) : State :=
  let off := if size then R.PRT_P_FAR_SIZE else R.PRT_P_FAR_BASE
  prtChange (pPRTP p) off [p] (fun a => a.setReg (pPRTP p) off (v % 4096)) s

/-- A write of PAGE_OWNER: ignored on district-bound pages (R536); FEEDERS exist in stream pages only. -/
def pageOwnerWrite (page v : Nat) (s : State) : State :=
  match pageBlk page with
  | none => s
  | some (b, i) =>
    if b.bound || (b == .dbg && i != 0) then s
    else
      let feeders := if b = .ings then bits v 15 8 * 2 ^ 8 else 0
      prtChange page R.PAGE_OWNER [s.pagePart page, v % 8] (fun a => a.setReg page R.PAGE_OWNER (v % 8 + feeders)) s

/-- PAGE_OWNER as read: BOUND pages follow the maps (R466, R536). -/
def State.pageOwnerView (s : State) (page : Nat) : Nat :=
  match pageBlk (s.canon page) with
  | none => 0
  | some (b, i) => if b.bound || (b == .dbg && i != 0) then s.pagePart page + 8 else s.reg page R.PAGE_OWNER

/-- PRT_MAP_WRITE (R466). -/
def execPrtMapWrite (src : Src) (district value : Nat) (s : State) : Host.Outcome State Fault Refusal :=
  .next (if district < 6 then s.onPrt src pPRT (R.PRT_MAP + 4 * district) (prtMapWrite district value) else s)

/-- PRT_P_OWNER_WRITE (R466). -/
def execPrtPOwnerWrite (src : Src) (part value : Nat) (s : State) : Host.Outcome State Fault Refusal :=
  .next (if part < 6 then s.onPrt src (pPRTP part) R.PRT_P_OWNER (prtOwnerWrite part value) else s)

/-- PRT_FAR_WRITE (R466). -/
def execPrtFarWrite (src : Src) (part : Nat) (size : Bool) (value : Nat) (s : State) : Host.Outcome State Fault Refusal :=
  .next (if part < 6 then
    s.onPrt src (pPRTP part) (if size then R.PRT_P_FAR_SIZE else R.PRT_P_FAR_BASE) (prtFarWrite part size value) else s)

/-- PAGE_OWNER_WRITE (R466). -/
def execPageOwnerWrite (src : Src) (page value : Nat) (s : State) : Host.Outcome State Fault Refusal :=
  .next (if isBar2 page then s else s.onPrt src page R.PAGE_OWNER (pageOwnerWrite page value))

end Sys2Proof.Machine
end

