-- ==== Sys2Proof/Machine/Sec.lean ====
section
/-! DEFINITION. Machine/Sec.lean: boot verification, images, the SPDM responder, the key store and clearing (R470 to R476, R479). -/
namespace Sys2Proof.Machine

def State.modSec (s : State) (f : SecState → SecState) : State := { s with sec := f s.sec }

/-! ### Images (R470, R471) -/

/-- Four bytes of a list as a little-endian number. -/
def le4 (l : List Nat) (off : Nat) : Nat := leNat ((l.drop off).take 4)

/-- The bytes of an image: its header and LENGTH bytes. -/
def imageOf (l : List Nat) : List Nat := l.take (512 + le4 l 4)

/-- Verification of an image (R470), checks in the rule's order: 0 pass, 1 header, 2 digest, 3 signature, 4 SVN. -/
def verifyImage (l : List Nat) (fused : Nat) : Nat :=
  let img := imageOf l
  if le4 l 0 ≠ 0x56515347 ∨ 8 * 2 ^ 20 < le4 l 4 ∨ img.length < 512 + le4 l 4 then 1
  else if le4 l 8 < fused then 4
  else
    let pub := (l.drop 0x10).take 97
    if sha384 pub ≠ (List.range 48).map (fun k => Sys2Proof.Config.rootDigest k % 256) then 2
    else if ecdsaOk pub ((l.drop 0x71).take 96) (img.take 0x71 ++ List.replicate 96 0 ++ img.drop 0xD1) then 0
    else 3

/-- Ports whose PERST# is deasserted are released (R470). -/
def State.releaseAll (s : State) : State := (List.range 8).foldl (fun a h => a.release h) s

/-- An image runs: digest, slot and versions (R470). -/
def State.runImage (s : State) (l : List Nat) (slot : Nat) : State :=
  let dg := sha384 (imageOf l)
  let s1 := (List.range 12).foldl (fun a k => a.setReg pSEC (R.SEC_MEAS + 4 * k) (leNat ((dg.drop (4 * k)).take 4))) s
  (s1.setFld pSEC R.SEC_STS 15 3 (slot + le4 l 8 % 256 * 2 ^ 5)).modSec fun x => { x with svnRun := le4 l 8 }

/-- What flash holds in a slot: the image programmed last, else what it came with. -/
def State.flashSlot (s : State) (slot : Nat) (orig : List Nat) : List Nat :=
  ((s.sec.flash.find? fun e => e.1 == slot).map (·.2)).getD orig

/-- The end of boot (R470, R471). -/
def State.bootDone (s : State) (res : BootResult) : State :=
  let a := s.flashSlot 0 res.slotA
  let b := s.flashSlot 1 res.slotB
  let va := verifyImage a s.sec.svnFused
  let done := fun (st : State) => (st.modSec fun x => { x with booted := true }).releaseAll
  if va = 0 then done (s.runImage a 1)
  else if verifyImage b s.sec.svnFused = 0 then done ((s.runImage b 2).raise pSEC 2 va)
  else done (s.orReg pSEC R.SEC_STS 4)

/-- SEC_STS as read: SVN_FUSED has its home in the fuses. -/
def State.secSts (s : State) : Nat := setBits (s.reg pSEC R.SEC_STS) 23 16 s.sec.svnFused

/-- The staging area's bytes. -/
def State.stagedBytes (s : State) : List Nat := (List.range (16 * 2 ^ 20)).map fun k => sget 0 s.sec.staging k

/-- A write of SEC_IMG_CTL (R471): STAGE maps the writing port's entry 15; PROGRAM verifies what is staged. -/
def imgCtlWrite (src : Src) (v : Nat) (s : State) : State :=
  let old := s.reg pSEC R.SEC_IMG_CTL
  let s1 := s.setReg pSEC R.SEC_IMG_CTL (setBits (setBit old 0 (bit v 0)) 2 2 (v / 4))
  let s2 := match src with
    | .port h => s1.modPort h fun p => { p with staged := bit v 0 }
    | _ => s1
  if bit v 1 && !bit old 3 then
    let img := s2.stagedBytes
    let r := match verifyImage img s2.sec.svnFused with
      | 0 => 1
      | 1 => 2
      | 4 => 4
      | _ => 3
    (s2.setFld pSEC R.SEC_IMG_CTL 6 3 1).modSec fun x => { x with job := some ⟨bits v 2 2, imageOf img, r⟩ }
  else s2

/-- IMAGE_STAGE (R471). -/
def execImageStage (src : Src) (s : State) : Host.Outcome State Fault Refusal :=
  .next (s.onWrite src pSEC R.SEC_IMG_CTL (imgCtlWrite src (s.reg pSEC R.SEC_IMG_CTL % 8 / 4 * 4 + 1)))

/-- IMAGE_PROGRAM (R471). -/
def execImageProgram (src : Src) (s : State) : Host.Outcome State Fault Refusal :=
  .next (s.onWrite src pSEC R.SEC_IMG_CTL (imgCtlWrite src (s.reg pSEC R.SEC_IMG_CTL % 8 / 4 * 4 + 3)))

/-- IMG_DONE (R471): a verified image is in flash unless the flash failed. -/
def execImgDone (flashOk : Bool) (s : State) : Host.Outcome State Fault Refusal :=
  .next (
    match s.aoOn, s.sec.job with
    | true, some j =>
      let r := if j.result = 1 && !flashOk then 5 else j.result
      let s1 := s.modSec fun x =>
        { x with job := none, flash := if r = 1 then sput x.flash j.slot j.image else x.flash }
      (s1.setFld pSEC R.SEC_IMG_CTL 6 3 (r * 2)).notice pSEC 3
    | _, _ => s)

/-- A write of SEC_SVN_COMMIT (R471): the admin port only. -/
def svnCommitWrite (src : Src) (v : Nat) (s : State) : State :=
  if src = .port s.adminPort ∧ bit v 0 = true then s.modSec fun x => { x with svnFused := max x.svnFused x.svnRun } else s

/-- SVN_COMMIT (R471). -/
def execSvnCommit (src : Src) (s : State) : Host.Outcome State Fault Refusal :=
  .next (s.onWrite src pSEC R.SEC_SVN_COMMIT (svnCommitWrite src 1))

/-! ### SPDM (R472): the layout of its messages is another standard's (log entry 30) -/

/-- The responder answers requests at this port's mailbox. -/
def State.spdmRuns (s : State) (h : Nat) : Bool := decide (h < 8) && s.portUp h && s.live && s.sec.booted && !s.recovery

/-- Request `code` is answered; `can` says whether the exchanges before it have taken place, `act` what it changes. -/
def State.spdm (s : State) (h code : Nat) (req : List Nat) (can : Bool) (act : PortState → PortState) : State :=
  if s.spdmRuns h then
    let p := s.port h
    let meas := ((List.range 12).map fun k => leBytes (s.reg pSEC (R.SEC_MEAS + 4 * k)) 4).flatten
    let ans := Sys2Proof.Config.spdmReply code req (p.spdm :: p.session :: meas)
    let s1 := { s with out := s.out ++ [.reply h ans] }
    if can && Sys2Proof.Config.spdmAccept code h req then s1.modPort h act else s1
  else s

/-- GET_VERSION (R472). -/
def execGetVersion (port : Nat) (req : List Nat) (s : State) : Host.Outcome State Fault Refusal :=
  .next (s.spdm port 0x84 req true fun p => { p with spdm := 1, session := 0 })

/-- GET_CAPABILITIES (R472). -/
def execGetCapabilities (port : Nat) (req : List Nat) (s : State) : Host.Outcome State Fault Refusal :=
  .next (s.spdm port 0xE1 req (decide (1 ≤ (s.port port).spdm)) fun p => { p with spdm := max p.spdm 2 })

/-- NEGOTIATE_ALGORITHMS (R472). -/
def execNegotiateAlgorithms (port : Nat) (req : List Nat) (s : State) : Host.Outcome State Fault Refusal :=
  .next (s.spdm port 0xE3 req (decide (2 ≤ (s.port port).spdm)) fun p => { p with spdm := 3 })

/-- GET_DIGESTS (R472). -/
def execGetDigests (port : Nat) (req : List Nat) (s : State) : Host.Outcome State Fault Refusal :=
  .next (s.spdm port 0x81 req (decide ((s.port port).spdm = 3)) id)

/-- GET_CERTIFICATE (R472). -/
def execGetCertificate (port : Nat) (req : List Nat) (s : State) : Host.Outcome State Fault Refusal :=
  .next (s.spdm port 0x82 req (decide ((s.port port).spdm = 3)) id)

/-- CHALLENGE (R472). -/
def execChallenge (port : Nat) (req : List Nat) (s : State) : Host.Outcome State Fault Refusal :=
  .next (s.spdm port 0x83 req (decide ((s.port port).spdm = 3)) id)

/-- GET_MEASUREMENTS (R472): the running image's digest is among what the answer is made from. -/
def execGetMeasurements (port : Nat) (req : List Nat) (s : State) : Host.Outcome State Fault Refusal :=
  .next (s.spdm port 0xE0 req (decide ((s.port port).spdm = 3)) id)

/-- KEY_EXCHANGE (R472). -/
def execKeyExchange (port : Nat) (req : List Nat) (s : State) : Host.Outcome State Fault Refusal :=
  .next (s.spdm port 0xE4 req (decide ((s.port port).spdm = 3) && decide ((s.port port).session = 0))
    fun p => { p with session := 1 })

/-- FINISH (R472). -/
def execFinish (port : Nat) (req : List Nat) (s : State) : Host.Outcome State Fault Refusal :=
  .next (s.spdm port 0xE5 req (decide ((s.port port).session = 1)) fun p => { p with session := 2 })

/-- END_SESSION (R472). -/
def execEndSession (port : Nat) (req : List Nat) (s : State) : Host.Outcome State Fault Refusal :=
  .next (s.spdm port 0xEC req (decide ((s.port port).session = 2)) fun p => { p with session := 0 })

/-! ### Keys (R473 to R476) -/

/-- KEY_REFUSED with its reason in ERR_INFO0 (R473). -/
def State.keyRefuse (s : State) (code : Nat) : State := (s.setReg pSEC R.ERR_INFO0 code).notice pSEC 1 code

/-- KEYS_CLEARED leaves its set state at the first accepted load, install or IDE key programming (R476). -/
def State.holdsKeys (s : State) : State := s.setFld pSEC R.SEC_STS 0 0 0

/-- Why a key command of a port is refused (R473), reasons in the order of its table; none where it is accepted. -/
def State.keyRefusal (s : State) (h : Nat) : Option Nat :=
  if !s.hptSts h 10 && !bit (s.reg pSEC R.SEC_CTL) 0 then some 1
  else if 6 ≤ s.portPart h then some 2
  else if bit (s.reg pSEC R.SEC_STS) 1 || s.sec.scanHold then some 3
  else none

/-- A write to a key command register from its source: from the device side it is refused with DEVICE; a port that may not write
the page is refused as one, and its command as NOT_OWNER. -/
def State.onKey (s : State) (src : Src) (off : Nat) (act : Nat → State → State) : State :=
  match src with
  | .device _ => if s.live then s.keyRefuse 5 else s
  | .port h =>
    (match s.judge src pSEC off true with
     | .granted => act h s
     | .denied k r => let s1 := s.deny k pSEC r
                      if r = dnOwner && !s.recovery then s1.keyRefuse 2 else s1
     | _ => s)
  | .supervisor => if s.aoOn then s.keyRefuse 2 else s

/-- SEC_KEY_CMD (R473). -/
def keyCmdWrite (v h : Nat) (s : State) : State :=
  if v % 4 = 0 then s
  else
    match s.keyRefusal h with
    | some c => s.keyRefuse c
    | none =>
      let part := s.portPart h
      let p := s.port h
      let ix := part * 16 + p.keySel % 16
      let s1 := if bit v 0 then
          let key := ((List.range 8).map fun k => leBytes (sget 0 p.keyWords k) 4).flatten
          let kcv := leNat ((aes256 key (List.replicate 16 0)).take 4)
          ((s.modSec fun x => { x with keys := sput x.keys ix (leNat key, p.keySalt) }).modPort h fun q =>
            { q with keyWords := [], keySalt := 0, kcv := kcv }).holdsKeys
        else s
      if bit v 1 then s1.modSec fun x => { x with keys := sdel x.keys ix } else s1

/-- KEY_LOAD (R473): a write of SEC_KEY_CMD. -/
def execKeyLoad (src : Src) (value : Nat) (s : State) : Host.Outcome State Fault Refusal :=
  .next (s.onKey src R.SEC_KEY_CMD (keyCmdWrite (setBit value 0 true)))

/-- KEY_ERASE (R473): a write of SEC_KEY_CMD. -/
def execKeyErase (src : Src) (value : Nat) (s : State) : Host.Outcome State Fault Refusal :=
  .next (s.onKey src R.SEC_KEY_CMD (keyCmdWrite (setBit value 1 true)))

/-- A key and salt installed into a link's key slot (R474); its counter starts at 0, and a segment in hand goes on under the key it
began with. -/
def State.installKey (s : State) (g k dir slot : Nat) (key : Nat × Nat) : State :=
  let l := s.link g k
  let busyRx := dir == 1 && (match l.seg with
    | [] => false
    | e :: _ => fhPhase e.1 == slot)
  let busyTx := dir == 0 && l.txSeg != 0 && s.fld (pGAT g) (lnkReg k R.GAT_LNK_STS) 5 5 == slot
  let old := if l.rxOld.isSome then l.rxOld else s.linkKey g k 1 slot
  let s1 := if busyRx then s.setLink g k { l with rxOld := old }
            else if busyTx then s.setLink g k { l with txOld := true } else s
  { s1 with linkKeys := sput s1.linkKeys (linkIx g k * 4 + dir * 2 + slot) (key.1, (key.2, 0)) }

/-- SEC_LINK_CMD (R474). -/
def linkCmdWrite (v h : Nat) (s : State) : State :=
  if bit v 31 = false then s
  else
    let link := v % 128
    let g := link / 12
    let k := link % 12
    let dir := bits v 7 7
    let slot := bits v 8 8
    match s.keyRefusal h with
    | some c => s.keyRefuse c
    | none =>
      let part := s.portPart h
      if 96 ≤ link ∨ s.pagePart (pGAT g) ≠ part then s.keyRefuse 2
      else
        match s.sec.keys.find? fun e => e.1 == part * 16 + bits v 12 9 with
        | none => s.keyRefuse 4
        | some e =>
          let s1 := (s.installKey g k dir slot e.2).holdsKeys
          if bit v 13 && dir == 0 then (s1.modLink g k fun l => { l with switchTo := some slot }).turnPhase g k else s1

/-- LINK_KEY_INSTALL (R474): a write of SEC_LINK_CMD. -/
def execLinkKeyInstall (src : Src) (value : Nat) (s : State) : Host.Outcome State Fault Refusal :=
  .next (s.onKey src R.SEC_LINK_CMD (linkCmdWrite (setBit value 31 true)))

/-- A staging register of a port (R473): the slot, a key word, or the salt. -/
def keyStageWrite (off v h : Nat) (s : State) : State :=
  if off = R.SEC_KEY_SEL then s.modPort h fun p => { p with keySel := v % 16 }
  else if off = R.SEC_KEY_SALT then s.modPort h fun p => { p with keySalt := v }
  else if R.SEC_KEY_DATA ≤ off ∧ off < R.SEC_KEY_DATA + 32 then
    s.modPort h fun p => { p with keyWords := sset 0 p.keyWords ((off - R.SEC_KEY_DATA) / 4) v }
  else s

/-- SEC_KEY_VALID as a port reads it. -/
def State.keyValid (s : State) (h : Nat) : Nat :=
  let part := s.portPart h
  if 6 ≤ part then 0 else sumNat ((s.sec.keys.filter fun e => e.1 / 16 == part).map fun e => 2 ^ (e.1 % 16))

/-- A write of SEC_CLEAR (R476), steps 1 and 2: the admin port and the supervisor only. -/
def secClearWrite (src : Src) (v : Nat) (s : State) : State :=
  if bit v 0 = false ∨ (src ≠ .supervisor ∧ src ≠ .port s.adminPort) then s
  else
    let s1 := (s.orReg pSEC R.SEC_STS 2).modSec fun x => { x with keys := [] }
    let s2 := (List.range 8).foldl (fun a h => (a.setFld (pHPT h) R.HPT_STS 12 10 0).modPort h fun p =>
      { p with keyWords := [], keySalt := 0, ideKeys := [] }) s1
    let enc := (List.range 96).filter fun n => s2.encOn (n / 12) (n % 12) && s2.inState (n / 12) (n % 12) lsActive
    enc.foldl (fun a n => a.linkDown (n / 12) (n % 12)) { s2 with linkKeys := [] }

/-- SEC_CLEAR (R476). -/
def execSecClear (src : Src) (s : State) : Host.Outcome State Fault Refusal :=
  .next (s.onWrite src pSEC R.SEC_CLEAR (secClearWrite src 1))

/-- Step 3 of a clear (R476). -/
def State.keysCleared (s : State) : State :=
  if s.aoOn && bit (s.reg pSEC R.SEC_STS) 1 then (s.setFld pSEC R.SEC_STS 1 0 1).notice pSEC 0 else s

/-- HPT_STS bit of an IDE stream: 0 the link stream, 1 and 2 selective streams. -/
def ideBit (stream : Nat) : Nat := 10 + stream

/-- IDE_KM (R475, R476). -/
def execIdeKm (port stream : Nat) (msg : List Nat) (s : State) : Host.Outcome State Fault Refusal :=
  .next (
    if s.spdmRuns port && decide ((s.port port).session = 2) && decide (stream < 3) then
      if bit (s.reg pSEC R.SEC_STS) 1 || s.sec.scanHold then
        (if Sys2Proof.Config.ideProgram msg then s.keyRefuse 3 else s)
      else
        let s1 := if Sys2Proof.Config.ideProgram msg then
            (s.modPort port fun p => { p with ideKeys := sput p.ideKeys stream msg }).holdsKeys
          else s
        if Sys2Proof.Config.ideStart msg && (s1.port port).ideKeys.any fun e => e.1 == stream then
          s1.setHptSts port (ideBit stream) true
        else s1
    else s)

/-- IDE_LOST (R475). -/
def execIdeLost (port stream : Nat) (s : State) : Host.Outcome State Fault Refusal :=
  .next (
    if s.hostOn port && decide (stream < 3) && s.hptSts port (ideBit stream) then
      (s.setHptSts port (ideBit stream) false).raise (pHPT port) 4 stream
    else s)

end Sys2Proof.Machine
end

