-- ==== Sys2Proof/Machine/Reset.lean ====
section
/-! DEFINITION. Machine/Reset.lean: soft resets (R450, R425, R532, R537), the loss of a domain's contents (R488), and the header
registers whose writes act (R449, R451). -/
namespace Sys2Proof.Machine

/-! ### Discarding a block's work (R450) -/

/-- Transfers that meet a condition vanish with what they hold; nothing retires. -/
def State.loseXfers (s : State) (hit : Xfer → Bool) : State :=
  (s.xfers.filter hit).foldl (fun a x => a.xFinish x.owner) s

/-- A tile's queued, parked and running descriptors are discarded without retiring (R425); its stores and registers of the units
keep what they hold. -/
def State.dropTile (s : State) (site : Nat) : State :=
  let s1 := (s.blurSite site).loseXfers fun x => x.owner.site == site
  let t := s1.tile site
  s1.setTile site { banks := t.banks, vregs := t.vregs, pregs := t.pregs, stats := t.stats, acts := t.acts }

/-- Samples of a stream vanish with their grants and requests. -/
def State.dropStream (s : State) (k : Nat) : State :=
  let s1 := (s.str k).samples.foldl (fun a m => (a.abandon k m).dropSample k m) s
  s1.setStr k {}

/-- Sources that hold a register file's reset but not its status: what a soft reset leaves of NMC_STS, TIL_SRAM_STS and so on. -/
def State.resetKeeping (s : State) (page : Nat) (keep : List Nat) : State :=
  keep.foldl (fun a off => a.setReg page off (s.reg page off)) (s.resetBlock page)

/-- The block of a page drops its work and its registers return to their reset values (R450). The always-on blocks are not
affected (R537). -/
def State.dropBlock (s : State) (page : Nat) : State :=
  match pageBlk page with
  | none => s
  | some (b, i) =>
    match b with
    | .til => (s.dropTile page).resetKeeping page [R.TIL_SRAM_STS, R.TIL_STAT_EPOCH]
    | .dst => s.resetBlock page
    | .sqr =>
      { s with barriers := s.barriers.filter fun e => e.1 / 64 != i
               arrivals := s.arrivals.filter fun m => barrierHome m.tile m.barId != i }
    | .nmc | .fmc => s.resetKeeping page [R.NMC_STS]
    | .dbg => { s with dbgStep := sdel s.dbgStep i }.resetBlock page
    | .cur => s.xFaultAll 0x12 fun x => x.engine == i
    | .crs =>
      let c := s.crs i
      let s1 := c.grants.foldl (fun a g => a.endGrant i g.1) s
      (s1.setCrs i { (s1.crs i) with lost := [], urgents := [], winStart := s.mt }).resetBlock page
    | .ing => { s with tokQueue := [] }.resetBlock page
    | .ings => (s.dropStream (i - 1)).resetBlock page
    | .kvs => ({ s with pools := [], kvWaiters := [], rings := [] }.dropReqs .ring).resetBlock page
    | .hdd => { s with dispatch := none }.resetBlock page
    | .stp => { s with step := {}, ctlOut := [], stashStacks := [] }.resetBlock page
    | .upd => s.resetBlock page
    | .ckp => (({ s with ckp := {} }.crsWithdraw .ckp).dropReqs .buddy).resetBlock page
    | .tok => { s with tokQueue := [] }.resetBlock page
    | .mde => s.resetBlock page
    | .exe => { s with encoders := sdel s.encoders i }.resetBlock page
    | .gatl =>
      { s with links := s.links.filter fun e => e.1 / 12 != i
               stranded := s.stranded.filter fun t => t.pkt.gate != i }.resetBlock page
    | .gats =>
      { s with gate := {}, routes := [], timeSynced := false, timeGood := 0, timeMissed := 0, slew := 0, slewTicks := 0 }.resetBlock page
    | .chk =>
      let s1 := ((s.crs 43).grants.filter fun g => g.1 == i).foldl (fun a g => a.endGrant 43 g.1) s
      { s1 with chk := sdel s1.chk i }.resetBlock page
    | .hpt =>
      let sts := s.reg page R.HPT_STS
      ((s.resetBlock page).setReg page R.HPT_STS sts).modPort i fun p =>
        { p with win := [], pba := 0, holdoff := [], merged := 0, timeouts := 0 }
    | _ => s

/-! ### The header (R449 to R451) -/

/-- PAGE_CTL (R449, R450, R537): EN and PWR_REQ are kept, SRST starts a soft reset of a block that has power. -/
def pageCtlWrite (page v : Nat) (s : State) : State :=
  let cp := s.canon page
  let s1 := s.setReg cp R.PAGE_CTL (v % 2 + bits v 2 2 * 4)
  match pageBlk cp with
  | none => s
  | some (b, _) =>
    if bit v 1 && !b.alwaysOn && s1.pageOn cp then
      let s2 := s1.dropBlock cp
      { s2 with srstBusy := sinsert cp s2.srstBusy }
    else s1

/-- SRST (R450): a write of PAGE_CTL with SRST = 1. -/
def execSrst (src : Src) (page : Nat) (s : State) : Host.Outcome State Fault Refusal :=
  .next (if isBar2 page then s
    else s.onWrite src page R.PAGE_CTL fun a => pageCtlWrite page (a.reg (a.canon page) R.PAGE_CTL + 2) a)

/-- SRST_DONE (R450). -/
def execSrstDone (page : Nat) (s : State) : Host.Outcome State Fault Refusal :=
  .next (if s.aoOn then { s with srstBusy := s.srstBusy.filter fun p => p != s.canon page } else s)

/-- EVT_FORCE (R449, R451, R541): the named events are raised as hardware would, their records carrying FORCED. -/
def evtForceWrite (page v : Nat) (s : State) : State :=
  match pageBlk (s.canon page) with
  | none => s
  | some (b, _) =>
    (List.range b.nevt).foldl (fun a e => if bit v e then a.raise page e 0 0 (decide (b = .stp ∧ e = 10)) true else a) (s.debugVoid page)

/-- EVT_FORCE_WRITE (R451). -/
def execEvtForceWrite (src : Src) (page value : Nat) (s : State) : Host.Outcome State Fault Refusal :=
  .next (if isBar2 page then s else s.onWrite src page R.EVT_FORCE (evtForceWrite page value))

/-- EVT_EN (R451): a bit that goes from 0 to 1 while its EVT_STS bit is 1 produces a signal. -/
def evtEnWrite (page v : Nat) (s : State) : State :=
  let cp := s.canon page
  match pageBlk cp with
  | none => s
  | some (b, _) =>
    let old := s.reg cp R.EVT_EN
    let s1 := s.setReg cp R.EVT_EN (v % 2 ^ 32)
    (List.range b.nevt).foldl (fun a e => if bit v e && !bit old e && bit (a.reg cp R.EVT_STS) e then a.signal page e else a) s1

/-- EVT_EN_WRITE (R451). -/
def execEvtEnWrite (src : Src) (page value : Nat) (s : State) : Host.Outcome State Fault Refusal :=
  .next (if isBar2 page then s else s.onWrite src page R.EVT_EN (evtEnWrite page value))

/-! ### Loss of a domain's contents (R488) -/

/-- Pages of a switched domain that hold registers now. -/
def State.domPages (s : State) (c : Nat) : List Nat :=
  uniq ((s.regs.map fun e => e.1 / 1024).filter fun p => match pageBlk p with
    | some (b, i) => pageDomain b i == some c
    | none => false)

/-- Registers from 0x040 upward of a domain's pages return to their reset values; TIL_STAT_EPOCH lies in FAB (R229). -/
def State.resetDomRegs (s : State) (c : Nat) : State :=
  (s.domPages c).foldl (fun a p => if p < 0x600 then a.resetKeeping p [R.TIL_STAT_EPOCH] else a.resetBlock p) s

/-- Sites of a tile group or spare street. -/
def domSites (c : Nat) : List Nat :=
  allSites.filter fun t => pageDomain .til t == some c

/-- A switched domain loses every content (R488). Far memory in self-refresh keeps its own (R318). -/
def State.loseDomain (s : State) (c : Nat) : State :=
  let s1 :=
    if c < 30 then (domSites c).foldl (fun a t =>
      ((a.loseXfers fun x => x.owner.site == t).setTile t {}).zeroRange (sramBase t) (sramBase t + 0x800000)) s
    else if c < 36 then s.zeroRange ((c - 30) * 2 ^ 37) ((c - 29) * 2 ^ 37)
    else if c = 36 then
      { s with crossings := [], xfers := [], reqs := [], signals := [], arrivals := [], barriers := [], step := {}, ctlOut := [],
               pools := [], kvWaiters := [], rings := [], dispatch := none, stashStacks := [], ckp := {}, chk := [] }
    else if c = 37 then (if s.pwr.farHeld = [] then s.zeroRange farBase 0x040000000000 else s)
    else if c = 38 then
      { s with links := [], stranded := [], routes := [], linkKeys := [], gate := {}, timeSynced := false, timeGood := 0,
               timeMissed := 0, slew := 0, slewTicks := 0 }
    else if c = 39 then { s with streams := [], tokQueue := [], encoders := [] }
    else
      let s0 := s.dropCopies fun _ => true
      { s0 with ports := s0.ports.map fun e => (e.1, { ({} : PortState) with perstN := e.2.perstN }), queues := [] }
  (s1.resetDomRegs c).setDom c false

end Sys2Proof.Machine
end

