-- ==== Sys2Proof/Machine/Domain.lean ====
section
/-! DEFINITION. Machine/Domain.lean: switched domains and PLLs (R486 to R494, R317, R318, R229): requests, turn-on and its start-up,
quiescence and turn-off, wake pacing, loss of lock. -/
namespace Sys2Proof.Machine

def State.modPwr (s : State) (f : PwrState → PwrState) : State := { s with pwr := f s.pwr }
def State.modGov (s : State) (f : GovState → GovState) : State := s.modPwr fun p => { p with gov := f p.gov }

/-! ### Power states (R508) -/

abbrev psNovin : Nat := 0
abbrev psCharge : Nat := 1
abbrev psReady : Nat := 2
abbrev psRun : Nat := 3
abbrev psParkPend : Nat := 4
abbrev psParking : Nat := 5
abbrev psParked : Nat := 6
abbrev psTripped : Nat := 7
abbrev psShutdown : Nat := 8
abbrev psHeld : Nat := 9

def State.pst (s : State) : Nat := s.fld pPWR R.PWR_STS 3 0
def State.setPst (s : State) (v : Nat) : State := s.setFld pPWR R.PWR_STS 3 0 v

/-! ### Requests (R487) -/

/-- Every domain from 0 to 39 but FAB needs FAB (R486). -/
def needsFab (c : Nat) : Bool := decide (c < 40) && c != 36

/-- A page of the domain asks for it through PAGE_CTL.PWR_REQ, which has an effect where PAGE_CAP.PWR is 1 (R449). -/
def State.pageAsks (s : State) (c : Nat) : Bool :=
  s.regs.any fun e => e.1 % 1024 == 2 && bit e.2.toNat 2 && (match pageBlk (e.1 / 1024) with
    | some (b, i) => pageDomain b i == some c && bit b.cap 6
    | none => false)

def State.domReq (s : State) (c : Nat) : Bool :=
  if c < 32 then bit (s.reg pPWR R.PWR_DOM_REQ_LO) c else bit (s.reg pPWR R.PWR_DOM_REQ_HI) (c - 32)

/-- The domain that a self-test run needs on now: the one it tests, and those it has turned on and not yet tested (R513). -/
def State.testNeeds (s : State) (c : Nat) : Bool :=
  match s.bst.run with
  | some r => r.todo.head? == some c || (r.turnedOn.contains c && r.todo.contains c)
  | none => false

def State.directlyRequired (s : State) (c : Nat) : Bool := s.domReq c || s.pageAsks c || s.testNeeds c

/-- A domain is required (R487). -/
def State.required (s : State) (c : Nat) : Bool :=
  s.directlyRequired c || (c == 36 && (List.range 40).any fun k => needsFab k && s.directlyRequired k)

/-- BST_FENCE of a domain (R519). -/
def State.fenced (s : State) (c : Nat) : Bool :=
  if c < 32 then bit (s.reg pBST R.BST_FENCE_LO) c else bit (s.reg pBST R.BST_FENCE_HI) (c - 32)

/-! ### Clocks (R492 to R494) -/

def State.pllLocked (s : State) (k : Nat) : Bool := bit (s.reg pCLK R.CLK_STS) (1 + k)
def State.pllStarting (s : State) (k : Nat) : Bool := bit (s.reg pCLK R.CLK_STS) (11 + k)

/-- A PLL is to run: a domain it clocks is on or required, or FORCE asks for it; never without the converters. -/
def State.pllWanted (s : State) (k : Nat) : Bool :=
  s.pwr.conv && (bit (s.reg pCLK R.CLK_PLL_CTL) k || (List.range 40).any fun c => pllOf c == some k && (s.domRaw c || s.required c))

/-- PLLs that nothing wants stop. -/
def State.stopPlls (s : State) : State :=
  (List.range 10).foldl (fun a k =>
    if a.pllWanted k then a
    else ((a.setFld pCLK R.CLK_STS (1 + k) (1 + k) 0).setFld pCLK R.CLK_STS (11 + k) (11 + k) 0).modPwr fun p =>
      { p with pllLost := p.pllLost.filter (· != k) }) s

/-! ### Wake pacing (R493, R496) -/

/-- The governor holds work back: what would draw more waits. -/
def State.holding (s : State) : Bool := bit (s.reg pPWR R.PWR_CTL) 0 && bit (s.reg pPWR R.PWR_STS) 5

/-- A request that is not admitted waits; it is counted once. Tokens: a tile's site, 0x2000 and a PLL, 0x3000 and a domain. -/
def State.defer (s : State) (token : Nat) : State :=
  if s.pwr.gov.deferred.contains token then s
  else (s.bump pPWR R.PWR_DEFER_COUNT 1).modGov fun g => { g with deferred := g.deferred ++ [token] }

def State.admitted (s : State) (token : Nat) : State :=
  s.modGov fun g => { g with deferred := g.deferred.filter (· != token) }

/-- No request of the same kind has waited longer. -/
def State.firstInLine (s : State) (token lo hi : Nat) : Bool :=
  match s.pwr.gov.deferred.filter fun t => decide (lo ≤ t) && decide (t < hi) with
  | [] => true
  | t :: _ => t == token || !s.pwr.gov.deferred.contains token

/-- PLL_START (R492, R493): at least PLL_GAP microseconds apart. -/
def execPllStart (pll : Nat) (s : State) : Host.Outcome State Fault Refusal :=
  .next (
    if s.aoOn = false ∨ 10 ≤ pll ∨ s.pllWanted pll = false ∨ s.pllLocked pll = true ∨ s.pllStarting pll = true ∨
        bit (s.reg pCLK R.CLK_STS) 0 = false then s
    else
      let gap := s.fld pPWR R.PWR_WAKE 15 8 * 1000
      let early := match s.pwr.pllAt with
        | some t => decide (s.mt < t + gap)
        | none => false
      if s.holding || early || !s.firstInLine (0x2000 + pll) 0x2000 0x3000 then s.defer (0x2000 + pll)
      else ((s.admitted (0x2000 + pll)).setFld pCLK R.CLK_STS (11 + pll) (11 + pll) 1).modPwr fun p => { p with pllAt := some s.mt })

/-- PLL_LOCK (R492). -/
def execPllLock (pll : Nat) (s : State) : Host.Outcome State Fault Refusal :=
  .next (if s.aoOn && decide (pll < 10) && s.pllStarting pll then
    ((s.setFld pCLK R.CLK_STS (11 + pll) (11 + pll) 0).setFld pCLK R.CLK_STS (1 + pll) (1 + pll) 1).modPwr fun p =>
      { p with pllLost := p.pllLost.filter (· != pll) }
  else s)

/-- A PLL stops: the domains it clocks stop (R494). -/
def State.pllStop (s : State) (k : Nat) : State :=
  ((s.setFld pCLK R.CLK_STS (1 + k) (1 + k) 0).setFld pCLK R.CLK_STS (11 + k) (11 + k) 0).modPwr fun p =>
    { p with pllLost := sinsert k p.pllLost }

/-- PLL_UNLOCK (R494). -/
def execPllUnlock (pll : Nat) (s : State) : Host.Outcome State Fault Refusal :=
  .next (if s.aoOn && decide (pll < 10) && s.pllLocked pll then
    ((s.pllStop pll).bump pCLK R.CLK_LOCK_LOSS 1).raise pCLK 0 pll
  else s)

/-- XTAL_FAIL (R494): every PLL stops, and module time loses its lock. -/
def execXtalFail (s : State) : Host.Outcome State Fault Refusal :=
  .next (if s.aoOn && bit (s.reg pCLK R.CLK_STS) 0 then
    let s1 := (List.range 10).foldl (fun a k => a.pllStop k) (s.setFld pCLK R.CLK_STS 0 0 0)
    (s1.setFld pTIM R.TIM_STS 1 0 0).raise pCLK 1
  else s)

/-! ### Turn-on (R487, R490, R493) -/

/-- A required domain could begin to ramp. -/
def State.canRamp (s : State) (c : Nat) : Bool :=
  s.required c && !s.domRaw c && !s.pwr.faulted.contains c && (!s.fenced c || s.testNeeds c) &&
  (match s.bst.run with
   | some r => s.testNeeds c || c == 40 || (c == 36 && r.todo != [])
   | none => true) &&
  (if c = 40 then s.pwr.vio12 != 0 else s.pwr.conv && !s.pwr.rstLow && (s.pst != psParking || s.bst.run.isSome)) &&
  (!needsFab c || s.domRaw 36) &&
  (c ≥ 36 || (match pllOf c with
    | some k => s.pllLocked k
    | none => true))

/-- FAB first, then ascending codes. -/
def domOrder : List Nat := 36 :: (List.range 41).filter (· != 36)

/-- DOMAIN_ADMISSION (R487, R493): one rail ramps at a time. -/
def execDomainAdmission (domain : Nat) (s : State) : Host.Outcome State Fault Refusal :=
  .next (
    if s.aoOn = false ∨ s.pwr.held = true ∨ s.pwr.ramping.isSome = true ∨ 41 ≤ domain ∨
        domOrder.find? s.canRamp ≠ some domain then s
    else if s.holding then s.defer (0x3000 + domain)
    else (s.admitted (0x3000 + domain)).modPwr fun p => { p with ramping := some (domain, s.mt) })

/-- What a turn-on makes of a page's registers: reset values, but for PWR_REQ, which may be what asked for the domain (DEDUCED). -/
def State.turnOnPage (s : State) (page : Nat) : State :=
  let req := bits (s.reg page R.PAGE_CTL) 2 2
  let ep := s.reg page R.TIL_STAT_EPOCH
  let s1 := (s.resetPage page).setFld page R.PAGE_CTL 2 2 req
  if page < 0x600 then s1.setReg page R.TIL_STAT_EPOCH ep else s1

/-- Every page of a domain, its headers included. -/
def State.turnOnPages (s : State) (c : Nat) : State := (s.domPages c).foldl (fun a p => a.turnOnPage p) s

/-- The blocks of a domain start up (R84, R145, R229, R317, R318): tiles count an epoch, memories fill, a far channel that has held
its contents skips the fill. -/
def State.startUp (s : State) (c : Nat) (count : Bool) : State :=
  if c < 30 then (domSites c).foldl (fun a t => if count then a.invalStats t else a) s
  else if c < 36 then s.setReg (pNMC (c - 30)) R.NMC_STS 16
  else if c = 36 then
    { s with regs := s.regs.filter fun e => !(decide (e.1 / 1024 < 0x600) && e.1 % 1024 == R.TIL_STAT_EPOCH / 4) }
  else if c = 37 then
    let s1 := (List.range 32).foldl (fun a ch =>
      if a.pwr.farHeld.contains ch then a.setReg (pFMC ch) R.NMC_STS 9 else (a.zeroChannel ch).setReg (pFMC ch) R.NMC_STS 16) s
    s1.modPwr fun p => { p with farHeld := [] }
  else if c = 40 then s.releaseAll
  else s

/-- A domain is on (R487). -/
def State.turnOn (s : State) (c : Nat) : State :=
  let s1 := ((s.turnOnPages c).setDom c true).modPwr fun p => { p with ramping := none }
  let s2 := match s1.bst.run with
    | some r => { s1 with bst := { s1.bst with run := some { r with turnedOn := if c = 40 then r.turnedOn else sinsert c r.turnedOn } } }
    | none => s1
  s2.startUp c s2.bst.run.isNone

/-- DOMAIN_ON (R487). -/
def execDomainOn (domain : Nat) (s : State) : Host.Outcome State Fault Refusal :=
  .next (if s.aoOn = true ∧ (s.pwr.ramping.map (·.1)) = some domain then s.turnOn domain else s)

/-- A self-test run leaves the domain at its head untested. -/
def State.skipTest (s : State) (c : Nat) : State :=
  match s.bst.run with
  | some r => if r.todo.take 1 = [c] then { s with bst := { s.bst with run := some { r with todo := r.todo.drop 1 } } } else s
  | none => s

/-- DOMAIN_FAULT (R490): a rail not in regulation within 1 ms of its admission. A self-test run leaves that domain untested (DESIGN
CHOICE). -/
def execDomainFault (domain : Nat) (s : State) : Host.Outcome State Fault Refusal :=
  .next (
    match s.pwr.ramping with
    | some (c, t) =>
      if s.aoOn = true ∧ c = domain ∧ t + 1000000 ≤ s.mt then
        let s1 := s.modPwr fun p => { p with ramping := none, faulted := sinsert c p.faulted }
        (s1.skipTest c).raise pPWR 6 c
      else s
    | none => s)

/-- A write of PWR_DOM_REQ: a bit that goes from 0 to 1 lets a faulted domain be asked for again (R490). -/
def domReqWrite (off v : Nat) (s : State) : State :=
  let old := s.reg pPWR off
  let base := if off = R.PWR_DOM_REQ_LO then 0 else 32
  let v1 := if off = R.PWR_DOM_REQ_LO then v else v % 512
  ((s.setReg pPWR off v1).modPwr fun p => { p with faulted := p.faulted.filter fun c =>
    !(decide (base ≤ c) && decide (c < base + 32) && bit v1 (c - base) && !bit old (c - base)) })

/-! ### Turn-off (R488) -/

/-- A request waits or is served at the channels of memory pages. -/
def State.memBusy (s : State) (near : Option Nat) : Bool :=
  match near with
  | some _ => false
  | none => (List.range 32).any fun i => (s.crs i).reqs != [] || (s.crs i).grants != []

/-- A domain is quiescent (R488). -/
def State.quiescent (s : State) (c : Nat) : Bool :=
  if c < 30 then (domSites c).all fun t =>
    s.depth t == 0 && (s.tile t).parked == [] && (s.tile t).running == [] && s.xfers.all fun x =>
      (List.range (mvRows x.d)).all fun k => [mvSrcRow x.d k, mvDstRow x.d k].all fun a => match s.region a with
        | .sram q _ | .queue q _ => s.siteOf q != t
        | _ => true
  else if c < 36 then !s.memBusy (some (c - 30))
  else if c = 37 then !s.memBusy none
  else if c = 38 then s.allLinksDown
  else if c = 39 then [40, 41, 42].all fun i => (s.crs i).grants == []
  else true

/-- A domain can be turned off now: nothing requires it, FAB is the last. -/
def State.canTurnOff (s : State) (c : Nat) : Bool :=
  s.domRaw c && !s.required c && !s.underTest c && s.quiescent c &&
  (c != 36 || ((List.range 40).all fun k => k == 36 || !s.domRaw k) && s.pwr.ramping.isNone)

/-- Ports lose their links with HIO: each detaches (R468). -/
def State.detachAll (s : State) : State :=
  (List.range 8).foldl (fun a h => if a.linkUp h then
    (let a1 := a.setHptSts h 0 false
     if a1.detached h then a1 else a1.detach h 1) else a) s

/-- A domain turns off. -/
def State.turnOff (s : State) (c : Nat) : State :=
  ((if c = 40 then s.detachAll else s).loseDomain c).stopPlls

/-- DOMAIN_OFF (R488). -/
def execDomainOff (domain : Nat) (s : State) : Host.Outcome State Fault Refusal :=
  .next (if s.live = true ∧ domain < 41 ∧ s.canTurnOff domain = true then s.turnOff domain else s)

end Sys2Proof.Machine
end

