-- ==== Sys2Proof/Machine/Bst.lean ====
section
/-! DEFINITION. Machine/Bst.lean: self-test runs (R510 to R522, R530): their causes, the interlock on cleared secrets, what a test
leaves of a domain, results, fences and the test record. -/
namespace Sys2Proof.Machine

def State.modBst (s : State) (f : BstState → BstState) : State := { s with bst := f s.bst }

abbrev bcStart : Nat := 1
abbrev bcPark : Nat := 2
abbrev bcShutdown : Nat := 3
abbrev bcDemand : Nat := 4

/-- The order of a PARK, SHUTDOWN or START run (R513). -/
def testOrder : List Nat := [39, 38] ++ (List.range 36).reverse ++ [37, 36]

/-- A pair of LO and HI registers with one bit for each domain. -/
def State.domBits (s : State) (off : Nat) : Nat := s.reg pBST off + 2 ^ 32 * s.reg pBST (off + 4)
def State.setDomBits (s : State) (off v : Nat) : State := (s.setReg pBST off (v % 2 ^ 32)).setReg pBST (off + 4) (v / 2 ^ 32)
def State.domBit (s : State) (off c : Nat) (on : Bool) : State := s.setDomBits off (setBit (s.domBits off) c on)

/-- BST_STS: CAUSE, RUNNING and ABORTED; DOMAIN. -/
def State.setBstSts (s : State) (hi lo v : Nat) : State := s.setFld pBST R.BST_STS hi lo v

/-- A run begins by clearing every secret (R512); results of the run before it go. -/
def State.bstStart (s : State) (cause : Nat) (todo : List Nat) : State :=
  let s1 := ((s.setDomBits R.BST_PASS_LO 0).setDomBits R.BST_FAIL_LO 0).setReg pBST R.BST_FAIL_INFO0 0
  let s2 := ((s1.setReg pBST R.BST_FAIL_INFO1 0).setBstSts 6 3 (cause * 2)).setBstSts 0 0 1
  secClearWrite .supervisor 1 (s2.modBst fun b => { b with run := some { cause := cause, todo := todo } })

/-- The domain under test shows in BST_STS. -/
def State.bstShow (s : State) : State :=
  match s.bst.run.bind (·.todo.head?) with
  | some c => s.setBstSts 13 8 c
  | none => s

/-- KEYS_CLEARED (R476, R512): the clear ends, and a run that waits for it begins its tests. -/
def execKeysCleared (s : State) : Host.Outcome State Fault Refusal :=
  .next (
    let s1 := s.keysCleared
    if s.aoOn && bit (s.reg pSEC R.SEC_STS) 1 && s.bst.run.isSome then
      (s1.modSec fun x => { x with scanHold := true }).bstShow
    else s1)

/-! ### Starts (R511) -/

/-- The stored record is valid for the start with this count. -/
def State.recordValid (s : State) (starts : Nat) : Bool :=
  match s.bst.record with
  | some r => r.full && starts == r.count + 1 && !s.bst.emergency && !bit (s.reg pBST R.BST_CTL) 2
  | none => false

/-- BST_FENCE and BST_FAIL_INFO have their reset values from flash (R530). -/
def State.bstFromFlash (s : State) : State :=
  match s.bst.record with
  | some r =>
    ((s.setDomBits R.BST_FENCE_LO r.fence).setReg pBST R.BST_FAIL_INFO0 r.info0).setReg pBST R.BST_FAIL_INFO1 r.info1
  | none => s

/-- The converters have started (R511): with a valid record no test runs; otherwise START_TEST starts one. -/
def State.bstAtStart (s : State) : State :=
  let n := s.bst.starts + 1
  let ok := s.recordValid n
  let test := !ok && bit (s.reg pBST R.BST_CTL) 1
  let s1 := (s.modBst fun b => { b with starts := n }).setFld pBST R.BST_CTL 2 2 0
  let s2 := s1.setBstSts 2 1 (b2n ok + 2 * b2n (!test))
  if ok then
    let s3 := match s2.bst.record with
      | some r => (s2.setDomBits R.BST_PASS_LO r.pass).setDomBits R.BST_FAIL_LO r.fail
      | none => s2
    s3.bstFromFlash.notice pBST 3
  else if test && s2.bst.run.isNone then s2.bstStart bcStart testOrder
  else s2

/-! ### Tests (R513 to R519) -/

/-- n bytes from a memory key on take free values (R515: undefined contents). -/
def State.freeRange (k : Nat) : Nat → State → State
  | 0, s => s
  | n + 1, s =>
    let (f, s1) := s.fresh
    (s1.setByte k (Sys2Proof.Config.freeNat f % 256)).freeRange (k + 1) n

/-- BST_FAR_WIN (R515). -/
def State.farWin (s : State) : Nat := max 1 (min 16 (s.fld pBST R.BST_FAR_WIN 4 0))

/-- A window whose restore failed (R515, R518): its contents are undefined. -/
def State.badWindow (s : State) (gib : Nat) : State :=
  let n := min s.farWin (2032 - gib)
  let s1 := (s.setReg pBST R.BST_RESTORE_WIN (gib % 4096)).raise pBST 2 gib
  s1.freeRange (farBase + gib * 2 ^ 30) (n * 2 ^ 30)

/-- One failure of a domain (R518). -/
def State.bstFailure (s : State) (c : Nat) (f : Nat × (Nat × Nat)) : State :=
  let old := s.reg pBST R.BST_FAIL_INFO0
  let s1 :=
    if bits old 15 8 = 0 then
      (s.setReg pBST R.BST_FAIL_INFO0 (c + f.1 % 4 * 2 ^ 6 + 2 ^ 8 + f.2.1 % 2 ^ 16 * 2 ^ 16)).setReg pBST R.BST_FAIL_INFO1 f.2.2
    else s.setFld pBST R.BST_FAIL_INFO0 15 8 (min 255 (bits old 15 8 + 1))
  s1.raise pBST 1 c f.2.2

/-- The far channels hold contents that the run saves (R514). -/
def State.farSaved (s : State) (cause : Nat) : List Nat :=
  if cause = bcPark then (List.range 32).filter fun ch => bit (s.reg (pFMC ch) R.NMC_STS) 0
  else if (List.range 32).all fun ch => bit (s.reg (pFMC ch) R.NMC_STS) 3 then List.range 32
  else []

/-- What a DEMAND run leaves of a tile (R514): SRAM, activation store and its validity, and an epoch more. -/
def State.demandTile (s : State) (site : Nat) : State :=
  let t := s.tile site
  let sts := s.reg site R.TIL_SRAM_STS % 2
  ((s.setTile site { acts := t.acts }).resetKeeping site [R.TIL_STAT_EPOCH]).setReg site R.TIL_SRAM_STS sts

/-- What its tests leave of a domain (R514), its rail still on. -/
def State.afterTest (s : State) (cause c : Nat) : State :=
  if c < 30 then
    let s1 := if cause = bcDemand then (domSites c).foldl (fun a t => a.demandTile t) s else (s.loseDomain c).setDom c true
    (domSites c).foldl (fun a t => a.invalStats t) s1
  else if c < 36 then ((s.loseDomain c).setDom c true).setReg (pNMC (c - 30)) R.NMC_STS 16
  else if c = 37 then
    let held := s.farSaved cause
    ((s.modPwr fun p => { p with farHeld := held }).loseDomain c).setDom c true
  else (s.loseDomain c).setDom c true

/-- The tests of the domain at the head of the run end (R518, R519). -/
def State.testDone (s : State) (r : BstRun) (c : Nat) (res : TestResult) : State :=
  let ok := res.failures.isEmpty
  let s1 := s.afterTest r.cause c
  let s2 := res.failures.foldl (fun a f => a.bstFailure c f) s1
  let s3 := if c = 37 then res.badWindows.foldl (fun a w => a.badWindow w) s2 else s2
  let s4 := s3.domBit (if ok then R.BST_PASS_LO else R.BST_FAIL_LO) c true
  let s5 := if ok then (if r.cause = bcDemand then s4.domBit R.BST_FENCE_LO c false else s4) else s4.domBit R.BST_FENCE_LO c true
  let off := r.turnedOn.contains c || !ok
  let s6 := if off then s5.loseDomain c else s5
  let r' := { r with todo := if r.abort then [] else r.todo.drop 1,
                     windows := r.windows ++ (if c = 37 then res.badWindows else []), ms := r.ms + res.ms,
                     abort := r.abort && r.todo.drop 1 != [] }
  ((s6.modBst fun b => { b with run := some r' }).stopPlls).bstShow

/-- DOMAIN_TEST_DONE (R513, R518). -/
def execDomainTestDone (res : TestResult) (s : State) : Host.Outcome State Fault Refusal :=
  .next (
    match s.aoOn && s.sec.scanHold, s.bst.run with
    | true, some r =>
      (match r.todo with
       | c :: _ => if s.domRaw c then s.testDone r c res else s
       | [] => s)
    | _, _ => s)

/-! ### The end of a run (R520, R522) -/

/-- A run's last actions: the hold is cleared and BST_STS shows the outcome. -/
def State.bstClose (s : State) (aborted : Bool) : State :=
  (((s.modSec fun x => { x with scanHold := false }).modBst fun b => { b with run := none }).setBstSts 0 0 0).setBstSts 3 3 (b2n aborted)

/-- An emergency off or a module reset ends a run at once (R522). -/
def State.bstKill (s : State) : State := if s.bst.run.isSome then s.bstClose true else s

/-- A run with no domain left to test ends (R520): its record where its cause writes one, its duration, BST_DONE. -/
def State.bstFinish (s : State) (r : BstRun) : State :=
  let aborted := r.abort || (r.cause != bcDemand && (s.domBits R.BST_PASS_LO ||| s.domBits R.BST_FAIL_LO) % 2 ^ 40 != 2 ^ 40 - 1)
  let rec_ : TestRecord :=
    { pass := s.domBits R.BST_PASS_LO, fail := s.domBits R.BST_FAIL_LO, fence := s.domBits R.BST_FENCE_LO,
      info0 := s.reg pBST R.BST_FAIL_INFO0, info1 := s.reg pBST R.BST_FAIL_INFO1, windows := r.windows, count := s.bst.starts,
      full := !aborted }
  let s1 := if r.cause = bcPark ∨ r.cause = bcShutdown then
      s.modBst fun b => { b with record := some rec_, emergency := false } else s
  (((s1.setReg pBST R.BST_DURATION r.ms).bump pBST R.BST_RUNS 1).bstClose aborted).notice pBST 0

/-- ABORT (R520): the run ends after the domain under test; before any test has begun there is none. -/
def State.bstAbort (s : State) : State :=
  match s.bst.run with
  | none => s
  | some r => s.modBst fun b => { b with run := some (if s.sec.scanHold && r.todo != [] then { r with abort := true }
                                                      else { r with todo := [], abort := r.abort || r.todo != [] }) }

/-! ### Writes (R519 to R521, R530) -/

/-- The mask of a DEMAND run may run now (R521). -/
def State.demandOk (s : State) (mask : Nat) : Bool :=
  let cs := (List.range 41).filter fun c => bit mask c
  let distOf := fun (c : Nat) => if c < 24 then some (c / 4) else if c < 30 then some (c - 24) else if c < 36 then some (c - 30) else none
  cs != [] && (cs.all fun c => decide (c < 36) || c == 38 || c == 39) &&
  (cs.all fun c => match distOf c with
    | some d => decide (6 ≤ s.partOf d) || s.stopped (s.partOf d)
    | none => true) &&
  (!cs.contains 38 || (s.allLinksDown && !bit (s.reg pGATS R.GAT_SYS_CTL) 0)) &&
  (!cs.contains 39 || (!bit (s.reg pING R.ING_CTL) 0 && [0, 1, 2].all fun k => !bit (s.reg (pMDE k) R.MDE_CTL) 0)) &&
  s.bst.run.isNone

/-- The source may write the BST_ page (R530). -/
def State.bstWriter (s : State) (src : Src) : Bool := src == .supervisor || src == .port s.adminPort

/-- A write of BST_CTL. -/
def bstCtlWrite (src : Src) (v : Nat) (s : State) : State :=
  if s.bstWriter src = false then s
  else
    let s1 := s.setReg pBST R.BST_CTL (bits v 2 1 * 2)
    let mask := s1.domBits R.BST_DOM_MASK_LO
    let s2 := if bit v 0 && s1.demandOk mask then
        s1.bstStart bcDemand ((List.range 41).reverse.filter fun c => bit mask c)
      else s1
    if bit v 3 then s2.bstAbort else s2

/-- BST_RUN (R521): a write of BST_CTL with RUN = 1. -/
def execBstRun (src : Src) (s : State) : Host.Outcome State Fault Refusal :=
  .next (s.onWrite src pBST R.BST_CTL fun a => bstCtlWrite src (a.reg pBST R.BST_CTL + 1) a)

/-- BST_ABORT (R520): a write of BST_CTL with ABORT = 1. -/
def execBstAbort (src : Src) (s : State) : Host.Outcome State Fault Refusal :=
  .next (s.onWrite src pBST R.BST_CTL fun a => bstCtlWrite src (a.reg pBST R.BST_CTL + 8) a)

/-- A write of BST_FENCE: each 1 unfences its domain (R519). -/
def fenceWrite (off v : Nat) (s : State) : State :=
  let base := if off = R.BST_FENCE_LO then 0 else 32
  (List.range 32).foldl (fun a k =>
    if bit v k && decide (base + k < 41) && a.fenced (base + k) then
      (a.domBit R.BST_FENCE_LO (base + k) false).modPwr fun p => { p with faulted := p.faulted.filter (· != base + k) }
    else a) s

/-- FENCE_CLEAR (R519). -/
def execFenceClear (src : Src) (domain : Nat) (s : State) : Host.Outcome State Fault Refusal :=
  .next (if domain < 41 then
    let off := if domain < 32 then R.BST_FENCE_LO else R.BST_FENCE_HI
    s.onWrite src pBST off (fenceWrite off (2 ^ (domain % 32)))
  else s)

/-- BST_DOM_MASK and BST_FAR_WIN are not written while a run is in progress (R530). -/
def bstSetWrite (off v : Nat) (s : State) : State :=
  if s.bst.run.isSome then s
  else s.setReg pBST off (if off = R.BST_FAR_WIN then v % 32 else if off = R.BST_DOM_MASK_HI then v % 512 else v)

/-- BST_STS as read: PHASE of a domain under test is not told by any command; it is one of 1, 2 and 3. -/
def State.bstSts (s : State) : Nat :=
  if s.sec.scanHold && (s.bst.run.bind (·.todo.head?)).isSome then
    setBits (s.reg pBST R.BST_STS) 15 14 (Sys2Proof.Config.freeNat s.freeCtr % 3 + 1)
  else s.reg pBST R.BST_STS

end Sys2Proof.Machine
end

