-- ==== Sys2Proof/Machine/Power.lean ====
section
/-! DEFINITION. Machine/Power.lean: supplies and their order (R480 to R485), emergency off, park, shut-down and resume (R503 to R506),
the sideband inputs (R552 to R554), and the module reset (R491, R554). -/
namespace Sys2Proof.Machine

/-! ### Rails (R480 to R485) -/

def vio12Ok (mv : Nat) : Bool := decide (11400 ≤ mv) && decide (mv ≤ 12600)
def vanaOk (mv : Nat) : Bool := decide (4750 ≤ mv) && decide (mv ≤ 5250)
def vinOk (mv : Nat) : Bool := decide (42000 ≤ mv) && decide (mv ≤ 58000)

/-- The internal input node is within 2 V of VIN; with VIN absent nothing is charged (DEDUCED from the reset value). -/
def State.charged (s : State) : Bool :=
  decide (2000 < s.pwr.vin) && decide (s.pwr.vin ≤ s.pwr.node + 2000) && decide (s.pwr.node ≤ s.pwr.vin + 2000)

/-- VIO_GOOD and PWR_EN (R482). -/
def State.vioGood (s : State) : Bool := s.aoOn && vio12Ok s.pwr.vio12 && vanaOk s.pwr.vana
def State.pwrEn (s : State) : Bool :=
  s.vioGood && s.sec.booted && !(s.pst == psParked || s.pst == psTripped || s.pst == psShutdown || s.pst == psHeld)

/-- AO_VIN: 10 mV and 10 mA units (R507). -/
def State.aoVin (s : State) : Nat := min (s.pwr.vin / 10) 0xFFFF + min s.pwr.vinCur 0xFFFF * 2 ^ 16

/-- AO_SUPPLY_STS (R507). -/
def State.aoSupply (s : State) : Nat :=
  b2n (vio12Ok s.pwr.vio12) + 2 * b2n (vanaOk s.pwr.vana) + 4 * b2n (vinOk s.pwr.vin) + 8 * b2n s.charged + 16 * b2n s.pwr.conv +
  32 * b2n s.pwr.seqLatch + 64 * b2n s.pwrEn + 128 * b2n s.vioGood

/-- The states that only a resume or a reset leaves, and PARKING. -/
def pstSticky (st : Nat) : Bool := decide (psParking ≤ st)

/-- STATE follows the supplies, the converters and the grace period (R508). -/
def State.settleSt (s : State) : State :=
  if s.pwr.held then s.setPst psHeld
  else if pstSticky s.pst then s
  else s.setPst (if s.pwr.grace.isSome then psParkPend else if s.pwr.conv then psRun
    else if vinOk s.pwr.vin then (if s.charged then psReady else psCharge) else psNovin)

/-- The converters start when the supplies are in range, the input is charged and PWR_EN is asserted (R481, R483, R505): a start
(R511). -/
def State.tryStart (s : State) : State :=
  if !s.pwr.conv && s.pwrEn && vinOk s.pwr.vin && s.charged && !s.pwr.rstLow && s.pst != psParking then
    let s1 := (s.setFld pAO R.AO_RESET_CAUSE 2 2 (b2n s.pwr.emergency)).modPwr fun p => { p with conv := true, emergency := false }
    s1.bstAtStart.settleSt
  else s.settleSt

/-- Domains 0 to 39 lose power without ramping and without ending any work, FAB last. -/
def State.dropDomains (s : State) : State :=
  let s1 := ((List.range 40).reverse.filter (· != 36)).foldl (fun a c => if a.domRaw c then a.loseDomain c else a) s
  (if s1.domRaw 36 then s1.loseDomain 36 else s1).modPwr fun p =>
    { p with ramping := match p.ramping with
        | some (40, t) => some (40, t)
        | _ => none }

/-- The governor at rest. -/
def State.govRest (s : State) : State :=
  ((s.modGov fun _ => {}).setFld pPWR R.PWR_STS 6 5 0).setReg pPWR R.PWR_DUTY 0

/-- An emergency off (R484): its events, the converters, every domain from 0 to 39, TRIPPED. -/
def State.emergencyOff (s : State) (events : State → State) : State :=
  let s1 := (events s).bstKill
  let s2 := (s1.modPwr fun p => { p with conv := false, grace := none, waitTest := false, toShutdown := false, resuming := false,
                                         emergency := true, farHeld := [] }).modBst fun b => { b with emergency := true }
  (s2.dropDomains.stopPlls.govRest).setPst psTripped

/-- VIN stands at a new level; a running converter input follows it down (R485). VIN that leaves its range while the module parks
is an emergency off (R504). -/
def State.setVin (s : State) (mv : Nat) : State :=
  let s1 := s.modPwr fun p => { p with vin := mv, node := if p.conv then min p.node mv else p.node }
  if s1.aoOn && s1.pst == psParking && s1.pwr.conv && !vinOk mv then
    s1.emergencyOff fun a => a.raise pAO 4 0 a.aoVin
  else s1

/-- The always-on domain starts (R483). -/
def State.vioUp (s : State) (mv : Nat) : State :=
  let s1 := { s with aoOn := true, mt := 0 }.modPwr fun p => { p with vio12 := mv, vioAt := 0, held := p.seqLatch }
  let s2 := ((s1.setFld pCLK R.CLK_STS 0 0 1).bstFromFlash).settleSt
  let s3 := if s2.pwr.held then s2.raise pAO 0 else s2
  if s3.pwr.parkN || s3.pwr.held then s3 else ((s3.notice pPWR 0).modPwr fun p => { p with grace := some s3.mt }).settleSt

/-- VIO12_APPLY (R483): the AO domain starts; a latched fault holds the module. -/
def execVio12Apply (mv : Nat) (s : State) : Host.Outcome State Fault Refusal :=
  .next (
    if s.aoOn then (if vio12Ok mv then s.modPwr fun p => { p with vio12 := mv } else s)
    else if vio12Ok mv = false then s
    else
      s.vioUp mv)

/-- BOOT_DONE (R470, R471, R482): boot has ended, so that PWR_EN may be asserted. -/
def execBootDone (res : BootResult) (s : State) : Host.Outcome State Fault Refusal :=
  .next (if s.aoOn && !s.sec.booted then (s.bootDone res).tryStart else s)

/-- Everything but fuses, flash and the pads returns to its reset value (R483). -/
def State.vioLost (s : State) : State :=
  { State.reset with
    ports := s.ports.map fun e => (e.1, { ({} : PortState) with perstN := e.2.perstN })
    sec := { flash := s.sec.flash, svnFused := s.sec.svnFused }
    bst := { record := s.bst.record, starts := s.bst.starts, emergency := s.bst.emergency }
    pwr := { vana := s.pwr.vana, vin := s.pwr.vin, node := s.pwr.node, parkN := s.pwr.parkN, throttleN := s.pwr.throttleN,
             rstLow := s.pwr.rstLow }
    out := s.out, freeCtr := s.freeCtr, pending := s.pending }

/-- VIO12_LOSS (R483): all state is lost but what flash and fuses hold and what stands at the pins. -/
def execVio12Loss (s : State) : Host.Outcome State Fault Refusal :=
  .next (
    if s.aoOn = false then s
    else
      s.vioLost)

/-- VANA_APPLY (R483): in range, or a latched fault where VIO12 is absent. -/
def execVanaApply (mv : Nat) (s : State) : Host.Outcome State Fault Refusal :=
  .next (if vanaOk mv then
    let rose := !vanaOk s.pwr.vana
    let s1 := s.modPwr fun p => { p with vana := mv, seqLatch := p.seqLatch || (rose && !s.aoOn) }
    if s1.aoOn then s1.tryStart else s1
  else s)

/-- VANA_LATE (R483): once, 100 ms after VIO12. -/
def execVanaLate (s : State) : Host.Outcome State Fault Refusal :=
  .next (if s.aoOn = true ∧ vanaOk s.pwr.vana = false ∧ s.pwr.lateRaised = false ∧ s.pwr.vioAt + 100000000 ≤ s.mt then
    (s.notice pAO 1).modPwr fun p => { p with lateRaised := true }
  else s)

/-- VANA_LOSS (R483). -/
def execVanaLoss (s : State) : Host.Outcome State Fault Refusal :=
  .next (if vanaOk s.pwr.vana then
    let s1 := s.modPwr fun p => { p with vana := 0 }
    if s1.aoOn && s1.pwr.conv then s1.emergencyOff fun a => a.raise pAO 4 1 a.aoVin
    else if s1.aoOn then s1.settleSt else s1
  else s)

/-- VIN_APPLY (R485). -/
def execVinApply (mv : Nat) (s : State) : Host.Outcome State Fault Refusal :=
  .next (let s1 := s.setVin mv
         if s1.aoOn then s1.tryStart else s1)

/-- VIN_OUT_OF_RANGE (R485). -/
def execVinOutOfRange (mv : Nat) (s : State) : Host.Outcome State Fault Refusal :=
  .next (if vinOk mv then s
    else
      let s1 := s.setVin mv
      if s1.aoOn then s1.settleSt else s1)

/-- INPUT_CHARGED (R485): the internal node has reached VIN. -/
def execInputCharged (s : State) : Host.Outcome State Fault Refusal :=
  .next (let s1 := s.modPwr fun p => { p with node := max p.node p.vin }
         if s1.aoOn then s1.tryStart else s1)

/-- VIN_FAULT (R483): VIN below 40 V or above 60 V for 10 µs while the converters are on, outside park and shut-down. -/
def execVinFault (mv : Nat) (s : State) : Host.Outcome State Fault Refusal :=
  .next (
    if s.aoOn = true ∧ s.pwr.conv = true ∧ (mv < 40000 ∨ 60000 < mv) ∧ s.pst ≠ psParking then
      (s.setVin mv).emergencyOff fun a => ((a.raise pAO (if mv < 40000 then 2 else 3) a.aoVin).raise pAO 4 0 a.aoVin)
    else s)

/-! ### Park and shut-down (R503, R504, R506) -/

/-- The states in which a park request can arise. -/
def State.canPark (s : State) : Bool := s.aoOn && !pstSticky s.pst && s.pwr.grace.isNone

/-- A park request: PARK_REQ and the grace period (R503). -/
def State.parkRequest (s : State) : State :=
  if s.canPark then ((s.notice pPWR 0).modPwr fun p => { p with grace := some s.mt }).settleSt else s

/-- PARK_N is treated as asserted (R552, R553). -/
def State.parkUsed (s : State) : Bool := !s.pwr.parkN || s.pwr.noise.contains 0
def State.throttleUsed (s : State) : Bool := !s.pwr.throttleN || s.pwr.noise.contains 1

/-- A request whose every source has gone is withdrawn (R503, R508). -/
def State.parkWithdraw (s : State) : State :=
  if s.pwr.grace.isSome && !s.pwr.waitTest && !s.parkUsed && !bit (s.reg pPWR R.PWR_CTL) 3 && !s.pwr.toShutdown then
    (s.modPwr fun p => { p with grace := none }).settleSt
  else s

/-- Work that a park finds (R504). -/
def State.workLeft (s : State) : Bool := (allTiles.any fun t => s.depth (s.siteOf t) != 0) || s.phase != phIdle

/-- Every block drops its work as a soft reset would (R504). -/
def State.dropAll (s : State) : State :=
  let ps := (List.range 0xB00).filter fun p => (pageBlk p).isSome && s.canon p == p && s.pageOn p
  ps.foldl (fun a p => a.dropBlock p) s

/-- The park begins (R504), steps 1 to 3. -/
def State.parkBegin (s : State) : State :=
  let dirty := s.workLeft
  let s1 := (if dirty then s.dropAll else s).setFld pPWR R.PWR_STS 7 7 (b2n dirty)
  let s2 := ((s1.modPwr fun p => { p with grace := none, waitTest := false }).modGov fun g => { g with floor := 0 }).setPst psParking
  if bit (s2.reg pPWR R.PWR_CTL) 2 && s2.bst.run.isNone then
    s2.bstStart (if s2.pwr.toShutdown then bcShutdown else bcPark) testOrder
  else s2

/-- The grace period ends (R504, R522): a self-test run finishes first, a DEMAND run after the domain under test. -/
def State.graceEnd (s : State) : State :=
  match s.bst.run with
  | some r => (if r.cause = bcDemand then s.bstAbort else s).modPwr fun p => { p with waitTest := true }
  | none => s.parkBegin

/-- PARK_GRACE_EXPIRE (R504). -/
def execParkGraceExpire (s : State) : Host.Outcome State Fault Refusal :=
  .next (
    match s.aoOn, s.pwr.grace with
    | true, some t =>
      if s.mt < t + s.fld pPWR R.PWR_PARK_GRACE 15 0 * 1000000 ∨ s.pwr.waitTest = true then s else s.graceEnd
    | _, _ => s)

/-- BST_DONE (R520, R522): a run ends; a park that waited for it begins. -/
def execBstDone (s : State) : Host.Outcome State Fault Refusal :=
  .next (
    match s.aoOn, s.bst.run with
    | true, some r =>
      if r.todo = [] then
        let s1 := s.bstFinish r
        if s1.pwr.waitTest then s1.parkBegin else s1
      else s
    | _, _ => s)

/-- Self-refresh, the domains off in descending code and the converters off (R504). -/
def State.parkDown (s : State) : State :=
  let down := s.pwr.toShutdown
  let held := if down then []
    else if s.pwr.farHeld ≠ [] then s.pwr.farHeld
    else if s.domRaw 37 then (List.range 32).filter fun ch => bit (s.reg (pFMC ch) R.NMC_STS) 0 else []
  let s1 := s.modPwr fun p => { p with farHeld := held }
  let s2 := (s1.dropDomains).modPwr fun p => { p with conv := false, toShutdown := false }
  (s2.stopPlls.govRest).setPst (if down then psShutdown else psParked)

/-- PARK_COMPLETE (R504), steps 4 to 6: self-refresh, domains off in descending code, converters off. -/
def execParkComplete (s : State) : Host.Outcome State Fault Refusal :=
  .next (
    if s.aoOn = false ∨ s.pst ≠ psParking ∨ s.bst.run.isSome = true then s
    else
      s.parkDown)

/-! ### Resume (R484, R505) -/

/-- The cause of an emergency off has gone (R484, R502). -/
def State.causeGone (s : State) : Bool :=
  vio12Ok s.pwr.vio12 && vanaOk s.pwr.vana && vinOk s.pwr.vin && (!s.pwr.tripped || decide (s.pwr.hottest < 85))

/-- A resume leaves PARKED, SHUTDOWN or TRIPPED. -/
def State.resume (s : State) : State :=
  (((s.setPst psNovin).modPwr fun p => { p with resuming := true, tripped := false }).settleSt).tryStart

/-- RESUME (R484, R505, R506): ignored in TRIPPED while the cause is present. -/
def State.pwrResume (s : State) : State :=
  if s.pst = psTripped then (if s.causeGone then s.resume else s)
  else if s.pst = psParked ∨ s.pst = psShutdown then s.resume
  else s

/-- PARKED ends by itself when PARK_N is deasserted and no PWR_CTL.PARK is in force (R505). -/
def State.parkedCheck (s : State) : State :=
  if s.pst = psParked ∧ s.parkUsed = false ∧ bit (s.reg pPWR R.PWR_CTL) 3 = false then s.resume else s

/-- A write of PWR_CTL (R503, R505, R506, R508). -/
def pwrCtlWrite (v : Nat) (s : State) : State :=
  let s1 := s.setReg pPWR R.PWR_CTL (v % 16)
  let s2 := if bit v 6 && !pstSticky s1.pst then s1.modPwr fun p => { p with toShutdown := true } else s1
  let s3 := if bit v 3 || bit v 6 then s2.parkRequest else s2.parkWithdraw
  let s4 := if bit v 4 && s3.pwr.grace.isSome && !s3.pwr.waitTest then s3.graceEnd else s3
  if bit v 5 then s4.pwrResume else s4.parkedCheck

/-- The bits of PWR_CTL that a command write keeps. -/
def State.pwrKeep (s : State) : Nat := s.reg pPWR R.PWR_CTL % 16

/-- PWR_RESUME (R505). -/
def execPwrResume (src : Src) (s : State) : Host.Outcome State Fault Refusal :=
  .next (s.onWrite src pPWR R.PWR_CTL fun a => pwrCtlWrite (a.pwrKeep + 32) a)

/-- PARK (R503). -/
def execPark (src : Src) (s : State) : Host.Outcome State Fault Refusal :=
  .next (s.onWrite src pPWR R.PWR_CTL fun a => pwrCtlWrite (setBit a.pwrKeep 3 true) a)

/-- PARK_GO (R503). -/
def execParkGo (src : Src) (s : State) : Host.Outcome State Fault Refusal :=
  .next (s.onWrite src pPWR R.PWR_CTL fun a => pwrCtlWrite (a.pwrKeep + 16) a)

/-- SHUTDOWN (R506). -/
def execShutdown (src : Src) (s : State) : Host.Outcome State Fault Refusal :=
  .next (s.onWrite src pPWR R.PWR_CTL fun a => pwrCtlWrite (a.pwrKeep + 64) a)

/-- RESUMED (R505), step 5: the required domains are on. -/
def execResumed (s : State) : Host.Outcome State Fault Refusal :=
  .next (
    if s.aoOn && s.pwr.resuming && s.pwr.conv && s.bst.run.isNone && (List.range 41).all (fun c =>
        !s.required c || s.domRaw c || s.fenced c || s.pwr.faulted.contains c) then
      (s.modPwr fun p => { p with resuming := false }).notice pPWR 1
    else s)

/-! ### Sideband inputs (R499, R503, R552, R553) -/

/-- AO_SIDEBAND (R507). -/
def State.aoSideband (s : State) : Nat :=
  b2n s.parkUsed + 2 * b2n s.throttleUsed + 4 * b2n (s.pwr.noise.contains 0) + 8 * b2n (s.pwr.noise.contains 1)

/-- What a change of the states used does: a park request or its end, and THROTTLE_ON. -/
def State.pinsMoved (old s : State) : State :=
  let s1 :=
    if s.parkUsed && !old.parkUsed then s.parkRequest
    else if old.parkUsed && !s.parkUsed then s.parkWithdraw.parkedCheck
    else s
  if s.throttleUsed && !old.throttleUsed then s1.notice pPWR 2 else s1

/-- A change of the inputs' states; they are sampled while the AO domain runs. -/
def State.movePins (s : State) (f : PwrState → PwrState) : State :=
  if s.aoOn then s.pinsMoved (s.modPwr f) else s.modPwr f

/-- PARK_N_CHANGE (R503). -/
def execParkNChange (level : Bool) (s : State) : Host.Outcome State Fault Refusal :=
  .next (s.movePins fun p => { p with parkN := level })

/-- THROTTLE_N_CHANGE (R499). -/
def execThrottleNChange (level : Bool) (s : State) : Host.Outcome State Fault Refusal :=
  .next (s.movePins fun p => { p with throttleN := level })

/-- SIDEBAND_NOISE (R553). -/
def execSidebandNoise (pin : Nat) (s : State) : Host.Outcome State Fault Refusal :=
  .next (if s.aoOn = true ∧ pin < 2 ∧ s.pwr.noise.contains pin = false then
    (s.raise pAO 6 pin).movePins fun p => { p with noise := sinsert pin p.noise }
  else s)

/-- NOISE_QUIET (R553). -/
def execNoiseQuiet (pin : Nat) (s : State) : Host.Outcome State Fault Refusal :=
  .next (if s.aoOn = true ∧ s.pwr.noise.contains pin = true then
    s.movePins fun p => { p with noise := p.noise.filter (· != pin) }
  else s)

/-- NOISE_WINDOW_END (R553): the count of transitions restarts. The count stands in no register, and no command reports a single
transition, so nothing that the model holds changes. -/
def execNoiseWindowEnd (_pin : Nat) (s : State) : Host.Outcome State Fault Refusal := .next s

/-! ### The module reset (R12, R107, R434, R435, R473, R491, R535, R554) -/

/-- Registers that a module reset leaves: what the supervisor found at boot, and which domain 40 is on with the crystal. -/
def State.keepOverReset (s : State) (r : State) : State :=
  let s1 := [R.SEC_STS].foldl (fun a off => a.setReg pSEC off ((s.reg pSEC off ||| 1) &&& 0xFFFFFFFD)) r
  let s2 := (List.range 12).foldl (fun a k => a.setReg pSEC (R.SEC_MEAS + 4 * k) (s.reg pSEC (R.SEC_MEAS + 4 * k))) s1
  let s3 := s2.setFld pSEC R.SEC_IMG_CTL 3 3 (b2n s.sec.job.isSome)
  let s4 := (s3.setDom 40 (s.domRaw 40)).setReg pCLK R.CLK_STS (s.reg pCLK R.CLK_STS % 2)
  let s5 := s4.setReg pAO R.AO_RESET_CAUSE (2 + 4 * b2n (s.pst == psTripped))
  (List.range 8).foldl (fun a h => a.setReg (pHPT h) R.HPT_STS (setBits (s.reg (pHPT h) R.HPT_STS) 12 10 0)) s5

/-- A reset through RESET_N: every block at reset, domains 0 to 39 off, the AO domain, the host links and the supervisor's image as
they are. -/
def State.moduleReset (s : State) : State :=
  let s1 := (s.modPwr fun p => { p with farHeld := [] }).bstKill.dropDomains
  let r : State :=
    { State.reset with
      aoOn := true
      ports := s.ports.map fun e => (e.1, { ({} : PortState) with
        released := e.2.released, perstN := e.2.perstN, busMaster := e.2.busMaster, msixEn := e.2.msixEn, funcMask := e.2.funcMask,
        spdm := e.2.spdm, session := e.2.session })
      sec := { s.sec with keys := [], staging := [], scanHold := false }
      bst := { s1.bst with run := none }
      pwr := { vio12 := s.pwr.vio12, vana := s.pwr.vana, vin := s.pwr.vin, vinCur := s.pwr.vinCur, node := s.pwr.node,
               seqLatch := s.pwr.seqLatch, held := s.pwr.held, lateRaised := s.pwr.lateRaised, rstLow := true, parkN := s.pwr.parkN,
               emergency := s.pwr.emergency, noise := s.pwr.noise,
               throttleN := s.pwr.throttleN, hottest := s.pwr.hottest }
      tap := s.tap
      out := s.out, freeCtr := s.freeCtr, pending := s.pending }
  (s.keepOverReset r).bstFromFlash.settleSt

/-- RESET_N_ASSERT (R554). -/
def execResetNAssert (s : State) : Host.Outcome State Fault Refusal :=
  .next (if s.aoOn = false then s.modPwr fun p => { p with rstLow := true }
    else if s.pwr.rstLow then s else s.moduleReset)

/-- RESET_N_RELEASE (R554): the module acts on its supplies and inputs as after power-on. -/
def execResetNRelease (s : State) : Host.Outcome State Fault Refusal :=
  .next (
    let s1 := s.modPwr fun p => { p with rstLow := false }
    if s.aoOn = true ∧ s.pwr.rstLow = true then
      let s2 := s1.tryStart
      if s2.parkUsed then s2.parkRequest else s2
    else s1)

end Sys2Proof.Machine
end

