-- ==== Sys2Proof/Machine/Gov.lean ====
section
/-! DEFINITION. Machine/Gov.lean: the load governor and the thermal sensors (R493, R495 to R502, R105, R319). Powers are in milliwatts. -/
namespace Sys2Proof.Machine

/-! ### Settings (R508) -/

def clampN (x lo hi : Nat) : Nat := max lo (min x hi)
def State.govEn (s : State) : Bool := bit (s.reg pPWR R.PWR_CTL) 0
def State.govLimit (s : State) : Nat := clampN (s.fld pPWR R.PWR_LIMIT 12 0) 1000 7500 * 1000
def State.govBand (s : State) : Nat := clampN (s.fld pPWR R.PWR_RAMP 27 16) 10 400 * 1000
/-- The step of the reference in a microsecond: units of 10 W/ms are 10 mW/µs. -/
def State.govStep (s : State) : Nat :=
  clampN (if s.throttleUsed then s.fld pPWR R.PWR_RAMP 15 8 else s.fld pPWR R.PWR_RAMP 7 0) 10 200 * 10
/-- The floor percentage: none while the module parks (R504). -/
def State.govPct (s : State) : Nat := if s.pst = psParking then 0 else min 90 (s.fld pPWR R.PWR_FLOOR 6 0)

/-! ### The reference (R495) -/

/-- The input power's averages: this microsecond joins its millisecond, and a full one joins the last thousand. -/
def GovState.average (g : GovState) (p : Nat) : GovState :=
  if g.msTicks + 1 < 1000 then { g with msSum := g.msSum + p, msTicks := g.msTicks + 1 }
  else
    let avgs := ((g.msSum + p) / 1000 :: g.avgs).take 1000
    { g with msSum := 0, msTicks := 0, avgs := avgs, avg := sumNat avgs / 1000 }

/-- Floor, ceiling and reference of this microsecond. -/
def State.govRef (s : State) (demand : Nat) : GovState :=
  let g := s.pwr.gov
  let f0 := s.govPct * g.avg / 100
  let top := if s.throttleUsed then min s.govLimit f0 else s.govLimit
  let f := min f0 top
  let r := clampN demand (g.r - s.govStep) (g.r + s.govStep)
  { g with floor := f, top := top, r := clampN r f top }

/-! ### The floor filler (R497) -/

/-- A tile that the filler may use: powered, not frozen, with nothing running and nothing able to issue. -/
def State.fillable (s : State) (t : Nat) : Bool :=
  let site := s.siteOf t
  s.siteOn site && !s.frozen site && (s.tile site).running == [] && !s.someIssue site

/-- Eligible tiles in the filler's order: ascending ID within each district, the districts in rotation from one on. -/
def fillOrder (rot : Nat) (ts : List Nat) : List Nat :=
  let ds := (List.range 6).map fun i => ts.filter fun t => t / 256 == (rot + i) % 6
  ((List.range 192).map fun k => ds.filterMap fun l => l[k]?).flatten

/-- The filler in a microsecond in which P is `est` and the reference r. -/
def State.fill (s : State) (est r : Nat) : State :=
  let g := s.pwr.gov
  let ok := allTiles.filter s.fillable
  let kept := g.filling.filter fun t => ok.contains t
  let per := 3400
  if bit (s.reg pPWR R.PWR_CTL) 1 = false then s.modGov fun g => { g with filling := [] }
  else if est + s.govBand < r then
    let more := fillOrder g.rot (ok.filter fun t => !kept.contains t)
    let n := (r - est + per - 1) / per
    let add := more.take n
    let s1 := add.foldl (fun a t => a.withClock (a.siteOf t)) s
    let short := more.isEmpty && g.shortMs != some (s.mt / 1000000)
    let s2 := s1.modGov fun g => { g with filling := kept ++ add, rot := (g.rot + add.length) % 6 }
    if short then (s2.notice pPWR 5).modGov fun g => { g with shortMs := some (s.mt / 1000000) } else s2
  else
    let n := if r < est then (est - r + per - 1) / per else 0
    s.modGov fun g => { g with filling := kept.take (kept.length - n) }

/-! ### Holding back (R496) -/

/-- The step below full duty that power asks for: lowered while P stays above r + BAND after requests are already held, raised
again once P is below r. -/
def dutyStep (duty est r band : Nat) (held : Bool) : Nat :=
  if r + band < est then (if held then min 12 (duty + 1) else duty) else if est < r then duty - 1 else duty

/-- PWR_DUTY (R496, R501): for each district the larger of its two reductions. -/
def State.showDuty (s : State) : State :=
  let g := s.pwr.gov
  s.setReg pPWR R.PWR_DUTY (sumNat ((List.range 6).map fun d => max g.duty (sget 0 g.therm d) * 2 ^ (4 * d)))

/-- P above PWR_LIMIT for 1 ms (R496). -/
def State.govOver (s : State) (est : Nat) : State :=
  let g := s.pwr.gov
  if s.govLimit < est then
    let n := g.overBudget + 1
    let s1 := s.modGov fun g => { g with overBudget := n }
    if n ≥ 1000 ∧ g.limitRaised = false then
      (s1.modGov fun g => { g with limitRaised := true }).raise pPWR 4 (s.reg pPWR R.PWR_EST)
    else s1
  else s.modGov fun g => { g with overBudget := 0, limitRaised := false }

/-- A microsecond of the governor (R495 to R497). -/
def State.govTick (s : State) (est demand vinCurrent : Nat) : State :=
  let s1 := (s.modPwr fun p => { p with vinCur := vinCurrent }).modGov fun g => g.average est
  let g1 := s1.govRef demand
  let r := if s.govEn then g1.r else demand
  let s2 := s1.modGov fun _ => { g1 with r := r }
  let was := s.holding
  let duty := if s.govEn then dutyStep g1.duty est r s.govBand was else 0
  let hold := s.govEn && (decide (r + s.govBand < est) || duty != 0)
  let s3 := s2.modGov fun g => { g with duty := duty }
  let s4 := if s.govEn then s3.fill est r else s3.modGov fun g => { g with filling := [] }
  let n := s4.pwr.gov.filling.length
  let s5 := (s4.setFld pPWR R.PWR_STS 6 5 (b2n hold + 2 * b2n (n != 0))).bump pPWR R.PWR_FILL_COUNT n
  let s6 := (s5.setReg pPWR R.PWR_EST (min (est / 1000) 0xFFFF + min (r / 1000) 0xFFFF * 2 ^ 16)).setReg pPWR R.PWR_AVG
    (min (g1.avg / 1000) 0xFFFF + min (g1.floor / 1000) 0xFFFF * 2 ^ 16)
  s6.showDuty.govOver est

/-- GOVERNOR_TICK (R495): the estimate and the demand in milliwatts, the measured current in 10 mA. -/
def execGovernorTick (est demand vinCurrent : Nat) (s : State) : Host.Outcome State Fault Refusal :=
  .next (if s.aoOn && s.pwr.conv then s.govTick est demand vinCurrent else s)

/-- PWR_STS as read (R508). -/
def State.pwrSts (s : State) : Nat := setBit (s.reg pPWR R.PWR_STS) 4 s.throttleUsed

/-! ### Compute clocks (R105, R493) -/

/-- IDLE_CLOCK_STOP (R105): not while the filler runs on the tile (R497). -/
def execIdleClockStop (tile : Nat) (s : State) : Host.Outcome State Fault Refusal :=
  .next (
    let site := s.siteOf tile
    if isTile tile = false ∨ (s.live && s.siteOn site) = false ∨ bit (s.reg site R.TIL_CLK_CTL) 0 = true ∨
      (s.tile site).running ≠ [] ∨ s.someIssue site = true ∨ s.pwr.gov.filling.contains tile = true then s
    else s.modTile site fun t => { t with clkStopped := true })

/-- A wake grant of a district is left in this microsecond (R493). -/
def State.wakeLeft (s : State) (d : Nat) : Bool :=
  let (u, n) := sget (0, 0) s.pwr.gov.wakes d
  decide ((if u = s.mt / 1000 then n else 0) < max 1 (s.fld pPWR R.PWR_WAKE 7 0))

/-- A wake grant is taken. -/
def State.takeWake (s : State) (d : Nat) : State :=
  let (u, n) := sget (0, 0) s.pwr.gov.wakes d
  let u1 := s.mt / 1000
  s.modGov fun g => { g with wakes := sset (0, 0) g.wakes d (u1, if u = u1 then n + 1 else 1) }

/-- COMPUTE_CLOCK_RESTART (R105, R493): it takes a wake grant of its district, in order of request. -/
def execComputeClockRestart (tile : Nat) (s : State) : Host.Outcome State Fault Refusal :=
  .next (
    let site := s.siteOf tile
    let d := tile / 256
    if isTile tile = false ∨ (s.live && s.siteOn site) = false ∨ (s.tile site).clkStopped = false ∨
        (s.someIssue site = false ∧ bit (s.reg site R.TIL_CLK_CTL) 0 = false) then s
    else if s.holding || !s.wakeLeft d || !s.firstInLine tile (d * 256) (d * 256 + 256) then s.defer tile
    else (((s.admitted tile).takeWake d).withClock site))

/-! ### Sensors (R319, R501, R502) -/

/-- Sensor codes of R507: 112 junction sensors, then 38 DRAM sensors from 128 on. -/
def sensorCode (i : Nat) : Nat := if i < 112 then i else i + 16

/-- Sensor i is beyond its trip limit. -/
def trips (i t : Nat) : Bool := if i < 112 then decide (115 < t) else decide (105 < t)

/-- The place of the largest value of a list. -/
def argMax (l : List Nat) : Nat × Nat :=
  l.zipIdx.foldl (fun (m : Nat × Nat) (e : Nat × Nat) => if m.1 < e.1 then e else m) (0, 0)

/-- DRAM sensor k: its controller page, HOT, and MEM_HOT at each crossing above 95 °C. -/
def State.dramSample (s : State) (k t : Nat) : State :=
  let page := if k < 6 then pNMC k else pFMC (k - 6)
  if s.pageOn page = false then s
  else
    let s1 := (s.setReg page R.NMC_TEMP (min t 255)).setFld page R.NMC_STS 2 2 (b2n (decide (85 < t)))
    let was := s1.pwr.gov.memHot.contains k
    if 95 < t then
      (if was then s1 else (s1.raise page 3 (min t 255) 0).modGov fun g => { g with memHot := sinsert k g.memHot })
    else if k < 6 ∨ t < 90 then s1.modGov fun g => { g with memHot := g.memHot.filter (· != k) }
    else s1

/-- The hottest junction of a district acts on its duty. -/
def State.heatStep (s : State) (d t : Nat) : State :=
  let hi := clampN (s.fld pPWR R.PWR_THERM 7 0) 60 110
  let hyst := s.fld pPWR R.PWR_THERM 11 8
  let g := s.pwr.gov
  let above := decide (hi < t)
  let hot := above || g.memHot.contains d
  let duty := sget 0 g.therm d
  let at_ := sget 0 g.thermAt d
  let s1 := if above && !g.hot.contains d then s.raise pPWR 3 (s.reg pPWR R.PWR_TEMP) d else s
  let s2 := s1.modGov fun g => { g with hot := if above then sinsert d g.hot else g.hot.filter (· != d) }
  if hot then
    (if duty = 0 ∨ at_ + 100000 ≤ s.mt then
      s2.modGov fun g => { g with therm := sset 0 g.therm d (min 12 (duty + 1)), thermAt := sset 0 g.thermAt d s.mt }
    else s2)
  else if t + hyst < hi ∧ duty ≠ 0 ∧ at_ + 1000000 ≤ s.mt then
    s2.modGov fun g => { g with therm := sset 0 g.therm d (duty - 1), thermAt := sset 0 g.thermAt d s.mt }
  else s2

/-- Temperatures are recorded, a trip turns the converters off, and duties follow the bands (R501, R502). -/
def State.takeTemps (s : State) (temps : List Nat) : State :=
  let ts := (List.range 150).map fun i => nth 0 temps i
  let (t, i) := argMax (ts.take 112)
  let s1 := (s.setReg pPWR R.PWR_TEMP (min t 255 + i * 2 ^ 8)).modPwr fun p => { p with hottest := (argMax ts).1 }
  match ts.zipIdx.find? fun e => trips e.2 e.1 with
  | some e =>
    if s.pst = psTripped then s1
    else
      let s2 := s1.setReg pAO R.AO_TRIP_INFO (min e.1 255 + sensorCode e.2 * 2 ^ 8)
      (s2.emergencyOff fun a => a.raise pAO 5 (a.reg pAO R.AO_TRIP_INFO)).modPwr fun p => { p with tripped := true }
  | none =>
    let s2 := (List.range 38).foldl (fun a k => a.dramSample k (nth 0 ts (112 + k))) s1
    ((List.range 6).foldl (fun a d => a.heatStep d (argMax ((ts.drop (16 * d)).take 16)).1) s2).showDuty

/-- THERMAL_SAMPLE (R501, R502): 96 district, 16 shared and 38 DRAM temperatures in °C. -/
def execThermalSample (temps : List Nat) (s : State) : Host.Outcome State Fault Refusal :=
  .next (
    if s.aoOn = false then s
    else
      s.takeTemps temps)

end Sys2Proof.Machine
end

