-- ==== Sys2Proof/Machine/Debug.lean ====
section
/-! DEFINITION. Machine/Debug.lean: the debug pages (R540, R541): freeze, single cycle, and peeks at a tile's internal state. -/
namespace Sys2Proof.Machine

/-- The page of a debug instance. -/
def dbgPage (inst : Nat) : Nat := if inst = 0 then pDBGM else pDBG (inst - 1)

/-- A write of DBG_CTL (R540). -/
def dbgCtlWrite (inst v : Nat) (s : State) : State :=
  let s1 := s.setReg (dbgPage inst) R.DBG_CTL (v % 2)
  if bit v 1 && bit v 0 then { s1 with dbgStep := sput s1.dbgStep inst s1.mt } else s1

/-- DBG_STS.FROZEN: every tile in scope is stopped. -/
def State.dbgSts (s : State) (inst : Nat) : Nat :=
  b2n (allTiles.all fun t => (inst != 0 && t / 256 != inst - 1) || s.frozen (s.siteOf t))

/-- FREEZE (R540). -/
def execFreeze (src : Src) (inst : Nat) (on : Bool) (s : State) : Host.Outcome State Fault Refusal :=
  .next (if inst < 7 then s.onWrite src (dbgPage inst) R.DBG_CTL (dbgCtlWrite inst (b2n on)) else s)

/-- STEP (R540): a write of DBG_CTL that keeps FREEZE. -/
def execDbgStep (src : Src) (inst : Nat) (s : State) : Host.Outcome State Fault Refusal :=
  .next (if inst < 7 then
    s.onWrite src (dbgPage inst) R.DBG_CTL fun a => dbgCtlWrite inst (a.reg (dbgPage inst) R.DBG_CTL % 2 + 2) a
  else s)

/-- The site that a peek selects; none for an ID outside the instance's scope. -/
def State.peekSite (s : State) (inst : Nat) : Option Nat :=
  let t := s.fld (dbgPage inst) R.DBG_PEEK_SEL 10 0
  if isTile t && (inst == 0 || t / 256 == inst - 1) then some (s.siteOf t) else none

/-- A word of a tile's internal state (R540). -/
def State.peekWord (s : State) (site space w : Nat) : Nat :=
  let t := s.tile site
  match space with
  | 0 => if w < 32 * 128 then sget 0 t.vregs w else 0
  | 1 => if w < 64 then sget 0 t.pregs (w / 8) / 2 ^ (32 * (w % 8)) % 2 ^ 32 else 0
  | 2 | 3 => if w < 2 * 8192 then sget 0 t.banks ((space - 2) * 8192 + w / 2) / 2 ^ (32 * (w % 2)) % 2 ^ 32 else 0
  | 4 =>
    let p := Sys2Proof.Config.peekStat w
    (match t.stats.find? fun e => e.1 == p / 5 with
     | some (_, e) =>
       if p % 5 = 0 then e.mu else if p % 5 = 1 then e.r else if p % 5 = 2 then e.m else if p % 5 = 3 then e.sigma
       else Sys2Proof.Config.peekTag e.kind e.step % 2 ^ 32
     | none => Sys2Proof.Config.freeNat s.freeCtr % 2 ^ 32)
  | 5 => if w < 16 * 2080 then leNat ((List.range 4).map fun i => t.actByte (w / 2080) (w % 2080 * 4 + i)) else 0
  | 6 =>
    (match t.parked[w / 16]? with
     | some p => p.desc / 2 ^ (32 * (w % 16)) % 2 ^ 32
     | none => 0)
  | _ => 0

/-- v with its 32-bit word k replaced. -/
def setWord (v k x : Nat) : Nat := setBits v (32 * k + 31) (32 * k) x

/-- A word of the statistics store written. -/
def StatEntry.poke (e : StatEntry) (f x : Nat) : StatEntry :=
  let u := Sys2Proof.Config.peekUntag x
  if f = 0 then { e with mu := x } else if f = 1 then { e with r := x } else if f = 2 then { e with m := x }
  else if f = 3 then { e with sigma := x } else { e with kind := bits u 15 1, step := bits u 31 16 }

/-- A word of a tile's internal state written (R540). -/
def State.pokeWord (s : State) (site space w x : Nat) : State :=
  let t := s.tile site
  match space with
  | 0 => if w < 32 * 128 then s.setVreg site w x else s
  | 1 => if w < 64 then s.setPreg site (w / 8) (setWord (sget 0 t.pregs (w / 8)) (w % 8) x) else s
  | 2 | 3 =>
    if w < 2 * 8192 then
      let k := (space - 2) * 8192 + w / 2
      s.setBank site k (setWord (sget 0 t.banks k) (w % 2) x)
    else s
  | 4 =>
    let p := Sys2Proof.Config.peekStat w
    let old : StatEntry := ((t.stats.find? fun e => e.1 == p / 5).map (·.2)).getD ⟨0, 0, 0, 0, 0, 0, .clean⟩
    if p % 5 = 4 ∧ Sys2Proof.Config.peekUntag x % 2 = 0 then s.setTile site { t with stats := sdel t.stats (p / 5) }
    else if p % 5 ≠ 4 ∧ (t.stats.any fun e => e.1 == p / 5) = false then s
    else s.setTile site { t with stats := sput t.stats (p / 5) (old.poke (p % 5) x) }
  | 5 =>
    if w < 16 * 2080 then
      let slot := w / 2080
      let img := (List.range 8320).map fun i =>
        if i / 4 = w % 2080 then x / 2 ^ (8 * (i % 4)) % 256 else t.actByte slot i
      s.setTile site { t with acts := sput t.acts slot ⟨t.actValid slot, img⟩ }
    else s
  | 6 => s.setTile site { t with parked := t.parked.zipIdx.map fun e =>
      if e.2 = w / 16 then { e.1 with desc := setWord e.1.desc (w % 16) x } else e.1 }
  | _ => s

/-- The site that an access to DBG_PEEK_DATA acts on: the selected tile while it is frozen. -/
def State.peekOpen (s : State) (inst : Nat) : Option Nat :=
  match s.peekSite inst with
  | some site => if s.frozen site && s.siteOn site then some site else none
  | none => none

/-- A write of DBG_PEEK_DATA. -/
def peekWrite (inst x : Nat) (s : State) : State :=
  match s.peekOpen inst with
  | some site => s.pokeWord site (s.fld (dbgPage inst) R.DBG_PEEK_SEL 14 12) (s.fld (dbgPage inst) R.DBG_PEEK_SEL 31 15) (x % 2 ^ 32)
  | none => s

/-- A read of DBG_PEEK_DATA: all ones unless the selected tile is frozen. -/
def peekRead (inst : Nat) (s : State) : State :=
  match s.peekOpen inst with
  | some site => s.reply [s.peekWord site (s.fld (dbgPage inst) R.DBG_PEEK_SEL 14 12) (s.fld (dbgPage inst) R.DBG_PEEK_SEL 31 15)]
  | none => s.reply [0xFFFFFFFF]

/-- The write as it arrives: one that is dropped, because the selected tile is not frozen, voids nothing (R541). -/
def State.onPeekWrite (s : State) (src : Src) (inst x : Nat) : State :=
  if (s.peekOpen inst).isSome then s.onWrite src (dbgPage inst) R.DBG_PEEK_DATA (peekWrite inst x)
  else
    match s.judge src (dbgPage inst) R.DBG_PEEK_DATA true with
    | .denied h r => s.deny h (dbgPage inst) r
    | _ => s

/-- PEEK_DATA_ACCESS (R540). -/
def execPeekDataAccess (src : Src) (inst : Nat) (write : Bool) (value : Nat) (s : State) : Host.Outcome State Fault Refusal :=
  .next (if inst < 7 then
    if write then s.onPeekWrite src inst value
    else s.onRead src (dbgPage inst) R.DBG_PEEK_DATA (peekRead inst)
  else s)

/-- A write of DBG_TRACE_CTL (R540): HEAD counts the records since EN was set. -/
def traceCtlWrite (v : Nat) (s : State) : State :=
  let was := bit (s.reg pDBGM R.DBG_TRACE_CTL) 0
  let s1 := s.setReg pDBGM R.DBG_TRACE_CTL (v % 64)
  if bit v 0 && !was then s1.setReg pDBGM R.DBG_TRACE_HEAD 0 else s1

end Sys2Proof.Machine
end

