-- ==== Sys2Proof/Machine/Pads.lean ====
section
/-! DEFINITION. Machine/Pads.lean: the output pins (R451, R551), the SMBus target (R555) and the test access port (R560, R561). -/
namespace Sys2Proof.Machine

/-! ### Outputs (R551) -/

/-- ERR_STS (R438). -/
def State.errSts (s : State) : Nat :=
  b2n (s.voidCause != 0) + 2 * b2n s.hold + 4 * b2n s.fatalPend

/-- ALERT_N is asserted: a page with ALERT = 1 has a bit set in EVT_STS and EVT_EN (R451). -/
def State.alert (s : State) : Bool :=
  s.aoOn && s.regs.any fun e => e.1 % 1024 == R.EVT_EN / 4 && decide (e.1 / 1024 < 0x4000) &&
    bit (s.reg (e.1 / 1024) R.EVT_ROUTE) 8 && (s.reg (e.1 / 1024) R.EVT_STS &&& e.2.toNat) != 0

/-- FAULT_N is asserted. -/
def State.faultPin (s : State) : Bool := s.aoOn && (s.fatalPend || s.hold || s.pst == psTripped)

/-! ### SMBus (R555) -/

/-- An answer of the SMBus target, which the supervisor serves whenever VIO12 is in range. -/
def State.smb (s : State) (l : List Nat) : Host.Outcome State Fault Refusal :=
  .next (if s.aoOn then { s with out := s.out ++ [.smbus l] } else s)

/-- READ_VERSION. -/
def execReadVersion (s : State) : Host.Outcome State Fault Refusal := s.smb [0x01]

/-- READ_SUPPLY_STS. -/
def execReadSupplySts (s : State) : Host.Outcome State Fault Refusal := s.smb (leBytes s.aoSupply 2)

/-- READ_PWR_STS. -/
def execReadPwrSts (s : State) : Host.Outcome State Fault Refusal := s.smb (leBytes s.pwrSts 2)

/-- READ_PWR_TEMP. -/
def execReadPwrTemp (s : State) : Host.Outcome State Fault Refusal := s.smb (leBytes (s.reg pPWR R.PWR_TEMP) 2)

/-- READ_PWR_EST: PWR_EST.P. -/
def execReadPwrEst (s : State) : Host.Outcome State Fault Refusal := s.smb (leBytes (s.reg pPWR R.PWR_EST) 2)

/-- READ_ERR_STS. -/
def execReadErrSts (s : State) : Host.Outcome State Fault Refusal := s.smb (leBytes s.errSts 2)

/-- READ_SIDEBAND. -/
def execReadSideband (s : State) : Host.Outcome State Fault Refusal := s.smb (leBytes s.aoSideband 2)

/-- READ_MODULE_TIME: byte count, then module time. -/
def execReadModuleTime (s : State) : Host.Outcome State Fault Refusal := s.smb (8 :: leBytes s.mt 8)

/-- READ_ERROR_RECORD: byte count, then the oldest unread record, which stays. -/
def execReadErrorRecord (s : State) : Host.Outcome State Fault Refusal :=
  s.smb (match s.log with
    | r :: _ => 32 :: r.toBytes
    | [] => [0])

/-- SMB_CLK_TIMEOUT: both lines are released and the interface resets; between commands it holds nothing. -/
def execSmbClkTimeout (s : State) : Host.Outcome State Fault Refusal := .next s

/-! ### The test access port (R560, R561) -/

def State.modTap (s : State) (f : TapState → TapState) : State := { s with tap := f s.tap }

/-- The levels of the pads in the order of the boundary register's cells: the first 14 are known where the model holds them, lane and
PERST_N cells beside; other cells take what stands at the pads, which is free, and link cells 0 without LNK (R561). -/
def State.captureCells (s : State) (n : Nat) : Nat :=
  let free := Sys2Proof.Config.freeNat n
  let known : List (Nat × Bool) :=
    [(0, s.pwrEn), (1, s.vioGood), (3, s.alert), (4, s.faultPin), (9, !s.pwr.rstLow), (10, s.pwr.parkN), (11, s.pwr.throttleN)] ++
    (List.range 8).map fun h => (14 + 35 * h, (s.port h).perstN)
  sumNat ((List.range 1158).map fun i =>
    let b := if 294 ≤ i ∧ s.domRaw 38 = false then false
      else match known.find? fun e => e.1 == i with
        | some e => e.2
        | none => bit free i
    b2n b * 2 ^ i)

/-- An instruction that selects the boundary register: what it captures, and the tester's data in the update latches, which no
operand of the command gives. -/
def State.boundaryScan (s : State) (code : Nat) : State :=
  let (n, s1) := s.fresh
  let (m, s2) := s1.fresh
  s2.modTap fun t => { t with ir := code, shift := s.captureCells n, boundary := Sys2Proof.Config.freeNat m % 2 ^ 1158 }

/-- Loading an instruction that holds the pads (R561): every host port detaches and every link goes DOWN. -/
def State.holdPads (s : State) : State :=
  let s1 := if s.domRaw 40 then s.detachAll else s
  (List.range 96).foldl (fun a n =>
    let g := n / 12
    let k := n % 12
    let st := a.lstate g k
    if st = lsDown then a
    else
      let a1 := if st = lsActive ∨ st = lsRetrain then a.linkDown g k else (a.setLink g k {}).setReg (pGAT g) (lnkReg k R.GAT_LNK_STS) 0
      a1.modLink g k fun l => { l with scanned := true }) s1

/-- A test instruction is loaded; the port works whenever VIO12 is in range. -/
def State.tapLoad (s : State) (f : State → State) : Host.Outcome State Fault Refusal := .next (if s.aoOn then f s else s)

/-- EXTEST (R561). -/
def execExtest (s : State) : Host.Outcome State Fault Refusal := s.tapLoad fun a => a.holdPads.boundaryScan 0x00

/-- IDCODE (R560). -/
def execIdcode (s : State) : Host.Outcome State Fault Refusal :=
  s.tapLoad fun a => a.modTap fun t => { t with ir := 0x01, shift := 0x16060A9B }

/-- SAMPLE/PRELOAD (R560). -/
def execSamplePreload (s : State) : Host.Outcome State Fault Refusal := s.tapLoad fun a => a.boundaryScan 0x02

/-- CLAMP (R561). -/
def execClamp (s : State) : Host.Outcome State Fault Refusal :=
  s.tapLoad fun a => a.holdPads.modTap fun t => { t with ir := 0x04, shift := 0 }

/-- HIGHZ (R561). -/
def execHighz (s : State) : Host.Outcome State Fault Refusal :=
  s.tapLoad fun a => a.holdPads.modTap fun t => { t with ir := 0x05, shift := 0 }

/-- EXTEST_PULSE (R561). -/
def execExtestPulse (s : State) : Host.Outcome State Fault Refusal := s.tapLoad fun a => a.holdPads.boundaryScan 0x06

/-- EXTEST_TRAIN (R561). -/
def execExtestTrain (s : State) : Host.Outcome State Fault Refusal := s.tapLoad fun a => a.holdPads.boundaryScan 0x07

/-- BYPASS (R560). -/
def execBypass (s : State) : Host.Outcome State Fault Refusal :=
  s.tapLoad fun a => a.modTap fun t => { t with ir := 0xFF, shift := 0 }

/-- A private instruction (R476, R560): internal scan, whose chains the spec does not give, only while KEYS_CLEARED is 1; otherwise
BYPASS. Codes that are not private are BYPASS. -/
def execPrivateScan (code : Nat) (s : State) : Host.Outcome State Fault Refusal :=
  s.tapLoad fun a =>
    if 0x80 ≤ code ∧ code ≤ 0xFE ∧ bit (a.reg pSEC R.SEC_STS) 0 = true then
      let (n, a1) := a.fresh
      a1.modTap fun t => { t with ir := code, shift := Sys2Proof.Config.freeNat n }
    else a.modTap fun t => { t with ir := if code < 256 then code else 0xFF, shift := 0 }

/-- TAP_RESET (R560, R561): the pads are let go; ports then retrain. -/
def execTapReset (s : State) : Host.Outcome State Fault Refusal :=
  s.tapLoad fun a => a.modTap fun t => { t with ir := 0x01, shift := 0x16060A9B }

end Sys2Proof.Machine
end

