-- ==== Sys2Proof/Machine/RegBus.lean ====
section
/-! DEFINITION. Machine/RegBus.lean: register reads and writes as such (R14, R15, R446 to R449): the registers that show what the
state holds elsewhere, the writes that act, and the two commands that access any register. -/
namespace Sys2Proof.Machine

/-! ### Views: registers whose value is not their own -/

/-- TIL_SEQ_STS (R108). -/
def State.seqSts (s : State) (site : Nat) : Nat :=
  let t := s.tile site
  let units := t.running.foldl (fun m r => m ||| r.units) 0
  let banks := t.running.foldl (fun m r => m ||| banksWritten r.desc) 0
  b2n t.halted.isSome + 2 * b2n t.clkStopped + units % 16 * 2 ^ 2 + banks % 4 * 2 ^ 6 + min (s.depth site) 256 * 2 ^ 8

/-- TIL_SITE (R108, R533): the page that is read names itself; the physical place is that of its site. -/
def State.siteView (s : State) (page : Nat) : Nat :=
  let site := s.siteOf page
  page % 2 ^ 11 + site / 16 % 16 * 2 ^ 11 + site % 16 * 2 ^ 15 + site / 256 * 2 ^ 19

/-- TIL_ACT_STS (R148). -/
def State.actSts (s : State) (site : Nat) : Nat :=
  let t := s.tile site
  sumNat ((List.range 16).map fun k => b2n (t.actValid k) * 2 ^ k) + b2n t.actLoad.isSome * 2 ^ 16 +
  bits (s.reg site R.TIL_ACT_STS) 17 17 * 2 ^ 17

/-- TIL_ROW_STS (R148). -/
def State.rowSts (s : State) (site : Nat) : Nat :=
  min (s.tile site).stats.length 16384 + b2n ((s.tile site).running.any fun r => dKind r.desc == 4) * 2 ^ 15

/-- TIL_BWD_STS (R221). -/
def State.bwdSts (s : State) (site : Nat) : Nat :=
  min (s.tile site).parked.length 64 + b2n (s.yieldedRun site).isSome * 2 ^ 7 + b2n (s.drainPending site) * 2 ^ 8 +
  bits (s.reg site R.TIL_BWD_STS) 9 9 * 2 ^ 9

/-- A register of a tile's page. -/
def State.tilView (s : State) (page off : Nat) : Nat :=
  let site := s.siteOf page
  if off = R.TIL_SEQ_STS then s.seqSts site
  else if off = R.TIL_STEP_OPEN then s.openStep
  else if off = R.TIL_STEP_RA then b2n s.raOpen
  else if off = R.TIL_MB_DECIDED then s.decided
  else if off = R.TIL_SITE then s.siteView page
  else if off = R.TIL_ACT_STS then s.actSts site
  else if off = R.TIL_ROW_STS then s.rowSts site
  else if off = R.TIL_BWD_STS then s.bwdSts site
  else if off = R.TIL_UPD_GMUL0 then s.step.gmul0
  else if off = R.TIL_UPD_GMUL1 then s.step.gmul1
  else if off = R.TIL_UPD_STS then b2n s.step.gmv0 + 2 * b2n s.step.gmv1
  else s.reg site off

/-- A register of the KV store's page (R190, R213). -/
def State.kvsView (s : State) (off : Nat) : Nat :=
  let n := (off - R.KVS_POOL_CTL) / 0x40
  let o := off - 0x40 * n
  if off = R.KVS_STS then
    b2n ((s.kvWaiters.any (·.isCommand)) || s.hasReqs .ring) + 2 * b2n (s.pools.any fun e => e.2.evicting) +
    4 * b2n (s.pools.any fun e => e.2.initBusy)
  else if o = R.KVS_POOL_RESERVE then (s.pool n).latReserve % 2 ^ 26
  else if o = R.KVS_POOL_REFSUM then (s.pool n).latRefsum % 2 ^ 26
  else if o = R.KVS_POOL_PINS then (s.pool n).latPins % 2 ^ 16
  else s.kvReg off

/-- CRS_STS (R327). -/
def State.crsSts (s : State) (i : Nat) : Nat := min (s.crs i).grants.length 63 + min (s.heads i).length 255 * 2 ^ 8

/-- ING_STR_STS (R371). -/
def State.strSts (s : State) (k : Nat) : Nat :=
  bits (s.sreg k R.ING_STR_STS) 0 0 + 2 * b2n (s.strDry k) + 4 * b2n (s.str k).req.isSome + 8 * b2n (s.atLimit k) +
  min (s.str k).unplaced 4096 * 2 ^ 16

/-- EXE_STS (R374). -/
def State.exeSts (s : State) (c : Nat) : Nat :=
  let e := s.enc c
  b2n e.job.isSome + 2 * b2n (e.held != []) + (match e.job with
    | some j => j.frame % 2 ^ 24
    | none => 0) * 2 ^ 8

/-- GAT_STS (R412): links that are ACTIVE, and those of them at two lanes. -/
def State.gatSts (s : State) (g : Nat) : Nat :=
  sumNat ((List.range 12).map fun k =>
    if s.lstate g k = lsActive then 2 ^ k + bits (s.reg (pGAT g) (lnkReg k R.GAT_LNK_STS)) 3 3 * 2 ^ (12 + k) else 0)

/-- UPD_STS.ROOT_WAIT: COMMIT waits on a root record (R275); what COMMIT does to shards and roots ends with it. -/
def State.updSts (s : State) : Nat := 2 * b2n (s.phase == phCommit && !s.rootsReady)

/-- CHK_STS (R531). -/
def State.chkSts (s : State) (u : Nat) : Nat := b2n (s.chkClaimed u) + 2 * b2n (s.chkBusy u)

/-- HPT_CQ_STS (R461): BUSY while a command waits in execution or its transfer moves. -/
def State.cqSts (s : State) (q : Nat) : Nat :=
  setBit (s.reg (pCQ q) R.HPT_CQ_STS) 1 ((s.cq q).since.isSome || (s.cq q).live.any fun c => !c.done)

/-- A register of the security page as its reader sees it (R473, R479): key registers show the reading port its copy. -/
def State.secView (s : State) (src : Src) (off : Nat) : Nat :=
  if off = R.SEC_STS then s.secSts
  else
    match src with
    | .port h =>
      if off = R.SEC_KEY_SEL then (s.port h).keySel % 16
      else if off = R.SEC_KEY_KCV then (s.port h).kcv
      else if off = R.SEC_KEY_VALID then s.keyValid h
      else if off = R.SEC_IMG_CTL then setBit (s.reg pSEC off) 0 (s.port h).staged
      else s.reg pSEC off
    | _ => s.reg pSEC off

/-- A register of the AO page (R507). -/
def State.aoView (s : State) (off : Nat) : Nat :=
  if off = R.AO_SUPPLY_STS then s.aoSupply
  else if off = R.AO_SIDEBAND then s.aoSideband
  else if off = R.AO_VIN then s.aoVin
  else if off = R.AO_VIO12_MV then min s.pwr.vio12 0xFFFF
  else if off = R.AO_VANA_MV then min s.pwr.vana 0xFFFF
  else s.reg pAO off

/-- A header register (R449). -/
def State.hdrView (s : State) (page off : Nat) : Nat :=
  let cp := s.canon page
  if off = R.PAGE_STS then
    b2n (s.pageOn page) + 2 * b2n (s.srstBusy.contains cp) + 4 * bits (s.reg cp R.PAGE_LOCK) 31 31
  else if off = R.PAGE_LOCK then bits (s.reg cp R.PAGE_LOCK) 31 31 * 2 ^ 31
  else if off = R.PAGE_OWNER then s.pageOwnerView page
  else s.reg cp off

/-- A block register at offset 0x040 and above, or a register of a BAR2 page. -/
def State.blkView (s : State) (src : Src) (page : Nat) (b : Blk) (i off : Nat) : Nat :=
  match b with
  | .til => s.tilView page off
  | .kvs => s.kvsView off
  | .stp => if off = R.STP_STASH_STS then setBit (s.reg page off) 1 ((s.stack 7).any fun x => !x.freed) else s.reg page off
  | .upd => if off = R.UPD_STS then s.updSts else s.reg page off
  | .crs => if off = R.CRS_STS then s.crsSts i else s.reg page off
  | .ings => if off = R.ING_STR_STS then s.strSts (i - 1) else s.reg page off
  | .mde => if off = R.MDE_STS then min (s.crs (40 + i)).grants.length 63 else s.reg page off
  | .tok => if off = R.TOK_STS then (if s.blockRuns pTOK then min s.tokQueue.length 8 else 0) else s.reg page off
  | .exe => if off = R.EXE_STS then s.exeSts i else s.reg page off
  | .gatl =>
    if off = R.GAT_STS then s.gatSts i
    else if off = R.GAT_STORE_USED then min ((s.storeUsed i + 1023) / 1024) 4096 else s.reg page off
  | .gats => if off = R.GAT_SYS_STS then setBits (s.reg page off) 1 0 (s.fld pTIM R.TIM_STS 1 0) else s.reg page off
  | .err =>
    if off = R.ERR_STS then s.errSts
    else if off = R.ERR_LOG_COUNT then s.log.length
    else if off = R.ERR_VOID_CAUSE then s.voidCause
    else if R.ERR_LOG_DATA < off ∧ off < R.ERR_LOG_DATA + 32 then nth 0 s.logLatch ((off - R.ERR_LOG_DATA) / 4 - 1)
    else s.reg page off
  | .chk =>
    if off = R.CHK_STS then s.chkSts i
    else if off = R.CHK_VALUE_HI then (s.chkUnit i).latValue
    else if off = R.CHK_RESULT_HI then (s.chkUnit i).latResult
    else s.reg page off
  | .hpt => if off = R.HPT_WIN_DATA_LO then (s.winNow i).1 else s.reg page off
  | .prtp => if off = R.PRT_P_STS then s.prtPSts (i - 1) else s.reg page off
  | .ao => s.aoView off
  | .pwr => if off = R.PWR_STS then s.pwrSts else s.reg page off
  | .sec => s.secView src off
  | .bst => if off = R.BST_STS then s.bstSts else s.reg page off
  | .dbg => if off = R.DBG_STS then s.dbgSts i else s.reg page off
  | .cq => if off = R.HPT_CQ_STS then s.cqSts i else s.reg page off
  | .pba => (s.port i).pba / 2 ^ (8 * off) % 2 ^ 32
  | _ => s.reg (s.canon page) off

/-! ### Reads -/

/-- Offsets that a page's registers do not occupy (R447); the trace registers exist in the module instance alone (R540). -/
def noRegister (page off : Nat) : Bool :=
  match pageBlk page with
  | none => true
  | some (b, i) =>
    if isBar2 page = false ∧ off < 0x40 then false
    else if b = .pba then decide (8 ≤ off)
    else (findRow b off).isNone || (b == .dbg && i != 0 && decide (R.DBG_TRACE_CTL ≤ off))

/-- Bits that a register shows and its RC bits. -/
def readMasks (page off : Nat) : Nat × Nat :=
  match pageBlk page with
  | none => (0, 0)
  | some (b, _) =>
    if isBar2 page = false ∧ off < 0x40 then (0xFFFFFFFF, if off = R.ERR_COUNT then 0xFFFFFFFF else 0)
    else if b = .pba then (0xFFFFFFFF, 0)
    else
      match findRow b off with
      | some r => (r.rw ||| r.ro ||| r.w1c ||| r.rc, r.rc)
      | none => (0, 0)

/-- a without the bits of m. -/
def without (a m : Nat) : Nat := a ^^^ (a &&& m)

/-- A read of a register whose read does nothing but clear its RC bits (R14). -/
def plainRead (src : Src) (page off : Nat) (s : State) : State :=
  match pageBlk page with
  | none => s.reply [0]
  | some (b, i) =>
    let (m, rc) := readMasks page off
    let v := (if isBar2 page = false ∧ off < 0x40 then s.hdrView page off else s.blkView src page b i off) &&& m
    let cp := s.canon page
    (if rc = 0 then s else s.setReg cp off (without (s.reg cp off) rc)).reply [v]

/-- A read of one register. -/
def regRead (src : Src) (page off : Nat) (s : State) : State :=
  if noRegister page off then s.reply [0]
  else if off < 0x40 ∧ isBar2 page = false then plainRead src page off s
  else
    match pageBlk page with
    | some (.kvs, _) =>
      let n := (off - R.KVS_POOL_CTL) / 0x40
      if R.KVS_POOL_CTL ≤ off ∧ off = poolReg n R.KVS_POOL_FREE then poolFreeLatch n s else plainRead src page off s
    | some (.ings, i) => if off = R.ING_STR_TAKEN_LO then ledgerLatch (i - 1) s else plainRead src page off s
    | some (.gats, _) => if off = R.GAT_ROUTE_DATA then routeDataRead s else plainRead src page off s
    | some (.chk, u) =>
      if off = R.CHK_VALUE_LO then chkValueLoRead u s
      else if off = R.CHK_RESULT_LO then chkResultLoRead u s
      else plainRead src page off s
    | some (.hpt, h) => if off = R.HPT_WIN_DATA_HI then winHiRead h s else plainRead src page off s
    | some (.tim, _) => if off = R.TIM_MT_LO then mtLatch s else plainRead src page off s
    | some (.err, _) => if off = R.ERR_LOG_DATA then logData0 s else plainRead src page off s
    | some (.dbg, i) => if off = R.DBG_PEEK_DATA then peekRead i s else plainRead src page off s
    | _ => plainRead src page off s

/-- A read of one aligned word by a source (R446 to R448); during a soft reset a block shows reset values (R450). -/
def State.wordRead (s : State) (src : Src) (page off : Nat) : State :=
  match s.judge src page off false with
  | .drop =>
    if s.srstBusy.contains (s.canon page) && s.pageOn page && !s.pwr.held && decide (0x40 ≤ off) then
      s.reply [regReset (s.canon page) off]
    else s.reply [0]
  | _ => s.onRead src page off (regRead src page off)

/-! ### Writes -/

/-- A write of a register that has no behaviour of its own (R14): RW bits are stored, W1C bits written 1 are cleared. -/
def plainWrite (page off v : Nat) (s : State) : State :=
  match pageBlk page with
  | none => s
  | some (b, _) =>
    match findRow b off with
    | none => s
    | some r =>
      let cp := s.canon page
      s.setReg cp off (without (without (s.reg cp off) r.rw) (r.w1c &&& v) ||| (v &&& r.rw))

/-- Registers of the step controller that take a write only while EN is 0 or the phase is IDLE (R299). -/
def stpGuarded (off : Nat) : Bool :=
  off == R.STP_OPEN_STEP || off == R.STP_JOB_SEED_LO || off == R.STP_JOB_SEED_HI || off == R.STP_CFG ||
  (decide (R.STP_MB_COUNT ≤ off) && decide (off ≤ R.STP_TGT_UPD)) ||
  (decide (R.STP_LOSS_BASE_LO ≤ off) && decide (off ≤ R.STP_VOTE_CTL)) ||
  (decide (R.STP_EVC ≤ off) && decide (off < R.STP_EVC + 64))

/-- A register of the step controller's page. Setting STP_STASH_CTL.EN clears HOST_FULL (R242). -/
def stpWrite (off v : Nat) (s : State) : State :=
  if off = R.STP_CTL then (stpCtlWrite v s).drainCtl
  else if stpGuarded off && s.stpEn && s.phase != phIdle then s
  else if off = R.STP_STASH_CTL then
    let was := bit (s.reg pSTP off) 0
    let s1 := plainWrite pSTP off v s
    if bit v 0 && !was then s1.setFld pSTP R.STP_STASH_STS 2 2 0 else s1
  else plainWrite pSTP off v s

/-- A register of a tile's page. -/
def tilWrite (page off v : Nat) (s : State) : State :=
  if off = R.TIL_SEQ_CTL then tilSeqCtlWrite page v s
  else if off = R.TIL_SEQ_TAIL then tilSeqTailWrite page v s
  else if off = R.TIL_ACT_LOAD then actLoadWrite page v s
  else if off = R.TIL_ROW_CTL then (if bit v 0 then s.invalStats (s.siteOf page) else s)
  else if off = R.TIL_BWD_CTL then
    let s1 := plainWrite page off v s
    let site := s.canon page
    let s2 := if bit (s.reg site off) 0 == bit (s1.reg site off) 0 then s1 else s1.openSkip site
    if bit v 2 then tilExcise page s2 else s2
  else if off = R.TIL_RND_CTL then tilRndWrite page v s
  else plainWrite page off v s

/-- A register of the KV store's page; FIRST and COUNT of a pool change only while the pool is disabled (R213). -/
def kvsWrite (off v : Nat) (s : State) : State :=
  let n := (off - R.KVS_POOL_CTL) / 0x40
  let o := off - 0x40 * n
  if off = R.KVS_CMD_TAIL then kvsTailWrite v s
  else if off < R.KVS_POOL_CTL then plainWrite pKVS off v s
  else if o = R.KVS_POOL_CTL then poolCtlWrite n v s
  else if (o = R.KVS_POOL_FIRST ∨ o = R.KVS_POOL_COUNT) ∧ bit (s.kvReg (poolReg n R.KVS_POOL_CTL)) 0 = true then s
  else plainWrite pKVS off v s

/-- A register of a stream's page (R371). -/
def strWrite (k off v : Nat) (s : State) : State :=
  if off = R.ING_STR_CTL then strCtlWrite k v s
  else if off = R.ING_STR_TAIL then strTailWrite k v s
  else if off = R.ING_STR_CURSOR then strCursorWrite k v s
  else if off = R.ING_STR_REQ_TAIL then strReqTailWrite k v s
  else if (off = R.ING_STR_RING_SIZE ∨ off = R.ING_STR_SPARE_COUNT) ∧ s.strEn k = true then s
  else plainWrite (pINGS k) off v s

/-- A register of the tokenizer's page (R373). -/
def tokWrite (off v : Nat) (s : State) : State :=
  let d := (off - R.TOK_DICT_BASE_LO) / 0x10
  if off < R.TOK_DICT_BASE_LO then plainWrite pTOK off v s
  else if off = R.TOK_DICT_CTL + 0x10 * d then dictCtlWrite d v s
  else if bit (s.dictReg d R.TOK_DICT_CTL) 0 then s
  else plainWrite pTOK off v s

/-- A register of an export encoder's page (R374). -/
def exeWrite (c off v : Nat) (s : State) : State :=
  if off = R.EXE_CTL then exeCtlWrite c v s
  else if off = R.EXE_JOB_TAIL then exeTailWrite c v s
  else if off = R.EXE_OUT_HEAD then exeOutHeadWrite c v s
  else plainWrite (pEXE c) off v s

/-- A register of a gate's page (R412). -/
def gatlWrite (g off v : Nat) (s : State) : State :=
  let k := (off - R.GAT_LNK_CTL) / 0x20
  if R.GAT_LNK_CTL ≤ off ∧ off = lnkReg k R.GAT_LNK_CTL then lnkCtlWrite g k v s else plainWrite (pGAT g) off v s

/-- A register of the gates' system page; the module's identity changes only while every link is DOWN (R386, R413). -/
def gatsWrite (off v : Nat) (s : State) : State :=
  if off = R.GAT_ROUTE_DATA then routeDataWrite v s
  else if off = R.GAT_JOB_TAIL then gatJobTailWrite v s
  else if (off = R.GAT_MODULE_ID ∨ off = R.GAT_SYSTEM_TAG) ∧ s.allLinksDown = false then s
  else plainWrite pGATS off v s

/-- A register of a check unit's page (R531). -/
def chkRegWrite (u off v : Nat) (s : State) : State :=
  if off = R.CHK_CTL then chkCtlWrite u v s
  else if off = R.CHK_CFG ∨ (R.CHK_POLY_LO ≤ off ∧ off ≤ R.CHK_XOROUT_HI) then chkSetWrite u off v s
  else if off = R.CHK_VALUE_LO then chkValueLoWrite u v s
  else if off = R.CHK_VALUE_HI then chkValueHiWrite u v s
  else if off = R.CHK_FEED8 then chkFeedWrite u 1 v s
  else if off = R.CHK_FEED16 then chkFeedWrite u 2 v s
  else if off = R.CHK_FEED32 then chkFeedWrite u 4 v s
  else plainWrite (pCHK u) off v s

/-- A register of the security page, but for the commands and staging words that R473 admits for themselves. -/
def secWrite (src : Src) (off v : Nat) (s : State) : State :=
  if off = R.SEC_CLEAR then secClearWrite src v s
  else if off = R.SEC_IMG_CTL then imgCtlWrite src v s
  else if off = R.SEC_SVN_COMMIT then svnCommitWrite src v s
  else if R.SEC_KEY_SEL ≤ off ∧ off ≤ R.SEC_KEY_SALT then
    (match src with
     | .port h => keyStageWrite off v h s
     | _ => s)
  else plainWrite pSEC off v s

/-- A register of the self-test page (R530). -/
def bstWrite (src : Src) (off v : Nat) (s : State) : State :=
  if off = R.BST_CTL then bstCtlWrite src v s
  else if s.bstWriter src = false then s
  else if off = R.BST_FENCE_LO ∨ off = R.BST_FENCE_HI then fenceWrite off v s
  else if off = R.BST_DOM_MASK_LO ∨ off = R.BST_DOM_MASK_HI ∨ off = R.BST_FAR_WIN then bstSetWrite off v s
  else plainWrite pBST off v s

/-- A header register (R449, R451, R453, R430), PAGE_OWNER apart. -/
def hdrWrite (src : Src) (page off v : Nat) (s : State) : State :=
  let cp := s.canon page
  if off = R.PAGE_CTL then pageCtlWrite page v s
  else if off = R.EVT_STS then s.setReg cp off (without (s.reg cp off) v)
  else if off = R.EVT_EN then evtEnWrite page v s
  else if off = R.EVT_FORCE then evtForceWrite page v s
  else if off = R.EVT_ROUTE then s.setReg cp off (v % 2 ^ 10)
  else if off = R.ERR_FIRST then errFirstWrite page v s
  else if off = R.PAGE_LOCK then pageLockWrite src page v s
  else s

/-- A write of one register that has been granted. -/
def regWrite (src : Src) (page off v : Nat) (s : State) : State :=
  match pageBlk page with
  | none => s
  | some (b, i) =>
    if off < 0x40 ∧ isBar2 page = false then hdrWrite src page off v s
    else
      match b with
      | .til => tilWrite page off v s
      | .dst =>
        let c := (off - R.DST_SPARE_MAP) / 4
        if R.DST_SPARE_MAP ≤ off ∧ c < 16 then spareMapWrite i c v s else s
      | .nmc | .fmc => if off = R.NMC_CTL then nmcCtlWrite page v s else plainWrite page off v s
      | .crs => if off = R.CRS_QUOTA then crsQuotaWrite i v s else plainWrite page off v s
      | .ings => strWrite (i - 1) off v s
      | .kvs => kvsWrite off v s
      | .hdd => if off = R.HDD_CTL then hddCtlWrite v s else plainWrite page off v s
      | .stp => stpWrite off v s
      | .ckp => if off = R.CKP_CTL then ckpCtlWrite v s else plainWrite page off v s
      | .tok => tokWrite off v s
      | .exe => exeWrite i off v s
      | .gatl => gatlWrite i off v s
      | .gats => gatsWrite off v s
      | .chk => chkRegWrite i off v s
      | .hpt =>
        if off = R.HPT_WIN_DATA_LO then winLoWrite i v s
        else if off = R.HPT_WIN_DATA_HI then winHiWrite i v s
        else plainWrite page off v s
      | .pwr =>
        if off = R.PWR_CTL then pwrCtlWrite v s
        else if off = R.PWR_DOM_REQ_LO ∨ off = R.PWR_DOM_REQ_HI then (domReqWrite off v s).stopPlls
        else plainWrite page off v s
      | .clk => if off = R.CLK_PLL_CTL then (plainWrite page off v s).stopPlls else plainWrite page off v s
      | .err =>
        if off = R.ERR_FATAL then errFatalWrite v s
        else if off = R.ERR_LOG_POP then errLogPopWrite v s
        else plainWrite page off v s
      | .sec => secWrite src off v s
      | .bst => bstWrite src off v s
      | .dbg =>
        if off = R.DBG_CTL then dbgCtlWrite i v s
        else if off = R.DBG_TRACE_CTL then traceCtlWrite v s
        else plainWrite page off v s
      | .cq => cqWrite i off v s
      | .msix => if off % 16 = 12 ∧ off < 0x400 then vectorCtlWrite i (off / 16) v s else plainWrite page off v s
      | .pba => s
      | .sqr | .cur | .ing | .upd | .mde | .prt | .prtp | .ao | .tim => plainWrite page off v s

/-- A write that R466 governs, if the register is one. -/
def prtGoverned (page off v : Nat) : Option (State → State) :=
  match pageBlk page with
  | some (b, i) =>
    if isBar2 page then none
    else if off = R.PAGE_OWNER then some (pageOwnerWrite page v)
    else if b = .prt ∧ R.PRT_MAP ≤ off ∧ off < R.PRT_MAP + 24 then some (prtMapWrite ((off - R.PRT_MAP) / 4) v)
    else if b = .prtp ∧ off = R.PRT_P_OWNER then some (prtOwnerWrite (i - 1) v)
    else if b = .prtp ∧ off = R.PRT_P_FAR_BASE then some (prtFarWrite (i - 1) false v)
    else if b = .prtp ∧ off = R.PRT_P_FAR_SIZE then some (prtFarWrite (i - 1) true v)
    else none
  | none => none

/-- A refused write counts; any other does nothing. -/
def State.onlyDeny (s : State) (src : Src) (page off : Nat) : State :=
  match s.judge src page off true with
  | .denied h r => s.deny h (if isBar2 page then 0x3FFF else page) r
  | _ => s

/-- A write of one aligned word by a source (R446 to R448). -/
def State.wordWrite (s : State) (src : Src) (page off v : Nat) : State :=
  match prtGoverned page off v with
  | some act => s.onPrt src page off act
  | none =>
    if page = pSEC ∧ off = R.SEC_KEY_CMD then s.onKey src off (keyCmdWrite v)
    else if page = pSEC ∧ off = R.SEC_LINK_CMD then s.onKey src off (linkCmdWrite v)
    else if noRegister page off then s.onlyDeny src page off
    else
      match pageBlk page with
      | some (.dbg, i) =>
        if off = R.DBG_PEEK_DATA then s.onPeekWrite src i v else s.onWrite src page off (regWrite src page off v)
      | _ => s.onWrite src page off (regWrite src page off v)

/-- A write to part of a word: ignored, and refused with reason SIZE (R446). -/
def State.partWrite (s : State) (src : Src) (page off : Nat) : State :=
  match src with
  | .port h =>
    (match s.judge src page off true with
     | .granted => s.deny h (if isBar2 page then 0x3FFF else page) dnSize
     | .drop => if (pageBlk page).isNone then s else s.deny h (if isBar2 page then 0x3FFF else page) dnSize
     | .denied k r => s.deny k (if isBar2 page then 0x3FFF else page) r
     | _ => s)
  | _ => s

/-- The aligned words that n bytes at a page's offset touch: word offset, first byte and bytes touched in it. -/
def wordSpans (off n : Nat) : List (Nat × (Nat × Nat)) :=
  if n = 0 then [] else
    (List.range ((off + n - 1) / 4 + 1 - off / 4)).map fun k =>
      let w := (off / 4 + k) * 4
      let lo := max off w
      (w, (lo - w, min (off + n) (w + 4) - lo))

/-- Bytes of a page that an access may touch: it ends with the page. -/
def inPage (off n : Nat) : Nat := min n (0x1000 - off)

/-- REGISTER_WRITE (R14, R446): an access of any width, word by word in ascending order; `value` holds its bytes, the first lowest. -/
def execRegisterWrite (src : Src) (page off bytes value : Nat) (s : State) : Host.Outcome State Fault Refusal :=
  .next ((wordSpans off (inPage off bytes)).foldl (fun a w =>
    if w.2.2 = 4 then a.wordWrite src page w.1 (value / 2 ^ (8 * (w.1 - off)) % 2 ^ 32) else a.partWrite src page w.1) s)

/-- RC_READ (R14, R446): a read of any register, of any width; each touched word is read whole, and the answer holds the bytes asked
for, word by word. -/
def execRcRead (src : Src) (page off bytes : Nat) (s : State) : Host.Outcome State Fault Refusal :=
  let go := fun (a : State × List Nat) (w : Nat × (Nat × Nat)) =>
    let t := (a.1.reply []).wordRead src page w.1
    (t, a.2 ++ t.answer.map fun v => v / 2 ^ (8 * w.2.1) % 2 ^ (8 * w.2.2))
  let r := (wordSpans off (inPage off bytes)).foldl go (s, [])
  .next (r.1.reply r.2)

/-- Registers written by a device-side block, whole words in ascending order (R446): little-endian bytes at a page's offset. -/
def State.regDevWrite (s : State) (part page off : Nat) (l : List Nat) : State :=
  (List.range (l.length / 4)).foldl (fun a k =>
    let o := off + 4 * k
    a.wordWrite (.device part) (page + o / 0x1000) (o % 0x1000) (leNat ((l.drop (4 * k)).take 4))) s

/-- Registers read by a device-side block: the state after, and n bytes. -/
def State.regDevRead (s : State) (part page off n : Nat) : State × List Nat :=
  let go := fun (a : State × List Nat) (k : Nat) =>
    let o := off + 4 * k
    let old := a.1.answer
    let t := (a.1.reply []).wordRead (.device part) (page + o / 0x1000) (o % 0x1000)
    (t.reply old, a.2 ++ leBytes (nth 0 t.answer 0) 4)
  (List.range (n / 4)).foldl go (s, [])

end Sys2Proof.Machine
end

