-- ==== Sys2Proof/Machine/Mov.lean ====
section
/-! DEFINITION. Machine/Mov.lean: MOV (R99 to R101): its checks, the movement of its rows from and to every kind of device address
(R303 to R307, R314, R390, R462, R463), the page walk (R181 to R187), the stash (R236 to R241) and snooping (R527); the answers of
hosts to the reads that it makes, and their time limits. -/
namespace Sys2Proof.Machine

/-! ### Ranges -/

/-- n bytes at a in pieces that do not cross a multiple of z; f bounds their number. -/
def spans (z : Nat) : Nat → Nat → Nat → List (Nat × Nat)
  | 0, _, _ => []
  | f + 1, a, n =>
    if n = 0 then [] else (a, min n (z - a % z)) :: spans z f (a + min n (z - a % z)) (n - min n (z - a % z))

/-- Pieces of at most 4,096 bytes: the largest read request of a port (R441) and the data of one packet (R403). -/
def spans4k (a n : Nat) : List (Nat × Nat) := spans 4096 (n / 4096 + 2) a n

/-- A row in parts that cross no host-window entry on either side: source, destination, bytes. -/
def rowParts (a b n : Nat) : List (Nat × (Nat × Nat)) :=
  (spans (2 ^ 32) 3 a n).flatMap fun p =>
    (spans (2 ^ 32) 3 (b + (p.1 - a)) p.2).map fun q => (p.1 + (q.1 - (b + (p.1 - a))), (q.1, q.2))

/-- The first address of each 256-byte granule that a range touches. -/
def granules (a n : Nat) : List Nat :=
  if n = 0 then [] else (List.range ((a + n - 1) / 256 - a / 256 + 1)).map fun k => if k = 0 then a else (a / 256 + k) * 256

/-- The first address of a range whose power domain is off (R489). -/
def State.firstOff (s : State) (a n : Nat) : Option Nat := (granules a n).find? s.targetOff

/-- A range waits for the initialisation of its memory. -/
def State.rangeWaits (s : State) (a n : Nat) : Bool := (granules a n).any s.targetWaits

def isRegs (s : State) (a : Nat) : Bool :=
  match s.region a with
  | .regs _ _ => true
  | _ => false

def isStash (s : State) (a : Nat) : Bool :=
  match s.region a with
  | .stash _ => true
  | _ => false

/-! ### Checks (R99, R181, R307, R465, R569) -/

/-- Every row of one side is mapped for the partition. -/
def State.rowsMapped (s : State) (part d : Nat) (wr : Bool) : Bool :=
  (List.range (mvRows d)).all fun k => s.maps part (if wr then mvDstRow d k else mvSrcRow d k) (mvRowBytes d) wr

/-- One side has a row in the register window. -/
def State.rowsRegs (s : State) (d : Nat) (wr : Bool) : Bool :=
  (List.range (mvRows d)).any fun k => isRegs s (if wr then mvDstRow d k else mvSrcRow d k)

/-- The rule of R307 for a MOV that touches the register window with one side. -/
def State.regsOk (s : State) (d : Nat) (wr : Bool) : Bool :=
  !s.rowsRegs d wr ||
  (mvRowBytes d % 4 == 0 && df d 40 31 0 % 4 == 0 && df d 44 31 0 % 4 == 0 && (if wr then mvDst d else mvSrc d) % 4 == 0)

/-- The unpaged sides of a MOV lie where its partition may reach them. -/
def State.movSidesOk (s : State) (part d : Nat) : Bool :=
  (mvPagedSrc d || (s.rowsMapped part d false && s.regsOk d false)) &&
  (mvPagedDst d || (s.rowsMapped part d true && s.regsOk d true)) &&
  (!(mvPagedSrc d || mvPagedDst d) || s.pagePart pKVS == part)

def State.movCheck (s : State) (c : DCtx) : Meaning :=
  let d := c.d
  { recs := []
    reasons :=
      rj (mvRowBytes d == 0 || mvRows d == 0 || (mvPagedSrc d && mvPagedDst d) || (mvRsigEn d && !isTarget (mvRsigTile d)))
        rjShapeLimit ++
      rj (!s.movSidesOk (s.tilePart c.tile) d ||
        (mvRsigEn d && isTarget (mvRsigTile d) && s.targetForeign c.tile (mvRsigTile d))) rjAddrRange }

/-! ### Bytes delivered -/

/-- ERR_INFO1 of SRAM_UE for a read by this transfer (R82): its SEQ_ID when the line's tile issued it. -/
def State.xSeq (s : State) (x : Xfer) (a : Nat) : Nat :=
  match s.region a with
  | .sram t _ | .queue t _ => if x.isMov && t == x.tile then dSeqId x.d else 0xFFFF
  | _ => 0xFFFF

/-- A line that a write into a tile window must read first, holding an uncorrectable error (R80, R82). -/
def State.rmwBad (s : State) (b n : Nat) : Option Nat :=
  match s.region b with
  | .sram _ _ | .queue _ _ =>
    let k := s.key b
    ((if k % 8 = 0 then [] else [b]) ++ (if (k + n) % 8 = 0 then [] else [b + n - 1])).find? fun a => s.lineBad (s.key a / 64)
  | _ => none

/-- Bytes written to memory; those from index k on are written as poison (R314). -/
def State.xMemPut (s : State) (o : Owner) (x : Xfer) (b : Nat) (l : List Nat) (k : Nat) : State :=
  match s.rmwBad b l.length with
  | some a => (s.badLine a (s.xSeq x a) (x.isMov && s.escalates x.d)).xFault o 0x0A a
  | none =>
    let key := s.key (s.localAddr b)
    let s1 := s.noteUndo o ((List.range l.length).map fun i => (key + i, s.byte (key + i)))
    let s2 := s1.devWrite b l
    let s3 := (touchedLines (key + k) (l.length - k)).foldl (fun a y => a.poisonLine y) s2
    s3.xFar x b l.length

/-- Bytes written to a host window (R462, R463): the port carries them as its egress crossing grants. -/
def State.xHostPut (s : State) (o : Owner) (x : Xfer) (h off b : Nat) (l : List Nat) (k : Nat) : State :=
  match s.hostFault h off true with
  | some c => s.xFault o c b
  | none =>
    let g := l.take k
    let p := l.drop k
    let s1 := { s with out := s.out ++ (if g = [] then [] else [Out.hostWrite h (s.hostAddr h off) g]) ++
      (if p = [] then [] else [Out.hostPoison h (s.hostAddr h (off + k)) p]) }
    (s1.xReq x (32 + h) (tlpCount off l.length)).modXfer o fun y =>
      { y with unsure := (y.unsure.filter fun a => a / 2 ^ 40 != b / 2 ^ 40) ++ [b] }

/-- Bytes sent to another module, one WRITE packet for each piece, each to be acknowledged (R390). -/
def State.xRemotePut (s : State) (o : Owner) (x : Xfer) (m r : Nat) (l : List Nat) (k : Nat) : State :=
  (spans4k r l.length).foldl (fun a p =>
    let i := p.1 - r
    (a.addReq ⟨0, .xfer o, none, 0, true, 0, p.2, p.1⟩).routeOut
      (a.mkPacket m x.engine (.write p.1 ((l.drop i).take p.2) (decide (k < i + p.2)) a.nextReq))) s

/-- Bytes of a transfer delivered at a device address in one region; `k` is the index of the first poisoned one. A destination that
is still being initialised lets them wait. -/
def State.xPut (s : State) (o : Owner) (id b : Nat) (l : List Nat) (k : Nat) : State :=
  match s.xferOf o with
  | none => s
  | some x =>
    if l = [] ∨ s.xLive x = false then s
    else
      match s.firstOff b l.length with
      | some a => s.xFault o 0x11 a
      | none =>
        if s.rangeWaits b l.length then s.modXfer o fun y => { y with held := y.held ++ [(id, (b, (l, k)))] }
        else
          match s.region b with
          | .near _ | .far _ | .sram _ _ | .queue _ _ => s.xMemPut o x b l k
          | .regs g off => s.regDevWrite x.part g off (l.take (k / 4 * 4))
          | .host h off => s.xHostPut o x h off b l k
          | .remote m r => s.xRemotePut o x m r l k
          | _ => s.xFault o 0x09 b

/-- A transfer that is still alive and holds nothing back. -/
def State.xAlive (s : State) (o : Owner) : Bool :=
  match s.xferOf o with
  | some x => s.xLive x && x.held.isEmpty
  | none => false

/-- Bytes delivered and, once written, fed to a snooping check unit; what comes after a poisoned line is not written (R314). -/
def State.xDeliver (s : State) (o : Owner) (id b : Nat) (l : List Nat) (k : Nat) (bad : Option Nat) : State :=
  let s1 := s.xPut o id b l k
  let s2 := if s1.xAlive o = false then s1 else if id = 0 then s1.feedBytes o (l.take k) else s1.feedCame o id (l.take k)
  match bad with
  | some a => if s2.xAlive o then s2.xFault o 0x0A a else s2
  | none => s2

/-! ### Bytes fetched -/

/-- A read request to a host window, bytes bound for `dst`; a read of no bytes confirms earlier writes (R463). -/
def State.xHostRead (s : State) (o : Owner) (a n dst : Nat) : State :=
  match s.xferOf o, s.region a with
  | some x, .host h off =>
    if s.xLive x = false then s
    else
      match s.hostFault h off false with
      | some c => s.xFault o c a
      | none =>
        let id := s.nextReq
        let s1 := s.addReq ⟨0, .xfer o, some h, 0, false, dst, n, off⟩
        let s2 := ({ s1 with out := s1.out ++ [Out.hostRead h (s.hostAddr h off) n id] }).xReq x (32 + h) 1
        if n = 0 then s2 else s2.feedLater o id
  | _, _ => s

/-- Read requests to another module (R390). -/
def State.xRemoteRead (s : State) (o : Owner) (m r n dst : Nat) : State :=
  match s.xferOf o with
  | none => s
  | some x =>
    (spans4k r n).foldl (fun a p =>
      ((a.addReq ⟨0, .xfer o, none, 0, false, dst + (p.1 - r), p.2, p.1⟩).routeOut
        (a.mkPacket m x.engine (.readReq p.1 p.2 a.nextReq))).feedLater o a.nextReq) s

/-- n bytes moved from a to b, each in one region and one window entry. -/
def State.xMove (s : State) (o : Owner) (a b n : Nat) : State :=
  match s.xferOf o with
  | none => s
  | some x =>
    if s.xLive x = false then s
    else
      match s.firstOff a n with
      | some e => s.xFault o 0x11 e
      | none =>
        match s.region a with
        | .near _ | .far _ | .sram _ _ | .queue _ _ =>
          let (s1, l, bad) := s.devRead a n (s.xSeq x a) (x.isMov && s.escalates x.d)
          let s2 := s1.xFar x a n
          match bad with
          | none => s2.xDeliver o 0 b l n none
          | some c => s2.xDeliver o 0 b (l.take (min n ((c / 64 + 1) * 64 - a))) (c - a) (some c)
        | .regs g off =>
          let (s1, l) := s.regDevRead x.part g off n
          s1.xDeliver o 0 b l n none
        | .host _ _ => (spans4k a n).foldl (fun t p => t.xHostRead o p.1 p.2 (b + (p.1 - a))) s
        | .remote m r => s.xRemoteRead o m r n b
        | _ => s.xFault o 0x09 a

/-! ### Rows -/

/-- One side of a row through the stash aperture. -/
def State.stashSide (s : State) (x : Xfer) (a n : Nat) (wr : Bool) : StashAns :=
  match s.region a with
  | .stash off => s.stashAt x off n wr
  | _ => .at_ s a

/-- The plan record of an entry cannot be reached (R572): the step is squashed and the transfer goes no further. -/
def State.stashStuck (s : State) (o : Owner) (a : Nat) : State :=
  match s.region a with
  | .stash off => ((s.ctlPoison (s.stashAddr (off / 2 ^ 24)) 64).modXfer o fun y => { y with stalled := true }).cause vbStepErr
  | _ => s

/-- A stalled transfer has still no room (R239). -/
def State.stashBlocked (s : State) (x : Xfer) (a : Nat) : Bool :=
  x.stalled &&
  match s.region a with
  | .stash off => let e := off / 2 ^ 24
    s.ctlBad (s.stashAddr e) 64 || (stWhere (s.stashSt e (dTag x.d % 2)) == 0 && (s.stackFor e).isNone)
  | _ => false

/-- One row begins: the state after and whether it did. -/
def State.xRow (s : State) (o : Owner) (src dst n : Nat) : State × Bool :=
  match s.xferOf o with
  | none => (s, false)
  | some x =>
    if s.stashBlocked x src || s.stashBlocked x dst then (s, false)
    else
      match s.stashSide x src n false with
      | .fault e off => (s.xStashFault o e off src, false)
      | .badRecord => (s.stashStuck o src, false)
      | .stall s1 => (s1, false)
      | .at_ s1 a =>
        match s1.stashSide x dst n true with
        | .fault e off => (s1.xStashFault o e off dst, false)
        | .badRecord => (s1.stashStuck o dst, false)
        | .stall s2 => (s2.modXfer o fun y => { y with stalled := true }, false)
        | .at_ s2 b =>
          if s2.rangeWaits a n || s2.rangeWaits b n then (s2, false)
          else
            let s3 := s2.modXfer o fun y => { y with stalled := false, row := y.row + 1, rowsDone := y.rowsDone || y.row + 1 == mvRows y.d }
            ((rowParts a b n).foldl (fun t p => t.xMove o p.1 p.2.1 p.2.2) s3, true)

/-! ### The page walk of a paged MOV (R181 to R187) -/

def xWalkOf (x : Xfer) : Walk := walkOf (mvCtx x.d) (if mvPagedSrc x.d then mvSrc x.d else mvDst x.d)

/-- The walk waits for a page (R186), or faults at once where no wait is set. -/
def State.xWaitPage (s : State) (o : Owner) (pool ctx tok : Nat) : State :=
  if s.kvReg R.KVS_ALLOC_WAIT % 2 ^ 16 = 0 then (s.raise pKVS 4 pool ctx).xWalkFault o 0x05 tok
  else if s.kvWaiters.any fun w => match w with
    | .walk q _ _ _ => q == o
    | _ => false
  then s
  else { s with kvWaiters := s.kvWaiters ++ [.walk o pool ctx s.mt] }

/-- A waiting walk has its page. -/
def State.xGotPage (s : State) (o : Owner) : State :=
  { s with kvWaiters := s.kvWaiters.filter fun w => match w with
      | .walk q _ _ _ => q != o
      | _ => true }

/-- The row at token t in page p. -/
def State.xPagedRow (s : State) (o : Owner) (x : Xfer) (p tp : Nat) : State × Bool :=
  let a := s.slotAddr (xWalkOf x) p ((mvTok x.d + x.row) % tp)
  if mvPagedSrc x.d then s.xRow o a (mvDstRow x.d x.row) (mvRowBytes x.d)
  else s.xRow o (mvSrcRow x.d x.row) a (mvRowBytes x.d)

/-- One act of a paged MOV: a pin given back, a row moved through the pinned page, or the next run begun. -/
def State.xPaged (s : State) (o : Owner) (x : Xfer) : State × Bool :=
  let w := xWalkOf x
  let tp := max 1 ((s.cxTp w.ctx).getD 1)
  let t := mvTok x.d + x.row
  let n := min (mvRows x.d - x.row) (tp - t % tp)
  match x.pin with
  | some (_, p) =>
    if x.rowsDone || t % tp == 0 then
      (if mvPagedDst x.d && s.reqs.any fun r => r.owner == .xfer o && !r.write then (s, false) else (s.xUnpin o, true))
    else s.xPagedRow o x p tp
  | none =>
    if s.kvsRuns = false then (s, false)
    else
      match (if x.row = 0 then s.walkCheck w (mvRowBytes x.d) else none) with
      | some c => (s.xWalkFault o c t, false)
      | none =>
        match s.walkPage w (t / tp) (t + n - 1) (mvPagedDst x.d) with
        | .fault c => (s.xWalkFault o c t, false)
        | .waitAlloc => (s.xWaitPage o (s.cxPool w.ctx) w.ctx t, false)
        | .waitPin => (s, false)
        | .page s1 p =>
          let pool := s.cxPool w.ctx
          let s2 := (s1.xGotPage o).modXfer o fun y => { y with pin := some (pool, p) }
          let (s3, moved) := s2.xPagedRow o { x with pin := some (pool, p) } p tp
          if moved then (s3, true) else if s3.xAlive o then (s, false) else (s3, false)

/-! ### Progress -/

/-- Once the last row has begun and every answer has come, reads of no bytes confirm what was written to host windows (R463). -/
def State.xConfirm (s : State) (o : Owner) : State :=
  match s.xferOf o with
  | some x =>
    if x.rowsDone && x.held.isEmpty && !s.hasReqs (.xfer o) then x.unsure.foldl (fun a b => a.xHostRead o b 0 0) s else s
  | none => s

/-- Held bytes whose memory has been initialised are delivered. -/
def State.xHeld (s : State) (o : Owner) (x : Xfer) : State :=
  x.held.foldl (fun a e =>
    a.xDeliver o e.1 e.2.1 e.2.2.1 e.2.2.2 (if e.2.2.2 < e.2.2.1.length then some e.2.1 else none))
    (s.modXfer o fun y => { y with held := [] })

/-- The transfer may move bytes: its engine works and its check unit has been granted (R527). -/
def State.xMay (s : State) (x : Xfer) : Bool :=
  s.live && s.clocked (pCUR x.engine) && s.xLive x && (!mvSnoop x.d || (s.snoopGrant x.owner).isSome)

/-- A transfer goes on as far as it can. -/
def State.xAdvance (o : Owner) : Nat → State → State
  | 0, s => s
  | f + 1, s =>
    match s.xferOf o with
    | none => s
    | some x =>
      if s.xMay x = false then s
      else if x.held ≠ [] then
        (if x.held.any fun e => s.rangeWaits e.2.1 e.2.2.1.length then s else (s.xHeld o x).xAdvance o f)
      else if x.rowsDone = true ∧ x.pin.isNone = true then s.xConfirm o
      else
        match (if mvPagedSrc x.d || mvPagedDst x.d then s.xPaged o x
          else s.xRow o (mvSrcRow x.d x.row) (mvDstRow x.d x.row) (mvRowBytes x.d)) with
        | (s1, true) => s1.xAdvance o f
        | (s1, false) => s1

def State.advance (s : State) (o : Owner) : State :=
  match s.xferOf o with
  | some x => s.xAdvance o (2 * mvRows x.d + x.held.length + 8)
  | none => s

/-- A MOV is handed to an engine of its tile's district; with none that takes work it has not issued. -/
def State.movRun (s : State) (c : DCtx) : State :=
  match s.pickEngine (c.tile / 256) with
  | none => s
  | some (e, s1) =>
    let o : Owner := ⟨c.site, c.pos, c.parked⟩
    ((s1.addRun c.site (mkRun c .working)).newXfer
      { owner := o, tile := c.tile, d := c.d, part := s.tilePart c.tile, engine := e, issued := s.mt }).advance o

def isMovKind (d : Nat) : Bool := dKind d == 6

/-- Transfers of the MOVs of a tile with a queue count. -/
def State.movsAt (s : State) (tile pos : Nat) : List Xfer :=
  s.xfers.filter fun x => x.isMov && x.tile == tile && x.owner.pos == pos

/-- MOV (R99): it issues, or, once it has issued, goes on. -/
def execMov (tile pos : Nat) (s : State) : Host.Outcome State Fault Refusal :=
  .next (if s.movsAt tile pos = [] then s.issueWith tile pos isMovKind State.movCheck State.movRun
    else (s.movsAt tile pos).foldl (fun a x => a.advance x.owner) s)

/-! ### Answers of hosts, and time limits -/

/-- An outstanding request to a host port. -/
def State.hostReq (s : State) (req : Nat) : Option (OutReq × Nat) :=
  match s.reqOf req with
  | some r => r.port.map fun h => (r, h)
  | none => none

/-- An answered read serves its transfer. -/
def State.answered (s : State) (r : OutReq) (l : List Nat) (k : Nat) (bad : Option Nat) : State :=
  match r.owner with
  | .xfer o => ((s.dropReq r.id).xDeliver o r.id r.dst l k bad).advance o
  | _ => s.dropReq r.id

/-- A read of no bytes has confirmed the writes to a port. -/
def State.confirmed (s : State) (o : Owner) (h : Nat) : State :=
  s.modXfer o fun y => { y with unsure := y.unsure.filter fun b => (b - 0x100000000000) / 2 ^ 40 != h }

/-- HOST_COMPLETION (R463). A completion brings all the bytes its request asked for. -/
def execHostCompletion (req : Nat) (data : List Nat) (s : State) : Host.Outcome State Fault Refusal :=
  .next (
    match s.hostReq req with
    | none => s
    | some (r, h) =>
      if s.live = false ∨ s.domOn 40 = false ∨ s.linkUp h = false ∨ data.length < r.len then s
      else
        let s1 := s.modPort h fun p => { p with timeouts := 0 }
        match r.owner with
        | .xfer o =>
          if r.len = 0 then ((s1.dropReq req).confirmed o h).advance o
          else s1.answered r (data.take r.len) r.len none
        | _ => s1.dropReq req)

/-- A host read has timed out: its transfer fails, and LIMIT in a row detach the port (R463, R468). -/
def State.cplExpired (s : State) (req : Nat) (r : OutReq) (h v : Nat) : State :=
  let s1 := ((s.dropReq req).bump (pHPT h) R.HPT_CPL_TO_COUNT 1).raise (pHPT h) 5 r.addr (r.addr / 2 ^ 32 % 256)
  let s2 := match r.owner with
    | .xfer o => s1.xFault o 0x0F r.addr
    | _ => s1
  let n := (s2.port h).timeouts + 1
  let s3 := s2.modPort h fun p => { p with timeouts := n }
  if bits v 23 16 ≠ 0 ∧ bits v 23 16 ≤ n ∧ s3.detached h = false then s3.detach h 5 else s3

/-- CPL_TIMEOUT (R463, R468): a read's completion has not arrived within HPT_CPL_TIMEOUT.MS; LIMIT in a row detach the port. -/
def execCplTimeout (req : Nat) (s : State) : Host.Outcome State Fault Refusal :=
  .next (
    match s.hostReq req with
    | none => s
    | some (r, h) =>
      let v := s.reg (pHPT h) R.HPT_CPL_TIMEOUT
      if s.live = false ∨ s.mt < r.since + max 1 (v % 2 ^ 16) * 1000000 then s
      else
        s.cplExpired req r h v)

end Sys2Proof.Machine
end

