-- ==== Sys2Proof/Machine/Bar4.lean ====
section
/-! DEFINITION. Machine/Bar4.lean: the memory aperture of a host port (R312, R434, R443 to R445, R467, R471, R475, R489). -/
namespace Sys2Proof.Machine

/-- The device address that an offset of the aperture reaches. -/
def State.apAddr (s : State) (h off : Nat) : Nat :=
  s.reg (pHPT h) (R.HPT_AP_HI + 8 * (off / 2 ^ 32)) % 2 ^ 10 * 2 ^ 32 + off % 2 ^ 32

/-- A range lies in the ring area of a stream that the port feeds (R467). -/
def State.inFedRing (s : State) (h a n : Nat) : Bool :=
  (List.range 256).any fun k =>
    let b := s.reg64 (pINGS k) R.ING_STR_RING_BASE_LO
    s.feeds h (pINGS k) && decide (b ≤ a) && decide (a + n ≤ b + 2 ^ (s.reg (pINGS k) R.ING_STR_RING_SIZE % 64))

/-- Part of a range lies in the service reserve (R312). -/
def inReserve (a n : Nat) : Bool := decide (reserveBase < a + n) && decide (a < 0x040000000000)

/-- Why a piece of an access through one aperture entry is refused (R444, R467, R475, R489). -/
def State.apRefusal (s : State) (h off n : Nat) (wr : Bool) : Option Nat :=
  let f := s.reg (pHPT h) (R.HPT_AP_LO + 8 * (off / 2 ^ 32))
  let a := s.apAddr h off
  if s.ideMissing h then some dnIde
  else if bit f 0 = false ∨ (wr = true ∧ bit f 1 = false) then some dnAperture
  else if inReserve a n then some dnReserve
  else if s.maps (s.portPart h) a n wr = false ∧ s.inFedRing h a n = false then some dnAperture
  else if (s.firstOff a n).isSome then some dnAperture
  else none

/-- The offset reaches the staging area, which entry 15 maps (R471). -/
def State.staged (s : State) (h off : Nat) : Bool := decide (off / 2 ^ 32 = 15) && (s.port h).staged

/-- One byte of the staging area. -/
def State.stageByte (s : State) (k v : Nat) : State := { s with sec := { s.sec with staging := sset 0 s.sec.staging k (v % 256) } }

/-- A write through one entry. -/
def State.apWrite (s : State) (h off : Nat) (l : List Nat) : State :=
  if s.staged h off then
    if s.ideMissing h then s.deny h 0x3FFF dnIde
    else if 2 ^ 24 < off % 2 ^ 32 + l.length then s.deny h 0x3FFF dnAperture
    else l.zipIdx.foldl (fun a p => a.stageByte (off % 2 ^ 32 + p.2) p.1) s
  else
    match s.apRefusal h off l.length true with
    | some r => s.deny h 0x3FFF r
    | none => s.devWrite (s.apAddr h off) l

/-- A read through one entry: the state after and the bytes; a refused one returns all ones. -/
def State.apRead (s : State) (h off n : Nat) : State × List Nat :=
  if s.staged h off then
    if s.ideMissing h then (s.deny h 0x3FFF dnIde, List.replicate n 255)
    else if 2 ^ 24 < off % 2 ^ 32 + n then (s.deny h 0x3FFF dnAperture, List.replicate n 255)
    else (s, (List.range n).map fun k => sget 0 s.sec.staging (off % 2 ^ 32 + k))
  else
    match s.apRefusal h off n false with
    | some r => (s.deny h 0x3FFF r, List.replicate n 255)
    | none =>
      let a := s.apAddr h off
      let t := (lineAddrs a n).foldl (fun x y => (x.lineRead y 0xFFFF false).1) s
      (t, t.bytes (t.key (t.localAddr a)) n)

/-- The pieces of an access, split where it crosses from one entry into the next (R444). -/
def apPieces (off n : Nat) : List (Nat × Nat) := (spans (2 ^ 32) (n / 2 ^ 32 + 2) off n).filter fun p => decide (p.1 < 2 ^ 36)

/-- Some piece waits for its memory's initialisation. -/
def State.apWaits (s : State) (h off n : Nat) (wr : Bool) : Bool :=
  (apPieces off n).any fun p => !s.staged h p.1 && (s.apRefusal h p.1 p.2 wr).isNone && s.rangeWaits (s.apAddr h p.1) p.2

def State.apWriteAll (s : State) (h off : Nat) (l : List Nat) : State :=
  (apPieces off l.length).foldl (fun a p => a.apWrite h p.1 ((l.drop (p.1 - off)).take p.2)) s

def State.apReadAll (s : State) (h off n : Nat) : State :=
  let (t, l) := (apPieces off n).foldl (fun (x : State × List Nat) p =>
    let (u, b) := x.1.apRead h p.1 p.2
    (u, x.2 ++ b)) (s, [])
  t.reply l

/-- BAR4_ACCESS (R444). In HOLD reads return all ones and writes are dropped (R434). -/
def execBar4Access (port off : Nat) (write : Bool) (len : Nat) (data : List Nat) (s : State) : Host.Outcome State Fault Refusal :=
  .next (
    if s.aoOn = false ∨ 8 ≤ port ∨ s.portUp port = false then s
    else if s.hold then (if write then s else s.reply (List.replicate len 255))
    else if s.apWaits port off (if write then data.length else len) write then s
    else if write then s.apWriteAll port off data
    else s.apReadAll port off len)

end Sys2Proof.Machine
end

