-- ==== Sys2Proof/Machine/Conv.lean ====
section
/-! DEFINITION. Machine/Conv.lean: the sliding-window operators of the CONV descriptor (R149 to R172): CONV, WGRAD, the
poolings and their backward operations, space-to-depth and depth-to-space. -/
namespace Sys2Proof.Machine

/-! ### The window record (R152) -/

structure Win where
  inH : Nat
  inW : Nat
  cin : Nat
  cout : Nat
  groups : Nat
  kh : Nat
  kw : Nat
  sh : Nat
  sw : Nat
  dh : Nat
  dw : Nat
  idh : Nat
  idw : Nat
  padT : Nat
  padB : Nat
  padL : Nat
  padR : Nat
  padVal : Nat
  fmtX : Option Fmt
  fmtW : Option Fmt
  fmtY : Option Fmt
  sclX : Bool
  sclW : Bool
  sclY : Bool
  avgExcl : Bool
  r : Nat
  xPix : Nat
  xRow : Nat
  wRow : Nat
  wGrp : Nat
  yPix : Nat
  yRow : Nat
  deriving DecidableEq, Repr

/-- The window record from its 64 bytes as a number. -/
def winOf (w : Nat) : Win :=
  { inH := df w 0 15 0 + 1, inW := df w 2 15 0 + 1, cin := df w 4 15 0 + 1, cout := df w 6 15 0 + 1, groups := df w 8 15 0 + 1
    kh := df w 0x0A 4 0 + 1, kw := df w 0x0B 4 0 + 1, sh := df w 0x0C 3 0 + 1, sw := df w 0x0C 7 4 + 1
    dh := df w 0x0D 5 0 + 1, dw := df w 0x0E 5 0 + 1, idh := df w 0x0F 3 0 + 1, idw := df w 0x0F 7 4 + 1
    padT := df w 0x10 7 0, padB := df w 0x11 7 0, padL := df w 0x12 7 0, padR := df w 0x13 7 0, padVal := df w 0x14 31 0
    fmtX := Fmt.ofCode (df w 0x18 4 0), fmtW := Fmt.ofCode (df w 0x19 4 0), fmtY := Fmt.ofCode (df w 0x1A 4 0)
    sclX := df w 0x1B 0 0 == 1, sclW := df w 0x1B 1 1 == 1, sclY := df w 0x1B 2 2 == 1, avgExcl := df w 0x1B 3 3 == 1
    r := df w 0x1C 3 0 + 1, xPix := df w 0x20 31 0, xRow := df w 0x24 31 0, wRow := df w 0x28 31 0, wGrp := df w 0x2C 31 0
    yPix := df w 0x30 31 0, yRow := df w 0x34 31 0 }

def cvWrec (d : Nat) : Nat := df d 16 15 0 * 64
def cvOp (d : Nat) : Nat := df d 18 3 0
def cvNoskip (d : Nat) : Bool := df d 18 4 4 == 1
def cvSaveArg (d : Nat) : Bool := df d 18 5 5 == 1
def cvMap (d : Nat) : Bool := df d 18 6 6 == 1
def cvTransB (d : Nat) : Bool := df d 18 7 7 == 1
def cvBank (d : Nat) : Nat := df d 19 0 0
def cvAcc (d : Nat) : Bool := df d 19 1 1 == 1
def cvOut (d : Nat) : Nat := df d 19 3 2
def cvRnd (d : Nat) : Nat := df d 19 5 4
def cvM (d : Nat) : Nat := df d 20 5 0 + 1
def cvN (d : Nat) : Nat := df d 20 12 6 + 1
def cvKchunk (d : Nat) : Nat := (df d 20 21 13 + 1) * 32
def cvP0 (d : Nat) : Nat := df d 24 31 0
def cvCo0 (d : Nat) : Nat := df d 28 15 0
def cvChunk0 (d : Nat) : Nat := df d 30 15 0
def cvXBase (d : Nat) : Nat := df d 32 16 0 * 32
def cvXAux (d : Nat) : Nat := df d 32 33 17 * 32
def cvWBase (d : Nat) : Nat := df d 32 50 34 * 32
def cvWAux (d : Nat) : Nat := df d 40 16 0 * 32
def cvYBase (d : Nat) : Nat := df d 40 32 17 * 64
def cvAuxY (d : Nat) : Nat := df d 40 48 33 * 64
def cvRec (d i : Nat) : Nat := df d (48 + 2 * i) 15 0
def cvOrigin (d : Nat) : Nat := df d 54 41 0
def cvKr0 (d : Nat) : Nat := df d 60 15 0
def cvWk (d : Nat) : Nat := df d 60 31 16 + 1

/-- Output extent of one dimension (R156), at or below 0 when empty. -/
def extent (inp id lo hi dil k stride : Nat) : Int :=
  (((inp - 1) * id + 1 + lo + hi : Nat) - (dil * (k - 1) + 1 : Nat) : Int) / (stride : Int) + 1

def Win.oh (w : Win) : Int := extent w.inH w.idh w.padT w.padB w.dh w.kh w.sh
def Win.ow (w : Win) : Int := extent w.inW w.idw w.padL w.padR w.dw w.kw w.sw
def Win.owN (w : Win) : Nat := w.ow.toNat
def Win.cg (w : Win) : Nat := w.cin / w.groups
def Win.cog (w : Win) : Nat := w.cout / w.groups
def Win.kFwd (w : Win) : Nat := w.kh * w.kw * w.cg

/-- What a tap presents (R150): an input position, a hole or padding. -/
inductive Tap where
  | elem (h w : Nat)
  | hole
  | pad
  deriving DecidableEq, Repr

/-- The tap (kh, kw) of output pixel p (R150). -/
def Win.tap (w : Win) (p kh kw : Nat) : Tap :=
  let ih : Int := (p / w.owN * w.sh + kh * w.dh : Nat) - (w.padT : Int)
  let iw : Int := (p % w.owN * w.sw + kw * w.dw : Nat) - (w.padL : Int)
  if 0 ≤ ih ∧ ih ≤ ((w.inH - 1) * w.idh : Nat) ∧ 0 ≤ iw ∧ iw ≤ ((w.inW - 1) * w.idw : Nat) then
    if ih.toNat % w.idh = 0 ∧ iw.toNat % w.idw = 0 then .elem (ih.toNat / w.idh) (iw.toNat / w.idw) else .hole
  else .pad

/-- The tap of a forward index. -/
def Win.tapK (w : Win) (p k : Nat) : Tap := w.tap p (k / w.cg / w.kw) (k / w.cg % w.kw)

/-! ### Channel rows of pixels, with annex entries in ascending storage order (R74, R149) -/

/-- Channel slices at byte offsets `offs` (rising) from a base: n channels each. -/
def readSlices (rd : Nat → Nat) (f : Fmt) (base aux n : Nat) : List Nat → Nat → List (Nat × List Fp) × Nat × DecEv
  | [], ax => ([], ax, {})
  | o :: r, ax =>
    let v := readRow rd f (base + o) (if f = .p4x then aux else aux + o / blkBytes f) n ax
    let (l, ax', ev) := readSlices rd f base aux n r v.annex
    ((o, v.vals) :: l, ax', v.ev.join ev)

/-- Regions of those slices. -/
def sliceRegions (f : Fmt) (base aux n : Nat) (offs : List Nat) : List (Nat × Nat) :=
  offs.flatMap fun o => (base + o, codeBytes f n) ::
    (if f.hasScalePlane then [(aux + o / blkBytes f, scaleBytes f n)] else [])

/-- Slices read at offsets, as a table, with what reading them showed. -/
structure Slices where
  tab : List (Nat × List Fp)
  used : Nat
  ev : DecEv
  regs : List (Nat × Nat)

def slicesOf (rd : Nat → Nat) (f : Fmt) (base aux n : Nat) (offs : List Nat) : Slices :=
  let os := uniq offs
  let (t, u, e) := readSlices rd f base aux n os 0
  ⟨t, u, e, sliceRegions f base aux n os ++ (if u = 0 then [] else [(aux, 2 * u)])⟩

def Slices.get (s : Slices) (o i : Nat) : Fp := (sget [] s.tab o).getD i Fp.zero

/-- Offset of channel ch of the input pixel (h, w). -/
def Win.xOff (w : Win) (f : Fmt) (h x ch : Nat) : Nat := h * w.xRow + x * w.xPix + codeBytes f ch

/-! ### K depth and skipping (R69, R159, R162) -/

/-- The K depth of an operand mix (R69). -/
def kDepth (a b : Fmt) : Nat :=
  let four := fun (f : Fmt) => f == .p4 || f == .p4x || f == .mxfp4
  let half := fun (f : Fmt) => f == .bf16 || f == .fp16
  let b' := if b = .t2 then a else b
  if b = .t2 ∧ four a = true then 128
  else if four a && four b' then 64
  else if a == .fp32 || b' == .fp32 then 4
  else if half a || half b' then 16 else 32

/-- The least power of two at or above n. -/
def ceilPow2 (n : Nat) : Nat := if n ≤ 1 then 1 else 2 ^ (Nat.log2 (n - 1) + 1)

/-- The packing factor (R162). -/
def packFactor (kd cog : Nat) : Nat := min kd (128 / ceilPow2 cog)

/-- K indices that one weight block spans. -/
def cvSpan (d : Nat) (w : Win) (fx fw : Fmt) : Nat :=
  if cvMap d then kDepth fx fw / max 1 (packFactor (kDepth fx fw) w.cog) else kDepth fx fw

/-- A padding value that contributes nothing: +0 or −0. -/
def Win.padZero (w : Win) : Bool := w.padVal % 2 ^ 31 == 0

/-- A tap that lets its block be skipped (R159). -/
def Win.idle (w : Win) (t : Tap) : Bool :=
  match t with
  | .elem _ _ => false
  | .hole => true
  | .pad => w.padZero

/-- The blocks of `span` K indices of which every streamed tap, over `rows`, is idle. -/
def skippedBlocks (rows k span : Nat) (idle : Nat → Nat → Bool) : List Nat :=
  (List.range ((k + span - 1) / span)).filter fun b =>
    (List.range (min span (k - b * span))).all fun i => (List.range rows).all fun m => idle m (b * span + i)

/-! ### Shared checks (R171) -/

/-- The PAD_VAL rule of R153. -/
def padFits (f : Fmt) (v : Nat) : Bool :=
  v % 2 ^ 31 == 0 ||
  match f with
  | .mxint8 =>
    (match fp32 v with
     | .fin s m e => decide (m * 2 ^ (e + 6).toNat ≤ 127 + b2n s) && (decide (0 ≤ e + 6) || m % 2 ^ (-(e + 6)).toNat == 0)
     | _ => false)
  | _ =>
    match f.elem with
    | some e =>
      (match fp32 v with
       | .nan => e.special != .none
       | .inf _ => e.special == .ieee
       | .fin s m x =>
         let y := convFp e .rtz (.fin s m x)
         y.2.sat == 0 && y.1.eqv (.fin s m x))
    | none => false

/-- Plain FP6 channel rows hold whole groups of 4 elements (R171). -/
def fp6Bad (f : Option Fmt) (n : Nat) : Bool := (f == some .e2m3 || f == some .e3m2) && n % 4 != 0

def isPool (op : Nat) : Bool := decide (2 ≤ op) && decide (op ≤ 5)
def isCopy (op : Nat) : Bool := op == 6 || op == 7
def isPoolB (op : Nat) : Bool := op == 4 || op == 5

/-- Output pixels of a CONV operation's rows (R155, R170). -/
def Win.outPix (w : Win) (op : Nat) : Nat :=
  if op = 6 then (w.inH / w.r) * (w.inW / w.r)
  else if op = 7 then w.inH * w.r * (w.inW * w.r)
  else if isPoolB op then w.inH * w.inW
  else w.oh.toNat * w.ow.toNat

/-- Offset of output pixel p in Y and its first channel. -/
def Win.yOff (w : Win) (op p ch : Nat) (f : Fmt) : Nat :=
  let width := if op = 6 then w.inW / w.r else if op = 7 then w.inW * w.r else if isPoolB op then w.inW else w.owN
  p / width * w.yRow + p % width * w.yPix + codeBytes f ch

/-- Output rows: their offsets from Y_BASE and the elements each holds. -/
def cvYOffs (d : Nat) (w : Win) (f : Fmt) : List Nat :=
  let op := cvOp d
  (List.range (cvM d)).map fun m =>
    if op = 1 then m * w.yRow
    else if isCopy op then w.yOff op (cvP0 d + m) 0 f
    else w.yOff op (cvP0 d + m) (cvCo0 d) f

/-- Channels an operation of S2D or D2S writes per pixel. -/
def Win.copyCh (w : Win) (op : Nat) : Nat := if op = 6 then w.r * w.r * w.cin else w.cin / (w.r * w.r)

def cvYLen (d : Nat) (w : Win) : Nat := if isCopy (cvOp d) then w.copyCh (cvOp d) else cvN d

/-- Offsets of the input slices the rows of an operation read (R150, R157, R169, R170), with their length in channels. -/
def cvXOffs (d : Nat) (w : Win) (f : Fmt) : List Nat × Nat :=
  let op := cvOp d
  let rows := (List.range (cvM d)).map (cvP0 d + ·)
  let taps := fun (ps : List Nat) (g : Nat → Nat → List Nat) =>
    ps.flatMap fun p => (List.range (w.kh * w.kw)).flatMap fun t =>
      match w.tap p (t / w.kw) (t % w.kw) with
      | .elem h x => g h x
      | _ => []
  match op with
  | 0 =>
    let g0 := cvCo0 d / max 1 w.cog
    let g1 := (cvCo0 d + cvN d - 1) / max 1 w.cog
    (taps rows fun h x => (List.range (g1 - g0 + 1)).map fun g => w.xOff f h x ((g0 + g) * w.cg), w.cg)
  | 1 =>
    let g := cvCo0 d / max 1 w.cog
    (((List.range (cvWk d)).map (cvP0 d + ·)).flatMap fun p => (List.range (cvM d)).flatMap fun m =>
      match w.tapK p (cvKr0 d + m) with
      | .elem h x => [w.xOff f h x (g * w.cg)]
      | _ => [], w.cg)
  | 2 => (taps rows fun h x => [w.xOff f h x (cvCo0 d)], cvN d)
  | 3 => (taps rows fun h x => [w.xOff f h x (cvCo0 d)], cvN d)
  | 6 =>
    (rows.flatMap fun p => (List.range (w.r * w.r)).map fun q =>
      let ow := w.inW / w.r
      w.xOff f (p / ow * w.r + q / w.r) (p % ow * w.r + q % w.r) 0, w.cin)
  | 7 =>
    (rows.map fun p =>
      let ow := w.inW * w.r
      let y := p / ow
      let x := p % ow
      w.xOff f (y / w.r) (x / w.r) ((y % w.r * w.r + x % w.r) * (w.cin / (w.r * w.r))), w.cin / (w.r * w.r))
  | _ => ([], cvN d)

/-- Output pixels whose tap lands on input pixel i, in rising order, with the tap (R169). -/
def Win.hits (w : Win) (i : Nat) : List (Nat × Nat) :=
  let h := i / w.inW
  let x := i % w.inW
  (List.range (w.kh * w.kw)).foldl (fun acc t =>
    let kh := t / w.kw
    let kw := t % w.kw
    let a : Int := (h + w.padT : Nat) - (kh * w.dh : Nat)
    let b : Int := (x + w.padL : Nat) - (kw * w.dw : Nat)
    if 0 ≤ a ∧ 0 ≤ b ∧ a.toNat % w.sh = 0 ∧ b.toNat % w.sw = 0 ∧ (a.toNat / w.sh : Int) < w.oh ∧ (b.toNat / w.sw : Int) < w.ow
    then sput acc (a.toNat / w.sh * w.owN + b.toNat / w.sw) t else acc) []

/-- Offsets of dY slices that the backward poolings read. -/
def cvBackOffs (d : Nat) (w : Win) (f : Fmt) : List Nat :=
  ((List.range (cvM d)).map (cvP0 d + ·)).flatMap fun i =>
    (w.hits i).map fun p => w.xOff f (p.1 / w.owN) (p.1 % w.owN) (cvCo0 d)

/-- Offsets of the weight rows a CONV reads: by output channel with TRANS_B, else by group and K. -/
def cvWOffs (d : Nat) (w : Win) : List Nat :=
  if cvTransB d then
    (List.range (cvN d)).map fun n =>
      let co := cvCo0 d + n
      co / max 1 w.cog * w.wGrp + co % max 1 w.cog * w.wRow
  else
    let g0 := cvCo0 d / max 1 w.cog
    let g1 := (cvCo0 d + cvN d - 1) / max 1 w.cog
    (List.range (g1 - g0 + 1)).flatMap fun g => (List.range w.kFwd).map fun k => (g0 + g) * w.wGrp + k * w.wRow

/-- Offsets of dY rows that WGRAD reads. -/
def cvDyOffs (d : Nat) (w : Win) (f : Fmt) : List Nat :=
  (List.range (cvWk d)).map fun p =>
    let q := cvP0 d + p
    q / w.owN * w.wRow + q % w.owN * w.wGrp + codeBytes f (cvCo0 d)

/-- The checks of R153, R156, R158, R161, R162, R165 and R171. -/
def cvReasons (d : Nat) (w : Win) : List Nat :=
  let op := cvOp d
  let pool := isPool op
  let copy := isCopy op
  let mat := decide (op ≤ 1)
  let st := cvOut d == 1
  let ch := if op = 0 ∨ op = 1 then w.cout else w.cin
  let bl := fun (f : Option Fmt) => match f with
    | some x => x.isBlock
    | none => false
  let strideBad := fun (f : Option Fmt) (l : List Nat) => match f with
    | some x => x.isBlock && l.any fun s => s % blkBytes x != 0
    | none => false
  let empty := !copy && (decide (w.oh ≤ 0) || decide (w.ow ≤ 0))
  let divides := w.cin % w.groups == 0 && w.cout % w.groups == 0
  rj (decide (8 ≤ op) || decide (2 ≤ cvOut d)) rjKindField ++
  rj (cvMap d && op != 0) rjKindField ++
  rj ((pool || copy) && (!st || cvAcc d)) rjKindField ++
  rj (op == 2 && cvSaveArg d && bl w.fmtY) rjKindField ++
  rj (copy && w.fmtX != w.fmtY) rjKindField ++
  rj ((pool || copy) && (w.idh != 1 || w.idw != 1)) rjKindField ++
  rj (mat && divides && (if cvMap d then cvCo0 d % w.cog != 0 || cvN d % w.cog != 0
      else cvCo0 d / w.cog != (cvCo0 d + cvN d - 1) / w.cog)) rjKindField ++
  rj (w.fmtX.isNone || (mat && w.fmtW.isNone) || ((st || copy) && w.fmtY.isNone)) rjFmtRsvd ++
  rj (st && !copy && cvRnd d == 3) rjRndRsvd ++
  rj (mat && !divides) rjShapeLimit ++
  rj (op == 0 && decide (65536 < w.kFwd)) rjShapeLimit ++
  rj (!empty && decide (w.outPix op < cvP0 d + (if op = 1 then cvWk d else cvM d))) rjShapeLimit ++
  rj (!copy && decide (ch < cvCo0 d + cvN d)) rjShapeLimit ++
  rj (op == 1 && decide (w.kFwd < cvKr0 d + cvM d)) rjShapeLimit ++
  rj (pool && decide (256 < w.kh * w.kw)) rjShapeLimit ++
  rj (!copy && !empty && decide (2 ^ 32 < w.oh.toNat * w.ow.toNat)) rjShapeLimit ++
  rj (op == 6 && (w.inH % w.r != 0 || w.inW % w.r != 0)) rjShapeLimit ++
  rj (op == 7 && w.cin % (w.r * w.r) != 0) rjShapeLimit ++
  rj empty rjShapeEmpty ++
  rj (strideBad w.fmtX [w.xPix, w.xRow] || strideBad (if st || copy then w.fmtY else none) (if op = 1 then [w.yRow] else [w.yPix, w.yRow]) ||
    (op == 0 && strideBad w.fmtW (if w.groups = 1 then [w.wRow] else [w.wRow, w.wGrp]))) rjBadLayout ++
  rj (fp6Bad w.fmtX w.cin || (op == 0 && fp6Bad w.fmtX w.cg) || ((st || copy) && fp6Bad w.fmtY (cvYLen d w)) ||
    (!mat && fp6Bad w.fmtX (cvCo0 d)) || ((st || copy) && op != 1 && fp6Bad w.fmtY (cvCo0 d))) rjBadLayout ++
  (match w.fmtX with
   | some f =>
     rj (op == 0 && f.isBlock && w.cg % f.block != 0) rjBadLayout ++
     rj (op == 1 && f.isBlock) rjBadLayout ++
     rj (pool && f.isBlock && (cvCo0 d % f.block != 0 || cvN d % f.block != 0)) rjBadLayout ++
     rj (copy && f.isBlock && (if op = 6 then w.cin else w.copyCh 7) % 32 != 0) rjBadLayout ++
     rj (!copy && f.isInt) rjFmtRole ++ rj (f == .t2) rjFmtRole ++
     rj (needsRec (some f) w.sclX (cvRec d 0) && !copy) rjFmtScale ++
     rj (op == 0 && !padFits f w.padVal) rjKindField
   | none => []) ++
  (match w.fmtW with
   | some f =>
     rj (op == 0 && f.isBlock && (!cvTransB d || w.kFwd % f.block != 0)) rjBadLayout ++
     rj (op == 1 && f.isBlock) rjBadLayout ++
     rj (mat && f.isInt) rjFmtRole ++
     rj (mat && w.fmtX.isSome && (w.fmtX == some .fp32) != (f == .fp32)) rjFmtRole ++
     rj (mat && needsRec (some f) w.sclW (cvRec d 1)) rjFmtScale
   | none => []) ++
  (match w.fmtY with
   | some f =>
     rj (st && !copy && f.isInt) rjFmtRole ++ rj ((st || copy) && f == .t2) rjFmtRole ++
     rj (st && !copy && f.isBlock && (cvN d % f.block != 0 || (op != 1 && cvCo0 d % f.block != 0))) rjBadLayout ++
     rj (st && !copy && needsRec (some f) w.sclY (cvRec d 2)) rjFmtScale
   | none => []) ++
  (match w.fmtX, w.fmtW with
   | some fx, some fw => rj (op == 0 && cvMap d && divides && decide (packFactor (kDepth fx fw) w.cog < cvN d / max 1 w.cog)) rjKindField
   | _, _ => [])

/-- Every region of tile SRAM an accepted CONV reads or writes, for the ADDR_RANGE check. -/
def cvRegions (d : Nat) (w : Win) : List (Nat × Nat) :=
  let op := cvOp d
  (match w.fmtX with
   | some f =>
     let (os, n) := if isPoolB op then (cvBackOffs d w f, cvN d) else cvXOffs d w f
     sliceRegions f (cvXBase d) (cvXAux d) n (uniq os)
   | none => []) ++
  (match w.fmtW with
   | some f =>
     if op = 0 then sliceRegions f (cvWBase d) (cvWAux d) (if cvTransB d then w.kFwd else w.cog) (uniq (cvWOffs d w))
     else if op = 1 then sliceRegions f (cvWBase d) (cvWAux d) (cvN d) (uniq (cvDyOffs d w f)) else []
   | none => []) ++
  (match w.fmtY with
   | some f => if cvOut d = 1 then sliceRegions f (cvYBase d) (cvAuxY d) (cvYLen d w) (cvYOffs d w f) else []
   | none => []) ++
  (if op = 2 ∧ cvSaveArg d = true then
    (List.range (cvM d)).map fun m => (cvAuxY d + (cvP0 d + m) * w.cin + cvCo0 d, cvN d) else []) ++
  (if op = 4 then
    ((List.range (cvM d)).flatMap fun m => (w.hits (cvP0 d + m)).map fun p => (cvAuxY d + p.1 * w.cin + cvCo0 d, cvN d)) else [])

/-- The window record a CONV names (R152). -/
def State.winRec (s : State) (c : DCtx) : Win := winOf (s.le (sramBase c.site + cvWrec c.d) 64)

/-- Tensor records a CONV reads (R97, R170). -/
def cvRecs (d : Nat) (w : Win) : List Nat :=
  let u := fun (f : Option Fmt) scl i => match f with
    | some x => if scaleApplies x scl then [cvRec d i] else []
    | none => []
  if isCopy (cvOp d) then []
  else u w.fmtX w.sclX 0 ++ (if cvOp d ≤ 1 then u w.fmtW w.sclW 1 else []) ++ [cvRec d 2]

def cvCheck (s : State) (c : DCtx) : Meaning :=
  let w := s.winRec c
  let r := cvReasons c.d w
  ⟨cvRecs c.d w, r ++ (if r = [] then rj ((cvRegions c.d w).any fun g => outside g.1 g.2) rjAddrRange else [])⟩

/-! ### Effects -/

/-- Reading the window record, the first read of every CONV (R152). -/
def cvRead0 (d : Nat) : Nat × Nat := (cvWrec d, 64)

/-- The drain of a CONV's rows with its merge (R79, R151, R166). -/
def cvStore (s : State) (c : DCtx) (w : Win) (rows : List (List Fp)) (elem : Nat → Nat → Nat) (sp : ConvEv) (e : Eff) : Eff :=
  let d := c.d
  match w.fmtY with
  | none => e
  | some f =>
    let offs := cvYOffs d w f
    let tensor := s.tensorId c.site (cvRec d 2)
    let sc := s.scaleFor c f w.sclY (cvRec d 2)
    let dr : Drain := ⟨f, cvRnd d, sc, s.srKey c 3 0 tensor, fun m => cvYBase d + offs.getD m 0,
      fun m => cvAuxY d + offs.getD m 0 / blkBytes f, elem⟩
    let (ws, ev) := drainRows (s.rd c.site) dr rows
    { e with
      writes := e.writes ++ ws, sat := ev.sat + sp.sat, ftz := ev.ftz + sp.ftz, nan := e.nan || ev.nan, inf := e.inf || ev.inf
      scaleNaN := e.scaleNaN || optNaN sc, merges := s.mergeOf c (cvRec d 2) ev }

/-- A product over the array with its drain, for OP = CONV and OP = WGRAD (R151, R165). -/
def cvProduct (s : State) (c : DCtx) (w : Win) (k : Nat) (prod : Nat → Nat → Nat → Fp) (elem : Nat → Nat → Nat)
    (rs : Option Fp) (e : Eff) : Eff :=
  let d := c.d
  let tensor := s.tensorId c.site (cvRec d 2)
  let outs := (List.range (cvM d)).map fun m => (List.range (cvN d)).map fun n =>
    accElem (prod m n) k (cvKchunk d) (fun j => s.spillRnd c tensor (elem m n) (cvChunk0 d) j)
      (s.bank0 c (cvAcc d) (cvBank d) m n)
  let sp := spillEv outs
  let e1 : Eff :=
    { e with
      writes := s.spillWrites c (cvBank d) outs, banks := bankWrites (cvBank d) outs, sat := sp.sat, ftz := sp.ftz
      nan := outs.any fun r => r.any fun o => o.acc.isNaN
      inf := outs.any fun r => r.any fun o => o.acc.isInf }
  if cvOut d = 1 then cvStore s c w (outs.map fun r => r.map fun o => applyRs rs o.acc) elem sp e1 else e1

/-- The value a tap presents to the array. -/
def Win.present (w : Win) (t : Tap) (x : Nat → Nat → Fp) : Fp :=
  match t with
  | .elem h v => x h v
  | .hole => Fp.zero
  | .pad => fp32 w.padVal

/-- OP = CONV (R151, R159, R161, R162). -/
def convEff (s : State) (c : DCtx) : Eff :=
  let d := c.d
  let w := s.winRec c
  match w.fmtX, w.fmtW with
  | some fx, some fw =>
    let rd := s.rd c.site
    let xs := slicesOf rd fx (cvXBase d) (cvXAux d) w.cg (cvXOffs d w fx).1
    let ws := slicesOf rd fw (cvWBase d) (cvWAux d) (if cvTransB d then w.kFwd else w.cog) (cvWOffs d w)
    let span := cvSpan d w fx fw
    let skips := if cvNoskip d then [] else
      skippedBlocks (cvM d) w.kFwd span fun m k => w.idle (w.tapK (cvP0 d + m) k)
    let prod := fun m n k =>
      if skips.contains (k / span) then Fp.zero
      else
        let co := cvCo0 d + n
        let g := co / w.cog
        let a := w.present (w.tapK (cvP0 d + m) k) fun h x => xs.get (w.xOff fx h x (g * w.cg)) (k % w.cg)
        let b := if cvTransB d then ws.get (g * w.wGrp + co % w.cog * w.wRow) k else ws.get (g * w.wGrp + k * w.wRow) (co % w.cog)
        arrayProd (fx == .fp32) a b
    let rsX := s.rscaleOf c fx w.sclX (cvRec d 0)
    let rsW := s.rscaleOf c fw w.sclW (cvRec d 1)
    cvProduct s c w w.kFwd prod (fun m n => cvOrigin d + (cvP0 d + m) * w.cout + (cvCo0 d + n)) (rscaleProd rsX rsW)
      { reads := cvRead0 d :: (xs.regs ++ ws.regs), esc := xs.ev.annex + ws.ev.annex, rsvd := xs.ev.rsvd || ws.ev.rsvd
        scaleNaN := xs.ev.scaleNaN || ws.ev.scaleNaN || optNaN rsX || optNaN rsW
        adds := [(R.TIL_WIN_SKIP, skips.length)]
        overrun := annexOver (cvXAux d) xs.used || annexOver (cvWAux d) ws.used }
  | _, _ => {}

/-- OP = WGRAD (R165). -/
def wgradEff (s : State) (c : DCtx) : Eff :=
  let d := c.d
  let w := s.winRec c
  match w.fmtX, w.fmtW with
  | some fx, some fw =>
    let rd := s.rd c.site
    let g := cvCo0 d / max 1 w.cog
    let xs := slicesOf rd fx (cvXBase d) (cvXAux d) w.cg (cvXOffs d w fx).1
    let ys := slicesOf rd fw (cvWBase d) (cvWAux d) (cvN d) (cvDyOffs d w fw)
    let span := kDepth fx fw
    let skips := if cvNoskip d then [] else
      skippedBlocks (cvM d) (cvWk d) span fun m k => w.idle (w.tapK (cvP0 d + k) (cvKr0 d + m))
    let prod := fun m n k =>
      if skips.contains (k / span) then Fp.zero
      else
        let q := cvP0 d + k
        let a := w.present (w.tapK q (cvKr0 d + m)) fun h x => xs.get (w.xOff fx h x (g * w.cg)) ((cvKr0 d + m) % w.cg)
        let b := ys.get (q / w.owN * w.wRow + q % w.owN * w.wGrp + codeBytes fw (cvCo0 d)) n
        arrayProd (fx == .fp32) a b
    let rsX := s.rscaleOf c fx w.sclX (cvRec d 0)
    let rsW := s.rscaleOf c fw w.sclW (cvRec d 1)
    cvProduct s c w (cvWk d) prod
      (fun m n => cvOrigin d + (cvKr0 d + m) * w.cog + (cvCo0 d - g * w.cog) + n) (rscaleProd rsX rsW)
      { reads := cvRead0 d :: (xs.regs ++ ys.regs), scaleNaN := optNaN rsX || optNaN rsW
        adds := [(R.TIL_WIN_SKIP, skips.length)] }
  | _, _ => {}

/-- The maximum of a window in forward order and the tap that gives it (R166, R167). -/
def maxTap : List Fp → Nat → Fp → Nat → Fp × Nat
  | [], _, best, arg => (best, arg)
  | v :: r, i, best, arg =>
    if best.isNaN then (best, arg)
    else if v.isNaN then (.nan, i)
    else
      let m := fpMax best v
      if m = best then maxTap r (i + 1) best arg
      else if best.eqv v && !(best.isZero && best.sign && !v.sign) then maxTap r (i + 1) best arg
      else maxTap r (i + 1) v i

/-- Values of a pooling window, its taps in forward order. -/
def poolVals (d : Nat) (w : Win) (fx : Fmt) (xs : Slices) (p n : Nat) : List (Tap × Fp) :=
  (List.range (w.kh * w.kw)).map fun t =>
    let tp := w.tap p (t / w.kw) (t % w.kw)
    (tp, w.present tp fun h x => xs.get (w.xOff fx h x (cvCo0 d)) n)

/-- A pooled region: bank elements, numeric flags and the drain. -/
def poolStore (s : State) (c : DCtx) (w : Win) (rows : List (List Fp)) (rs : Option Fp) (e : Eff) : Eff :=
  let d := c.d
  cvStore s c w (rows.map fun r => r.map (applyRs rs)) (fun m n => cvOrigin d + (cvP0 d + m) * w.cin + (cvCo0 d + n)) {}
    { e with
      banks := rows.zipIdx.flatMap fun (r, m) => r.zipIdx.map fun (v, n) => (cvBank d * 8192 + m * 128 + n, encodeFp fW36 v)
      nan := rows.any fun r => r.any Fp.isNaN, inf := rows.any fun r => r.any Fp.isInf }

/-- OP = MAXPOOL (R166, R167). -/
def maxpoolEff (s : State) (c : DCtx) : Eff :=
  let d := c.d
  let w := s.winRec c
  match w.fmtX with
  | some fx =>
    let xs := slicesOf (s.rd c.site) fx (cvXBase d) (cvXAux d) (cvN d) (cvXOffs d w fx).1
    let res : List (List (Fp × Nat × Tap)) := (List.range (cvM d)).map fun m => (List.range (cvN d)).map fun n =>
      let l := poolVals d w fx xs (cvP0 d + m) n
      match l with
      | [] => (Fp.zero, 0, Tap.pad)
      | (t0, v0) :: r =>
        let (v, i) := maxTap (r.map (·.2)) 1 v0 0
        (v, i, ((t0, v0) :: r).getD i (t0, v0) |>.1)
    let rs := s.rscaleOf c fx w.sclX (cvRec d 0)
    let padArg := cvSaveArg d && res.any fun r => r.any fun x : Fp × Nat × Tap => x.2.2 == .pad
    let e := poolStore s c w (res.map fun r => r.map (·.1)) rs
      { reads := cvRead0 d :: xs.regs, esc := xs.ev.annex, rsvd := xs.ev.rsvd, scaleNaN := xs.ev.scaleNaN || optNaN rs
        ors := if padArg then [(R.TIL_WIN_FLAGS, 1)] else [], overrun := annexOver (cvXAux d) xs.used }
    if cvSaveArg d then
      { e with writes := e.writes ++ res.zipIdx.map fun (r, m) =>
          (cvAuxY d + (cvP0 d + m) * w.cin + cvCo0 d, r.map fun x : Fp × Nat × Tap => x.2.1 % 256) }
    else e
  | none => {}

/-- Taps of output pixel p inside the input (R168). -/
def Win.inside (w : Win) (p : Nat) : Nat :=
  ((List.range (w.kh * w.kw)).filter fun t => match w.tap p (t / w.kw) (t % w.kw) with
    | .elem _ _ => true
    | _ => false).length

/-- n and q = rne_fp32(1 / n) of R168. -/
def Win.avgCount (w : Win) (p : Nat) : Nat := if w.avgExcl then w.inside p else w.kh * w.kw
def recipN (n : Nat) : Fp := f32Div Fp.one (Fp.ofNat n)

/-- OP = AVGPOOL (R168). -/
def avgpoolEff (s : State) (c : DCtx) : Eff :=
  let d := c.d
  let w := s.winRec c
  match w.fmtX with
  | some fx =>
    let xs := slicesOf (s.rd c.site) fx (cvXBase d) (cvXAux d) (cvN d) (cvXOffs d w fx).1
    let rows := (List.range (cvM d)).map fun m => (List.range (cvN d)).map fun n =>
      let p := cvP0 d + m
      let k := w.avgCount p
      if k = 0 then Fp.zero
      else w36Mul ((poolVals d w fx xs p n).foldl (fun a v => w36Add a v.2) Fp.zero) (recipN k)
    let empty := (List.range (cvM d)).any fun m => w.avgCount (cvP0 d + m) == 0
    let rs := s.rscaleOf c fx w.sclX (cvRec d 0)
    poolStore s c w rows rs
      { reads := cvRead0 d :: xs.regs, esc := xs.ev.annex, rsvd := xs.ev.rsvd, scaleNaN := xs.ev.scaleNaN || optNaN rs
        ors := if empty then [(R.TIL_WIN_FLAGS, 2)] else [], overrun := annexOver (cvXAux d) xs.used }
  | none => {}

/-- A pooling backward operation: what output pixel p adds to input pixel i through tap t (R169). -/
def poolBackEff (s : State) (c : DCtx) (add : Win → Slices → Nat → Nat → Nat → Option Fp) (planes : List (Nat × Nat)) : Eff :=
  let d := c.d
  let w := s.winRec c
  match w.fmtX with
  | some fx =>
    let ys := slicesOf (s.rd c.site) fx (cvXBase d) (cvXAux d) (cvN d) (cvBackOffs d w fx)
    let rows := (List.range (cvM d)).map fun m =>
      let hs := w.hits (cvP0 d + m)
      (List.range (cvN d)).map fun n => hs.foldl (fun a p => match add w ys p.1 p.2 n with
        | some v => w36Add a v
        | none => a) Fp.zero
    let rs := s.rscaleOf c fx w.sclX (cvRec d 0)
    poolStore s c w rows rs
      { reads := cvRead0 d :: (ys.regs ++ planes), esc := ys.ev.annex, rsvd := ys.ev.rsvd, scaleNaN := ys.ev.scaleNaN || optNaN rs
        overrun := annexOver (cvXAux d) ys.used }
  | none => {}

/-- dY(p, c) of the backward poolings. -/
def dyAt (d : Nat) (w : Win) (ys : Slices) (p n : Nat) : Fp :=
  match w.fmtX with
  | some f => ys.get (w.xOff f (p / w.owN) (p % w.owN) (cvCo0 d)) n
  | none => Fp.zero

/-- OP = MAXPOOL_B (R169). -/
def maxpoolBEff (s : State) (c : DCtx) : Eff :=
  let d := c.d
  poolBackEff s c (fun w ys p t n =>
    if s.rd c.site (cvAuxY d + p * w.cin + (cvCo0 d + n)) = t then some (dyAt d w ys p n) else none)
    ((cvRegions d (s.winRec c)).filter fun r => decide (cvAuxY d ≤ r.1) && r.2 == cvN d)

/-- OP = AVGPOOL_B (R169). -/
def avgpoolBEff (s : State) (c : DCtx) : Eff :=
  poolBackEff s c (fun w ys p _ n => some (w36Mul (dyAt c.d w ys p n) (recipN (w.avgCount p)))) []

/-- Bytes copied unchanged from an offset of X to an offset of Y, scales beside them (R170). -/
def copySlice (rd : Nat → Nat) (d : Nat) (f : Fmt) (n xo yo : Nat) : List (Nat × List Nat) :=
  let m := codeBytes f n
  (cvYBase d + yo, (List.range m).map fun i => rd (cvXBase d + xo + i)) ::
  (if f.hasScalePlane then
    [(cvAuxY d + yo / blkBytes f, (List.range (scaleBytes f n)).map fun i => rd (cvXAux d + xo / blkBytes f + i))] else [])

/-- OP = S2D (R170). -/
def s2dEff (s : State) (c : DCtx) : Eff :=
  let d := c.d
  let w := s.winRec c
  match w.fmtX with
  | some f =>
    let (xo, n) := cvXOffs d w f
    let ws := (List.range (cvM d)).flatMap fun m => (List.range (w.r * w.r)).flatMap fun q =>
      copySlice (s.rd c.site) d f n (xo.getD (m * (w.r * w.r) + q) 0) (w.yOff 6 (cvP0 d + m) (q * w.cin) f)
    { reads := cvRead0 d :: sliceRegions f (cvXBase d) (cvXAux d) n (uniq xo), writes := ws }
  | none => {}

/-- OP = D2S (R170). -/
def d2sEff (s : State) (c : DCtx) : Eff :=
  let d := c.d
  let w := s.winRec c
  match w.fmtX with
  | some f =>
    let (xo, n) := cvXOffs d w f
    let ws := (List.range (cvM d)).flatMap fun m =>
      copySlice (s.rd c.site) d f n (xo.getD m 0) (w.yOff 7 (cvP0 d + m) 0 f)
    { reads := cvRead0 d :: sliceRegions f (cvXBase d) (cvXAux d) n (uniq xo), writes := ws }
  | none => {}

/-! ### The commands -/

def isConvOp (op d : Nat) : Bool := dKind d == 2 && (cvOp d == op || (op == 0 && decide (8 ≤ cvOp d)))

/-- CONV (R151); a reserved OP meets its rejection here. -/
def execConv (tile pos : Nat) (s : State) : Host.Outcome State Fault Refusal :=
  .next (s.issueWith tile pos (isConvOp 0) cvCheck fun s c => s.runEff c (convEff s c))

/-- WGRAD (R165). -/
def execWgrad (tile pos : Nat) (s : State) : Host.Outcome State Fault Refusal :=
  .next (s.issueWith tile pos (isConvOp 1) cvCheck fun s c => s.runEff c (wgradEff s c))

/-- MAXPOOL (R166). -/
def execMaxpool (tile pos : Nat) (s : State) : Host.Outcome State Fault Refusal :=
  .next (s.issueWith tile pos (isConvOp 2) cvCheck fun s c => s.runEff c (maxpoolEff s c))

/-- AVGPOOL (R168). -/
def execAvgpool (tile pos : Nat) (s : State) : Host.Outcome State Fault Refusal :=
  .next (s.issueWith tile pos (isConvOp 3) cvCheck fun s c => s.runEff c (avgpoolEff s c))

/-- MAXPOOL_B (R169). -/
def execMaxpoolB (tile pos : Nat) (s : State) : Host.Outcome State Fault Refusal :=
  .next (s.issueWith tile pos (isConvOp 4) cvCheck fun s c => s.runEff c (maxpoolBEff s c))

/-- AVGPOOL_B (R169). -/
def execAvgpoolB (tile pos : Nat) (s : State) : Host.Outcome State Fault Refusal :=
  .next (s.issueWith tile pos (isConvOp 5) cvCheck fun s c => s.runEff c (avgpoolBEff s c))

/-- S2D (R170). -/
def execS2d (tile pos : Nat) (s : State) : Host.Outcome State Fault Refusal :=
  .next (s.issueWith tile pos (isConvOp 6) cvCheck fun s c => s.runEff c (s2dEff s c))

/-- D2S (R170). -/
def execD2s (tile pos : Nat) (s : State) : Host.Outcome State Fault Refusal :=
  .next (s.issueWith tile pos (isConvOp 7) cvCheck fun s c => s.runEff c (d2sEff s c))

end Sys2Proof.Machine
end

