-- ==== Sys2Proof/Machine/CqCmd.lean ====
section
/-! DEFINITION. Machine/CqCmd.lean: the command queues of hosts (R454 to R460): fetching, and the commands NOP, DESC, REGW, COPY,
WAIT and SIGNAL. -/
namespace Sys2Proof.Machine

/-! ### COPYs on their way (R458) -/

/-- What a part of a COPY is known by. -/
def copyOwner (q idx part : Nat) : Owner := ⟨0x1000 + q, 4 * idx + part, false⟩

/-- The transfers of a COPY. -/
def State.copyXfers (s : State) (q : Nat) (c : CqCmd) : List Xfer :=
  (List.range c.parts).filterMap fun k => s.xferOf (copyOwner q c.idx k)

/-- A COPY whose transfers have all ended completes: OK, or FAULT with the reason of the first fault. -/
def State.copySettle (s : State) (q : Nat) (c : CqCmd) : State :=
  let s1 := (s.copyXfers q c).foldl (fun a x => a.advance x.owner) s
  let xs := s1.copyXfers q c
  if xs.all s1.xEnded then
    let s2 := xs.foldl (fun a x => a.xFinish x.owner) s1
    let s3 := s2.modCq q fun t => { t with live := t.live.map fun y => if y.idx = c.idx then { y with done := true } else y }
    let code := (xs.find? (·.first)).bind (·.fault)
    match code with
    | some r => (s3.cqReport q c.idx c.hdr 3 r).cqHead q
    | none => (s3.cqReport q c.idx c.hdr 0 0).cqHead q
  else s1

/-- Every COPY of a queue that is on its way goes on as far as it can. -/
def State.copiesSettle (s : State) (q : Nat) : State :=
  if s.live then ((s.cq q).live.filter fun c => !c.done && decide (0 < c.parts)).foldl (fun a c => a.copySettle q c) s else s

/-! ### Fetching (R456) -/

/-- The queue's port and block work. -/
def State.cqPort (s : State) (q : Nat) : Option Nat :=
  match s.queuePort q with
  | some h => if decide (q < 64) && s.live && s.domOn 40 && s.cqEn q && s.blockRuns (pHPT h) then some h else none
  | none => none

/-- The port can read its host's memory now. -/
def State.portReads (s : State) (h : Nat) : Bool :=
  bit (s.reg (pHPT h) R.HPT_CTL) 0 && (s.port h).busMaster && s.linkUp h && !s.detached h

/-- The entry with a count, where the ring lies in the module's memory; `given` is what the host's memory held. None where the ring
cannot be read. -/
def State.ringEntry (s : State) (q h n given : Nat) : Option Nat :=
  let a := s.reg64 (pCQ q) R.HPT_CQ_BASE_LO + 64 * (n % 2 ^ s.cqLog q)
  if s.maps (s.portPart h) a 64 false = false ∨ s.targetOff a = true ∨ s.targetWaits a = true then none
  else
    match s.region a with
    | .host p off => if s.portReads p && (s.hostFault p off false).isNone then some (given % 2 ^ 512) else none
    | .near _ | .far _ | .sram _ _ | .queue _ _ =>
      if s.badAt (s.key (s.localAddr a)) 64 then none else some (s.devLe a 64)
    | _ => none

/-- The fetch of a range of counts, up to the first entry that cannot be read. -/
def State.fetchFrom (s : State) (q h : Nat) : Nat → List Nat → List Nat
  | _, [] => []
  | n, e :: r =>
    match s.ringEntry q h n e with
    | some v => v :: s.fetchFrom q h (n + 1) r
    | none => []

/-- CQ_FETCH (R456): up to 16 entries that TAIL covers; what follows a FLUSH completes at once (R460). -/
def execCqFetch (queue : Nat) (entries : List Nat) (s : State) : Host.Outcome State Fault Refusal :=
  .next (
    match s.cqPort queue with
    | none => s
    | some h =>
      let c := s.cq queue
      if (s.cqHalt queue && c.flushTo.isNone) = true ∨ s.cqTail queue ≤ c.fetch then s
      else
        let l := s.fetchFrom queue h c.fetch ((entries ++ List.replicate 16 0).take (min 16 (s.cqTail queue - c.fetch)))
        let a := s.reg64 (pCQ queue) R.HPT_CQ_BASE_LO + 64 * (c.fetch % 2 ^ s.cqLog queue)
        let s1 := match s.region a with
          | .host p _ => if l = [] then s else s.crsPlain (32 + p) 97 1
          | _ => if l = [] then s else s.farTouch 97 a (64 * l.length)
        let s2 := s1.modCq queue fun t => { t with fetch := t.fetch + l.length, buf := t.buf ++ l }
        s2.cqFlushRun queue (l.length + 2))

/-! ### Execution (R456, R459) -/

/-- The command at the front of a queue may run: its port, its entry. A halted queue runs only what is running (R460, R468); a
command with BARRIER waits for every earlier one. -/
def State.cqFront (s : State) (q : Nat) : Option (Nat × Nat) :=
  let c := s.cq q
  match s.cqPort q, c.buf with
  | some h, e :: _ =>
    if c.flushTo.isSome || (s.cqHalt q && c.since.isNone) || (bit e 10 && c.live.any fun x => !x.done) then none else some (h, e)
  | _, _ => none

/-- The command at the front runs, when it is of the kind that the event stands for; a port without a partition has all but NOP
denied. -/
def State.cqRun (s : State) (q : Nat) (mine : Nat → Bool) (f : Nat → Nat → State → State) : State :=
  let s1 := s.copiesSettle q
  match s1.cqFront q with
  | none => s1
  | some (h, e) =>
    if mine (ceOp e) = false then s1
    else if s1.portPart h ≥ 6 ∧ ceOp e ≠ 0 then
      let n := min (ceLen e) (s1.cqTail q - (s1.cq q).next)
      if (s1.cq q).buf.length < n then s1 else s1.cqFinish q n 2
    else f h e s1

/-- The command at the front has begun. -/
def State.cqBegin (s : State) (q : Nat) : State :=
  s.modCq q fun c => { c with since := some (c.since.getD s.mt) }

/-- NOP (R457); reserved operations complete with BAD_CMD. -/
def execCqNop (queue : Nat) (s : State) : Host.Outcome State Fault Refusal :=
  .next (s.cqRun queue (fun op => op == 0 || decide (6 ≤ op)) fun _ e t => t.cqFinish queue 1 (if ceOp e = 0 then 0 else 1))

def ceTile (e : Nat) : Nat := df e 8 10 0
def ceCtr (e : Nat) : Nat := df e 10 3 0

/-- Descriptors written into a tile's queue, in order, and its tail (R457). -/
def State.writeDescs (s : State) (tile : Nat) (l : List Nat) : State :=
  let site := s.siteOf tile
  let t := s.tail site
  let s1 := l.zipIdx.foldl (fun a p => a.store (sramBase site + 0x400000 + 64 * ((t + p.2) % 256)) (leBytes p.1 64)) s
  tilSeqTailWrite tile ((t + l.length) % 2 ^ 16) s1

/-- DESC: its descriptors are written once there is room. -/
def descRun (q h e : Nat) (s : State) : State :=
  let n := df e 10 7 0
  let c := s.cq q
  let have_ := s.cqTail q - c.next
  let tile := ceTile e
  if n = 0 then s.cqFinish q 1 1
  else if have_ < n + 1 then (if c.buf.length < have_ then s else s.cqFinish q have_ 1)
  else if c.buf.length < n + 1 then s
  else if isTile tile = false ∨ s.tilePart tile ≠ s.portPart h ∨ (s.portRefusal h tile R.TIL_SEQ_TAIL true).isSome = true then
    s.cqFinish q (n + 1) 2
  else
    let site := s.siteOf tile
    if s.siteOn site = false then s.cqFinish q (n + 1) 3 0x11
    else if s.targetWaits (0x040000000000 + tile * 0x800000) = true ∨
        256 < (s.tail site + 2 ^ 16 - s.head site) % 2 ^ 16 + n then s.cqBegin q
    else (s.writeDescs tile ((c.buf.drop 1).take n)).cqFinish q (n + 1) 0

/-- DESC (R457). -/
def execDesc (queue : Nat) (s : State) : Host.Outcome State Fault Refusal :=
  .next (s.cqRun queue (· == 1) (descRun queue))

/-- REGW: the write is made as the port's own through BAR0; one that would be refused is denied. -/
def regwRun (q h e : Nat) (s : State) : State :=
  let page := df e 8 13 0
  let off := 4 * df e 10 9 0
  match s.judge (.port h) page off true with
  | .denied _ _ => s.cqFinish q 1 2
  | _ => (s.wordWrite (.port h) page off (df e 12 31 0)).cqFinish q 1 0

/-- REGW (R457). -/
def execRegw (queue : Nat) (s : State) : Host.Outcome State Fault Refusal :=
  .next (s.cqRun queue (· == 2) (regwRun queue))

/-- The MOVs of a COPY (R458). -/
def copyMovs (src dst n budget : Nat) : List Nat :=
  if n ≤ 16777215 then [copyMov src dst n 1 0 budget]
  else
    let r := n / 8388608
    let m := copyMov src dst 8388608 r 8388608 budget
    if n % 8388608 = 0 then [m]
    else [m, copyMov (wrapInt (src + 8388608 * r : Nat) 64) (wrapInt (dst + 8388608 * r : Nat) 64) (n % 8388608) 1 0 budget]

/-- A COPY's MOVs handed to courier engines of a district; none while no engine takes work. -/
def State.handCopies (s : State) (q idx district part : Nat) (ms : List Nat) : Option State :=
  ms.zipIdx.foldl (fun (a : Option State) m =>
    match a with
    | none => none
    | some t =>
      match t.pickEngine district with
      | none => none
      | some (e, u) =>
        some ((u.newXfer { owner := copyOwner q idx m.2, tile := district * 256, d := m.1, part := part, engine := e, issued := s.mt }).advance
          (copyOwner q idx m.2))) (some s)

/-- COPY: checked, divided and handed over; it completes later. -/
def copyRun (q h e : Nat) (s : State) : State :=
  let n := df e 24 63 0
  let p := s.portPart h
  let ms := copyMovs (df e 8 63 0) (df e 16 63 0) n (df e 32 15 0)
  if n = 0 ∨ 2 ^ 32 < n then s.cqFinish q 1 1
  else if ms.all (s.movSidesOk p) = false then s.cqFinish q 1 2
  else
    match s.handCopies q (s.cq q).next (((List.range 6).find? fun d => s.partOf d == p).getD 0) p ms with
    | none => s
    | some t => (t.cqTake q 1 false ms.length).copiesSettle q

/-- COPY (R457, R458): the COPYs on their way go on; the one at the front begins. -/
def execCopy (queue : Nat) (s : State) : Host.Outcome State Fault Refusal :=
  .next (s.cqRun queue (· == 3) (copyRun queue))

/-- The status of a command that names a counter, where it cannot run (R459, R569, R489). -/
def State.counterStatus (s : State) (h tile : Nat) : Option (Nat × Nat) :=
  if isTarget tile = false then some (1, 0)
  else if (if tile = 0x700 then s.pagePart pSTP != s.portPart h else s.tilePart tile != s.portPart h) then some (2, 0)
  else if s.pageOn (if tile = 0x700 then pSTP else tile) = false then some (3, 0x11)
  else none

/-- WAIT: it completes when the wait of R90 is met. -/
def waitRun (q h e : Nat) (s : State) : State :=
  match s.counterStatus h (ceTile e) with
  | some (st, i) => s.cqFinish q 1 st i
  | none => if waitMet (s.ctr (ceTile e) (ceCtr e)) (df e 12 15 0) then s.cqFinish q 1 0 else s.cqBegin q

/-- WAIT (R457). -/
def execWait (queue : Nat) (s : State) : Host.Outcome State Fault Refusal :=
  .next (s.cqRun queue (· == 4) (waitRun queue))

/-- A WAIT passes its TIMEOUT. -/
def waitExpire (q _h e : Nat) (s : State) : State :=
  let us := df e 14 15 0
  match (s.cq q).since with
  | some t =>
    if us ≠ 0 ∧ t + us * 1000 ≤ s.mt ∧ waitMet (s.ctr (ceTile e) (ceCtr e)) (df e 12 15 0) = false then s.cqFinish q 1 4 else s
  | none => s

/-- WAIT_TIMEOUT (R457). -/
def execWaitTimeout (queue : Nat) (s : State) : Host.Outcome State Fault Refusal :=
  .next (s.cqRun queue (· == 4) (waitExpire queue))

/-- SIGNAL: INC is added to the counter. -/
def signalRun (q h e : Nat) (s : State) : State :=
  match s.counterStatus h (ceTile e) with
  | some (st, i) => s.cqFinish q 1 st i
  | none => (s.addCtr (ceTile e) (ceCtr e) (df e 12 15 0)).cqFinish q 1 0

/-- CQ_SIGNAL (R457). -/
def execCqSignal (queue : Nat) (s : State) : Host.Outcome State Fault Refusal :=
  .next (s.cqRun queue (· == 5) (signalRun queue))

end Sys2Proof.Machine
end

