-- ==== Sys2Proof/Machine/Remote.lean ====
section
/-! DEFINITION. Machine/Remote.lean: packets of the routed channels (R383, R388 to R390, R403): forwarding, remote writes and
reads and their answers, SIGNAL, BULK, reply time limits; and RING_SEND on both its modules (R212). -/
namespace Sys2Proof.Machine

/-- A packet for this module has arrived at a gate that works. -/
def State.arrivedHere (s : State) (p : Packet) : Bool := s.gateRuns p.gate && p.dst == s.moduleId

/-- An answer to a packet leaves for its source. -/
def State.answerTo (s : State) (p : Packet) (b : Body) : State := s.routeOut (s.mkPacket p.src p.flow b)

/-! ### Forwarding (R388) -/

/-- A packet for another module has a link to leave by, or is to be discarded. -/
def State.canForward (s : State) (p : Packet) : Bool :=
  let e := s.routeOf p.dst
  !bit e 3 || p.ttl == 0 || s.activeIn (bits e 2 0) (bits e 15 4) != []

/-- PACKET_FORWARD (R388): the packet waits while no link that its entry names is ACTIVE. -/
def execPacketForward (pkt : Packet) (s : State) : Host.Outcome State Fault Refusal :=
  .next (if s.gateRuns pkt.gate = false ∨ pkt.dst = s.moduleId ∨ vcRouted pkt.body.vc = false ∨ s.canForward pkt = false then s
    else (s.consumed pkt).forward pkt)

/-! ### Accesses of other modules (R305, R390) -/

/-- The destination performs an access: near or far memory of the partition that owns GAT_ instance 8, not the service reserve, and
powered. -/
def State.remoteOk (s : State) (a n : Nat) (wr : Bool) : Bool :=
  isNearFar a && s.maps (s.pagePart pGATS) a n wr && (s.firstOff a n).isNone

/-- Bytes of another module written to memory. -/
def State.remoteStore (s : State) (gate a : Nat) (l : List Nat) (poisoned : Bool) : State :=
  let s1 := s.devWrite a l
  let s2 := if poisoned then (touchedLines a l.length).foldl (fun x y => x.poisonLine y) s1 else s1
  s2.farTouch (99 + gate) a l.length

/-- A remote write is performed and acknowledged, or refused; while its memory is being initialised it waits. -/
def State.serveWrite (s : State) (p : Packet) (a : Nat) (l : List Nat) (poisoned : Bool) (req : Nat) : State :=
  if s.remoteOk a l.length true = false then (s.consumed p).answerTo p (.ack req false)
  else if s.rangeWaits a l.length then s
  else (((s.consumed p).remoteStore p.gate a l poisoned).answerTo p (.ack req true))

/-- WRITE (R390). -/
def execLinkWrite (pkt : Packet) (s : State) : Host.Outcome State Fault Refusal :=
  .next (match pkt.body with
    | .write a l poisoned req => if s.arrivedHere pkt then s.serveWrite pkt a l poisoned req else s
    | _ => s)

/-- READ_REQ (R390). Poison met by the read travels with the answer (R314). -/
def execReadReq (pkt : Packet) (s : State) : Host.Outcome State Fault Refusal :=
  .next (match pkt.body with
    | .readReq a n req =>
      if s.arrivedHere pkt = false then s
      else if s.remoteOk a n false = false ∨ 4096 < n then (s.consumed pkt).answerTo pkt (.readRsp req false false [])
      else if s.rangeWaits a n then s
      else
        let (s1, l, bad) := (s.consumed pkt).devRead a n 0xFFFF
        (s1.farTouch (99 + pkt.gate) a n).answerTo pkt (.readRsp req true bad.isSome l)
    | _ => s)

/-- An outstanding request to another module. -/
def State.modReq (s : State) (req : Nat) (write : Bool) : Option OutReq :=
  (s.reqOf req).filter fun r => r.port.isNone && r.write == write

/-- READ_RSP (R390). -/
def execReadRsp (pkt : Packet) (s : State) : Host.Outcome State Fault Refusal :=
  .next (match pkt.body with
    | .readRsp req ok poisoned l =>
      if s.arrivedHere pkt = false then s
      else
        let s1 := s.consumed pkt
        match s1.modReq req false with
        | none => s1
        | some r =>
          match r.owner with
          | .xfer o =>
            if ok = false then ((s1.dropReq req).xFault o 0x0D r.addr).advance o
            else if l.length < r.len then s1
            else s1.answered r (l.take r.len) (if poisoned then 0 else r.len) (if poisoned then some r.addr else none)
          | _ => s1.dropReq req
    | _ => s)

/-! ### RING_SEND (R212) -/

/-- What a sender is told: the command may complete, or it fails. -/
def State.ringAck (s : State) (req : Nat) (ok : Bool) : State :=
  if (s.reqOf req).isNone then s
  else if ok then { s with reqs := s.reqs.map fun r => if r.id = req then { r with write := false } else r }
  else
    match s.kvCommand with
    | some k => (s.dropReqs .ring).kvFinish k false
    | none => s.dropReqs .ring

/-- The receiver's answer, at once when the sender is this module. -/
def State.ringAnswer (s : State) (src req : Nat) (ok : Bool) : State :=
  if src = s.moduleId then s.ringAck req ok else s.routeOut (s.mkPacket src 97 (.ack req ok))

def State.ringGeo (s : State) (c : Nat) : RingGeo := ⟨s.cx c 2 1 % 32, s.cx c 3 1 % 32, s.cx c 4 1 % 4, s.cxTracks c⟩

/-- A valid, empty guest context of matching geometry. -/
def State.ringFits (s : State) (c : Nat) (g : RingGeo) : Bool :=
  s.cxValid c && bit (s.cx c 0 1) 1 && s.ringGeo c == g && (s.cxTp c).isSome && s.cxLen c == 0 &&
  (s.trackPages c (List.range (s.cxStride c))).all fun p => !entryHas (s.entry c p.1 p.2)

def State.ringOf (s : State) (src req : Nat) : Option RingRx := s.rings.find? fun r => r.src == src && r.req == req
def State.setRing (s : State) (r : RingRx) : State :=
  { s with rings := s.rings.map fun x => if x.src == r.src && x.req == r.req then r else x }
def State.dropRing (s : State) (src req : Nat) : State :=
  { s with rings := s.rings.filter fun r => !(r.src == src && r.req == req)
           kvWaiters := s.kvWaiters.filter fun w => match w with
             | .ring _ _ a b _ => !(a == src && b == req)
             | _ => true }

/-- Pages written for a command that comes to nothing return to their pool. -/
def State.ringFree (s : State) (r : RingRx) : State :=
  r.pages.foldl (fun a p => a.dropRef (a.cxPool r.ctx) p.2.2) s

/-- A RING_SEND fails at its receiver. -/
def State.ringFail (s : State) (r : RingRx) : State :=
  let s1 := (s.ringFree r).dropRing r.src r.req
  let f : RingRx := { src := r.src, req := r.req, ctx := r.ctx, failed := true }
  ({ s1 with rings := s1.rings ++ [f] }).ringAnswer r.src r.req false

/-- The record of a RING_SEND that arrives; a new one takes the place of an unfinished one for the same context. -/
def State.ringBegin (s : State) (src req ctx : Nat) (g : RingGeo) : State :=
  if (s.ringOf src req).isSome then s
  else
    let s1 := (s.rings.filter fun r => r.ctx == ctx).foldl (fun a r => (a.ringFree r).dropRing r.src r.req) s
    let r : RingRx := { src := src, req := req, ctx := ctx }
    let s2 := { s1 with rings := s1.rings ++ [r] }
    if s2.ringFits ctx g then s2 else s2.ringFail r

/-- Every page is present (R212): entries, LEN and positions are set, RSIG goes out, the sender is told. -/
def State.ringCheck (s : State) (src req : Nat) : State :=
  match s.ringOf src req with
  | none => s
  | some r =>
    match r.fin with
    | some (.bulkEnd _ _ _ _ len pb ps pb2 rsig chunks _) =>
      if r.got ≠ chunks then s
      else
        let s1 := r.pages.foldl (fun a p => a.setEntry r.ctx p.1 p.2.1 p.2.2) s
        let s2 := ((((s1.setLen r.ctx len).setCx r.ctx 0x28 4 pb).setCx r.ctx 0x2C 4 ps).setCx r.ctx 0x30 4 pb2).dropRing src req
        let s3 := match rsig with
          | some (t, c) => s2.blockSignal (s2.pagePart pKVS) pKVS t c 1
          | none => s2
        s3.ringAnswer src req true
    | _ => s

/-- The arriving page waits for a page of the pool (R186), or fails at once where no wait is set. -/
def State.ringWait (s : State) (r : RingRx) : State × Bool :=
  let n := s.cxPool r.ctx
  if s.kvReg R.KVS_ALLOC_WAIT % 2 ^ 16 = 0 then ((s.raise pKVS 4 n r.ctx).ringFail r, true)
  else if s.kvWaiters.any fun w => match w with
    | .ring _ _ a b _ => a == r.src && b == r.req
    | _ => false
  then (s, false)
  else ({ s with kvWaiters := s.kvWaiters ++ [.ring n r.ctx r.src r.req s.mt] }, false)

/-- Bytes of a page written. -/
def State.ringWrite (s : State) (r : RingRx) (p off : Nat) (l : List Nat) : State :=
  let a := s.pageAddr (s.cxPool r.ctx) p + off
  ((s.devWrite a l).farTouch 97 a l.length).setRing { r with got := r.got + 1 }

/-- A message of a RING_SEND is taken at its receiver: the state after, and whether it was taken. -/
def State.ringTake (s : State) (src : Nat) (b : Body) : State × Bool :=
  if s.kvsRuns = false then (s, false)
  else
    match b with
    | .bulkPage c g t j off l req =>
      let ctx := c % 16384
      let s1 := s.ringBegin src req ctx g
      (match s1.ringOf src req with
       | none => (s1, true)
       | some r =>
         if r.failed then (s1, true)
         else
           match r.pages.find? fun p => p.1 == t && p.2.1 == j with
           | some p => ((s1.ringWrite r p.2.2 off l).ringCheck src req, true)
           | none =>
             let n := s1.cxPool ctx
             if s1.cxTracks ctx ≤ t ∨ s1.cxStride ctx ≤ j then (s1.ringFail r, true)
             else if (s1.poolReady n && s1.mayTake n 1) = false then s1.ringWait r
             else
               match s1.allocPage n with
               | none => s1.ringWait r
               | some (s2, p) =>
                 let r1 := { r with pages := r.pages ++ [(t, (j, p))] }
                 ((s2.ringWrite r1 p off l).ringCheck src req, true))
    | .bulkEnd c g _ _ _ _ _ _ _ _ req =>
      let s1 := s.ringBegin src req (c % 16384) g
      (match s1.ringOf src req with
       | none => (s1, true)
       | some r =>
         if r.failed then (s1.dropRing src req, true)
         else ((s1.setRing { r with fin := some b }).ringCheck src req, true))
    | _ => (s, true)

/-- A message of a RING_SEND leaves; one to this module itself is taken at once (R388). -/
def State.ringPost (s : State) (m : Nat) (b : Body) : State :=
  if m = s.moduleId then (s.ringTake m b).1 else s.routeOut (s.mkPacket m 97 b)

/-- The pages that a RING_SEND copies: track, logical page, device address. -/
def State.ringPages (s : State) (k : Nat) : List (Nat × (Nat × Nat)) :=
  let a := kcCtx k
  (s.trackPages a ((List.range (kcNpg k)).map (kcPg0 k + ·))).filterMap fun p =>
    let e := s.entry a p.1 p.2
    if entryHas e then some (p.1, (p.2, s.pageAddr (s.cxPool a) (entryPage e))) else none

/-- A request that waited too long for pages fails (R186). -/
def State.allocFailed (s : State) (w : KvWaiter) : State :=
  match w with
  | .command pool _ =>
    (match s.kvCommand with
     | some k => (s.raise pKVS 4 pool 0x3FFF).kvFinish k false
     | none => s)
  | .walk o pool ctx _ =>
    match s.xferOf o with
    | some x => ((s.xGotPage o).raise pKVS 4 pool ctx).xWalkFault o 0x05 (mvTok x.d + x.row)
    | none => s.xGotPage o
  | .ring pool ctx src req _ =>
    match s.ringOf src req with
    | some r => (s.raise pKVS 4 pool ctx).ringFail r
    | none => s.dropRing src req

/-- ALLOC_WAIT_EXPIRE (R186): a request has waited KVS_ALLOC_WAIT microseconds for pages. -/
def execAllocWaitExpire (waiter : Nat) (s : State) : Host.Outcome State Fault Refusal :=
  .next (
    match s.kvWaiters[waiter]? with
    | none => s
    | some w =>
      if s.blockRuns pKVS = false ∨ s.mt < w.since + s.kvReg R.KVS_ALLOC_WAIT % 2 ^ 16 * 1000 then s
      else
        s.allocFailed w)

/-- The pages of a RING_SEND leave for the receiver, and after them the record that ends them (R212). -/
def ringGo (k : Nat) (ps : List (Nat × (Nat × Nat))) (s1 : State) : State :=
  let a := kcCtx k
  let req := s1.nextReq
  let g := s1.ringGeo a
  let m := kcModule k
  let s2 := s1.addReq ⟨0, .ring, none, 0, true, 0, 0, 0⟩
  let s3 := ps.foldl (fun t p => (List.range 16).foldl (fun u i =>
    u.ringPost m (.bulkPage (kcCtx2 k) g p.1 p.2.1 (4096 * i) (s1.bytes (s1.key (s1.localAddr p.2.2) + 4096 * i) 4096) req)) t) s2
  let rs := if bit (df k 1 7 0) 1 then some (df k 18 10 0, df k 18 14 11) else none
  s3.ringPost m (.bulkEnd (kcCtx2 k) g (kcPg0 k) (kcNpg k) (s1.cxLen a) (s1.cx a 0x28 4) (s1.cx a 0x2C 4) (s1.cx a 0x30 4)
    rs (16 * ps.length) req)

/-- The pages of a RING_SEND are read until one is bad (R212, R314). -/
def State.ringRead (s : State) (ps : List (Nat × (Nat × Nat))) : State × Bool :=
  ps.foldl (fun (x : State × Bool) p =>
    if x.2 then x else
      let (t, b) := x.1.readLines 0xFFFF false (lineAddrs p.2.2 65536)
      (t.farTouch 97 p.2.2 65536, b.isSome)) (s, false)

/-- RING_SEND at its sender: its pages leave, each in sixteen packets, and then the message that ends it. A page that cannot be
read fails the command. -/
def ringStart (k : Nat) (s : State) : State :=
  let a := kcCtx k
  if s.hasReqs .ring then s
  else if s.cxValid a = false ∨ (s.cxTp a).isNone = true ∨ s.cxStride a < kcPg0 k + kcNpg k then s.kvFinish k false
  else
    let ps := s.ringPages k
    if ps.any fun p => s.rangeWaits p.2.2 65536 then s
    else
      let (s1, bad) := s.ringRead ps
      if bad || ps.any (fun p => (s.firstOff p.2.2 65536).isSome) then s1.kvFinish k false
      else
        ringGo k ps s1

/-- RING_SEND (R212). -/
def execRingSend (s : State) : Host.Outcome State Fault Refusal := .next (s.kvRun 6 ringStart)

/-- RING_SEND_COMPLETE (R212): the receiver has reported every page present. -/
def execRingSendComplete (s : State) : Host.Outcome State Fault Refusal :=
  .next (s.kvRun 6 fun k t =>
    if t.reqs.any fun r => r.owner == .ring && !r.write then (t.dropReqs .ring).kvFinish k true else t)

/-- BULK (R212, R383, R421): a checkpoint write of another module, or a message of a RING_SEND. -/
def execBulk (pkt : Packet) (s : State) : Host.Outcome State Fault Refusal :=
  .next (
    if s.arrivedHere pkt = false ∨ pkt.body.vc ≠ 6 then s
    else
      match pkt.body with
      | .bulkWrite a l req => s.serveWrite pkt a l false req
      | b => match s.ringTake pkt.src b with
        | (t, true) => t.consumed pkt
        | (t, false) => t)

/-! ### Acknowledgements, signals and time limits (R389, R390) -/

/-- What a request's failure means to what made it. -/
def State.reqFailed (s : State) (r : OutReq) (code : Nat) : State :=
  match r.owner with
  | .xfer o => ((s.dropReq r.id).xFault o code r.addr).advance o
  | .buddy => s.buddyFail ckWrite
  | .ring => s.ringAck r.id false

/-- ACK (R390). -/
def execAck (pkt : Packet) (s : State) : Host.Outcome State Fault Refusal :=
  .next (match pkt.body with
    | .ack req ok =>
      if s.arrivedHere pkt = false then s
      else
        let s1 := s.consumed pkt
        match s1.modReq req true with
        | none => s1
        | some r =>
          if ok = false then s1.reqFailed r 0x0D
          else
            match r.owner with
            | .xfer o => (s1.dropReq req).advance o
            | .buddy => s1.dropReq req
            | .ring => s1.ringAck req true
    | _ => s)

/-- REMOTE_SIGNAL (R389): the counter of the destination module named by a SIGNAL packet is increased. -/
def execRemoteSignal (pkt : Packet) (s : State) : Host.Outcome State Fault Refusal :=
  .next (match pkt.body with
    | .signal t c inc =>
      if s.arrivedHere pkt then
        let s1 := s.consumed pkt
        let part := s1.pagePart pGATS
        if isTarget t && (if t = 0x700 then s1.pagePart pSTP == part else s1.partOf (t / 256) == part) then s1.addCtr t c inc else s1
      else s
    | _ => s)

/-- ACK_TIMEOUT (R390): an answer of another module has not returned within GAT_ACK_TIMEOUT. -/
def execAckTimeout (req : Nat) (s : State) : Host.Outcome State Fault Refusal :=
  .next (
    let us := s.reg pGATS R.GAT_ACK_TIMEOUT % 2 ^ 16
    match s.reqOf req with
    | none => s
    | some r =>
      if s.live = false ∨ r.port.isSome = true ∨ us = 0 ∨ s.mt < r.since + us * 1000 ∨ (r.owner = .ring ∧ r.write = false) then s
      else s.reqFailed r 0x0C)

end Sys2Proof.Machine
end

