-- ==== Sys2Proof/Machine/Retire.lean ====
section
/-! DEFINITION. Machine/Retire.lean: how descriptors retire (R54, R89, R92, R100, R101, R104, R127, R240, R570), how deferred ones
are parked and issue (R215 to R218), and the watchdog of a crossing's grants (R326, R344). -/
namespace Sys2Proof.Machine

/-! ### Retirement -/

def Run.owner (r : Run) (site : Nat) : Owner := ⟨site, r.pos, r.parked⟩

/-- The running descriptor with a queue count, one of the window before one from the deferred queue. -/
def State.retiring (s : State) (site pos : Nat) : Option Run :=
  match s.runOf site pos with
  | some r => some r
  | none => (s.tile site).running.find? fun r => r.pos == pos

/-- What the descriptor does is over: its writes are visible (R89), or it has stopped (R92); a FENCE and a DRAIN end with the
descriptors they wait for (R104). -/
def State.runOver (s : State) (site : Nat) (r : Run) : Bool :=
  if isMovKind r.desc then
    match s.xferOf (r.owner site) with
    | some x => s.xEnded x
    | none => true
  else
    match r.st with
    | .done => !r.merges.any fun m => s.targetWaits m.addr
    | .flushed => true
    | .faulted _ => true
    | .yielded => false
    | .working =>
      dKind r.desc == 7 && (s.earlier site r.pos).isEmpty &&
      (snOp r.desc == 0 || (snOp r.desc == 3 && (s.tile site).parked.isEmpty && (s.parkedRuns site).isEmpty))

/-- The sequencer halted while this descriptor was running. -/
def State.runHalted (s : State) (site : Nat) (r : Run) : Bool :=
  match (s.tile site).halted with
  | some h => h.running && h.pos == r.pos && h.parked == r.parked
  | none => false

/-- The packed count of a VCH (R127). -/
def State.writePacked (s : State) (site : Nat) (p : Option (Nat × Nat)) : State :=
  match p with
  | none => s
  | some (n, v) =>
    (s.setReg site R.TIL_VEC_PACKCNT n).modTile site fun t =>
      { t with vregs := (List.range 128).foldl (fun m i => sset 0 m (v * 128 + i) (n % 2 ^ 32)) t.vregs }

/-- A stash entry has been read by a MOV that retires (R240); one whose record cannot be reached squashes the step (R572). -/
def State.stashReadOf (s : State) (e par : Nat) : State :=
  if s.ctlBad (s.stashAddr e) 64 then (s.ctlPoison (s.stashAddr e) 64).cause vbStepErr else s.stashRead e par

/-- What a MOV that completes does as it retires: the context's length (R182) and the entries it read (R240). -/
def State.movComplete (s : State) (d : Nat) : State :=
  let s1 := if mvPagedDst d then s.setLen (mvCtx d) (max (s.cxLen (mvCtx d)) (mvTok d + mvRows d)) else s
  (s.stashSources d).foldl (fun a e => a.stashReadOf e (dTag d % 2)) s1

/-- What a descriptor owes as it retires, by how it ended. -/
def State.retireOwed (s : State) (tile site : Nat) (r : Run) : State :=
  match r.st with
  | .flushed => s
  | .faulted _ =>
    if isMovKind r.desc then
      (if mvRsigEn r.desc then s.send tile (mvRsigTile r.desc) (mvRsigCtr r.desc) 1 else s)
    else if dKind r.desc == 8 && updStage r.desc && dTag r.desc == s.nextStep then s.modStep fun x => { x with stagedFault := true }
    else s
  | _ =>
    if isMovKind r.desc then
      let s1 := s.movComplete r.desc
      if mvRsigEn r.desc then s1.send tile (mvRsigTile r.desc) (mvRsigCtr r.desc) 1 else s1
    else
      let s1 := (s.mergeAll tile r.desc r.merges).writePacked site r.packed
      if dKind r.desc = 8 then s1.updRetire r.desc else s1

/-- A running descriptor retires. -/
def State.retireRun (s : State) (tile site : Nat) (r : Run) : State :=
  let s1 := s.retireOwed tile site r
  let s2 := if isMovKind r.desc then s1.xFinish (r.owner site) else s1
  let s3 := s2.modTile site fun t => { t with running := t.running.filter fun x => !(x.pos == r.pos && x.parked == r.parked) }
  let s4 := s3.retireSignals tile site r.desc
  if r.parked then s4 else s4.passHead site r.pos

/-- A MOV goes on, or, once a flush has stopped it, lets go of what it waits for. -/
def State.settleMov (s : State) (site : Nat) (r : Run) : State :=
  if isMovKind r.desc = false then s
  else if r.st = .flushed then s.xStop (r.owner site)
  else s.advance (r.owner site)

/-- A descriptor retires if it is over. -/
def State.retireAt (s : State) (tile pos : Nat) : State :=
  let site := s.siteOf tile
  match s.retiring site pos with
  | none => s
  | some r0 =>
    let s1 := s.settleMov site r0
    match s1.retiring site pos with
    | none => s1
    | some r => if s1.runOver site r = true ∧ s1.runHalted site r = false then s1.retireRun tile site r else s1

/-- DESCRIPTOR_RETIRE (R89). -/
def execDescriptorRetire (tile pos : Nat) (s : State) : Host.Outcome State Fault Refusal :=
  .next (
    let site := s.siteOf tile
    if isTile tile = false ∨ (s.live && s.siteOn site && s.clocked site) = false ∨ s.frozen site = true then s
    else s.retireAt tile pos)

/-! ### Deferred descriptors (R215 to R218) -/

/-- The checks of a kind that may be deferred. -/
def State.parkMeaning (s : State) (c : DCtx) : Meaning :=
  match dKind c.d with
  | 1 => mmaCheck s c
  | 2 => cvCheck s c
  | 3 => vchCheck s c
  | _ => s.movCheck c

/-- The effect of a CONV, by its operation. -/
def convOf (s : State) (c : DCtx) : Eff :=
  match cvOp c.d with
  | 1 => wgradEff s c
  | 2 => maxpoolEff s c
  | 3 => avgpoolEff s c
  | 4 => maxpoolBEff s c
  | 5 => avgpoolBEff s c
  | 6 => s2dEff s c
  | 7 => d2sEff s c
  | _ => convEff s c

/-- A deferred descriptor runs. -/
def State.parkedStart (s : State) (c : DCtx) : State :=
  match dKind c.d with
  | 1 => mmaRun s c
  | 2 => s.runEff c (convOf s c)
  | 3 => vchRun s c
  | _ => s.movRun c

/-- A descriptor joins the deferred queue and counts as retired for the head (R216). -/
def State.parkNow (s : State) (c : DCtx) : State :=
  (s.modTile c.site fun t => { t with
    parked := t.parked ++ [⟨c.pos, c.d, c.stamp⟩]
    rndLoose := sset (0, 0) t.rndLoose (c.pos + 65536) (sget (0, 0) t.rndLoose c.pos) }).passHead c.site c.pos

/-- A DEFER descriptor that is not parked runs as an ordinary one. -/
def State.unparked (s : State) (c : DCtx) : State :=
  s.modTile c.site fun t => { t with overflowed := c.pos :: t.overflowed }

/-- A valid DEFER descriptor in the window is parked (R216). One that fails its checks is left to its own turn, when it is rejected. -/
def State.deferPark (s : State) (c : DCtx) : State :=
  match s.frozenSkip c with
  | .yes => s
  | .unreadable _ => s.unparked c
  | .no =>
    let m := s.parkMeaning c
    let ra := s.recAddrs c m.recs
    if ra.any s.targetWaits then s
    else if (lowest (s.commonReasons c ++ m.reasons ++ s.recReasons c ra)).isSome then s.unparked c
    else if 64 ≤ (s.tile c.site).parked.length then (s.unparked c).bump c.site R.TIL_DEFER_OVF 1
    else s.parkNow c

/-- DEFER_PARK (R216). -/
def execDeferPark (tile pos : Nat) (s : State) : Host.Outcome State Fault Refusal :=
  .next (
    let c := s.ctxOf tile pos
    let t := s.tile c.site
    if s.inWindow tile pos = false ∨ s.deferActive c = false ∨ t.overflowed.contains pos = true ∨ s.exciseHit c.d c.stamp = true ∨
      t.halted = some ⟨pos, false, false⟩ then s
    else s.deferPark c)

/-- A yielded descriptor may take the array again (R217, R218). -/
def State.canResume (s : State) (site : Nat) (r : Run) : Bool :=
  let u := unitsOf (dKind r.desc)
  s.tileWorks site && (s.tile site).halted.isNone &&
  ((s.tile site).running.all fun x => (x.units &&& u) == 0) &&
  (s.drainPending site || !((s.window site).any fun q => s.windowReady site q && (unitsOf (dKind (s.descAt site q)) &&& u) != 0))

/-- The oldest parked descriptor can start: no table load holds a VCH back (R136), and an engine takes a MOV. -/
def State.canStart (s : State) (tile site d : Nat) : Bool :=
  (dKind d != 3 || (s.tile site).actLoad.isNone) && (dKind d != 6 || s.openEngines (tile / 256) != [])

/-- The deferred queue's turn (R217): a yielded product resumes, or the oldest parked descriptor issues. -/
def State.parkedIssue (s : State) (tile : Nat) : State :=
  let site := s.siteOf tile
  match (s.yieldedRun site).filter (s.canResume site) with
  | some r =>
    s.modTile site fun t => { t with running := t.running.map fun x =>
      if x.pos == r.pos && x.parked == r.parked then { x with st := .done } else x }
  | none =>
    match s.canIssueParked site with
    | some p =>
      if s.canStart tile site p.desc then
        ((s.modTile site fun t => { t with parked := t.parked.drop 1 }).parkedStart ⟨tile, site, p.pos, p.desc, p.stamp, true⟩).modTile
          site fun t => { t with rndLoose := sdel t.rndLoose (p.pos + 65536) }
      else s
    | none => s

/-- PARKED_ISSUE (R217). -/
def execParkedIssue (tile : Nat) (s : State) : Host.Outcome State Fault Refusal :=
  .next (if isTile tile then s.parkedIssue tile else s)

/-! ### The watchdog of a grant (R326) -/

/-- What the reset of a holder does: a courier engine's MOV faults (R326); a media core's sample fails (R344). -/
def State.resetHolder (s : State) (i server : Nat) (g : CrsGrant) : State :=
  match g.owner with
  | .mov o => s.xReset o 0x0B
  | .part k h _ =>
    ((s.bump (pMDE (i - 40)) R.MDE_ABANDONED 1).raise (pMDE (i - 40)) 0 server).modSample k h fun t =>
      { t with fail := some (t.fail.getD 1) }
  | _ => s

/-- CROSSING_WDOG (R326). -/
def execCrossingWdog (crossing server : Nat) (s : State) : Host.Outcome State Fault Refusal :=
  .next (
    let us := s.reg (pCRS crossing) R.CRS_WDOG % 2 ^ 24
    match (s.crs crossing).grants.find? fun g => g.1 == server with
    | none => s
    | some (_, g) =>
      if 44 ≤ crossing ∨ s.blockRuns (pCRS crossing) = false ∨ us = 0 ∨ s.mt < g.start + us * 1000 then s
      else
        let s1 := (s.endGrant crossing server).resetHolder crossing server g
        (s1.bump (pCRS crossing) R.CRS_WDOG_COUNT 1).raise (pCRS crossing) 0 (g.requester % 2 ^ 16 + server % 2 ^ 8 * 2 ^ 16) g.start)

end Sys2Proof.Machine
end

