-- ==== Sys2Proof/Machine/Dispatch.lean ====
section
/-! DEFINITION. Machine/Dispatch.lean: one arm per command; every arm is one direct call of its meaning. -/
namespace Sys2Proof.Machine

def exec (i : Instr) (s : State) : Host.Outcome State Fault Refusal :=
  match i with
  | .registerWrite src page off bytes value => Sys2Proof.Machine.execRegisterWrite src page off bytes value s
  | .rcRead src page off bytes => Sys2Proof.Machine.execRcRead src page off bytes s
  | .tilSeqTailWrite src tile value => Sys2Proof.Machine.execTilSeqTailWrite src tile value s
  | .mma tile pos => Sys2Proof.Machine.execMma tile pos s
  | .conv tile pos => Sys2Proof.Machine.execConv tile pos s
  | .wgrad tile pos => Sys2Proof.Machine.execWgrad tile pos s
  | .maxpool tile pos => Sys2Proof.Machine.execMaxpool tile pos s
  | .avgpool tile pos => Sys2Proof.Machine.execAvgpool tile pos s
  | .maxpoolB tile pos => Sys2Proof.Machine.execMaxpoolB tile pos s
  | .avgpoolB tile pos => Sys2Proof.Machine.execAvgpoolB tile pos s
  | .s2d tile pos => Sys2Proof.Machine.execS2d tile pos s
  | .d2s tile pos => Sys2Proof.Machine.execD2s tile pos s
  | .vch tile pos => Sys2Proof.Machine.execVch tile pos s
  | .lnormF tile pos => Sys2Proof.Machine.execLnormF tile pos s
  | .rmsF tile pos => Sys2Proof.Machine.execRmsF tile pos s
  | .softmaxF tile pos => Sys2Proof.Machine.execSoftmaxF tile pos s
  | .logsmF tile pos => Sys2Proof.Machine.execLogsmF tile pos s
  | .xentF tile pos => Sys2Proof.Machine.execXentF tile pos s
  | .lnormB tile pos => Sys2Proof.Machine.execLnormB tile pos s
  | .rmsB tile pos => Sys2Proof.Machine.execRmsB tile pos s
  | .softmaxB tile pos => Sys2Proof.Machine.execSoftmaxB tile pos s
  | .logsmB tile pos => Sys2Proof.Machine.execLogsmB tile pos s
  | .xentB tile pos => Sys2Proof.Machine.execXentB tile pos s
  | .attBlock tile pos => Sys2Proof.Machine.execAttBlock tile pos s
  | .attMerge tile pos => Sys2Proof.Machine.execAttMerge tile pos s
  | .bprep tile pos => Sys2Proof.Machine.execBprep tile pos s
  | .bq tile pos => Sys2Proof.Machine.execBq tile pos s
  | .bkv tile pos => Sys2Proof.Machine.execBkv tile pos s
  | .mov tile pos => Sys2Proof.Machine.execMov tile pos s
  | .synFence tile pos => Sys2Proof.Machine.execSynFence tile pos s
  | .synSignal tile pos => Sys2Proof.Machine.execSynSignal tile pos s
  | .synBarrier tile pos => Sys2Proof.Machine.execSynBarrier tile pos s
  | .synDrain tile pos => Sys2Proof.Machine.execSynDrain tile pos s
  | .upd tile pos => Sys2Proof.Machine.execUpd tile pos s
  | .rootAmax tile pos => Sys2Proof.Machine.execRootAmax tile pos s
  | .rootInit tile pos => Sys2Proof.Machine.execRootInit tile pos s
  | .rootTstep tile pos => Sys2Proof.Machine.execRootTstep tile pos s
  | .rootProd tile pos => Sys2Proof.Machine.execRootProd tile pos s
  | .rootTest tile pos => Sys2Proof.Machine.execRootTest tile pos s
  | .descriptorRetire tile pos => Sys2Proof.Machine.execDescriptorRetire tile pos s
  | .resume src tile => Sys2Proof.Machine.execResume src tile s
  | .flush src tile => Sys2Proof.Machine.execFlush src tile s
  | .seqStall tile => Sys2Proof.Machine.execSeqStall tile s
  | .idleClockStop tile => Sys2Proof.Machine.execIdleClockStop tile s
  | .computeClockRestart tile => Sys2Proof.Machine.execComputeClockRestart tile s
  | .sramScrub site err => Sys2Proof.Machine.execSramScrub site err s
  | .sramInitDone site => Sys2Proof.Machine.execSramInitDone site s
  | .spareMapWrite src district column value => Sys2Proof.Machine.execSpareMapWrite src district column value s
  | .barrierArrival tile => Sys2Proof.Machine.execBarrierArrival tile s
  | .signalArrival sender target => Sys2Proof.Machine.execSignalArrival sender target s
  | .actLoad src tile value => Sys2Proof.Machine.execActLoad src tile value s
  | .actLoadDone tile => Sys2Proof.Machine.execActLoadDone tile s
  | .inval src tile => Sys2Proof.Machine.execInval src tile s
  | .deferPark tile pos => Sys2Proof.Machine.execDeferPark tile pos s
  | .parkedIssue tile => Sys2Proof.Machine.execParkedIssue tile s
  | .yield tile => Sys2Proof.Machine.execYield tile s
  | .excise src tile => Sys2Proof.Machine.execExcise src tile s
  | .frozenSkip tile pos => Sys2Proof.Machine.execFrozenSkip tile pos s
  | .exciseMapDiscard tile pos => Sys2Proof.Machine.execExciseMapDiscard tile pos s
  | .poolEnable src pool value => Sys2Proof.Machine.execPoolEnable src pool value s
  | .poolInitDone pool => Sys2Proof.Machine.execPoolInitDone pool s
  | .poolFreeRead src pool => Sys2Proof.Machine.execPoolFreeRead src pool s
  | .allocWaitExpire waiter => Sys2Proof.Machine.execAllocWaitExpire waiter s
  | .kvsCmdTailWrite src value => Sys2Proof.Machine.execKvsCmdTailWrite src value s
  | .sharePages => Sys2Proof.Machine.execSharePages s
  | .freePages => Sys2Proof.Machine.execFreePages s
  | .truncate => Sys2Proof.Machine.execTruncate s
  | .freeCtx => Sys2Proof.Machine.execFreeCtx s
  | .setLen => Sys2Proof.Machine.execSetLen s
  | .ringSend => Sys2Proof.Machine.execRingSend s
  | .ringSendComplete => Sys2Proof.Machine.execRingSendComplete s
  | .eviction pool => Sys2Proof.Machine.execEviction pool s
  | .dispatch src => Sys2Proof.Machine.execDispatch src s
  | .dispatchDone => Sys2Proof.Machine.execDispatchDone s
  | .dispatchAbort src => Sys2Proof.Machine.execDispatchAbort src s
  | .start src => Sys2Proof.Machine.execStart src s
  | .squash src => Sys2Proof.Machine.execSquash src s
  | .stop src => Sys2Proof.Machine.execStop src s
  | .stpEnClear src => Sys2Proof.Machine.execStpEnClear src s
  | .phaseEnd => Sys2Proof.Machine.execPhaseEnd s
  | .updateComplete => Sys2Proof.Machine.execUpdateComplete s
  | .checkOpen => Sys2Proof.Machine.execCheckOpen s
  | .localVerdict => Sys2Proof.Machine.execLocalVerdict s
  | .voteResult rec => Sys2Proof.Machine.execVoteResult rec s
  | .flushComplete => Sys2Proof.Machine.execFlushComplete s
  | .voteTimeout => Sys2Proof.Machine.execVoteTimeout s
  | .commit => Sys2Proof.Machine.execCommit s
  | .memoryRead addr len err => Sys2Proof.Machine.execMemoryRead addr len err s
  | .memoryWrite addr data poisoned => Sys2Proof.Machine.execMemoryWrite addr data poisoned s
  | .fmax addr value => Sys2Proof.Machine.execFmax addr value s
  | .uadd addr value => Sys2Proof.Machine.execUadd addr value s
  | .or32 addr value => Sys2Proof.Machine.execOr32 addr value s
  | .memScrub page channel err => Sys2Proof.Machine.execMemScrub page channel err s
  | .nearInitDone district => Sys2Proof.Machine.execNearInitDone district s
  | .zero src channel => Sys2Proof.Machine.execZero src channel s
  | .zeroFillDone channel => Sys2Proof.Machine.execZeroFillDone channel s
  | .arbitrationRound crossing server => Sys2Proof.Machine.execArbitrationRound crossing server s
  | .crossingWdog crossing server => Sys2Proof.Machine.execCrossingWdog crossing server s
  | .quotaWindowEnd crossing => Sys2Proof.Machine.execQuotaWindowEnd crossing s
  | .crsQuotaWrite src crossing value => Sys2Proof.Machine.execCrsQuotaWrite src crossing value s
  | .streamEnable src stream value => Sys2Proof.Machine.execStreamEnable src stream value s
  | .ingStrTailWrite src stream value => Sys2Proof.Machine.execIngStrTailWrite src stream value s
  | .cursorWrite src stream value => Sys2Proof.Machine.execCursorWrite src stream value s
  | .takeSample stream => Sys2Proof.Machine.execTakeSample stream s
  | .ringDry stream => Sys2Proof.Machine.execRingDry stream s
  | .decodeTimeout kind core => Sys2Proof.Machine.execDecodeTimeout kind core s
  | .decodeDone kind core result => Sys2Proof.Machine.execDecodeDone kind core result s
  | .sampleFail stream take => Sys2Proof.Machine.execSampleFail stream take s
  | .bandWrite stream take idx frames => Sys2Proof.Machine.execBandWrite stream take idx frames s
  | .tokenize engine => Sys2Proof.Machine.execTokenize engine s
  | .bucketAssign stream take => Sys2Proof.Machine.execBucketAssign stream take s
  | .ingStrReqTailWrite src stream value => Sys2Proof.Machine.execIngStrReqTailWrite src stream value s
  | .batchRequest stream => Sys2Proof.Machine.execBatchRequest stream s
  | .fillWaitExpire stream => Sys2Proof.Machine.execFillWaitExpire stream s
  | .requestComplete stream => Sys2Proof.Machine.execRequestComplete stream s
  | .ledgerLatchRead src stream => Sys2Proof.Machine.execLedgerLatchRead src stream s
  | .dictEnable src dict value => Sys2Proof.Machine.execDictEnable src dict value s
  | .dictCheckDone dict => Sys2Proof.Machine.execDictCheckDone dict s
  | .exeJobTailWrite src core value => Sys2Proof.Machine.execExeJobTailWrite src core value s
  | .encodeJob core => Sys2Proof.Machine.execEncodeJob core s
  | .sliceEncoded core payload rowBits => Sys2Proof.Machine.execSliceEncoded core payload rowBits s
  | .outHeadWrite src core value => Sys2Proof.Machine.execOutHeadWrite src core value s
  | .exeAbort src core => Sys2Proof.Machine.execExeAbort src core s
  | .linkEnWrite src gate link value => Sys2Proof.Machine.execLinkEnWrite src gate link value s
  | .peerDetect gate link => Sys2Proof.Machine.execPeerDetect gate link s
  | .trainConverge gate link => Sys2Proof.Machine.execTrainConverge gate link s
  | .laneAlign gate link lanes => Sys2Proof.Machine.execLaneAlign gate link lanes s
  | .identFlit gate link ident => Sys2Proof.Machine.execIdentFlit gate link ident s
  | .linkStateTimeout gate link => Sys2Proof.Machine.execLinkStateTimeout gate link s
  | .linkRestartDelay gate link => Sys2Proof.Machine.execLinkRestartDelay gate link s
  | .flitReceive gate link flit => Sys2Proof.Machine.execFlitReceive gate link flit s
  | .nakReceive gate link seq => Sys2Proof.Machine.execNakReceive gate link seq s
  | .retrainDone gate link ok lanes => Sys2Proof.Machine.execRetrainDone gate link ok lanes s
  | .retrainWrite src gate link value => Sys2Proof.Machine.execRetrainWrite src gate link value s
  | .segmentTimeout gate link => Sys2Proof.Machine.execSegmentTimeout gate link s
  | .packetForward pkt => Sys2Proof.Machine.execPacketForward pkt s
  | .linkWrite pkt => Sys2Proof.Machine.execLinkWrite pkt s
  | .readReq pkt => Sys2Proof.Machine.execReadReq pkt s
  | .readRsp pkt => Sys2Proof.Machine.execReadRsp pkt s
  | .ack pkt => Sys2Proof.Machine.execAck pkt s
  | .remoteSignal pkt => Sys2Proof.Machine.execRemoteSignal pkt s
  | .bulk pkt => Sys2Proof.Machine.execBulk pkt s
  | .ackTimeout req => Sys2Proof.Machine.execAckTimeout req s
  | .routeDataAccess src write value => Sys2Proof.Machine.execRouteDataAccess src write value s
  | .timeExchange t1 t2 t3 t4 ok => Sys2Proof.Machine.execTimeExchange t1 t2 t3 t4 ok s
  | .gatJobTailWrite src value => Sys2Proof.Machine.execGatJobTailWrite src value s
  | .jobTake gate => Sys2Proof.Machine.execJobTake gate s
  | .redUp pkt => Sys2Proof.Machine.execRedUp pkt s
  | .redDn pkt => Sys2Proof.Machine.execRedDn pkt s
  | .jobComplete job => Sys2Proof.Machine.execJobComplete job s
  | .ready pkt => Sys2Proof.Machine.execReady pkt s
  | .deadline => Sys2Proof.Machine.execDeadline s
  | .go pkt => Sys2Proof.Machine.execGo pkt s
  | .vote pkt => Sys2Proof.Machine.execVote pkt s
  | .squashNotice pkt => Sys2Proof.Machine.execSquashNotice pkt s
  | .capture => Sys2Proof.Machine.execCapture s
  | .captureDone => Sys2Proof.Machine.execCaptureDone s
  | .buddySendDone => Sys2Proof.Machine.execBuddySendDone s
  | .now src => Sys2Proof.Machine.execNow src s
  | .restore src => Sys2Proof.Machine.execRestore src s
  | .restoreDone image => Sys2Proof.Machine.execRestoreDone image s
  | .ckpAbort src => Sys2Proof.Machine.execCkpAbort src s
  | .errLogPop src seq => Sys2Proof.Machine.execErrLogPop src seq s
  | .logData0Read src => Sys2Proof.Machine.execLogData0Read src s
  | .errFirstRearm src page => Sys2Proof.Machine.execErrFirstRearm src page s
  | .fatalClear src => Sys2Proof.Machine.execFatalClear src s
  | .mtLoRead src => Sys2Proof.Machine.execMtLoRead src s
  | .configRequest port write off value => Sys2Proof.Machine.execConfigRequest port write off value s
  | .bar4Access port off write len data => Sys2Proof.Machine.execBar4Access port off write len data s
  | .evtForceWrite src page value => Sys2Proof.Machine.execEvtForceWrite src page value s
  | .evtEnWrite src page value => Sys2Proof.Machine.execEvtEnWrite src page value s
  | .irqHoldoffExpire port vector => Sys2Proof.Machine.execIrqHoldoffExpire port vector s
  | .vectorUnmask port vector => Sys2Proof.Machine.execVectorUnmask port vector s
  | .pageLockWrite src page value => Sys2Proof.Machine.execPageLockWrite src page value s
  | .srst src page => Sys2Proof.Machine.execSrst src page s
  | .srstDone page => Sys2Proof.Machine.execSrstDone page s
  | .cqEnable port queue value => Sys2Proof.Machine.execCqEnable port queue value s
  | .cqDoorbell port queue value => Sys2Proof.Machine.execCqDoorbell port queue value s
  | .cqFetch queue entries => Sys2Proof.Machine.execCqFetch queue entries s
  | .cqNop queue => Sys2Proof.Machine.execCqNop queue s
  | .desc queue => Sys2Proof.Machine.execDesc queue s
  | .regw queue => Sys2Proof.Machine.execRegw queue s
  | .copy queue => Sys2Proof.Machine.execCopy queue s
  | .wait queue => Sys2Proof.Machine.execWait queue s
  | .waitTimeout queue => Sys2Proof.Machine.execWaitTimeout queue s
  | .cqSignal queue => Sys2Proof.Machine.execCqSignal queue s
  | .cqResume port queue value => Sys2Proof.Machine.execCqResume port queue value s
  | .cqFlush port queue value => Sys2Proof.Machine.execCqFlush port queue value s
  | .winDataHiAccess src port write value => Sys2Proof.Machine.execWinDataHiAccess src port write value s
  | .cplTimeout req => Sys2Proof.Machine.execCplTimeout req s
  | .pcieLinkDown port => Sys2Proof.Machine.execPcieLinkDown port s
  | .hotReset port => Sys2Proof.Machine.execHotReset port s
  | .flr port => Sys2Proof.Machine.execFlr port s
  | .d3hotEntry port => Sys2Proof.Machine.execD3hotEntry port s
  | .portReturn port rate width => Sys2Proof.Machine.execPortReturn port rate width s
  | .prtMapWrite src district value => Sys2Proof.Machine.execPrtMapWrite src district value s
  | .prtPOwnerWrite src part value => Sys2Proof.Machine.execPrtPOwnerWrite src part value s
  | .prtFarWrite src part size value => Sys2Proof.Machine.execPrtFarWrite src part size value s
  | .pageOwnerWrite src page value => Sys2Proof.Machine.execPageOwnerWrite src page value s
  | .vio12Apply mv => Sys2Proof.Machine.execVio12Apply mv s
  | .bootDone res => Sys2Proof.Machine.execBootDone res s
  | .imageStage src => Sys2Proof.Machine.execImageStage src s
  | .imageProgram src => Sys2Proof.Machine.execImageProgram src s
  | .imgDone flashOk => Sys2Proof.Machine.execImgDone flashOk s
  | .svnCommit src => Sys2Proof.Machine.execSvnCommit src s
  | .getVersion port req => Sys2Proof.Machine.execGetVersion port req s
  | .getCapabilities port req => Sys2Proof.Machine.execGetCapabilities port req s
  | .negotiateAlgorithms port req => Sys2Proof.Machine.execNegotiateAlgorithms port req s
  | .getDigests port req => Sys2Proof.Machine.execGetDigests port req s
  | .getCertificate port req => Sys2Proof.Machine.execGetCertificate port req s
  | .challenge port req => Sys2Proof.Machine.execChallenge port req s
  | .getMeasurements port req => Sys2Proof.Machine.execGetMeasurements port req s
  | .keyExchange port req => Sys2Proof.Machine.execKeyExchange port req s
  | .finish port req => Sys2Proof.Machine.execFinish port req s
  | .endSession port req => Sys2Proof.Machine.execEndSession port req s
  | .ideKm port stream msg => Sys2Proof.Machine.execIdeKm port stream msg s
  | .ideLost port stream => Sys2Proof.Machine.execIdeLost port stream s
  | .keyLoad src value => Sys2Proof.Machine.execKeyLoad src value s
  | .keyErase src value => Sys2Proof.Machine.execKeyErase src value s
  | .linkKeyInstall src value => Sys2Proof.Machine.execLinkKeyInstall src value s
  | .secClear src => Sys2Proof.Machine.execSecClear src s
  | .keysCleared => Sys2Proof.Machine.execKeysCleared s
  | .vio12Loss => Sys2Proof.Machine.execVio12Loss s
  | .vanaApply mv => Sys2Proof.Machine.execVanaApply mv s
  | .vanaLate => Sys2Proof.Machine.execVanaLate s
  | .vanaLoss => Sys2Proof.Machine.execVanaLoss s
  | .vinApply mv => Sys2Proof.Machine.execVinApply mv s
  | .inputCharged => Sys2Proof.Machine.execInputCharged s
  | .vinFault mv => Sys2Proof.Machine.execVinFault mv s
  | .pwrResume src => Sys2Proof.Machine.execPwrResume src s
  | .resumed => Sys2Proof.Machine.execResumed s
  | .park src => Sys2Proof.Machine.execPark src s
  | .parkGo src => Sys2Proof.Machine.execParkGo src s
  | .shutdown src => Sys2Proof.Machine.execShutdown src s
  | .parkGraceExpire => Sys2Proof.Machine.execParkGraceExpire s
  | .parkComplete => Sys2Proof.Machine.execParkComplete s
  | .domainAdmission domain => Sys2Proof.Machine.execDomainAdmission domain s
  | .domainOn domain => Sys2Proof.Machine.execDomainOn domain s
  | .domainFault domain => Sys2Proof.Machine.execDomainFault domain s
  | .domainOff domain => Sys2Proof.Machine.execDomainOff domain s
  | .pllStart pll => Sys2Proof.Machine.execPllStart pll s
  | .pllLock pll => Sys2Proof.Machine.execPllLock pll s
  | .pllUnlock pll => Sys2Proof.Machine.execPllUnlock pll s
  | .xtalFail => Sys2Proof.Machine.execXtalFail s
  | .governorTick est demand vinCurrent => Sys2Proof.Machine.execGovernorTick est demand vinCurrent s
  | .thermalSample temps => Sys2Proof.Machine.execThermalSample temps s
  | .parkNChange level => Sys2Proof.Machine.execParkNChange level s
  | .throttleNChange level => Sys2Proof.Machine.execThrottleNChange level s
  | .sidebandNoise pin => Sys2Proof.Machine.execSidebandNoise pin s
  | .noiseQuiet pin => Sys2Proof.Machine.execNoiseQuiet pin s
  | .noiseWindowEnd pin => Sys2Proof.Machine.execNoiseWindowEnd pin s
  | .resetNAssert => Sys2Proof.Machine.execResetNAssert s
  | .resetNRelease => Sys2Proof.Machine.execResetNRelease s
  | .bstRun src => Sys2Proof.Machine.execBstRun src s
  | .bstAbort src => Sys2Proof.Machine.execBstAbort src s
  | .domainTestDone res => Sys2Proof.Machine.execDomainTestDone res s
  | .bstDone => Sys2Proof.Machine.execBstDone s
  | .fenceClear src domain => Sys2Proof.Machine.execFenceClear src domain s
  | .claim src unit claim => Sys2Proof.Machine.execClaim src unit claim s
  | .chkReset src unit => Sys2Proof.Machine.execChkReset src unit s
  | .feed8 src unit value => Sys2Proof.Machine.execFeed8 src unit value s
  | .feed16 src unit value => Sys2Proof.Machine.execFeed16 src unit value s
  | .feed32 src unit value => Sys2Proof.Machine.execFeed32 src unit value s
  | .valueHiWrite src unit value => Sys2Proof.Machine.execValueHiWrite src unit value s
  | .chkValueLoRead src unit => Sys2Proof.Machine.execChkValueLoRead src unit s
  | .chkResultLoRead src unit => Sys2Proof.Machine.execChkResultLoRead src unit s
  | .freeze src inst on => Sys2Proof.Machine.execFreeze src inst on s
  | .dbgStep src inst => Sys2Proof.Machine.execDbgStep src inst s
  | .peekDataAccess src inst write value => Sys2Proof.Machine.execPeekDataAccess src inst write value s
  | .readVersion => Sys2Proof.Machine.execReadVersion s
  | .readSupplySts => Sys2Proof.Machine.execReadSupplySts s
  | .readPwrSts => Sys2Proof.Machine.execReadPwrSts s
  | .readPwrTemp => Sys2Proof.Machine.execReadPwrTemp s
  | .readPwrEst => Sys2Proof.Machine.execReadPwrEst s
  | .readErrSts => Sys2Proof.Machine.execReadErrSts s
  | .readSideband => Sys2Proof.Machine.execReadSideband s
  | .readModuleTime => Sys2Proof.Machine.execReadModuleTime s
  | .readErrorRecord => Sys2Proof.Machine.execReadErrorRecord s
  | .smbClkTimeout => Sys2Proof.Machine.execSmbClkTimeout s
  | .extest => Sys2Proof.Machine.execExtest s
  | .idcode => Sys2Proof.Machine.execIdcode s
  | .samplePreload => Sys2Proof.Machine.execSamplePreload s
  | .clamp => Sys2Proof.Machine.execClamp s
  | .highz => Sys2Proof.Machine.execHighz s
  | .extestPulse => Sys2Proof.Machine.execExtestPulse s
  | .extestTrain => Sys2Proof.Machine.execExtestTrain s
  | .privateScan code => Sys2Proof.Machine.execPrivateScan code s
  | .bypass => Sys2Proof.Machine.execBypass s
  | .tapReset => Sys2Proof.Machine.execTapReset s
  | .codewordAlignmentLoss gate link => Sys2Proof.Machine.execCodewordAlignmentLoss gate link s
  | .perstNChange port level => Sys2Proof.Machine.execPerstNChange port level s
  | .vinOutOfRange mv => Sys2Proof.Machine.execVinOutOfRange mv s
  | .hostCompletion req data => Sys2Proof.Machine.execHostCompletion req data s

end Sys2Proof.Machine
end

