-- ==== Sys2Proof/Machine/Step.lean ====
section
/-! DEFINITION. Machine/Step.lean: one step takes the command at the front of the queue and runs it on the state with the
queue's rest. -/
namespace Sys2Proof.Machine

/-- DESIGN CHOICE (log entry 4): on an empty queue one AO reference period of 40 ns passes, by which module time advances (R435),
and messages that wait at the gates for the control tree leave. -/
def State.tick (s : State) : State := if s.aoOn then s.passTime.drainCtl else s

/-- One step of the block. -/
def step (s : State) : Host.Outcome State Fault Refusal :=
  match s.pending with
  | [] => .next s.tick
  | c :: rest => exec c { s with pending := rest }

/-- The command a word of the table spells, put at the front of the queue; no row of the table has bits, so none is. -/
def State.withFetchWord (s : State) (nbits w : Nat) : State :=
  match Sys2Proof.decodeTableWord nbits w with
  | some c => { s with pending := c :: s.pending }
  | none => s

end Sys2Proof.Machine
end

