-- ==== Sys2Proof/Safety.lean ====
section
/-! DEFINITION. Safety.lean: the terms in which claims speak of a step: what it takes for a command to have its effect, and
what every state of a run keeps. -/
namespace Sys2Proof.Machine

/-- A command answers a next state. -/
def Completes (i : Instr) (s : State) : Prop := ∃ t, exec i s = .next t

/-- A state whose command queue is empty is idle. -/
def State.idle (s : State) : Bool := s.pending.isEmpty

/-- Every list of numbered parts (tiles, crossings, ports, streams and the rest) lists each part once, in rising order. -/
def State.partsRise (s : State) : Bool :=
  keysRise s.upsets && keysRise s.ceWin && keysRise s.scrubPos && keysRise s.tiles && keysRise s.barriers && keysRise s.ports &&
  keysRise s.pools && keysRise s.crossings && keysRise s.streams && keysRise s.encoders && keysRise s.chk && keysRise s.links &&
  keysRise s.routes && keysRise s.linkKeys && keysRise s.stashStacks && keysRise s.queues && keysRise s.dbgStep

/-- The lists that stand for maps are in canonical form: memory lists rising addresses and no byte that equals what an
unlisted one reads as; registers, poisoned lines and numbered parts are listed once, in rising order. -/
def State.canonical (s : State) : Bool := Memory.wf s.mem && keysRise s.regs && rises 0 s.poison && s.partsRise

/-- The checks of R91 accept the descriptor at queue count `pos` of a tile, and the command that issues it may run now: the
tile's window and units are ready for it, its kind is the command's (`mine`), it is neither frozen nor on its way to the
deferred queue, its records are readable, and no reason to reject it holds. -/
def State.accepts (s : State) (tile pos : Nat) (mine : Nat → Bool) (check : State → DCtx → Meaning) : Bool :=
  let c := s.ctxOf tile pos
  let m := check s c
  let ra := s.recAddrs c m.recs
  isTile tile && s.canIssue c.site pos && mine c.d &&
  !(s.deferActive c && !(s.tile c.site).overflowed.contains pos) && (s.frozenSkip c == .no) && !ra.any s.targetWaits &&
  (lowest (s.commonReasons c ++ m.reasons ++ s.recReasons c ra)).isNone

/-- The effect on a state: correctable errors of the lines read are corrected first (R82). -/
def State.carryOut (s : State) (c : DCtx) (e : Eff) : State := (s.ceOwnAll c.tile c.site (e.lines c.site)).effDone c e

/-- A write by `src` to a register reaches it. -/
def State.mayWrite (s : State) (src : Src) (page off : Nat) : Bool := s.judge src page off true == .granted

/-- A read by `src` of a register reaches it. -/
def State.mayRead (s : State) (src : Src) (page off : Nat) : Bool := s.judge src page off false == .granted

/-- The conservation of a pool's pages (R7, R184): the free and the reserve list hold pages of the pool, no page twice and none
that is referenced; the reference counts and the free list together make up the pool; the reserve list holds one page for every
reference of a page beyond its first. -/
def State.poolSound (s : State) (n : Nat) : Bool :=
  let q := s.pool n
  decide (q.free ++ q.reserve).Nodup &&
  (q.free ++ q.reserve).all (fun p => (s.poolPages n).contains p && s.refcnt n p == 0) &&
  s.poolRefsum n + q.free.length == s.poolCount n &&
  q.reserve.length == sumNat ((s.poolPages n).map fun p => s.refcnt n p - 1)

/-- A pool's metadata lies in near or far memory, or where they would lie, and event tracing, which writes memory, is off. -/
def State.poolPlain (s : State) (n : Nat) : Bool :=
  decide (s.reg64 pKVS (poolReg n R.KVS_POOL_META_LO) + 8 * s.poolCount n ≤ 0x040000000000) &&
  !bit (s.reg pDBGM R.DBG_TRACE_CTL) 0

/-- No byte of memory outside the k bytes at a key differs. -/
def State.sameBytesBut (s t : State) (k n : Nat) : Prop := ∀ j, j < k ∨ k + n ≤ j → t.byte j = s.byte j

end Sys2Proof.Machine
end

