-- ==== Sys2Proof/Certificates/Slice0/Obligations.lean ====
section
/-! DEFINITION. Certificates/Slice0/Obligations.lean: the statements for the provers. A command completes where its own effect
happens; the hypotheses are about the state and the operands alone. -/

open Sys2Proof Sys2Proof.Machine

/-- A step takes the command at the front of the queue. -/
def Obligations.StepTakesFront : Prop :=
  ∀ (c : Instr) (s : State) (rest : List Instr),
    Sys2Proof.Machine.step { s with pending := c :: rest } = Sys2Proof.Machine.exec c { s with pending := rest }

/-- On an empty queue time passes (log entry 4, the model's own choice). -/
def Obligations.EmptyQueueTicks : Prop :=
  ∀ s : State, s.pending = [] →
    Sys2Proof.Machine.step s = .next s.tick ∧ (s.aoOn = false → Sys2Proof.Machine.step s = .next s)

/-- The machine right after reset (R329, R431, R535). -/
def Obligations.ResetState : Prop :=
  (∀ page b i, pageBlk page = some (b, i) → b ≠ .cq → b ≠ .msix → b ≠ .pba →
    State.reset.reg page R.PAGE_CTL = 1 ∧ State.reset.reg page R.EVT_ROUTE = 0x40 ∧
    ∀ off ∈ [R.EVT_STS, R.EVT_EN, R.ERR_FIRST, R.ERR_COUNT, R.ERR_INFO0, R.ERR_INFO1, R.TS_LO, R.TS_HI, R.PAGE_LOCK],
      State.reset.reg page off = 0) ∧
  (∀ i, i < 32 → State.reset.reg (pCRS i) R.CRS_DEF_NORMAL = 2048 ∧ State.reset.reg (pCRS i) R.CRS_DEF_URGENT = 256 ∧
    State.reset.reg (pCRS i) R.CRS_WDOG = 10) ∧
  (∀ k, State.reset.byte k = 0) ∧ State.reset.log = [] ∧ State.reset.voidCause = 0 ∧ State.reset.hold = false ∧
  State.reset.pending = [] ∧ State.reset.out = []

/-- Decode and encode agree on every element code (R19, R20, R44). -/
def Obligations.FormatCodesRoundTrip : Prop :=
  ∀ f ∈ [fE2M1, fE2M3, fE3M2, fE2M3p, fE3M2p, fE4M3, fE5M2, fFP16, fBF16, fFP32, fW36], ∀ v, v < 2 ^ f.width →
    (decodeFp f v ≠ .nan → encodeFp f (decodeFp f v) = v) ∧
    (decodeFp f v = .nan → encodeFp f (decodeFp f v) = canonNaN f ∧ decodeFp f (canonNaN f) = .nan)

/-- E8M0 (R22). -/
def Obligations.E8m0Scale : Prop :=
  (∀ x, x < 0xFF → e8m0 x = .fin false 1 ((x : Int) - 127)) ∧ e8m0 0xFF = .nan ∧
  (∀ f code, decodeMx f code 0xFF = .nan) ∧
  (∀ rd annex ax i, rd 16 = 0xFF → i < 32 → (decodeP4x rd annex ax).1[i]? = some .nan)

/-- MXINT8 (R26). -/
def Obligations.MxInt8 : Prop :=
  (∀ code scale, code < 256 → scale < 0xFF →
    decodeMx .mxint8 code scale = .fin (decide (128 ≤ code)) (if 128 ≤ code then 256 - code else code) ((scale : Int) - 127 - 6)) ∧
  (∀ (r : Rnd) (s : Bool) (m : Nat) (e x : Int), let n := roundQ r m 1 (e - x) (-6)
    let c := (encMxInt8 r (.fin s m e) x).1
    c < 256 ∧ c ≠ 0x80 ∧ (sext c 8).natAbs = min n 127 ∧ (sext c 8 ≠ 0 → (decide (sext c 8 < 0)) = s))

/-- P4's shared exponent (R27). -/
def Obligations.P4SharedExponent : Prop :=
  ∀ (rnd : Nat → Rnd) (l : List Fp), (∀ i z, rnd i = .sr z → z < 2 ^ 32) → blockBad l = false →
    let r := encodeMx .p4 rnd l
    ((blockMax l).isZero = true → r.2.1 = 0) ∧
    (∀ s m e, blockMax l = .fin s m e → m ≠ 0 → ∃ x : Int, -127 ≤ x ∧ x ≤ 127 ∧ r.2.1 = (x + 127).toNat ∧
      (x < 127 → magLt 6 x m e = false ∧ r.2.2.sat = 0) ∧ (-127 < x → magLt 3 x m e = true))

/-- Rounding (R46, R47). -/
def Obligations.RoundingModes : Prop :=
  ∀ (n d : Nat) (e q : Int), 0 < d →
    let N := (foldExp n d (e - q)).1
    let D := (foldExp n d (e - q)).2
    (let m := roundQ .rne n d e q
     2 * N ≤ (2 * m + 1) * D ∧ 2 * m * D ≤ 2 * N + D ∧
     (2 * N = (2 * m + 1) * D ∨ 2 * m * D = 2 * N + D → m % 2 = 0)) ∧
    (let m := roundQ .rtz n d e q
     m * D ≤ N ∧ N < (m + 1) * D) ∧
    (∀ z, z < 2 ^ 32 →
      roundQ (.sr z) n d e q = N / D + (if 2 ^ 32 ≤ N % D * 2 ^ 32 / D + z then 1 else 0) ∧
      (N % D = 0 → roundQ (.sr z) n d e q * D = N))

/-- Saturation and flush (R42, R43). -/
def Obligations.ConversionSaturates : Prop :=
  ∀ (f : FloatFmt) (r : Rnd) (s : Bool) (m : Nat) (e : Int),
    let t := convFp f r (.fin s m e)
    let w := roundMag f r m 1 e
    ∃ m' e', t.1 = .fin s m' e' ∧ magLt f.maxFin.1 f.maxFin.2 m' e' = false ∧
      (t.2.sat = 1 ↔ magLt f.maxFin.1 f.maxFin.2 w.1 w.2 = true) ∧ t.2.sat ≤ 1 ∧
      (t.2.ftz = 1 ↔ m' = 0 ∧ m ≠ 0 ∧ t.2.sat = 0) ∧ t.2.ftz ≤ 1

/-- The carry procedure (R62, R63). -/
def Obligations.CarryStaysSmall : Prop :=
  ∀ w d c : Nat, let r := carryApply w d c
    let y := (fp32 w).add ((fp32 d).add ((Fp.ofInt (sext c 8)).mul (.fin false 1 (ulpExp (fp32 w) - 7))))
    r.2.1 < 256 ∧ -64 ≤ sext r.2.1 8 ∧ sext r.2.1 8 ≤ 64 ∧
    (r.2.2.1.isFin = false ∨ r.2.2.2 = true → r.2.1 = 0) ∧
    (r.2.2.2 = false → ∀ s m e, y.sub r.2.2.1 = .fin s m e →
      (sext r.2.1 8).natAbs = roundQ .rne m 1 (e + 7 - ulpExp r.2.2.1) 0 ∧ (sext r.2.1 8 ≠ 0 → decide (sext r.2.1 8 < 0) = s))

/-- Little-endian storage and packing (R18). -/
def Obligations.LittleEndianPacking : Prop :=
  (∀ v n i, i < n → (leBytes v n)[i]? = some (v / 2 ^ (8 * i) % 256)) ∧
  (∀ v n, leNat (leBytes v n) = v % 2 ^ (8 * n)) ∧
  (∀ rd base w, 0 < w → w ≤ 8 → getCode rd base w 0 = rd base % 256 % 2 ^ w) ∧
  (∀ w codes tail i, 0 < w → i < codes.length →
    getCode (fun a => nth 0 (packCodes w codes tail) a) 0 w i = nth 0 codes i % 2 ^ w)

/-- Operand roles (R70). The lowest code is what R91 records. -/
def Obligations.MmaOperandRoles : Prop :=
  ∀ (s : State) (tile pos : Nat) (fa fb : Fmt), let c := s.ctxOf tile pos
    let bad := fa = .t2 ∨ (fa = .fp32 ∧ fb ≠ .fp32) ∨ (fa ≠ .fp32 ∧ fb = .fp32) ∨ fa.isInt = true ∨ fb.isInt = true
    let ra := s.recAddrs c (mmaCheck s c).recs
    mmaFmtA c.d = some fa → mmaFmtB c.d = some fb →
    (bad → rjFmtRole ∈ (mmaCheck s c).reasons ∧ (∀ mine, s.accepts tile pos mine mmaCheck = false) ∧
      (isTile tile = true → s.canIssue c.site pos = true → dKind c.d = 1 → s.deferActive c = false → s.frozenSkip c = .no →
        ra.any s.targetWaits = false → lowest (s.commonReasons c ++ (mmaCheck s c).reasons ++ s.recReasons c ra) = some rjFmtRole →
        exec (.mma tile pos) s = .next ((s.reportPoison c ra).reject tile c.site pos c.d rjFmtRole ⟨pos, false, false⟩))) ∧
    (¬ bad → mmaOut c.d = 0 → rjFmtRole ∉ (mmaCheck s c).reasons)

/-- The DEFER bit (R215). -/
def Obligations.DeferOnlyWhereValid : Prop :=
  ∀ (s : State) (c : DCtx), dDefer c.d = true →
    let valid := dPhase c.d = 3 ∧ (dKind c.d = 1 ∨ dKind c.d = 2 ∨ dKind c.d = 3 ∨ dKind c.d = 6)
    (¬ valid → rjKindField ∈ s.commonReasons c ∧
      ∀ tile pos mine check, s.ctxOf tile pos = c → s.accepts tile pos mine check = false) ∧
    (valid → bit (s.reg c.site R.TIL_BWD_CTL) 1 = false → s.deferActive c = false ∧
      ∀ d', dDefer d' = false → dKind d' = dKind c.d → dPhase d' = dPhase c.d → dTag d' = dTag c.d →
        s.commonReasons { c with d := d' } = s.commonReasons c)

/-- Masked keys (R198). -/
def Obligations.MaskedKeys : Prop :=
  ∀ (rd : Nat → Nat) (d window i j : Nat),
    (attMasked rd d window i j = true ↔
      (atCausal d = true ∧ atQpos d + i < atKpos d + j) ∨
      (window ≠ 0 ∧ (window : Int) ≤ ((atQpos d + i : Nat) : Int) - ((atKpos d + j : Nat) : Int)) ∨
      (atSegEn d = true ∧ rd (atSegQ d + 2 * i) + 256 * rd (atSegQ d + 2 * i + 1) ≠
        rd (atSegK d + 2 * j) + 256 * rd (atSegK d + 2 * j + 1))) ∧
    (∀ scale l row v, l[i]? = some row → row[j]? = some v → attMasked rd d window i j = true →
      ∃ row', (attX rd d window scale l)[i]? = some row' ∧ row'[j]? = some (.inf true))

/-- The stash aperture (R306). -/
def Obligations.StashApertureServed : Prop :=
  ∀ (s : State) (a : Nat),
    (0x200000000000 ≤ a → a < 0x208000000000 → s.region a =
      if s.fld pSTP R.STP_STASH_APT 24 0 = 0x40 ∧ bit (s.reg pSTP R.STP_STASH_CTL) 0 = true then .stash (a - 0x200000000000)
      else .unmapped) ∧
    (∀ off, s.region a = .stash off → 0x200000000000 ≤ a ∧ a < 0x208000000000 ∧ off = a - 0x200000000000)

/-- Writes of a crossing's registers (R330). -/
def Obligations.CrossingSettings : Prop :=
  ∀ (s : State) (src : Src) (i v : Nat), s.canonical = true → i < 44 → v < 2 ^ 32 →
    (∀ p ∈ [(R.CRS_CTL, 12), (R.CRS_DEF_NORMAL, 24), (R.CRS_DEF_URGENT, 24), (R.CRS_WDOG, 24)], s.mayWrite src (pCRS i) p.1 = true →
      ∃ w, exec (.registerWrite src (pCRS i) p.1 4 v) s = .next (s.setReg (pCRS i) p.1 w) ∧ w % 2 ^ p.2 = v % 2 ^ p.2 ∧
        (s.setReg (pCRS i) p.1 w).crossings = s.crossings) ∧
    (s.mayWrite src (pCRS i) R.CRS_QUOTA = true → ∃ t, exec (.registerWrite src (pCRS i) R.CRS_QUOTA 4 v) s = .next t ∧
      t.reg (pCRS i) R.CRS_QUOTA = v ∧ t.crs i = { s.crs i with winStart := s.mt, urgents := [] } ∧
      (∀ r, t.crsMasked i r = false) ∧ (∀ j, j ≠ i → t.crs j = s.crs j))

/-- A round (R322, R323). -/
def Obligations.RoundGrantsEarliest : Prop :=
  ∀ (s : State) (i server : Nat), s.canonical = true → let w := s.rollWindow i
    let el := fun r => r ∈ w.heads i ∧ w.crsNames i r server = true ∧ w.crsMasked i r = false
    let o := s.crsRound i server
    (o.2 = none ↔ ∀ r, ¬ el r) ∧
    (∀ b, o.2 = some b → el b ∧
      (∀ r, el r → w.effective i b ≤ w.effective i r ∧ (w.effective i r = w.effective i b → b.requester ≤ r.requester)) ∧
      sget ⟨0, false, 0, .other⟩ (o.1.crs i).grants server = ⟨b.requester, b.urgent, s.mt, b.owner⟩)

/-- Uncorrectable memory errors (R539). -/
def Obligations.UncorrectableEvents : Prop :=
  ∀ (s : State) (p e i0 i1 : Nat) (forced : Bool) (b : Blk) (n : Nat),
    s.canonical = true → pageBlk (s.canon p) = some (b, n) → e < b.nevt → evtClass b e ≠ 0 →
    let t := s.raise p e i0 i1 false forced
    let ue := decide ((b = .til ∧ e = 5) ∨ ((b = .nmc ∨ b = .fmc) ∧ e = 1))
    (∃ r, t.log.getLast? = some r ∧ r.page = p ∧ r.event = e ∧ bit r.flags 4 = ue) ∧
    (bit (s.reg (s.canon p) R.ERR_FIRST) 31 = false → bit (t.reg (s.canon p) R.ERR_FIRST) 11 = ue) ∧
    (ue = true → t.voidCause.testBit 1 = true)

/-- A full log (R432). -/
def Obligations.FullLog : Prop :=
  (∀ (s : State) (r : LogRec), s.canonical = true → s.log.length = 256 → let t := s.logAppend r
    (∃ i, i < 256 ∧ t.log = s.log.eraseIdx i ++ [r] ∧
      ((∃ x ∈ s.log, x.flags % 4 ≠ 3) → (∃ x, s.log[i]? = some x ∧ x.flags % 4 ≠ 3) ∧
        ∀ j y, j < i → s.log[j]? = some y → y.flags % 4 = 3) ∧
      ((∀ x ∈ s.log, x.flags % 4 = 3) →
        let pend := fun (x : LogRec) => s.fatalPend = true ∧ x.seq = s.reg pERR R.ERR_FATAL_SEQ
        (∃ x ∈ s.log, ¬ pend x) → (∃ x, s.log[i]? = some x ∧ ¬ pend x) ∧ ∀ j y, j < i → s.log[j]? = some y → pend y)) ∧
    t.reg pERR R.ERR_LOST = min (s.reg pERR R.ERR_LOST + 1) (2 ^ 32 - 1) ∧ t.logOverwrote = true ∧
    (s.logOverwrote = false → bit (t.reg pERR R.EVT_STS) 2 = true) ∧
    (s.logOverwrote = true → t.reg pERR R.EVT_STS = s.reg pERR R.EVT_STS ∧ t.out = s.out ∧ t.mem = s.mem)) ∧
  (∀ (s : State) (src : Src) r l, s.log = r :: l → r.seq < 2 ^ 32 → s.mayWrite src pERR R.ERR_LOG_POP = true →
    exec (.errLogPop src r.seq) s = .next { s with log := l, logOverwrote := false })

/-- A pending fatal error (R433). -/
def Obligations.FatalPending : Prop :=
  ∀ (s : State), s.canonical = true →
    (∀ p e i0 i1 b n, pageBlk (s.canon p) = some (b, n) → e < b.nevt → evtClass b e = 3 → s.fatalPend = false →
      let t := s.raise p e i0 i1
      t.fatalPend = true ∧ (∃ r, t.log.getLast? = some r ∧ t.reg pERR R.ERR_FATAL_SEQ = r.seq) ∧
      (s.aoOn = true → t.faultPin = true) ∧ bit (t.reg pERR R.EVT_STS) 0 = true) ∧
    (s.fatalPend = true → s.toCommit.phase = phCheck ∧ s.toCommit.step.commitHeld = true) ∧
    (s.phase = phCheck → s.fatalPend = true → exec .commit s = .next s) ∧
    (s.phase = phCheck → s.stpEn = true → ∀ v, s.cause v = s.startSquash (2 ^ v)) ∧
    (s.blockRuns pSTP = true → s.phase = phCheck → s.step.commitHeld = true → s.fatalPend = false →
      exec .commit s = .next ((s.setPhase phCommit).modStep fun x => { x with commitHeld := false }).tryCommit) ∧
    (∀ src, s.mayWrite src pERR R.ERR_FATAL = true → ∃ t, exec (.fatalClear src) s = .next t ∧ t.fatalPend = false)

/-- Access types (R14) for the blocks whose registers have no behaviour of their own. -/
def Obligations.PlainRegisters : Prop :=
  ∀ (s : State) (src : Src) (page off v : Nat) (b : Blk) (i : Nat) (r : RegRow),
    s.canonical = true → pageBlk page = some (b, i) → (b = .sqr ∨ b = .cur ∨ b = .ing ∨ b = .upd ∨ b = .mde ∨ b = .tim) → findRow b off = some r →
    0x40 ≤ off → off < 0x1000 → off % 4 = 0 → v < 2 ^ 32 →
    (s.mayWrite src page off = true → ∃ t, exec (.registerWrite src page off 4 v) s = .next t ∧
      (∀ k, k < 32 → (t.reg page off).testBit k =
        if r.rw.testBit k then v.testBit k else if r.w1c.testBit k && v.testBit k then false else (s.reg page off).testBit k) ∧
      (∀ page' off', off' < 0x1000 → (page' ≠ page ∨ off' / 4 ≠ off / 4) → t.reg page' off' = s.reg page' off') ∧
      t.mem = s.mem ∧ t.tiles = s.tiles ∧ t.log = s.log ∧ t.out = s.out)

/-- Refused accesses (R448, R477). -/
def Obligations.RefusedAccess : Prop :=
  ∀ (s : State) (h page off v r : Nat), s.canonical = true → off % 4 = 0 → off < 0x1000 → isBar2 page = false →
    (prtGoverned page off v = none → page ≠ pSEC → (∀ i, pageBlk page ≠ some (.dbg, i)) → v < 2 ^ 32 →
      s.judge (.port h) page off true = .denied h r → exec (.registerWrite (.port h) page off 4 v) s = .next (s.deny h page r)) ∧
    (s.judge (.port h) page off false = .denied h r →
      exec (.rcRead (.port h) page off 4) s = .next (((s.reply []).deny h page r).reply [0xFFFFFFFF])) ∧
    (h < 8 → r < 8 → let t := s.deny h page r
      t.reg (pHPT h) R.HPT_DENY_COUNT = min (s.reg (pHPT h) R.HPT_DENY_COUNT + 1) (2 ^ 32 - 1) ∧
      t.reg (pHPT h) R.HPT_DENY_INFO = page % 2 ^ 14 + r * 2 ^ 16 ∧ bit (t.reg (pHPT h) R.EVT_STS) 2 = true ∧
      (bit (s.reg pDBGM R.DBG_TRACE_CTL) 0 = false → t.mem = s.mem ∧ t.tiles = s.tiles ∧ t.log = s.log ∧
        ∀ p o, o < 0x1000 → (∀ k, k < 8 → p ≠ pHPT k) → t.reg p o = s.reg p o))

/-- Who may reach a register page (R448, R467). -/
def Obligations.PartitionIsolation : Prop :=
  ∀ (s : State) (page off : Nat), isBar2 page = false →
    (∀ h, h ≠ s.adminPort → s.feeds h page = false → s.pagePart page < 6 → s.pagePart page ≠ s.portPart h →
      (s.recovery = false ∨ page ≠ pSEC) → s.mayWrite (.port h) page off = false ∧ (off ≠ R.PAGE_OWNER → s.mayRead (.port h) page off = false)) ∧
    (∀ h, h ≠ s.adminPort → s.portPart h = 7 → s.feeds h page = false → s.recovery = false →
      s.mayWrite (.port h) page off = false) ∧
    (∀ p, p < 6 → s.pagePart page ≠ p →
      s.mayWrite (.device p) page off = false ∧ (page ≠ pTIM → page ≠ pERR → s.mayRead (.device p) page off = false))

/-- Event counters and waits (R90). -/
def Obligations.EventCounters : Prop :=
  (∀ (s : State) (target c inc : Nat), s.canonical = true → isTarget target = true →
    (s.addCtr target c inc).ctr target c = (s.ctr target c + inc) % 2 ^ 32 ∧
    (∀ target' c', isTarget target' = true → (target' ≠ target ∨ c' % 16 ≠ c % 16) →
      (target' ≠ 0x700 → target ≠ 0x700 → s.siteOf target' = s.siteOf target → target' = target) →
      (s.addCtr target c inc).ctr target' c' = s.ctr target' c') ∧
    (∀ c' inc' p, ((s.addCtr target c inc).addCtr target c' inc').reg p = ((s.addCtr target c' inc').addCtr target c inc).reg p)) ∧
  (∀ ctr v, v < 2 ^ 16 → (waitMet ctr v = true ↔ ((ctr : Int) - v) % 2 ^ 16 < 2 ^ 15))

/-- Commands of the matrix array complete (R82, R91, R155 to R172). -/
def Obligations.ArrayCommandsComplete : Prop :=
  ∀ (s : State) (tile pos : Nat), let c := s.ctxOf tile pos
    (s.accepts tile pos (fun d => dKind d == 1 || unitsOf (dKind d) == 0) mmaCheck = true → s.effFails c (mmaEff s c) = false →
      exec (.mma tile pos) s = .next (s.carryOut c (mmaEff s c))) ∧
    (s.accepts tile pos (isConvOp 0) cvCheck = true → s.effFails c (convEff s c) = false →
      exec (.conv tile pos) s = .next (s.carryOut c (convEff s c))) ∧
    (s.accepts tile pos (isConvOp 1) cvCheck = true → s.effFails c (wgradEff s c) = false →
      exec (.wgrad tile pos) s = .next (s.carryOut c (wgradEff s c))) ∧
    (s.accepts tile pos (isConvOp 2) cvCheck = true → s.effFails c (maxpoolEff s c) = false →
      exec (.maxpool tile pos) s = .next (s.carryOut c (maxpoolEff s c))) ∧
    (s.accepts tile pos (isConvOp 3) cvCheck = true → s.effFails c (avgpoolEff s c) = false →
      exec (.avgpool tile pos) s = .next (s.carryOut c (avgpoolEff s c))) ∧
    (s.accepts tile pos (isConvOp 4) cvCheck = true → s.effFails c (maxpoolBEff s c) = false →
      exec (.maxpoolB tile pos) s = .next (s.carryOut c (maxpoolBEff s c))) ∧
    (s.accepts tile pos (isConvOp 5) cvCheck = true → s.effFails c (avgpoolBEff s c) = false →
      exec (.avgpoolB tile pos) s = .next (s.carryOut c (avgpoolBEff s c))) ∧
    (s.accepts tile pos (isConvOp 6) cvCheck = true → s.effFails c (s2dEff s c) = false →
      exec (.s2d tile pos) s = .next (s.carryOut c (s2dEff s c))) ∧
    (s.accepts tile pos (isConvOp 7) cvCheck = true → s.effFails c (d2sEff s c) = false →
      exec (.d2s tile pos) s = .next (s.carryOut c (d2sEff s c)))

/-- Commands of the vector and row engines complete (R82, R91, R110 to R147). -/
def Obligations.VectorRowCommandsComplete : Prop :=
  ∀ (s : State) (tile pos : Nat), let c := s.ctxOf tile pos
    (let s1 := (s.jitScale c 2).jitScale c 3
     (s.tile (s.siteOf tile)).actLoad = none → s.accepts tile pos (fun d => dKind d == 3) vchCheck = true →
      s1.effFails c (vchEff s1 c) = false → exec (.vch tile pos) s = .next (s1.carryOut c (vchEff s1 c))) ∧
    (s.effFails c (rowEff s c) = false →
      (s.accepts tile pos (isRowOp roLnormF) rowCheck = true → exec (.lnormF tile pos) s = .next (s.carryOut c (rowEff s c))) ∧
      (s.accepts tile pos (isRowOp roRmsF) rowCheck = true → exec (.rmsF tile pos) s = .next (s.carryOut c (rowEff s c))) ∧
      (s.accepts tile pos (isRowOp roSoftmaxF) rowCheck = true → exec (.softmaxF tile pos) s = .next (s.carryOut c (rowEff s c))) ∧
      (s.accepts tile pos (isRowOp roLogsmF) rowCheck = true → exec (.logsmF tile pos) s = .next (s.carryOut c (rowEff s c))) ∧
      (s.accepts tile pos (isRowOp roXentF) rowCheck = true → exec (.xentF tile pos) s = .next (s.carryOut c (rowEff s c))) ∧
      (s.accepts tile pos (isRowOp roLnormB) rowCheck = true → exec (.lnormB tile pos) s = .next (s.carryOut c (rowEff s c))) ∧
      (s.accepts tile pos (isRowOp roRmsB) rowCheck = true → exec (.rmsB tile pos) s = .next (s.carryOut c (rowEff s c))) ∧
      (s.accepts tile pos (isRowOp roSoftmaxB) rowCheck = true → exec (.softmaxB tile pos) s = .next (s.carryOut c (rowEff s c))) ∧
      (s.accepts tile pos (isRowOp roLogsmB) rowCheck = true → exec (.logsmB tile pos) s = .next (s.carryOut c (rowEff s c))) ∧
      (s.accepts tile pos (isRowOp roXentB) rowCheck = true → exec (.xentB tile pos) s = .next (s.carryOut c (rowEff s c))))

/-- Commands of attention, root and update complete (R91, R173 to R181, R232 to R238, R255 to R272). -/
def Obligations.AttentionRootUpdateComplete : Prop :=
  ∀ (s : State) (tile pos : Nat), let c := s.ctxOf tile pos
    (s.accepts tile pos (isAttOp 0) attBlockCheck = true → s.effFails c (attBlockEff s c) = false →
      exec (.attBlock tile pos) s = .next ((s.carryOut c (attBlockEff s c)).useFree 16384)) ∧
    (s.accepts tile pos (isAttOp 1) attMergeCheck = true → s.effFails c (attMergeEff s c) = false →
      exec (.attMerge tile pos) s = .next ((s.carryOut c (attMergeEff s c)).useFree 16384)) ∧
    (s.accepts tile pos (isAttOp 2) backCheck = true → s.effFails c (bprepEff s c) = false →
      exec (.bprep tile pos) s = .next ((s.carryOut c (bprepEff s c)).useFree backFrees)) ∧
    (s.accepts tile pos (isAttOp 3) backCheck = true → s.effFails c (bqEff s c) = false →
      exec (.bq tile pos) s = .next ((s.carryOut c (bqEff s c)).useFree backFrees)) ∧
    (s.accepts tile pos (isAttOp 4) backCheck = true → s.effFails c (bkvEff s c) = false →
      exec (.bkv tile pos) s = .next ((s.carryOut c (bkvEff s c)).useFree backFrees)) ∧
    (let d := c.d
     let skip := (s.addRun c.site (mkRun c .done)).bump c.site R.TIL_ROOT_SKIP 1
     let ran := (s.carryOut c (rootEff s c)).useFree 16384
     let a := s.blockRead c.site (rtA d) (rtAs d) (rtM d) (rtN d)
     let done := s.rootFlag (rtRec d) rfDone
     (s.accepts tile pos (isRootOp 0) rootCheck = true → rtOp d = 0 → s.effFails c (rootEff s c) = false →
       exec (.rootAmax tile pos) s = .next (ran.rootMerge c 0x10 a)) ∧
     (s.accepts tile pos (isRootOp 1) rootCheck = true →
       (done = true → exec (.rootInit tile pos) s = .next skip) ∧
       (done = false → s.effFails c (rootEff s c) = false → exec (.rootInit tile pos) s = .next ran)) ∧
     (s.accepts tile pos (isRootOp 2) rootCheck = true →
       (done = true → exec (.rootTstep tile pos) s = .next skip) ∧
       (done = false → s.effFails c (rootEff s c) = false → exec (.rootTstep tile pos) s = .next ran)) ∧
     (s.accepts tile pos (isRootOp 3) rootCheck = true →
       (done = true → exec (.rootProd tile pos) s = .next skip) ∧
       (done = false → s.effFails c (rootEff s c) = false →
         exec (.rootProd tile pos) s = .next (if rtLast d then
           ran.rootMerge c 0x14 (mapBlock (fun i j v => f32Sub v (oneIf (rtDelta d i j)))
             (ran.blockRead c.site (rtC d) (rtCs d) (rtM d) (rtN d)))
         else ran))) ∧
     (s.accepts tile pos (isRootOp 4) rootCheck = true →
       (done = true → exec (.rootTest tile pos) s = .next skip) ∧
       (done = false → exec (.rootTest tile pos) s = .next ((s.rootTest (rtRec d)).addRun c.site (mkRun c .done))))) ∧
    (let r := s.shardRec (udShard c.d)
     let g := s.groupRec (shGroup r)
     let writes := s.updWrites c.d r g
     let rs := s.updTakes c.site c.d r g ++ writes
     let eng := tile / 256 * 16 + Sys2Proof.Config.freeNat s.freeCtr % 16
     let rd := s.readRanges (s.escalates c.d) (s.updTakes c.site c.d r g)
     s.accepts tile pos (fun d => dKind d == 8) updCheck = true → s.updSkewed c.d r g = false →
       (∀ p ∈ rs, s.anyGranule p.1 p.2 State.targetWaits = false ∧ s.anyGranule p.1 p.2 State.targetOff = false) →
       rd.2 = none → exec (.upd tile pos) s = .next (rd.1.updDone c r g eng rs writes))

/-- Commands of the synchronisation unit and couriers complete (R90, R98 to R104, R183 to R185). -/
def Obligations.SyncAndMoveComplete : Prop :=
  ∀ (s : State) (tile pos : Nat), let c := s.ctxOf tile pos
    let working := s.addRun c.site (mkRun c .working)
    (s.accepts tile pos (isSynOp 0) synCheck = true → exec (.synFence tile pos) s = .next working) ∧
    (s.accepts tile pos (isSynOp 1) synCheck = true →
      exec (.synSignal tile pos) s = .next ((s.addRun c.site (mkRun c .done)).send tile (snTarget tile c.d) (df c.d 18 14 11)
        (df c.d 20 15 0))) ∧
    (s.accepts tile pos (isSynOp 2) synCheck = true → s.isRunning c.site pos = false →
      exec (.synBarrier tile pos) s = .next (working.barrierArrive tile pos)) ∧
    (s.isRunning c.site pos = true → exec (.synBarrier tile pos) s = .next (s.barrierArrive tile pos)) ∧
    (s.accepts tile pos (isSynOp 3) synCheck = true → exec (.synDrain tile pos) s = .next working) ∧
    (∀ m, s.arrivals.find? (fun m => m.tile == tile) = some m → s.blockRuns (pSQR (barrierHome m.tile m.barId)) = true →
      exec (.barrierArrival tile) s =
        .next (({ s with arrivals := s.arrivals.eraseP fun x => x.tile == tile }).countArrival m)) ∧
    (∀ m target, s.live = true → s.signals.find? (fun m => m.sender == tile && m.target == target) = some m →
      exec (.signalArrival tile target) s = .next ((s.deliver m).drainCtl)) ∧
    (∀ e s1, s.movsAt tile pos = [] → s.accepts tile pos isMovKind State.movCheck = true →
      s.pickEngine (tile / 256) = some (e, s1) →
      exec (.mov tile pos) s = .next (((s1.addRun c.site (mkRun c .working)).newXfer
        { owner := ⟨c.site, pos, false⟩, tile := tile, d := c.d, part := s.tilePart tile, engine := e, issued := s.mt }).advance
          ⟨c.site, pos, false⟩)) ∧
    (∀ x l, s.movsAt tile pos = x :: l → exec (.mov tile pos) s = .next ((x :: l).foldl (fun a y => a.advance y.owner) s))

/-- Commands of a tile's sequencer complete (R83, R88, R89, R92, R93, R215 to R227). -/
def Obligations.SequencerCommandsComplete : Prop :=
  ∀ (s : State) (src : Src) (tile pos : Nat), let c := s.ctxOf tile pos; let site := s.siteOf tile; let t := s.tile site
    (∀ v, isSite tile = true → s.mayWrite src tile R.TIL_SEQ_TAIL = true →
      tailOk 256 (s.head site) (s.tail site) (v % 2 ^ 16) = true →
      exec (.tilSeqTailWrite src tile v) s = .next ((s.modTile site fun t => { t with
          stamps := ((List.range ((v % 2 ^ 16 + 2 ^ 16 - s.tail site) % 2 ^ 16)).map fun i => (s.tail site + i) % 2 ^ 16).foldl
            (fun m p => sset 0 m p (s.fld site R.TIL_MB 19 0)) t.stamps }).setReg site R.TIL_SEQ_TAIL (v % 2 ^ 16))) ∧
    (isSite tile = true → s.mayWrite src tile R.TIL_SEQ_CTL = true →
      (t.halted.isSome = true → exec (.resume src tile) s = .next (tilResume tile s)) ∧
      exec (.flush src tile) s = .next (s.discard tile site fun d _ => s.flushHit (s.reg site R.TIL_SEQ_FLUSH_TAG) d)) ∧
    (∀ r0 r, isTile tile = true → s.live = true → s.siteOn site = true → s.clocked site = true → s.frozen site = false →
      s.retiring site pos = some r0 → (s.settleMov site r0).retiring site pos = some r →
      (s.settleMov site r0).runOver site r = true → (s.settleMov site r0).runHalted site r = false →
      exec (.descriptorRetire tile pos) s = .next ((s.settleMov site r0).retireRun tile site r)) ∧
    (∀ p l, isTile tile = true → s.seqUp site = true → s.unretired site = p :: l → s.fld site R.TIL_SEQ_WDOG 23 0 ≠ 0 →
      s.isRunning site p = false → t.stallFor ≠ some p →
      exec (.seqStall tile) s = .next ((s.setTile site { t with stallFor := some p }).raise tile 3
        (dSeqId (s.descAt site p) + dKind (s.descAt site p) * 2 ^ 16) (dTag (s.descAt site p)))) ∧
    (s.inWindow tile pos = true → s.deferActive c = true → t.overflowed.contains pos = false → s.exciseHit c.d c.stamp = false →
      t.halted ≠ some ⟨pos, false, false⟩ → s.frozenSkip c = .no →
      (s.recAddrs c (s.parkMeaning c).recs).any s.targetWaits = false →
      lowest (s.commonReasons c ++ (s.parkMeaning c).reasons ++ s.recReasons c (s.recAddrs c (s.parkMeaning c).recs)) = none →
      t.parked.length < 64 →
      exec (.deferPark tile pos) s = .next (s.parkNow c)) ∧
    (isTile tile = true →
      (∀ r, (s.yieldedRun site).filter (s.canResume site) = some r →
        exec (.parkedIssue tile) s = .next (s.setTile site { t with running := t.running.map fun x =>
          if x.pos == r.pos && x.parked == r.parked then { x with st := .done } else x })) ∧
      (∀ p, (s.yieldedRun site).filter (s.canResume site) = none → s.canIssueParked site = some p →
        s.canStart tile site p.desc = true →
        exec (.parkedIssue tile) s = .next ((s.setTile site { t with parked := t.parked.drop 1 }).parkedStart
          ⟨tile, site, p.pos, p.desc, p.stamp, true⟩))) ∧
    (let s1 := s.yieldAll site
     isTile tile = true → s.seqUp site = true → t.running.any atChunkEnd = true → s.drainPending site = false →
     (s1.window site).any (fun p => unitsOf (dKind (s1.descAt site p)) % 2 == 1 && s1.canIssue site p) = true →
      exec (.yield tile) s = .next s1) ∧
    (isSite tile = true → s.mayWrite src tile R.TIL_BWD_CTL = true → exec (.excise src tile) s = .next (tilExcise tile s)) ∧
    (s.inWindow tile pos = true → s.frozenSkip c = .yes →
      exec (.frozenSkip tile pos) s = .next ((s.retireUnissued tile site pos).bump site R.TIL_BWD_SKIP 1)) ∧
    (s.inWindow tile pos = true → s.exciseHit c.d c.stamp = true →
      exec (.exciseMapDiscard tile pos) s = .next (s.retireUnissued tile site pos))

/-- Housekeeping commands of a tile complete (R82, R84, R106, R132, R136, R144, R498). -/
def Obligations.TileHousekeepingComplete : Prop :=
  ∀ (s : State) (src : Src) (tile : Nat), let site := s.siteOf tile; let t := s.tile site
    (isTile tile = true → s.live = true → s.siteOn site = true → bit (s.reg site R.TIL_CLK_CTL) 0 = false → t.running = [] →
      s.someIssue site = false → s.pwr.gov.filling.contains tile = false →
      exec (.idleClockStop tile) s = .next (s.setTile site { t with clkStopped := true })) ∧
    (isTile tile = true → s.live = true → s.siteOn site = true → t.clkStopped = true →
      (s.someIssue site = true ∨ bit (s.reg site R.TIL_CLK_CTL) 0 = true) → s.holding = false → s.wakeLeft (tile / 256) = true →
      s.firstInLine tile (tile / 256 * 256) (tile / 256 * 256 + 256) = true →
      exec (.computeClockRestart tile) s = .next (((s.admitted tile).takeWake (tile / 256)).withClock site)) ∧
    (∀ k err lt, s.tileAt k = some lt → isSite k = true → s.live = true → s.siteOn k = true →
      bit (s.reg k R.TIL_SRAM_STS) 0 = true → s.fld k R.TIL_SRAM_SCRUB 15 0 ≠ 0 →
      let n := (s.tile k).scrubLine % 65536
      let line := sramBase k / 64 + n
      let s1 := (s.lineUpset line err).modTile k fun t => { t with scrubLine := (n + 1) % 65536 }
      (s1.lineBad line = true → exec (.sramScrub k err) s = .next ((s1.orReg k R.TIL_SRAM_STS 2).raise lt 5 (n * 64) 0xFFFF)) ∧
      (s1.lineBad line = false → s1.lineCe line = true → exec (.sramScrub k err) s = .next (s1.ceOwn lt k line)) ∧
      (s1.lineBad line = false → s1.lineCe line = false → exec (.sramScrub k err) s = .next s1)) ∧
    (∀ k, isSite k = true → s.live = true → s.siteOn k = true → bit (s.reg k R.TIL_SRAM_STS) 0 = false →
      exec (.sramInitDone k) s =
        .next ((s.zeroRange (sramBase k) (sramBase k + 0x800000)).orReg k R.TIL_SRAM_STS 1)) ∧
    (∀ d col v, d < 6 → col < 16 → s.mayWrite src (pDST d) (R.DST_SPARE_MAP + 4 * col) = true →
      let old := s.spareEntry d col
      let valid := bit v 4 && decide (v % 16 < 12)
      let changed := [(bit old 4, old % 16), (valid, v % 16)].filterMap fun p =>
        if p.1 && decide (p.2 < 12) then some (d * 256 + p.2 * 16 + col) else none
      bit old 5 = false → s.siteBusy (d * 256 + 12 * 16 + col) = false →
      changed.any (fun t => s.siteBusy t || s.signals.any fun m => m.target == t) = false →
      exec (.spareMapWrite src d col v) s =
        .next ((s.setReg (pDST d) (R.DST_SPARE_MAP + 4 * col) (v % 16 + 16 * b2n valid)).invalStats (d * 256 + 12 * 16 + col))) ∧
    (∀ v, isTile tile = true → s.mayWrite src tile R.TIL_ACT_LOAD = true → t.actLoad = none → bit v 31 = true →
      exec (.actLoad src tile v) s = .next ((s.setReg site R.TIL_ACT_LOAD (v % 2 ^ 25)).modTile site fun t =>
        { t with actLoad := some (bits v 19 16, v % 2 ^ 25) })) ∧
    (∀ k v, isTile tile = true → t.actLoad = some (k, v) → s.live = true → s.siteOn site = true → s.vchRunning site = false →
      (bit v 24 = true → exec (.actLoadDone tile) s =
        .next ((s.putSlot site k ⟨true, (List.range actBytes).map (romImage (bits v 23 20))⟩).setFld site R.TIL_ACT_STS 17 17 0)) ∧
      (let a := v % 2 ^ 16 * 64
       let img := s.bytes (sramBase site + a) actBytes
       let ls := regionLines site [(a, actBytes)]
       bit v 24 = false → outside a actBytes = false → ls.any s.lineBad = false → imageGood img = true →
        exec (.actLoadDone tile) s =
          .next (((s.ceOwnAll tile site ls).putSlot site k ⟨true, img⟩).setFld site R.TIL_ACT_STS 17 17 0))) ∧
    (isTile tile = true → s.mayWrite src tile R.TIL_ROW_CTL = true →
      exec (.inval src tile) s = .next ((s.modTile site fun t => { t with stats := [] }).setReg site R.TIL_STAT_EPOCH
        ((s.reg site R.TIL_STAT_EPOCH + 1) % 2 ^ 16)))

/-- Commands of the KV page store complete (R186 to R194, R212, R213). -/
def Obligations.KvCommandsComplete : Prop :=
  ∀ (s : State) (src : Src) (n : Nat),
    (∀ v, n < 8 → s.mayWrite src pKVS (poolReg n R.KVS_POOL_CTL) = true →
      bit v 0 = true → bit (s.kvReg (poolReg n R.KVS_POOL_CTL)) 0 = false →
      let a := s.reg64 pKVS (poolReg n R.KVS_POOL_META_LO)
      let s1 := s.zeroRange (s.key a) (s.key a + 8 * s.poolCount n)
      exec (.poolEnable src n v) s =
        .next ((s1.setPool n { s1.pool n with free := [], reserve := [], initBusy := true }).setReg pKVS (poolReg n R.KVS_POOL_CTL) 1)) ∧
    (∀ v, n < 8 → s.mayWrite src pKVS (poolReg n R.KVS_POOL_CTL) = true → bit v 0 = false →
      exec (.poolEnable src n v) s = .next ((s.setPool n {}).setReg pKVS (poolReg n R.KVS_POOL_CTL) 0)) ∧
    ((s.pool n).initBusy = true → s.blockRuns pKVS = true →
      exec (.poolInitDone n) s = .next (((s.setPool n { s.pool n with initBusy := false }).pushAll n
        ((List.range (s.poolCount n)).map (s.poolFirst n + ·))).orReg pKVS (poolReg n R.KVS_POOL_CTL) 2)) ∧
    (n < 8 → s.mayRead src pKVS (poolReg n R.KVS_POOL_FREE) = true →
      exec (.poolFreeRead src n) s = .next (poolFreeLatch n s) ∧ (poolFreeLatch n s).answer = [(s.pool n).free.length]) ∧
    (∀ w, s.kvWaiters[n]? = some w → s.blockRuns pKVS = true → w.since + s.kvReg R.KVS_ALLOC_WAIT % 2 ^ 16 * 1000 ≤ s.mt →
      exec (.allocWaitExpire n) s = .next (s.allocFailed w)) ∧
    (∀ v, s.mayWrite src pKVS R.KVS_CMD_TAIL = true →
      tailOk 256 (s.kvReg R.KVS_CMD_HEAD % 2 ^ 16) (s.kvReg R.KVS_CMD_TAIL % 2 ^ 16) (v % 2 ^ 16) = true →
      exec (.kvsCmdTailWrite src v) s = .next (s.setReg pKVS R.KVS_CMD_TAIL (v % 2 ^ 16))) ∧
    (∀ k, s.kvCommand = some k → let a := kcCtx k; let b := kcCtx2 k
      let js := (List.range (kcNpg k)).map (kcPg0 k + ·)
      (kcOp k = 1 → s.cxValid a = true → s.cxValid b = true → s.sameShape a b = true → (s.cxTp a).isSome = true →
        kcPg0 k + kcNpg k ≤ s.cxStride a → kcPg0 k + kcNpg k ≤ s.cxStride b →
        let es := (s.trackPages a js).map fun p => s.entry a p.1 p.2
        (s.trackPages a js).any (fun p => entryHas (s.entry b p.1 p.2)) = false →
        (es.filter entryHas).any (fun e => s.refcnt (s.cxPool a) (entryPage e) = 65535) = false →
        s.mayTake (s.cxPool a) (es.filter entryHas).length = true →
        exec .sharePages s = .next (kvShareGo k s)) ∧
      (kcOp k = 2 → s.cxValid a = true → kcPg0 k + kcNpg k ≤ s.cxStride a →
        exec .freePages s = .next ((s.clearEntries a js).kvFinish k true)) ∧
      (∀ tp, s.cxTp a = some tp → s.cxValid a = true →
        (kcOp k = 3 → kcPg0 k ≤ s.cxLen a → let j0 := (kcPg0 k + tp - 1) / tp
          exec .truncate s = .next (((s.setLen a (kcPg0 k)).clearEntries a
            ((List.range (s.cxStride a - j0)).map (j0 + ·))).kvFinish k true)) ∧
        (kcOp k = 5 → kcPg0 k ≤ s.cxStride a * tp → exec .setLen s = .next ((s.setLen a (kcPg0 k)).kvFinish k true))) ∧
      (kcOp k = 4 → s.cxValid a = true → let s1 := s.clearEntries a (List.range (s.cxStride a))
        exec .freeCtx s = .next ((s1.setCx a 0 1 (setBit (s1.cx a 0 1) 0 false)).kvFinish k true)) ∧
      (kcOp k = 6 → s.hasReqs .ring = false → s.cxValid a = true → (s.cxTp a).isSome = true →
        kcPg0 k + kcNpg k ≤ s.cxStride a → (∀ p ∈ s.ringPages k, s.rangeWaits p.2.2 65536 = false ∧ s.firstOff p.2.2 65536 = none) →
        (s.ringRead (s.ringPages k)).2 = false →
        exec .ringSend s = .next (ringGo k (s.ringPages k) (s.ringRead (s.ringPages k)).1)) ∧
      (kcOp k = 6 → (s.reqs.any fun r => r.owner == .ring && !r.write) = true →
        exec .ringSendComplete s = .next ((s.dropReqs .ring).kvFinish k true))) ∧
    (∀ j, n < 8 → s.kvsRuns = true → s.poolReady n = true → bit (s.kvReg R.KVS_CTL) 1 = true →
      (s.pool n).free.length ≤ s.kvReg R.KVS_EVICT_LOW % 2 ^ 26 → (s.pool n).free.length < s.kvReg R.KVS_EVICT_HIGH % 2 ^ 26 →
      (s.pool n).evicting = false →
      let cs := (List.range 16384).filter (s.evictable n)
      let c := (cs.find? fun c => decide ((s.pool n).cursor ≤ c)).getD (cs.headD 0)
      cs ≠ [] → s.victim n c = some j →
      exec (.eviction n) s = .next ((s.evictPage n c j).setPool n
        { (s.evictPage n c j).pool n with evicting := true, cursor := c + 1, idle := 0 }))

/-- Commands of the dispatcher and of the step controller complete (R204, R214, R279 to R299). -/
def Obligations.StepCommandsComplete : Prop :=
  ∀ (s : State) (src : Src), let n := s.openStep; let st := s.step
    (let cnt := s.reg pHDD R.HDD_ITEM_COUNT % 2 ^ 17
     s.mayWrite src pHDD R.HDD_CTL = true → s.blockRuns pHDD = true → s.dispatch = none → cnt ≠ 0 →
      exec (.dispatch src) s = .next (hddStart cnt s)) ∧
    (∀ p, s.dispatch = some p →
      (s.blockRuns pHDD = true →
        let r := s.hddEmit [] p.todo
        (r.2 = [] → exec .dispatchDone s = .next (({ r.1 with dispatch := none }.setFld pHDD R.HDD_STS 0 0 0).notice pHDD 0)) ∧
        (r.2 ≠ [] → exec .dispatchDone s = .next { r.1 with dispatch := some { p with todo := r.2 } })) ∧
      (s.mayWrite src pHDD R.HDD_CTL = true → exec (.dispatchAbort src) s = .next { s with dispatch := some ⟨[], true⟩ })) ∧
    (s.mayWrite src pSTP R.STP_CTL = true →
      (s.stpRuns = true → s.phase = phIdle → exec (.start src) s = .next ((stpCtlWrite (s.stpKeep ||| 2) s).drainCtl)) ∧
      (s.stpEn = true → s.phase ≠ phIdle → s.phase ≠ phCommit →
        exec (.squash src) s = .next ((stpCtlWrite (s.stpKeep ||| 4) s).drainCtl)) ∧
      (s.stpEn = true → exec (.stop src) s = .next (stpCtlWrite (s.stpKeep ||| 8) s)) ∧
      (s.stpEn = true → exec (.stpEnClear src) s = .next ((stpCtlWrite (setBit s.stpKeep 0 false) s).drainCtl))) ∧
    (s.stpRuns = true →
      (s.phase = phFwd → st.b * st.tgtFwd ≤ s.stpEvc n 1 → s.decided = st.b → exec .phaseEnd s = .next (s.setPhase phBwdI)) ∧
      (s.phase = phBwdI → s.kept * st.tgtBwdi ≤ s.stpEvc n 2 → exec .phaseEnd s = .next (s.setPhase phBwdW)) ∧
      (s.phase = phBwdW → s.kept * st.tgtBwdw + st.tgtGather ≤ s.stpEvc n 3 → exec .phaseEnd s = .next (s.setPhase phReduce)) ∧
      (s.phase = phReduce → st.tgtRed ≤ s.stpEvc n 4 → s.updPend = false → s.checkReach = none →
        exec .checkOpen s = .next (s.openCheck n)) ∧
      (s.phase = phCheck → s.voting = false → st.commitHeld = false → s.tagDrained n = true → s.ckpReading = false →
        exec .localVerdict s = .next ((s.giveVerdict n).drainCtl)) ∧
      (∀ rec, s.phase = phCheck → s.voting = true →
        (s.voteEn = false → st.localBits ≠ 0 → exec (.voteResult rec) s = .next ((s.verdictSquash st.localBits).drainCtl)) ∧
        (s.voteEn = false → st.localBits = 0 → exec (.voteResult rec) s = .next ((s.verdictCommit s.dLoc st.sloc).drainCtl)) ∧
        (s.voteEn = true → rec.stepTag = n → rec.attempt = s.attempt → s.isCoord = true → s.gate.formed = some rec →
          rec.reasons = 0 → exec (.voteResult rec) s = .next (((s.ctlDown (.voteResult rec)).verdictCommit rec.d rec.sloc).drainCtl)) ∧
        (s.voteEn = true → rec.stepTag = n → rec.attempt = s.attempt → s.isCoord = false → rec.reasons = 0 →
          exec (.voteResult rec) s = .next (((s.ctlDown (.voteResult rec)).verdictCommit rec.d rec.sloc).drainCtl))) ∧
      (let us := s.stpReg R.STP_VOTE_WAIT % 2 ^ 16
       s.phase = phCheck → s.voting = true → s.voteEn = true → us ≠ 0 → st.verdictAt + us * 1000 ≤ s.mt →
        exec .voteTimeout s = .next (((s.raise pSTP 9 n).cause vbVoteTimeout).drainCtl))) ∧
    (s.blockRuns pSTP = true →
      (s.updPend = true → st.updTgt ≤ s.stpEvc n 5 →
        exec .updateComplete s = .next (((s.setGmv (n + 1) false).setStsBit 5 false).setReg pSTP (R.STP_EVC + 4 * stpCtr n 5) 0)) ∧
      (s.flushDone = true → s.phase = phSquash → exec .flushComplete s = .next (s.finishSquash.drainCtl)) ∧
      (s.flushDone = true → s.phase = phRestage → exec .flushComplete s = .next (s.finishRestage.drainCtl)) ∧
      (s.phase = phCommit → s.stagedHeld ((n + 1) % 2 ^ 32) = false → s.commitStop = none →
        s.rootsReady = true → exec .commit s = .next (s.doCommit.drainCtl)) ∧
      (s.phase = phCheck → st.commitHeld = true → s.fatalPend = false →
        exec .commit s = .next ((s.setPhase phCommit).modStep fun x => { x with commitHeld := false }).tryCommit))

/-- Conservation of a pool's pages (R7, R184). -/
def Obligations.PoolConserved : Prop :=
  ∀ (s : State) (n : Nat), s.canonical = true → n < 8 → s.poolPlain n = true →
    (s.poolSound n = true →
      (∀ t p, s.allocPage n = some (t, p) → t.poolSound n = true ∧ p ∈ s.poolPages n ∧ s.refcnt n p = 0 ∧ t.refcnt n p = 1 ∧
        (t.pool n).free.length + 1 = (s.pool n).free.length) ∧
      (∀ p, p ∈ s.poolPages n → 1 ≤ s.refcnt n p →
        (s.refcnt n p < 65535 → (s.pool n).free ≠ [] →
          (s.addRef n p).poolSound n = true ∧ (s.addRef n p).refcnt n p = s.refcnt n p + 1 ∧
          ∃ t, s.pin n p = some t ∧ t.poolSound n = true ∧ t.refcnt n p = s.refcnt n p + 1) ∧
        (s.dropRef n p).poolSound n = true ∧ (s.dropRef n p).refcnt n p + 1 = s.refcnt n p ∧
        (s.unpin n p).poolSound n = true ∧ (s.unpin n p).refcnt n p + 1 = s.refcnt n p)) ∧
    (∀ t, (s.pool n).initBusy = true → s.blockRuns pKVS = true → (s.pool n).free = [] → (s.pool n).reserve = [] →
      (∀ p ∈ s.poolPages n, s.pageMeta n p = 0) → exec (.poolInitDone n) s = .next t →
      t.poolSound n = true ∧ (t.pool n).free.length = t.poolCount n ∧ bit (t.kvReg (poolReg n R.KVS_POOL_CTL)) 1 = true)

/-- Commands on memory complete (R313 to R318). -/
def Obligations.MemoryCommandsComplete : Prop :=
  ∀ (s : State) (src : Src),
    (∀ addr len err, s.inStore addr len = true → s.storeServes addr len = true →
      let k := s.key (s.localAddr addr)
      let r := (s.lineUpset (k / 64) err).readAllLines 0xFFFF false (lineAddrs addr len)
      exec (.memoryRead addr len err) s = .next (r.1.reply (r.1.bytes k len ++ [b2n r.2]))) ∧
    (∀ addr data, s.inStore addr data.length = true → s.storeServes addr data.length = true →
      let k := s.key (s.localAddr addr)
      exec (.memoryWrite addr data false) s = .next (s.store k data) ∧
      exec (.memoryWrite addr data true) s = .next ((touchedLines k data.length).foldl State.poisonLine (s.store k data))) ∧
    (∀ addr v, let a := addr / 4 * 4; let r := s.lineRead a 0xFFFF false
      s.inStore a 4 = true → s.storeServes a 4 = true → r.2 = false →
      exec (.fmax addr v) s = .next (r.1.devPut a 4 (fmax32 (r.1.devLe a 4) (v % 2 ^ 32))) ∧
      exec (.uadd addr v) s = .next (r.1.devPut a 4 (uadd32 (r.1.devLe a 4) (v % 2 ^ 32))) ∧
      exec (.or32 addr v) s = .next (r.1.devPut a 4 (r.1.devLe a 4 ||| v % 2 ^ 32))) ∧
    (∀ d ch err, d < 6 → ch < 128 → s.blockRuns (pNMC d) = true → bit (s.reg (pNMC d) R.NMC_CTL) 0 = true →
      bit (s.reg (pNMC d) R.NMC_STS) 0 = true →
      let n := sget 0 s.scrubPos (pNMC d * 128 + ch)
      let a := nearLine d ch n
      let s1 := { s with scrubPos := sset 0 s.scrubPos (pNMC d * 128 + ch) ((n + 1) % 2 ^ 24) }
      (s1.poison.contains (a / 64) = true → exec (.memScrub (pNMC d) ch err) s = .next s1) ∧
      (s1.poison.contains (a / 64) = false →
        exec (.memScrub (pNMC d) ch err) s = .next ((s1.lineUpset (a / 64) err).lineRead a 0xFFFF false).1)) ∧
    (∀ c err, c < 32 → s.blockRuns (pFMC c) = true → bit (s.reg (pFMC c) R.NMC_CTL) 0 = true →
      bit (s.reg (pFMC c) R.NMC_STS) 0 = true →
      let n := sget 0 s.scrubPos (pFMC c * 128)
      let a := farLine c n
      let s1 := { s with scrubPos := sset 0 s.scrubPos (pFMC c * 128) ((n + 1) % 2 ^ 30) }
      s1.poison.contains (a / 64) = false →
        exec (.memScrub (pFMC c) 0 err) s = .next ((s1.lineUpset (a / 64) err).lineRead a 0xFFFF false).1) ∧
    (∀ d, d < 6 → s.live = true → s.pageOn (pNMC d) = true → bit (s.reg (pNMC d) R.NMC_STS) 4 = true →
      exec (.nearInitDone d) s = .next ((s.zeroRange (d * 2 ^ 37) ((d + 1) * 2 ^ 37)).fillDone (pNMC d))) ∧
    (∀ c, c < 32 → s.mayWrite src (pFMC c) R.NMC_CTL = true →
      exec (.zero src c) s = .next (nmcCtlWrite (pFMC c) (s.reg (pFMC c) R.NMC_CTL + 4) s)) ∧
    (∀ c, c < 32 → s.live = true → s.pageOn (pFMC c) = true → bit (s.reg (pFMC c) R.NMC_STS) 4 = true →
      exec (.zeroFillDone c) s = .next ((s.zeroChannel c).fillDone (pFMC c)))

/-- Commands of the crossing arbiters complete (R319 to R328). -/
def Obligations.CrossingCommandsComplete : Prop :=
  ∀ (s : State) (src : Src) (i server : Nat), i < 44 →
    (server < crsServers i → s.blockRuns (pCRS i) = true →
      let s1 := if crsSelfEnding i then s.endGrant i server else s
      (s1.freeServers i).contains server = true → exec (.arbitrationRound i server) s = .next (s1.crsRound i server).1) ∧
    (∀ g, (s.crs i).grants.find? (fun g => g.1 == server) = some (server, g) → s.blockRuns (pCRS i) = true →
      let us := s.reg (pCRS i) R.CRS_WDOG % 2 ^ 24
      us ≠ 0 → g.start + us * 1000 ≤ s.mt →
      exec (.crossingWdog i server) s = .next
        ((((s.endGrant i server).resetHolder i server g).bump (pCRS i) R.CRS_WDOG_COUNT 1).raise (pCRS i) 0
          (g.requester % 2 ^ 16 + server % 2 ^ 8 * 2 ^ 16) g.start)) ∧
    (s.blockRuns (pCRS i) = true → exec (.quotaWindowEnd i) s = .next (s.rollWindow i)) ∧
    (∀ v, s.mayWrite src (pCRS i) R.CRS_QUOTA = true →
      exec (.crsQuotaWrite src i v) s =
        .next ((s.setReg (pCRS i) R.CRS_QUOTA v).setCrs i { s.crs i with winStart := s.mt, urgents := [] }))

/-- Register, event and error-log commands complete (R429 to R435, R446 to R453). -/
def Obligations.RegisterCommandsComplete : Prop :=
  ∀ (s : State) (src : Src) (page : Nat),
    (∀ off v, off % 4 = 0 → off < 0x1000 → v < 2 ^ 32 → prtGoverned page off v = none → noRegister page off = false →
      ¬ (page = pSEC ∧ (off = R.SEC_KEY_CMD ∨ off = R.SEC_LINK_CMD)) → (∀ i, pageBlk page ≠ some (.dbg, i)) →
      s.mayWrite src page off = true → exec (.registerWrite src page off 4 v) s = .next (regWrite src page off v s)) ∧
    (∀ off, off % 4 = 0 → off < 0x1000 → s.mayRead src page off = true →
      let t := regRead src page off (s.reply [])
      exec (.rcRead src page off 4) s = .next (t.reply (t.answer.map (· % 2 ^ 32)))) ∧
    (∀ r l, s.log = r :: l → s.mayWrite src pERR R.ERR_LOG_POP = true → r.seq < 2 ^ 32 →
      exec (.errLogPop src r.seq) s = .next { s with log := l, logOverwrote := false }) ∧
    (s.mayRead src pERR R.ERR_LOG_DATA = true →
      exec (.logData0Read src) s = .next (({ s with logLatch := s.logWords.drop 1 }).reply [s.logWords.getD 0 0])) ∧
    (s.mayWrite src pERR R.ERR_FATAL = true → exec (.fatalClear src) s = .next (s.setFld pERR R.ERR_FATAL 0 0 0)) ∧
    (s.mayRead src pTIM R.TIM_MT_LO = true →
      exec (.mtLoRead src) s = .next ((s.setReg pTIM R.TIM_MT_HI (s.mt / 2 ^ 32)).reply [s.mt % 2 ^ 32])) ∧
    (isBar2 page = false → let cp := s.canon page
      (s.mayWrite src page R.ERR_FIRST = true → (∀ i, pageBlk page ≠ some (.dbg, i)) →
        exec (.errFirstRearm src page) s = .next (s.setReg cp R.ERR_FIRST (setBit (s.reg cp R.ERR_FIRST) 31 false))) ∧
      (∀ v, s.mayWrite src page R.EVT_FORCE = true →
        exec (.evtForceWrite src page v) s = .next (evtForceWrite page v (s.touchDebug page))) ∧
      (∀ v, s.mayWrite src page R.EVT_EN = true →
        exec (.evtEnWrite src page v) s = .next (evtEnWrite page v (s.touchDebug page))) ∧
      (∀ v, s.mayWrite src page R.PAGE_LOCK = true → (∀ i, pageBlk page ≠ some (.dbg, i)) →
        (bit (s.reg cp R.PAGE_LOCK) 31 = false → bit v 31 = true →
          exec (.pageLockWrite src page v) s = .next (s.setReg cp R.PAGE_LOCK (v % 2 ^ 16 + 2 ^ 31))) ∧
        (bit (s.reg cp R.PAGE_LOCK) 31 = true → bit v 31 = false → v % 2 ^ 16 = s.reg cp R.PAGE_LOCK % 2 ^ 16 →
          exec (.pageLockWrite src page v) s = .next (s.setReg cp R.PAGE_LOCK 0))) ∧
      (s.mayWrite src page R.PAGE_CTL = true →
        exec (.srst src page) s =
          .next (pageCtlWrite page ((s.touchDebug page).reg ((s.touchDebug page).canon page) R.PAGE_CTL + 2) (s.touchDebug page)))) ∧
    (s.aoOn = true → exec (.srstDone page) s = .next { s with srstBusy := s.srstBusy.filter fun p => p != s.canon page })

/-- Commands of ingest complete (R331 to R363, R371, R373). -/
def Obligations.IngestCommandsComplete : Prop :=
  ∀ (s : State) (src : Src) (k : Nat), k < 256 → let p := pINGS k; let x := s.str k
    (s.mayWrite src p R.ING_STR_CTL = true → ∀ v,
      (bit v 0 = false → exec (.streamEnable src k v) s =
        .next ((s.setReg p R.ING_STR_CTL (v % 8)).setFld p R.ING_STR_STS 0 0 0)) ∧
      (bit v 0 = true → (s.strEn k = true ∨ s.ringOk k = true) →
        exec (.streamEnable src k v) s = .next (s.setReg p R.ING_STR_CTL (v % 8)))) ∧
    (∀ v, let h := s.sreg k R.ING_STR_HEAD; let d := (v % 2 ^ 32 + 2 ^ 32 - h) % 2 ^ 32
      s.mayWrite src p R.ING_STR_TAIL = true → d ≤ s.ringUnits k → (s.sreg k R.ING_STR_TAIL + 2 ^ 32 - h) % 2 ^ 32 ≤ d →
      exec (.ingStrTailWrite src k v) s =
        .next ((s.setReg p R.ING_STR_TAIL (v % 2 ^ 32)).modStr k fun x => { x with dryAt := none })) ∧
    (∀ v, s.mayWrite src p R.ING_STR_CURSOR = true → s.strEn k = false → x.pending = 0 →
      exec (.cursorWrite src k v) s = .next ((s.setReg p R.ING_STR_CURSOR v).setReg p R.ING_STR_HEAD v)) ∧
    (let c := s.sreg k R.ING_STR_CURSOR
     let a := s.unitAddr k c
     let r := s.devRead a 64 0xFFFF
     let len := leNat (r.2.1.take 4)
     s.mayTakeSample k = true → s.maps (s.pagePart p) a 64 false = true → s.targetOff a = false → s.targetWaits a = false →
     r.2.2 = none → len ≠ 0 → len ≤ (s.sreg k R.ING_STR_TAIL + 2 ^ 32 - c) % 2 ^ 32 → len ≤ s.ringUnits k - c % s.ringUnits k →
     r.2.1.getD 4 0 = 1 →
      let y := r.1.str k
      let m : Sample := { take := y.nextTake, handle := y.nextHandle, unit := c, len := len, recAddr := a }
      exec (.takeSample k) s = .next (((r.1.setReg p R.ING_STR_CURSOR (c + len)).setStr k
        { y with nextTake := y.nextTake + 1, nextHandle := y.nextHandle + 1, taken := y.taken + 1, pending := y.pending + 1,
                 samples := y.samples ++ [m], dryAt := none }).beginSample k m true)) ∧
    (s.strDry k = true → (∀ t, x.dryAt = some t → t + max 1 (s.reg pING R.ING_DRY_US % 2 ^ 24) * 1000 ≤ s.mt) →
      exec (.ringDry k) s = .next ((s.notice p 9).modStr k fun x => { x with dryAt := some s.mt })) ∧
    (∀ kind core h i g, kind < 3 → s.blockRuns (pMDE kind) = true → s.coreOwner kind core = some (k, h, i, g) →
      (let b := s.sreg k R.ING_STR_BUDGET % 2 ^ 24
       b ≠ 0 → g.start + b * 1000 ≤ s.mt → exec (.decodeTimeout kind core) s =
        .next ((((s.endGrant (40 + kind) core).bump (pMDE kind) R.MDE_ABANDONED 1).raise (pMDE kind) 0 core).modSample k h
          fun t => { t with fail := some (t.fail.getD 1) })) ∧
      (∀ result, exec (.decodeDone kind core result) s = .next (s.decodeStore kind core result k h i))) ∧
    (∀ take m, s.sampleOf k take = some m →
      (∀ r, m.fail = some r → s.ingRuns k = true → s.checkWaits k m.handle = false →
        exec (.sampleFail k take) s = .next (s.sampleFailed k m r)) ∧
      (s.ingRuns k = true → m.fail = none → m.bucket = none → s.checkWaits k m.handle = false →
        (m.parts.any fun q => q.codec == 1 && !q.done) = false →
        exec (.bucketAssign k take) s = .next (s.assignBucket k m)) ∧
      (∀ r idx q b frames, x.req = some r → m.parts[idx]? = some q → s.bucket r.bucket = some b →
        let sl := s.slotRec q.slot
        let a := s.augOf m idx q
        let per := max 1 (bandsPerTube sl a)
        let whole := a.q % 2 == 1 || !a.theta.isZero
        let kept := ((placesOf r.rows).filter fun o => o.take == take && !o.void && o.part == idx).length
        let py := q.band % per
        let todo := (List.range (min (s.bandsKept m idx q kept - q.band) (if whole then per - py else 1))).map (py + ·)
        q.codec / 16 = 2 → m.fail = none → r.closed = true → m.batch.isSome = true → frames.length = slTube sl →
        s.partGranted k m.handle idx q = true → todo ≠ [] →
        exec (.bandWrite k take idx frames) s = .next (s.writeBand k take idx frames m r b sl a todo))) ∧
    (∀ e h i l m q, e < 8 → s.blockRuns pTOK = true → bit (s.reg pTOK R.TOK_CTL) 0 = true → s.tokQueue = (k, h, i) :: l →
      let s1 := { s with tokQueue := l }
      s1.sampleBy k h = some m → m.fail = none → m.parts[i]? = some q →
      exec (.tokenize e) s = .next (s1.tokenizePart k h i q)) ∧
    (∀ v, s.mayWrite src p R.ING_STR_REQ_TAIL = true →
      tailOk 64 (s.sreg k R.ING_STR_REQ_HEAD % 2 ^ 16) (s.sreg k R.ING_STR_REQ_TAIL % 2 ^ 16) (v % 2 ^ 16) = true →
      exec (.ingStrReqTailWrite src k v) s = .next (s.setReg p R.ING_STR_REQ_TAIL (v % 2 ^ 16))) ∧
    (s.ingRuns k = true →
      (x.req.isSome = true → exec (.batchRequest k) s = .next (s.fillReq k)) ∧
      (let h := s.sreg k R.ING_STR_REQ_HEAD % 2 ^ 16
       x.req = none → h ≠ s.sreg k R.ING_STR_REQ_TAIL % 2 ^ 16 →
       s.reachable (s.pagePart p) (s.reg64 p R.ING_STR_REQ_BASE_LO + 32 * (h % 64)) 32 = true →
        exec (.batchRequest k) s = .next (s.takeRequest k h)) ∧
      (∀ r, x.req = some r →
        (∀ t, r.limitSince = some t → t + max 1 (s.reg pING R.ING_FILL_WAIT % 2 ^ 24) * 1000 ≤ s.mt →
          exec (.fillWaitExpire k) s = .next ((s.closeReq k).notice p 10)) ∧
        (r.closed = true → (r.rows.all fun l => l.all (s.entryVisible k)) = true →
          exec (.requestComplete k) s = .next (((s.bump p R.ING_STR_PAD_ROWS (r.rows.filter (·.isEmpty)).length).reqSignals k
            r.flags r.sig).reqDone k)))) ∧
    (s.mayRead src p R.ING_STR_TAKEN_LO = true → exec (.ledgerLatchRead src k) s = .next (ledgerLatch k s)) ∧
    (∀ d v, d < 4 → let off := R.TOK_DICT_CTL + 0x10 * d
      (s.mayWrite src pTOK off = true → bit v 0 = false → exec (.dictEnable src d v) s = .next (s.setReg pTOK off 0)) ∧
      (s.mayWrite src pTOK off = true → bit v 0 = true → bit (s.reg pTOK off) 0 = false →
        exec (.dictEnable src d v) s = .next (s.setReg pTOK off 5)) ∧
      (s.blockRuns pTOK = true → bit (s.reg pTOK off) 2 = true →
        (s.dictGood d = true → exec (.dictCheckDone d) s = .next (s.setReg pTOK off 3)) ∧
        (s.dictGood d = false → exec (.dictCheckDone d) s = .next ((s.setReg pTOK off 1).raise pTOK 0 d))))

/-- Commands of the export encoders complete (R364 to R370, R374). -/
def Obligations.ExportCommandsComplete : Prop :=
  ∀ (s : State) (src : Src) (core : Nat), core < 4 → let p := pEXE core; let e := s.enc core
    (∀ v, s.mayWrite src p R.EXE_JOB_TAIL = true →
      tailOk 16 (s.exeHead core) (s.reg p R.EXE_JOB_TAIL % 2 ^ 16) (v % 2 ^ 16) = true →
      exec (.exeJobTailWrite src core v) s = .next (s.setReg p R.EXE_JOB_TAIL (v % 2 ^ 16))) ∧
    (let a := s.reg64 p R.EXE_JOB_BASE_LO + 64 * (s.exeHead core % 16)
     let w := s.devLe a 64
     s.blockRuns p = true → bit (s.reg p R.EXE_CTL) 0 = true → e.job = none →
     s.exeHead core ≠ s.reg p R.EXE_JOB_TAIL % 2 ^ 16 → s.reachable (s.pagePart p) a 64 = true → ejOk w = true →
      let j : EncJob := { words := w, qpI := ejQpInit w, qpP := ejQpInit w }
      exec (.encodeJob core) s = .next (s.setEnc core { e with job := some j.startFrame })) ∧
    (∀ j payload rowBits, e.job = some j → s.blockRuns p = true → e.held = [] →
      exec (.sliceEncoded core payload rowBits) s = .next (s.sliceOut core payload rowBits j)) ∧
    (∀ v, let h := s.reg p R.EXE_OUT_HEAD
      s.mayWrite src p R.EXE_OUT_HEAD = true →
      (v % 2 ^ 32 + 2 ^ 32 - h) % 2 ^ 32 ≤ (s.reg p R.EXE_OUT_TAIL + 2 ^ 32 - h) % 2 ^ 32 →
      exec (.outHeadWrite src core v) s = .next ((s.setReg p R.EXE_OUT_HEAD v).outFlush core)) ∧
    (s.mayWrite src p R.EXE_CTL = true →
      exec (.exeAbort src core) s = .next ((s.setReg p R.EXE_CTL (s.reg p R.EXE_CTL % 2)).setEnc core
        { e with job := e.job.map fun j => { j with abort := true } }))

/-- Commands of the links complete (R375 to R385). -/
def Obligations.LinkCommandsComplete : Prop :=
  ∀ (s : State) (src : Src) (g k : Nat), let off := lnkReg k R.GAT_LNK_STS; let l := s.link g k
    (∀ v, isLink g k = true → s.mayWrite src (pGAT g) (lnkReg k R.GAT_LNK_CTL) = true →
      exec (.linkEnWrite src g k v) s = .next (lnkCtlWrite g k v s) ∧
      exec (.retrainWrite src g k v) s = .next (lnkCtlWrite g k (v ||| 4) s)) ∧
    (s.inState g k lsDetect = true → exec (.peerDetect g k) s = .next (s.toLstate g k lsTrain)) ∧
    (s.inState g k lsTrain = true → exec (.trainConverge g k) s = .next (s.toLstate g k lsAlign)) ∧
    (∀ lanes x2, s.inState g k lsAlign = true → s.width g lanes = some x2 →
      let s1 := (s.toLstate g k lsIdent).modLink g k fun l => { l with x2 := x2 }
      exec (.laneAlign g k lanes) s = .next { s1 with out := s1.out ++ [.linkCtl g k (.ident (s1.ownIdent g k))] }) ∧
    (∀ ident, s.inState g k lsIdent = true →
      (s.identOk g k ident = true →
        let s1 := (s.setLink g k { since := s.mt, retrains := l.retrains, x2 := l.x2 }).toLstate g k lsActive
        let s2 := (s1.setFld (pGAT g) off 26 3
          (b2n l.x2 + 2 * b2n ident.enc + (ident.peer % 2 ^ 14) * 2 ^ 3 + (ident.link % 2 ^ 7) * 2 ^ 17)).notice (pGAT g) 0 k
        exec (.identFlit g k ident) s = .next (if l.x2 then s2.raise (pGAT g) 2 k else s2).unstrand) ∧
      (s.identOk g k ident = false → exec (.identFlit g k ident) s = .next ((s.raise (pGAT g) 3 k).failAttempt g k))) ∧
    (s.inState g k (s.lstate g k) = true → 1 ≤ s.lstate g k → s.lstate g k ≤ 4 → l.since + 100000000 ≤ s.mt →
      exec (.linkStateTimeout g k) s = .next (s.failAttempt g k)) ∧
    (isLink g k = true → s.gateRuns g = true → l.waiting = true → l.since + 10000000 ≤ s.mt →
      exec (.linkRestartDelay g k) s = .next (s.toLstate g k lsDetect)) ∧
    (s.inState g k lsActive = true →
      (∀ flit, exec (.flitReceive g k flit) s = .next (s.takeFlit g k flit)) ∧
      (∀ seq, exec (.nakReceive g k seq) s = .next ((s.nak g k (seq % 4096)).drain g k)) ∧
      exec (.codewordAlignmentLoss g k) s = .next (s.startRetrain g k) ∧
      (let wait := if bit (s.reg (pGAT g) off) 3 then 164 else 82
       let n := 16 - l.txSeg
       let s1 := (s.countSent g k n).setLink g k (l.putFlits 0 s.mt true n)
       s.encOn g k = true → l.txSeg ≠ 0 → l.txSegStart + wait ≤ s.mt → l.replay.length + n ≤ 1024 →
        exec (.segmentTimeout g k) s =
          .next (({ s1 with out := s1.out ++ [Out.linkCtl g k (.pad n)] }.turnPhase g k).drain g k))) ∧
    (s.inState g k lsRetrain = true →
      (∀ lanes, exec (.retrainDone g k false lanes) s = .next (s.linkDown g k)) ∧
      (∀ lanes two, s.width g lanes = some two → exec (.retrainDone g k true lanes) s = .next (s.retrained g k two)))

/-- Commands of remote packets complete (R386 to R394, R212). -/
def Obligations.PacketCommandsComplete : Prop :=
  ∀ (s : State) (src : Src),
    (∀ p, s.gateRuns p.gate = true → p.dst ≠ s.moduleId → vcRouted p.body.vc = true → s.canForward p = true →
      exec (.packetForward p) s = .next ((s.consumed p).forward p)) ∧
    (∀ p, s.arrivedHere p = true →
      (∀ a l poisoned req, p.body = .write a l poisoned req → s.remoteOk a l.length true = true → s.rangeWaits a l.length = false →
        exec (.linkWrite p) s = .next (((s.consumed p).remoteStore p.gate a l poisoned).answerTo p (.ack req true))) ∧
      (∀ a l poisoned req, p.body = .write a l poisoned req → s.remoteOk a l.length true = false →
        exec (.linkWrite p) s = .next ((s.consumed p).answerTo p (.ack req false))) ∧
      (∀ a n req, p.body = .readReq a n req → s.remoteOk a n false = true → n ≤ 4096 → s.rangeWaits a n = false →
        let r := (s.consumed p).devRead a n 0xFFFF
        exec (.readReq p) s =
          .next ((r.1.farTouch (99 + p.gate) a n).answerTo p (.readRsp req true r.2.2.isSome r.2.1))) ∧
      (∀ req poisoned l r o, p.body = .readRsp req true poisoned l → (s.consumed p).modReq req false = some r →
        r.owner = .xfer o → r.len ≤ l.length →
        exec (.readRsp p) s = .next ((s.consumed p).answered r (l.take r.len) (if poisoned then 0 else r.len)
          (if poisoned then some r.addr else none))) ∧
      (∀ req r, p.body = .ack req true → (s.consumed p).modReq req true = some r →
        (∀ o, r.owner = .xfer o → exec (.ack p) s = .next (((s.consumed p).dropReq req).advance o)) ∧
        (r.owner = .buddy → exec (.ack p) s = .next ((s.consumed p).dropReq req)) ∧
        (r.owner = .ring → exec (.ack p) s = .next ((s.consumed p).ringAck req true))) ∧
      (∀ t c inc, let s1 := s.consumed p
        p.body = .signal t c inc → isTarget t = true →
        (if t = 0x700 then s1.pagePart pSTP else s1.partOf (t / 256)) = s1.pagePart pGATS →
        exec (.remoteSignal p) s = .next (s1.addCtr t c inc)) ∧
      (∀ a l req, p.body = .bulkWrite a l req → s.remoteOk a l.length true = true → s.rangeWaits a l.length = false →
        exec (.bulk p) s = .next (((s.consumed p).remoteStore p.gate a l false).answerTo p (.ack req true))) ∧
      (∀ c g t j o l req, p.body = .bulkPage c g t j o l req →
        let r := s.ringTake p.src p.body
        exec (.bulk p) s = .next (if r.2 then r.1.consumed p else r.1))) ∧
    (∀ req r, s.reqOf req = some r → s.live = true → r.port = none → (r.owner = .ring → r.write = true) →
      let us := s.reg pGATS R.GAT_ACK_TIMEOUT % 2 ^ 16
      us ≠ 0 → r.since + us * 1000 ≤ s.mt → exec (.ackTimeout req) s = .next (s.reqFailed r 0x0C)) ∧
    (∀ v, let i := s.reg pGATS R.GAT_ROUTE_IDX % 16384
      (s.mayWrite src pGATS R.GAT_ROUTE_DATA = true →
        exec (.routeDataAccess src true v) s = .next (advanceIdx { s with routes := sset 0 s.routes i (v % 2 ^ 17) })) ∧
      (s.mayRead src pGATS R.GAT_ROUTE_DATA = true →
        exec (.routeDataAccess src false v) s = .next ((advanceIdx s).reply [s.routeOf i]))) ∧
    (∀ t1 t2 t3 t4, s.blockRuns pGATS = true → bit (s.reg pGATS R.GAT_TIME_PORT) 7 = true →
      bit (s.reg pGATS R.GAT_SYS_CTL) 2 = false →
      exec (.timeExchange t1 t2 t3 t4 true) s = .next (s.timeOffset ((((t2 : Int) - t1) - ((t4 : Int) - t3)) / 2)) ∧
      (s.timeMissed + 1 < 10 → exec (.timeExchange t1 t2 t3 t4 false) s = .next { s with timeMissed := s.timeMissed + 1 }) ∧
      (10 ≤ s.timeMissed + 1 → exec (.timeExchange t1 t2 t3 t4 false) s = .next s.timeLost))

/-- Commands of reductions and votes complete (R395 to R411, R415 to R419). -/
def Obligations.ReductionCommandsComplete : Prop :=
  ∀ (s : State) (src : Src),
    (∀ v, s.mayWrite src pGATS R.GAT_JOB_TAIL = true →
      tailOk 256 (s.gatsReg R.GAT_JOB_HEAD % 2 ^ 16) (s.gatsReg R.GAT_JOB_TAIL % 2 ^ 16) (v % 2 ^ 16) = true →
      exec (.gatJobTailWrite src v) s = .next (s.setReg pGATS R.GAT_JOB_TAIL (v % 2 ^ 16))) ∧
    (∀ gate idx, s.redRuns gate = true → s.nextTake = some idx →
      s.anyGranule (s.jobAddr idx) 128 State.targetWaits = false →
      (let d := s.devLe (s.jobAddr idx) 128
       s.anyGranule (jSrc d) (jCount d * jFb d) State.targetWaits = false) →
      exec (.jobTake gate) s = .next ((s.takeJob idx).drainCtl)) ∧
    (∀ p b down, s.redRuns p.gate = true → s.staleBlock b = false → p.body = (if down then .redDn b else .redUp b) →
      let c := if down then Instr.redDn p else .redUp p
      (∀ j, s.jobFor b = some j → exec c s = .next (((s.consumed p).useBlock j ⟨p.gate, p.link, down, b⟩).drainCtl)) ∧
      (s.jobFor b = none → s.storeRoom p.gate p.link (redBytes b) = true →
        exec c s = .next (((s.consumed p).modGate fun g =>
          { g with store := g.store ++ [⟨p.gate, p.link, down, b⟩] }).drainCtl))) ∧
    (∀ job j, s.jobOf job = some j → s.gatsEn = true → j.done = false → j.stretchDone = true →
      ((List.range (jBlocks j.desc)).all fun b => (j.blk b).final) = true →
      exec (.jobComplete job) s = .next (s.jobDone job j j.desc)) ∧
    (s.gatsEn = true → ∀ p,
      (∀ tag m t, p.body = .ready tag m t → exec (.ready p) s = .next (((s.consumed p).takeReady tag m t).drainCtl)) ∧
      (∀ g, p.body = .go g → g.stepTag = s.openStep → g.attempt = s.attempt → s.gate.go = none →
        exec (.go p) s = .next ((((s.consumed p).applyGo g).countStretch).tryVote.drainCtl)) ∧
      (∀ r bad t c e, p.body = .vote r bad → s.ctlTree = some t → t.childAt p.gate p.link = some (c, e) →
        r.stepTag = s.openStep → r.attempt = s.attempt → (s.gate.kids.any fun e => e.1 == c) = false →
        exec (.vote p) s = .next (((s.consumed p).modGate fun g =>
          { g with kids := g.kids ++ [(c, r)], mayKeep := g.mayKeep && !bad }).tryVote)) ∧
      (∀ tag att, let s1 := s.consumed p
        p.body = .squash tag att → tag = s.openStep → att = s.attempt → s1.isCoord = false → s1.phase ≠ phSquash →
        exec (.squashNotice p) s = .next (((s1.modGate fun g => { g with squashFrom := some (p.gate, p.link) }).cause vbRemote).drainCtl))) ∧
    (∀ d, s.isCoord = true → s.gate.go = none → s.gatsEn = true → List.range s.groupsN ≠ [] →
      (List.range s.groupsN).all s.groupReady = false → (List.range s.groupsN).any s.groupReady = true →
      s.deadline = some d → d ≤ s.mt → exec .deadline s = .next (s.fixSet.tryVote))

/-- Commands of the checkpoint engine complete (R420 to R427). -/
def Obligations.CheckpointCommandsComplete : Prop :=
  ∀ (s : State) (src : Src),
    (∀ n, s.ckp.due = some n → s.blockRuns pCKP = true → s.updPend = false → s.ckSts 0 = false →
      (s.ckCtl 1 && (s.nextBank false).any s.sendReads) = false → exec .capture s = .next (s.startCapture n)) ∧
    (∀ c, s.ckp.cap = some c → s.blockRuns pCKP = true → s.ckSts 0 = true →
      ((s.crs 43).reqs.any fun r => r.owner == .ckp) = false → (c.buddy = none ∨ s.ckSts 1 = false) →
      exec .captureDone s = .next (s.captured c)) ∧
    (∀ b resume header, s.blockRuns pCKP = true → s.hasReqs .buddy = false →
      (s.ckp.send = some (b, (resume, (header, true))) →
        let s1 := ({ s with ckp := { s.ckp with send := none } }).setCkSts 1 false
        exec .buddySendDone s = .next (((s1.setReg pCKP R.CKP_LAST_BUDDY resume).setFld pCKP R.CKP_LAST_BANK 1 1 b).notice pCKP 0
          resume)) ∧
      (∀ m a, s.ckp.send = some (b, (resume, (header, false))) → s.buddyAt b = some (m, a) →
        exec .buddySendDone s =
          .next { s.bulkSend m a header with ckp := { s.ckp with send := some (b, (resume, (header, true))) } })) ∧
    (s.mayWrite src pCKP R.CKP_CTL = true →
      exec (.now src) s = .next (ckpCtlWrite (s.ckKeep + 8) s) ∧
      exec (.restore src) s = .next (ckpCtlWrite (s.ckKeep + 16) s) ∧
      exec (.ckpAbort src) s = .next (ckpCtlWrite (s.ckKeep + 32) s)) ∧
    (∀ image, s.blockRuns pCKP = true → s.ckSts 2 = true → exec (.restoreDone image) s = .next (s.restored image))

/-- Commands of the supplies complete (R481 to R487). -/
def Obligations.SupplyCommandsComplete : Prop :=
  ∀ (s : State) (mv : Nat),
    (vio12Ok mv = true → exec (.vio12Apply mv) s = .next (if s.aoOn then s.modPwr fun p => { p with vio12 := mv } else s.vioUp mv)) ∧
    (s.aoOn = true → exec .vio12Loss s = .next s.vioLost) ∧
    (vanaOk mv = true →
      let s1 := s.modPwr fun p => { p with vana := mv, seqLatch := p.seqLatch || (!vanaOk s.pwr.vana && !s.aoOn) }
      exec (.vanaApply mv) s = .next (if s.aoOn then s1.tryStart else s1)) ∧
    (s.aoOn = true → vanaOk s.pwr.vana = false → s.pwr.lateRaised = false → s.pwr.vioAt + 100000000 ≤ s.mt →
      exec .vanaLate s = .next ((s.notice pAO 1).modPwr fun p => { p with lateRaised := true })) ∧
    (vanaOk s.pwr.vana = true → s.aoOn = true → let s1 := s.modPwr fun p => { p with vana := 0 }
      exec .vanaLoss s = .next (if s.pwr.conv then s1.emergencyOff fun a => a.raise pAO 4 1 a.aoVin else s1.settleSt)) ∧
    (s.aoOn = true →
      exec (.vinApply mv) s = .next (s.setVin mv).tryStart ∧
      exec .inputCharged s = .next (s.modPwr fun p => { p with node := max p.node p.vin }).tryStart ∧
      (vinOk mv = false → exec (.vinOutOfRange mv) s = .next (s.setVin mv).settleSt) ∧
      (s.pwr.conv = true → s.pst ≠ psParking →
        (mv < 40000 → exec (.vinFault mv) s =
          .next ((s.setVin mv).emergencyOff fun a => (a.raise pAO 2 a.aoVin).raise pAO 4 0 a.aoVin)) ∧
        (60000 < mv → exec (.vinFault mv) s =
          .next ((s.setVin mv).emergencyOff fun a => (a.raise pAO 3 a.aoVin).raise pAO 4 0 a.aoVin))))

/-- Commands of parking, sideband pins and reset complete (R436, R488 to R496, R551 to R554). -/
def Obligations.ParkResetCommandsComplete : Prop :=
  ∀ (s : State) (src : Src),
    (s.mayWrite src pPWR R.PWR_CTL = true →
      exec (.pwrResume src) s = .next (pwrCtlWrite (s.pwrKeep + 32) s) ∧
      exec (.park src) s = .next (pwrCtlWrite (setBit s.pwrKeep 3 true) s) ∧
      exec (.parkGo src) s = .next (pwrCtlWrite (s.pwrKeep + 16) s) ∧
      exec (.shutdown src) s = .next (pwrCtlWrite (s.pwrKeep + 64) s)) ∧
    (s.aoOn = true →
      (s.pwr.resuming = true → s.pwr.conv = true → s.bst.run = none →
        (∀ c, c < 41 → s.required c = true → s.domRaw c = true ∨ s.fenced c = true ∨ s.pwr.faulted.contains c = true) →
        exec .resumed s = .next ((s.modPwr fun p => { p with resuming := false }).notice pPWR 1)) ∧
      (∀ t, s.pwr.grace = some t → t + s.fld pPWR R.PWR_PARK_GRACE 15 0 * 1000000 ≤ s.mt → s.pwr.waitTest = false →
        exec .parkGraceExpire s = .next s.graceEnd) ∧
      (s.pst = psParking → s.bst.run = none → exec .parkComplete s = .next s.parkDown) ∧
      (∀ level, exec (.parkNChange level) s = .next (s.pinsMoved (s.modPwr fun p => { p with parkN := level })) ∧
        exec (.throttleNChange level) s = .next (s.pinsMoved (s.modPwr fun p => { p with throttleN := level }))) ∧
      (∀ pin, pin < 2 →
        (s.pwr.noise.contains pin = false → exec (.sidebandNoise pin) s =
          .next (s.pinsMoved ((s.raise pAO 6 pin).modPwr fun p => { p with noise := sinsert pin p.noise }))) ∧
        (s.pwr.noise.contains pin = true → exec (.noiseQuiet pin) s =
          .next (s.pinsMoved (s.modPwr fun p => { p with noise := p.noise.filter (· != pin) })))) ∧
      (∀ pin, exec (.noiseWindowEnd pin) s = .next s) ∧
      (s.pwr.rstLow = false → exec .resetNAssert s = .next s.moduleReset) ∧
      (s.pwr.rstLow = true → let s1 := (s.modPwr fun p => { p with rstLow := false }).tryStart
        exec .resetNRelease s = .next (if s1.parkUsed then s1.parkRequest else s1)))

/-- Commands of domains, clocks and the governor complete (R482 to R485, R497 to R509). -/
def Obligations.DomainClockCommandsComplete : Prop :=
  ∀ (s : State), s.aoOn = true →
    (∀ d, d < 41 → domOrder.find? s.canRamp = some d → s.pwr.held = false → s.pwr.ramping = none →
      exec (.domainAdmission d) s = .next (if s.holding then s.defer (0x3000 + d)
        else (s.admitted (0x3000 + d)).modPwr fun p => { p with ramping := some (d, s.mt) })) ∧
    (∀ d t, s.pwr.ramping = some (d, t) →
      exec (.domainOn d) s = .next (s.turnOn d) ∧
      (t + 1000000 ≤ s.mt → exec (.domainFault d) s =
        .next (((s.modPwr fun p => { p with ramping := none, faulted := sinsert d p.faulted }).skipTest d).raise pPWR 6 d))) ∧
    (∀ d, d < 41 → s.live = true → s.canTurnOff d = true → exec (.domainOff d) s = .next (s.turnOff d)) ∧
    (∀ k, k < 10 →
      (s.pllWanted k = true → s.pllLocked k = false → s.pllStarting k = false → bit (s.reg pCLK R.CLK_STS) 0 = true →
        s.holding = false → (∀ t, s.pwr.pllAt = some t → t + s.fld pPWR R.PWR_WAKE 15 8 * 1000 ≤ s.mt) →
        s.firstInLine (0x2000 + k) 0x2000 0x3000 = true →
        exec (.pllStart k) s = .next (((s.admitted (0x2000 + k)).setFld pCLK R.CLK_STS (11 + k) (11 + k) 1).modPwr fun p =>
          { p with pllAt := some s.mt })) ∧
      (s.pllStarting k = true → exec (.pllLock k) s =
        .next (((s.setFld pCLK R.CLK_STS (11 + k) (11 + k) 0).setFld pCLK R.CLK_STS (1 + k) (1 + k) 1).modPwr fun p =>
          { p with pllLost := p.pllLost.filter (· != k) })) ∧
      (s.pllLocked k = true → exec (.pllUnlock k) s =
        .next (((s.pllStop k).bump pCLK R.CLK_LOCK_LOSS 1).raise pCLK 0 k))) ∧
    (bit (s.reg pCLK R.CLK_STS) 0 = true → exec .xtalFail s =
      .next ((((List.range 10).foldl (fun a k => a.pllStop k) (s.setFld pCLK R.CLK_STS 0 0 0)).setFld pTIM R.TIM_STS 1 0 0).raise
        pCLK 1)) ∧
    (∀ est demand cur, s.pwr.conv = true → exec (.governorTick est demand cur) s = .next (s.govTick est demand cur)) ∧
    (∀ temps, exec (.thermalSample temps) s = .next (s.takeTemps temps))

/-- Commands of the host ports complete (R441 to R445, R451, R468, R477). -/
def Obligations.HostPortCommandsComplete : Prop :=
  ∀ (s : State) (src : Src) (h : Nat), h < 8 →
    (∀ off v, s.aoOn = true → s.domOn 40 = true → s.linkUp h = true →
      ((s.port h).released = false → exec (.configRequest h true off v) s = .next { s with out := s.out ++ [.cfgRetry h] }) ∧
      ((s.port h).released = true → exec (.configRequest h true off v) s = .next (s.cfgWrite h off v) ∧
        exec (.configRequest h false off v) s = .next { s with out := s.out ++ [.cfgData h (s.cfgRead h off)] })) ∧
    (∀ off n data, s.aoOn = true → s.portUp h = true → s.hold = false →
      (s.apWaits h off data.length true = false → exec (.bar4Access h off true n data) s = .next (s.apWriteAll h off data)) ∧
      (s.apWaits h off n false = false → exec (.bar4Access h off false n data) s = .next (s.apReadAll h off n))) ∧
    (∀ v e, let p := s.port h
      p.holdoff.find? (fun e => e.1 == v) = some e → s.aoOn = true →
      e.2 + s.reg (pHPT h) R.HPT_IRQ_HOLDOFF % 2 ^ 16 * 1000 ≤ s.mt →
      let s1 := s.setPort h { p with holdoff := sdel p.holdoff v, merged := setBit p.merged v false }
      exec (.irqHoldoffExpire h v) s = .next (if bit p.merged v then s1.signalPort h v else s1)) ∧
    (∀ v, v < 64 → s.mayWrite (.port h) (pMSIX h) (16 * v + 12) = true →
      exec (.vectorUnmask h v) s = .next ((s.setReg (pMSIX h) (16 * v + 12) 0).flushPba h)) ∧
    (∀ v, (s.mayWrite src (pHPT h) R.HPT_WIN_DATA_HI = true →
        exec (.winDataHiAccess src h true v) s = .next ((s.setWin h ((s.winNow h).1, v % 2 ^ 32)).winNext h)) ∧
      (s.mayRead src (pHPT h) R.HPT_WIN_DATA_HI = true →
        exec (.winDataHiAccess src h false v) s = .next ((s.winNext h).reply [(s.winNow h).2]))) ∧
    (s.hostOn h = true → s.linkUp h = true →
      (let s1 := s.setHptSts h 0 false
       s1.detached h = false → exec (.pcieLinkDown h) s = .next (s1.detach h 1)) ∧
      (let s1 := (s.setHptSts h 0 false).resetCfg h
       s1.detached h = false → exec (.hotReset h) s = .next (s1.detach h 2))) ∧
    (s.portUp h = true →
      ((s.resetCfg h).detached h = false → exec (.flr h) s = .next ((s.resetCfg h).detach h 3)) ∧
      ((s.setHptSts h 13 true).detached h = false → exec (.d3hotEntry h) s = .next ((s.setHptSts h 13 true).detach h 4))) ∧
    (∀ rate width, s.hostOn h = true → (s.port h).perstN = true → s.padsHeld = false →
      (s.linkUp h = false ∨ s.detached h = true ∨ s.hptSts h 13 = true) →
      exec (.portReturn h rate width) s = .next (s.portReturn h (rate % 8) (width % 32))) ∧
    (s.aoOn = true →
      exec (.perstNChange h true) s = .next ((s.modPort h fun p => { p with perstN := true }).release h) ∧
      (let s1 := ((s.modPort h fun p => { p with perstN := false }).modPort h fun p => { p with released := false }).resetCfg h
       s1.linkUp h = true → (s1.setHptSts h 0 false).detached h = false →
        exec (.perstNChange h false) s = .next ((s1.setHptSts h 0 false).detach h 1)))

/-- Commands of the host command queues complete (R454 to R462). -/
def Obligations.CommandQueueCommandsComplete : Prop :=
  ∀ (s : State) (q : Nat), q < 64 →
    (∀ h v, s.mayWrite (.port h) (pCQ q) R.HPT_CQ_CTL = true →
      exec (.cqEnable h q v) s = .next (cqCtlWrite q v s) ∧
      exec (.cqResume h q v) s = .next (cqCtlWrite q (setBit v 1 true) s) ∧
      exec (.cqFlush h q v) s = .next (cqCtlWrite q (setBit v 2 true) s)) ∧
    (∀ h v, s.mayWrite (.port h) (pCQ q) R.HPT_CQ_TAIL = true →
      tailOk (2 ^ s.cqLog q) (s.reg (pCQ q) R.HPT_CQ_HEAD % 2 ^ 16) (s.reg (pCQ q) R.HPT_CQ_TAIL % 2 ^ 16) (v % 2 ^ 16) = true →
      exec (.cqDoorbell h q v) s = .next (s.setReg (pCQ q) R.HPT_CQ_TAIL (v % 2 ^ 16))) ∧
    (∀ h es, s.cqPort q = some h → s.cqHalt q = false → (s.cq q).fetch < s.cqTail q →
      let c := s.cq q
      let l := s.fetchFrom q h c.fetch ((es ++ List.replicate 16 0).take (min 16 (s.cqTail q - c.fetch)))
      let a := s.reg64 (pCQ q) R.HPT_CQ_BASE_LO + 64 * (c.fetch % 2 ^ s.cqLog q)
      let s1 := match s.region a with
        | .host p _ => if l = [] then s else s.crsPlain (32 + p) 97 1
        | _ => if l = [] then s else s.farTouch 97 a (64 * l.length)
      exec (.cqFetch q es) s =
        .next ((s1.modCq q fun t => { t with fetch := t.fetch + l.length, buf := t.buf ++ l }).cqFlushRun q (l.length + 2))) ∧
    (∀ h e, let t := s.copiesSettle q; let c := t.cq q
      t.cqFront q = some (h, e) → t.portPart h < 6 →
      (ceOp e = 0 → exec (.cqNop q) s = .next (t.cqFinish q 1 0)) ∧
      (6 ≤ ceOp e → exec (.cqNop q) s = .next (t.cqFinish q 1 1)) ∧
      (let n := df e 10 7 0
       ceOp e = 1 → n ≠ 0 → n + 1 ≤ t.cqTail q - c.next → n + 1 ≤ c.buf.length → isTile (ceTile e) = true →
       t.tilePart (ceTile e) = t.portPart h → t.portRefusal h (ceTile e) R.TIL_SEQ_TAIL true = none →
       t.siteOn (t.siteOf (ceTile e)) = true → t.targetWaits (0x040000000000 + ceTile e * 0x800000) = false →
       (t.tail (t.siteOf (ceTile e)) + 2 ^ 16 - t.head (t.siteOf (ceTile e))) % 2 ^ 16 + n ≤ 256 →
        exec (.desc q) s = .next ((t.writeDescs (ceTile e) ((c.buf.drop 1).take n)).cqFinish q (n + 1) 0)) ∧
      (ceOp e = 2 → t.mayWrite (.port h) (df e 8 13 0) (4 * df e 10 9 0) = true →
        exec (.regw q) s =
          .next ((t.wordWrite (.port h) (df e 8 13 0) (4 * df e 10 9 0) (df e 12 31 0)).cqFinish q 1 0)) ∧
      (let n := df e 24 63 0
       let p := t.portPart h
       let ms := copyMovs (df e 8 63 0) (df e 16 63 0) n (df e 32 15 0)
       ∀ u, ceOp e = 3 → n ≠ 0 → n ≤ 2 ^ 32 → ms.all (t.movSidesOk p) = true →
        t.handCopies q c.next (((List.range 6).find? fun d => t.partOf d == p).getD 0) p ms = some u →
        exec (.copy q) s = .next ((u.cqTake q 1 false ms.length).copiesSettle q)) ∧
      (ceOp e = 4 → t.counterStatus h (ceTile e) = none →
        let met := waitMet (t.ctr (ceTile e) (ceCtr e)) (df e 12 15 0)
        (met = true → exec (.wait q) s = .next (t.cqFinish q 1 0)) ∧
        (met = false → exec (.wait q) s = .next (t.cqBegin q)) ∧
        (∀ since, met = false → c.since = some since → df e 14 15 0 ≠ 0 → since + df e 14 15 0 * 1000 ≤ t.mt →
          exec (.waitTimeout q) s = .next (t.cqFinish q 1 4))) ∧
      (ceOp e = 5 → t.counterStatus h (ceTile e) = none →
        exec (.cqSignal q) s = .next ((t.addCtr (ceTile e) (ceCtr e) (df e 12 15 0)).cqFinish q 1 0)))

/-- Commands of partitions and security complete (R464 to R479). -/
def Obligations.SecurityCommandsComplete : Prop :=
  ∀ (s : State),
    (let a : Src := .port s.adminPort
     let change := fun (s1 : State) (parts : List Nat) =>
       (parts.all fun p => decide (6 ≤ p) || s.stopped p) = true ∧ s1.allValid = true
     (∀ d v, d < 6 → s.mayWrite a pPRT (R.PRT_MAP + 4 * d) = true →
       let s1 := s.setReg pPRT (R.PRT_MAP + 4 * d) (v % 8)
       change s1 [s.partOf d, if v % 8 = 6 then 7 else v % 8] → exec (.prtMapWrite a d v) s = .next (s.keysAfter s1)) ∧
     (∀ p v, p < 6 → s.mayWrite a (pPRTP p) R.PRT_P_OWNER = true →
       let s1 := s.setReg (pPRTP p) R.PRT_P_OWNER (v % 8)
       change s1 [p] → exec (.prtPOwnerWrite a p v) s = .next (s.keysAfter s1)) ∧
     (∀ p size v, let off := if size then R.PRT_P_FAR_SIZE else R.PRT_P_FAR_BASE
       p < 6 → s.mayWrite a (pPRTP p) off = true → let s1 := s.setReg (pPRTP p) off (v % 4096)
       change s1 [p] → exec (.prtFarWrite a p size v) s = .next (s.keysAfter s1)) ∧
     (∀ page v b i, pageBlk page = some (b, i) → isBar2 page = false → b.bound = false → b ≠ .dbg →
       s.mayWrite a page R.PAGE_OWNER = true →
       let s1 := s.setReg page R.PAGE_OWNER (v % 8 + (if b = .ings then bits v 15 8 * 2 ^ 8 else 0))
       change s1 [s.pagePart page, v % 8] → exec (.pageOwnerWrite a page v) s = .next (s.keysAfter s1))) ∧
    (∀ res, s.aoOn = true → s.sec.booted = false → exec (.bootDone res) s = .next ((s.bootDone res).tryStart)) ∧
    (∀ src, s.mayWrite src pSEC R.SEC_IMG_CTL = true → let keep := s.reg pSEC R.SEC_IMG_CTL % 8 / 4 * 4
      exec (.imageStage src) s = .next (imgCtlWrite src (keep + 1) s) ∧
      exec (.imageProgram src) s = .next (imgCtlWrite src (keep + 3) s)) ∧
    (∀ j flashOk, s.aoOn = true → s.sec.job = some j →
      let r := if j.result = 1 && !flashOk then 5 else j.result
      exec (.imgDone flashOk) s = .next (((s.modSec fun x => { x with
        job := none, flash := if r = 1 then sput x.flash j.slot j.image else x.flash }).setFld pSEC R.SEC_IMG_CTL 6 3
          (r * 2)).notice pSEC 3)) ∧
    (s.mayWrite (.port s.adminPort) pSEC R.SEC_SVN_COMMIT = true →
      exec (.svnCommit (.port s.adminPort)) s = .next (s.modSec fun x => { x with svnFused := max x.svnFused x.svnRun })) ∧
    (∀ h req, s.spdmRuns h = true → let st := (s.port h).spdm; let ses := (s.port h).session
      exec (.getVersion h req) s = .next (s.spdm h 0x84 req true fun p => { p with spdm := 1, session := 0 }) ∧
      (1 ≤ st → exec (.getCapabilities h req) s = .next (s.spdm h 0xE1 req true fun p => { p with spdm := max p.spdm 2 })) ∧
      (2 ≤ st → exec (.negotiateAlgorithms h req) s = .next (s.spdm h 0xE3 req true fun p => { p with spdm := 3 })) ∧
      (st = 3 →
        exec (.getDigests h req) s = .next (s.spdm h 0x81 req true id) ∧
        exec (.getCertificate h req) s = .next (s.spdm h 0x82 req true id) ∧
        exec (.challenge h req) s = .next (s.spdm h 0x83 req true id) ∧
        exec (.getMeasurements h req) s = .next (s.spdm h 0xE0 req true id) ∧
        (ses = 0 → exec (.keyExchange h req) s = .next (s.spdm h 0xE4 req true fun p => { p with session := 1 }))) ∧
      (ses = 1 → exec (.finish h req) s = .next (s.spdm h 0xE5 req true fun p => { p with session := 2 })) ∧
      (ses = 2 →
        exec (.endSession h req) s = .next (s.spdm h 0xEC req true fun p => { p with session := 0 }) ∧
        (∀ k msg, k < 3 → bit (s.reg pSEC R.SEC_STS) 1 = false → s.sec.scanHold = false →
          let s1 := if Sys2Proof.Config.ideProgram msg then
              (s.modPort h fun p => { p with ideKeys := sput p.ideKeys k msg }).holdsKeys
            else s
          exec (.ideKm h k msg) s = .next (if Sys2Proof.Config.ideStart msg && (s1.port h).ideKeys.any fun e => e.1 == k then
            s1.setHptSts h (ideBit k) true
          else s1)))) ∧
    (∀ h k, s.hostOn h = true → k < 3 → s.hptSts h (ideBit k) = true →
      exec (.ideLost h k) s = .next ((s.setHptSts h (ideBit k) false).raise (pHPT h) 4 k)) ∧
    (∀ h v, s.mayWrite (.port h) pSEC R.SEC_KEY_CMD = true → s.keyRefusal h = none →
      let p := s.port h
      let ix := s.portPart h * 16 + p.keySel % 16
      let key := ((List.range 8).map fun k => leBytes (sget 0 p.keyWords k) 4).flatten
      (bit v 0 = false → bit v 1 = false → exec (.keyErase (.port h) v) s =
        .next (s.modSec fun x => { x with keys := sdel x.keys ix })) ∧
      (bit v 0 = false → bit v 1 = false → exec (.keyLoad (.port h) v) s =
        .next (((s.modSec fun x => { x with keys := sput x.keys ix (leNat key, p.keySalt) }).modPort h fun q =>
          { q with keyWords := [], keySalt := 0, kcv := leNat ((aes256 key (List.replicate 16 0)).take 4) }).holdsKeys))) ∧
    (∀ h v e, s.mayWrite (.port h) pSEC R.SEC_LINK_CMD = true → s.keyRefusal h = none → v < 2 ^ 31 →
      let link := v % 128
      let g := link / 12
      let k := link % 12
      let s1 := (s.installKey g k (bits v 7 7) (bits v 8 8) e.2).holdsKeys
      link < 96 → s.pagePart (pGAT g) = s.portPart h →
      s.sec.keys.find? (fun e => e.1 == s.portPart h * 16 + bits v 12 9) = some e →
      exec (.linkKeyInstall (.port h) v) s = .next (if bit v 13 && bits v 7 7 == 0 then
        (s1.modLink g k fun l => { l with switchTo := some (bits v 8 8) }).turnPhase g k else s1)) ∧
    (∀ src, s.mayWrite src pSEC R.SEC_CLEAR = true → (src = .supervisor ∨ src = .port s.adminPort) →
      exec (.secClear src) s = .next (secClearWrite src 1 s)) ∧
    (s.aoOn = true → bit (s.reg pSEC R.SEC_STS) 1 = true → s.bst.run = none →
      exec .keysCleared s = .next ((s.setFld pSEC R.SEC_STS 1 0 1).notice pSEC 0))

/-- Commands on outstanding requests to a host complete (R197, R445). -/
def Obligations.HostCompletionCommandsComplete : Prop :=
  ∀ (s : State) (req : Nat) (r : OutReq) (h : Nat), s.hostReq req = some (r, h) → s.live = true →
    (∀ data, s.domOn 40 = true → s.linkUp h = true → r.len ≤ data.length →
      let s1 := s.modPort h fun p => { p with timeouts := 0 }
      (∀ o, r.owner = .xfer o →
        (r.len = 0 → exec (.hostCompletion req data) s = .next (((s1.dropReq req).confirmed o h).advance o)) ∧
        (r.len ≠ 0 → exec (.hostCompletion req data) s = .next (s1.answered r (data.take r.len) r.len none))) ∧
      ((∀ o, r.owner ≠ .xfer o) → exec (.hostCompletion req data) s = .next (s1.dropReq req))) ∧
    (let v := s.reg (pHPT h) R.HPT_CPL_TIMEOUT
     r.since + max 1 (v % 2 ^ 16) * 1000000 ≤ s.mt → exec (.cplTimeout req) s = .next (s.cplExpired req r h v))

/-- Commands of self-test complete (R511 to R521, R530). -/
def Obligations.SelfTestCommandsComplete : Prop :=
  ∀ (s : State) (src : Src),
    (s.bstWriter src = true → s.mayWrite src pBST R.BST_CTL = true →
      let v := s.reg pBST R.BST_CTL
      (let s1 := s.setReg pBST R.BST_CTL (bits (v + 1) 2 1 * 2)
       let mask := s1.domBits R.BST_DOM_MASK_LO
       bit (v + 1) 0 = true → bit (v + 1) 3 = false → s1.demandOk mask = true →
        exec (.bstRun src) s = .next (s1.bstStart bcDemand ((List.range 41).reverse.filter fun c => bit mask c))) ∧
      (bit (v + 8) 0 = false → bit (v + 8) 3 = true →
        exec (.bstAbort src) s = .next (s.setReg pBST R.BST_CTL (bits (v + 8) 2 1 * 2)).bstAbort)) ∧
    (s.aoOn = true →
      (∀ r c l res, s.bst.run = some r → r.todo = c :: l → s.sec.scanHold = true → s.domRaw c = true →
        exec (.domainTestDone res) s = .next (s.testDone r c res)) ∧
      (∀ r, s.bst.run = some r → r.todo = [] →
        exec .bstDone s = .next (if (s.bstFinish r).pwr.waitTest then (s.bstFinish r).parkBegin else s.bstFinish r))) ∧
    (∀ d, d < 41 → let off := if d < 32 then R.BST_FENCE_LO else R.BST_FENCE_HI
      s.mayWrite src pBST off = true → exec (.fenceClear src d) s = .next (fenceWrite off (2 ^ (d % 32)) s))

/-- Commands of the check units and of the debug pages complete (R523 to R531, R540, R541). -/
def Obligations.CheckDebugCommandsComplete : Prop :=
  ∀ (s : State) (src : Src),
    (∀ u, u < 16 → let p := pCHK u
      (s.mayWrite src p R.CHK_CTL = true →
        (∀ b, exec (.claim src u b) s = .next (s.setReg p R.CHK_CTL (b2n b))) ∧
        (s.chkBusy u = false → let s1 := s.setReg p R.CHK_CTL (s.reg p R.CHK_CTL % 2)
          exec (.chkReset src u) s = .next (s1.setChkValue u (s1.chkCfg u).start))) ∧
      (∀ v, s.chkClaimed u = true →
        let fed := fun (n : Nat) =>
          (s.setChkValue u ((s.chkCfg u).feed (s.chkValue u) (leBytes v n))).bump p R.CHK_BYTES n
        (s.mayWrite src p R.CHK_FEED8 = true → exec (.feed8 src u v) s = .next (fed 1)) ∧
        (s.mayWrite src p R.CHK_FEED16 = true → exec (.feed16 src u v) s = .next (fed 2)) ∧
        (s.mayWrite src p R.CHK_FEED32 = true → exec (.feed32 src u v) s = .next (fed 4))) ∧
      (∀ v, s.chkBusy u = false → s.mayWrite src p R.CHK_VALUE_HI = true →
        exec (.valueHiWrite src u v) s = .next (s.setChkValue u ((s.chkUnit u).heldLo + v % 2 ^ 32 * 2 ^ 32))) ∧
      (s.mayRead src p R.CHK_VALUE_LO = true → exec (.chkValueLoRead src u) s =
        .next ((s.setChkUnit u { s.chkUnit u with latValue := s.chkValue u / 2 ^ 32 }).reply [s.chkValue u % 2 ^ 32])) ∧
      (let r := (s.chkCfg u).result (s.chkValue u)
       s.mayRead src p R.CHK_RESULT_LO = true → exec (.chkResultLoRead src u) s =
        .next ((s.setChkUnit u { s.chkUnit u with latResult := r / 2 ^ 32 }).reply [r % 2 ^ 32]))) ∧
    (∀ i, i < 7 → let p := dbgPage i
      (s.mayWrite src p R.DBG_CTL = true → let s1 := s.debugVoid p
        (∀ on, exec (.freeze src i on) s = .next (s1.setReg p R.DBG_CTL (b2n on))) ∧
        (s1.reg p R.DBG_CTL % 2 = 1 → exec (.dbgStep src i) s =
          .next { s1.setReg p R.DBG_CTL 1 with dbgStep := sput s.dbgStep i s.mt })) ∧
      (∀ site, s.peekOpen i = some site →
        let sp := s.fld p R.DBG_PEEK_SEL 14 12
        let w := s.fld p R.DBG_PEEK_SEL 31 15
        (s.mayRead src p R.DBG_PEEK_DATA = true → ∀ v,
          exec (.peekDataAccess src i false v) s = .next (s.reply [s.peekWord site sp w])) ∧
        (s.mayWrite src p R.DBG_PEEK_DATA = true → ∀ v,
          exec (.peekDataAccess src i true v) s = .next ((s.debugVoid p).pokeWord site sp w (v % 2 ^ 32)))))

/-- Commands of the SMBus target and of the test access port complete (R476, R551, R555, R560, R561). -/
def Obligations.SmbusTapCommandsComplete : Prop :=
  ∀ (s : State), s.aoOn = true →
    let sends := fun (l : List Nat) => Host.Outcome.next (φ := Fault) (ρ := Refusal) { s with out := s.out ++ [Out.smbus l] }
    let tap := fun (t : State) (code shift : Nat) =>
      Host.Outcome.next (φ := Fault) (ρ := Refusal) (t.modTap fun x => { x with ir := code, shift := shift })
    exec .readVersion s = sends [0x01] ∧ exec .readSupplySts s = sends (leBytes s.aoSupply 2) ∧
    exec .readPwrSts s = sends (leBytes s.pwrSts 2) ∧ exec .readPwrTemp s = sends (leBytes (s.reg pPWR R.PWR_TEMP) 2) ∧
    exec .readPwrEst s = sends (leBytes (s.reg pPWR R.PWR_EST) 2) ∧ exec .readErrSts s = sends (leBytes s.errSts 2) ∧
    exec .readSideband s = sends (leBytes s.aoSideband 2) ∧ exec .readModuleTime s = sends (8 :: leBytes s.mt 8) ∧
    (s.log = [] → exec .readErrorRecord s = sends [0]) ∧
    (∀ r l, s.log = r :: l → exec .readErrorRecord s = sends (32 :: r.toBytes)) ∧
    exec .smbClkTimeout s = .next s ∧
    exec .idcode s = tap s 0x01 0x16060A9B ∧ exec .tapReset s = tap s 0x01 0x16060A9B ∧ exec .bypass s = tap s 0xFF 0 ∧
    exec .clamp s = tap s.holdPads 0x04 0 ∧ exec .highz s = tap s.holdPads 0x05 0 ∧
    exec .samplePreload s = .next (s.boundaryScan 0x02) ∧ exec .extest s = .next (s.holdPads.boundaryScan 0x00) ∧
    exec .extestPulse s = .next (s.holdPads.boundaryScan 0x06) ∧ exec .extestTrain s = .next (s.holdPads.boundaryScan 0x07) ∧
    (∀ code, 0x80 ≤ code → code ≤ 0xFE → bit (s.reg pSEC R.SEC_STS) 0 = true →
      exec (.privateScan code) s = tap s.fresh.2 code (Sys2Proof.Config.freeNat s.freeCtr)) ∧
    (∀ code, code < 256 → (code < 0x80 ∨ bit (s.reg pSEC R.SEC_STS) 0 = false) →
      exec (.privateScan code) s = tap s code 0)

/-- The canonical form is an invariant of the step. -/
def Obligations.CanonicalKept : Prop :=
  ∀ s t : State, s.canonical = true → Sys2Proof.Machine.step s = .next t → t.canonical = true

/-- What only a module reset or the loss of VIO12 ends (R12, R434). -/
def Obligations.VoidAndHoldLast : Prop :=
  ∀ s t : State, Sys2Proof.Machine.step s = .next t →
    s.pending.head? ≠ some .resetNAssert → s.pending.head? ≠ some .vio12Loss →
    (s.hold = true → t.hold = true) ∧ (s.aoOn = true → t.aoOn = true) ∧
    (∀ i, s.voidCause.testBit i = true → t.voidCause.testBit i = true)

/-- What every step, resets included, leaves standing (R431, R471). -/
def Obligations.HistoryOnlyGrows : Prop :=
  ∀ s t : State, Sys2Proof.Machine.step s = .next t →
    s.out <+: t.out ∧ s.sec.svnFused ≤ t.sec.svnFused ∧ (s.log.length ≤ 256 → t.log.length ≤ 256) ∧
    t.pending = s.pending.tail ∧ s.freeCtr ≤ t.freeCtr

/-- Reset meets the invariants. -/
def Obligations.ResetMeetsInvariants : Prop :=
  State.reset.canonical = true ∧ State.reset.log.length ≤ 256 ∧ ∀ i, State.reset.voidCause.testBit i = false

/-- What commands that store leave unchanged (R313 to R317). -/
def Obligations.MemoryStoresFrame : Prop :=
  ∀ s t : State, s.canonical = true →
    (∀ addr data poisoned, exec (.memoryWrite addr data poisoned) s = .next t → let k := s.key (s.localAddr addr)
      (s.storeServes addr data.length = false → t = s) ∧
      (s.storeServes addr data.length = true →
        s.sameBytesBut t k data.length ∧ (∀ i v, data[i]? = some v → t.byte (k + i) = v % 256) ∧
        (∀ x, x ∈ t.poison → x ∈ s.poison ∨ (poisoned = true ∧ x ∈ touchedLines k data.length)) ∧
        t = { s with mem := t.mem, poison := t.poison, upsets := t.upsets })) ∧
    (∀ addr v, let a := addr / 4 * 4
      (s.storeServes a 4 = true → (s.lineRead a 0xFFFF false).2 = false → bit (s.reg pDBGM R.DBG_TRACE_CTL) 0 = false →
        (exec (.fmax addr v) s = .next t ∨ exec (.uadd addr v) s = .next t ∨ exec (.or32 addr v) s = .next t) →
        s.sameBytesBut t (s.key (s.localAddr a)) 4 ∧ t.tiles = s.tiles ∧ t.crossings = s.crossings ∧ t.streams = s.streams ∧
        t.pools = s.pools ∧ t.queues = s.queues) ∧
      (s.storeServes a 4 = false →
        (exec (.fmax addr v) s = .next t ∨ exec (.uadd addr v) s = .next t ∨ exec (.or32 addr v) s = .next t) → t = s))

/-- What a descriptor's effect leaves unchanged (R82, R91). -/
def Obligations.ComputeFrame : Prop :=
  ∀ (s : State) (c : DCtx) (e : Eff), s.canonical = true → (e.lines c.site).filter s.lineCe = [] → e.dropped = [] →
    (∀ p, p ∈ e.adds ++ e.ors ++ e.sets → p.1 < 0x1000) → let t := s.carryOut c e
    (∀ j, (∀ w ∈ e.writes, j < sramBase c.site + w.1 ∨ sramBase c.site + w.1 + w.2.length ≤ j) → t.byte j = s.byte j) ∧
    (∀ n, n ≠ c.site → t.tile n = s.tile n) ∧
    (∀ p o, p ≠ c.site → o < 0x1000 → t.reg p o = s.reg p o) ∧
    (∃ r : Run, r.st = .done ∧ r.pos = c.pos ∧ r.desc = c.d ∧
      t.tile c.site = { (s.tile c.site).applyEff e with running := (s.tile c.site).running ++ [r] }) ∧
    t = { s with mem := t.mem, poison := t.poison, upsets := t.upsets, tiles := t.tiles, regs := t.regs }

/-- What commands that store nothing leave unchanged. -/
def Obligations.NoStoreFrame : Prop :=
  ∀ (s t : State) (src : Src) (page a b : Nat), s.canonical = true → bit (s.reg pDBGM R.DBG_TRACE_CTL) 0 = false →
    (∃ c ∈ [Instr.errLogPop src a, .logData0Read src, .errFirstRearm src page, .fatalClear src, .mtLoRead src,
        .evtForceWrite src page a, .evtEnWrite src page a, .pageLockWrite src page a, .kvsCmdTailWrite src a, .poolFreeRead src a,
        .arbitrationRound a b, .quotaWindowEnd a, .crsQuotaWrite src a b], exec c s = .next t) →
    t.mem = s.mem ∧ t.poison = s.poison ∧ t.upsets = s.upsets ∧ t.tiles = s.tiles
end

