-- ==== Sys2Proof/Laws/Access.lean ====
section
/-! SUPPORT. Laws/Access.lean: what the shared ways into the machine do: an access that reaches its register, and a descriptor
that the checks of its issue accept. -/
namespace Sys2Proof.Machine

/-- A write that reaches its register has its effect, after a debug page has voided the guarantees. -/
theorem State.onWrite_mayWrite {s : State} {src page off act} (h : s.mayWrite src page off = true) :
    s.onWrite src page off act = act (s.touchDebug page) := by
  simp only [State.mayWrite, beq_iff_eq] at h
  simp [State.onWrite, h]

/-- A read that reaches its register has its effect. -/
theorem State.onRead_mayRead {s : State} {src page off act} (h : s.mayRead src page off = true) :
    s.onRead src page off act = act s := by
  simp only [State.mayRead, beq_iff_eq] at h
  simp [State.onRead, h]

/-- A page that is no debug page voids nothing. -/
theorem State.touchDebug_other {s : State} {page : Nat} (h : ∀ i, pageBlk page ≠ some (.dbg, i)) : s.touchDebug page = s := by
  unfold State.touchDebug
  split
  · next i he => exact absurd he (h i)
  · rfl

/-- The site pages are no debug pages. -/
theorem isSite_page {t : Nat} (h : isSite t = true) : pageBlk t = some (.til, t) := by
  simp only [isSite, Bool.and_eq_true, decide_eq_true_eq] at h
  unfold pageBlk
  rw [if_pos (by omega), if_pos (by omega)]

theorem isSite_of_isTile {t : Nat} (h : isTile t = true) : isSite t = true := by
  simp only [isTile, isSite, Bool.and_eq_true, decide_eq_true_eq] at h ⊢
  omega

/-- A descriptor that the checks accept runs (R91). -/
theorem State.issueWith_accepts {s : State} {tile pos : Nat} {mine check run} (h : s.accepts tile pos mine check = true) :
    s.issueWith tile pos mine check run = run s (s.ctxOf tile pos) := by
  simp only [State.accepts, Bool.and_eq_true, Bool.not_eq_true', Bool.and_eq_false_iff, beq_iff_eq, Option.isNone_iff_eq_none] at h
  obtain ⟨⟨⟨⟨⟨⟨h1, h2⟩, h3⟩, h4⟩, h5⟩, h6⟩, h7⟩ := h
  unfold State.issueWith
  dsimp only
  rw [if_neg (by simp [h1, h2, h3]), if_neg]
  · simp only [h5, h6, h7]; simp
  · rintro ⟨a, b, -⟩
    rcases h4 with h4 | h4
    · simp [a] at h4
    · rw [b] at h4; cases h4

/-- An effect that does not fail is carried out (R82, R87). -/
theorem State.runEff_carryOut {s : State} {c : DCtx} {e : Eff} (h : s.effFails c e = false) : s.runEff c e = s.carryOut c e := by
  simp only [State.effFails, Bool.or_eq_false_iff] at h
  have h1 : (e.lines c.site).find? s.lineBad = none := by
    rw [List.find?_eq_none]
    intro x hx hb
    have := List.any_eq_false.mp h.1 x hx
    exact this hb
  simp [State.runEff, h1, h.2, State.carryOut]

/-- With no line upset and none poisoned an effect fails only by overrunning. -/
theorem State.effFails_clean {s : State} {c : DCtx} {e : Eff} (hu : s.upsets = []) (hp : s.poison = [])
    (ho : e.overrun = false) : s.effFails c e = false := by
  simp [State.effFails, State.lineBad, hu, hp, ho]

end Sys2Proof.Machine
end

