-- ==== Sys2Proof/Laws/Sparse.lean ====
section
/-! SUPPORT. Laws/Sparse.lean: what the sparse lists of Bits.lean do: a read after a write, and the canonical form that every
operation keeps. -/
namespace Sys2Proof.Machine

theorem swfFrom_mono {α : Type} [DecidableEq α] {d : α} {a b : Nat} (hab : a ≤ b) :
    ∀ {l : List (Nat × α)}, swfFrom d b l = true → swfFrom d a l = true
  | [], _ => rfl
  | p :: r, h => by
    simp only [swfFrom, Bool.and_eq_true, decide_eq_true_eq] at h ⊢
    exact ⟨⟨by omega, h.1.2⟩, h.2⟩

theorem swfFrom_sdel {α : Type} [DecidableEq α] {d : α} {k : Nat} :
    ∀ {lo : Nat} {l : List (Nat × α)}, swfFrom d lo l = true → swfFrom d lo (sdel l k) = true
  | _, [], _ => rfl
  | lo, p :: r, h => by
    have h' := h
    simp only [swfFrom, Bool.and_eq_true, decide_eq_true_eq] at h
    unfold sdel
    split
    · exact swfFrom_mono (by omega) h.2
    · split
      · exact h'
      · simp only [swfFrom, Bool.and_eq_true, decide_eq_true_eq]
        exact ⟨h.1, swfFrom_sdel h.2⟩

theorem swfFrom_sput {α : Type} [DecidableEq α] {d v : α} {k : Nat} (hv : v ≠ d) :
    ∀ {lo : Nat} {l : List (Nat × α)}, lo ≤ k → swfFrom d lo l = true → swfFrom d lo (sput l k v) = true
  | lo, [], hk, _ => by simp [sput, swfFrom, hk, hv]
  | lo, p :: r, hk, h => by
    have h' := h
    simp only [swfFrom, Bool.and_eq_true, decide_eq_true_eq] at h
    unfold sput
    split
    · next he =>
      simp only [swfFrom, Bool.and_eq_true, decide_eq_true_eq]
      exact ⟨⟨hk, by simpa using hv⟩, by rw [← he]; exact h.2⟩
    · split
      · next hlt =>
        simp only [swfFrom, Bool.and_eq_true, decide_eq_true_eq]
        exact ⟨⟨hk, by simpa using hv⟩, ⟨by omega, h.1.2⟩, h.2⟩
      · simp only [swfFrom, Bool.and_eq_true, decide_eq_true_eq]
        exact ⟨h.1, swfFrom_sput hv (by omega) h.2⟩

theorem swf_sset {α : Type} [DecidableEq α] {d v : α} {k : Nat} {l : List (Nat × α)} (h : swf d l = true) :
    swf d (sset d l k v) = true := by
  unfold sset
  split
  · exact swfFrom_sdel h
  · exact swfFrom_sput (by assumption) (Nat.zero_le _) h

theorem swfFrom_filter {α : Type} [DecidableEq α] {d : α} (f : Nat × α → Bool) :
    ∀ {lo : Nat} {l : List (Nat × α)}, swfFrom d lo l = true → swfFrom d lo (l.filter f) = true
  | _, [], _ => rfl
  | lo, p :: r, h => by
    simp only [swfFrom, Bool.and_eq_true, decide_eq_true_eq] at h
    simp only [List.filter]
    split
    · simp only [swfFrom, Bool.and_eq_true, decide_eq_true_eq]
      exact ⟨h.1, swfFrom_filter f h.2⟩
    · exact swfFrom_filter f (swfFrom_mono (by omega) h.2)

/-- Bytes put into a memory keep its canonical form. -/
theorem wf_putList : ∀ {l : List Nat} {m : List (Nat × BitVec 8)} {k : Nat},
    Memory.wf m = true → Memory.wf (putList m k l) = true
  | [], _, _, h => h
  | _ :: r, _, _, h => wf_putList (l := r) (swf_sset h)

/-- Bytes taken out of a memory keep its canonical form. -/
theorem wf_filter {m : List (Nat × BitVec 8)} (f : Nat × BitVec 8 → Bool) (h : Memory.wf m = true) :
    Memory.wf (m.filter f) = true := swfFrom_filter f h

/-- A sparse list in canonical form has rising keys. -/
theorem rises_of_swfFrom {α : Type} [DecidableEq α] {d : α} :
    ∀ {lo : Nat} {l : List (Nat × α)}, swfFrom d lo l = true → rises lo (l.map (·.1)) = true
  | _, [], _ => rfl
  | _, p :: r, h => by
    simp only [swfFrom, Bool.and_eq_true, decide_eq_true_eq] at h
    simp only [List.map, rises, Bool.and_eq_true, decide_eq_true_eq]
    exact ⟨h.1.1, rises_of_swfFrom h.2⟩

/-! ### Rising lists -/

theorem rises_mono {a b : Nat} (hab : a ≤ b) : ∀ {l : List Nat}, rises b l = true → rises a l = true
  | [], _ => rfl
  | x :: r, h => by
    simp only [rises, Bool.and_eq_true, decide_eq_true_eq] at h ⊢
    exact ⟨by omega, h.2⟩

theorem rises_filter (f : Nat → Bool) : ∀ {lo : Nat} {l : List Nat}, rises lo l = true → rises lo (l.filter f) = true
  | _, [], _ => rfl
  | lo, x :: r, h => by
    simp only [rises, Bool.and_eq_true, decide_eq_true_eq] at h
    simp only [List.filter]
    split
    · simp only [rises, Bool.and_eq_true, decide_eq_true_eq]
      exact ⟨h.1, rises_filter f h.2⟩
    · exact rises_filter f (rises_mono (by omega) h.2)

theorem rises_sinsert {k : Nat} : ∀ {lo : Nat} {l : List Nat}, lo ≤ k → rises lo l = true → rises lo (sinsert k l) = true
  | lo, [], hk, _ => by simp [sinsert, rises, hk]
  | lo, x :: r, hk, h => by
    have h' := h
    simp only [rises, Bool.and_eq_true, decide_eq_true_eq] at h
    unfold sinsert
    split
    · exact h'
    · split
      · simp only [rises, Bool.and_eq_true, decide_eq_true_eq]
        exact ⟨hk, by omega, h.2⟩
      · simp only [rises, Bool.and_eq_true, decide_eq_true_eq]
        exact ⟨h.1, rises_sinsert (by omega) h.2⟩

theorem keysRise_filter {α : Type} (f : Nat × α → Bool) :
    ∀ {lo : Nat} {l : List (Nat × α)}, rises lo (l.map (·.1)) = true → rises lo ((l.filter f).map (·.1)) = true
  | _, [], _ => rfl
  | lo, p :: r, h => by
    simp only [List.map, rises, Bool.and_eq_true, decide_eq_true_eq] at h
    simp only [List.filter]
    split
    · simp only [List.map, rises, Bool.and_eq_true, decide_eq_true_eq]
      exact ⟨h.1, keysRise_filter f h.2⟩
    · exact keysRise_filter f (rises_mono (by omega) h.2)

theorem keysRise_map {α β : Type} {f : Nat × α → Nat × β} (hf : ∀ e, (f e).1 = e.1) {l : List (Nat × α)}
    (h : keysRise l = true) : keysRise (l.map f) = true := by
  unfold keysRise at *
  rw [List.map_map, show (fun x : Nat × β => x.1) ∘ f = fun x => x.1 from funext hf]
  exact h

theorem keysRise_map_snd {α β : Type} {f : Nat × α → β} {l : List (Nat × α)} (h : keysRise l = true) :
    keysRise (l.map fun e => (e.1, f e)) = true :=
  keysRise_map (f := fun e => (e.1, f e)) (fun _ => rfl) h

theorem keysRise_map_if {α : Type} {c : Nat × α → Bool} {f : Nat × α → α} {l : List (Nat × α)} (h : keysRise l = true) :
    keysRise (l.map fun e => if c e then (e.1, f e) else e) = true :=
  keysRise_map (fun e => by split <;> rfl) h

theorem keysRise_sdel {α : Type} {k : Nat} :
    ∀ {lo : Nat} {l : List (Nat × α)}, rises lo (l.map (·.1)) = true → rises lo ((sdel l k).map (·.1)) = true
  | _, [], _ => rfl
  | lo, p :: r, h => by
    have h' := h
    simp only [List.map, rises, Bool.and_eq_true, decide_eq_true_eq] at h
    unfold sdel
    split
    · exact rises_mono (by omega) h.2
    · split
      · exact h'
      · simp only [List.map, rises, Bool.and_eq_true, decide_eq_true_eq]
        exact ⟨h.1, keysRise_sdel h.2⟩

theorem keysRise_sput {α : Type} {k : Nat} {v : α} :
    ∀ {lo : Nat} {l : List (Nat × α)}, lo ≤ k → rises lo (l.map (·.1)) = true → rises lo ((sput l k v).map (·.1)) = true
  | lo, [], hk, _ => by simp [sput, rises, hk]
  | lo, p :: r, hk, h => by
    have h' := h
    simp only [List.map, rises, Bool.and_eq_true, decide_eq_true_eq] at h
    unfold sput
    split
    · next he =>
      simp only [List.map, rises, Bool.and_eq_true, decide_eq_true_eq]
      exact ⟨hk, by rw [← he]; exact h.2⟩
    · split
      · simp only [List.map, rises, Bool.and_eq_true, decide_eq_true_eq]
        exact ⟨hk, by omega, h.2⟩
      · simp only [List.map, rises, Bool.and_eq_true, decide_eq_true_eq]
        exact ⟨h.1, keysRise_sput (by omega) h.2⟩

theorem keysRise_sset {α : Type} [DecidableEq α] {d v : α} {k : Nat} {l : List (Nat × α)} (h : keysRise l = true) :
    keysRise (sset d l k v) = true := by
  unfold sset
  split
  · exact keysRise_sdel h
  · exact keysRise_sput (Nat.zero_le _) h

/-! ### A read after a write -/

theorem sget_sput_same {α : Type} {d v : α} {k : Nat} : ∀ {l : List (Nat × α)}, sget d (sput l k v) k = v
  | [] => by simp [sput, sget]
  | p :: r => by
    unfold sput
    split
    · simp [sget]
    · split
      · simp [sget]
      · next h1 h2 => simp [sget, h1, h2, sget_sput_same]

theorem sget_sput_other {α : Type} {d v : α} {k j : Nat} (hj : j ≠ k) :
    ∀ {lo : Nat} {l : List (Nat × α)}, rises lo (l.map (·.1)) = true → sget d (sput l k v) j = sget d l j
  | _, [], _ => by simp [sput, sget, Ne.symm hj]
  | lo, p :: r, h => by
    simp only [List.map, rises, Bool.and_eq_true, decide_eq_true_eq] at h
    unfold sput
    split
    · next he => simp only [sget, he]; simp [Ne.symm hj]
    · split
      · next h1 h2 =>
        simp only [sget]
        by_cases hjk : j < k
        · have : j < p.1 := by omega
          simp [Ne.symm hj, hjk, this, Nat.ne_of_gt this]
        · simp [Ne.symm hj, hjk]
      · simp only [sget]
        rw [sget_sput_other hj h.2]

theorem sget_low {α : Type} {d : α} {j lo : Nat} (hj : j < lo) :
    ∀ {l : List (Nat × α)}, rises lo (l.map (·.1)) = true → sget d l j = d
  | [], _ => rfl
  | p :: r, h => by
    simp only [List.map, rises, Bool.and_eq_true, decide_eq_true_eq] at h
    have : j < p.1 := by omega
    simp [sget, this, Nat.ne_of_gt this]

theorem sget_sdel_same {α : Type} {d : α} {k : Nat} :
    ∀ {lo : Nat} {l : List (Nat × α)}, rises lo (l.map (·.1)) = true → sget d (sdel l k) k = d
  | _, [], _ => rfl
  | lo, p :: r, h => by
    simp only [List.map, rises, Bool.and_eq_true, decide_eq_true_eq] at h
    unfold sdel
    split
    · next he => exact sget_low (by omega) h.2
    · split
      · next h1 h2 => simp [sget, h1, h2]
      · next h1 h2 => simp only [sget, h1, h2, if_false]; exact sget_sdel_same h.2

theorem sget_sdel_other {α : Type} {d : α} {k j : Nat} (hj : j ≠ k) :
    ∀ {lo : Nat} {l : List (Nat × α)}, rises lo (l.map (·.1)) = true → sget d (sdel l k) j = sget d l j
  | _, [], _ => rfl
  | lo, p :: r, h => by
    simp only [List.map, rises, Bool.and_eq_true, decide_eq_true_eq] at h
    unfold sdel
    split
    · next he =>
      simp only [sget, he, Ne.symm hj, if_false]
      by_cases hjk : j < k
      · simp only [hjk, if_true]; exact sget_low (by omega) h.2
      · simp [hjk]
    · split
      · rfl
      · simp only [sget]
        rw [sget_sdel_other hj h.2]

/-- A value set reads back, and every other entry reads as before. -/
theorem sget_sset {α : Type} [DecidableEq α] {d v : α} {k j : Nat} {l : List (Nat × α)} (h : keysRise l = true) :
    sget d (sset d l k v) j = if j = k then v else sget d l j := by
  unfold sset
  split
  · next hv =>
    split
    · next he => rw [he, hv]; exact sget_sdel_same h
    · next hn => exact sget_sdel_other hn h
  · split
    · next he => rw [he]; exact sget_sput_same
    · next hn => exact sget_sput_other hn h

end Sys2Proof.Machine
end

