-- ==== Sys2Proof/Laws/Evolves.lean ====
section
/-! SUPPORT. Laws/Evolves.lean: what no operation of the model breaks, as one relation between the state before and the state
after, and the rules by which it passes through conditions, loops and record updates. -/
namespace Sys2Proof.Machine

/-- The conditions of `State.partsRise`, one by one. -/
structure Parts (s : State) : Prop where
  upsets : keysRise s.upsets = true
  ceWin : keysRise s.ceWin = true
  scrubPos : keysRise s.scrubPos = true
  tiles : keysRise s.tiles = true
  barriers : keysRise s.barriers = true
  ports : keysRise s.ports = true
  pools : keysRise s.pools = true
  crossings : keysRise s.crossings = true
  streams : keysRise s.streams = true
  encoders : keysRise s.encoders = true
  chk : keysRise s.chk = true
  links : keysRise s.links = true
  routes : keysRise s.routes = true
  linkKeys : keysRise s.linkKeys = true
  stashStacks : keysRise s.stashStacks = true
  queues : keysRise s.queues = true
  dbgStep : keysRise s.dbgStep = true

theorem parts_iff {s : State} : s.partsRise = true ↔ Parts s := by
  simp only [State.partsRise, Bool.and_eq_true]
  constructor
  · rintro h
    exact ⟨h.1.1.1.1.1.1.1.1.1.1.1.1.1.1.1.1, h.1.1.1.1.1.1.1.1.1.1.1.1.1.1.1.2, h.1.1.1.1.1.1.1.1.1.1.1.1.1.1.2, h.1.1.1.1.1.1.1.1.1.1.1.1.1.2, h.1.1.1.1.1.1.1.1.1.1.1.1.2, h.1.1.1.1.1.1.1.1.1.1.1.2, h.1.1.1.1.1.1.1.1.1.1.2, h.1.1.1.1.1.1.1.1.1.2, h.1.1.1.1.1.1.1.1.2, h.1.1.1.1.1.1.1.2, h.1.1.1.1.1.1.2, h.1.1.1.1.1.2, h.1.1.1.1.2, h.1.1.1.2, h.1.1.2, h.1.2, h.2⟩
  · rintro ⟨h0, h1, h2, h3, h4, h5, h6, h7, h8, h9, h10, h11, h12, h13, h14, h15, h16⟩
    exact ⟨⟨⟨⟨⟨⟨⟨⟨⟨⟨⟨⟨⟨⟨⟨⟨h0, h1⟩, h2⟩, h3⟩, h4⟩, h5⟩, h6⟩, h7⟩, h8⟩, h9⟩, h10⟩, h11⟩, h12⟩, h13⟩, h14⟩, h15⟩, h16⟩

/-- What every operation keeps: canonical memory, registers listed once, numbered parts listed once, poisoned lines listed once, at most 256 unread log
records (R431), a fused security version that never falls (R471), nothing sent taken back, free values never used twice, and
the commands that wait. An operation that is no reset (`r` false) also leaves HOLD entered, the always-on domain on, and every
condition of R11 that has occurred recorded (R12, R434). -/
structure Evolves (r : Bool) (s t : State) : Prop where
  mem : Memory.wf s.mem = true → Memory.wf t.mem = true
  regs : keysRise s.regs = true → keysRise t.regs = true
  poison : rises 0 s.poison = true → rises 0 t.poison = true
  parts : Parts s → Parts t
  log : s.log.length ≤ 256 → t.log.length ≤ 256
  svn : s.sec.svnFused ≤ t.sec.svnFused
  out : s.out <+: t.out
  free : s.freeCtr ≤ t.freeCtr
  pending : t.pending = s.pending
  hold : r = false → s.hold = true → t.hold = true
  ao : r = false → s.aoOn = true → t.aoOn = true
  void : r = false → ∀ i, s.voidCause.testBit i = true → t.voidCause.testBit i = true

namespace Evolves

variable {r : Bool} {s t u : State}

theorem refl (r : Bool) (s : State) : Evolves r s s :=
  ⟨id, id, id, id, id, Nat.le_refl _, List.prefix_rfl, Nat.le_refl _, rfl, fun _ => id, fun _ => id, fun _ _ => id⟩

theorem trans (a : Evolves r s t) (b : Evolves r t u) : Evolves r s u :=
  ⟨fun h => b.mem (a.mem h), fun h => b.regs (a.regs h), fun h => b.poison (a.poison h), fun h => b.parts (a.parts h),
   fun h => b.log (a.log h),
   Nat.le_trans a.svn b.svn, a.out.trans b.out, Nat.le_trans a.free b.free, b.pending.trans a.pending,
   fun hr h => b.hold hr (a.hold hr h), fun hr h => b.ao hr (a.ao hr h), fun hr i h => b.void hr i (a.void hr i h)⟩

/-- An operation that is no reset is one that may be. -/
theorem weaken (h : Evolves false s t) : Evolves r s t := by
  cases r
  · exact h
  · exact ⟨h.mem, h.regs, h.poison, h.parts, h.log, h.svn, h.out, h.free, h.pending, nofun, nofun, nofun⟩

/-- An update that touches none of the fields above. -/
theorem upd (h : Evolves r s t) (h1 : u.mem = t.mem := by rfl) (h2 : u.regs = t.regs := by rfl)
    (h3 : u.poison = t.poison := by rfl) (h4 : u.log = t.log := by rfl) (h5 : u.sec.svnFused = t.sec.svnFused := by rfl)
    (h6 : u.out = t.out := by rfl) (h7 : u.freeCtr = t.freeCtr := by rfl) (h8 : u.pending = t.pending := by rfl)
    (h9 : u.hold = t.hold := by rfl) (h10 : u.aoOn = t.aoOn := by rfl) (h11 : u.voidCause = t.voidCause := by rfl)
    (g0 : u.upsets = t.upsets := by rfl)
    (g1 : u.ceWin = t.ceWin := by rfl)
    (g2 : u.scrubPos = t.scrubPos := by rfl)
    (g3 : u.tiles = t.tiles := by rfl)
    (g4 : u.barriers = t.barriers := by rfl)
    (g5 : u.ports = t.ports := by rfl)
    (g6 : u.pools = t.pools := by rfl)
    (g7 : u.crossings = t.crossings := by rfl)
    (g8 : u.streams = t.streams := by rfl)
    (g9 : u.encoders = t.encoders := by rfl)
    (g10 : u.chk = t.chk := by rfl)
    (g11 : u.links = t.links := by rfl)
    (g12 : u.routes = t.routes := by rfl)
    (g13 : u.linkKeys = t.linkKeys := by rfl)
    (g14 : u.stashStacks = t.stashStacks := by rfl)
    (g15 : u.queues = t.queues := by rfl)
    (g16 : u.dbgStep = t.dbgStep := by rfl) :
    Evolves r s u :=
  h.trans ⟨fun h => h1 ▸ h, fun h => h2 ▸ h, fun h => h3 ▸ h,
    fun h => ⟨g0 ▸ h.upsets, g1 ▸ h.ceWin, g2 ▸ h.scrubPos, g3 ▸ h.tiles, g4 ▸ h.barriers, g5 ▸ h.ports, g6 ▸ h.pools, g7 ▸ h.crossings, g8 ▸ h.streams, g9 ▸ h.encoders, g10 ▸ h.chk, g11 ▸ h.links, g12 ▸ h.routes, g13 ▸ h.linkKeys, g14 ▸ h.stashStacks, g15 ▸ h.queues, g16 ▸ h.dbgStep⟩, fun h => h4 ▸ h, Nat.le_of_eq h5.symm, h6 ▸ List.prefix_rfl,
    Nat.le_of_eq h7.symm, h8, fun _ h => h9 ▸ h, fun _ h => h10 ▸ h, fun _ _ h => h11 ▸ h⟩

/-- An update that also sends something. -/
theorem sent (h : Evolves r s t) (l : List Out) (h6 : u.out = t.out ++ l) (h1 : u.mem = t.mem := by rfl)
    (h2 : u.regs = t.regs := by rfl) (h3 : u.poison = t.poison := by rfl) (h4 : u.log = t.log := by rfl)
    (h5 : u.sec.svnFused = t.sec.svnFused := by rfl) (h7 : u.freeCtr = t.freeCtr := by rfl)
    (h8 : u.pending = t.pending := by rfl) (h9 : u.hold = t.hold := by rfl) (h10 : u.aoOn = t.aoOn := by rfl)
    (h11 : u.voidCause = t.voidCause := by rfl)
    (g0 : u.upsets = t.upsets := by rfl)
    (g1 : u.ceWin = t.ceWin := by rfl)
    (g2 : u.scrubPos = t.scrubPos := by rfl)
    (g3 : u.tiles = t.tiles := by rfl)
    (g4 : u.barriers = t.barriers := by rfl)
    (g5 : u.ports = t.ports := by rfl)
    (g6 : u.pools = t.pools := by rfl)
    (g7 : u.crossings = t.crossings := by rfl)
    (g8 : u.streams = t.streams := by rfl)
    (g9 : u.encoders = t.encoders := by rfl)
    (g10 : u.chk = t.chk := by rfl)
    (g11 : u.links = t.links := by rfl)
    (g12 : u.routes = t.routes := by rfl)
    (g13 : u.linkKeys = t.linkKeys := by rfl)
    (g14 : u.stashStacks = t.stashStacks := by rfl)
    (g15 : u.queues = t.queues := by rfl)
    (g16 : u.dbgStep = t.dbgStep := by rfl) : Evolves r s u :=
  h.trans ⟨fun h => h1 ▸ h, fun h => h2 ▸ h, fun h => h3 ▸ h,
    fun h => ⟨g0 ▸ h.upsets, g1 ▸ h.ceWin, g2 ▸ h.scrubPos, g3 ▸ h.tiles, g4 ▸ h.barriers, g5 ▸ h.ports, g6 ▸ h.pools, g7 ▸ h.crossings, g8 ▸ h.streams, g9 ▸ h.encoders, g10 ▸ h.chk, g11 ▸ h.links, g12 ▸ h.routes, g13 ▸ h.linkKeys, g14 ▸ h.stashStacks, g15 ▸ h.queues, g16 ▸ h.dbgStep⟩, fun h => h4 ▸ h, Nat.le_of_eq h5.symm,
    h6 ▸ List.prefix_append _ _, Nat.le_of_eq h7.symm, h8, fun _ h => h9 ▸ h, fun _ h => h10 ▸ h, fun _ _ h => h11 ▸ h⟩

theorem ite {c : Prop} [Decidable c] (ht : Evolves r s t) (he : Evolves r s u) : Evolves r s (if c then t else u) := by
  split <;> assumption

theorem ite_fst {α : Type} {c : Prop} [Decidable c] {p q : State × α} (ht : Evolves r s p.1) (he : Evolves r s q.1) :
    Evolves r s (if c then p else q).1 := by
  split <;> assumption

theorem foldl {α : Type} {f : State → α → State} {l : List α} (hf : ∀ a x, Evolves r s a → Evolves r s (f a x))
    (h : Evolves r s t) : Evolves r s (l.foldl f t) := by
  induction l generalizing t with
  | nil => exact h
  | cons x l ih => exact ih (hf t x h)

theorem foldl_fst {α β : Type} {f : State × β → α → State × β} {l : List α} {p : State × β}
    (hf : ∀ a x, Evolves r s a.1 → Evolves r s (f a x).1) (h : Evolves r s p.1) : Evolves r s (l.foldl f p).1 := by
  induction l generalizing p with
  | nil => exact h
  | cons x l ih => exact ih (hf p x h)

/-- The state of a pair that an operation answered. -/
theorem of_pair {α : Type} {p : State × α} {x : α} (he : p = (u, x)) (h : Evolves r s p.1) : Evolves r s u := by
  subst he; exact h

theorem of_pair2 {α : Type} {p : α × State} {x : α} (he : p = (x, u)) (h : Evolves r s p.2) : Evolves r s u := by
  subst he; exact h

theorem mk_fst {α : Type} {x : α} (h : Evolves r s t) : Evolves r s (t, x).1 := h

theorem mk_snd {α : Type} {x : α} (h : Evolves r s t) : Evolves r s (x, t).2 := h

theorem of_fst {α : Type} {p q : State × α} (he : p = q) (h : Evolves r s p.1) : Evolves r s q.1 := he ▸ h

theorem of_option {o : Option State} (he : o = some u) (h : ∀ x, o = some x → Evolves r s x) : Evolves r s u := h u he

theorem of_eq (he : t = u) (h : Evolves r s t) : Evolves r s u := he ▸ h

theorem elim {α : Type} {o : Option α} {f : α → State} (hn : Evolves r s t) (hf : ∀ x, Evolves r s (f x)) :
    Evolves r s (o.elim t f) := by
  cases o
  · exact hn
  · exact hf _

end Evolves

end Sys2Proof.Machine
end

