-- ==== Sys2Proof/Laws/EvolvesOps.lean ====
section
/-! SUPPORT. Laws/EvolvesOps.lean: every operation of the named operations, memory, sequencers and the step core evolves the state (Laws/Evolves.lean); one lemma for each. -/
namespace Sys2Proof.Machine

set_option Elab.async false
set_option linter.all false

variable {r : Bool}

/-- A record update that touches none of the fields above. -/
theorem Evolves.upd_mk {r : Bool} {s t : State} {mt' aoOn' hold' regs' mem' poison' upsets' ceWin' scrubPos' tiles' signals' arrivals' barriers' step' ctlOut' log' logLatch' logOverwrote' voidCause' ports' pools' kvWaiters' rings' dispatch' crossings' streams' tokQueue' encoders' chk' links' stranded' routes' linkKeys' gate' stashStacks' ckp' xfers' reqs' nextReq' timeSynced' timeGood' timeMissed' slew' slewTicks' queues' sec' pwr' bst' tap' srstBusy' dbgStep' out' answer' freeCtr' pending'} 
    (h0 : mem' = t.mem ) (h1 : regs' = t.regs ) (h2 : poison' = t.poison ) (h3 : log' = t.log ) (h4 : sec'.svnFused = t.sec.svnFused ) (h5 : out' = t.out ) (h6 : freeCtr' = t.freeCtr ) (h7 : pending' = t.pending ) (h8 : hold' = t.hold ) (h9 : aoOn' = t.aoOn ) (h10 : voidCause' = t.voidCause )
    (g0 : upsets' = t.upsets) (g1 : ceWin' = t.ceWin) (g2 : scrubPos' = t.scrubPos) (g3 : tiles' = t.tiles) (g4 : barriers' = t.barriers) (g5 : ports' = t.ports) (g6 : pools' = t.pools) (g7 : crossings' = t.crossings) (g8 : streams' = t.streams) (g9 : encoders' = t.encoders) (g10 : chk' = t.chk) (g11 : links' = t.links) (g12 : routes' = t.routes) (g13 : linkKeys' = t.linkKeys) (g14 : stashStacks' = t.stashStacks) (g15 : queues' = t.queues) (g16 : dbgStep' = t.dbgStep) (h : Evolves r s t) :
    Evolves r s (State.mk mt' aoOn' hold' regs' mem' poison' upsets' ceWin' scrubPos' tiles' signals' arrivals' barriers' step' ctlOut' log' logLatch' logOverwrote' voidCause' ports' pools' kvWaiters' rings' dispatch' crossings' streams' tokQueue' encoders' chk' links' stranded' routes' linkKeys' gate' stashStacks' ckp' xfers' reqs' nextReq' timeSynced' timeGood' timeMissed' slew' slewTicks' queues' sec' pwr' bst' tap' srstBusy' dbgStep' out' answer' freeCtr' pending') :=
  h.upd h0 h1 h2 h3 h4 h5 h6 h7 h8 h9 h10 g0 g1 g2 g3 g4 g5 g6 g7 g8 g9 g10 g11 g12 g13 g14 g15 g16

/-- A record update that only sends something. -/
theorem Evolves.upd_out {r : Bool} {s t : State} {mt' aoOn' hold' regs' mem' poison' upsets' ceWin' scrubPos' tiles' signals' arrivals' barriers' step' ctlOut' log' logLatch' logOverwrote' voidCause' ports' pools' kvWaiters' rings' dispatch' crossings' streams' tokQueue' encoders' chk' links' stranded' routes' linkKeys' gate' stashStacks' ckp' xfers' reqs' nextReq' timeSynced' timeGood' timeMissed' slew' slewTicks' queues' sec' pwr' bst' tap' srstBusy' dbgStep' out' answer' freeCtr' pending'} 
    (h5 : ∃ l, out' = t.out ++ l) (h0 : mem' = t.mem ) (h1 : regs' = t.regs ) (h2 : poison' = t.poison ) (h3 : log' = t.log ) (h4 : sec'.svnFused = t.sec.svnFused ) (h6 : freeCtr' = t.freeCtr ) (h7 : pending' = t.pending ) (h8 : hold' = t.hold ) (h9 : aoOn' = t.aoOn ) (h10 : voidCause' = t.voidCause )
    (g0 : upsets' = t.upsets) (g1 : ceWin' = t.ceWin) (g2 : scrubPos' = t.scrubPos) (g3 : tiles' = t.tiles) (g4 : barriers' = t.barriers) (g5 : ports' = t.ports) (g6 : pools' = t.pools) (g7 : crossings' = t.crossings) (g8 : streams' = t.streams) (g9 : encoders' = t.encoders) (g10 : chk' = t.chk) (g11 : links' = t.links) (g12 : routes' = t.routes) (g13 : linkKeys' = t.linkKeys) (g14 : stashStacks' = t.stashStacks) (g15 : queues' = t.queues) (g16 : dbgStep' = t.dbgStep) (h : Evolves r s t) :
    Evolves r s (State.mk mt' aoOn' hold' regs' mem' poison' upsets' ceWin' scrubPos' tiles' signals' arrivals' barriers' step' ctlOut' log' logLatch' logOverwrote' voidCause' ports' pools' kvWaiters' rings' dispatch' crossings' streams' tokQueue' encoders' chk' links' stranded' routes' linkKeys' gate' stashStacks' ckp' xfers' reqs' nextReq' timeSynced' timeGood' timeMissed' slew' slewTicks' queues' sec' pwr' bst' tap' srstBusy' dbgStep' out' answer' freeCtr' pending') :=
  h5.elim fun l e => h.sent l e h0 h1 h2 h3 h4 h6 h7 h8 h9 h10 g0 g1 g2 g3 g4 g5 g6 g7 g8 g9 g10 g11 g12 g13 g14 g15 g16

/-- A record update that touches only numbered parts. -/
theorem Evolves.upd_parts {r : Bool} {s t : State} {mt' aoOn' hold' regs' mem' poison' upsets' ceWin' scrubPos' tiles' signals' arrivals' barriers' step' ctlOut' log' logLatch' logOverwrote' voidCause' ports' pools' kvWaiters' rings' dispatch' crossings' streams' tokQueue' encoders' chk' links' stranded' routes' linkKeys' gate' stashStacks' ckp' xfers' reqs' nextReq' timeSynced' timeGood' timeMissed' slew' slewTicks' queues' sec' pwr' bst' tap' srstBusy' dbgStep' out' answer' freeCtr' pending'} 
    (hp : Parts t → Parts (State.mk mt' aoOn' hold' regs' mem' poison' upsets' ceWin' scrubPos' tiles' signals' arrivals' barriers' step' ctlOut' log' logLatch' logOverwrote' voidCause' ports' pools' kvWaiters' rings' dispatch' crossings' streams' tokQueue' encoders' chk' links' stranded' routes' linkKeys' gate' stashStacks' ckp' xfers' reqs' nextReq' timeSynced' timeGood' timeMissed' slew' slewTicks' queues' sec' pwr' bst' tap' srstBusy' dbgStep' out' answer' freeCtr' pending'))
    (h0 : mem' = t.mem ) (h1 : regs' = t.regs ) (h2 : poison' = t.poison ) (h3 : log' = t.log ) (h4 : sec'.svnFused = t.sec.svnFused ) (h5 : out' = t.out ) (h6 : freeCtr' = t.freeCtr ) (h7 : pending' = t.pending ) (h8 : hold' = t.hold ) (h9 : aoOn' = t.aoOn ) (h10 : voidCause' = t.voidCause )
     (h : Evolves r s t) :
    Evolves r s (State.mk mt' aoOn' hold' regs' mem' poison' upsets' ceWin' scrubPos' tiles' signals' arrivals' barriers' step' ctlOut' log' logLatch' logOverwrote' voidCause' ports' pools' kvWaiters' rings' dispatch' crossings' streams' tokQueue' encoders' chk' links' stranded' routes' linkKeys' gate' stashStacks' ckp' xfers' reqs' nextReq' timeSynced' timeGood' timeMissed' slew' slewTicks' queues' sec' pwr' bst' tap' srstBusy' dbgStep' out' answer' freeCtr' pending') :=
  h.trans ⟨fun h => h0 ▸ h, fun h => h1 ▸ h, fun h => h2 ▸ h, hp, fun h => h3 ▸ h, Nat.le_of_eq h4.symm, h5 ▸ List.prefix_rfl,
    Nat.le_of_eq h6.symm, h7, fun _ h => h8 ▸ h, fun _ h => h9 ▸ h, fun _ _ h => h10 ▸ h⟩

theorem State.setReg_evolves {s₀ s} (a b c) (h : Evolves r s₀ s) : Evolves r s₀ (State.setReg s a b c) :=
  h.trans { Evolves.refl r s with regs := fun hr => keysRise_sset hr, parts := fun hp => { hp with } }

theorem State.setFld_evolves {s₀ s} (a b c d e) (h : Evolves r s₀ s) : Evolves r s₀ (State.setFld s a b c d e) := by
  unfold State.setFld
  with_reducible refine State.setReg_evolves _ _ _ ?_
  exact h

theorem State.bump_evolves {s₀ s} (a b c) (h : Evolves r s₀ s) : Evolves r s₀ (State.bump s a b c) := by
  unfold State.bump
  with_reducible refine State.setReg_evolves _ _ _ ?_
  exact h

theorem State.wrapAdd_evolves {s₀ s} (a b c) (h : Evolves r s₀ s) : Evolves r s₀ (State.wrapAdd s a b c) := by
  unfold State.wrapAdd
  with_reducible refine State.setReg_evolves _ _ _ ?_
  exact h

theorem State.orReg_evolves {s₀ s} (a b c) (h : Evolves r s₀ s) : Evolves r s₀ (State.orReg s a b c) := by
  unfold State.orReg
  with_reducible refine State.setReg_evolves _ _ _ ?_
  exact h

theorem State.resetBlock_evolves {s₀ s} (a) (h : Evolves r s₀ s) : Evolves r s₀ (State.resetBlock s a) :=
  h.trans { Evolves.refl r s with regs := fun hr => keysRise_filter _ hr, parts := fun hp => { hp with } }

theorem State.resetPage_evolves {s₀ s} (a) (h : Evolves r s₀ s) : Evolves r s₀ (State.resetPage s a) :=
  h.trans { Evolves.refl r s with regs := fun hr => keysRise_filter _ hr, parts := fun hp => { hp with } }

theorem State.setByte_evolves {s₀ s} (a b) (h : Evolves r s₀ s) : Evolves r s₀ (State.setByte s a b) :=
  h.trans { Evolves.refl r s with mem := fun hm => swf_sset hm, parts := fun hp => { hp with } }

theorem State.store_evolves {s₀ s} (a b) (h : Evolves r s₀ s) : Evolves r s₀ (State.store s a b) :=
  h.trans { Evolves.refl r s with mem := fun hm => wf_putList hm, poison := fun hp => rises_filter _ hp, parts := fun hp => { hp with upsets := keysRise_filter _ hp.upsets } }

theorem State.storeLe_evolves {s₀ s} (a b c) (h : Evolves r s₀ s) : Evolves r s₀ (State.storeLe s a b c) := by
  unfold State.storeLe
  with_reducible refine State.store_evolves _ _ ?_
  exact h

theorem State.poisonLine_evolves {s₀ s} (a) (h : Evolves r s₀ s) : Evolves r s₀ (State.poisonLine s a) :=
  h.trans { Evolves.refl r s with poison := fun hp => rises_sinsert (Nat.zero_le _) hp, parts := fun hp => { hp with } }

theorem State.clearUpset_evolves {s₀ s} (a) (h : Evolves r s₀ s) : Evolves r s₀ (State.clearUpset s a) := by
  unfold State.clearUpset
  with_reducible refine Evolves.upd_parts ?_ rfl rfl rfl rfl rfl rfl rfl rfl rfl rfl rfl ?_
  · exact fun hp => { hp with
      upsets := by first | exact keysRise_sset hp.upsets | exact keysRise_filter _ hp.upsets | exact keysRise_sput (Nat.zero_le _) hp.upsets | exact keysRise_sdel hp.upsets | exact keysRise_map_snd hp.upsets | exact keysRise_map_if hp.upsets | rfl
    }
  exact h

theorem State.zeroRange_evolves {s₀ s} (a b) (h : Evolves r s₀ s) : Evolves r s₀ (State.zeroRange s a b) :=
  h.trans { Evolves.refl r s with mem := fun hm => wf_filter _ hm, poison := fun hp => rises_filter _ hp, parts := fun hp => { hp with upsets := keysRise_filter _ hp.upsets } }

theorem State.setTile_evolves {s₀ s} (a b) (h : Evolves r s₀ s) : Evolves r s₀ (State.setTile s a b) := by
  unfold State.setTile
  with_reducible refine Evolves.upd_parts ?_ rfl rfl rfl rfl rfl rfl rfl rfl rfl rfl rfl ?_
  · exact fun hp => { hp with
      tiles := by first | exact keysRise_sset hp.tiles | exact keysRise_filter _ hp.tiles | exact keysRise_sput (Nat.zero_le _) hp.tiles | exact keysRise_sdel hp.tiles | exact keysRise_map_snd hp.tiles | exact keysRise_map_if hp.tiles | rfl
    }
  exact h

theorem State.modTile_evolves {s₀ s} (a b) (h : Evolves r s₀ s) : Evolves r s₀ (State.modTile s a b) := by
  unfold State.modTile
  with_reducible refine State.setTile_evolves _ _ ?_
  exact h

theorem State.fresh_evolves {s₀ s} (h : Evolves r s₀ s) : Evolves r s₀ (State.fresh s).2 :=
  h.trans { Evolves.refl r s with free := Nat.le_succ _, parts := fun hp => { hp with } }

theorem State.setPort_evolves {s₀ s} (a b) (h : Evolves r s₀ s) : Evolves r s₀ (State.setPort s a b) := by
  unfold State.setPort
  with_reducible refine Evolves.upd_parts ?_ rfl rfl rfl rfl rfl rfl rfl rfl rfl rfl rfl ?_
  · exact fun hp => { hp with
      ports := by first | exact keysRise_sset hp.ports | exact keysRise_filter _ hp.ports | exact keysRise_sput (Nat.zero_le _) hp.ports | exact keysRise_sdel hp.ports | exact keysRise_map_snd hp.ports | exact keysRise_map_if hp.ports | rfl
    }
  exact h

theorem State.setDom_evolves {s₀ s} (a b) (h : Evolves r s₀ s) : Evolves r s₀ (State.setDom s a b) := by
  unfold State.setDom
  with_reducible refine Evolves.ite ?_ ?_
  · with_reducible refine State.setReg_evolves _ _ _ ?_
    exact h
  · with_reducible refine State.setReg_evolves _ _ _ ?_
    exact h

theorem State.sendMsix_evolves {s₀ s} (a b) (h : Evolves r s₀ s) : Evolves r s₀ (State.sendMsix s a b) :=
  have hp := State.setPort_evolves (r := r) a (if s.fld (pHPT a) R.HPT_IRQ_HOLDOFF 15 0 = 0 then s.port a else { s.port a with holdoff := sput (s.port a).holdoff b s.mt }) h
  hp.sent [.msix a b] rfl

theorem State.signalPort_evolves {s₀ s} (a b) (h : Evolves r s₀ s) : Evolves r s₀ (State.signalPort s a b) := by
  unfold State.signalPort
  extract_lets -underBinder -merge -useContext +onlyGivenNames v0
  try clear_value v0
  with_reducible refine Evolves.ite ?_ ?_
  · with_reducible refine State.bump_evolves _ _ _ ?_
    exact h
  · with_reducible refine Evolves.ite ?_ ?_
    · with_reducible refine State.setPort_evolves _ _ ?_
      exact h
    · with_reducible refine Evolves.ite ?_ ?_
      · with_reducible refine State.setPort_evolves _ _ ?_
        exact h
      · with_reducible refine State.sendMsix_evolves _ _ ?_
        exact h

theorem State.signal_evolves {s₀ s} (a b) (h : Evolves r s₀ s) : Evolves r s₀ (State.signal s a b) := by
  unfold State.signal
  extract_lets -underBinder -merge -useContext +onlyGivenNames v0
  try clear_value v0
  extract_lets -underBinder -merge -useContext +onlyGivenNames v1
  try clear_value v1
  extract_lets -underBinder -merge -useContext +onlyGivenNames v2
  try clear_value v2
  extract_lets -underBinder -merge -useContext +onlyGivenNames v3
  try clear_value v3
  extract_lets -underBinder -merge -useContext +onlyGivenNames v4
  have hv4 : Evolves r s₀ v4 := by
    with_reducible refine Evolves.ite ?_ ?_
    · split
      · with_reducible refine State.signalPort_evolves _ _ ?_
        exact h
      · exact h
    · exact h
  extract_lets -underBinder -merge -useContext +onlyGivenNames v7
  try clear_value v7
  extract_lets -underBinder -merge -useContext +onlyGivenNames v8
  have hv8 : Evolves r s₀ v8 := by
    with_reducible refine Evolves.ite ?_ ?_
    · with_reducible refine Evolves.foldl (fun a9 x10 ha9 => ?_) ?_
      · with_reducible refine Evolves.ite ?_ ?_
        · with_reducible refine State.signalPort_evolves _ _ ?_
          exact ha9
        · exact ha9
      · exact hv4
    · exact hv4
  with_reducible refine Evolves.ite ?_ ?_
  · with_reducible refine Evolves.upd_out ?_ rfl rfl rfl rfl rfl rfl rfl rfl rfl rfl rfl rfl rfl rfl rfl rfl rfl rfl rfl rfl rfl rfl rfl rfl rfl rfl rfl ?_
    · exact ⟨_, rfl⟩
    exact hv8
  · exact hv8

theorem State.trace_evolves {s₀ s} (a) (h : Evolves r s₀ s) : Evolves r s₀ (State.trace s a) := by
  unfold State.trace
  extract_lets -underBinder -merge -useContext +onlyGivenNames v0
  try clear_value v0
  with_reducible refine Evolves.ite ?_ ?_
  · extract_lets -underBinder -merge -useContext +onlyGivenNames v1
    try clear_value v1
    extract_lets -underBinder -merge -useContext +onlyGivenNames v2
    try clear_value v2
    extract_lets -underBinder -merge -useContext +onlyGivenNames v3
    try clear_value v3
    with_reducible refine State.setReg_evolves _ _ _ ?_
    with_reducible refine State.store_evolves _ _ ?_
    exact h
  · exact h

theorem State.setEvt_evolves {s₀ s} (a b) (h : Evolves r s₀ s) : Evolves r s₀ (State.setEvt s a b) := by
  unfold State.setEvt
  extract_lets -underBinder -merge -useContext +onlyGivenNames v0
  try clear_value v0
  extract_lets -underBinder -merge -useContext +onlyGivenNames v1
  try clear_value v1
  extract_lets -underBinder -merge -useContext +onlyGivenNames v2
  have hv2 : Evolves r s₀ v2 := by
    with_reducible refine State.setReg_evolves _ _ _ ?_
    exact h
  try clear_value v2
  with_reducible refine Evolves.ite ?_ ?_
  · with_reducible refine State.signal_evolves _ _ ?_
    exact hv2
  · exact hv2

theorem State.notice_evolves {s₀ s} (a b c) (h : Evolves r s₀ s) : Evolves r s₀ (State.notice s a b c) := by
  unfold State.notice
  with_reducible refine State.trace_evolves _ ?_
  with_reducible refine State.setEvt_evolves _ _ ?_
  exact h

theorem State.voidBy_evolves {s₀ s} (a) (h : Evolves r s₀ s) : Evolves r s₀ (State.voidBy s a) :=
  h.trans { Evolves.refl r s with void := fun _ i hi => by simp [State.voidBy, Nat.testBit_or, hi], parts := fun hp => { hp with } }


/-! A notice is not logged (R429). -/

theorem State.signalPort_log (s : State) (a b) : (s.signalPort a b).log = s.log := by
  unfold State.signalPort
  dsimp only
  split
  · rfl
  · split
    · rfl
    · split <;> rfl

theorem foldl_log {α : Type} {f : State → α → State} (hf : ∀ s x, (f s x).log = s.log) :
    ∀ (l : List α) (s : State), (l.foldl f s).log = s.log
  | [], _ => rfl
  | x :: l, s => (foldl_log hf l (f s x)).trans (hf s x)

theorem State.signal_log (s : State) (a b) : (s.signal a b).log = s.log := by
  unfold State.signal
  extract_lets -underBinder -merge -useContext +onlyGivenNames v0 v1 v2 v3 v4
  have h4 : v4.log = s.log := by
    unfold v4
    clear_value v3
    split
    · split
      · exact State.signalPort_log _ _ _
      · rfl
    · rfl
  clear_value v4
  extract_lets -underBinder -merge -useContext +onlyGivenNames v5 v6
  have h6 : v6.log = s.log := by
    unfold v6
    split
    · refine (foldl_log (fun t x => ?_) _ _).trans h4
      split
      · exact State.signalPort_log _ _ _
      · rfl
    · exact h4
  clear_value v6
  split
  · exact h6
  · exact h6

theorem State.setEvt_log (s : State) (a b) : (s.setEvt a b).log = s.log := by
  unfold State.setEvt
  dsimp only
  split
  · exact State.signal_log _ _ _
  · rfl

theorem State.trace_log (s : State) (a) : (s.trace a).log = s.log := by
  unfold State.trace
  dsimp only
  split <;> rfl

theorem State.notice_log (s : State) (a b c) : (s.notice a b c).log = s.log :=
  (State.trace_log _ _).trans (State.setEvt_log _ _ _)

theorem State.logVictim_lt {s : State} (h : s.log ≠ []) : s.logVictim < s.log.length := by
  have hp : 0 < s.log.length := List.length_pos_iff.mpr h
  unfold State.logVictim
  split
  · next hi => exact (List.findIdx?_eq_some_iff_findIdx_eq.mp hi).1
  · cases hj : s.log.findIdx? fun r => !(s.fatalPend && r.seq == s.reg pERR R.ERR_FATAL_SEQ) with
    | none => exact hp
    | some i => exact (List.findIdx?_eq_some_iff_findIdx_eq.mp hj).1

theorem State.logAppend_evolves {s₀ s} (a) (h : Evolves r s₀ s) : Evolves r s₀ (State.logAppend s a) := by
  unfold State.logAppend
  extract_lets -underBinder -merge -useContext +onlyGivenNames v0 v1 v
  have h0 : ¬ s.log.length < 256 → Evolves r s v0 ∧ (s.log.length ≤ 256 → v0.log.length ≤ 255) := fun hl => by
    have hne : s.log ≠ [] := fun hn => hl (by rw [hn]; decide)
    have he : (s.log.eraseIdx s.logVictim).length = s.log.length - 1 := by
      rw [List.length_eraseIdx]; simp [State.logVictim_lt hne]
    refine ⟨State.bump_evolves pERR R.ERR_LOST 1 { Evolves.refl r s with log := fun hn => ?_, parts := fun hp => { hp with } }, fun hn => ?_⟩
    · show (s.log.eraseIdx s.logVictim).length ≤ 256
      omega
    · show (s.log.eraseIdx s.logVictim).length ≤ 255
      omega
  have h1 : v1.log = v0.log := State.notice_log v0 pERR 2 0
  have e1 : Evolves r v0 v1 := State.notice_evolves _ _ _ (Evolves.refl r v0)
  have hv : Evolves r s v ∧ (s.log.length ≤ 256 → v.log.length ≤ 255) := by
    unfold v
    clear_value v1 v0
    split
    · exact ⟨Evolves.refl r s, fun _ => by omega⟩
    · next hl =>
      split
      · exact h0 hl
      · refine ⟨((h0 hl).1.trans e1).upd, fun hn => ?_⟩
        show v1.log.length ≤ 255
        rw [h1]
        exact (h0 hl).2 hn
  clear_value v v1 v0
  refine State.wrapAdd_evolves _ _ _ (h.trans ?_)
  refine { hv.1 with log := fun hn => ?_, parts := fun hp => { hv.1.parts hp with } }
  have := hv.2 hn
  show (v.log ++ [a]).length ≤ 256
  rw [List.length_append]
  simp only [List.length_cons, List.length_nil]
  omega

theorem State.fatalAct_evolves {s₀ s} (a) (h : Evolves r s₀ s) : Evolves r s₀ (State.fatalAct s a) := by
  unfold State.fatalAct
  with_reducible refine Evolves.ite (Evolves.ite h ?_) ?_
  · refine State.notice_evolves _ _ _ (State.voidBy_evolves _ (h.trans ?_))
    exact { Evolves.refl r s with hold := fun _ _ => rfl, parts := fun hp => { hp with } }
  · exact State.notice_evolves _ _ _ (State.setReg_evolves _ _ _ (State.orReg_evolves _ _ _ h))

theorem State.logError_evolves {s₀ s} (a b c d e f g i) (h : Evolves r s₀ s) : Evolves r s₀ (State.logError s a b c d e f g i) := by
  unfold State.logError
  extract_lets -underBinder -merge -useContext +onlyGivenNames v0
  try clear_value v0
  extract_lets -underBinder -merge -useContext +onlyGivenNames v1
  try clear_value v1
  extract_lets -underBinder -merge -useContext +onlyGivenNames v2
  have hv2 : Evolves r s₀ v2 := by
    with_reducible refine Evolves.ite ?_ ?_
    · with_reducible refine State.setReg_evolves _ _ _ ?_
      with_reducible refine State.setReg_evolves _ _ _ ?_
      with_reducible refine State.setReg_evolves _ _ _ ?_
      with_reducible refine State.setReg_evolves _ _ _ ?_
      with_reducible refine State.setReg_evolves _ _ _ ?_
      exact h
    · with_reducible refine State.bump_evolves _ _ _ ?_
      exact h
  try clear_value v2
  extract_lets -underBinder -merge -useContext +onlyGivenNames v3
  try clear_value v3
  extract_lets -underBinder -merge -useContext +onlyGivenNames v4
  try clear_value v4
  extract_lets -underBinder -merge -useContext +onlyGivenNames v5
  have hv5 : Evolves r s₀ v5 := by
    with_reducible refine Evolves.ite ?_ ?_
    · with_reducible refine State.voidBy_evolves _ ?_
      exact hv2
    · exact hv2
  try clear_value v5
  extract_lets -underBinder -merge -useContext +onlyGivenNames v6
  have hv6 : Evolves r s₀ v6 := by
    with_reducible refine State.trace_evolves _ ?_
    with_reducible refine State.logAppend_evolves _ ?_
    exact hv5
  try clear_value v6
  with_reducible refine Evolves.ite ?_ ?_
  · with_reducible refine State.fatalAct_evolves _ ?_
    exact hv6
  · exact hv6

theorem State.raise_evolves {s₀ s} (a b c d e f) (h : Evolves r s₀ s) : Evolves r s₀ (State.raise s a b c d e f) := by
  unfold State.raise
  split
  · exact h
  · with_reducible refine Evolves.ite ?_ ?_
    · exact h
    · extract_lets -underBinder -merge -useContext +onlyGivenNames v3
      try clear_value v3
      extract_lets -underBinder -merge -useContext +onlyGivenNames v4
      try clear_value v4
      with_reducible refine Evolves.ite ?_ ?_
      · with_reducible refine State.notice_evolves _ _ _ ?_
        exact h
      · with_reducible refine State.logError_evolves _ _ _ _ _ _ _ _ ?_
        with_reducible refine State.setEvt_evolves _ _ ?_
        exact h

theorem State.deny_evolves {s₀ s} (a b c) (h : Evolves r s₀ s) : Evolves r s₀ (State.deny s a b c) := by
  unfold State.deny
  with_reducible refine State.notice_evolves _ _ _ ?_
  with_reducible refine State.setReg_evolves _ _ _ ?_
  with_reducible refine State.bump_evolves _ _ _ ?_
  exact h

theorem State.addCtr_evolves {s₀ s} (a b c) (h : Evolves r s₀ s) : Evolves r s₀ (State.addCtr s a b c) := by
  unfold State.addCtr
  with_reducible refine Evolves.ite ?_ ?_
  · with_reducible refine State.wrapAdd_evolves _ _ _ ?_
    exact h
  · with_reducible refine Evolves.ite ?_ ?_
    · with_reducible refine State.wrapAdd_evolves _ _ _ ?_
      exact h
    · exact h

theorem State.send_evolves {s₀ s} (a b c d) (h : Evolves r s₀ s) : Evolves r s₀ (State.send s a b c d) := by
  unfold State.send
  with_reducible refine Evolves.ite ?_ ?_
  · with_reducible refine Evolves.upd_mk rfl rfl rfl rfl rfl rfl rfl rfl rfl rfl rfl rfl rfl rfl rfl rfl rfl rfl rfl rfl rfl rfl rfl rfl rfl rfl rfl rfl ?_
    exact h
  · exact h

theorem State.blockSignal_evolves {s₀ s} (a b c d e) (h : Evolves r s₀ s) : Evolves r s₀ (State.blockSignal s a b c d e) := by
  unfold State.blockSignal
  extract_lets -underBinder -merge -useContext +onlyGivenNames v0
  try clear_value v0
  with_reducible refine Evolves.ite ?_ ?_
  · with_reducible refine State.send_evolves _ _ _ _ ?_
    exact h
  · exact h

theorem State.reply_evolves {s₀ s} (a) (h : Evolves r s₀ s) : Evolves r s₀ (State.reply s a) := by
  unfold State.reply
  with_reducible refine Evolves.upd_mk rfl rfl rfl rfl rfl rfl rfl rfl rfl rfl rfl rfl rfl rfl rfl rfl rfl rfl rfl rfl rfl rfl rfl rfl rfl rfl rfl rfl ?_
  exact h

theorem State.countCe_evolves {s₀ s} (a b) (h : Evolves r s₀ s) : Evolves r s₀ (State.countCe s a b) := by
  unfold State.countCe
  extract_lets -underBinder -merge -useContext +onlyGivenNames v0
  try clear_value v0
  split
  · extract_lets -underBinder -merge -useContext +onlyGivenNames v3
    try clear_value v3
    extract_lets -underBinder -merge -useContext +onlyGivenNames v4
    have hv4 : Evolves r s₀ v4 := by
      with_reducible refine Evolves.upd_parts ?_ rfl rfl rfl rfl rfl rfl rfl rfl rfl rfl rfl ?_
      · exact fun hp => { hp with
          ceWin := by first | exact keysRise_sset hp.ceWin | exact keysRise_filter _ hp.ceWin | exact keysRise_sput (Nat.zero_le _) hp.ceWin | exact keysRise_sdel hp.ceWin | exact keysRise_map_snd hp.ceWin | exact keysRise_map_if hp.ceWin | rfl
        }
      exact h
    try clear_value v4
    with_reducible refine Evolves.ite ?_ ?_
    · with_reducible refine State.raise_evolves _ _ _ _ _ _ ?_
      exact hv4
    · exact hv4

theorem State.correctLine_evolves {s₀ s} (a) (h : Evolves r s₀ s) : Evolves r s₀ (State.correctLine s a) := by
  unfold State.correctLine
  extract_lets -underBinder -merge -useContext +onlyGivenNames v0
  try clear_value v0
  extract_lets -underBinder -merge -useContext +onlyGivenNames v1
  have hv1 : Evolves r s₀ v1 := by
    with_reducible refine State.clearUpset_evolves _ ?_
    exact h
  try clear_value v1
  split
  · with_reducible refine State.raise_evolves _ _ _ _ _ _ ?_
    with_reducible refine State.bump_evolves _ _ _ ?_
    exact hv1
  · with_reducible refine State.raise_evolves _ _ _ _ _ _ ?_
    with_reducible refine State.bump_evolves _ _ _ ?_
    exact hv1
  · split
    · extract_lets -underBinder -merge -useContext +onlyGivenNames v9
      try clear_value v9
      with_reducible refine State.countCe_evolves _ _ ?_
      with_reducible refine State.raise_evolves _ _ _ _ _ _ ?_
      with_reducible refine State.bump_evolves _ _ _ ?_
      exact hv1
    · exact hv1

theorem State.badLine_evolves {s₀ s} (a b c) (h : Evolves r s₀ s) : Evolves r s₀ (State.badLine s a b c) := by
  unfold State.badLine
  split
  · with_reducible refine State.raise_evolves _ _ _ _ _ _ ?_
    with_reducible refine State.orReg_evolves _ _ _ ?_
    exact h
  · with_reducible refine State.raise_evolves _ _ _ _ _ _ ?_
    with_reducible refine State.orReg_evolves _ _ _ ?_
    exact h
  · split
    · extract_lets -underBinder -merge -useContext +onlyGivenNames v7
      try clear_value v7
      with_reducible refine State.poisonLine_evolves _ ?_
      with_reducible refine State.raise_evolves _ _ _ _ _ _ ?_
      with_reducible refine State.orReg_evolves _ _ _ ?_
      with_reducible refine State.bump_evolves _ _ _ ?_
      exact h
    · exact h

theorem State.lineRead_evolves {s₀ s} (a b c) (h : Evolves r s₀ s) : Evolves r s₀ (State.lineRead s a b c).1 := by
  unfold State.lineRead
  extract_lets -underBinder -merge -useContext +onlyGivenNames v0
  try clear_value v0
  with_reducible refine Evolves.ite_fst ?_ ?_
  · with_reducible refine Evolves.mk_fst ?_
    with_reducible refine State.badLine_evolves _ _ _ ?_
    exact h
  · with_reducible refine Evolves.ite_fst ?_ ?_
    · with_reducible refine Evolves.mk_fst ?_
      with_reducible refine State.correctLine_evolves _ ?_
      exact h
    · with_reducible refine Evolves.mk_fst ?_
      exact h

theorem State.readLines_evolves {s₀ s} (a b c) (h : Evolves r s₀ s) : Evolves r s₀ (State.readLines s a b c).1 := by
  unfold State.readLines
  split
  · with_reducible refine Evolves.mk_fst ?_
    exact h
  · split
    · rename_i w3 w4 e5
      have hw3 : Evolves r s₀ w3 := Evolves.of_pair e5 (by
        with_reducible refine State.lineRead_evolves _ _ _ ?_
        exact h)
      with_reducible refine Evolves.ite_fst ?_ ?_
      · with_reducible refine Evolves.mk_fst ?_
        exact hw3
      · with_reducible refine State.readLines_evolves _ _ _ ?_
        exact hw3

theorem State.devRead_evolves {s₀ s} (a b c d) (h : Evolves r s₀ s) : Evolves r s₀ (State.devRead s a b c d).1 := by
  unfold State.devRead
  split
  · rename_i w0 w1 e2
    have hw0 : Evolves r s₀ w0 := Evolves.of_pair e2 (by
      with_reducible refine State.readLines_evolves _ _ _ ?_
      exact h)
    with_reducible refine Evolves.mk_fst ?_
    exact hw0

theorem State.devWrite_evolves {s₀ s} (a b) (h : Evolves r s₀ s) : Evolves r s₀ (State.devWrite s a b) := by
  unfold State.devWrite
  with_reducible refine State.store_evolves _ _ ?_
  exact h

theorem State.devPut_evolves {s₀ s} (a b c) (h : Evolves r s₀ s) : Evolves r s₀ (State.devPut s a b c) := by
  unfold State.devPut
  with_reducible refine State.devWrite_evolves _ _ ?_
  exact h

theorem State.atomic_evolves {s₀ s} (a b) (h : Evolves r s₀ s) : Evolves r s₀ (State.atomic s a b).1 := by
  unfold State.atomic
  split
  · rename_i w0 w1 e2
    have hw0 : Evolves r s₀ w0 := Evolves.of_pair e2 (by
      with_reducible refine State.lineRead_evolves _ _ _ ?_
      exact h)
    with_reducible refine Evolves.ite_fst ?_ ?_
    · with_reducible refine Evolves.mk_fst ?_
      exact hw0
    · with_reducible refine Evolves.mk_fst ?_
      with_reducible refine State.devPut_evolves _ _ _ ?_
      exact hw0

theorem State.passHead_evolves {s₀ s} (a b) (h : Evolves r s₀ s) : Evolves r s₀ (State.passHead s a b) := by
  unfold State.passHead
  extract_lets -underBinder -merge -useContext +onlyGivenNames v0
  try clear_value v0
  split
  · with_reducible refine State.setReg_evolves _ _ _ ?_
    with_reducible refine State.setTile_evolves _ _ ?_
    exact h

theorem State.retireSignals_evolves {s₀ s} (a b c) (h : Evolves r s₀ s) : Evolves r s₀ (State.retireSignals s a b c) := by
  unfold State.retireSignals
  extract_lets -underBinder -merge -useContext +onlyGivenNames v0
  have hv0 : Evolves r s₀ v0 := by
    with_reducible refine Evolves.ite ?_ ?_
    · with_reducible refine State.wrapAdd_evolves _ _ _ ?_
      exact h
    · exact h
  try clear_value v0
  with_reducible refine Evolves.ite ?_ ?_
  · with_reducible refine State.notice_evolves _ _ _ ?_
    exact hv0
  · exact hv0

theorem State.retireUnissued_evolves {s₀ s} (a b c) (h : Evolves r s₀ s) : Evolves r s₀ (State.retireUnissued s a b c) := by
  unfold State.retireUnissued
  with_reducible refine State.passHead_evolves _ _ ?_
  with_reducible refine State.retireSignals_evolves _ _ _ ?_
  exact h

theorem State.haltFor_evolves {s₀ s} (a b c d) (h : Evolves r s₀ s) : Evolves r s₀ (State.haltFor s a b c d) := by
  unfold State.haltFor
  extract_lets -underBinder -merge -useContext +onlyGivenNames v0
  try clear_value v0
  with_reducible refine State.setReg_evolves _ _ _ ?_
  with_reducible refine State.modTile_evolves _ _ ?_
  exact h

theorem State.reject_evolves {s₀ s} (a b c d e f) (h : Evolves r s₀ s) : Evolves r s₀ (State.reject s a b c d e f) := by
  unfold State.reject
  extract_lets -underBinder -merge -useContext +onlyGivenNames v0
  have hv0 : Evolves r s₀ v0 := by
    with_reducible refine State.haltFor_evolves _ _ _ _ ?_
    exact h
  try clear_value v0
  with_reducible refine State.raise_evolves _ _ _ _ _ _ ?_
  exact hv0

theorem State.blurBytes_evolves {s₀ s} (a) (h : Evolves r s₀ s) : Evolves r s₀ (State.blurBytes s a) := by
  unfold State.blurBytes
  split
  · exact h
  · split
    · rename_i w4 w5 e6
      have hw5 : Evolves r s₀ w5 := Evolves.of_pair2 e6 (by
        with_reducible refine State.fresh_evolves ?_
        exact h)
      with_reducible refine State.blurBytes_evolves _ ?_
      with_reducible refine Evolves.ite ?_ ?_
      · with_reducible refine State.setByte_evolves _ _ ?_
        exact hw5
      · exact hw5

theorem State.blurWith_evolves {s₀ s} (a b) (ha : ∀ x0 x1 x2, Evolves r s₀ x0 → Evolves r s₀ (a x0 x1 x2)) (h : Evolves r s₀ s) : Evolves r s₀ (State.blurWith s a b) := by
  unfold State.blurWith
  split
  · exact h
  · split
    · rename_i w3 w4 e5
      have hw4 : Evolves r s₀ w4 := Evolves.of_pair2 e5 (by
        with_reducible refine State.fresh_evolves ?_
        exact h)
      with_reducible refine State.blurWith_evolves _ _ (fun y6 y7 y8 hy6 => ?_) ?_
      · with_reducible refine ha _ _ _ ?_
        exact hy6
      · with_reducible refine ha _ _ _ ?_
        exact hw4

theorem State.setBank_evolves {s₀ s} (a b c) (h : Evolves r s₀ s) : Evolves r s₀ (State.setBank s a b c) := by
  unfold State.setBank
  with_reducible refine State.modTile_evolves _ _ ?_
  exact h

theorem State.setVreg_evolves {s₀ s} (a b c) (h : Evolves r s₀ s) : Evolves r s₀ (State.setVreg s a b c) := by
  unfold State.setVreg
  with_reducible refine State.modTile_evolves _ _ ?_
  exact h

theorem State.setPreg_evolves {s₀ s} (a b c) (h : Evolves r s₀ s) : Evolves r s₀ (State.setPreg s a b c) := by
  unfold State.setPreg
  with_reducible refine State.modTile_evolves _ _ ?_
  exact h

theorem State.blurRun_evolves {s₀ s} (a b) (h : Evolves r s₀ s) : Evolves r s₀ (State.blurRun s a b) := by
  unfold State.blurRun
  with_reducible refine State.blurWith_evolves _ _ (fun y0 y1 y2 hy0 => ?_) ?_
  · with_reducible refine State.setPreg_evolves _ _ _ ?_
    exact hy0
  · with_reducible refine State.blurWith_evolves _ _ (fun y3 y4 y5 hy3 => ?_) ?_
    · with_reducible refine State.setVreg_evolves _ _ _ ?_
      exact hy3
    · with_reducible refine State.blurWith_evolves _ _ (fun y6 y7 y8 hy6 => ?_) ?_
      · with_reducible refine State.setBank_evolves _ _ _ ?_
        exact hy6
      · with_reducible refine State.blurBytes_evolves _ ?_
        exact h

theorem State.stopRuns_evolves {s₀ s} (a b) (h : Evolves r s₀ s) : Evolves r s₀ (State.stopRuns s a b) := by
  unfold State.stopRuns
  extract_lets -underBinder -merge -useContext +onlyGivenNames v0
  try clear_value v0
  with_reducible refine State.modTile_evolves _ _ ?_
  with_reducible refine Evolves.foldl (fun a1 x2 ha1 => ?_) ?_
  · with_reducible refine State.blurRun_evolves _ _ ?_
    exact ha1
  · exact h

theorem State.dropQueued_evolves {s₀ s} (a b c) (h : Evolves r s₀ s) : Evolves r s₀ (State.dropQueued s a b c) := by
  unfold State.dropQueued
  with_reducible refine Evolves.foldl (fun a0 x1 ha0 => ?_) ?_
  · with_reducible refine State.retireUnissued_evolves _ _ _ ?_
    exact ha0
  · exact h

theorem State.dropParked_evolves {s₀ s} (a b c) (h : Evolves r s₀ s) : Evolves r s₀ (State.dropParked s a b c) := by
  unfold State.dropParked
  extract_lets -underBinder -merge -useContext +onlyGivenNames v0
  try clear_value v0
  extract_lets -underBinder -merge -useContext +onlyGivenNames v1
  have hv1 : Evolves r s₀ v1 := by
    with_reducible refine State.modTile_evolves _ _ ?_
    exact h
  try clear_value v1
  with_reducible refine Evolves.foldl (fun a2 x3 ha2 => ?_) ?_
  · with_reducible refine State.retireSignals_evolves _ _ _ ?_
    exact ha2
  · exact hv1

theorem State.clearHaltIf_evolves {s₀ s} (a b) (h : Evolves r s₀ s) : Evolves r s₀ (State.clearHaltIf s a b) := by
  unfold State.clearHaltIf
  split
  · exact h
  · split
    · with_reducible refine Evolves.ite ?_ ?_
      · with_reducible refine State.modTile_evolves _ _ ?_
        exact h
      · exact h

theorem State.discard_evolves {s₀ s} (a b c) (h : Evolves r s₀ s) : Evolves r s₀ (State.discard s a b c) := by
  unfold State.discard
  extract_lets -underBinder -merge -useContext +onlyGivenNames v0
  have hv0 : Evolves r s₀ v0 := by
    with_reducible refine State.clearHaltIf_evolves _ _ ?_
    exact h
  try clear_value v0
  extract_lets -underBinder -merge -useContext +onlyGivenNames v1
  try clear_value v1
  extract_lets -underBinder -merge -useContext +onlyGivenNames v2
  have hv2 : Evolves r s₀ v2 := by
    with_reducible refine State.stopRuns_evolves _ _ ?_
    exact hv0
  try clear_value v2
  with_reducible refine State.dropQueued_evolves _ _ _ ?_
  with_reducible refine State.dropParked_evolves _ _ _ ?_
  exact hv2

theorem State.flushTile_evolves {s₀ s} (a) (h : Evolves r s₀ s) : Evolves r s₀ (State.flushTile s a) := by
  unfold State.flushTile
  extract_lets -underBinder -merge -useContext +onlyGivenNames v0
  try clear_value v0
  with_reducible refine State.discard_evolves _ _ _ ?_
  exact h

theorem State.exciseTile_evolves {s₀ s} (a) (h : Evolves r s₀ s) : Evolves r s₀ (State.exciseTile s a) := by
  unfold State.exciseTile
  extract_lets -underBinder -merge -useContext +onlyGivenNames v0
  try clear_value v0
  extract_lets -underBinder -merge -useContext +onlyGivenNames v1
  try clear_value v1
  extract_lets -underBinder -merge -useContext +onlyGivenNames v2
  try clear_value v2
  extract_lets -underBinder -merge -useContext +onlyGivenNames v3
  have hv3 : Evolves r s₀ v3 := by
    with_reducible refine State.discard_evolves _ _ _ ?_
    exact h
  try clear_value v3
  with_reducible refine Evolves.foldl (fun a4 x5 ha4 => ?_) ?_
  · with_reducible refine State.raise_evolves _ _ _ _ _ _ ?_
    exact ha4
  · exact hv3

theorem State.flushAll_evolves {s₀ s} (a) (h : Evolves r s₀ s) : Evolves r s₀ (State.flushAll s a) := by
  unfold State.flushAll
  with_reducible refine Evolves.foldl (fun a0 x1 ha0 => ?_) ?_
  · with_reducible refine State.flushTile_evolves _ ?_
    with_reducible refine State.setReg_evolves _ _ _ ?_
    exact ha0
  · exact h

theorem State.setPhase_evolves {s₀ s} (a) (h : Evolves r s₀ s) : Evolves r s₀ (State.setPhase s a) := by
  unfold State.setPhase
  with_reducible refine State.setFld_evolves _ _ _ _ _ ?_
  exact h

theorem State.setStsBit_evolves {s₀ s} (a b) (h : Evolves r s₀ s) : Evolves r s₀ (State.setStsBit s a b) := by
  unfold State.setStsBit
  with_reducible refine State.setFld_evolves _ _ _ _ _ ?_
  exact h

theorem State.setGmv_evolves {s₀ s} (a b) (h : Evolves r s₀ s) : Evolves r s₀ (State.setGmv s a b) := by
  unfold State.setGmv
  with_reducible refine Evolves.ite ?_ ?_
  · with_reducible refine Evolves.upd_mk rfl rfl rfl rfl rfl rfl rfl rfl rfl rfl rfl rfl rfl rfl rfl rfl rfl rfl rfl rfl rfl rfl rfl rfl rfl rfl rfl rfl ?_
    exact h
  · with_reducible refine Evolves.upd_mk rfl rfl rfl rfl rfl rfl rfl rfl rfl rfl rfl rfl rfl rfl rfl rfl rfl rfl rfl rfl rfl rfl rfl rfl rfl rfl rfl rfl ?_
    exact h

theorem State.writeGmul_evolves {s₀ s} (a b) (h : Evolves r s₀ s) : Evolves r s₀ (State.writeGmul s a b) := by
  unfold State.writeGmul
  with_reducible refine Evolves.ite ?_ ?_
  · with_reducible refine Evolves.upd_mk rfl rfl rfl rfl rfl rfl rfl rfl rfl rfl rfl rfl rfl rfl rfl rfl rfl rfl rfl rfl rfl rfl rfl rfl rfl rfl rfl rfl ?_
    exact h
  · with_reducible refine Evolves.upd_mk rfl rfl rfl rfl rfl rfl rfl rfl rfl rfl rfl rfl rfl rfl rfl rfl rfl rfl rfl rfl rfl rfl rfl rfl rfl rfl rfl rfl ?_
    exact h

theorem State.startSquash_evolves {s₀ s} (a) (h : Evolves r s₀ s) : Evolves r s₀ (State.startSquash s a) := by
  unfold State.startSquash
  extract_lets -underBinder -merge -useContext +onlyGivenNames v0
  try clear_value v0
  extract_lets -underBinder -merge -useContext +onlyGivenNames v1
  have hv1 : Evolves r s₀ v1 := by
    with_reducible refine State.setStsBit_evolves _ _ ?_
    with_reducible refine State.setStsBit_evolves _ _ ?_
    with_reducible refine State.setPhase_evolves _ ?_
    exact h
  try clear_value v1
  extract_lets -underBinder -merge -useContext +onlyGivenNames v2
  have hv2 : Evolves r s₀ v2 := by
    with_reducible refine State.setReg_evolves _ _ _ ?_
    with_reducible refine State.setGmv_evolves _ _ ?_
    exact hv1
  try clear_value v2
  extract_lets -underBinder -merge -useContext +onlyGivenNames v3 v4
  try clear_value v3
  have hv4 : Evolves r s₀ v4 := by
    with_reducible refine Evolves.upd_mk rfl rfl rfl rfl rfl rfl rfl rfl rfl rfl rfl rfl rfl rfl rfl rfl rfl rfl rfl rfl rfl rfl rfl rfl rfl rfl rfl rfl ?_
    exact hv2
  try clear_value v4
  extract_lets -underBinder -merge -useContext +onlyGivenNames v5
  have hv5 : Evolves r s₀ v5 := by
    with_reducible refine Evolves.ite ?_ ?_
    · with_reducible refine Evolves.upd_mk rfl rfl rfl rfl rfl rfl rfl rfl rfl rfl rfl rfl rfl rfl rfl rfl rfl rfl rfl rfl rfl rfl rfl rfl rfl rfl rfl rfl ?_
      exact hv4
    · exact hv4
  try clear_value v5
  with_reducible refine State.flushAll_evolves _ ?_
  exact hv5

theorem State.cause_evolves {s₀ s} (a) (h : Evolves r s₀ s) : Evolves r s₀ (State.cause s a) := by
  unfold State.cause
  extract_lets -underBinder -merge -useContext +onlyGivenNames v0
  try clear_value v0
  with_reducible refine Evolves.ite ?_ ?_
  · exact h
  · with_reducible refine Evolves.ite ?_ ?_
    · with_reducible refine State.orReg_evolves _ _ _ ?_
      exact h
    · with_reducible refine State.startSquash_evolves _ ?_
      exact h

theorem State.stepError_evolves {s₀ s} (a) (h : Evolves r s₀ s) : Evolves r s₀ (State.stepError s a) := by
  unfold State.stepError
  with_reducible refine Evolves.ite ?_ ?_
  · exact h
  · with_reducible refine Evolves.ite ?_ ?_
    · with_reducible refine State.cause_evolves _ ?_
      exact h
    · exact h

theorem State.mergeRecord_evolves {s₀ s} (a b) (h : Evolves r s₀ s) : Evolves r s₀ (State.mergeRecord s a b) := by
  unfold State.mergeRecord
  extract_lets -underBinder -merge -useContext +onlyGivenNames v0
  try clear_value v0
  extract_lets -underBinder -merge -useContext +onlyGivenNames v1
  have hv1 : Evolves r s₀ v1 := by
    with_reducible refine Evolves.ite ?_ ?_
    · exact h
    · with_reducible refine State.atomic_evolves _ _ ?_
      with_reducible refine State.atomic_evolves _ _ ?_
      exact h
  try clear_value v1
  with_reducible refine State.atomic_evolves _ _ ?_
  with_reducible refine State.atomic_evolves _ _ ?_
  exact hv1

theorem State.movFault_evolves {s₀ s} (a b c d) (h : Evolves r s₀ s) : Evolves r s₀ (State.movFault s a b c d) := by
  unfold State.movFault
  extract_lets -underBinder -merge -useContext +onlyGivenNames v0
  have hv0 : Evolves r s₀ v0 := by
    with_reducible refine State.raise_evolves _ _ _ _ _ _ ?_
    exact h
  try clear_value v0
  with_reducible refine State.stepError_evolves _ ?_
  exact hv0

theorem State.mergeAll_evolves {s₀ s} (a b c) (h : Evolves r s₀ s) : Evolves r s₀ (State.mergeAll s a b c) := by
  unfold State.mergeAll
  split
  · exact h
  · split
    · with_reducible refine State.mergeAll_evolves _ _ _ ?_
      with_reducible refine State.mergeRecord_evolves _ _ ?_
      exact h
    · extract_lets -underBinder -merge -useContext +onlyGivenNames v5
      have hv5 : Evolves r s₀ v5 := by
        with_reducible refine Evolves.ite ?_ ?_
        · with_reducible refine State.badLine_evolves _ _ _ ?_
          exact h
        · exact h
      try clear_value v5
      with_reducible refine State.mergeAll_evolves _ _ _ ?_
      with_reducible refine State.movFault_evolves _ _ _ _ ?_
      exact hv5

theorem State.stageScale_evolves {s₀ s} (a b) (h : Evolves r s₀ s) : Evolves r s₀ (State.stageScale s a b) := by
  unfold State.stageScale
  with_reducible refine Evolves.ite ?_ ?_
  · exact h
  · extract_lets -underBinder -merge -useContext +onlyGivenNames v0
    try clear_value v0
    extract_lets -underBinder -merge -useContext +onlyGivenNames v1
    try clear_value v1
    extract_lets -underBinder -merge -useContext +onlyGivenNames v2
    try clear_value v2
    split
    · with_reducible refine State.devPut_evolves _ _ _ ?_
      with_reducible refine State.devPut_evolves _ _ _ ?_
      exact h

theorem State.commitScale_evolves {s₀ s} (a b) (h : Evolves r s₀ s) : Evolves r s₀ (State.commitScale s a b).1 := by
  unfold State.commitScale
  extract_lets -underBinder -merge -useContext +onlyGivenNames v0
  try clear_value v0
  extract_lets -underBinder -merge -useContext +onlyGivenNames v1
  try clear_value v1
  extract_lets -underBinder -merge -useContext +onlyGivenNames v2
  try clear_value v2
  extract_lets -underBinder -merge -useContext +onlyGivenNames v3
  have hv3 : Evolves r s₀ v3 := by
    with_reducible refine State.devPut_evolves _ _ _ ?_
    with_reducible refine State.devPut_evolves _ _ _ ?_
    with_reducible refine State.devPut_evolves _ _ _ ?_
    exact h
  try clear_value v3
  extract_lets -underBinder -merge -useContext +onlyGivenNames v4 v5
  try clear_value v4
  have hv5 : Evolves r s₀ v5 := by
    with_reducible refine Evolves.ite ?_ ?_
    · with_reducible refine State.devPut_evolves _ _ _ ?_
      with_reducible refine State.devPut_evolves _ _ _ ?_
      with_reducible refine State.devPut_evolves _ _ _ ?_
      exact hv3
    · with_reducible refine Evolves.ite ?_ ?_
      · exact hv3
      · split
        · with_reducible refine State.devPut_evolves _ _ _ ?_
          with_reducible refine State.devPut_evolves _ _ _ ?_
          exact hv3
  try clear_value v5
  extract_lets -underBinder -merge -useContext +onlyGivenNames v8
  try clear_value v8
  extract_lets -underBinder -merge -useContext +onlyGivenNames v9
  try clear_value v9
  extract_lets -underBinder -merge -useContext +onlyGivenNames v10
  try clear_value v10
  extract_lets -underBinder -merge -useContext +onlyGivenNames v11
  try clear_value v11
  extract_lets -underBinder -merge -useContext +onlyGivenNames v12
  try clear_value v12
  extract_lets -underBinder -merge -useContext +onlyGivenNames v13
  have hv13 : Evolves r s₀ v13 := by
    with_reducible refine Evolves.ite ?_ ?_
    · with_reducible refine State.devPut_evolves _ _ _ ?_
      exact hv5
    · exact hv5
  try clear_value v13
  extract_lets -underBinder -merge -useContext +onlyGivenNames v14
  try clear_value v14
  extract_lets -underBinder -merge -useContext +onlyGivenNames v15
  have hv15 : Evolves r s₀ v15 := by
    with_reducible refine Evolves.ite ?_ ?_
    · with_reducible refine State.devPut_evolves _ _ _ ?_
      with_reducible refine State.devPut_evolves _ _ _ ?_
      exact hv13
    · exact hv13
  try clear_value v15
  extract_lets -underBinder -merge -useContext +onlyGivenNames v16
  have hv16 : Evolves r s₀ v16 := by
    with_reducible refine State.devPut_evolves _ _ _ ?_
    with_reducible refine State.devPut_evolves _ _ _ ?_
    exact hv15
  try clear_value v16
  with_reducible refine Evolves.mk_fst ?_
  exact hv16

theorem State.squashScale_evolves {s₀ s} (a) (h : Evolves r s₀ s) : Evolves r s₀ (State.squashScale s a) := by
  unfold State.squashScale
  extract_lets -underBinder -merge -useContext +onlyGivenNames v0
  have hv0 : Evolves r s₀ v0 := by
    with_reducible refine State.devPut_evolves _ _ _ ?_
    with_reducible refine State.devPut_evolves _ _ _ ?_
    exact h
  try clear_value v0
  extract_lets -underBinder -merge -useContext +onlyGivenNames v1
  have hv1 : Evolves r s₀ v1 := by
    with_reducible refine State.devPut_evolves _ _ _ ?_
    exact hv0
  try clear_value v1
  extract_lets -underBinder -merge -useContext +onlyGivenNames v2
  have hv2 : Evolves r s₀ v2 := by
    with_reducible refine State.devPut_evolves _ _ _ ?_
    exact hv1
  try clear_value v2
  with_reducible refine State.devPut_evolves _ _ _ ?_
  with_reducible refine State.devPut_evolves _ _ _ ?_
  exact hv2

theorem State.restageScale_evolves {s₀ s} (a b) (h : Evolves r s₀ s) : Evolves r s₀ (State.restageScale s a b) := by
  unfold State.restageScale
  extract_lets -underBinder -merge -useContext +onlyGivenNames v0
  have hv0 : Evolves r s₀ v0 := by
    with_reducible refine State.devPut_evolves _ _ _ ?_
    with_reducible refine State.devPut_evolves _ _ _ ?_
    exact h
  try clear_value v0
  with_reducible refine Evolves.ite ?_ ?_
  · with_reducible refine State.stageScale_evolves _ _ ?_
    with_reducible refine State.devPut_evolves _ _ _ ?_
    exact hv0
  · exact hv0

end Sys2Proof.Machine
end

