-- ==== Sys2Proof/Laws/EvolvesTile.lean ====
section
/-! SUPPORT. Laws/EvolvesTile.lean: every operation of register accesses and the descriptors of a tile evolves the state (Laws/Evolves.lean); one lemma for each. -/
namespace Sys2Proof.Machine

set_option Elab.async false
set_option linter.all false

variable {r : Bool}

theorem State.debugVoid_evolves {s₀ s} (a) (h : Evolves r s₀ s) : Evolves r s₀ (State.debugVoid s a) := by
  unfold State.debugVoid
  extract_lets -underBinder -merge -useContext +onlyGivenNames v0
  have hv0 : Evolves r s₀ v0 := by
    with_reducible refine State.voidBy_evolves _ ?_
    exact h
  try clear_value v0
  with_reducible refine Evolves.ite ?_ ?_
  · exact hv0
  · with_reducible refine State.setReg_evolves _ _ _ ?_
    exact hv0

theorem State.touchDebug_evolves {s₀ s} (a) (h : Evolves r s₀ s) : Evolves r s₀ (State.touchDebug s a) := by
  unfold State.touchDebug
  split
  · with_reducible refine State.debugVoid_evolves _ ?_
    exact h
  · exact h

theorem State.onWrite_evolves {s₀ s} (a b c d) (hd : ∀ x0, Evolves r s₀ x0 → Evolves r s₀ (d x0)) (h : Evolves r s₀ s) : Evolves r s₀ (State.onWrite s a b c d) := by
  unfold State.onWrite
  split
  · with_reducible refine hd _ ?_
    with_reducible refine State.touchDebug_evolves _ ?_
    exact h
  · with_reducible refine State.deny_evolves _ _ _ ?_
    exact h
  · exact h

theorem State.onRead_evolves {s₀ s} (a b c d) (hd : ∀ x0, Evolves r s₀ x0 → Evolves r s₀ (d x0)) (h : Evolves r s₀ s) : Evolves r s₀ (State.onRead s a b c d) := by
  unfold State.onRead
  split
  · with_reducible refine hd _ ?_
    exact h
  · with_reducible refine State.reply_evolves _ ?_
    with_reducible refine State.deny_evolves _ _ _ ?_
    exact h
  · with_reducible refine State.reply_evolves _ ?_
    exact h
  · with_reducible refine State.reply_evolves _ ?_
    exact h
  · exact h

theorem State.ceOwn_evolves {s₀ s} (a b c) (h : Evolves r s₀ s) : Evolves r s₀ (State.ceOwn s a b c) := by
  unfold State.ceOwn
  with_reducible refine State.raise_evolves _ _ _ _ _ _ ?_
  with_reducible refine State.bump_evolves _ _ _ ?_
  with_reducible refine State.clearUpset_evolves _ ?_
  exact h

theorem State.ceOwnAll_evolves {s₀ s} (a b c) (h : Evolves r s₀ s) : Evolves r s₀ (State.ceOwnAll s a b c) := by
  unfold State.ceOwnAll
  with_reducible refine Evolves.foldl (fun a0 x1 ha0 => ?_) ?_
  · with_reducible refine State.ceOwn_evolves _ _ _ ?_
    exact ha0
  · exact h

theorem State.addRun_evolves {s₀ s} (a b) (h : Evolves r s₀ s) : Evolves r s₀ (State.addRun s a b) := by
  unfold State.addRun
  with_reducible refine State.modTile_evolves _ _ ?_
  exact h

theorem State.sramUe_evolves {s₀ s} (a b) (h : Evolves r s₀ s) : Evolves r s₀ (State.sramUe s a b) := by
  unfold State.sramUe
  extract_lets -underBinder -merge -useContext +onlyGivenNames v0
  have hv0 : Evolves r s₀ v0 := by
    with_reducible refine State.orReg_evolves _ _ _ ?_
    with_reducible refine State.addRun_evolves _ _ ?_
    exact h
  try clear_value v0
  extract_lets -underBinder -merge -useContext +onlyGivenNames v1
  have hv1 : Evolves r s₀ v1 := by
    with_reducible refine State.raise_evolves _ _ _ _ _ _ ?_
    exact hv0
  try clear_value v1
  with_reducible refine State.stepError_evolves _ ?_
  with_reducible refine State.haltFor_evolves _ _ _ _ ?_
  exact hv1

theorem State.annexStop_evolves {s₀ s} (a) (h : Evolves r s₀ s) : Evolves r s₀ (State.annexStop s a) := by
  unfold State.annexStop
  extract_lets -underBinder -merge -useContext +onlyGivenNames v0
  have hv0 : Evolves r s₀ v0 := by
    with_reducible refine State.haltFor_evolves _ _ _ _ ?_
    with_reducible refine State.addRun_evolves _ _ ?_
    exact h
  try clear_value v0
  with_reducible refine State.stepError_evolves _ ?_
  with_reducible refine State.raise_evolves _ _ _ _ _ _ ?_
  exact hv0

theorem State.applyWrites_evolves {s₀ s} (a b) (h : Evolves r s₀ s) : Evolves r s₀ (State.applyWrites s a b) := by
  unfold State.applyWrites
  with_reducible refine Evolves.foldl (fun a0 x1 ha0 => ?_) ?_
  · with_reducible refine State.store_evolves _ _ ?_
    exact ha0
  · exact h

theorem State.applyRegs_evolves {s₀ s} (a b) (h : Evolves r s₀ s) : Evolves r s₀ (State.applyRegs s a b) := by
  unfold State.applyRegs
  extract_lets -underBinder -merge -useContext +onlyGivenNames v0
  have hv0 : Evolves r s₀ v0 := by
    with_reducible refine State.bump_evolves _ _ _ ?_
    with_reducible refine State.bump_evolves _ _ _ ?_
    with_reducible refine State.bump_evolves _ _ _ ?_
    exact h
  try clear_value v0
  extract_lets -underBinder -merge -useContext +onlyGivenNames v1
  have hv1 : Evolves r s₀ v1 := by
    with_reducible refine State.orReg_evolves _ _ _ ?_
    exact hv0
  try clear_value v1
  extract_lets -underBinder -merge -useContext +onlyGivenNames v2
  have hv2 : Evolves r s₀ v2 := by
    with_reducible refine Evolves.foldl (fun a3 x4 ha3 => ?_) ?_
    · with_reducible refine State.bump_evolves _ _ _ ?_
      exact ha3
    · exact hv1
  try clear_value v2
  extract_lets -underBinder -merge -useContext +onlyGivenNames v5
  have hv5 : Evolves r s₀ v5 := by
    with_reducible refine Evolves.foldl (fun a6 x7 ha6 => ?_) ?_
    · with_reducible refine State.orReg_evolves _ _ _ ?_
      exact ha6
    · exact hv2
  try clear_value v5
  extract_lets -underBinder -merge -useContext +onlyGivenNames v8
  have hv8 : Evolves r s₀ v8 := by
    with_reducible refine Evolves.foldl (fun a9 x10 ha9 => ?_) ?_
    · with_reducible refine State.setReg_evolves _ _ _ ?_
      exact ha9
    · exact hv5
  try clear_value v8
  with_reducible refine Evolves.foldl (fun a11 x12 ha11 => ?_) ?_
  · with_reducible refine State.raise_evolves _ _ _ _ _ _ ?_
    with_reducible refine State.orReg_evolves _ _ _ ?_
    exact ha11
  · exact hv8

theorem State.effDone_evolves {s₀ s} (a b) (h : Evolves r s₀ s) : Evolves r s₀ (State.effDone s a b) := by
  unfold State.effDone
  extract_lets -underBinder -merge -useContext +onlyGivenNames v0 v1
  try clear_value v0
  try clear_value v1
  with_reducible refine State.addRun_evolves _ _ ?_
  with_reducible refine State.applyRegs_evolves _ _ ?_
  with_reducible refine State.modTile_evolves _ _ ?_
  with_reducible refine State.applyWrites_evolves _ _ ?_
  exact h

theorem State.runEff_evolves {s₀ s} (a b) (h : Evolves r s₀ s) : Evolves r s₀ (State.runEff s a b) := by
  unfold State.runEff
  extract_lets -underBinder -merge -useContext +onlyGivenNames v0
  try clear_value v0
  split
  · with_reducible refine State.sramUe_evolves _ _ ?_
    with_reducible refine State.ceOwnAll_evolves _ _ _ ?_
    exact h
  · extract_lets -underBinder -merge -useContext +onlyGivenNames v3
    have hv3 : Evolves r s₀ v3 := by
      with_reducible refine State.ceOwnAll_evolves _ _ _ ?_
      exact h
    try clear_value v3
    with_reducible refine Evolves.ite ?_ ?_
    · with_reducible refine State.annexStop_evolves _ ?_
      exact hv3
    · with_reducible refine State.effDone_evolves _ _ ?_
      exact hv3

theorem State.reportPoison_evolves {s₀ s} (a b) (h : Evolves r s₀ s) : Evolves r s₀ (State.reportPoison s a b) := by
  unfold State.reportPoison
  with_reducible refine Evolves.foldl (fun a0 x1 ha0 => ?_) ?_
  · split
    · with_reducible refine State.badLine_evolves _ _ _ ?_
      exact ha0
    · exact ha0
  · exact h

theorem State.issueWith_evolves {s₀ s} (a b c d e) (he : ∀ x0 x1, Evolves r s₀ x0 → Evolves r s₀ (e x0 x1)) (h : Evolves r s₀ s) : Evolves r s₀ (State.issueWith s a b c d e) := by
  unfold State.issueWith
  extract_lets -underBinder -merge -useContext +onlyGivenNames v0
  try clear_value v0
  with_reducible refine Evolves.ite ?_ ?_
  · exact h
  · with_reducible refine Evolves.ite ?_ ?_
    · exact h
    · split
      · exact h
      · extract_lets -underBinder -merge -useContext +onlyGivenNames v3
        have hv3 : Evolves r s₀ v3 := by
          unfold v3
          split
          · with_reducible refine State.badLine_evolves _ _ _ ?_
            exact h
          · exact h
        try clear_value v3
        with_reducible refine State.reject_evolves _ _ _ _ _ _ ?_
        exact hv3
      · extract_lets -underBinder -merge -useContext +onlyGivenNames v7
        try clear_value v7
        extract_lets -underBinder -merge -useContext +onlyGivenNames v8
        try clear_value v8
        with_reducible refine Evolves.ite ?_ ?_
        · exact h
        · split
          · with_reducible refine State.reject_evolves _ _ _ _ _ _ ?_
            with_reducible refine State.reportPoison_evolves _ _ ?_
            exact h
          · with_reducible refine he _ _ ?_
            exact h

theorem mmaRun_evolves {s₀ s} (a) (h : Evolves r s₀ s) : Evolves r s₀ (mmaRun s a) := by
  unfold mmaRun
  with_reducible refine State.runEff_evolves _ _ ?_
  exact h

theorem execMma_evolves {s₀ s t} (a b) (he : execMma a b s = .next t) (h : Evolves r s₀ s) : Evolves r s₀ t := by
  unfold execMma at he
  cases he
  with_reducible refine State.issueWith_evolves _ _ _ _ _ (fun y0 y1 hy0 => ?_) ?_
  · with_reducible refine mmaRun_evolves _ ?_
    exact hy0
  · exact h

theorem actLoadWrite_evolves {s₀ s} (a b) (h : Evolves r s₀ s) : Evolves r s₀ (actLoadWrite a b s) := by
  unfold actLoadWrite
  extract_lets -underBinder -merge -useContext +onlyGivenNames v0
  try clear_value v0
  with_reducible refine Evolves.ite ?_ ?_
  · exact h
  · extract_lets -underBinder -merge -useContext +onlyGivenNames v1
    have hv1 : Evolves r s₀ v1 := by
      with_reducible refine State.setReg_evolves _ _ _ ?_
      exact h
    try clear_value v1
    with_reducible refine Evolves.ite ?_ ?_
    · with_reducible refine State.modTile_evolves _ _ ?_
      exact hv1
    · exact hv1

theorem execActLoad_evolves {s₀ s t} (a b c) (he : execActLoad a b c s = .next t) (h : Evolves r s₀ s) : Evolves r s₀ t := by
  unfold execActLoad at he
  cases he
  with_reducible refine Evolves.ite ?_ ?_
  · with_reducible refine State.onWrite_evolves _ _ _ _ (fun y0 hy0 => ?_) ?_
    · with_reducible refine actLoadWrite_evolves _ _ ?_
      exact hy0
    · exact h
  · exact h

theorem State.putSlot_evolves {s₀ s} (a b c) (h : Evolves r s₀ s) : Evolves r s₀ (State.putSlot s a b c) := by
  unfold State.putSlot
  with_reducible refine State.modTile_evolves _ _ ?_
  exact h

theorem State.actBad_evolves {s₀ s} (a b c d) (h : Evolves r s₀ s) : Evolves r s₀ (State.actBad s a b c d) := by
  unfold State.actBad
  extract_lets -underBinder -merge -useContext +onlyGivenNames v0
  have hv0 : Evolves r s₀ v0 := by
    with_reducible refine State.orReg_evolves _ _ _ ?_
    with_reducible refine State.putSlot_evolves _ _ _ ?_
    exact h
  try clear_value v0
  with_reducible refine State.raise_evolves _ _ _ _ _ _ ?_
  exact hv0

theorem actLoadFinish_evolves {s₀ s} (a) (h : Evolves r s₀ s) : Evolves r s₀ (actLoadFinish a s) := by
  unfold actLoadFinish
  extract_lets -underBinder -merge -useContext +onlyGivenNames v0
  try clear_value v0
  split
  · exact h
  · with_reducible refine Evolves.ite ?_ ?_
    · exact h
    · with_reducible refine Evolves.ite ?_ ?_
      · extract_lets -underBinder -merge -useContext +onlyGivenNames v4
        try clear_value v4
        with_reducible refine State.setFld_evolves _ _ _ _ _ ?_
        with_reducible refine State.putSlot_evolves _ _ _ ?_
        exact h
      · extract_lets -underBinder -merge -useContext +onlyGivenNames v5
        try clear_value v5
        extract_lets -underBinder -merge -useContext +onlyGivenNames v6
        try clear_value v6
        with_reducible refine Evolves.ite ?_ ?_
        · with_reducible refine State.actBad_evolves _ _ _ _ ?_
          exact h
        · extract_lets -underBinder -merge -useContext +onlyGivenNames v7
          try clear_value v7
          extract_lets -underBinder -merge -useContext +onlyGivenNames v8
          have hv8 : Evolves r s₀ v8 := by
            with_reducible refine State.ceOwnAll_evolves _ _ _ ?_
            exact h
          try clear_value v8
          split
          · with_reducible refine State.actBad_evolves _ _ _ _ ?_
            with_reducible refine State.raise_evolves _ _ _ _ _ _ ?_
            with_reducible refine State.orReg_evolves _ _ _ ?_
            exact hv8
          · with_reducible refine Evolves.ite ?_ ?_
            · with_reducible refine State.setFld_evolves _ _ _ _ _ ?_
              with_reducible refine State.putSlot_evolves _ _ _ ?_
              exact hv8
            · with_reducible refine State.actBad_evolves _ _ _ _ ?_
              exact hv8

theorem execActLoadDone_evolves {s₀ s t} (a) (he : execActLoadDone a s = .next t) (h : Evolves r s₀ s) : Evolves r s₀ t := by
  unfold execActLoadDone at he
  cases he
  with_reducible refine Evolves.ite ?_ ?_
  · with_reducible refine actLoadFinish_evolves _ ?_
    exact h
  · exact h

theorem State.jitScale_evolves {s₀ s} (a b) (h : Evolves r s₀ s) : Evolves r s₀ (State.jitScale s a b) := by
  unfold State.jitScale
  extract_lets -underBinder -merge -useContext +onlyGivenNames v0
  try clear_value v0
  extract_lets -underBinder -merge -useContext +onlyGivenNames v1
  try clear_value v1
  split
  · with_reducible refine Evolves.ite ?_ ?_
    · split
      · with_reducible refine Evolves.ite ?_ ?_
        · with_reducible refine State.devPut_evolves _ _ _ ?_
          with_reducible refine State.devPut_evolves _ _ _ ?_
          with_reducible refine State.devPut_evolves _ _ _ ?_
          exact h
        · with_reducible refine State.devPut_evolves _ _ _ ?_
          with_reducible refine State.devPut_evolves _ _ _ ?_
          exact h
    · exact h
  · exact h

theorem vchRun_evolves {s₀ s} (a) (h : Evolves r s₀ s) : Evolves r s₀ (vchRun s a) := by
  unfold vchRun
  extract_lets -underBinder -merge -useContext +onlyGivenNames v0
  have hv0 : Evolves r s₀ v0 := by
    with_reducible refine State.jitScale_evolves _ _ ?_
    with_reducible refine State.jitScale_evolves _ _ ?_
    exact h
  try clear_value v0
  with_reducible refine State.runEff_evolves _ _ ?_
  exact hv0

theorem execVch_evolves {s₀ s t} (a b) (he : execVch a b s = .next t) (h : Evolves r s₀ s) : Evolves r s₀ t := by
  unfold execVch at he
  cases he
  with_reducible refine Evolves.ite ?_ ?_
  · exact h
  · with_reducible refine State.issueWith_evolves _ _ _ _ _ (fun y0 y1 hy0 => ?_) ?_
    · with_reducible refine vchRun_evolves _ ?_
      exact hy0
    · exact h

theorem rowRun_evolves {s₀ s} (a) (h : Evolves r s₀ s) : Evolves r s₀ (rowRun s a) := by
  unfold rowRun
  with_reducible refine State.runEff_evolves _ _ ?_
  exact h

theorem State.rowOp_evolves {s₀ s} (a b c) (h : Evolves r s₀ s) : Evolves r s₀ (State.rowOp s a b c) := by
  unfold State.rowOp
  with_reducible refine State.issueWith_evolves _ _ _ _ _ (fun y0 y1 hy0 => ?_) ?_
  · with_reducible refine rowRun_evolves _ ?_
    exact hy0
  · exact h

theorem execLnormF_evolves {s₀ s t} (a b) (he : execLnormF a b s = .next t) (h : Evolves r s₀ s) : Evolves r s₀ t := by
  unfold execLnormF at he
  cases he
  with_reducible refine State.rowOp_evolves _ _ _ ?_
  exact h

theorem execRmsF_evolves {s₀ s t} (a b) (he : execRmsF a b s = .next t) (h : Evolves r s₀ s) : Evolves r s₀ t := by
  unfold execRmsF at he
  cases he
  with_reducible refine State.rowOp_evolves _ _ _ ?_
  exact h

theorem execSoftmaxF_evolves {s₀ s t} (a b) (he : execSoftmaxF a b s = .next t) (h : Evolves r s₀ s) : Evolves r s₀ t := by
  unfold execSoftmaxF at he
  cases he
  with_reducible refine State.rowOp_evolves _ _ _ ?_
  exact h

theorem execLogsmF_evolves {s₀ s t} (a b) (he : execLogsmF a b s = .next t) (h : Evolves r s₀ s) : Evolves r s₀ t := by
  unfold execLogsmF at he
  cases he
  with_reducible refine State.rowOp_evolves _ _ _ ?_
  exact h

theorem execXentF_evolves {s₀ s t} (a b) (he : execXentF a b s = .next t) (h : Evolves r s₀ s) : Evolves r s₀ t := by
  unfold execXentF at he
  cases he
  with_reducible refine State.rowOp_evolves _ _ _ ?_
  exact h

theorem execLnormB_evolves {s₀ s t} (a b) (he : execLnormB a b s = .next t) (h : Evolves r s₀ s) : Evolves r s₀ t := by
  unfold execLnormB at he
  cases he
  with_reducible refine State.rowOp_evolves _ _ _ ?_
  exact h

theorem execRmsB_evolves {s₀ s t} (a b) (he : execRmsB a b s = .next t) (h : Evolves r s₀ s) : Evolves r s₀ t := by
  unfold execRmsB at he
  cases he
  with_reducible refine State.rowOp_evolves _ _ _ ?_
  exact h

theorem execSoftmaxB_evolves {s₀ s t} (a b) (he : execSoftmaxB a b s = .next t) (h : Evolves r s₀ s) : Evolves r s₀ t := by
  unfold execSoftmaxB at he
  cases he
  with_reducible refine State.rowOp_evolves _ _ _ ?_
  exact h

theorem execLogsmB_evolves {s₀ s t} (a b) (he : execLogsmB a b s = .next t) (h : Evolves r s₀ s) : Evolves r s₀ t := by
  unfold execLogsmB at he
  cases he
  with_reducible refine State.rowOp_evolves _ _ _ ?_
  exact h

theorem execXentB_evolves {s₀ s t} (a b) (he : execXentB a b s = .next t) (h : Evolves r s₀ s) : Evolves r s₀ t := by
  unfold execXentB at he
  cases he
  with_reducible refine State.rowOp_evolves _ _ _ ?_
  exact h

theorem State.invalStats_evolves {s₀ s} (a) (h : Evolves r s₀ s) : Evolves r s₀ (State.invalStats s a) := by
  unfold State.invalStats
  with_reducible refine State.setReg_evolves _ _ _ ?_
  with_reducible refine State.modTile_evolves _ _ ?_
  exact h

theorem execInval_evolves {s₀ s t} (a b) (he : execInval a b s = .next t) (h : Evolves r s₀ s) : Evolves r s₀ t := by
  unfold execInval at he
  cases he
  with_reducible refine Evolves.ite ?_ ?_
  · with_reducible refine State.onWrite_evolves _ _ _ _ (fun y0 hy0 => ?_) ?_
    · with_reducible refine State.invalStats_evolves _ ?_
      exact hy0
    · exact h
  · exact h

theorem State.useFree_evolves {s₀ s} (a) (h : Evolves r s₀ s) : Evolves r s₀ (State.useFree s a) :=
  h.trans { Evolves.refl r s with free := Nat.le_add_right _ _, parts := fun hp => { hp with } }

theorem attBlockRun_evolves {s₀ s} (a) (h : Evolves r s₀ s) : Evolves r s₀ (attBlockRun s a) := by
  unfold attBlockRun
  with_reducible refine State.useFree_evolves _ ?_
  with_reducible refine State.runEff_evolves _ _ ?_
  exact h

theorem attMergeRun_evolves {s₀ s} (a) (h : Evolves r s₀ s) : Evolves r s₀ (attMergeRun s a) := by
  unfold attMergeRun
  with_reducible refine State.useFree_evolves _ ?_
  with_reducible refine State.runEff_evolves _ _ ?_
  exact h

theorem execAttBlock_evolves {s₀ s t} (a b) (he : execAttBlock a b s = .next t) (h : Evolves r s₀ s) : Evolves r s₀ t := by
  unfold execAttBlock at he
  cases he
  with_reducible refine State.issueWith_evolves _ _ _ _ _ (fun y0 y1 hy0 => ?_) ?_
  · with_reducible refine attBlockRun_evolves _ ?_
    exact hy0
  · exact h

theorem execAttMerge_evolves {s₀ s t} (a b) (he : execAttMerge a b s = .next t) (h : Evolves r s₀ s) : Evolves r s₀ t := by
  unfold execAttMerge at he
  cases he
  with_reducible refine State.issueWith_evolves _ _ _ _ _ (fun y0 y1 hy0 => ?_) ?_
  · with_reducible refine attMergeRun_evolves _ ?_
    exact hy0
  · exact h

theorem bprepRun_evolves {s₀ s} (a) (h : Evolves r s₀ s) : Evolves r s₀ (bprepRun s a) := by
  unfold bprepRun
  with_reducible refine State.useFree_evolves _ ?_
  with_reducible refine State.runEff_evolves _ _ ?_
  exact h

theorem bqRun_evolves {s₀ s} (a) (h : Evolves r s₀ s) : Evolves r s₀ (bqRun s a) := by
  unfold bqRun
  with_reducible refine State.useFree_evolves _ ?_
  with_reducible refine State.runEff_evolves _ _ ?_
  exact h

theorem bkvRun_evolves {s₀ s} (a) (h : Evolves r s₀ s) : Evolves r s₀ (bkvRun s a) := by
  unfold bkvRun
  with_reducible refine State.useFree_evolves _ ?_
  with_reducible refine State.runEff_evolves _ _ ?_
  exact h

theorem execBprep_evolves {s₀ s t} (a b) (he : execBprep a b s = .next t) (h : Evolves r s₀ s) : Evolves r s₀ t := by
  unfold execBprep at he
  cases he
  with_reducible refine State.issueWith_evolves _ _ _ _ _ (fun y0 y1 hy0 => ?_) ?_
  · with_reducible refine bprepRun_evolves _ ?_
    exact hy0
  · exact h

theorem execBq_evolves {s₀ s t} (a b) (he : execBq a b s = .next t) (h : Evolves r s₀ s) : Evolves r s₀ t := by
  unfold execBq at he
  cases he
  with_reducible refine State.issueWith_evolves _ _ _ _ _ (fun y0 y1 hy0 => ?_) ?_
  · with_reducible refine bqRun_evolves _ ?_
    exact hy0
  · exact h

theorem execBkv_evolves {s₀ s t} (a b) (he : execBkv a b s = .next t) (h : Evolves r s₀ s) : Evolves r s₀ t := by
  unfold execBkv at he
  cases he
  with_reducible refine State.issueWith_evolves _ _ _ _ _ (fun y0 y1 hy0 => ?_) ?_
  · with_reducible refine bkvRun_evolves _ ?_
    exact hy0
  · exact h

end Sys2Proof.Machine
end

