-- ==== Sys2Proof/Laws/EvolvesStash.lean ====
section
/-! SUPPORT. Laws/EvolvesStash.lean: every operation of the stash, crossings, updates, roots and check units evolves the state (Laws/Evolves.lean); one lemma for each. -/
namespace Sys2Proof.Machine

set_option Elab.async false
set_option linter.all false

variable {r : Bool}

theorem State.setStashSt_evolves {s₀ s} (a b c) (h : Evolves r s₀ s) : Evolves r s₀ (State.setStashSt s a b c) := by
  unfold State.setStashSt
  with_reducible refine State.devPut_evolves _ _ _ ?_
  exact h

theorem State.setStack_evolves {s₀ s} (a b) (h : Evolves r s₀ s) : Evolves r s₀ (State.setStack s a b) := by
  unfold State.setStack
  with_reducible refine State.setReg_evolves _ _ _ ?_
  with_reducible refine Evolves.upd_parts ?_ rfl rfl rfl rfl rfl rfl rfl rfl rfl rfl rfl ?_
  · exact fun hp => { hp with
      stashStacks := by first | exact keysRise_sset hp.stashStacks | exact keysRise_filter _ hp.stashStacks | exact keysRise_sput (Nat.zero_le _) hp.stashStacks | exact keysRise_sdel hp.stashStacks | exact keysRise_map_snd hp.stashStacks | exact keysRise_map_if hp.stashStacks | rfl
    }
  exact h

theorem State.allocOn_evolves {s₀ s} (a b c) (h : Evolves r s₀ s) : Evolves r s₀ (State.allocOn s a b c) := by
  unfold State.allocOn
  extract_lets -underBinder -merge -useContext +onlyGivenNames v0
  try clear_value v0
  extract_lets -underBinder -merge -useContext +onlyGivenNames v1
  try clear_value v1
  extract_lets -underBinder -merge -useContext +onlyGivenNames v2
  try clear_value v2
  extract_lets -underBinder -merge -useContext +onlyGivenNames v3
  have hv3 : Evolves r s₀ v3 := by
    with_reducible refine State.setStack_evolves _ _ ?_
    exact h
  try clear_value v3
  with_reducible refine State.devPut_evolves _ _ _ ?_
  with_reducible refine State.setStashSt_evolves _ _ _ ?_
  exact hv3

theorem State.stashFull_evolves {s₀ s} (a b) (h : Evolves r s₀ s) : Evolves r s₀ (State.stashFull s a b) := by
  unfold State.stashFull
  with_reducible refine State.orReg_evolves _ _ _ ?_
  with_reducible refine State.raise_evolves _ _ _ _ _ _ ?_
  with_reducible refine State.bump_evolves _ _ _ ?_
  exact h

theorem State.freeSlots_evolves {s₀ s} (a) (h : Evolves r s₀ s) : Evolves r s₀ (State.freeSlots s a) := by
  unfold State.freeSlots
  with_reducible refine Evolves.foldl (fun a0 x1 ha0 => ?_) ?_
  · extract_lets -underBinder -merge -useContext +onlyGivenNames v2
    try clear_value v2
    with_reducible refine State.setStack_evolves _ _ ?_
    exact ha0
  · exact h

theorem State.releaseEntry_evolves {s₀ s} (a b) (h : Evolves r s₀ s) : Evolves r s₀ (State.releaseEntry s a b) := by
  unfold State.releaseEntry
  with_reducible refine State.setStashSt_evolves _ _ _ ?_
  with_reducible refine State.freeSlots_evolves _ ?_
  exact h

theorem State.stashRead_evolves {s₀ s} (a b) (h : Evolves r s₀ s) : Evolves r s₀ (State.stashRead s a b) := by
  unfold State.stashRead
  extract_lets -underBinder -merge -useContext +onlyGivenNames v0
  try clear_value v0
  extract_lets -underBinder -merge -useContext +onlyGivenNames v1
  try clear_value v1
  extract_lets -underBinder -merge -useContext +onlyGivenNames v2
  have hv2 : Evolves r s₀ v2 := by
    with_reducible refine State.setStashSt_evolves _ _ _ ?_
    exact h
  try clear_value v2
  with_reducible refine Evolves.ite ?_ ?_
  · with_reducible refine State.releaseEntry_evolves _ _ ?_
    exact hv2
  · exact hv2

theorem State.ctlPoison_evolves {s₀ s} (a b) (h : Evolves r s₀ s) : Evolves r s₀ (State.ctlPoison s a b) := by
  unfold State.ctlPoison
  with_reducible refine Evolves.ite ?_ ?_
  · with_reducible refine State.badLine_evolves _ _ _ ?_
    exact h
  · exact h

theorem State.overRec_evolves {s₀ s} (a b c) (hc : ∀ x0, Evolves r s₀ x0 → Evolves r s₀ (c x0)) (h : Evolves r s₀ s) : Evolves r s₀ (State.overRec s a b c) := by
  unfold State.overRec
  with_reducible refine Evolves.ite ?_ ?_
  · with_reducible refine State.raise_evolves _ _ _ _ _ _ ?_
    with_reducible refine State.ctlPoison_evolves _ _ ?_
    exact h
  · with_reducible refine hc _ ?_
    exact h

theorem State.freeStash_evolves {s₀ s} (a) (h : Evolves r s₀ s) : Evolves r s₀ (State.freeStash s a) := by
  unfold State.freeStash
  extract_lets -underBinder -merge -useContext +onlyGivenNames v0
  have hv0 : Evolves r s₀ v0 := by
    with_reducible refine State.freeSlots_evolves _ ?_
    exact h
  try clear_value v0
  with_reducible refine Evolves.ite ?_ ?_
  · exact hv0
  · extract_lets -underBinder -merge -useContext +onlyGivenNames v1
    have hv1 : Evolves r s₀ v1 := by
      with_reducible refine Evolves.foldl (fun a2 x3 ha2 => ?_) ?_
      · with_reducible refine State.overRec_evolves _ _ _ (fun y4 hy4 => ?_) ?_
        · with_reducible refine Evolves.ite ?_ ?_
          · exact hy4
          · with_reducible refine State.setStashSt_evolves _ _ _ ?_
            exact hy4
        · exact ha2
      · exact hv0
    try clear_value v1
    with_reducible refine State.setFld_evolves _ _ _ _ _ ?_
    exact hv1

theorem State.setCrs_evolves {s₀ s} (a b) (h : Evolves r s₀ s) : Evolves r s₀ (State.setCrs s a b) := by
  unfold State.setCrs
  with_reducible refine Evolves.upd_parts ?_ rfl rfl rfl rfl rfl rfl rfl rfl rfl rfl rfl ?_
  · exact fun hp => { hp with
      crossings := by first | exact keysRise_sset hp.crossings | exact keysRise_filter _ hp.crossings | exact keysRise_sput (Nat.zero_le _) hp.crossings | exact keysRise_sdel hp.crossings | exact keysRise_map_snd hp.crossings | exact keysRise_map_if hp.crossings | rfl
    }
  exact h

theorem State.crsRequest_evolves {s₀ s} (a b) (h : Evolves r s₀ s) : Evolves r s₀ (State.crsRequest s a b) := by
  unfold State.crsRequest
  with_reducible refine Evolves.ite ?_ ?_
  · exact h
  · with_reducible refine State.setCrs_evolves _ _ ?_
    exact h

theorem State.crsPlain_evolves {s₀ s} (a b c d) (h : Evolves r s₀ s) : Evolves r s₀ (State.crsPlain s a b c d) := by
  unfold State.crsPlain
  with_reducible refine State.crsRequest_evolves _ _ ?_
  exact h

theorem State.rollWindow_evolves {s₀ s} (a) (h : Evolves r s₀ s) : Evolves r s₀ (State.rollWindow s a) := by
  unfold State.rollWindow
  extract_lets -underBinder -merge -useContext +onlyGivenNames v0
  try clear_value v0
  extract_lets -underBinder -merge -useContext +onlyGivenNames v1
  try clear_value v1
  extract_lets -underBinder -merge -useContext +onlyGivenNames v2
  try clear_value v2
  with_reducible refine Evolves.ite ?_ ?_
  · exact h
  · with_reducible refine State.setCrs_evolves _ _ ?_
    exact h

theorem State.endGrant_evolves {s₀ s} (a b) (h : Evolves r s₀ s) : Evolves r s₀ (State.endGrant s a b) := by
  unfold State.endGrant
  with_reducible refine State.setCrs_evolves _ _ ?_
  exact h

theorem State.crsRound_evolves {s₀ s} (a b) (h : Evolves r s₀ s) : Evolves r s₀ (State.crsRound s a b).1 := by
  unfold State.crsRound
  extract_lets -underBinder -merge -useContext +onlyGivenNames v0
  have hv0 : Evolves r s₀ v0 := by
    with_reducible refine State.rollWindow_evolves _ ?_
    exact h
  try clear_value v0
  extract_lets -underBinder -merge -useContext +onlyGivenNames v1
  try clear_value v1
  extract_lets -underBinder -merge -useContext +onlyGivenNames v2
  try clear_value v2
  extract_lets -underBinder -merge -useContext +onlyGivenNames v3
  have hv3 : Evolves r s₀ v3 := by
    with_reducible refine Evolves.ite ?_ ?_
    · with_reducible refine State.bump_evolves _ _ _ ?_
      exact hv0
    · exact hv0
  try clear_value v3
  split
  · with_reducible refine Evolves.mk_fst ?_
    exact hv3
  · extract_lets -underBinder -merge -useContext +onlyGivenNames v6
    try clear_value v6
    extract_lets -underBinder -merge -useContext +onlyGivenNames v7
    try clear_value v7
    extract_lets -underBinder -merge -useContext +onlyGivenNames v8
    try clear_value v8
    extract_lets -underBinder -merge -useContext +onlyGivenNames v9
    try clear_value v9
    extract_lets -underBinder -merge -useContext +onlyGivenNames v10
    have hv10 : Evolves r s₀ v10 := by
      with_reducible refine State.setCrs_evolves _ _ ?_
      exact hv3
    try clear_value v10
    extract_lets -underBinder -merge -useContext +onlyGivenNames v11
    have hv11 : Evolves r s₀ v11 := by
      with_reducible refine State.bump_evolves _ _ _ ?_
      exact hv10
    try clear_value v11
    extract_lets -underBinder -merge -useContext +onlyGivenNames v12
    have hv12 : Evolves r s₀ v12 := by
      with_reducible refine Evolves.ite ?_ ?_
      · with_reducible refine State.bump_evolves _ _ _ ?_
        exact hv11
      · exact hv11
    try clear_value v12
    with_reducible refine Evolves.mk_fst ?_
    with_reducible refine State.setReg_evolves _ _ _ ?_
    exact hv12

theorem execArbitrationRound_evolves {s₀ s t} (a b) (he : execArbitrationRound a b s = .next t) (h : Evolves r s₀ s) : Evolves r s₀ t := by
  unfold execArbitrationRound at he
  cases he
  with_reducible refine Evolves.ite ?_ ?_
  · exact h
  · extract_lets -underBinder -merge -useContext +onlyGivenNames v0
    have hv0 : Evolves r s₀ v0 := by
      with_reducible refine Evolves.ite ?_ ?_
      · with_reducible refine State.endGrant_evolves _ _ ?_
        exact h
      · exact h
    try clear_value v0
    with_reducible refine Evolves.ite ?_ ?_
    · exact hv0
    · with_reducible refine State.crsRound_evolves _ _ ?_
      exact hv0

theorem execQuotaWindowEnd_evolves {s₀ s t} (a) (he : execQuotaWindowEnd a s = .next t) (h : Evolves r s₀ s) : Evolves r s₀ t := by
  unfold execQuotaWindowEnd at he
  cases he
  with_reducible refine Evolves.ite ?_ ?_
  · exact h
  · with_reducible refine State.rollWindow_evolves _ ?_
    exact h

theorem crsQuotaWrite_evolves {s₀ s} (a b) (h : Evolves r s₀ s) : Evolves r s₀ (crsQuotaWrite a b s) := by
  unfold crsQuotaWrite
  with_reducible refine State.setCrs_evolves _ _ ?_
  with_reducible refine State.setReg_evolves _ _ _ ?_
  exact h

theorem execCrsQuotaWrite_evolves {s₀ s t} (a b c) (he : execCrsQuotaWrite a b c s = .next t) (h : Evolves r s₀ s) : Evolves r s₀ t := by
  unfold execCrsQuotaWrite at he
  cases he
  with_reducible refine Evolves.ite ?_ ?_
  · with_reducible refine State.onWrite_evolves _ _ _ _ (fun y0 hy0 => ?_) ?_
    · with_reducible refine crsQuotaWrite_evolves _ _ ?_
      exact hy0
    · exact h
  · exact h

theorem State.farTouch_evolves {s₀ s} (a b c) (h : Evolves r s₀ s) : Evolves r s₀ (State.farTouch s a b c) := by
  unfold State.farTouch
  with_reducible refine Evolves.foldl (fun a0 x1 ha0 => ?_) ?_
  · with_reducible refine State.crsPlain_evolves _ _ _ _ ?_
    exact ha0
  · exact h

theorem State.crsWithdraw_evolves {s₀ s} (a) (h : Evolves r s₀ s) : Evolves r s₀ (State.crsWithdraw s a) := by
  unfold State.crsWithdraw
  with_reducible refine Evolves.foldl (fun a0 x1 ha0 => ?_) ?_
  · with_reducible refine State.setCrs_evolves _ _ ?_
    exact ha0
  · exact h

theorem State.wcWrite_evolves {s₀ s} (a b c d e f g i) (h : Evolves r s₀ s) : Evolves r s₀ (State.wcWrite s a b c d e f g i).1 := by
  unfold State.wcWrite
  split
  · extract_lets -underBinder -merge -useContext +onlyGivenNames v3
    try clear_value v3
    extract_lets -underBinder -merge -useContext +onlyGivenNames v4
    have hv4 : Evolves r s₀ v4 := by
      with_reducible refine State.devWrite_evolves _ _ ?_
      exact h
    try clear_value v4
    with_reducible refine Evolves.mk_fst ?_
    with_reducible refine Evolves.ite ?_ ?_
    · with_reducible refine State.devWrite_evolves _ _ ?_
      exact hv4
    · exact hv4

theorem State.wcAll_evolves {s₀ s} (a b c) (h : Evolves r s₀ s) : Evolves r s₀ (State.wcAll s a b c).1 := by
  unfold State.wcAll
  extract_lets -underBinder -merge -useContext +onlyGivenNames v0
  try clear_value v0
  extract_lets -underBinder -merge -useContext +onlyGivenNames v1
  try clear_value v1
  split
  · rename_i w2 w3 e4
    have hw2 : Evolves r s₀ w2 := Evolves.of_pair e4 (by
      split
      · extract_lets -underBinder -merge -useContext +onlyGivenNames v6
        try clear_value v6
        extract_lets -underBinder -merge -useContext +onlyGivenNames v7
        try clear_value v7
        extract_lets -underBinder -merge -useContext +onlyGivenNames v8
        try clear_value v8
        with_reducible refine State.wcWrite_evolves _ _ _ _ _ _ _ _ ?_
        exact h
      · with_reducible refine Evolves.mk_fst ?_
        exact h)
    split
    · rename_i w11 w12 e13
      have hw11 : Evolves r s₀ w11 := Evolves.of_pair e13 (by
        split
        · extract_lets -underBinder -merge -useContext +onlyGivenNames v15
          try clear_value v15
          extract_lets -underBinder -merge -useContext +onlyGivenNames v16
          try clear_value v16
          extract_lets -underBinder -merge -useContext +onlyGivenNames v17
          try clear_value v17
          extract_lets -underBinder -merge -useContext +onlyGivenNames v18
          try clear_value v18
          with_reducible refine Evolves.foldl_fst (fun a19 x20 ha19 => ?_) ?_
          · extract_lets -underBinder -merge -useContext +onlyGivenNames v21
            try clear_value v21
            split
            · rename_i w22 w23 e24
              have hw22 : Evolves r s₀ w22 := Evolves.of_pair e24 (by
                with_reducible refine State.wcWrite_evolves _ _ _ _ _ _ _ _ ?_
                exact ha19)
              with_reducible refine Evolves.mk_fst ?_
              exact hw22
          · with_reducible refine Evolves.mk_fst ?_
            exact hw2
        · with_reducible refine Evolves.mk_fst ?_
          exact hw2)
      with_reducible refine Evolves.mk_fst ?_
      exact hw11

theorem State.writeStates_evolves {s₀ s} (a b c d e f) (h : Evolves r s₀ s) : Evolves r s₀ (State.writeStates s a b c d e f) := by
  unfold State.writeStates
  extract_lets -underBinder -merge -useContext +onlyGivenNames v0
  try clear_value v0
  extract_lets -underBinder -merge -useContext +onlyGivenNames v1
  try clear_value v1
  with_reducible refine Evolves.foldl (fun a2 x3 ha2 => ?_) ?_
  · extract_lets -underBinder -merge -useContext +onlyGivenNames v4
    try clear_value v4
    with_reducible refine Evolves.ite ?_ ?_
    · exact ha2
    · extract_lets -underBinder -merge -useContext +onlyGivenNames v5
      have hv5 : Evolves r s₀ v5 := by
        with_reducible refine State.devPut_evolves _ _ _ ?_
        with_reducible refine State.devPut_evolves _ _ _ ?_
        exact ha2
      try clear_value v5
      extract_lets -underBinder -merge -useContext +onlyGivenNames v6
      have hv6 : Evolves r s₀ v6 := by
        with_reducible refine Evolves.ite ?_ ?_
        · with_reducible refine State.devPut_evolves _ _ _ ?_
          exact hv5
        · exact hv5
      try clear_value v6
      with_reducible refine State.devPut_evolves _ _ _ ?_
      exact hv6
  · exact h

theorem State.updFault_evolves {s₀ s} (a b) (h : Evolves r s₀ s) : Evolves r s₀ (State.updFault s a b) := by
  unfold State.updFault
  with_reducible refine State.addRun_evolves _ _ ?_
  exact h

theorem State.updSkew_evolves {s₀ s} (a b) (h : Evolves r s₀ s) : Evolves r s₀ (State.updSkew s a b) := by
  unfold State.updSkew
  extract_lets -underBinder -merge -useContext +onlyGivenNames v0
  have hv0 : Evolves r s₀ v0 := by
    with_reducible refine State.bump_evolves _ _ _ ?_
    with_reducible refine State.orReg_evolves _ _ _ ?_
    with_reducible refine State.updFault_evolves _ _ ?_
    exact h
  try clear_value v0
  extract_lets -underBinder -merge -useContext +onlyGivenNames v1
  have hv1 : Evolves r s₀ v1 := by
    with_reducible refine State.raise_evolves _ _ _ _ _ _ ?_
    exact hv0
  try clear_value v1
  with_reducible refine Evolves.ite ?_ ?_
  · exact hv1
  · with_reducible refine State.cause_evolves _ ?_
    exact hv1

theorem State.readRanges_evolves {s₀ s} (a b) (h : Evolves r s₀ s) : Evolves r s₀ (State.readRanges s a b).1 := by
  unfold State.readRanges
  split
  · with_reducible refine Evolves.mk_fst ?_
    exact h
  · split
    · rename_i w3 w4 e5
      have hw3 : Evolves r s₀ w3 := Evolves.of_pair e5 (by
        with_reducible refine State.readLines_evolves _ _ _ ?_
        exact h)
      split
      · with_reducible refine Evolves.mk_fst ?_
        exact hw3
      · with_reducible refine State.readRanges_evolves _ _ ?_
        exact hw3

theorem State.updDone_evolves {s₀ s} (a b c d e f) (h : Evolves r s₀ s) : Evolves r s₀ (State.updDone s a b c d e f) := by
  unfold State.updDone
  extract_lets -underBinder -merge -useContext +onlyGivenNames v0
  try clear_value v0
  extract_lets -underBinder -merge -useContext +onlyGivenNames v1
  try clear_value v1
  extract_lets -underBinder -merge -useContext +onlyGivenNames v2
  try clear_value v2
  extract_lets -underBinder -merge -useContext +onlyGivenNames v3
  have hv3 : Evolves r s₀ v3 := by
    with_reducible refine State.writeStates_evolves _ _ _ _ _ _ ?_
    exact h
  try clear_value v3
  extract_lets -underBinder -merge -useContext +onlyGivenNames v4
  try clear_value v4
  split
  · rename_i w5 w6 w7 e8
    have hw5 : Evolves r s₀ w5 := Evolves.of_pair e8 (by
      with_reducible refine State.wcAll_evolves _ _ _ ?_
      exact hv3)
    extract_lets -underBinder -merge -useContext +onlyGivenNames v9
    try clear_value v9
    extract_lets -underBinder -merge -useContext +onlyGivenNames v10
    try clear_value v10
    extract_lets -underBinder -merge -useContext +onlyGivenNames v11
    have hv11 : Evolves r s₀ v11 := by
      with_reducible refine State.orReg_evolves _ _ _ ?_
      with_reducible refine State.bump_evolves _ _ _ ?_
      with_reducible refine State.bump_evolves _ _ _ ?_
      exact hw5
    try clear_value v11
    extract_lets -underBinder -merge -useContext +onlyGivenNames v12
    try clear_value v12
    extract_lets -underBinder -merge -useContext +onlyGivenNames v13 v14
    try clear_value v13
    have hv14 : Evolves r s₀ v14 := by
      with_reducible refine State.fresh_evolves ?_
      with_reducible refine State.addRun_evolves _ _ ?_
      exact hv11
    try clear_value v14
    extract_lets -underBinder -merge -useContext +onlyGivenNames v15
    have hv15 : Evolves r s₀ v15 := by
      with_reducible refine Evolves.foldl (fun a16 x17 ha16 => ?_) ?_
      · with_reducible refine State.farTouch_evolves _ _ _ ?_
        exact ha16
      · exact hv14
    try clear_value v15
    with_reducible refine Evolves.ite ?_ ?_
    · with_reducible refine State.raise_evolves _ _ _ _ _ _ ?_
      exact hv15
    · exact hv15

theorem updRun_evolves {s₀ s} (a) (h : Evolves r s₀ s) : Evolves r s₀ (updRun s a) := by
  unfold updRun
  extract_lets -underBinder -merge -useContext +onlyGivenNames v0
  try clear_value v0
  extract_lets -underBinder -merge -useContext +onlyGivenNames v1
  try clear_value v1
  extract_lets -underBinder -merge -useContext +onlyGivenNames v2
  try clear_value v2
  extract_lets -underBinder -merge -useContext +onlyGivenNames v3
  try clear_value v3
  extract_lets -underBinder -merge -useContext +onlyGivenNames v4
  try clear_value v4
  extract_lets -underBinder -merge -useContext +onlyGivenNames v5
  try clear_value v5
  extract_lets -underBinder -merge -useContext +onlyGivenNames v6
  try clear_value v6
  extract_lets -underBinder -merge -useContext +onlyGivenNames v7
  try clear_value v7
  with_reducible refine Evolves.ite ?_ ?_
  · exact h
  · with_reducible refine Evolves.ite ?_ ?_
    · with_reducible refine State.updSkew_evolves _ _ ?_
      exact h
    · split
      · with_reducible refine State.movFault_evolves _ _ _ _ ?_
        with_reducible refine State.updFault_evolves _ _ ?_
        exact h
      · split
        · rename_i w10 w11 e12
          have hw10 : Evolves r s₀ w10 := Evolves.of_pair e12 (by
            with_reducible refine State.readRanges_evolves _ _ ?_
            exact h)
          split
          · with_reducible refine State.stepError_evolves _ ?_
            with_reducible refine State.updFault_evolves _ _ ?_
            exact hw10
          · with_reducible refine State.updDone_evolves _ _ _ _ _ _ ?_
            exact hw10

theorem execUpd_evolves {s₀ s t} (a b) (he : execUpd a b s = .next t) (h : Evolves r s₀ s) : Evolves r s₀ t := by
  unfold execUpd at he
  cases he
  with_reducible refine State.issueWith_evolves _ _ _ _ _ (fun y0 y1 hy0 => ?_) ?_
  · with_reducible refine updRun_evolves _ ?_
    exact hy0
  · exact h

theorem State.updRetire_evolves {s₀ s} (a) (h : Evolves r s₀ s) : Evolves r s₀ (State.updRetire s a) := by
  unfold State.updRetire
  with_reducible refine Evolves.ite ?_ ?_
  · extract_lets -underBinder -merge -useContext +onlyGivenNames v0
    try clear_value v0
    extract_lets -underBinder -merge -useContext +onlyGivenNames v1
    have hv1 : Evolves r s₀ v1 := by
      with_reducible refine State.devPut_evolves _ _ _ ?_
      exact h
    try clear_value v1
    with_reducible refine Evolves.upd_mk rfl rfl rfl rfl rfl rfl rfl rfl rfl rfl rfl rfl rfl rfl rfl rfl rfl rfl rfl rfl rfl rfl rfl rfl rfl rfl rfl rfl ?_
    exact hv1
  · exact h

theorem State.setRoot_evolves {s₀ s} (a b c d) (h : Evolves r s₀ s) : Evolves r s₀ (State.setRoot s a b c d) := by
  unfold State.setRoot
  with_reducible refine State.devPut_evolves _ _ _ ?_
  exact h

theorem State.setRootFlag_evolves {s₀ s} (a b c) (h : Evolves r s₀ s) : Evolves r s₀ (State.setRootFlag s a b c) := by
  unfold State.setRootFlag
  with_reducible refine State.setRoot_evolves _ _ _ _ ?_
  exact h

theorem State.rootMerge_evolves {s₀ s} (a b c) (h : Evolves r s₀ s) : Evolves r s₀ (State.rootMerge s a b c) := by
  unfold State.rootMerge
  extract_lets -underBinder -merge -useContext +onlyGivenNames v0
  try clear_value v0
  extract_lets -underBinder -merge -useContext +onlyGivenNames v1
  try clear_value v1
  extract_lets -underBinder -merge -useContext +onlyGivenNames v2
  try clear_value v2
  split
  · extract_lets -underBinder -merge -useContext +onlyGivenNames v4
    have hv4 : Evolves r s₀ v4 := by
      with_reducible refine Evolves.ite ?_ ?_
      · with_reducible refine State.badLine_evolves _ _ _ ?_
        exact h
      · exact h
    try clear_value v4
    with_reducible refine State.movFault_evolves _ _ _ _ ?_
    exact hv4
  · extract_lets -underBinder -merge -useContext +onlyGivenNames v6
    have hv6 : Evolves r s₀ v6 := by
      with_reducible refine State.atomic_evolves _ _ ?_
      exact h
    try clear_value v6
    with_reducible refine Evolves.ite ?_ ?_
    · with_reducible refine State.atomic_evolves _ _ ?_
      exact hv6
    · exact hv6

theorem State.rootTest_evolves {s₀ s} (a) (h : Evolves r s₀ s) : Evolves r s₀ (State.rootTest s a) := by
  unfold State.rootTest
  extract_lets -underBinder -merge -useContext +onlyGivenNames v0
  try clear_value v0
  extract_lets -underBinder -merge -useContext +onlyGivenNames v1
  try clear_value v1
  extract_lets -underBinder -merge -useContext +onlyGivenNames v2
  try clear_value v2
  extract_lets -underBinder -merge -useContext +onlyGivenNames v3
  try clear_value v3
  extract_lets -underBinder -merge -useContext +onlyGivenNames v4
  have hv4 : Evolves r s₀ v4 := by
    with_reducible refine State.setRoot_evolves _ _ _ _ ?_
    exact h
  try clear_value v4
  extract_lets -underBinder -merge -useContext +onlyGivenNames v5
  have hv5 : Evolves r s₀ v5 := by
    with_reducible refine Evolves.ite ?_ ?_
    · with_reducible refine State.setRootFlag_evolves _ _ _ ?_
      exact hv4
    · exact hv4
  try clear_value v5
  extract_lets -underBinder -merge -useContext +onlyGivenNames v6
  have hv6 : Evolves r s₀ v6 := by
    with_reducible refine Evolves.ite ?_ ?_
    · with_reducible refine State.setRootFlag_evolves _ _ _ ?_
      with_reducible refine State.setRootFlag_evolves _ _ _ ?_
      exact hv5
    · with_reducible refine Evolves.ite ?_ ?_
      · with_reducible refine State.raise_evolves _ _ _ _ _ _ ?_
        with_reducible refine State.bump_evolves _ _ _ ?_
        with_reducible refine State.setRootFlag_evolves _ _ _ ?_
        with_reducible refine State.setRootFlag_evolves _ _ _ ?_
        exact hv5
      · exact hv5
  try clear_value v6
  with_reducible refine State.setRoot_evolves _ _ _ _ ?_
  exact hv6

theorem rootRun_evolves {s₀ s} (a) (h : Evolves r s₀ s) : Evolves r s₀ (rootRun s a) := by
  unfold rootRun
  extract_lets -underBinder -merge -useContext +onlyGivenNames v0
  try clear_value v0
  extract_lets -underBinder -merge -useContext +onlyGivenNames v1
  try clear_value v1
  extract_lets -underBinder -merge -useContext +onlyGivenNames v2
  try clear_value v2
  with_reducible refine Evolves.ite ?_ ?_
  · with_reducible refine State.bump_evolves _ _ _ ?_
    with_reducible refine State.addRun_evolves _ _ ?_
    exact h
  · with_reducible refine Evolves.ite ?_ ?_
    · with_reducible refine State.addRun_evolves _ _ ?_
      with_reducible refine State.rootTest_evolves _ ?_
      exact h
    · extract_lets -underBinder -merge -useContext +onlyGivenNames v3
      try clear_value v3
      extract_lets -underBinder -merge -useContext +onlyGivenNames v4
      try clear_value v4
      extract_lets -underBinder -merge -useContext +onlyGivenNames v5
      have hv5 : Evolves r s₀ v5 := by
        with_reducible refine State.useFree_evolves _ ?_
        with_reducible refine State.runEff_evolves _ _ ?_
        exact h
      try clear_value v5
      with_reducible refine Evolves.ite ?_ ?_
      · exact hv5
      · with_reducible refine Evolves.ite ?_ ?_
        · with_reducible refine State.rootMerge_evolves _ _ _ ?_
          exact hv5
        · with_reducible refine Evolves.ite ?_ ?_
          · with_reducible refine State.rootMerge_evolves _ _ _ ?_
            exact hv5
          · exact hv5

theorem State.rootOp_evolves {s₀ s} (a b c) (h : Evolves r s₀ s) : Evolves r s₀ (State.rootOp s a b c) := by
  unfold State.rootOp
  with_reducible refine State.issueWith_evolves _ _ _ _ _ (fun y0 y1 hy0 => ?_) ?_
  · with_reducible refine rootRun_evolves _ ?_
    exact hy0
  · exact h

theorem execRootAmax_evolves {s₀ s t} (a b) (he : execRootAmax a b s = .next t) (h : Evolves r s₀ s) : Evolves r s₀ t := by
  unfold execRootAmax at he
  cases he
  with_reducible refine State.rootOp_evolves _ _ _ ?_
  exact h

theorem execRootInit_evolves {s₀ s t} (a b) (he : execRootInit a b s = .next t) (h : Evolves r s₀ s) : Evolves r s₀ t := by
  unfold execRootInit at he
  cases he
  with_reducible refine State.rootOp_evolves _ _ _ ?_
  exact h

theorem execRootTstep_evolves {s₀ s t} (a b) (he : execRootTstep a b s = .next t) (h : Evolves r s₀ s) : Evolves r s₀ t := by
  unfold execRootTstep at he
  cases he
  with_reducible refine State.rootOp_evolves _ _ _ ?_
  exact h

theorem execRootProd_evolves {s₀ s t} (a b) (he : execRootProd a b s = .next t) (h : Evolves r s₀ s) : Evolves r s₀ t := by
  unfold execRootProd at he
  cases he
  with_reducible refine State.rootOp_evolves _ _ _ ?_
  exact h

theorem execRootTest_evolves {s₀ s t} (a b) (he : execRootTest a b s = .next t) (h : Evolves r s₀ s) : Evolves r s₀ t := by
  unfold execRootTest at he
  cases he
  with_reducible refine State.rootOp_evolves _ _ _ ?_
  exact h

theorem State.rootSwap_evolves {s₀ s} (a) (h : Evolves r s₀ s) : Evolves r s₀ (State.rootSwap s a) := by
  unfold State.rootSwap
  extract_lets -underBinder -merge -useContext +onlyGivenNames v0
  try clear_value v0
  extract_lets -underBinder -merge -useContext +onlyGivenNames v1
  have hv1 : Evolves r s₀ v1 := by
    with_reducible refine Evolves.ite ?_ ?_
    · with_reducible refine State.notice_evolves _ _ _ ?_
      with_reducible refine State.bump_evolves _ _ _ ?_
      with_reducible refine State.devWrite_evolves _ _ ?_
      exact h
    · exact h
  try clear_value v1
  with_reducible refine State.setRoot_evolves _ _ _ _ ?_
  with_reducible refine State.setRootFlag_evolves _ _ _ ?_
  with_reducible refine State.setRootFlag_evolves _ _ _ ?_
  with_reducible refine State.setRootFlag_evolves _ _ _ ?_
  exact hv1

theorem State.hostPiece_evolves {s₀ s} (a b c d) (h : Evolves r s₀ s) : Evolves r s₀ (State.hostPiece s a b c d) := by
  unfold State.hostPiece
  with_reducible refine Evolves.ite ?_ ?_
  · exact h
  · with_reducible refine State.crsPlain_evolves _ _ _ _ ?_
    with_reducible refine Evolves.upd_out ?_ rfl rfl rfl rfl rfl rfl rfl rfl rfl rfl rfl rfl rfl rfl rfl rfl rfl rfl rfl rfl rfl rfl rfl rfl rfl rfl rfl ?_
    · exact ⟨_, rfl⟩
    exact h

theorem State.hostSend_evolves {s₀ s} (a b c d) (h : Evolves r s₀ s) : Evolves r s₀ (State.hostSend s a b c d) := by
  unfold State.hostSend
  extract_lets -underBinder -merge -useContext +onlyGivenNames v0
  try clear_value v0
  with_reducible refine State.hostPiece_evolves _ _ _ _ ?_
  with_reducible refine State.hostPiece_evolves _ _ _ _ ?_
  exact h

theorem State.blockStore_evolves {s₀ s} (a b c d e) (h : Evolves r s₀ s) : Evolves r s₀ (State.blockStore s a b c d e) := by
  unfold State.blockStore
  with_reducible refine Evolves.ite ?_ ?_
  · exact h
  · split
    · with_reducible refine State.farTouch_evolves _ _ _ ?_
      with_reducible refine State.devWrite_evolves _ _ ?_
      exact h
    · with_reducible refine State.farTouch_evolves _ _ _ ?_
      with_reducible refine State.devWrite_evolves _ _ ?_
      exact h
    · with_reducible refine State.farTouch_evolves _ _ _ ?_
      with_reducible refine State.devWrite_evolves _ _ ?_
      exact h
    · with_reducible refine State.farTouch_evolves _ _ _ ?_
      with_reducible refine State.devWrite_evolves _ _ ?_
      exact h
    · with_reducible refine Evolves.ite ?_ ?_
      · exact h
      · with_reducible refine State.hostSend_evolves _ _ _ _ ?_
        exact h
    · exact h

theorem State.setChkUnit_evolves {s₀ s} (a b) (h : Evolves r s₀ s) : Evolves r s₀ (State.setChkUnit s a b) := by
  unfold State.setChkUnit
  with_reducible refine Evolves.upd_parts ?_ rfl rfl rfl rfl rfl rfl rfl rfl rfl rfl rfl ?_
  · exact fun hp => { hp with
      chk := by first | exact keysRise_sset hp.chk | exact keysRise_filter _ hp.chk | exact keysRise_sput (Nat.zero_le _) hp.chk | exact keysRise_sdel hp.chk | exact keysRise_map_snd hp.chk | exact keysRise_map_if hp.chk | rfl
    }
  exact h

theorem State.setChkValue_evolves {s₀ s} (a b) (h : Evolves r s₀ s) : Evolves r s₀ (State.setChkValue s a b) := by
  unfold State.setChkValue
  with_reducible refine State.setReg_evolves _ _ _ ?_
  with_reducible refine State.setReg_evolves _ _ _ ?_
  exact h

theorem State.chkFeed_evolves {s₀ s} (a b) (h : Evolves r s₀ s) : Evolves r s₀ (State.chkFeed s a b) := by
  unfold State.chkFeed
  with_reducible refine State.bump_evolves _ _ _ ?_
  with_reducible refine State.setChkValue_evolves _ _ ?_
  exact h

theorem State.chkGuard_evolves {s₀ s} (a b) (hb : ∀ x0, Evolves r s₀ x0 → Evolves r s₀ (b x0)) (h : Evolves r s₀ s) : Evolves r s₀ (State.chkGuard s a b) := by
  unfold State.chkGuard
  with_reducible refine Evolves.ite ?_ ?_
  · with_reducible refine State.orReg_evolves _ _ _ ?_
    exact h
  · with_reducible refine hb _ ?_
    exact h

theorem chkCtlWrite_evolves {s₀ s} (a b) (h : Evolves r s₀ s) : Evolves r s₀ (chkCtlWrite a b s) := by
  unfold chkCtlWrite
  extract_lets -underBinder -merge -useContext +onlyGivenNames v0
  have hv0 : Evolves r s₀ v0 := by
    with_reducible refine State.setReg_evolves _ _ _ ?_
    exact h
  try clear_value v0
  with_reducible refine Evolves.ite ?_ ?_
  · with_reducible refine State.chkGuard_evolves _ _ (fun y1 hy1 => ?_) ?_
    · with_reducible refine State.setChkValue_evolves _ _ ?_
      exact hy1
    · exact hv0
  · exact hv0

theorem chkSetWrite_evolves {s₀ s} (a b c) (h : Evolves r s₀ s) : Evolves r s₀ (chkSetWrite a b c s) := by
  unfold chkSetWrite
  with_reducible refine State.chkGuard_evolves _ _ (fun y0 hy0 => ?_) ?_
  · with_reducible refine State.setReg_evolves _ _ _ ?_
    exact hy0
  · exact h

theorem chkValueLoWrite_evolves {s₀ s} (a b) (h : Evolves r s₀ s) : Evolves r s₀ (chkValueLoWrite a b s) := by
  unfold chkValueLoWrite
  with_reducible refine State.chkGuard_evolves _ _ (fun y0 hy0 => ?_) ?_
  · with_reducible refine State.setChkUnit_evolves _ _ ?_
    exact hy0
  · exact h

theorem chkValueHiWrite_evolves {s₀ s} (a b) (h : Evolves r s₀ s) : Evolves r s₀ (chkValueHiWrite a b s) := by
  unfold chkValueHiWrite
  with_reducible refine State.chkGuard_evolves _ _ (fun y0 hy0 => ?_) ?_
  · with_reducible refine State.setChkValue_evolves _ _ ?_
    exact hy0
  · exact h

theorem chkFeedWrite_evolves {s₀ s} (a b c) (h : Evolves r s₀ s) : Evolves r s₀ (chkFeedWrite a b c s) := by
  unfold chkFeedWrite
  with_reducible refine Evolves.ite ?_ ?_
  · with_reducible refine State.chkFeed_evolves _ _ ?_
    exact h
  · with_reducible refine State.orReg_evolves _ _ _ ?_
    exact h

theorem chkValueLoRead_evolves {s₀ s} (a) (h : Evolves r s₀ s) : Evolves r s₀ (chkValueLoRead a s) := by
  unfold chkValueLoRead
  extract_lets -underBinder -merge -useContext +onlyGivenNames v0
  try clear_value v0
  with_reducible refine State.reply_evolves _ ?_
  with_reducible refine State.setChkUnit_evolves _ _ ?_
  exact h

theorem chkResultLoRead_evolves {s₀ s} (a) (h : Evolves r s₀ s) : Evolves r s₀ (chkResultLoRead a s) := by
  unfold chkResultLoRead
  extract_lets -underBinder -merge -useContext +onlyGivenNames v0
  try clear_value v0
  with_reducible refine State.reply_evolves _ ?_
  with_reducible refine State.setChkUnit_evolves _ _ ?_
  exact h

theorem State.chkWrite_evolves {s₀ s} (a b c d) (hd : ∀ x0, Evolves r s₀ x0 → Evolves r s₀ (d x0)) (h : Evolves r s₀ s) : Evolves r s₀ (State.chkWrite s a b c d) := by
  unfold State.chkWrite
  with_reducible refine Evolves.ite ?_ ?_
  · with_reducible refine State.onWrite_evolves _ _ _ _ (fun y0 hy0 => ?_) ?_
    · with_reducible refine hd _ ?_
      exact hy0
    · exact h
  · exact h

theorem execClaim_evolves {s₀ s t} (a b c) (he : execClaim a b c s = .next t) (h : Evolves r s₀ s) : Evolves r s₀ t := by
  unfold execClaim at he
  cases he
  with_reducible refine State.chkWrite_evolves _ _ _ _ (fun y0 hy0 => ?_) ?_
  · with_reducible refine chkCtlWrite_evolves _ _ ?_
    exact hy0
  · exact h

theorem execChkReset_evolves {s₀ s t} (a b) (he : execChkReset a b s = .next t) (h : Evolves r s₀ s) : Evolves r s₀ t := by
  unfold execChkReset at he
  cases he
  with_reducible refine State.chkWrite_evolves _ _ _ _ (fun y0 hy0 => ?_) ?_
  · with_reducible refine chkCtlWrite_evolves _ _ ?_
    exact hy0
  · exact h

theorem execFeed8_evolves {s₀ s t} (a b c) (he : execFeed8 a b c s = .next t) (h : Evolves r s₀ s) : Evolves r s₀ t := by
  unfold execFeed8 at he
  cases he
  with_reducible refine State.chkWrite_evolves _ _ _ _ (fun y0 hy0 => ?_) ?_
  · with_reducible refine chkFeedWrite_evolves _ _ _ ?_
    exact hy0
  · exact h

theorem execFeed16_evolves {s₀ s t} (a b c) (he : execFeed16 a b c s = .next t) (h : Evolves r s₀ s) : Evolves r s₀ t := by
  unfold execFeed16 at he
  cases he
  with_reducible refine State.chkWrite_evolves _ _ _ _ (fun y0 hy0 => ?_) ?_
  · with_reducible refine chkFeedWrite_evolves _ _ _ ?_
    exact hy0
  · exact h

theorem execFeed32_evolves {s₀ s t} (a b c) (he : execFeed32 a b c s = .next t) (h : Evolves r s₀ s) : Evolves r s₀ t := by
  unfold execFeed32 at he
  cases he
  with_reducible refine State.chkWrite_evolves _ _ _ _ (fun y0 hy0 => ?_) ?_
  · with_reducible refine chkFeedWrite_evolves _ _ _ ?_
    exact hy0
  · exact h

theorem execValueHiWrite_evolves {s₀ s t} (a b c) (he : execValueHiWrite a b c s = .next t) (h : Evolves r s₀ s) : Evolves r s₀ t := by
  unfold execValueHiWrite at he
  cases he
  with_reducible refine State.chkWrite_evolves _ _ _ _ (fun y0 hy0 => ?_) ?_
  · with_reducible refine chkValueHiWrite_evolves _ _ ?_
    exact hy0
  · exact h

theorem execChkValueLoRead_evolves {s₀ s t} (a b) (he : execChkValueLoRead a b s = .next t) (h : Evolves r s₀ s) : Evolves r s₀ t := by
  unfold execChkValueLoRead at he
  cases he
  with_reducible refine Evolves.ite ?_ ?_
  · with_reducible refine State.onRead_evolves _ _ _ _ (fun y0 hy0 => ?_) ?_
    · with_reducible refine chkValueLoRead_evolves _ ?_
      exact hy0
    · exact h
  · exact h

theorem execChkResultLoRead_evolves {s₀ s t} (a b) (he : execChkResultLoRead a b s = .next t) (h : Evolves r s₀ s) : Evolves r s₀ t := by
  unfold execChkResultLoRead at he
  cases he
  with_reducible refine Evolves.ite ?_ ?_
  · with_reducible refine State.onRead_evolves _ _ _ _ (fun y0 hy0 => ?_) ?_
    · with_reducible refine chkResultLoRead_evolves _ ?_
      exact hy0
    · exact h
  · exact h

end Sys2Proof.Machine
end

