-- ==== Sys2Proof/Laws/EvolvesKv.lean ====
section
/-! SUPPORT. Laws/EvolvesKv.lean: every operation of the KV page store evolves the state (Laws/Evolves.lean); one lemma for each. -/
namespace Sys2Proof.Machine

set_option Elab.async false
set_option linter.all false

variable {r : Bool}

theorem State.setPool_evolves {s₀ s} (a b) (h : Evolves r s₀ s) : Evolves r s₀ (State.setPool s a b) := by
  unfold State.setPool
  with_reducible refine Evolves.upd_parts ?_ rfl rfl rfl rfl rfl rfl rfl rfl rfl rfl rfl ?_
  · exact fun hp => { hp with
      pools := by first | exact keysRise_sset hp.pools | exact keysRise_filter _ hp.pools | exact keysRise_sput (Nat.zero_le _) hp.pools | exact keysRise_sdel hp.pools | exact keysRise_map_snd hp.pools | exact keysRise_map_if hp.pools | rfl
    }
  exact h

theorem State.setMeta_evolves {s₀ s} (a b c) (h : Evolves r s₀ s) : Evolves r s₀ (State.setMeta s a b c) := by
  unfold State.setMeta
  with_reducible refine State.devPut_evolves _ _ _ ?_
  exact h

theorem State.setRef_evolves {s₀ s} (a b c) (h : Evolves r s₀ s) : Evolves r s₀ (State.setRef s a b c) := by
  unfold State.setRef
  with_reducible refine State.setMeta_evolves _ _ _ ?_
  exact h

theorem State.setPins_evolves {s₀ s} (a b c) (h : Evolves r s₀ s) : Evolves r s₀ (State.setPins s a b c) := by
  unfold State.setPins
  with_reducible refine State.setMeta_evolves _ _ _ ?_
  exact h

theorem State.setNext_evolves {s₀ s} (a b c) (h : Evolves r s₀ s) : Evolves r s₀ (State.setNext s a b c) := by
  unfold State.setNext
  with_reducible refine State.setMeta_evolves _ _ _ ?_
  exact h

theorem State.poolFell_evolves {s₀ s} (a b) (h : Evolves r s₀ s) : Evolves r s₀ (State.poolFell s a b) := by
  unfold State.poolFell
  extract_lets -underBinder -merge -useContext +onlyGivenNames v0
  try clear_value v0
  with_reducible refine Evolves.ite ?_ ?_
  · with_reducible refine State.notice_evolves _ _ _ ?_
    exact h
  · exact h

theorem State.pushFree_evolves {s₀ s} (a b) (h : Evolves r s₀ s) : Evolves r s₀ (State.pushFree s a b) := by
  unfold State.pushFree
  extract_lets -underBinder -merge -useContext +onlyGivenNames v0
  try clear_value v0
  with_reducible refine State.setPool_evolves _ _ ?_
  with_reducible refine State.setNext_evolves _ _ _ ?_
  exact h

theorem State.freeToReserve_evolves {s₀ s} (a) (h : Evolves r s₀ s) : Evolves r s₀ (State.freeToReserve s a) := by
  unfold State.freeToReserve
  extract_lets -underBinder -merge -useContext +onlyGivenNames v0
  try clear_value v0
  split
  · exact h
  · with_reducible refine State.poolFell_evolves _ _ ?_
    with_reducible refine State.setPool_evolves _ _ ?_
    with_reducible refine State.setNext_evolves _ _ _ ?_
    exact h

theorem State.reserveToFree_evolves {s₀ s} (a) (h : Evolves r s₀ s) : Evolves r s₀ (State.reserveToFree s a) := by
  unfold State.reserveToFree
  extract_lets -underBinder -merge -useContext +onlyGivenNames v0
  try clear_value v0
  split
  · exact h
  · with_reducible refine State.pushFree_evolves _ _ ?_
    with_reducible refine State.setPool_evolves _ _ ?_
    exact h

theorem State.addRef_evolves {s₀ s} (a b) (h : Evolves r s₀ s) : Evolves r s₀ (State.addRef s a b) := by
  unfold State.addRef
  with_reducible refine State.freeToReserve_evolves _ ?_
  with_reducible refine State.setRef_evolves _ _ _ ?_
  exact h

theorem State.dropRef_evolves {s₀ s} (a b) (h : Evolves r s₀ s) : Evolves r s₀ (State.dropRef s a b) := by
  unfold State.dropRef
  extract_lets -underBinder -merge -useContext +onlyGivenNames v0
  try clear_value v0
  with_reducible refine Evolves.ite ?_ ?_
  · with_reducible refine State.reserveToFree_evolves _ ?_
    with_reducible refine State.setRef_evolves _ _ _ ?_
    exact h
  · with_reducible refine Evolves.ite ?_ ?_
    · with_reducible refine State.pushFree_evolves _ _ ?_
      with_reducible refine State.setRef_evolves _ _ _ ?_
      exact h
    · exact h

theorem State.allocPage_evolves {s₀ s t w} (a) (he : State.allocPage s a = some (t, w)) (h : Evolves r s₀ s) :
    Evolves r s₀ t := by
  unfold State.allocPage at he
  dsimp only at he
  split at he
  · cases he
  · cases he
    exact State.bump_evolves _ _ _ (State.poolFell_evolves _ _ (State.setRef_evolves _ _ _ (State.setPool_evolves _ _ h)))

theorem State.pin_evolves {s₀ s t} (a b) (he : State.pin s a b = some t) (h : Evolves r s₀ s) : Evolves r s₀ t := by
  unfold State.pin at he
  split at he
  · cases he
  · cases he
    exact State.setPins_evolves _ _ _ (State.addRef_evolves _ _ h)

theorem State.unpin_evolves {s₀ s} (a b) (h : Evolves r s₀ s) : Evolves r s₀ (State.unpin s a b) := by
  unfold State.unpin
  with_reducible refine State.dropRef_evolves _ _ ?_
  with_reducible refine State.setPins_evolves _ _ _ ?_
  exact h

theorem State.copyLines_evolves {s₀ s} (a b c) (h : Evolves r s₀ s) : Evolves r s₀ (State.copyLines s a b c) := by
  unfold State.copyLines
  split
  · exact h
  · split
    · rename_i w2 w3 e4
      have hw2 : Evolves r s₀ w2 := Evolves.of_pair e4 (by
        with_reducible refine State.lineRead_evolves _ _ _ ?_
        exact h)
      extract_lets -underBinder -merge -useContext +onlyGivenNames v5
      have hv5 : Evolves r s₀ v5 := by
        with_reducible refine State.devWrite_evolves _ _ ?_
        exact hw2
      try clear_value v5
      with_reducible refine State.copyLines_evolves _ _ _ ?_
      with_reducible refine Evolves.ite ?_ ?_
      · with_reducible refine State.poisonLine_evolves _ ?_
        exact hv5
      · exact hv5

theorem State.setCx_evolves {s₀ s} (a b c d) (h : Evolves r s₀ s) : Evolves r s₀ (State.setCx s a b c d) := by
  unfold State.setCx
  with_reducible refine State.devPut_evolves _ _ _ ?_
  exact h

theorem State.setLen_evolves {s₀ s} (a b) (h : Evolves r s₀ s) : Evolves r s₀ (State.setLen s a b) := by
  unfold State.setLen
  with_reducible refine State.setCx_evolves _ _ _ _ ?_
  exact h

theorem State.setEntry_evolves {s₀ s} (a b c d) (h : Evolves r s₀ s) : Evolves r s₀ (State.setEntry s a b c d) := by
  unfold State.setEntry
  with_reducible refine State.devPut_evolves _ _ _ ?_
  exact h

theorem State.writablePage_evolves {s₀ s t w} (a b c) (he : State.writablePage s a b c = some (t, w)) (h : Evolves r s₀ s) :
    Evolves r s₀ t := by
  unfold State.writablePage at he
  dsimp only at he
  split at he
  · cases he; exact h
  · split at he
    · cases he
    · simp only [Option.some.injEq, Prod.mk.injEq] at he
      obtain ⟨rfl, rfl⟩ := he
      with_reducible exact State.bump_evolves _ _ _ (State.setRef_evolves _ _ _ (State.setRef_evolves _ _ _ (State.setEntry_evolves _ _ _ _
        (State.setPool_evolves _ _ (State.copyLines_evolves _ _ _ h)))))

/-- The state of a walk that found its page. -/
theorem State.walkPin_evolves {s₀ s t p} (a b) (he : State.walkPin s a b = .page t p) (h : Evolves r s₀ s) : Evolves r s₀ t := by
  unfold State.walkPin at he
  split at he
  · cases he
  · split at he
    · next hp => cases he; exact State.pin_evolves _ _ hp h
    · cases he

theorem State.walkPage_evolves {s₀ s t p} (a b c d) (he : State.walkPage s a b c d = .page t p) (h : Evolves r s₀ s) :
    Evolves r s₀ t := by
  unfold State.walkPage at he
  dsimp only at he
  split at he
  · simp at he
  split at he
  · simp at he
  split at he
  · simp at he
  split at he
  · split at he
    · simp at he
    · split at he
      · split at he
        · next hp => exact State.walkPin_evolves _ _ he (State.setEntry_evolves _ _ _ _ (State.allocPage_evolves _ hp h))
        · simp at he
      · simp at he
  · split at he
    · split at he
      · next hp => exact State.walkPin_evolves _ _ he (State.writablePage_evolves _ _ _ hp h)
      · simp at he
    · exact State.walkPin_evolves _ _ he h

theorem State.walkFault_evolves {s₀ s} (a b c d) (h : Evolves r s₀ s) : Evolves r s₀ (State.walkFault s a b c d) := by
  unfold State.walkFault
  with_reducible refine State.raise_evolves _ _ _ _ _ _ ?_
  with_reducible refine State.bump_evolves _ _ _ ?_
  exact h

theorem poolCtlWrite_evolves {s₀ s} (a b) (h : Evolves r s₀ s) : Evolves r s₀ (poolCtlWrite a b s) := by
  unfold poolCtlWrite
  extract_lets -underBinder -merge -useContext +onlyGivenNames v0
  try clear_value v0
  extract_lets -underBinder -merge -useContext +onlyGivenNames v1
  try clear_value v1
  with_reducible refine Evolves.ite ?_ ?_
  · extract_lets -underBinder -merge -useContext +onlyGivenNames v2
    try clear_value v2
    extract_lets -underBinder -merge -useContext +onlyGivenNames v3
    have hv3 : Evolves r s₀ v3 := by
      with_reducible refine State.zeroRange_evolves _ _ ?_
      exact h
    try clear_value v3
    with_reducible refine State.setReg_evolves _ _ _ ?_
    with_reducible refine State.setPool_evolves _ _ ?_
    exact hv3
  · with_reducible refine Evolves.ite ?_ ?_
    · exact h
    · with_reducible refine State.setReg_evolves _ _ _ ?_
      with_reducible refine State.setPool_evolves _ _ ?_
      exact h

theorem execPoolEnable_evolves {s₀ s t} (a b c) (he : execPoolEnable a b c s = .next t) (h : Evolves r s₀ s) : Evolves r s₀ t := by
  unfold execPoolEnable at he
  cases he
  with_reducible refine Evolves.ite ?_ ?_
  · with_reducible refine State.onWrite_evolves _ _ _ _ (fun y0 hy0 => ?_) ?_
    · with_reducible refine poolCtlWrite_evolves _ _ ?_
      exact hy0
    · exact h
  · exact h

theorem State.pushAll_evolves {s₀ s} (a b) (h : Evolves r s₀ s) : Evolves r s₀ (State.pushAll s a b) := by
  unfold State.pushAll
  with_reducible refine Evolves.foldl (fun a0 x1 ha0 => ?_) ?_
  · with_reducible refine State.pushFree_evolves _ _ ?_
    exact ha0
  · exact h

theorem execPoolInitDone_evolves {s₀ s t} (a) (he : execPoolInitDone a s = .next t) (h : Evolves r s₀ s) : Evolves r s₀ t := by
  unfold execPoolInitDone at he
  cases he
  with_reducible refine Evolves.ite ?_ ?_
  · extract_lets -underBinder -merge -useContext +onlyGivenNames v0 v1
    try clear_value v0
    have hv1 : Evolves r s₀ v1 := by
      with_reducible refine State.setPool_evolves _ _ ?_
      exact h
    try clear_value v1
    extract_lets -underBinder -merge -useContext +onlyGivenNames v2
    have hv2 : Evolves r s₀ v2 := by
      with_reducible refine State.pushAll_evolves _ _ ?_
      exact hv1
    try clear_value v2
    with_reducible refine State.orReg_evolves _ _ _ ?_
    exact hv2
  · exact h

theorem poolFreeLatch_evolves {s₀ s} (a) (h : Evolves r s₀ s) : Evolves r s₀ (poolFreeLatch a s) := by
  unfold poolFreeLatch
  extract_lets -underBinder -merge -useContext +onlyGivenNames v0
  try clear_value v0
  extract_lets -underBinder -merge -useContext +onlyGivenNames v1
  try clear_value v1
  extract_lets -underBinder -merge -useContext +onlyGivenNames v2
  have hv2 : Evolves r s₀ v2 := by
    with_reducible refine State.setPool_evolves _ _ ?_
    exact h
  try clear_value v2
  with_reducible refine State.reply_evolves _ ?_
  exact hv2

theorem execPoolFreeRead_evolves {s₀ s t} (a b) (he : execPoolFreeRead a b s = .next t) (h : Evolves r s₀ s) : Evolves r s₀ t := by
  unfold execPoolFreeRead at he
  cases he
  with_reducible refine Evolves.ite ?_ ?_
  · with_reducible refine State.onRead_evolves _ _ _ _ (fun y0 hy0 => ?_) ?_
    · with_reducible refine poolFreeLatch_evolves _ ?_
      exact hy0
    · exact h
  · exact h

theorem kvsTailWrite_evolves {s₀ s} (a) (h : Evolves r s₀ s) : Evolves r s₀ (kvsTailWrite a s) := by
  unfold kvsTailWrite
  extract_lets -underBinder -merge -useContext +onlyGivenNames v0
  try clear_value v0
  with_reducible refine Evolves.ite ?_ ?_
  · with_reducible refine State.setReg_evolves _ _ _ ?_
    exact h
  · exact h

theorem execKvsCmdTailWrite_evolves {s₀ s t} (a b) (he : execKvsCmdTailWrite a b s = .next t) (h : Evolves r s₀ s) : Evolves r s₀ t := by
  unfold execKvsCmdTailWrite at he
  cases he
  with_reducible refine State.onWrite_evolves _ _ _ _ (fun y0 hy0 => ?_) ?_
  · with_reducible refine kvsTailWrite_evolves _ ?_
    exact hy0
  · exact h

theorem State.kvFinish_evolves {s₀ s} (a b) (h : Evolves r s₀ s) : Evolves r s₀ (State.kvFinish s a b) := by
  unfold State.kvFinish
  extract_lets -underBinder -merge -useContext +onlyGivenNames v0
  have hv0 : Evolves r s₀ v0 := by
    with_reducible refine Evolves.upd_mk rfl rfl rfl rfl rfl rfl rfl rfl rfl rfl rfl rfl rfl rfl rfl rfl rfl rfl rfl rfl rfl rfl rfl rfl rfl rfl rfl rfl ?_
    exact h
  try clear_value v0
  extract_lets -underBinder -merge -useContext +onlyGivenNames v1
  have hv1 : Evolves r s₀ v1 := by
    with_reducible refine Evolves.ite ?_ ?_
    · exact hv0
    · with_reducible refine State.raise_evolves _ _ _ _ _ _ ?_
      exact hv0
  try clear_value v1
  extract_lets -underBinder -merge -useContext +onlyGivenNames v2
  have hv2 : Evolves r s₀ v2 := by
    with_reducible refine Evolves.ite ?_ ?_
    · with_reducible refine State.blockSignal_evolves _ _ _ _ _ ?_
      exact hv1
    · exact hv1
  try clear_value v2
  extract_lets -underBinder -merge -useContext +onlyGivenNames v3
  have hv3 : Evolves r s₀ v3 := by
    with_reducible refine Evolves.ite ?_ ?_
    · with_reducible refine State.notice_evolves _ _ _ ?_
      exact hv2
    · exact hv2
  try clear_value v3
  with_reducible refine State.setReg_evolves _ _ _ ?_
  exact hv3

theorem State.kvRun_evolves {s₀ s} (a b) (hb : ∀ x0 x1, Evolves r s₀ x1 → Evolves r s₀ (b x0 x1)) (h : Evolves r s₀ s) : Evolves r s₀ (State.kvRun s a b) := by
  unfold State.kvRun
  split
  · with_reducible refine Evolves.ite ?_ ?_
    · with_reducible refine hb _ _ ?_
      exact h
    · exact h
  · exact h

theorem State.adjEvicted_evolves {s₀ s} (a b c) (h : Evolves r s₀ s) : Evolves r s₀ (State.adjEvicted s a b c) := by
  unfold State.adjEvicted
  with_reducible refine State.setCx_evolves _ _ _ _ ?_
  exact h

theorem State.clearEntries_evolves {s₀ s} (a b) (h : Evolves r s₀ s) : Evolves r s₀ (State.clearEntries s a b) := by
  unfold State.clearEntries
  extract_lets -underBinder -merge -useContext +onlyGivenNames v0
  try clear_value v0
  extract_lets -underBinder -merge -useContext +onlyGivenNames v1
  try clear_value v1
  with_reducible refine State.adjEvicted_evolves _ _ _ ?_
  with_reducible refine Evolves.foldl (fun a2 x3 ha2 => ?_) ?_
  · extract_lets -underBinder -merge -useContext +onlyGivenNames v4
    try clear_value v4
    extract_lets -underBinder -merge -useContext +onlyGivenNames v5
    have hv5 : Evolves r s₀ v5 := by
      with_reducible refine State.setEntry_evolves _ _ _ _ ?_
      exact ha2
    try clear_value v5
    with_reducible refine Evolves.ite ?_ ?_
    · with_reducible refine State.dropRef_evolves _ _ ?_
      exact hv5
    · exact hv5
  · exact h

theorem State.kvWait_evolves {s₀ s} (a b) (h : Evolves r s₀ s) : Evolves r s₀ (State.kvWait s a b) := by
  unfold State.kvWait
  with_reducible refine Evolves.ite ?_ ?_
  · with_reducible refine State.kvFinish_evolves _ _ ?_
    with_reducible refine State.raise_evolves _ _ _ _ _ _ ?_
    exact h
  · with_reducible refine Evolves.ite ?_ ?_
    · exact h
    · with_reducible refine Evolves.upd_mk rfl rfl rfl rfl rfl rfl rfl rfl rfl rfl rfl rfl rfl rfl rfl rfl rfl rfl rfl rfl rfl rfl rfl rfl rfl rfl rfl rfl ?_
      exact h

theorem kvShareGo_evolves {s₀ s} (a) (h : Evolves r s₀ s) : Evolves r s₀ (kvShareGo a s) := by
  unfold kvShareGo
  extract_lets -underBinder -merge -useContext +onlyGivenNames v0
  try clear_value v0
  extract_lets -underBinder -merge -useContext +onlyGivenNames v1
  try clear_value v1
  extract_lets -underBinder -merge -useContext +onlyGivenNames v2
  try clear_value v2
  extract_lets -underBinder -merge -useContext +onlyGivenNames v3
  try clear_value v3
  extract_lets -underBinder -merge -useContext +onlyGivenNames v4
  try clear_value v4
  extract_lets -underBinder -merge -useContext +onlyGivenNames v5
  try clear_value v5
  extract_lets -underBinder -merge -useContext +onlyGivenNames v6
  try clear_value v6
  extract_lets -underBinder -merge -useContext +onlyGivenNames v7
  try clear_value v7
  extract_lets -underBinder -merge -useContext +onlyGivenNames v8
  have hv8 : Evolves r s₀ v8 := by
    with_reducible refine Evolves.foldl (fun a9 x10 ha9 => ?_) ?_
    · extract_lets -underBinder -merge -useContext +onlyGivenNames v11
      try clear_value v11
      extract_lets -underBinder -merge -useContext +onlyGivenNames v12
      have hv12 : Evolves r s₀ v12 := by
        with_reducible refine State.setEntry_evolves _ _ _ _ ?_
        exact ha9
      try clear_value v12
      with_reducible refine Evolves.ite ?_ ?_
      · with_reducible refine State.addRef_evolves _ _ ?_
        exact hv12
      · exact hv12
    · exact h
  try clear_value v8
  extract_lets -underBinder -merge -useContext +onlyGivenNames v13
  try clear_value v13
  with_reducible refine State.kvFinish_evolves _ _ ?_
  with_reducible refine State.adjEvicted_evolves _ _ _ ?_
  with_reducible refine State.setLen_evolves _ _ ?_
  exact hv8

theorem kvShare_evolves {s₀ s} (a) (h : Evolves r s₀ s) : Evolves r s₀ (kvShare a s) := by
  unfold kvShare
  extract_lets -underBinder -merge -useContext +onlyGivenNames v0
  try clear_value v0
  extract_lets -underBinder -merge -useContext +onlyGivenNames v1
  try clear_value v1
  extract_lets -underBinder -merge -useContext +onlyGivenNames v2
  try clear_value v2
  extract_lets -underBinder -merge -useContext +onlyGivenNames v3
  try clear_value v3
  extract_lets -underBinder -merge -useContext +onlyGivenNames v4
  try clear_value v4
  with_reducible refine Evolves.ite ?_ ?_
  · with_reducible refine State.kvFinish_evolves _ _ ?_
    exact h
  · with_reducible refine Evolves.ite ?_ ?_
    · with_reducible refine State.kvFinish_evolves _ _ ?_
      exact h
    · extract_lets -underBinder -merge -useContext +onlyGivenNames v5
      try clear_value v5
      extract_lets -underBinder -merge -useContext +onlyGivenNames v6
      try clear_value v6
      with_reducible refine Evolves.ite ?_ ?_
      · with_reducible refine State.kvFinish_evolves _ _ ?_
        exact h
      · with_reducible refine Evolves.ite ?_ ?_
        · with_reducible refine State.kvFinish_evolves _ _ ?_
          exact h
        · with_reducible refine Evolves.ite ?_ ?_
          · with_reducible refine State.kvWait_evolves _ _ ?_
            exact h
          · with_reducible refine kvShareGo_evolves _ ?_
            exact h

theorem kvFree_evolves {s₀ s} (a) (h : Evolves r s₀ s) : Evolves r s₀ (kvFree a s) := by
  unfold kvFree
  extract_lets -underBinder -merge -useContext +onlyGivenNames v0
  try clear_value v0
  with_reducible refine Evolves.ite ?_ ?_
  · with_reducible refine State.kvFinish_evolves _ _ ?_
    exact h
  · with_reducible refine State.kvFinish_evolves _ _ ?_
    with_reducible refine State.clearEntries_evolves _ _ ?_
    exact h

theorem kvTruncate_evolves {s₀ s} (a) (h : Evolves r s₀ s) : Evolves r s₀ (kvTruncate a s) := by
  unfold kvTruncate
  extract_lets -underBinder -merge -useContext +onlyGivenNames v0
  try clear_value v0
  split
  · with_reducible refine State.kvFinish_evolves _ _ ?_
    exact h
  · with_reducible refine Evolves.ite ?_ ?_
    · with_reducible refine State.kvFinish_evolves _ _ ?_
      exact h
    · extract_lets -underBinder -merge -useContext +onlyGivenNames v3
      try clear_value v3
      with_reducible refine State.kvFinish_evolves _ _ ?_
      with_reducible refine State.clearEntries_evolves _ _ ?_
      with_reducible refine State.setLen_evolves _ _ ?_
      exact h

theorem kvFreeCtx_evolves {s₀ s} (a) (h : Evolves r s₀ s) : Evolves r s₀ (kvFreeCtx a s) := by
  unfold kvFreeCtx
  extract_lets -underBinder -merge -useContext +onlyGivenNames v0
  try clear_value v0
  with_reducible refine Evolves.ite ?_ ?_
  · with_reducible refine State.kvFinish_evolves _ _ ?_
    exact h
  · extract_lets -underBinder -merge -useContext +onlyGivenNames v1
    have hv1 : Evolves r s₀ v1 := by
      with_reducible refine State.clearEntries_evolves _ _ ?_
      exact h
    try clear_value v1
    with_reducible refine State.kvFinish_evolves _ _ ?_
    with_reducible refine State.setCx_evolves _ _ _ _ ?_
    exact hv1

theorem kvSetLen_evolves {s₀ s} (a) (h : Evolves r s₀ s) : Evolves r s₀ (kvSetLen a s) := by
  unfold kvSetLen
  extract_lets -underBinder -merge -useContext +onlyGivenNames v0
  try clear_value v0
  split
  · with_reducible refine State.kvFinish_evolves _ _ ?_
    exact h
  · with_reducible refine Evolves.ite ?_ ?_
    · with_reducible refine State.kvFinish_evolves _ _ ?_
      exact h
    · with_reducible refine State.kvFinish_evolves _ _ ?_
      with_reducible refine State.setLen_evolves _ _ ?_
      exact h

theorem execSharePages_evolves {s₀ s t} (he : execSharePages s = .next t) (h : Evolves r s₀ s) : Evolves r s₀ t := by
  unfold execSharePages at he
  cases he
  with_reducible refine State.kvRun_evolves _ _ (fun y0 y1 hy1 => ?_) ?_
  · with_reducible refine kvShare_evolves _ ?_
    exact hy1
  · exact h

theorem execFreePages_evolves {s₀ s t} (he : execFreePages s = .next t) (h : Evolves r s₀ s) : Evolves r s₀ t := by
  unfold execFreePages at he
  cases he
  with_reducible refine State.kvRun_evolves _ _ (fun y0 y1 hy1 => ?_) ?_
  · with_reducible refine kvFree_evolves _ ?_
    exact hy1
  · exact h

theorem execTruncate_evolves {s₀ s t} (he : execTruncate s = .next t) (h : Evolves r s₀ s) : Evolves r s₀ t := by
  unfold execTruncate at he
  cases he
  with_reducible refine State.kvRun_evolves _ _ (fun y0 y1 hy1 => ?_) ?_
  · with_reducible refine kvTruncate_evolves _ ?_
    exact hy1
  · exact h

theorem execFreeCtx_evolves {s₀ s t} (he : execFreeCtx s = .next t) (h : Evolves r s₀ s) : Evolves r s₀ t := by
  unfold execFreeCtx at he
  cases he
  with_reducible refine State.kvRun_evolves _ _ (fun y0 y1 hy1 => ?_) ?_
  · with_reducible refine kvFreeCtx_evolves _ ?_
    exact hy1
  · exact h

theorem execSetLen_evolves {s₀ s t} (he : execSetLen s = .next t) (h : Evolves r s₀ s) : Evolves r s₀ t := by
  unfold execSetLen at he
  cases he
  with_reducible refine State.kvRun_evolves _ _ (fun y0 y1 hy1 => ?_) ?_
  · with_reducible refine kvSetLen_evolves _ ?_
    exact hy1
  · exact h

theorem State.evictPage_evolves {s₀ s} (a b c) (h : Evolves r s₀ s) : Evolves r s₀ (State.evictPage s a b c) := by
  unfold State.evictPage
  extract_lets -underBinder -merge -useContext +onlyGivenNames v0
  have hv0 : Evolves r s₀ v0 := by
    with_reducible refine Evolves.foldl (fun a1 x2 ha1 => ?_) ?_
    · extract_lets -underBinder -merge -useContext +onlyGivenNames v3
      try clear_value v3
      extract_lets -underBinder -merge -useContext +onlyGivenNames v4
      have hv4 : Evolves r s₀ v4 := by
        with_reducible refine State.setEntry_evolves _ _ _ _ ?_
        exact ha1
      try clear_value v4
      with_reducible refine Evolves.ite ?_ ?_
      · with_reducible refine State.dropRef_evolves _ _ ?_
        exact hv4
      · exact hv4
    · exact h
  try clear_value v0
  with_reducible refine State.bump_evolves _ _ _ ?_
  with_reducible refine State.adjEvicted_evolves _ _ _ ?_
  exact hv0

theorem evictVisit_evolves {s₀ s} (a) (h : Evolves r s₀ s) : Evolves r s₀ (evictVisit a s) := by
  unfold evictVisit
  extract_lets -underBinder -merge -useContext +onlyGivenNames v0
  try clear_value v0
  extract_lets -underBinder -merge -useContext +onlyGivenNames v1
  try clear_value v1
  extract_lets -underBinder -merge -useContext +onlyGivenNames v2
  try clear_value v2
  with_reducible refine Evolves.ite ?_ ?_
  · exact h
  · with_reducible refine Evolves.ite ?_ ?_
    · with_reducible refine State.setPool_evolves _ _ ?_
      exact h
    · with_reducible refine Evolves.ite ?_ ?_
      · exact h
      · with_reducible refine Evolves.ite ?_ ?_
        · with_reducible refine State.setPool_evolves _ _ ?_
          exact h
        · extract_lets -underBinder -merge -useContext +onlyGivenNames v3
          try clear_value v3
          with_reducible refine Evolves.ite ?_ ?_
          · with_reducible refine State.notice_evolves _ _ _ ?_
            with_reducible refine State.setPool_evolves _ _ ?_
            exact h
          · extract_lets -underBinder -merge -useContext +onlyGivenNames v4
            try clear_value v4
            split
            · extract_lets -underBinder -merge -useContext +onlyGivenNames v6
              have hv6 : Evolves r s₀ v6 := by
                with_reducible refine State.evictPage_evolves _ _ _ ?_
                exact h
              try clear_value v6
              with_reducible refine State.setPool_evolves _ _ ?_
              exact hv6
            · with_reducible refine State.setPool_evolves _ _ ?_
              exact h

theorem execEviction_evolves {s₀ s t} (a) (he : execEviction a s = .next t) (h : Evolves r s₀ s) : Evolves r s₀ t := by
  unfold execEviction at he
  cases he
  with_reducible refine Evolves.ite ?_ ?_
  · with_reducible refine evictVisit_evolves _ ?_
    exact h
  · exact h

end Sys2Proof.Machine
end

