-- ==== Sys2Proof/Laws/EvolvesIngest.lean ====
section
/-! SUPPORT. Laws/EvolvesIngest.lean: every operation of ingest evolves the state (Laws/Evolves.lean); one lemma for each. -/
namespace Sys2Proof.Machine

set_option Elab.async false
set_option linter.all false

variable {r : Bool}

theorem State.setStr_evolves {s₀ s} (a b) (h : Evolves r s₀ s) : Evolves r s₀ (State.setStr s a b) := by
  unfold State.setStr
  with_reducible refine Evolves.upd_parts ?_ rfl rfl rfl rfl rfl rfl rfl rfl rfl rfl rfl ?_
  · exact fun hp => { hp with
      streams := by first | exact keysRise_sset hp.streams | exact keysRise_filter _ hp.streams | exact keysRise_sput (Nat.zero_le _) hp.streams | exact keysRise_sdel hp.streams | exact keysRise_map_snd hp.streams | exact keysRise_map_if hp.streams | rfl
    }
  exact h

theorem State.modStr_evolves {s₀ s} (a b) (h : Evolves r s₀ s) : Evolves r s₀ (State.modStr s a b) := by
  unfold State.modStr
  with_reducible refine State.setStr_evolves _ _ ?_
  exact h

theorem strCtlWrite_evolves {s₀ s} (a b) (h : Evolves r s₀ s) : Evolves r s₀ (strCtlWrite a b s) := by
  unfold strCtlWrite
  extract_lets -underBinder -merge -useContext +onlyGivenNames v0
  try clear_value v0
  extract_lets -underBinder -merge -useContext +onlyGivenNames v1
  have hv1 : Evolves r s₀ v1 := by
    with_reducible refine State.setReg_evolves _ _ _ ?_
    exact h
  try clear_value v1
  with_reducible refine Evolves.ite ?_ ?_
  · with_reducible refine State.setFld_evolves _ _ _ _ _ ?_
    exact hv1
  · with_reducible refine Evolves.ite ?_ ?_
    · with_reducible refine State.raise_evolves _ _ _ _ _ _ ?_
      with_reducible refine State.setReg_evolves _ _ _ ?_
      exact hv1
    · exact hv1

theorem execStreamEnable_evolves {s₀ s t} (a b c) (he : execStreamEnable a b c s = .next t) (h : Evolves r s₀ s) : Evolves r s₀ t := by
  unfold execStreamEnable at he
  cases he
  with_reducible refine Evolves.ite ?_ ?_
  · with_reducible refine State.onWrite_evolves _ _ _ _ (fun y0 hy0 => ?_) ?_
    · with_reducible refine strCtlWrite_evolves _ _ ?_
      exact hy0
    · exact h
  · exact h

theorem strTailWrite_evolves {s₀ s} (a b) (h : Evolves r s₀ s) : Evolves r s₀ (strTailWrite a b s) := by
  unfold strTailWrite
  extract_lets -underBinder -merge -useContext +onlyGivenNames v0
  try clear_value v0
  extract_lets -underBinder -merge -useContext +onlyGivenNames v1
  try clear_value v1
  extract_lets -underBinder -merge -useContext +onlyGivenNames v2
  try clear_value v2
  with_reducible refine Evolves.ite ?_ ?_
  · with_reducible refine State.raise_evolves _ _ _ _ _ _ ?_
    exact h
  · with_reducible refine State.modStr_evolves _ _ ?_
    with_reducible refine State.setReg_evolves _ _ _ ?_
    exact h

theorem execIngStrTailWrite_evolves {s₀ s t} (a b c) (he : execIngStrTailWrite a b c s = .next t) (h : Evolves r s₀ s) : Evolves r s₀ t := by
  unfold execIngStrTailWrite at he
  cases he
  with_reducible refine Evolves.ite ?_ ?_
  · with_reducible refine State.onWrite_evolves _ _ _ _ (fun y0 hy0 => ?_) ?_
    · with_reducible refine strTailWrite_evolves _ _ ?_
      exact hy0
    · exact h
  · exact h

theorem strCursorWrite_evolves {s₀ s} (a b) (h : Evolves r s₀ s) : Evolves r s₀ (strCursorWrite a b s) := by
  unfold strCursorWrite
  with_reducible refine Evolves.ite ?_ ?_
  · with_reducible refine State.setReg_evolves _ _ _ ?_
    with_reducible refine State.setReg_evolves _ _ _ ?_
    exact h
  · exact h

theorem execCursorWrite_evolves {s₀ s t} (a b c) (he : execCursorWrite a b c s = .next t) (h : Evolves r s₀ s) : Evolves r s₀ t := by
  unfold execCursorWrite at he
  cases he
  with_reducible refine Evolves.ite ?_ ?_
  · with_reducible refine State.onWrite_evolves _ _ _ _ (fun y0 hy0 => ?_) ?_
    · with_reducible refine strCursorWrite_evolves _ _ ?_
      exact hy0
    · exact h
  · exact h

theorem strReqTailWrite_evolves {s₀ s} (a b) (h : Evolves r s₀ s) : Evolves r s₀ (strReqTailWrite a b s) := by
  unfold strReqTailWrite
  extract_lets -underBinder -merge -useContext +onlyGivenNames v0
  try clear_value v0
  with_reducible refine Evolves.ite ?_ ?_
  · with_reducible refine State.setReg_evolves _ _ _ ?_
    exact h
  · exact h

theorem execIngStrReqTailWrite_evolves {s₀ s t} (a b c) (he : execIngStrReqTailWrite a b c s = .next t) (h : Evolves r s₀ s) : Evolves r s₀ t := by
  unfold execIngStrReqTailWrite at he
  cases he
  with_reducible refine Evolves.ite ?_ ?_
  · with_reducible refine State.onWrite_evolves _ _ _ _ (fun y0 hy0 => ?_) ?_
    · with_reducible refine strReqTailWrite_evolves _ _ ?_
      exact hy0
    · exact h
  · exact h

theorem ledgerLatch_evolves {s₀ s} (a) (h : Evolves r s₀ s) : Evolves r s₀ (ledgerLatch a s) := by
  unfold ledgerLatch
  extract_lets -underBinder -merge -useContext +onlyGivenNames v0
  try clear_value v0
  extract_lets -underBinder -merge -useContext +onlyGivenNames v1
  have hv1 : Evolves r s₀ v1 := by
    with_reducible refine Evolves.foldl (fun a2 x3 ha2 => ?_) ?_
    · with_reducible refine State.setReg_evolves _ _ _ ?_
      with_reducible refine State.setReg_evolves _ _ _ ?_
      exact ha2
    · exact h
  try clear_value v1
  with_reducible refine State.reply_evolves _ ?_
  exact hv1

theorem execLedgerLatchRead_evolves {s₀ s t} (a b) (he : execLedgerLatchRead a b s = .next t) (h : Evolves r s₀ s) : Evolves r s₀ t := by
  unfold execLedgerLatchRead at he
  cases he
  with_reducible refine Evolves.ite ?_ ?_
  · with_reducible refine State.onRead_evolves _ _ _ _ (fun y0 hy0 => ?_) ?_
    · with_reducible refine ledgerLatch_evolves _ ?_
      exact hy0
    · exact h
  · exact h

theorem State.modSample_evolves {s₀ s} (a b c) (h : Evolves r s₀ s) : Evolves r s₀ (State.modSample s a b c) := by
  unfold State.modSample
  with_reducible refine State.modStr_evolves _ _ ?_
  exact h

theorem State.raiseSample_evolves {s₀ s} (a b c) (h : Evolves r s₀ s) : Evolves r s₀ (State.raiseSample s a b c) := by
  unfold State.raiseSample
  with_reducible refine State.raise_evolves _ _ _ _ _ _ ?_
  exact h

theorem State.requestCore_evolves {s₀ s} (a b c d) (h : Evolves r s₀ s) : Evolves r s₀ (State.requestCore s a b c d) := by
  unfold State.requestCore
  extract_lets -underBinder -merge -useContext +onlyGivenNames v0
  try clear_value v0
  extract_lets -underBinder -merge -useContext +onlyGivenNames v1
  try clear_value v1
  extract_lets -underBinder -merge -useContext +onlyGivenNames v2
  try clear_value v2
  with_reducible refine State.crsRequest_evolves _ _ ?_
  exact h

theorem State.startParts_evolves {s₀ s} (a b c) (h : Evolves r s₀ s) : Evolves r s₀ (State.startParts s a b c) := by
  unfold State.startParts
  with_reducible refine Evolves.foldl (fun a0 x1 ha0 => ?_) ?_
  · with_reducible refine Evolves.ite ?_ ?_
    · with_reducible refine Evolves.upd_mk rfl rfl rfl rfl rfl rfl rfl rfl rfl rfl rfl rfl rfl rfl rfl rfl rfl rfl rfl rfl rfl rfl rfl rfl rfl rfl rfl rfl ?_
      exact ha0
    · split
      · with_reducible refine State.requestCore_evolves _ _ _ _ ?_
        exact ha0
      · exact ha0
  · exact h

theorem State.releaseCheck_evolves {s₀ s} (a b) (h : Evolves r s₀ s) : Evolves r s₀ (State.releaseCheck s a b) := by
  unfold State.releaseCheck
  extract_lets -underBinder -merge -useContext +onlyGivenNames v0
  try clear_value v0
  extract_lets -underBinder -merge -useContext +onlyGivenNames v1
  try clear_value v1
  extract_lets -underBinder -merge -useContext +onlyGivenNames v2
  have hv2 : Evolves r s₀ v2 := by
    with_reducible refine Evolves.foldl (fun a3 x4 ha3 => ?_) ?_
    · with_reducible refine State.endGrant_evolves _ _ ?_
      with_reducible refine State.bump_evolves _ _ _ ?_
      exact ha3
    · exact h
  try clear_value v2
  with_reducible refine State.setCrs_evolves _ _ ?_
  exact hv2

theorem State.leave_evolves {s₀ s} (a b c) (h : Evolves r s₀ s) : Evolves r s₀ (State.leave s a b c) := by
  unfold State.leave
  with_reducible refine Evolves.ite ?_ ?_
  · with_reducible refine State.modStr_evolves _ _ ?_
    exact h
  · exact h

theorem State.settle_evolves {s₀ s} (a b) (h : Evolves r s₀ s) : Evolves r s₀ (State.settle s a b) := by
  unfold State.settle
  split
  · exact h
  · with_reducible refine Evolves.ite ?_ ?_
    · exact h
    · extract_lets -underBinder -merge -useContext +onlyGivenNames v2
      have hv2 : Evolves r s₀ v2 := by
        with_reducible refine State.releaseCheck_evolves _ _ ?_
        exact h
      try clear_value v2
      with_reducible refine Evolves.ite ?_ ?_
      · with_reducible refine State.modSample_evolves _ _ _ ?_
        with_reducible refine State.leave_evolves _ _ _ ?_
        exact hv2
      · exact hv2

theorem State.beginSample_evolves {s₀ s} (a b c) (h : Evolves r s₀ s) : Evolves r s₀ (State.beginSample s a b c) := by
  unfold State.beginSample
  split
  · rename_i w0 w1 w2 e3
    have hw0 : Evolves r s₀ w0 := Evolves.of_pair e3 (by
      with_reducible refine State.devRead_evolves _ _ _ _ ?_
      exact h)
    extract_lets -underBinder -merge -useContext +onlyGivenNames v4
    try clear_value v4
    extract_lets -underBinder -merge -useContext +onlyGivenNames v5
    try clear_value v5
    extract_lets -underBinder -merge -useContext +onlyGivenNames v6
    have hv6 : ∀ z7 z8, Evolves r s₀ z7 → Evolves r s₀ (v6 z7 z8) := by
      intro z7 z8 hz7
      dsimp only [v6]
      with_reducible refine State.modSample_evolves _ _ _ ?_
      exact hz7
    clear_value v6
    with_reducible refine Evolves.ite ?_ ?_
    · with_reducible refine hv6 _ _ ?_
      exact hw0
    · extract_lets -underBinder -merge -useContext +onlyGivenNames v9
      try clear_value v9
      extract_lets -underBinder -merge -useContext +onlyGivenNames v10
      have hv10 : Evolves r s₀ v10 := by
        with_reducible refine Evolves.foldl (fun a11 x12 ha11 => ?_) ?_
        · with_reducible refine State.raise_evolves _ _ _ _ _ _ ?_
          exact ha11
        · exact hw0
      try clear_value v10
      extract_lets -underBinder -merge -useContext +onlyGivenNames v13
      have hv13 : Evolves r s₀ v13 := by
        with_reducible refine State.bump_evolves _ _ _ ?_
        exact hv10
      try clear_value v13
      extract_lets -underBinder -merge -useContext +onlyGivenNames v14
      try clear_value v14
      extract_lets -underBinder -merge -useContext +onlyGivenNames v15
      have hv15 : Evolves r s₀ v15 := by
        with_reducible refine hv6 _ _ ?_
        exact hv13
      try clear_value v15
      with_reducible refine Evolves.ite ?_ ?_
      · exact hv15
      · extract_lets -underBinder -merge -useContext +onlyGivenNames v16
        try clear_value v16
        extract_lets -underBinder -merge -useContext +onlyGivenNames v17
        have hv17 : Evolves r s₀ v17 := by
          with_reducible refine Evolves.ite ?_ ?_
          · with_reducible refine State.crsPlain_evolves _ _ _ _ ?_
            exact hv15
          · exact hv15
        try clear_value v17
        extract_lets -underBinder -merge -useContext +onlyGivenNames v18
        have hv18 : Evolves r s₀ v18 := by
          with_reducible refine State.startParts_evolves _ _ _ ?_
          exact hv17
        try clear_value v18
        with_reducible refine Evolves.ite ?_ ?_
        · exact hv18
        · with_reducible refine State.settle_evolves _ _ ?_
          exact hv18

theorem State.ringFault_evolves {s₀ s} (a) (h : Evolves r s₀ s) : Evolves r s₀ (State.ringFault s a) := by
  unfold State.ringFault
  with_reducible refine State.raise_evolves _ _ _ _ _ _ ?_
  with_reducible refine State.orReg_evolves _ _ _ ?_
  exact h

theorem State.takeAt_evolves {s₀ s} (a b) (h : Evolves r s₀ s) : Evolves r s₀ (State.takeAt s a b) := by
  unfold State.takeAt
  split
  · exact h
  · with_reducible refine Evolves.ite ?_ ?_
    · exact h
    · extract_lets -underBinder -merge -useContext +onlyGivenNames v2
      try clear_value v2
      extract_lets -underBinder -merge -useContext +onlyGivenNames v3
      try clear_value v3
      with_reducible refine Evolves.ite ?_ ?_
      · with_reducible refine State.ringFault_evolves _ ?_
        exact h
      · split
        · rename_i w4 w5 w6 e7
          have hw4 : Evolves r s₀ w4 := Evolves.of_pair e7 (by
            with_reducible refine State.devRead_evolves _ _ _ _ ?_
            exact h)
          extract_lets -underBinder -merge -useContext +onlyGivenNames v8
          try clear_value v8
          extract_lets -underBinder -merge -useContext +onlyGivenNames v9
          try clear_value v9
          extract_lets -underBinder -merge -useContext +onlyGivenNames v10
          try clear_value v10
          extract_lets -underBinder -merge -useContext +onlyGivenNames v11
          try clear_value v11
          extract_lets -underBinder -merge -useContext +onlyGivenNames v12
          have hv12 : ∀ z13, Evolves r s₀ z13 → Evolves r s₀ (v12 z13) := by
            intro z13 hz13
            dsimp only [v12]
            with_reducible refine State.setReg_evolves _ _ _ ?_
            exact hz13
          clear_value v12
          with_reducible refine Evolves.ite ?_ ?_
          · with_reducible refine State.ringFault_evolves _ ?_
            exact hw4
          · with_reducible refine Evolves.ite ?_ ?_
            · with_reducible refine State.takeAt_evolves _ _ ?_
              with_reducible refine hv12 _ ?_
              exact hw4
            · extract_lets -underBinder -merge -useContext +onlyGivenNames v14
              try clear_value v14
              extract_lets -underBinder -merge -useContext +onlyGivenNames v15
              try clear_value v15
              extract_lets -underBinder -merge -useContext +onlyGivenNames v16
              have hv16 : Evolves r s₀ v16 := by
                with_reducible refine State.setStr_evolves _ _ ?_
                with_reducible refine hv12 _ ?_
                exact hw4
              try clear_value v16
              with_reducible refine State.beginSample_evolves _ _ _ ?_
              exact hv16

theorem execTakeSample_evolves {s₀ s t} (a) (he : execTakeSample a s = .next t) (h : Evolves r s₀ s) : Evolves r s₀ t := by
  unfold execTakeSample at he
  cases he
  with_reducible refine Evolves.ite ?_ ?_
  · with_reducible refine State.takeAt_evolves _ _ ?_
    exact h
  · exact h

theorem execRingDry_evolves {s₀ s t} (a) (he : execRingDry a s = .next t) (h : Evolves r s₀ s) : Evolves r s₀ t := by
  unfold execRingDry at he
  cases he
  extract_lets -underBinder -merge -useContext +onlyGivenNames v0
  extract_lets -underBinder -merge -useContext +onlyGivenNames v1
  try clear_value v1
  with_reducible refine Evolves.ite ?_ ?_
  · with_reducible refine State.modStr_evolves _ _ ?_
    with_reducible refine State.notice_evolves _ _ _ ?_
    exact h
  · exact h

theorem State.placeOne_evolves {s₀ s} (a b c) (h : Evolves r s₀ s) : Evolves r s₀ (State.placeOne s a b c) := by
  unfold State.placeOne
  split
  · exact h
  · extract_lets -underBinder -merge -useContext +onlyGivenNames v2
    try clear_value v2
    with_reducible refine Evolves.ite ?_ ?_
    · exact h
    · split
      · exact h
      · with_reducible refine State.modSample_evolves _ _ _ ?_
        with_reducible refine State.modStr_evolves _ _ ?_
        exact h

theorem State.ingStore_evolves {s₀ s} (a b c) (h : Evolves r s₀ s) : Evolves r s₀ (State.ingStore s a b c) := by
  unfold State.ingStore
  split
  · with_reducible refine State.blockStore_evolves _ _ _ _ _ ?_
    exact h
  · with_reducible refine State.blockStore_evolves _ _ _ _ _ ?_
    exact h
  · with_reducible refine State.blockStore_evolves _ _ _ _ _ ?_
    exact h
  · exact h

theorem State.writeArrays_evolves {s₀ s} (a b c) (h : Evolves r s₀ s) : Evolves r s₀ (State.writeArrays s a b c) := by
  unfold State.writeArrays
  extract_lets -underBinder -merge -useContext +onlyGivenNames v0
  try clear_value v0
  extract_lets -underBinder -merge -useContext +onlyGivenNames v1
  try clear_value v1
  extract_lets -underBinder -merge -useContext +onlyGivenNames v2
  have hv2 : ∀ z3 z4 z5 z6, Evolves r s₀ z3 → Evolves r s₀ (v2 z3 z4 z5 z6) := by
    intro z3 z4 z5 z6 hz3
    dsimp only [v2]
    with_reducible refine State.ingStore_evolves _ _ _ ?_
    exact hz3
  clear_value v2
  with_reducible refine hv2 _ _ _ _ ?_
  with_reducible refine hv2 _ _ _ _ ?_
  with_reducible refine hv2 _ _ _ _ ?_
  with_reducible refine hv2 _ _ _ _ ?_
  with_reducible refine hv2 _ _ _ _ ?_
  exact h

theorem State.writeMediaRow_evolves {s₀ s} (a b c d e f) (h : Evolves r s₀ s) : Evolves r s₀ (State.writeMediaRow s a b c d e f) := by
  unfold State.writeMediaRow
  extract_lets -underBinder -merge -useContext +onlyGivenNames v0
  try clear_value v0
  with_reducible refine State.ingStore_evolves _ _ _ ?_
  exact h

theorem State.writePartRows_evolves {s₀ s} (a b c d) (h : Evolves r s₀ s) : Evolves r s₀ (State.writePartRows s a b c d) := by
  unfold State.writePartRows
  with_reducible refine Evolves.foldl (fun a0 x1 ha0 => ?_) ?_
  · split
    · with_reducible refine State.writeMediaRow_evolves _ _ _ _ _ _ ?_
      exact ha0
    · exact ha0
  · exact h

theorem State.closeReq_evolves {s₀ s} (a) (h : Evolves r s₀ s) : Evolves r s₀ (State.closeReq s a) := by
  unfold State.closeReq
  split
  · exact h
  · extract_lets -underBinder -merge -useContext +onlyGivenNames v2
    try clear_value v2
    extract_lets -underBinder -merge -useContext +onlyGivenNames v3
    have hv3 : Evolves r s₀ v3 := by
      with_reducible refine State.modStr_evolves _ _ ?_
      exact h
    try clear_value v3
    split
    · exact hv3
    · extract_lets -underBinder -merge -useContext +onlyGivenNames v6
      have hv6 : Evolves r s₀ v6 := by
        with_reducible refine State.writeArrays_evolves _ _ _ ?_
        exact hv3
      try clear_value v6
      extract_lets -underBinder -merge -useContext +onlyGivenNames v7
      have hv7 : Evolves r s₀ v7 := by
        with_reducible refine Evolves.foldl (fun a8 x9 ha8 => ?_) ?_
        · with_reducible refine Evolves.foldl (fun a10 x11 ha10 => ?_) ?_
          · with_reducible refine State.writeMediaRow_evolves _ _ _ _ _ _ ?_
            exact ha10
          · exact ha8
        · exact hv6
      try clear_value v7
      with_reducible refine Evolves.foldl (fun a12 x13 ha12 => ?_) ?_
      · with_reducible refine State.writePartRows_evolves _ _ _ _ ?_
        exact ha12
      · exact hv7

theorem State.fillReq_evolves {s₀ s} (a) (h : Evolves r s₀ s) : Evolves r s₀ (State.fillReq s a) := by
  unfold State.fillReq
  split
  · exact h
  · with_reducible refine Evolves.ite ?_ ?_
    · exact h
    · split
      · exact h
      · extract_lets -underBinder -merge -useContext +onlyGivenNames v4
        try clear_value v4
        extract_lets -underBinder -merge -useContext +onlyGivenNames v5
        have hv5 : Evolves r s₀ v5 := by
          with_reducible refine Evolves.foldl (fun a6 x7 ha6 => ?_) ?_
          · with_reducible refine State.placeOne_evolves _ _ _ ?_
            exact ha6
          · exact h
        try clear_value v5
        split
        · exact hv5
        · extract_lets -underBinder -merge -useContext +onlyGivenNames v10
          try clear_value v10
          with_reducible refine Evolves.ite ?_ ?_
          · with_reducible refine State.closeReq_evolves _ ?_
            exact hv5
          · with_reducible refine Evolves.ite ?_ ?_
            · with_reducible refine Evolves.ite ?_ ?_
              · with_reducible refine State.closeReq_evolves _ ?_
                exact hv5
              · with_reducible refine State.modStr_evolves _ _ ?_
                exact hv5
            · with_reducible refine State.modStr_evolves _ _ ?_
              exact hv5

theorem State.reqSignals_evolves {s₀ s} (a b c) (h : Evolves r s₀ s) : Evolves r s₀ (State.reqSignals s a b c) := by
  unfold State.reqSignals
  extract_lets -underBinder -merge -useContext +onlyGivenNames v0
  have hv0 : Evolves r s₀ v0 := by
    with_reducible refine Evolves.ite ?_ ?_
    · with_reducible refine State.blockSignal_evolves _ _ _ _ _ ?_
      exact h
    · exact h
  try clear_value v0
  with_reducible refine Evolves.ite ?_ ?_
  · with_reducible refine State.notice_evolves _ _ _ ?_
    exact hv0
  · exact hv0

theorem State.passReq_evolves {s₀ s} (a b) (h : Evolves r s₀ s) : Evolves r s₀ (State.passReq s a b) := by
  unfold State.passReq
  split
  · exact h
  · extract_lets -underBinder -merge -useContext +onlyGivenNames v2
    try clear_value v2
    with_reducible refine Evolves.ite ?_ ?_
    · with_reducible refine State.passReq_evolves _ _ ?_
      with_reducible refine State.modStr_evolves _ _ ?_
      with_reducible refine State.setReg_evolves _ _ _ ?_
      exact h
    · exact h

theorem State.reqDone_evolves {s₀ s} (a) (h : Evolves r s₀ s) : Evolves r s₀ (State.reqDone s a) := by
  unfold State.reqDone
  extract_lets -underBinder -merge -useContext +onlyGivenNames v0
  try clear_value v0
  with_reducible refine State.passReq_evolves _ _ ?_
  with_reducible refine State.modStr_evolves _ _ ?_
  exact h

theorem State.takeRequest_evolves {s₀ s} (a b) (h : Evolves r s₀ s) : Evolves r s₀ (State.takeRequest s a b) := by
  unfold State.takeRequest
  extract_lets -underBinder -merge -useContext +onlyGivenNames v0
  try clear_value v0
  extract_lets -underBinder -merge -useContext +onlyGivenNames v1
  try clear_value v1
  extract_lets -underBinder -merge -useContext +onlyGivenNames v2
  try clear_value v2
  extract_lets -underBinder -merge -useContext +onlyGivenNames v3
  have hv3 : Evolves r s₀ v3 := by
    with_reducible refine Evolves.ite ?_ ?_
    · exact h
    · with_reducible refine State.setStr_evolves _ _ ?_
      exact h
  try clear_value v3
  split
  · with_reducible refine State.reqDone_evolves _ ?_
    with_reducible refine State.reqSignals_evolves _ _ _ ?_
    with_reducible refine State.notice_evolves _ _ _ ?_
    exact hv3
  · extract_lets -underBinder -merge -useContext +onlyGivenNames v6
    try clear_value v6
    with_reducible refine State.fillReq_evolves _ ?_
    with_reducible refine State.modStr_evolves _ _ ?_
    exact hv3

theorem execBatchRequest_evolves {s₀ s t} (a) (he : execBatchRequest a s = .next t) (h : Evolves r s₀ s) : Evolves r s₀ t := by
  unfold execBatchRequest at he
  cases he
  extract_lets -underBinder -merge -useContext +onlyGivenNames v0
  try clear_value v0
  with_reducible refine Evolves.ite ?_ ?_
  · exact h
  · with_reducible refine Evolves.ite ?_ ?_
    · with_reducible refine State.fillReq_evolves _ ?_
      exact h
    · extract_lets -underBinder -merge -useContext +onlyGivenNames v1
      try clear_value v1
      with_reducible refine Evolves.ite ?_ ?_
      · exact h
      · with_reducible refine State.takeRequest_evolves _ _ ?_
        exact h

theorem execFillWaitExpire_evolves {s₀ s t} (a) (he : execFillWaitExpire a s = .next t) (h : Evolves r s₀ s) : Evolves r s₀ t := by
  unfold execFillWaitExpire at he
  cases he
  extract_lets -underBinder -merge -useContext +onlyGivenNames v0
  try clear_value v0
  split
  · with_reducible refine Evolves.ite ?_ ?_
    · with_reducible refine State.notice_evolves _ _ _ ?_
      with_reducible refine State.closeReq_evolves _ ?_
      exact h
    · exact h
  · exact h

theorem execRequestComplete_evolves {s₀ s t} (a) (he : execRequestComplete a s = .next t) (h : Evolves r s₀ s) : Evolves r s₀ t := by
  unfold execRequestComplete at he
  cases he
  split
  · exact h
  · with_reducible refine Evolves.ite ?_ ?_
    · exact h
    · with_reducible refine State.reqDone_evolves _ ?_
      with_reducible refine State.reqSignals_evolves _ _ _ ?_
      with_reducible refine State.bump_evolves _ _ _ ?_
      exact h

theorem State.dropSample_evolves {s₀ s} (a b) (h : Evolves r s₀ s) : Evolves r s₀ (State.dropSample s a b) := by
  unfold State.dropSample
  extract_lets -underBinder -merge -useContext +onlyGivenNames v0
  have hv0 : Evolves r s₀ v0 := by
    with_reducible refine State.releaseCheck_evolves _ _ ?_
    exact h
  try clear_value v0
  extract_lets -underBinder -merge -useContext +onlyGivenNames v1
  have hv1 : Evolves r s₀ v1 := by
    with_reducible refine Evolves.foldl (fun a2 x3 ha2 => ?_) ?_
    · with_reducible refine State.crsWithdraw_evolves _ ?_
      exact ha2
    · exact hv0
  try clear_value v1
  extract_lets -underBinder -merge -useContext +onlyGivenNames v4
  have hv4 : Evolves r s₀ v4 := by
    with_reducible refine Evolves.upd_mk rfl rfl rfl rfl rfl rfl rfl rfl rfl rfl rfl rfl rfl rfl rfl rfl rfl rfl rfl rfl rfl rfl rfl rfl rfl rfl rfl rfl ?_
    exact hv1
  try clear_value v4
  with_reducible refine State.modStr_evolves _ _ ?_
  exact hv4

theorem State.assignBucket_evolves {s₀ s} (a b) (h : Evolves r s₀ s) : Evolves r s₀ (State.assignBucket s a b) := by
  unfold State.assignBucket
  extract_lets -underBinder -merge -useContext +onlyGivenNames v0
  try clear_value v0
  split
  · with_reducible refine State.fillReq_evolves _ ?_
    with_reducible refine State.modSample_evolves _ _ _ ?_
    exact h
  · extract_lets -underBinder -merge -useContext +onlyGivenNames v3
    have hv3 : Evolves r s₀ v3 := by
      with_reducible refine State.raiseSample_evolves _ _ _ ?_
      with_reducible refine State.bump_evolves _ _ _ ?_
      exact h
    try clear_value v3
    split
    · with_reducible refine State.fillReq_evolves _ ?_
      with_reducible refine State.modSample_evolves _ _ _ ?_
      with_reducible refine State.bump_evolves _ _ _ ?_
      exact hv3
    · with_reducible refine State.fillReq_evolves _ ?_
      with_reducible refine State.dropSample_evolves _ _ ?_
      with_reducible refine State.leave_evolves _ _ _ ?_
      exact hv3

theorem execBucketAssign_evolves {s₀ s t} (a b) (he : execBucketAssign a b s = .next t) (h : Evolves r s₀ s) : Evolves r s₀ t := by
  unfold execBucketAssign at he
  cases he
  extract_lets -underBinder -merge -useContext +onlyGivenNames v0
  try clear_value v0
  split
  · exact h
  · with_reducible refine Evolves.ite ?_ ?_
    · exact h
    · with_reducible refine State.assignBucket_evolves _ _ ?_
      exact h

theorem State.deliverRows_evolves {s₀ s} (a b) (h : Evolves r s₀ s) : Evolves r s₀ (State.deliverRows s a b) := by
  unfold State.deliverRows
  split
  · with_reducible refine Evolves.ite ?_ ?_
    · split
      · with_reducible refine State.writePartRows_evolves _ _ _ _ ?_
        exact h
      · exact h
    · exact h
  · exact h

theorem State.modPart_evolves {s₀ s} (a b c d) (h : Evolves r s₀ s) : Evolves r s₀ (State.modPart s a b c d) := by
  unfold State.modPart
  with_reducible refine State.modSample_evolves _ _ _ ?_
  exact h

theorem State.decodeStore_evolves {s₀ s} (a b c d e f) (h : Evolves r s₀ s) : Evolves r s₀ (State.decodeStore s a b c d e f) := by
  unfold State.decodeStore
  extract_lets -underBinder -merge -useContext +onlyGivenNames v0
  have hv0 : Evolves r s₀ v0 := by
    with_reducible refine State.endGrant_evolves _ _ ?_
    exact h
  try clear_value v0
  split
  · exact hv0
  · split
    · split
      · with_reducible refine State.modSample_evolves _ _ _ ?_
        with_reducible refine Evolves.ite ?_ ?_
        · with_reducible refine State.bump_evolves _ _ _ ?_
          exact hv0
        · exact hv0
      · extract_lets -underBinder -merge -useContext +onlyGivenNames v6
        have hv6 : Evolves r s₀ v6 := by
          with_reducible refine State.modPart_evolves _ _ _ _ ?_
          with_reducible refine State.bump_evolves _ _ _ ?_
          exact hv0
        try clear_value v6
        with_reducible refine State.settle_evolves _ _ ?_
        with_reducible refine State.deliverRows_evolves _ _ ?_
        exact hv6
    · exact hv0

theorem execDecodeDone_evolves {s₀ s t} (a b c) (he : execDecodeDone a b c s = .next t) (h : Evolves r s₀ s) : Evolves r s₀ t := by
  unfold execDecodeDone at he
  cases he
  with_reducible refine Evolves.ite ?_ ?_
  · exact h
  · split
    · exact h
    · with_reducible refine State.decodeStore_evolves _ _ _ _ _ _ ?_
      exact h

theorem execDecodeTimeout_evolves {s₀ s t} (a b) (he : execDecodeTimeout a b s = .next t) (h : Evolves r s₀ s) : Evolves r s₀ t := by
  unfold execDecodeTimeout at he
  cases he
  with_reducible refine Evolves.ite ?_ ?_
  · exact h
  · split
    · exact h
    · extract_lets -underBinder -merge -useContext +onlyGivenNames v5
      try clear_value v5
      with_reducible refine Evolves.ite ?_ ?_
      · exact h
      · extract_lets -underBinder -merge -useContext +onlyGivenNames v6
        have hv6 : Evolves r s₀ v6 := by
          with_reducible refine State.raise_evolves _ _ _ _ _ _ ?_
          with_reducible refine State.bump_evolves _ _ _ ?_
          with_reducible refine State.endGrant_evolves _ _ ?_
          exact h
        try clear_value v6
        with_reducible refine State.modSample_evolves _ _ _ ?_
        exact hv6

theorem State.bandSignal_evolves {s₀ s} (a) (h : Evolves r s₀ s) : Evolves r s₀ (State.bandSignal s a) := by
  unfold State.bandSignal
  extract_lets -underBinder -merge -useContext +onlyGivenNames v0
  try clear_value v0
  with_reducible refine Evolves.ite ?_ ?_
  · with_reducible refine State.blockSignal_evolves _ _ _ _ _ ?_
    exact h
  · exact h

theorem State.writeBand_evolves {s₀ s} (a b c d e f g i j k) (h : Evolves r s₀ s) : Evolves r s₀ (State.writeBand s a b c d e f g i j k) := by
  unfold State.writeBand
  extract_lets -underBinder -merge -useContext +onlyGivenNames v0
  try clear_value v0
  extract_lets -underBinder -merge -useContext +onlyGivenNames v1
  have hv1 : Evolves r s₀ v1 := by
    with_reducible refine State.modPart_evolves _ _ _ _ ?_
    exact h
  try clear_value v1
  extract_lets -underBinder -merge -useContext +onlyGivenNames v2
  have hv2 : Evolves r s₀ v2 := by
    with_reducible refine Evolves.elim ?_ (fun _ => ?_)
    · exact hv1
    · with_reducible refine State.writePartRows_evolves _ _ _ _ ?_
      exact hv1
  try clear_value v2
  with_reducible refine Evolves.foldl (fun a3 x4 ha3 => ?_) ?_
  · with_reducible refine State.bandSignal_evolves _ ?_
    exact ha3
  · exact hv2

theorem execBandWrite_evolves {s₀ s t} (a b c d) (he : execBandWrite a b c d s = .next t) (h : Evolves r s₀ s) : Evolves r s₀ t := by
  unfold execBandWrite at he
  cases he
  extract_lets -underBinder -merge -useContext +onlyGivenNames v0
  try clear_value v0
  split
  · split
    · extract_lets -underBinder -merge -useContext +onlyGivenNames v5
      try clear_value v5
      extract_lets -underBinder -merge -useContext +onlyGivenNames v6
      try clear_value v6
      extract_lets -underBinder -merge -useContext +onlyGivenNames v7
      try clear_value v7
      extract_lets -underBinder -merge -useContext +onlyGivenNames v8
      try clear_value v8
      extract_lets -underBinder -merge -useContext +onlyGivenNames v9
      try clear_value v9
      extract_lets -underBinder -merge -useContext +onlyGivenNames v10
      try clear_value v10
      extract_lets -underBinder -merge -useContext +onlyGivenNames v11
      try clear_value v11
      extract_lets -underBinder -merge -useContext +onlyGivenNames v12
      try clear_value v12
      with_reducible refine Evolves.ite ?_ ?_
      · exact h
      · with_reducible refine State.writeBand_evolves _ _ _ _ _ _ _ _ _ _ ?_
        exact h
    · exact h
  · exact h

theorem dictCtlWrite_evolves {s₀ s} (a b) (h : Evolves r s₀ s) : Evolves r s₀ (dictCtlWrite a b s) := by
  unfold dictCtlWrite
  extract_lets -underBinder -merge -useContext +onlyGivenNames v0
  try clear_value v0
  extract_lets -underBinder -merge -useContext +onlyGivenNames v1
  try clear_value v1
  with_reducible refine Evolves.ite ?_ ?_
  · with_reducible refine State.setReg_evolves _ _ _ ?_
    exact h
  · with_reducible refine Evolves.ite ?_ ?_
    · exact h
    · with_reducible refine State.setReg_evolves _ _ _ ?_
      exact h

theorem execDictEnable_evolves {s₀ s t} (a b c) (he : execDictEnable a b c s = .next t) (h : Evolves r s₀ s) : Evolves r s₀ t := by
  unfold execDictEnable at he
  cases he
  with_reducible refine Evolves.ite ?_ ?_
  · with_reducible refine State.onWrite_evolves _ _ _ _ (fun y0 hy0 => ?_) ?_
    · with_reducible refine dictCtlWrite_evolves _ _ ?_
      exact hy0
    · exact h
  · exact h

theorem execDictCheckDone_evolves {s₀ s t} (a) (he : execDictCheckDone a s = .next t) (h : Evolves r s₀ s) : Evolves r s₀ t := by
  unfold execDictCheckDone at he
  cases he
  extract_lets -underBinder -merge -useContext +onlyGivenNames v0
  try clear_value v0
  with_reducible refine Evolves.ite ?_ ?_
  · exact h
  · with_reducible refine Evolves.ite ?_ ?_
    · with_reducible refine State.setReg_evolves _ _ _ ?_
      exact h
    · with_reducible refine State.raise_evolves _ _ _ _ _ _ ?_
      with_reducible refine State.setReg_evolves _ _ _ ?_
      exact h

theorem State.tokenizePart_evolves {s₀ s} (a b c d) (h : Evolves r s₀ s) : Evolves r s₀ (State.tokenizePart s a b c d) := by
  unfold State.tokenizePart
  extract_lets -underBinder -merge -useContext +onlyGivenNames v0
  try clear_value v0
  extract_lets -underBinder -merge -useContext +onlyGivenNames v1
  try clear_value v1
  with_reducible refine Evolves.ite ?_ ?_
  · with_reducible refine State.modSample_evolves _ _ _ ?_
    exact h
  · extract_lets -underBinder -merge -useContext +onlyGivenNames v2
    try clear_value v2
    split
    · extract_lets -underBinder -merge -useContext +onlyGivenNames v5
      have hv5 : Evolves r s₀ v5 := by
        with_reducible refine State.bump_evolves _ _ _ ?_
        with_reducible refine State.bump_evolves _ _ _ ?_
        with_reducible refine State.bump_evolves _ _ _ ?_
        exact h
      try clear_value v5
      extract_lets -underBinder -merge -useContext +onlyGivenNames v6
      have hv6 : Evolves r s₀ v6 := by
        with_reducible refine Evolves.ite ?_ ?_
        · exact hv5
        · with_reducible refine State.bump_evolves _ _ _ ?_
          exact hv5
      try clear_value v6
      extract_lets -underBinder -merge -useContext +onlyGivenNames v7
      have hv7 : Evolves r s₀ v7 := by
        with_reducible refine Evolves.ite ?_ ?_
        · with_reducible refine State.bump_evolves _ _ _ ?_
          exact hv6
        · exact hv6
      try clear_value v7
      with_reducible refine State.settle_evolves _ _ ?_
      with_reducible refine State.modPart_evolves _ _ _ _ ?_
      exact hv7

theorem execTokenize_evolves {s₀ s t} (a) (he : execTokenize a s = .next t) (h : Evolves r s₀ s) : Evolves r s₀ t := by
  unfold execTokenize at he
  cases he
  with_reducible refine Evolves.ite ?_ ?_
  · exact h
  · split
    · exact h
    · extract_lets -underBinder -merge -useContext +onlyGivenNames v5
      have hv5 : Evolves r s₀ v5 := by
        with_reducible refine Evolves.upd_mk rfl rfl rfl rfl rfl rfl rfl rfl rfl rfl rfl rfl rfl rfl rfl rfl rfl rfl rfl rfl rfl rfl rfl rfl rfl rfl rfl rfl ?_
        exact h
      try clear_value v5
      split
      · exact hv5
      · split
        · with_reducible refine State.tokenizePart_evolves _ _ _ _ ?_
          exact hv5
        · exact hv5

theorem State.voidPlace_evolves {s₀ s} (a b) (h : Evolves r s₀ s) : Evolves r s₀ (State.voidPlace s a b) := by
  unfold State.voidPlace
  split
  · exact h
  · extract_lets -underBinder -merge -useContext +onlyGivenNames v2
    try clear_value v2
    extract_lets -underBinder -merge -useContext +onlyGivenNames v3
    try clear_value v3
    extract_lets -underBinder -merge -useContext +onlyGivenNames v4
    try clear_value v4
    extract_lets -underBinder -merge -useContext +onlyGivenNames v5
    have hv5 : Evolves r s₀ v5 := by
      with_reducible refine State.modStr_evolves _ _ ?_
      exact h
    try clear_value v5
    split
    · with_reducible refine Evolves.foldl (fun a7 x8 ha7 => ?_) ?_
      · with_reducible refine State.writeMediaRow_evolves _ _ _ _ _ _ ?_
        exact ha7
      · with_reducible refine State.writeArrays_evolves _ _ _ ?_
        exact hv5
    · exact hv5

theorem State.sampleFailed_evolves {s₀ s} (a b c) (h : Evolves r s₀ s) : Evolves r s₀ (State.sampleFailed s a b c) := by
  unfold State.sampleFailed
  extract_lets -underBinder -merge -useContext +onlyGivenNames v0
  have hv0 : Evolves r s₀ v0 := by
    with_reducible refine Evolves.ite ?_ ?_
    · with_reducible refine State.voidPlace_evolves _ _ ?_
      exact h
    · exact h
  try clear_value v0
  extract_lets -underBinder -merge -useContext +onlyGivenNames v1
  have hv1 : Evolves r s₀ v1 := by
    unfold v1
    split
    · with_reducible refine State.raiseSample_evolves _ _ _ ?_
      with_reducible refine State.bump_evolves _ _ _ ?_
      exact hv0
    · with_reducible refine State.raise_evolves _ _ _ _ _ _ ?_
      with_reducible refine State.orReg_evolves _ _ _ ?_
      exact hv0
  try clear_value v1
  split
  · extract_lets -underBinder -merge -useContext +onlyGivenNames v5
    try clear_value v5
    extract_lets -underBinder -merge -useContext +onlyGivenNames v6
    try clear_value v6
    extract_lets -underBinder -merge -useContext +onlyGivenNames v7
    try clear_value v7
    extract_lets -underBinder -merge -useContext +onlyGivenNames v8
    try clear_value v8
    extract_lets -underBinder -merge -useContext +onlyGivenNames v9
    try clear_value v9
    extract_lets -underBinder -merge -useContext +onlyGivenNames v10
    try clear_value v10
    extract_lets -underBinder -merge -useContext +onlyGivenNames v11
    have hv11 : Evolves r s₀ v11 := by
      with_reducible refine State.releaseCheck_evolves _ _ ?_
      exact hv1
    try clear_value v11
    extract_lets -underBinder -merge -useContext +onlyGivenNames v12
    have hv12 : Evolves r s₀ v12 := by
      with_reducible refine Evolves.foldl (fun a13 x14 ha13 => ?_) ?_
      · with_reducible refine State.crsWithdraw_evolves _ ?_
        exact ha13
      · exact hv11
    try clear_value v12
    extract_lets -underBinder -merge -useContext +onlyGivenNames v15
    have hv15 : Evolves r s₀ v15 := by
      with_reducible refine State.setStr_evolves _ _ ?_
      exact hv12
    try clear_value v15
    with_reducible refine State.beginSample_evolves _ _ _ ?_
    exact hv15
  · extract_lets -underBinder -merge -useContext +onlyGivenNames v18
    have hv18 : Evolves r s₀ v18 := by
      with_reducible refine State.raiseSample_evolves _ _ _ ?_
      with_reducible refine State.bump_evolves _ _ _ ?_
      exact hv1
    try clear_value v18
    with_reducible refine State.dropSample_evolves _ _ ?_
    with_reducible refine State.leave_evolves _ _ _ ?_
    exact hv18

theorem execSampleFail_evolves {s₀ s t} (a b) (he : execSampleFail a b s = .next t) (h : Evolves r s₀ s) : Evolves r s₀ t := by
  unfold execSampleFail at he
  cases he
  extract_lets -underBinder -merge -useContext +onlyGivenNames v0
  try clear_value v0
  split
  · exact h
  · split
    · exact h
    · with_reducible refine Evolves.ite ?_ ?_
      · exact h
      · with_reducible refine State.sampleFailed_evolves _ _ _ ?_
        exact h

theorem State.abandon_evolves {s₀ s} (a b) (h : Evolves r s₀ s) : Evolves r s₀ (State.abandon s a b) := by
  unfold State.abandon
  with_reducible refine Evolves.foldl (fun a0 x1 ha0 => ?_) ?_
  · extract_lets -underBinder -merge -useContext +onlyGivenNames v2
    try clear_value v2
    with_reducible refine Evolves.foldl (fun a3 x4 ha3 => ?_) ?_
    · with_reducible refine State.bump_evolves _ _ _ ?_
      with_reducible refine State.endGrant_evolves _ _ ?_
      exact ha3
    · exact ha0
  · exact h

theorem State.dropRequests_evolves {s₀ s} (a b) (h : Evolves r s₀ s) : Evolves r s₀ (State.dropRequests s a b) := by
  unfold State.dropRequests
  extract_lets -underBinder -merge -useContext +onlyGivenNames v0
  try clear_value v0
  extract_lets -underBinder -merge -useContext +onlyGivenNames v1
  try clear_value v1
  extract_lets -underBinder -merge -useContext +onlyGivenNames v2
  have hv2 : Evolves r s₀ v2 := by
    with_reducible refine Evolves.foldl (fun a3 x4 ha3 => ?_) ?_
    · extract_lets -underBinder -merge -useContext +onlyGivenNames v5
      try clear_value v5
      extract_lets -underBinder -merge -useContext +onlyGivenNames v6
      try clear_value v6
      with_reducible refine Evolves.ite ?_ ?_
      · with_reducible refine State.modStr_evolves _ _ ?_
        with_reducible refine State.reqSignals_evolves _ _ _ ?_
        exact ha3
      · exact ha3
    · exact h
  try clear_value v2
  with_reducible refine Evolves.ite ?_ ?_
  · exact hv2
  · with_reducible refine State.passReq_evolves _ _ ?_
    exact hv2

theorem State.rewindStream_evolves {s₀ s} (a b) (h : Evolves r s₀ s) : Evolves r s₀ (State.rewindStream s a b) := by
  unfold State.rewindStream
  extract_lets -underBinder -merge -useContext +onlyGivenNames v0
  have hv0 : Evolves r s₀ v0 := by
    with_reducible refine State.dropRequests_evolves _ _ ?_
    exact h
  try clear_value v0
  split
  · exact hv0
  · extract_lets -underBinder -merge -useContext +onlyGivenNames v3
    have hv3 : Evolves r s₀ v3 := by
      with_reducible refine Evolves.foldl (fun a4 x5 ha4 => ?_) ?_
      · with_reducible refine State.dropSample_evolves _ _ ?_
        with_reducible refine State.leave_evolves _ _ _ ?_
        with_reducible refine State.abandon_evolves _ _ ?_
        exact ha4
      · exact hv0
    try clear_value v3
    extract_lets -underBinder -merge -useContext +onlyGivenNames v6
    have hv6 : Evolves r s₀ v6 := by
      with_reducible refine State.modStr_evolves _ _ ?_
      exact hv3
    try clear_value v6
    with_reducible refine State.setReg_evolves _ _ _ ?_
    exact hv6

theorem State.rewindAll_evolves {s₀ s} (a) (h : Evolves r s₀ s) : Evolves r s₀ (State.rewindAll s a) := by
  unfold State.rewindAll
  with_reducible refine Evolves.foldl (fun a0 x1 ha0 => ?_) ?_
  · with_reducible refine State.rewindStream_evolves _ _ ?_
    exact ha0
  · exact h

theorem State.moveHead_evolves {s₀ s} (a) (h : Evolves r s₀ s) : Evolves r s₀ (State.moveHead s a) := by
  unfold State.moveHead
  extract_lets -underBinder -merge -useContext +onlyGivenNames v0
  try clear_value v0
  extract_lets -underBinder -merge -useContext +onlyGivenNames v1
  try clear_value v1
  extract_lets -underBinder -merge -useContext +onlyGivenNames v2
  extract_lets -underBinder -merge -useContext +onlyGivenNames v3
  try clear_value v3
  with_reducible refine State.setReg_evolves _ _ _ ?_
  exact h

theorem State.settleStep_evolves {s₀ s} (a b c) (h : Evolves r s₀ s) : Evolves r s₀ (State.settleStep s a b c) := by
  unfold State.settleStep
  with_reducible refine Evolves.foldl (fun a0 x1 ha0 => ?_) ?_
  · split
    · with_reducible refine Evolves.ite ?_ ?_
      · with_reducible refine State.dropSample_evolves _ _ ?_
        with_reducible refine State.leave_evolves _ _ _ ?_
        exact ha0
      · exact ha0
    · exact ha0
  · exact h

theorem State.commitStream_evolves {s₀ s} (a b c) (h : Evolves r s₀ s) : Evolves r s₀ (State.commitStream s a b c) := by
  unfold State.commitStream
  with_reducible refine State.moveHead_evolves _ ?_
  with_reducible refine State.modStr_evolves _ _ ?_
  with_reducible refine State.settleStep_evolves _ _ _ ?_
  exact h

theorem State.skipStream_evolves {s₀ s} (a b) (h : Evolves r s₀ s) : Evolves r s₀ (State.skipStream s a b) := by
  unfold State.skipStream
  with_reducible refine State.rewindStream_evolves _ _ ?_
  with_reducible refine State.modStr_evolves _ _ ?_
  with_reducible refine State.settleStep_evolves _ _ _ ?_
  exact h

end Sys2Proof.Machine
end

