-- ==== Sys2Proof/Laws/EvolvesLinks.lean ====
section
/-! SUPPORT. Laws/EvolvesLinks.lean: every operation of links evolves the state (Laws/Evolves.lean); one lemma for each. -/
namespace Sys2Proof.Machine

set_option Elab.async false
set_option linter.all false

variable {r : Bool}

theorem State.setLink_evolves {s₀ s} (a b c) (h : Evolves r s₀ s) : Evolves r s₀ (State.setLink s a b c) := by
  unfold State.setLink
  with_reducible refine Evolves.upd_parts ?_ rfl rfl rfl rfl rfl rfl rfl rfl rfl rfl rfl ?_
  · exact fun hp => { hp with
      links := by first | exact keysRise_sset hp.links | exact keysRise_filter _ hp.links | exact keysRise_sput (Nat.zero_le _) hp.links | exact keysRise_sdel hp.links | exact keysRise_map_snd hp.links | exact keysRise_map_if hp.links | rfl
    }
  exact h

theorem State.modLink_evolves {s₀ s} (a b c) (h : Evolves r s₀ s) : Evolves r s₀ (State.modLink s a b c) := by
  unfold State.modLink
  with_reducible refine State.setLink_evolves _ _ _ ?_
  exact h

theorem State.toLstate_evolves {s₀ s} (a b c) (h : Evolves r s₀ s) : Evolves r s₀ (State.toLstate s a b c) := by
  unfold State.toLstate
  with_reducible refine State.modLink_evolves _ _ _ ?_
  with_reducible refine State.setFld_evolves _ _ _ _ _ ?_
  exact h

theorem State.lnkBump_evolves {s₀ s} (a b c d) (h : Evolves r s₀ s) : Evolves r s₀ (State.lnkBump s a b c d) := by
  unfold State.lnkBump
  with_reducible refine Evolves.ite ?_ ?_
  · exact h
  · with_reducible refine State.bump_evolves _ _ _ ?_
    exact h

theorem State.turnPhase_evolves {s₀ s} (a b) (h : Evolves r s₀ s) : Evolves r s₀ (State.turnPhase s a b) := by
  unfold State.turnPhase
  extract_lets -underBinder -merge -useContext +onlyGivenNames v0
  try clear_value v0
  split
  · with_reducible refine Evolves.ite ?_ ?_
    · with_reducible refine State.setLink_evolves _ _ _ ?_
      with_reducible refine State.setFld_evolves _ _ _ _ _ ?_
      exact h
    · exact h
  · exact h

theorem State.countSegs_evolves {s₀ s} (a b c d e) (h : Evolves r s₀ s) : Evolves r s₀ (State.countSegs s a b c d e) := by
  unfold State.countSegs
  with_reducible refine Evolves.upd_parts ?_ rfl rfl rfl rfl rfl rfl rfl rfl rfl rfl rfl ?_
  · exact fun hp => { hp with
      linkKeys := by first | exact keysRise_sset hp.linkKeys | exact keysRise_filter _ hp.linkKeys | exact keysRise_sput (Nat.zero_le _) hp.linkKeys | exact keysRise_sdel hp.linkKeys | exact keysRise_map_snd hp.linkKeys | exact keysRise_map_if hp.linkKeys | rfl
    }
  exact h

theorem State.countSent_evolves {s₀ s} (a b c) (h : Evolves r s₀ s) : Evolves r s₀ (State.countSent s a b c) := by
  unfold State.countSent
  with_reducible refine Evolves.ite ?_ ?_
  · extract_lets -underBinder -merge -useContext +onlyGivenNames v0
    try clear_value v0
    with_reducible refine State.countSegs_evolves _ _ _ _ _ ?_
    exact h
  · exact h

theorem State.emit_evolves {s₀ s} (a b c) (h : Evolves r s₀ s) : Evolves r s₀ (State.emit s a b c) := by
  unfold State.emit
  extract_lets -underBinder -merge -useContext +onlyGivenNames v0
  have hv0 : Evolves r s₀ v0 := by
    with_reducible refine State.turnPhase_evolves _ _ ?_
    exact h
  extract_lets -underBinder -merge -useContext +onlyGivenNames v1
  try clear_value v1
  extract_lets -underBinder -merge -useContext +onlyGivenNames v2
  have hv2 : Evolves r s₀ v2 := by
    with_reducible refine State.countSent_evolves _ _ _ ?_
    exact hv0
  extract_lets -underBinder -merge -useContext +onlyGivenNames v3
  try clear_value v3
  extract_lets -underBinder -merge -useContext +onlyGivenNames v4
  try clear_value v4
  extract_lets -underBinder -merge -useContext +onlyGivenNames v5
  try clear_value v5
  extract_lets -underBinder -merge -useContext +onlyGivenNames v6
  have hv6 : Evolves r s₀ v6 := by
    with_reducible refine State.setLink_evolves _ _ _ ?_
    exact hv2
  with_reducible refine Evolves.upd_out ?_ rfl rfl rfl rfl rfl rfl rfl rfl rfl rfl rfl rfl rfl rfl rfl rfl rfl rfl rfl rfl rfl rfl rfl rfl rfl rfl rfl ?_
  · exact ⟨_, rfl⟩
  exact hv6

theorem State.drainLink_evolves {s₀ s} (a b c) (h : Evolves r s₀ s) : Evolves r s₀ (State.drainLink a b c s) := by
  unfold State.drainLink
  split
  · exact (by assumption)
  · extract_lets -underBinder -merge -useContext +onlyGivenNames v3
    try clear_value v3
    with_reducible refine Evolves.ite ?_ ?_
    · exact (by assumption)
    · split
      · exact (by assumption)
      · extract_lets -underBinder -merge -useContext +onlyGivenNames v6
        try clear_value v6
        extract_lets -underBinder -merge -useContext +onlyGivenNames v7
        try clear_value v7
        with_reducible refine State.drainLink_evolves _ _ _ ?_
        with_reducible refine State.emit_evolves _ _ _ ?_
        with_reducible refine State.setLink_evolves _ _ _ ?_
        exact (by assumption)

theorem State.drain_evolves {s₀ s} (a b) (h : Evolves r s₀ s) : Evolves r s₀ (State.drain s a b) := by
  unfold State.drain
  with_reducible refine State.drainLink_evolves _ _ _ ?_
  exact h

theorem State.sendBy_evolves {s₀ s} (a b c d) (h : Evolves r s₀ s) : Evolves r s₀ (State.sendBy s a b c d) := by
  unfold State.sendBy
  extract_lets -underBinder -merge -useContext +onlyGivenNames v0
  try clear_value v0
  with_reducible refine Evolves.ite ?_ ?_
  · with_reducible refine Evolves.upd_mk rfl rfl rfl rfl rfl rfl rfl rfl rfl rfl rfl rfl rfl rfl rfl rfl rfl rfl rfl rfl rfl rfl rfl rfl rfl rfl rfl rfl ?_
    exact h
  · extract_lets -underBinder -merge -useContext +onlyGivenNames v1
    try clear_value v1
    with_reducible refine State.drain_evolves _ _ ?_
    with_reducible refine State.modLink_evolves _ _ _ ?_
    exact h

theorem State.unstrand_evolves {s₀ s} (h : Evolves r s₀ s) : Evolves r s₀ (State.unstrand s) := by
  unfold State.unstrand
  with_reducible refine Evolves.foldl (fun a0 x1 ha0 => ?_) ?_
  · with_reducible refine State.sendBy_evolves _ _ _ _ ?_
    exact ha0
  · with_reducible refine Evolves.upd_mk rfl rfl rfl rfl rfl rfl rfl rfl rfl rfl rfl rfl rfl rfl rfl rfl rfl rfl rfl rfl rfl rfl rfl rfl rfl rfl rfl rfl ?_
    exact h

theorem State.linkDown_evolves {s₀ s} (a b) (h : Evolves r s₀ s) : Evolves r s₀ (State.linkDown s a b) := by
  unfold State.linkDown
  extract_lets -underBinder -merge -useContext +onlyGivenNames v0
  try clear_value v0
  extract_lets -underBinder -merge -useContext +onlyGivenNames v1
  try clear_value v1
  extract_lets -underBinder -merge -useContext +onlyGivenNames v2
  have hv2 : Evolves r s₀ v2 := by
    with_reducible refine State.toLstate_evolves _ _ _ ?_
    with_reducible refine State.setLink_evolves _ _ _ ?_
    exact h
  try clear_value v2
  extract_lets -underBinder -merge -useContext +onlyGivenNames v3
  have hv3 : Evolves r s₀ v3 := by
    with_reducible refine State.setFld_evolves _ _ _ _ _ ?_
    exact hv2
  try clear_value v3
  extract_lets -underBinder -merge -useContext +onlyGivenNames v4
  have hv4 : Evolves r s₀ v4 := by
    with_reducible refine State.raise_evolves _ _ _ _ _ _ ?_
    with_reducible refine State.lnkBump_evolves _ _ _ _ ?_
    exact hv3
  try clear_value v4
  with_reducible refine State.unstrand_evolves ?_
  with_reducible refine Evolves.upd_mk rfl rfl rfl rfl rfl rfl rfl rfl rfl rfl rfl rfl rfl rfl rfl rfl rfl rfl rfl rfl rfl rfl rfl rfl rfl rfl rfl rfl ?_
  exact hv4

theorem State.failAttempt_evolves {s₀ s} (a b) (h : Evolves r s₀ s) : Evolves r s₀ (State.failAttempt s a b) := by
  unfold State.failAttempt
  extract_lets -underBinder -merge -useContext +onlyGivenNames v0
  try clear_value v0
  extract_lets -underBinder -merge -useContext +onlyGivenNames v1
  have hv1 : Evolves r s₀ v1 := by
    with_reducible refine State.modLink_evolves _ _ _ ?_
    exact h
  try clear_value v1
  with_reducible refine Evolves.ite ?_ ?_
  · with_reducible refine State.raise_evolves _ _ _ _ _ _ ?_
    with_reducible refine State.toLstate_evolves _ _ _ ?_
    exact hv1
  · with_reducible refine State.modLink_evolves _ _ _ ?_
    exact hv1

theorem State.startRetrain_evolves {s₀ s} (a b) (h : Evolves r s₀ s) : Evolves r s₀ (State.startRetrain s a b) := by
  unfold State.startRetrain
  extract_lets -underBinder -merge -useContext +onlyGivenNames v0
  try clear_value v0
  extract_lets -underBinder -merge -useContext +onlyGivenNames v1
  have hv1 : Evolves r s₀ v1 := by
    with_reducible refine State.modLink_evolves _ _ _ ?_
    with_reducible refine State.lnkBump_evolves _ _ _ _ ?_
    exact h
  try clear_value v1
  with_reducible refine Evolves.ite ?_ ?_
  · with_reducible refine State.linkDown_evolves _ _ ?_
    exact hv1
  · with_reducible refine State.toLstate_evolves _ _ _ ?_
    exact hv1

theorem lnkCtlWrite_evolves {s₀ s} (a b c) (h : Evolves r s₀ s) : Evolves r s₀ (lnkCtlWrite a b c s) := by
  unfold lnkCtlWrite
  extract_lets -underBinder -merge -useContext +onlyGivenNames v0
  try clear_value v0
  extract_lets -underBinder -merge -useContext +onlyGivenNames v1
  try clear_value v1
  extract_lets -underBinder -merge -useContext +onlyGivenNames v2
  try clear_value v2
  extract_lets -underBinder -merge -useContext +onlyGivenNames v3
  have hv3 : Evolves r s₀ v3 := by
    with_reducible refine State.setReg_evolves _ _ _ ?_
    exact h
  try clear_value v3
  with_reducible refine Evolves.ite ?_ ?_
  · with_reducible refine Evolves.ite ?_ ?_
    · with_reducible refine State.linkDown_evolves _ _ ?_
      exact hv3
    · with_reducible refine State.setReg_evolves _ _ _ ?_
      with_reducible refine State.setLink_evolves _ _ _ ?_
      exact hv3
  · with_reducible refine Evolves.ite ?_ ?_
    · with_reducible refine Evolves.ite ?_ ?_
      · exact hv3
      · with_reducible refine State.toLstate_evolves _ _ _ ?_
        with_reducible refine State.setLink_evolves _ _ _ ?_
        exact hv3
    · with_reducible refine Evolves.ite ?_ ?_
      · with_reducible refine State.startRetrain_evolves _ _ ?_
        with_reducible refine State.modLink_evolves _ _ _ ?_
        exact hv3
      · exact hv3

theorem execLinkEnWrite_evolves {s₀ s t} (a b c d) (he : execLinkEnWrite a b c d s = .next t) (h : Evolves r s₀ s) : Evolves r s₀ t := by
  unfold execLinkEnWrite at he
  cases he
  with_reducible refine Evolves.ite ?_ ?_
  · with_reducible refine State.onWrite_evolves _ _ _ _ (fun y0 hy0 => ?_) ?_
    · with_reducible refine lnkCtlWrite_evolves _ _ _ ?_
      exact hy0
    · exact h
  · exact h

theorem execRetrainWrite_evolves {s₀ s t} (a b c d) (he : execRetrainWrite a b c d s = .next t) (h : Evolves r s₀ s) : Evolves r s₀ t := by
  unfold execRetrainWrite at he
  cases he
  with_reducible refine Evolves.ite ?_ ?_
  · with_reducible refine State.onWrite_evolves _ _ _ _ (fun y0 hy0 => ?_) ?_
    · with_reducible refine lnkCtlWrite_evolves _ _ _ ?_
      exact hy0
    · exact h
  · exact h

theorem execPeerDetect_evolves {s₀ s t} (a b) (he : execPeerDetect a b s = .next t) (h : Evolves r s₀ s) : Evolves r s₀ t := by
  unfold execPeerDetect at he
  cases he
  with_reducible refine Evolves.ite ?_ ?_
  · with_reducible refine State.toLstate_evolves _ _ _ ?_
    exact h
  · exact h

theorem execTrainConverge_evolves {s₀ s t} (a b) (he : execTrainConverge a b s = .next t) (h : Evolves r s₀ s) : Evolves r s₀ t := by
  unfold execTrainConverge at he
  cases he
  with_reducible refine Evolves.ite ?_ ?_
  · with_reducible refine State.toLstate_evolves _ _ _ ?_
    exact h
  · exact h

theorem execLaneAlign_evolves {s₀ s t} (a b c) (he : execLaneAlign a b c s = .next t) (h : Evolves r s₀ s) : Evolves r s₀ t := by
  unfold execLaneAlign at he
  cases he
  with_reducible refine Evolves.ite ?_ ?_
  · split
    · extract_lets -underBinder -merge -useContext +onlyGivenNames v1
      have hv1 : Evolves r s₀ v1 := by
        with_reducible refine State.modLink_evolves _ _ _ ?_
        with_reducible refine State.toLstate_evolves _ _ _ ?_
        exact h
      with_reducible refine Evolves.upd_out ?_ rfl rfl rfl rfl rfl rfl rfl rfl rfl rfl rfl rfl rfl rfl rfl rfl rfl rfl rfl rfl rfl rfl rfl rfl rfl rfl rfl ?_
      · exact ⟨_, rfl⟩
      exact hv1
    · exact h
  · exact h

theorem execIdentFlit_evolves {s₀ s t} (a b c) (he : execIdentFlit a b c s = .next t) (h : Evolves r s₀ s) : Evolves r s₀ t := by
  unfold execIdentFlit at he
  cases he
  with_reducible refine Evolves.ite ?_ ?_
  · with_reducible refine Evolves.ite ?_ ?_
    · extract_lets -underBinder -merge -useContext +onlyGivenNames v0
      try clear_value v0
      extract_lets -underBinder -merge -useContext +onlyGivenNames v1
      have hv1 : Evolves r s₀ v1 := by
        with_reducible refine State.toLstate_evolves _ _ _ ?_
        with_reducible refine State.setLink_evolves _ _ _ ?_
        exact h
      try clear_value v1
      extract_lets -underBinder -merge -useContext +onlyGivenNames v2
      have hv2 : Evolves r s₀ v2 := by
        with_reducible refine State.setFld_evolves _ _ _ _ _ ?_
        exact hv1
      try clear_value v2
      extract_lets -underBinder -merge -useContext +onlyGivenNames v3
      have hv3 : Evolves r s₀ v3 := by
        with_reducible refine State.notice_evolves _ _ _ ?_
        exact hv2
      try clear_value v3
      with_reducible refine State.unstrand_evolves ?_
      with_reducible refine Evolves.ite ?_ ?_
      · with_reducible refine State.raise_evolves _ _ _ _ _ _ ?_
        exact hv3
      · exact hv3
    · with_reducible refine State.failAttempt_evolves _ _ ?_
      with_reducible refine State.raise_evolves _ _ _ _ _ _ ?_
      exact h
  · exact h

theorem execLinkStateTimeout_evolves {s₀ s t} (a b) (he : execLinkStateTimeout a b s = .next t) (h : Evolves r s₀ s) : Evolves r s₀ t := by
  unfold execLinkStateTimeout at he
  cases he
  extract_lets -underBinder -merge -useContext +onlyGivenNames v0
  try clear_value v0
  with_reducible refine Evolves.ite ?_ ?_
  · with_reducible refine State.failAttempt_evolves _ _ ?_
    exact h
  · exact h

theorem execLinkRestartDelay_evolves {s₀ s t} (a b) (he : execLinkRestartDelay a b s = .next t) (h : Evolves r s₀ s) : Evolves r s₀ t := by
  unfold execLinkRestartDelay at he
  cases he
  with_reducible refine Evolves.ite ?_ ?_
  · with_reducible refine State.toLstate_evolves _ _ _ ?_
    exact h
  · exact h

theorem State.retrained_evolves {s₀ s} (a b c) (h : Evolves r s₀ s) : Evolves r s₀ (State.retrained s a b c) := by
  unfold State.retrained
  extract_lets -underBinder -merge -useContext +onlyGivenNames v0
  try clear_value v0
  extract_lets -underBinder -merge -useContext +onlyGivenNames v1
  try clear_value v1
  extract_lets -underBinder -merge -useContext +onlyGivenNames v2
  try clear_value v2
  extract_lets -underBinder -merge -useContext +onlyGivenNames v3
  have hv3 : Evolves r s₀ v3 := by
    with_reducible refine State.toLstate_evolves _ _ _ ?_
    with_reducible refine State.setLink_evolves _ _ _ ?_
    exact h
  extract_lets -underBinder -merge -useContext +onlyGivenNames v4
  have hv4 : Evolves r s₀ v4 := by
    with_reducible refine State.setFld_evolves _ _ _ _ _ ?_
    exact hv3
  extract_lets -underBinder -merge -useContext +onlyGivenNames v5
  have hv5 : Evolves r s₀ v5 := by
    with_reducible refine State.lnkBump_evolves _ _ _ _ ?_
    exact hv4
  extract_lets -underBinder -merge -useContext +onlyGivenNames v6
  have hv6 : Evolves r s₀ v6 := by
    with_reducible refine Evolves.ite ?_ ?_
    · exact hv5
    · with_reducible refine Evolves.upd_out ?_ rfl rfl rfl rfl rfl rfl rfl rfl rfl rfl rfl rfl rfl rfl rfl rfl rfl rfl rfl rfl rfl rfl rfl rfl rfl rfl rfl ?_
      · exact ⟨_, rfl⟩
      exact hv5
  with_reducible refine State.unstrand_evolves ?_
  with_reducible refine State.drain_evolves _ _ ?_
  with_reducible refine Evolves.ite ?_ ?_
  · with_reducible refine State.raise_evolves _ _ _ _ _ _ ?_
    exact hv6
  · exact hv6

theorem execRetrainDone_evolves {s₀ s t} (a b c d) (he : execRetrainDone a b c d s = .next t) (h : Evolves r s₀ s) : Evolves r s₀ t := by
  unfold execRetrainDone at he
  cases he
  with_reducible refine Evolves.ite ?_ ?_
  · split
    · with_reducible refine State.linkDown_evolves _ _ ?_
      exact h
    · with_reducible refine State.retrained_evolves _ _ _ ?_
      exact h
  · exact h

theorem execCodewordAlignmentLoss_evolves {s₀ s t} (a b) (he : execCodewordAlignmentLoss a b s = .next t) (h : Evolves r s₀ s) : Evolves r s₀ t := by
  unfold execCodewordAlignmentLoss at he
  cases he
  with_reducible refine Evolves.ite ?_ ?_
  · with_reducible refine State.startRetrain_evolves _ _ ?_
    exact h
  · exact h

theorem State.nak_evolves {s₀ s} (a b c) (h : Evolves r s₀ s) : Evolves r s₀ (State.nak s a b c) := by
  unfold State.nak
  extract_lets -underBinder -merge -useContext +onlyGivenNames v0
  try clear_value v0
  extract_lets -underBinder -merge -useContext +onlyGivenNames v1
  try clear_value v1
  extract_lets -underBinder -merge -useContext +onlyGivenNames v2
  try clear_value v2
  extract_lets -underBinder -merge -useContext +onlyGivenNames v3
  have hv3 : Evolves r s₀ v3 := by
    with_reducible refine State.setLink_evolves _ _ _ ?_
    exact h
  with_reducible refine Evolves.ite ?_ ?_
  · with_reducible refine State.startRetrain_evolves _ _ ?_
    exact hv3
  · extract_lets -underBinder -merge -useContext +onlyGivenNames v4
    have hv4 : Evolves r s₀ v4 := by
      with_reducible refine State.lnkBump_evolves _ _ _ _ ?_
      exact hv3
    with_reducible refine Evolves.ite ?_ ?_
    · exact hv4
    · with_reducible refine Evolves.upd_out ?_ rfl rfl rfl rfl rfl rfl rfl rfl rfl rfl rfl rfl rfl rfl rfl rfl rfl rfl rfl rfl rfl rfl rfl rfl rfl rfl rfl ?_
      · exact ⟨_, rfl⟩
      exact hv4

theorem execNakReceive_evolves {s₀ s t} (a b c) (he : execNakReceive a b c s = .next t) (h : Evolves r s₀ s) : Evolves r s₀ t := by
  unfold execNakReceive at he
  cases he
  with_reducible refine Evolves.ite ?_ ?_
  · with_reducible refine State.drain_evolves _ _ ?_
    with_reducible refine State.nak_evolves _ _ _ ?_
    exact h
  · exact h

theorem State.sendNak_evolves {s₀ s} (a b) (h : Evolves r s₀ s) : Evolves r s₀ (State.sendNak s a b) := by
  unfold State.sendNak
  extract_lets -underBinder -merge -useContext +onlyGivenNames v0
  try clear_value v0
  with_reducible refine Evolves.ite ?_ ?_
  · exact h
  · extract_lets -underBinder -merge -useContext +onlyGivenNames v1
    have hv1 : Evolves r s₀ v1 := by
      with_reducible refine State.setLink_evolves _ _ _ ?_
      exact h
    with_reducible refine Evolves.upd_out ?_ rfl rfl rfl rfl rfl rfl rfl rfl rfl rfl rfl rfl rfl rfl rfl rfl rfl rfl rfl rfl rfl rfl rfl rfl rfl rfl rfl ?_
    · exact ⟨_, rfl⟩
    exact hv1

theorem State.badFlit_evolves {s₀ s} (a b c) (h : Evolves r s₀ s) : Evolves r s₀ (State.badFlit s a b c) := by
  unfold State.badFlit
  extract_lets -underBinder -merge -useContext +onlyGivenNames v0
  try clear_value v0
  extract_lets -underBinder -merge -useContext +onlyGivenNames v1
  have hv1 : Evolves r s₀ v1 := by
    with_reducible refine State.sendNak_evolves _ _ ?_
    with_reducible refine State.modLink_evolves _ _ _ ?_
    exact h
  try clear_value v1
  with_reducible refine Evolves.ite ?_ ?_
  · with_reducible refine State.startRetrain_evolves _ _ ?_
    exact hv1
  · exact hv1

theorem State.closeSegment_evolves {s₀ s} (a b) (h : Evolves r s₀ s) : Evolves r s₀ (State.closeSegment s a b) := by
  unfold State.closeSegment
  extract_lets -underBinder -merge -useContext +onlyGivenNames v0
  try clear_value v0
  extract_lets -underBinder -merge -useContext +onlyGivenNames v1
  try clear_value v1
  extract_lets -underBinder -merge -useContext +onlyGivenNames v2
  try clear_value v2
  extract_lets -underBinder -merge -useContext +onlyGivenNames v3
  try clear_value v3
  with_reducible refine Evolves.ite ?_ ?_
  · extract_lets -underBinder -merge -useContext +onlyGivenNames v4
    try clear_value v4
    extract_lets -underBinder -merge -useContext +onlyGivenNames v5
    try clear_value v5
    with_reducible refine State.setLink_evolves _ _ _ ?_
    with_reducible refine State.countSegs_evolves _ _ _ _ _ ?_
    exact h
  · extract_lets -underBinder -merge -useContext +onlyGivenNames v6
    have hv6 : Evolves r s₀ v6 := by
      with_reducible refine State.setLink_evolves _ _ _ ?_
      with_reducible refine State.lnkBump_evolves _ _ _ _ ?_
      exact h
    with_reducible refine Evolves.ite ?_ ?_
    · with_reducible refine State.linkDown_evolves _ _ ?_
      with_reducible refine State.raise_evolves _ _ _ _ _ _ ?_
      exact hv6
    · with_reducible refine Evolves.upd_out ?_ rfl rfl rfl rfl rfl rfl rfl rfl rfl rfl rfl rfl rfl rfl rfl rfl rfl rfl rfl rfl rfl rfl rfl rfl rfl rfl rfl ?_
      · exact ⟨_, rfl⟩
      exact hv6

theorem State.acceptFlit_evolves {s₀ s} (a b c d) (h : Evolves r s₀ s) : Evolves r s₀ (State.acceptFlit s a b c d) := by
  unfold State.acceptFlit
  extract_lets -underBinder -merge -useContext +onlyGivenNames v0
  try clear_value v0
  extract_lets -underBinder -merge -useContext +onlyGivenNames v1
  try clear_value v1
  with_reducible refine Evolves.ite ?_ ?_
  · extract_lets -underBinder -merge -useContext +onlyGivenNames v2
    have hv2 : Evolves r s₀ v2 := by
      with_reducible refine State.setLink_evolves _ _ _ ?_
      exact h
    try clear_value v2
    with_reducible refine Evolves.ite ?_ ?_
    · with_reducible refine State.closeSegment_evolves _ _ ?_
      exact hv2
    · exact hv2
  · with_reducible refine State.setLink_evolves _ _ _ ?_
    exact h

theorem State.takeFlit_evolves {s₀ s} (a b c) (h : Evolves r s₀ s) : Evolves r s₀ (State.takeFlit s a b c) := by
  unfold State.takeFlit
  split
  · extract_lets -underBinder -merge -useContext +onlyGivenNames v3
    have hv3 : Evolves r s₀ v3 := by
      with_reducible refine State.lnkBump_evolves _ _ _ _ ?_
      with_reducible refine State.lnkBump_evolves _ _ _ _ ?_
      exact h
    try clear_value v3
    extract_lets -underBinder -merge -useContext +onlyGivenNames v4
    try clear_value v4
    extract_lets -underBinder -merge -useContext +onlyGivenNames v5
    try clear_value v5
    with_reducible refine Evolves.ite ?_ ?_
    · with_reducible refine State.badFlit_evolves _ _ _ ?_
      exact hv3
    · extract_lets -underBinder -merge -useContext +onlyGivenNames v6
      have hv6 : Evolves r s₀ v6 := by
        with_reducible refine State.setLink_evolves _ _ _ ?_
        exact hv3
      try clear_value v6
      extract_lets -underBinder -merge -useContext +onlyGivenNames v7
      have hv7 : Evolves r s₀ v7 := by
        with_reducible refine Evolves.ite ?_ ?_
        · exact hv6
        · with_reducible refine State.acceptFlit_evolves _ _ _ _ ?_
          exact hv6
      try clear_value v7
      with_reducible refine Evolves.ite ?_ ?_
      · exact hv7
      · extract_lets -underBinder -merge -useContext +onlyGivenNames v8
        have hv8 : Evolves r s₀ v8 := by
          with_reducible refine Evolves.ite ?_ ?_
          · with_reducible refine State.nak_evolves _ _ _ ?_
            exact hv7
          · with_reducible refine State.modLink_evolves _ _ _ ?_
            exact hv7
        try clear_value v8
        with_reducible refine State.drain_evolves _ _ ?_
        exact hv8

theorem execFlitReceive_evolves {s₀ s t} (a b c) (he : execFlitReceive a b c s = .next t) (h : Evolves r s₀ s) : Evolves r s₀ t := by
  unfold execFlitReceive at he
  cases he
  with_reducible refine Evolves.ite ?_ ?_
  · with_reducible refine State.takeFlit_evolves _ _ _ ?_
    exact h
  · exact h

theorem execSegmentTimeout_evolves {s₀ s t} (a b) (he : execSegmentTimeout a b s = .next t) (h : Evolves r s₀ s) : Evolves r s₀ t := by
  unfold execSegmentTimeout at he
  cases he
  extract_lets -underBinder -merge -useContext +onlyGivenNames v0
  try clear_value v0
  extract_lets -underBinder -merge -useContext +onlyGivenNames v1
  try clear_value v1
  extract_lets -underBinder -merge -useContext +onlyGivenNames v2
  try clear_value v2
  with_reducible refine Evolves.ite ?_ ?_
  · extract_lets -underBinder -merge -useContext +onlyGivenNames v3
    have hv3 : Evolves r s₀ v3 := by
      with_reducible refine State.setLink_evolves _ _ _ ?_
      with_reducible refine State.countSent_evolves _ _ _ ?_
      exact h
    with_reducible refine State.drain_evolves _ _ ?_
    with_reducible refine State.turnPhase_evolves _ _ ?_
    with_reducible refine Evolves.upd_out ?_ rfl rfl rfl rfl rfl rfl rfl rfl rfl rfl rfl rfl rfl rfl rfl rfl rfl rfl rfl rfl rfl rfl rfl rfl rfl rfl rfl ?_
    · exact ⟨_, rfl⟩
    exact hv3
  · exact h

theorem State.consumed_evolves {s₀ s} (a) (h : Evolves r s₀ s) : Evolves r s₀ (State.consumed s a) := by
  unfold State.consumed
  with_reducible refine Evolves.ite ?_ ?_
  · exact h
  · extract_lets -underBinder -merge -useContext +onlyGivenNames v0
    try clear_value v0
    split
    · with_reducible refine State.setLink_evolves _ _ _ ?_
      exact h
    · exact h

theorem State.routeOut_evolves {s₀ s} (a) (h : Evolves r s₀ s) : Evolves r s₀ (State.routeOut s a) := by
  unfold State.routeOut
  extract_lets -underBinder -merge -useContext +onlyGivenNames v0
  try clear_value v0
  with_reducible refine Evolves.ite ?_ ?_
  · with_reducible refine State.bump_evolves _ _ _ ?_
    exact h
  · with_reducible refine State.sendBy_evolves _ _ _ _ ?_
    exact h

theorem State.forward_evolves {s₀ s} (a) (h : Evolves r s₀ s) : Evolves r s₀ (State.forward s a) := by
  unfold State.forward
  with_reducible refine Evolves.ite ?_ ?_
  · with_reducible refine State.bump_evolves _ _ _ ?_
    exact h
  · with_reducible refine Evolves.ite ?_ ?_
    · with_reducible refine State.bump_evolves _ _ _ ?_
      exact h
    · with_reducible refine State.routeOut_evolves _ ?_
      exact h

theorem advanceIdx_evolves {s₀ s} (h : Evolves r s₀ s) : Evolves r s₀ (advanceIdx s) := by
  unfold advanceIdx
  with_reducible refine State.setReg_evolves _ _ _ ?_
  exact h

theorem routeDataWrite_evolves {s₀ s} (a) (h : Evolves r s₀ s) : Evolves r s₀ (routeDataWrite a s) := by
  unfold routeDataWrite
  extract_lets -underBinder -merge -useContext +onlyGivenNames v0
  try clear_value v0
  with_reducible refine advanceIdx_evolves ?_
  with_reducible refine Evolves.upd_parts ?_ rfl rfl rfl rfl rfl rfl rfl rfl rfl rfl rfl ?_
  · exact fun hp => { hp with
      routes := by first | exact keysRise_sset hp.routes | exact keysRise_filter _ hp.routes | exact keysRise_sput (Nat.zero_le _) hp.routes | exact keysRise_sdel hp.routes | exact keysRise_map_snd hp.routes | exact keysRise_map_if hp.routes | rfl
    }
  exact h

theorem routeDataRead_evolves {s₀ s} (h : Evolves r s₀ s) : Evolves r s₀ (routeDataRead s) := by
  unfold routeDataRead
  with_reducible refine State.reply_evolves _ ?_
  with_reducible refine advanceIdx_evolves ?_
  exact h

theorem execRouteDataAccess_evolves {s₀ s t} (a b c) (he : execRouteDataAccess a b c s = .next t) (h : Evolves r s₀ s) : Evolves r s₀ t := by
  unfold execRouteDataAccess at he
  cases he
  with_reducible refine Evolves.ite ?_ ?_
  · with_reducible refine State.onWrite_evolves _ _ _ _ (fun y0 hy0 => ?_) ?_
    · with_reducible refine routeDataWrite_evolves _ ?_
      exact hy0
    · exact h
  · with_reducible refine State.onRead_evolves _ _ _ _ (fun y1 hy1 => ?_) ?_
    · with_reducible refine routeDataRead_evolves ?_
      exact hy1
    · exact h

theorem State.setLock_evolves {s₀ s} (a) (h : Evolves r s₀ s) : Evolves r s₀ (State.setLock s a) := by
  unfold State.setLock
  with_reducible refine State.setFld_evolves _ _ _ _ _ ?_
  exact h

theorem State.timeLost_evolves {s₀ s} (h : Evolves r s₀ s) : Evolves r s₀ (State.timeLost s) := by
  unfold State.timeLost
  extract_lets -underBinder -merge -useContext +onlyGivenNames v0
  have hv0 : Evolves r s₀ v0 := by
    with_reducible refine State.raise_evolves _ _ _ _ _ _ ?_
    with_reducible refine State.setLock_evolves _ ?_
    exact h
  try clear_value v0
  with_reducible refine Evolves.upd_mk rfl rfl rfl rfl rfl rfl rfl rfl rfl rfl rfl rfl rfl rfl rfl rfl rfl rfl rfl rfl rfl rfl rfl rfl rfl rfl rfl rfl ?_
  exact hv0

theorem State.timeOffset_evolves {s₀ s} (a) (h : Evolves r s₀ s) : Evolves r s₀ (State.timeOffset s a) := by
  unfold State.timeOffset
  extract_lets -underBinder -merge -useContext +onlyGivenNames v0 v1
  have hv0 : Evolves r s₀ v0 := by
    with_reducible refine State.setReg_evolves _ _ _ ?_
    exact h
  try clear_value v0
  have hv1 : Evolves r s₀ v1 := by
    with_reducible refine Evolves.upd_mk rfl rfl rfl rfl rfl rfl rfl rfl rfl rfl rfl rfl rfl rfl rfl rfl rfl rfl rfl rfl rfl rfl rfl rfl rfl rfl rfl rfl ?_
    exact hv0
  try clear_value v1
  with_reducible refine Evolves.ite ?_ ?_
  · extract_lets -underBinder -merge -useContext +onlyGivenNames v2
    have hv2 : Evolves r s₀ v2 := by
      with_reducible refine Evolves.upd_mk rfl rfl rfl rfl rfl rfl rfl rfl rfl rfl rfl rfl rfl rfl rfl rfl rfl rfl rfl rfl rfl rfl rfl rfl rfl rfl rfl rfl ?_
      exact hv1
    try clear_value v2
    with_reducible refine State.notice_evolves _ _ _ ?_
    with_reducible refine State.setLock_evolves _ ?_
    with_reducible refine State.setFld_evolves _ _ _ _ _ ?_
    exact hv2
  · with_reducible refine Evolves.ite ?_ ?_
    · with_reducible refine State.timeLost_evolves ?_
      exact hv1
    · extract_lets -underBinder -merge -useContext +onlyGivenNames v3
      try clear_value v3
      extract_lets -underBinder -merge -useContext +onlyGivenNames v4
      have hv4 : Evolves r s₀ v4 := by
        with_reducible refine Evolves.upd_mk rfl rfl rfl rfl rfl rfl rfl rfl rfl rfl rfl rfl rfl rfl rfl rfl rfl rfl rfl rfl rfl rfl rfl rfl rfl rfl rfl rfl ?_
        exact hv1
      try clear_value v4
      with_reducible refine Evolves.ite ?_ ?_
      · with_reducible refine State.setLock_evolves _ ?_
        exact hv4
      · with_reducible refine Evolves.ite ?_ ?_
        · with_reducible refine State.setLock_evolves _ ?_
          exact hv4
        · exact hv4

theorem execTimeExchange_evolves {s₀ s t} (a b c d e) (he : execTimeExchange a b c d e s = .next t) (h : Evolves r s₀ s) : Evolves r s₀ t := by
  unfold execTimeExchange at he
  cases he
  extract_lets -underBinder -merge -useContext +onlyGivenNames v0
  try clear_value v0
  with_reducible refine Evolves.ite ?_ ?_
  · exact h
  · with_reducible refine Evolves.ite ?_ ?_
    · with_reducible refine State.timeOffset_evolves _ ?_
      exact h
    · extract_lets -underBinder -merge -useContext +onlyGivenNames v1
      try clear_value v1
      with_reducible refine Evolves.ite ?_ ?_
      · with_reducible refine State.timeLost_evolves ?_
        exact h
      · with_reducible refine Evolves.upd_mk rfl rfl rfl rfl rfl rfl rfl rfl rfl rfl rfl rfl rfl rfl rfl rfl rfl rfl rfl rfl rfl rfl rfl rfl rfl rfl rfl rfl ?_
        exact h

theorem State.passTime_evolves {s₀ s} (h : Evolves r s₀ s) : Evolves r s₀ (State.passTime s) := by
  unfold State.passTime
  with_reducible refine Evolves.ite ?_ ?_
  · with_reducible refine Evolves.upd_mk rfl rfl rfl rfl rfl rfl rfl rfl rfl rfl rfl rfl rfl rfl rfl rfl rfl rfl rfl rfl rfl rfl rfl rfl rfl rfl rfl rfl ?_
    exact h
  · with_reducible refine Evolves.ite ?_ ?_
    · with_reducible refine Evolves.upd_mk rfl rfl rfl rfl rfl rfl rfl rfl rfl rfl rfl rfl rfl rfl rfl rfl rfl rfl rfl rfl rfl rfl rfl rfl rfl rfl rfl rfl ?_
      exact h
    · with_reducible refine Evolves.ite ?_ ?_
      · with_reducible refine Evolves.upd_mk rfl rfl rfl rfl rfl rfl rfl rfl rfl rfl rfl rfl rfl rfl rfl rfl rfl rfl rfl rfl rfl rfl rfl rfl rfl rfl rfl rfl ?_
        exact h
      · with_reducible refine Evolves.upd_mk rfl rfl rfl rfl rfl rfl rfl rfl rfl rfl rfl rfl rfl rfl rfl rfl rfl rfl rfl rfl rfl rfl rfl rfl rfl rfl rfl rfl ?_
        exact h

end Sys2Proof.Machine
end

