-- ==== Sys2Proof/Laws/EvolvesGates.lean ====
section
/-! SUPPORT. Laws/EvolvesGates.lean: every operation of reductions and votes evolves the state (Laws/Evolves.lean); one lemma for each. -/
namespace Sys2Proof.Machine

set_option Elab.async false
set_option linter.all false

variable {r : Bool}

theorem State.modGate_evolves {s₀ s} (a) (h : Evolves r s₀ s) : Evolves r s₀ (State.modGate s a) := by
  unfold State.modGate
  with_reducible refine Evolves.upd_mk rfl rfl rfl rfl rfl rfl rfl rfl rfl rfl rfl rfl rfl rfl rfl rfl rfl rfl rfl rfl rfl rfl rfl rfl rfl rfl rfl rfl ?_
  exact h

theorem State.sendEdge_evolves {s₀ s} (a b c) (h : Evolves r s₀ s) : Evolves r s₀ (State.sendEdge s a b c) := by
  unfold State.sendEdge
  extract_lets -underBinder -merge -useContext +onlyGivenNames v0
  try clear_value v0
  extract_lets -underBinder -merge -useContext +onlyGivenNames v1
  try clear_value v1
  with_reducible refine State.sendBy_evolves _ _ _ _ ?_
  exact h

theorem State.sendEdges_evolves {s₀ s} (a b c) (h : Evolves r s₀ s) : Evolves r s₀ (State.sendEdges s a b c) := by
  unfold State.sendEdges
  with_reducible refine Evolves.foldl (fun a0 x1 ha0 => ?_) ?_
  · with_reducible refine State.sendEdge_evolves _ _ _ ?_
    exact ha0
  · exact h

theorem State.ctlDown_evolves {s₀ s} (a) (h : Evolves r s₀ s) : Evolves r s₀ (State.ctlDown s a) := by
  unfold State.ctlDown
  split
  · with_reducible refine State.sendEdges_evolves _ _ _ ?_
    exact h
  · exact h

theorem State.ctlUp_evolves {s₀ s} (a) (h : Evolves r s₀ s) : Evolves r s₀ (State.ctlUp s a) := by
  unfold State.ctlUp
  split
  · split
    · with_reducible refine State.sendEdge_evolves _ _ _ ?_
      exact h
    · exact h
  · exact h

theorem State.modJob_evolves {s₀ s} (a b) (h : Evolves r s₀ s) : Evolves r s₀ (State.modJob s a b) := by
  unfold State.modJob
  with_reducible refine State.modGate_evolves _ ?_
  exact h

theorem State.modBlk_evolves {s₀ s} (a b c) (h : Evolves r s₀ s) : Evolves r s₀ (State.modBlk s a b c) := by
  unfold State.modBlk
  with_reducible refine State.modJob_evolves _ _ ?_
  exact h

theorem State.advanceJobs_evolves {s₀ s} (h : Evolves r s₀ s) : Evolves r s₀ (State.advanceJobs s) := by
  unfold State.advanceJobs
  split
  · with_reducible refine State.setReg_evolves _ _ _ ?_
    with_reducible refine State.modGate_evolves _ ?_
    exact h

theorem State.retireJob_evolves {s₀ s} (a b) (h : Evolves r s₀ s) : Evolves r s₀ (State.retireJob s a b) := by
  unfold State.retireJob
  extract_lets -underBinder -merge -useContext +onlyGivenNames v0
  have hv0 : Evolves r s₀ v0 := by
    with_reducible refine Evolves.ite ?_ ?_
    · with_reducible refine State.blockSignal_evolves _ _ _ _ _ ?_
      exact h
    · exact h
  try clear_value v0
  extract_lets -underBinder -merge -useContext +onlyGivenNames v1
  have hv1 : Evolves r s₀ v1 := by
    with_reducible refine Evolves.ite ?_ ?_
    · with_reducible refine State.notice_evolves _ _ _ ?_
      exact hv0
    · exact hv0
  try clear_value v1
  with_reducible refine State.advanceJobs_evolves ?_
  with_reducible refine State.modJob_evolves _ _ ?_
  exact hv1

theorem State.failJob_evolves {s₀ s} (a b) (h : Evolves r s₀ s) : Evolves r s₀ (State.failJob s a b) := by
  unfold State.failJob
  with_reducible refine State.cause_evolves _ ?_
  with_reducible refine State.raise_evolves _ _ _ _ _ _ ?_
  with_reducible refine State.retireJob_evolves _ _ ?_
  exact h

theorem State.redFlags_evolves {s₀ s} (a b) (h : Evolves r s₀ s) : Evolves r s₀ (State.redFlags s a b) := by
  unfold State.redFlags
  with_reducible refine State.orReg_evolves _ _ _ ?_
  exact h

theorem State.skewCheck_evolves {s₀ s} (a b) (h : Evolves r s₀ s) : Evolves r s₀ (State.skewCheck s a b).1 := by
  unfold State.skewCheck
  extract_lets -underBinder -merge -useContext +onlyGivenNames v0
  try clear_value v0
  extract_lets -underBinder -merge -useContext +onlyGivenNames v1
  try clear_value v1
  extract_lets -underBinder -merge -useContext +onlyGivenNames v2
  have hv2 : Evolves r s₀ v2 := by
    with_reducible refine Evolves.ite ?_ ?_
    · with_reducible refine State.setReg_evolves _ _ _ ?_
      exact h
    · exact h
  try clear_value v2
  with_reducible refine Evolves.mk_fst ?_
  with_reducible refine State.redFlags_evolves _ _ ?_
  exact hv2

theorem State.writeHold_evolves {s₀ s} (a b c) (h : Evolves r s₀ s) : Evolves r s₀ (State.writeHold s a b c) := by
  unfold State.writeHold
  with_reducible refine State.devWrite_evolves _ _ ?_
  exact h

theorem State.holdTotal_evolves {s₀ s} (a b c) (h : Evolves r s₀ s) : Evolves r s₀ (State.holdTotal s a b c) := by
  unfold State.holdTotal
  extract_lets -underBinder -merge -useContext +onlyGivenNames v0
  try clear_value v0
  extract_lets -underBinder -merge -useContext +onlyGivenNames v1
  have hv1 : Evolves r s₀ v1 := by
    with_reducible refine State.redFlags_evolves _ _ ?_
    with_reducible refine State.writeHold_evolves _ _ _ ?_
    exact h
  try clear_value v1
  extract_lets -underBinder -merge -useContext +onlyGivenNames v2
  have hv2 : Evolves r s₀ v2 := by
    with_reducible refine Evolves.ite ?_ ?_
    · with_reducible refine State.modGate_evolves _ ?_
      exact hv1
    · exact hv1
  try clear_value v2
  with_reducible refine State.modBlk_evolves _ _ _ ?_
  exact hv2

theorem State.doStretch_evolves {s₀ s} (a b c) (h : Evolves r s₀ s) : Evolves r s₀ (State.doStretch s a b c) := by
  unfold State.doStretch
  extract_lets -underBinder -merge -useContext +onlyGivenNames v0
  try clear_value v0
  with_reducible refine Evolves.ite ?_ ?_
  · exact h
  · extract_lets -underBinder -merge -useContext +onlyGivenNames v1
    try clear_value v1
    extract_lets -underBinder -merge -useContext +onlyGivenNames v2
    have hv2 : Evolves r s₀ v2 := by
      with_reducible refine State.redFlags_evolves _ _ ?_
      exact h
    try clear_value v2
    with_reducible refine Evolves.ite ?_ ?_
    · with_reducible refine State.holdTotal_evolves _ _ _ ?_
      exact hv2
    · extract_lets -underBinder -merge -useContext +onlyGivenNames v3
      have hv3 : Evolves r s₀ v3 := by
        with_reducible refine State.modBlk_evolves _ _ _ ?_
        exact hv2
      try clear_value v3
      split
      · with_reducible refine State.sendEdge_evolves _ _ _ ?_
        exact hv3
      · exact hv3

theorem State.writeWindow_evolves {s₀ s} (a b) (h : Evolves r s₀ s) : Evolves r s₀ (State.writeWindow s a b) := by
  unfold State.writeWindow
  split
  · extract_lets -underBinder -merge -useContext +onlyGivenNames v2
    try clear_value v2
    with_reducible refine Evolves.foldl (fun a3 x4 ha3 => ?_) ?_
    · extract_lets -underBinder -merge -useContext +onlyGivenNames v5
      try clear_value v5
      with_reducible refine Evolves.ite ?_ ?_
      · with_reducible refine State.devWrite_evolves _ _ ?_
        exact ha3
      · exact ha3
    · exact h

theorem State.finalBlock_evolves {s₀ s} (a b c) (h : Evolves r s₀ s) : Evolves r s₀ (State.finalBlock s a b c) := by
  unfold State.finalBlock
  split
  · rename_i w0 w1 e2
    have hw0 : Evolves r s₀ w0 := Evolves.of_pair e2 (by
      with_reducible refine State.skewCheck_evolves _ _ ?_
      exact h)
    extract_lets -underBinder -merge -useContext +onlyGivenNames v3
    have hv3 : Evolves r s₀ v3 := by
      with_reducible refine State.modGate_evolves _ ?_
      exact hw0
    try clear_value v3
    extract_lets -underBinder -merge -useContext +onlyGivenNames v4
    have hv4 : Evolves r s₀ v4 := by
      with_reducible refine State.writeWindow_evolves _ _ ?_
      exact hv3
    try clear_value v4
    extract_lets -underBinder -merge -useContext +onlyGivenNames v5
    have hv5 : Evolves r s₀ v5 := by
      with_reducible refine State.modBlk_evolves _ _ _ ?_
      exact hv4
    try clear_value v5
    with_reducible refine State.sendEdges_evolves _ _ _ ?_
    exact hv5

theorem State.doReplica_evolves {s₀ s} (a b c) (h : Evolves r s₀ s) : Evolves r s₀ (State.doReplica s a b c) := by
  unfold State.doReplica
  extract_lets -underBinder -merge -useContext +onlyGivenNames v0
  try clear_value v0
  extract_lets -underBinder -merge -useContext +onlyGivenNames v1
  try clear_value v1
  with_reducible refine Evolves.ite ?_ ?_
  · exact h
  · extract_lets -underBinder -merge -useContext +onlyGivenNames v2
    try clear_value v2
    extract_lets -underBinder -merge -useContext +onlyGivenNames v3
    have hv3 : Evolves r s₀ v3 := by
      with_reducible refine State.modBlk_evolves _ _ _ ?_
      with_reducible refine State.redFlags_evolves _ _ ?_
      exact h
    try clear_value v3
    split
    · with_reducible refine State.sendEdge_evolves _ _ _ ?_
      exact hv3
    · split
      · with_reducible refine State.finalBlock_evolves _ _ _ ?_
        exact hv3
      · exact hv3

theorem State.progress_evolves {s₀ s} (a b) (h : Evolves r s₀ s) : Evolves r s₀ (State.progress s a b) := by
  unfold State.progress
  split
  · exact h
  · split
    · exact h
    · extract_lets -underBinder -merge -useContext +onlyGivenNames v4
      have hv4 : Evolves r s₀ v4 := by
        with_reducible refine State.doStretch_evolves _ _ _ ?_
        exact h
      try clear_value v4
      split
      · with_reducible refine State.doReplica_evolves _ _ _ ?_
        exact hv4
      · exact hv4

theorem State.showDeadline_evolves {s₀ s} (h : Evolves r s₀ s) : Evolves r s₀ (State.showDeadline s) := by
  unfold State.showDeadline
  extract_lets -underBinder -merge -useContext +onlyGivenNames v0
  have hv0 : Evolves r s₀ v0 := by
    with_reducible refine State.setReg_evolves _ _ _ ?_
    exact h
  try clear_value v0
  extract_lets -underBinder -merge -useContext +onlyGivenNames v1
  try clear_value v1
  with_reducible refine State.setReg_evolves _ _ _ ?_
  with_reducible refine State.setReg_evolves _ _ _ ?_
  exact hv0

theorem State.applyGo_evolves {s₀ s} (a) (h : Evolves r s₀ s) : Evolves r s₀ (State.applyGo s a) := by
  unfold State.applyGo
  extract_lets -underBinder -merge -useContext +onlyGivenNames v0
  have hv0 : Evolves r s₀ v0 := by
    with_reducible refine State.modGate_evolves _ ?_
    exact h
  try clear_value v0
  extract_lets -underBinder -merge -useContext +onlyGivenNames v1
  try clear_value v1
  extract_lets -underBinder -merge -useContext +onlyGivenNames v2
  try clear_value v2
  extract_lets -underBinder -merge -useContext +onlyGivenNames v3
  have hv3 : Evolves r s₀ v3 := by
    with_reducible refine State.setReg_evolves _ _ _ ?_
    with_reducible refine State.setReg_evolves _ _ _ ?_
    exact hv0
  try clear_value v3
  extract_lets -underBinder -merge -useContext +onlyGivenNames v4
  have hv4 : Evolves r s₀ v4 := by
    with_reducible refine Evolves.ite ?_ ?_
    · with_reducible refine Evolves.foldl (fun a5 x6 ha5 => ?_) ?_
      · with_reducible refine Evolves.foldl (fun a7 x8 ha7 => ?_) ?_
        · split
          · with_reducible refine Evolves.ite ?_ ?_
            · with_reducible refine State.holdTotal_evolves _ _ _ ?_
              exact ha7
            · exact ha7
          · exact ha7
        · exact ha5
      · exact hv3
    · exact hv3
  try clear_value v4
  extract_lets -underBinder -merge -useContext +onlyGivenNames v13
  have hv13 : Evolves r s₀ v13 := by
    with_reducible refine State.ctlDown_evolves _ ?_
    exact hv4
  try clear_value v13
  with_reducible refine Evolves.foldl (fun a14 x15 ha14 => ?_) ?_
  · with_reducible refine Evolves.foldl (fun a16 x17 ha16 => ?_) ?_
    · with_reducible refine State.progress_evolves _ _ ?_
      exact ha16
    · exact ha14
  · exact hv13

theorem State.fixSet_evolves {s₀ s} (h : Evolves r s₀ s) : Evolves r s₀ (State.fixSet s) := by
  unfold State.fixSet
  extract_lets -underBinder -merge -useContext +onlyGivenNames v0
  try clear_value v0
  extract_lets -underBinder -merge -useContext +onlyGivenNames v1
  try clear_value v1
  extract_lets -underBinder -merge -useContext +onlyGivenNames v2
  try clear_value v2
  extract_lets -underBinder -merge -useContext +onlyGivenNames v3
  extract_lets -underBinder -merge -useContext +onlyGivenNames v4
  try clear_value v4
  extract_lets -underBinder -merge -useContext +onlyGivenNames v5
  try clear_value v5
  extract_lets -underBinder -merge -useContext +onlyGivenNames v6
  try clear_value v6
  extract_lets -underBinder -merge -useContext +onlyGivenNames v7
  have hv7 : Evolves r s₀ v7 := by
    with_reducible refine Evolves.foldl (fun a8 x9 ha8 => ?_) ?_
    · extract_lets -underBinder -merge -useContext +onlyGivenNames v10
      have hv10 : Evolves r s₀ v10 := by
        with_reducible refine State.raise_evolves _ _ _ _ _ _ ?_
        exact ha8
      try clear_value v10
      with_reducible refine Evolves.ite ?_ ?_
      · with_reducible refine State.raise_evolves _ _ _ _ _ _ ?_
        exact hv10
      · exact hv10
    · exact h
  try clear_value v7
  with_reducible refine State.applyGo_evolves _ ?_
  exact hv7

theorem State.tryFix_evolves {s₀ s} (h : Evolves r s₀ s) : Evolves r s₀ (State.tryFix s) := by
  unfold State.tryFix
  extract_lets -underBinder -merge -useContext +onlyGivenNames v0
  try clear_value v0
  with_reducible refine Evolves.ite ?_ ?_
  · exact h
  · with_reducible refine Evolves.ite ?_ ?_
    · with_reducible refine State.fixSet_evolves ?_
      exact h
    · split
      · with_reducible refine Evolves.ite ?_ ?_
        · with_reducible refine State.fixSet_evolves ?_
          exact h
        · exact h
      · exact h

theorem State.takeReady_evolves {s₀ s} (a b c) (h : Evolves r s₀ s) : Evolves r s₀ (State.takeReady s a b c) := by
  unfold State.takeReady
  with_reducible refine Evolves.ite ?_ ?_
  · with_reducible refine Evolves.ite ?_ ?_
    · with_reducible refine State.tryFix_evolves ?_
      with_reducible refine State.modGate_evolves _ ?_
      exact h
    · exact h
  · with_reducible refine State.ctlUp_evolves _ ?_
    exact h

theorem State.countStretch_evolves {s₀ s} (h : Evolves r s₀ s) : Evolves r s₀ (State.countStretch s) := by
  unfold State.countStretch
  extract_lets -underBinder -merge -useContext +onlyGivenNames v0
  extract_lets -underBinder -merge -useContext +onlyGivenNames v1
  try clear_value v1
  extract_lets -underBinder -merge -useContext +onlyGivenNames v2
  have hv2 : Evolves r s₀ v2 := by
    with_reducible refine State.modGate_evolves _ ?_
    exact h
  try clear_value v2
  extract_lets -underBinder -merge -useContext +onlyGivenNames v3
  try clear_value v3
  with_reducible refine Evolves.ite ?_ ?_
  · with_reducible refine State.takeReady_evolves _ _ _ ?_
    with_reducible refine State.modGate_evolves _ ?_
    exact hv2
  · exact hv2

theorem State.useBlock_evolves {s₀ s} (a b) (h : Evolves r s₀ s) : Evolves r s₀ (State.useBlock s a b) := by
  unfold State.useBlock
  split
  · exact h
  · with_reducible refine Evolves.ite ?_ ?_
    · exact h
    · with_reducible refine Evolves.ite ?_ ?_
      · split
        · with_reducible refine Evolves.ite ?_ ?_
          · with_reducible refine State.finalBlock_evolves _ _ _ ?_
            exact h
          · exact h
        · exact h
      · split
        · exact h
        · with_reducible refine Evolves.ite ?_ ?_
          · exact h
          · split
            · rename_i w7 w8 e9
              have hw7 : Evolves r s₀ w7 := Evolves.of_pair e9 (by
                with_reducible refine State.skewCheck_evolves _ _ ?_
                exact h)
              with_reducible refine State.countStretch_evolves ?_
              with_reducible refine State.progress_evolves _ _ ?_
              with_reducible refine State.modBlk_evolves _ _ _ ?_
              exact hw7

theorem State.recvBlock_evolves {s₀ s} (a b c) (h : Evolves r s₀ s) : Evolves r s₀ (State.recvBlock s a b c) := by
  unfold State.recvBlock
  with_reducible refine Evolves.ite ?_ ?_
  · exact h
  · with_reducible refine Evolves.ite ?_ ?_
    · with_reducible refine State.bump_evolves _ _ _ ?_
      with_reducible refine State.consumed_evolves _ ?_
      exact h
    · split
      · with_reducible refine State.useBlock_evolves _ _ ?_
        with_reducible refine State.consumed_evolves _ ?_
        exact h
      · with_reducible refine Evolves.ite ?_ ?_
        · with_reducible refine State.modGate_evolves _ ?_
          with_reducible refine State.consumed_evolves _ ?_
          exact h
        · exact h

theorem State.useStored_evolves {s₀ s} (a) (h : Evolves r s₀ s) : Evolves r s₀ (State.useStored s a) := by
  unfold State.useStored
  with_reducible refine Evolves.foldl (fun a0 x1 ha0 => ?_) ?_
  · split
    · with_reducible refine Evolves.ite ?_ ?_
      · with_reducible refine State.useBlock_evolves _ _ ?_
        with_reducible refine State.modGate_evolves _ ?_
        exact ha0
      · exact ha0
    · exact ha0
  · exact h

theorem State.tryVote_evolves {s₀ s} (h : Evolves r s₀ s) : Evolves r s₀ (State.tryVote s) := by
  unfold State.tryVote
  split
  · extract_lets -underBinder -merge -useContext +onlyGivenNames v2
    try clear_value v2
    with_reducible refine Evolves.ite ?_ ?_
    · exact h
    · extract_lets -underBinder -merge -useContext +onlyGivenNames v3
      try clear_value v3
      extract_lets -underBinder -merge -useContext +onlyGivenNames v4
      have hv4 : Evolves r s₀ v4 := by
        with_reducible refine State.modGate_evolves _ ?_
        exact h
      try clear_value v4
      with_reducible refine Evolves.ite ?_ ?_
      · extract_lets -underBinder -merge -useContext +onlyGivenNames v5
        try clear_value v5
        extract_lets -underBinder -merge -useContext +onlyGivenNames v6
        have hv6 : Evolves r s₀ v6 := by
          with_reducible refine State.modGate_evolves _ ?_
          exact hv4
        try clear_value v6
        with_reducible refine State.ctlDown_evolves _ ?_
        with_reducible refine State.showDeadline_evolves ?_
        exact hv6
      · with_reducible refine State.ctlUp_evolves _ ?_
        exact hv4
  · exact h

theorem State.drainCtl_evolves {s₀ s} (h : Evolves r s₀ s) : Evolves r s₀ (State.drainCtl s) := by
  unfold State.drainCtl
  with_reducible refine Evolves.ite ?_ ?_
  · exact h
  · with_reducible refine Evolves.foldl (fun a0 x1 ha0 => ?_) ?_
    · split
      · extract_lets -underBinder -merge -useContext +onlyGivenNames v3
        have hv3 : Evolves r s₀ v3 := by
          with_reducible refine State.modGate_evolves _ ?_
          exact ha0
        try clear_value v3
        with_reducible refine State.tryVote_evolves ?_
        exact hv3
      · extract_lets -underBinder -merge -useContext +onlyGivenNames v5
        try clear_value v5
        extract_lets -underBinder -merge -useContext +onlyGivenNames v6
        try clear_value v6
        with_reducible refine State.sendEdges_evolves _ _ _ ?_
        exact ha0
    · with_reducible refine Evolves.upd_mk rfl rfl rfl rfl rfl rfl rfl rfl rfl rfl rfl rfl rfl rfl rfl rfl rfl rfl rfl rfl rfl rfl rfl rfl rfl rfl rfl rfl ?_
      exact h

theorem State.gateLedger_evolves {s₀ s} (h : Evolves r s₀ s) : Evolves r s₀ (State.gateLedger s) := by
  unfold State.gateLedger
  extract_lets -underBinder -merge -useContext +onlyGivenNames v0
  try clear_value v0
  extract_lets -underBinder -merge -useContext +onlyGivenNames v1
  try clear_value v1
  extract_lets -underBinder -merge -useContext +onlyGivenNames v2
  try clear_value v2
  extract_lets -underBinder -merge -useContext +onlyGivenNames v3
  try clear_value v3
  extract_lets -underBinder -merge -useContext +onlyGivenNames v4
  try clear_value v4
  extract_lets -underBinder -merge -useContext +onlyGivenNames v5 v6 v7 v8
  try clear_value v5
  try clear_value v6
  try clear_value v7
  try clear_value v8
  with_reducible refine Evolves.upd_mk rfl rfl rfl rfl rfl rfl rfl rfl rfl rfl rfl rfl rfl rfl rfl rfl rfl rfl rfl rfl rfl rfl rfl rfl rfl rfl rfl rfl ?_
  exact h

theorem State.clearRedFlags_evolves {s₀ s} (a) (h : Evolves r s₀ s) : Evolves r s₀ (State.clearRedFlags s a) := by
  unfold State.clearRedFlags
  extract_lets -underBinder -merge -useContext +onlyGivenNames v0
  try clear_value v0
  with_reducible refine State.setReg_evolves _ _ _ ?_
  with_reducible refine State.setReg_evolves _ _ _ ?_
  exact h

theorem State.gateCommit_evolves {s₀ s} (a) (h : Evolves r s₀ s) : Evolves r s₀ (State.gateCommit s a) := by
  unfold State.gateCommit
  extract_lets -underBinder -merge -useContext +onlyGivenNames v0
  try clear_value v0
  extract_lets -underBinder -merge -useContext +onlyGivenNames v1
  try clear_value v1
  extract_lets -underBinder -merge -useContext +onlyGivenNames v2
  try clear_value v2
  extract_lets -underBinder -merge -useContext +onlyGivenNames v3
  try clear_value v3
  extract_lets -underBinder -merge -useContext +onlyGivenNames v4
  try clear_value v4
  extract_lets -underBinder -merge -useContext +onlyGivenNames v5
  have hv5 : Evolves r s₀ v5 := by
    with_reducible refine State.modGate_evolves _ ?_
    exact h
  try clear_value v5
  extract_lets -underBinder -merge -useContext +onlyGivenNames v6
  have hv6 : Evolves r s₀ v6 := by
    with_reducible refine State.setFld_evolves _ _ _ _ _ ?_
    with_reducible refine State.setFld_evolves _ _ _ _ _ ?_
    exact hv5
  try clear_value v6
  with_reducible refine State.showDeadline_evolves ?_
  with_reducible refine State.clearRedFlags_evolves _ ?_
  exact hv6

theorem State.gateSquash_evolves {s₀ s} (a) (h : Evolves r s₀ s) : Evolves r s₀ (State.gateSquash s a) := by
  unfold State.gateSquash
  extract_lets -underBinder -merge -useContext +onlyGivenNames v0
  extract_lets -underBinder -merge -useContext +onlyGivenNames v1
  try clear_value v1
  extract_lets -underBinder -merge -useContext +onlyGivenNames v2
  try clear_value v2
  extract_lets -underBinder -merge -useContext +onlyGivenNames v3
  try clear_value v3
  extract_lets -underBinder -merge -useContext +onlyGivenNames v4
  try clear_value v4
  extract_lets -underBinder -merge -useContext +onlyGivenNames v5
  have hv5 : Evolves r s₀ v5 := by
    with_reducible refine State.modGate_evolves _ ?_
    exact h
  try clear_value v5
  extract_lets -underBinder -merge -useContext +onlyGivenNames v6
  have hv6 : Evolves r s₀ v6 := by
    with_reducible refine State.setFld_evolves _ _ _ _ _ ?_
    exact hv5
  try clear_value v6
  with_reducible refine State.advanceJobs_evolves ?_
  with_reducible refine State.clearRedFlags_evolves _ ?_
  with_reducible refine State.clearRedFlags_evolves _ ?_
  with_reducible refine State.setFld_evolves _ _ _ _ _ ?_
  exact hv6

theorem gatJobTailWrite_evolves {s₀ s} (a) (h : Evolves r s₀ s) : Evolves r s₀ (gatJobTailWrite a s) := by
  unfold gatJobTailWrite
  extract_lets -underBinder -merge -useContext +onlyGivenNames v0
  try clear_value v0
  with_reducible refine Evolves.ite ?_ ?_
  · with_reducible refine State.setReg_evolves _ _ _ ?_
    exact h
  · exact h

theorem execGatJobTailWrite_evolves {s₀ s t} (a b) (he : execGatJobTailWrite a b s = .next t) (h : Evolves r s₀ s) : Evolves r s₀ t := by
  unfold execGatJobTailWrite at he
  cases he
  with_reducible refine State.onWrite_evolves _ _ _ _ (fun y0 hy0 => ?_) ?_
  · with_reducible refine gatJobTailWrite_evolves _ ?_
    exact hy0
  · exact h

theorem State.takeJob_evolves {s₀ s} (a) (h : Evolves r s₀ s) : Evolves r s₀ (State.takeJob s a) := by
  unfold State.takeJob
  extract_lets -underBinder -merge -useContext +onlyGivenNames v0
  try clear_value v0
  extract_lets -underBinder -merge -useContext +onlyGivenNames v1
  have hv1 : Evolves r s₀ v1 := by
    with_reducible refine State.modGate_evolves _ ?_
    exact h
  try clear_value v1
  extract_lets -underBinder -merge -useContext +onlyGivenNames v2
  have hv2 : ∀ z3 z4 z5 z6, Evolves r s₀ z3 → Evolves r s₀ (v2 z3 z4 z5 z6) := by
    intro z3 z4 z5 z6 hz3
    dsimp only [v2]
    with_reducible refine State.modGate_evolves _ ?_
    exact hz3
  clear_value v2
  with_reducible refine Evolves.ite ?_ ?_
  · with_reducible refine State.cause_evolves _ ?_
    with_reducible refine State.raise_evolves _ _ _ _ _ _ ?_
    with_reducible refine State.advanceJobs_evolves ?_
    with_reducible refine State.modJob_evolves _ _ ?_
    with_reducible refine hv2 _ _ _ _ ?_
    exact hv1
  · extract_lets -underBinder -merge -useContext +onlyGivenNames v7
    try clear_value v7
    extract_lets -underBinder -merge -useContext +onlyGivenNames v8
    try clear_value v8
    extract_lets -underBinder -merge -useContext +onlyGivenNames v9
    try clear_value v9
    extract_lets -underBinder -merge -useContext +onlyGivenNames v10
    have hv10 : Evolves r s₀ v10 := by
      with_reducible refine hv2 _ _ _ _ ?_
      exact hv1
    try clear_value v10
    with_reducible refine Evolves.ite ?_ ?_
    · with_reducible refine State.failJob_evolves _ _ ?_
      exact hv10
    · extract_lets -underBinder -merge -useContext +onlyGivenNames v11
      try clear_value v11
      split
      · rename_i w12 w13 e14
        have hw12 : Evolves r s₀ w12 := Evolves.of_pair e14 (by
          with_reducible refine State.readLines_evolves _ _ _ ?_
          exact hv10)
        with_reducible refine Evolves.ite ?_ ?_
        · with_reducible refine State.failJob_evolves _ _ ?_
          exact hw12
        · extract_lets -underBinder -merge -useContext +onlyGivenNames v15
          have hv15 : Evolves r s₀ v15 := by
            with_reducible refine State.farTouch_evolves _ _ _ ?_
            exact hw12
          try clear_value v15
          extract_lets -underBinder -merge -useContext +onlyGivenNames v16
          have hv16 : Evolves r s₀ v16 := by
            with_reducible refine Evolves.foldl (fun a17 x18 ha17 => ?_) ?_
            · with_reducible refine State.progress_evolves _ _ ?_
              exact ha17
            · exact hv15
          try clear_value v16
          with_reducible refine State.countStretch_evolves ?_
          with_reducible refine State.useStored_evolves _ ?_
          exact hv16

theorem execJobTake_evolves {s₀ s t} (a) (he : execJobTake a s = .next t) (h : Evolves r s₀ s) : Evolves r s₀ t := by
  unfold execJobTake at he
  cases he
  with_reducible refine Evolves.ite ?_ ?_
  · exact h
  · split
    · exact h
    · extract_lets -underBinder -merge -useContext +onlyGivenNames v2
      try clear_value v2
      with_reducible refine Evolves.ite ?_ ?_
      · exact h
      · with_reducible refine State.drainCtl_evolves ?_
        with_reducible refine State.takeJob_evolves _ ?_
        exact h

theorem execRedUp_evolves {s₀ s t} (a) (he : execRedUp a s = .next t) (h : Evolves r s₀ s) : Evolves r s₀ t := by
  unfold execRedUp at he
  cases he
  split
  · with_reducible refine State.drainCtl_evolves ?_
    with_reducible refine State.recvBlock_evolves _ _ _ ?_
    exact h
  · exact h

theorem execRedDn_evolves {s₀ s t} (a) (he : execRedDn a s = .next t) (h : Evolves r s₀ s) : Evolves r s₀ t := by
  unfold execRedDn at he
  cases he
  split
  · with_reducible refine State.drainCtl_evolves ?_
    with_reducible refine State.recvBlock_evolves _ _ _ ?_
    exact h
  · exact h

theorem State.jobDone_evolves {s₀ s} (a b c) (h : Evolves r s₀ s) : Evolves r s₀ (State.jobDone s a b c) := by
  unfold State.jobDone
  extract_lets -underBinder -merge -useContext +onlyGivenNames v0
  have hv0 : Evolves r s₀ v0 := by
    with_reducible refine Evolves.foldl (fun a1 x2 ha1 => ?_) ?_
    · extract_lets -underBinder -merge -useContext +onlyGivenNames v3
      try clear_value v3
      with_reducible refine State.devPut_evolves _ _ _ ?_
      with_reducible refine State.devPut_evolves _ _ _ ?_
      exact ha1
    · exact h
  try clear_value v0
  extract_lets -underBinder -merge -useContext +onlyGivenNames v4
  have hv4 : Evolves r s₀ v4 := by
    with_reducible refine Evolves.ite ?_ ?_
    · exact hv0
    · with_reducible refine State.devPut_evolves _ _ _ ?_
      exact hv0
  try clear_value v4
  extract_lets -underBinder -merge -useContext +onlyGivenNames v5
  have hv5 : Evolves r s₀ v5 := by
    with_reducible refine State.farTouch_evolves _ _ _ ?_
    exact hv4
  try clear_value v5
  with_reducible refine State.drainCtl_evolves ?_
  with_reducible refine State.retireJob_evolves _ _ ?_
  exact hv5

theorem execJobComplete_evolves {s₀ s t} (a) (he : execJobComplete a s = .next t) (h : Evolves r s₀ s) : Evolves r s₀ t := by
  unfold execJobComplete at he
  cases he
  split
  · exact h
  · extract_lets -underBinder -merge -useContext +onlyGivenNames v2
    try clear_value v2
    with_reducible refine Evolves.ite ?_ ?_
    · exact h
    · with_reducible refine State.jobDone_evolves _ _ _ ?_
      exact h

theorem execReady_evolves {s₀ s t} (a) (he : execReady a s = .next t) (h : Evolves r s₀ s) : Evolves r s₀ t := by
  unfold execReady at he
  cases he
  split
  · with_reducible refine Evolves.ite ?_ ?_
    · with_reducible refine State.drainCtl_evolves ?_
      with_reducible refine State.takeReady_evolves _ _ _ ?_
      with_reducible refine State.consumed_evolves _ ?_
      exact h
    · exact h
  · exact h

theorem execDeadline_evolves {s₀ s t} (he : execDeadline s = .next t) (h : Evolves r s₀ s) : Evolves r s₀ t := by
  unfold execDeadline at he
  cases he
  with_reducible refine State.tryVote_evolves ?_
  with_reducible refine State.tryFix_evolves ?_
  exact h

theorem execGo_evolves {s₀ s t} (a) (he : execGo a s = .next t) (h : Evolves r s₀ s) : Evolves r s₀ t := by
  unfold execGo at he
  cases he
  split
  · with_reducible refine Evolves.ite ?_ ?_
    · exact h
    · with_reducible refine Evolves.ite ?_ ?_
      · with_reducible refine State.consumed_evolves _ ?_
        exact h
      · with_reducible refine State.drainCtl_evolves ?_
        with_reducible refine State.tryVote_evolves ?_
        with_reducible refine State.countStretch_evolves ?_
        with_reducible refine State.applyGo_evolves _ ?_
        with_reducible refine State.consumed_evolves _ ?_
        exact h
  · exact h

theorem execVote_evolves {s₀ s t} (a) (he : execVote a s = .next t) (h : Evolves r s₀ s) : Evolves r s₀ t := by
  unfold execVote at he
  cases he
  split
  · with_reducible refine Evolves.ite ?_ ?_
    · exact h
    · extract_lets -underBinder -merge -useContext +onlyGivenNames v3
      have hv3 : Evolves r s₀ v3 := by
        with_reducible refine State.consumed_evolves _ ?_
        exact h
      try clear_value v3
      split
      · with_reducible refine Evolves.ite ?_ ?_
        · exact hv3
        · with_reducible refine State.tryVote_evolves ?_
          with_reducible refine State.modGate_evolves _ ?_
          exact hv3
      · exact hv3
  · exact h

theorem execSquashNotice_evolves {s₀ s t} (a) (he : execSquashNotice a s = .next t) (h : Evolves r s₀ s) : Evolves r s₀ t := by
  unfold execSquashNotice at he
  cases he
  split
  · with_reducible refine Evolves.ite ?_ ?_
    · exact h
    · extract_lets -underBinder -merge -useContext +onlyGivenNames v2
      have hv2 : Evolves r s₀ v2 := by
        with_reducible refine State.consumed_evolves _ ?_
        exact h
      try clear_value v2
      with_reducible refine Evolves.ite ?_ ?_
      · exact hv2
      · extract_lets -underBinder -merge -useContext +onlyGivenNames v3
        have hv3 : Evolves r s₀ v3 := by
          with_reducible refine Evolves.ite ?_ ?_
          · with_reducible refine State.showDeadline_evolves ?_
            with_reducible refine State.modGate_evolves _ ?_
            exact hv2
          · exact hv2
        try clear_value v3
        extract_lets -underBinder -merge -useContext +onlyGivenNames v4
        have hv4 : Evolves r s₀ v4 := by
          with_reducible refine Evolves.ite ?_ ?_
          · exact hv3
          · with_reducible refine State.modGate_evolves _ ?_
            exact hv3
        try clear_value v4
        with_reducible refine State.drainCtl_evolves ?_
        with_reducible refine State.cause_evolves _ ?_
        exact hv4
  · exact h

end Sys2Proof.Machine
end

