-- ==== Sys2Proof/Laws/EvolvesStep.lean ====
section
/-! SUPPORT. Laws/EvolvesStep.lean: every operation of the step controller evolves the state (Laws/Evolves.lean); one lemma for each. -/
namespace Sys2Proof.Machine

set_option Elab.async false
set_option linter.all false

variable {r : Bool}

theorem State.modStep_evolves {s₀ s} (a) (h : Evolves r s₀ s) : Evolves r s₀ (State.modStep s a) := by
  unfold State.modStep
  with_reducible refine Evolves.upd_mk rfl rfl rfl rfl rfl rfl rfl rfl rfl rfl rfl rfl rfl rfl rfl rfl rfl rfl rfl rfl rfl rfl rfl rfl rfl rfl rfl rfl ?_
  exact h

theorem State.enterFwd_evolves {s₀ s} (h : Evolves r s₀ s) : Evolves r s₀ (State.enterFwd s) := by
  unfold State.enterFwd
  extract_lets -underBinder -merge -useContext +onlyGivenNames v0
  extract_lets -underBinder -merge -useContext +onlyGivenNames v1 v2
  try clear_value v1
  try clear_value v2
  with_reducible refine State.setPhase_evolves _ ?_
  with_reducible refine Evolves.upd_mk rfl rfl rfl rfl rfl rfl rfl rfl rfl rfl rfl rfl rfl rfl rfl rfl rfl rfl rfl rfl rfl rfl rfl rfl rfl rfl rfl rfl ?_
  exact h

theorem State.stpSignal_evolves {s₀ s} (h : Evolves r s₀ s) : Evolves r s₀ (State.stpSignal s) := by
  unfold State.stpSignal
  extract_lets -underBinder -merge -useContext +onlyGivenNames v0
  try clear_value v0
  with_reducible refine Evolves.ite ?_ ?_
  · with_reducible refine State.blockSignal_evolves _ _ _ _ _ ?_
    exact h
  · exact h

theorem State.eachTile_evolves {s₀ s} (a) (ha : ∀ x0 x1, Evolves r s₀ x0 → Evolves r s₀ (a x0 x1)) (h : Evolves r s₀ s) : Evolves r s₀ (State.eachTile s a) := by
  unfold State.eachTile
  with_reducible refine Evolves.foldl (fun a0 x1 ha0 => ?_) ?_
  · with_reducible refine ha _ _ ?_
    exact ha0
  · exact h

theorem State.clearNumFlags_evolves {s₀ s} (a) (h : Evolves r s₀ s) : Evolves r s₀ (State.clearNumFlags s a) := by
  unfold State.clearNumFlags
  with_reducible refine State.eachTile_evolves _ (fun y0 y1 hy0 => ?_) ?_
  · with_reducible refine State.setFld_evolves _ _ _ _ _ ?_
    exact hy0
  · exact h

theorem State.clearEvc_evolves {s₀ s} (a b) (h : Evolves r s₀ s) : Evolves r s₀ (State.clearEvc s a b) := by
  unfold State.clearEvc
  with_reducible refine Evolves.foldl (fun a0 x1 ha0 => ?_) ?_
  · with_reducible refine Evolves.ite ?_ ?_
    · exact ha0
    · with_reducible refine State.setReg_evolves _ _ _ ?_
      exact ha0
  · exact h

theorem State.clearMap_evolves {s₀ s} (h : Evolves r s₀ s) : Evolves r s₀ (State.clearMap s) := by
  unfold State.clearMap
  with_reducible refine State.setReg_evolves _ _ _ ?_
  with_reducible refine Evolves.foldl (fun a0 x1 ha0 => ?_) ?_
  · with_reducible refine State.setReg_evolves _ _ _ ?_
    exact ha0
  · exact h

theorem State.clearStaged_evolves {s₀ s} (h : Evolves r s₀ s) : Evolves r s₀ (State.clearStaged s) := by
  unfold State.clearStaged
  with_reducible refine State.modStep_evolves _ ?_
  with_reducible refine Evolves.foldl (fun a0 x1 ha0 => ?_) ?_
  · with_reducible refine State.overRec_evolves _ _ _ (fun y2 hy2 => ?_) ?_
    · extract_lets -underBinder -merge -useContext +onlyGivenNames v3
      try clear_value v3
      with_reducible refine Evolves.ite ?_ ?_
      · with_reducible refine State.devPut_evolves _ _ _ ?_
        exact hy2
      · exact hy2
    · exact ha0
  · exact h

theorem State.excise_evolves {s₀ s} (a) (h : Evolves r s₀ s) : Evolves r s₀ (State.excise s a) := by
  unfold State.excise
  extract_lets -underBinder -merge -useContext +onlyGivenNames v0
  have hv0 : Evolves r s₀ v0 := by
    with_reducible refine State.orReg_evolves _ _ _ ?_
    exact h
  try clear_value v0
  extract_lets -underBinder -merge -useContext +onlyGivenNames v1
  have hv1 : Evolves r s₀ v1 := by
    with_reducible refine State.eachTile_evolves _ (fun y2 y3 hy2 => ?_) ?_
    · with_reducible refine State.exciseTile_evolves _ ?_
      with_reducible refine State.setFld_evolves _ _ _ _ _ ?_
      exact hy2
    · exact hv0
  try clear_value v1
  extract_lets -underBinder -merge -useContext +onlyGivenNames v4
  try clear_value v4
  extract_lets -underBinder -merge -useContext +onlyGivenNames v5
  have hv5 : Evolves r s₀ v5 := by
    with_reducible refine State.setFld_evolves _ _ _ _ _ ?_
    with_reducible refine State.bump_evolves _ _ _ ?_
    with_reducible refine State.notice_evolves _ _ _ ?_
    exact hv1
  try clear_value v5
  with_reducible refine Evolves.ite ?_ ?_
  · with_reducible refine State.cause_evolves _ ?_
    exact hv5
  · exact hv5

theorem State.decide1_evolves {s₀ s} (h : Evolves r s₀ s) : Evolves r s₀ (State.decide1 s) := by
  unfold State.decide1
  extract_lets -underBinder -merge -useContext +onlyGivenNames v0
  try clear_value v0
  extract_lets -underBinder -merge -useContext +onlyGivenNames v1
  try clear_value v1
  with_reducible refine Evolves.ite ?_ ?_
  · exact h
  · with_reducible refine Evolves.ite ?_ ?_
    · with_reducible refine State.cause_evolves _ ?_
      with_reducible refine State.ctlPoison_evolves _ _ ?_
      exact h
    · extract_lets -underBinder -merge -useContext +onlyGivenNames v2
      try clear_value v2
      extract_lets -underBinder -merge -useContext +onlyGivenNames v3
      try clear_value v3
      with_reducible refine Evolves.ite ?_ ?_
      · with_reducible refine State.cause_evolves _ ?_
        with_reducible refine State.raise_evolves _ _ _ _ _ _ ?_
        exact h
      · with_reducible refine Evolves.ite ?_ ?_
        · with_reducible refine State.setFld_evolves _ _ _ _ _ ?_
          with_reducible refine State.modStep_evolves _ ?_
          exact h
        · with_reducible refine Evolves.ite ?_ ?_
          · extract_lets -underBinder -merge -useContext +onlyGivenNames v4
            have hv4 : Evolves r s₀ v4 := by
              with_reducible refine State.excise_evolves _ ?_
              exact h
            try clear_value v4
            with_reducible refine Evolves.ite ?_ ?_
            · exact hv4
            · with_reducible refine State.setFld_evolves _ _ _ _ _ ?_
              exact hv4
          · with_reducible refine State.cause_evolves _ ?_
            exact h

theorem State.decideN_evolves {s₀ s} (a) (h : Evolves r s₀ s) : Evolves r s₀ (State.decideN a s) := by
  unfold State.decideN
  split
  · exact (by assumption)
  · with_reducible refine State.decideN_evolves _ ?_
    with_reducible refine State.decide1_evolves ?_
    exact (by assumption)

theorem State.decideDue_evolves {s₀ s} (h : Evolves r s₀ s) : Evolves r s₀ (State.decideDue s) := by
  unfold State.decideDue
  with_reducible refine State.decideN_evolves _ ?_
  exact h

theorem State.beginFwd_evolves {s₀ s} (h : Evolves r s₀ s) : Evolves r s₀ (State.beginFwd s) := by
  unfold State.beginFwd
  with_reducible refine State.decideDue_evolves ?_
  with_reducible refine State.enterFwd_evolves ?_
  exact h

theorem State.stpStart_evolves {s₀ s} (h : Evolves r s₀ s) : Evolves r s₀ (State.stpStart s) := by
  unfold State.stpStart
  with_reducible refine State.beginFwd_evolves ?_
  with_reducible refine State.modStep_evolves _ ?_
  exact h

theorem State.stpClearEn_evolves {s₀ s} (h : Evolves r s₀ s) : Evolves r s₀ (State.stpClearEn s) := by
  unfold State.stpClearEn
  extract_lets -underBinder -merge -useContext +onlyGivenNames v0
  try clear_value v0
  with_reducible refine Evolves.ite ?_ ?_
  · with_reducible refine State.setFld_evolves _ _ _ _ _ ?_
    exact h
  · extract_lets -underBinder -merge -useContext +onlyGivenNames v1
    have hv1 : Evolves r s₀ v1 := by
      with_reducible refine State.modStep_evolves _ ?_
      exact h
    try clear_value v1
    with_reducible refine Evolves.ite ?_ ?_
    · exact hv1
    · with_reducible refine State.startSquash_evolves _ ?_
      exact hv1

theorem stpCtlWrite_evolves {s₀ s} (a) (h : Evolves r s₀ s) : Evolves r s₀ (stpCtlWrite a s) := by
  unfold stpCtlWrite
  extract_lets -underBinder -merge -useContext +onlyGivenNames v0
  have hv0 : Evolves r s₀ v0 := by
    with_reducible refine State.setFld_evolves _ _ _ _ _ ?_
    exact h
  try clear_value v0
  extract_lets -underBinder -merge -useContext +onlyGivenNames v1
  have hv1 : Evolves r s₀ v1 := by
    with_reducible refine Evolves.ite ?_ ?_
    · with_reducible refine State.setFld_evolves _ _ _ _ _ ?_
      exact hv0
    · with_reducible refine Evolves.ite ?_ ?_
      · with_reducible refine State.stpClearEn_evolves ?_
        exact hv0
      · exact hv0
  try clear_value v1
  with_reducible refine Evolves.ite ?_ ?_
  · exact hv1
  · extract_lets -underBinder -merge -useContext +onlyGivenNames v2
    have hv2 : Evolves r s₀ v2 := by
      with_reducible refine Evolves.ite ?_ ?_
      · with_reducible refine State.stpStart_evolves ?_
        exact hv1
      · exact hv1
    try clear_value v2
    extract_lets -underBinder -merge -useContext +onlyGivenNames v3
    have hv3 : Evolves r s₀ v3 := by
      with_reducible refine Evolves.ite ?_ ?_
      · with_reducible refine State.cause_evolves _ ?_
        exact hv2
      · exact hv2
    try clear_value v3
    with_reducible refine Evolves.ite ?_ ?_
    · with_reducible refine State.setStsBit_evolves _ _ ?_
      exact hv3
    · exact hv3

theorem execStart_evolves {s₀ s t} (a) (he : execStart a s = .next t) (h : Evolves r s₀ s) : Evolves r s₀ t := by
  unfold execStart at he
  cases he
  with_reducible refine State.onWrite_evolves _ _ _ _ (fun y0 hy0 => ?_) ?_
  · with_reducible refine State.drainCtl_evolves ?_
    with_reducible refine stpCtlWrite_evolves _ ?_
    exact hy0
  · exact h

theorem execSquash_evolves {s₀ s t} (a) (he : execSquash a s = .next t) (h : Evolves r s₀ s) : Evolves r s₀ t := by
  unfold execSquash at he
  cases he
  with_reducible refine State.onWrite_evolves _ _ _ _ (fun y0 hy0 => ?_) ?_
  · with_reducible refine State.drainCtl_evolves ?_
    with_reducible refine stpCtlWrite_evolves _ ?_
    exact hy0
  · exact h

theorem execStop_evolves {s₀ s t} (a) (he : execStop a s = .next t) (h : Evolves r s₀ s) : Evolves r s₀ t := by
  unfold execStop at he
  cases he
  with_reducible refine State.onWrite_evolves _ _ _ _ (fun y0 hy0 => ?_) ?_
  · with_reducible refine stpCtlWrite_evolves _ ?_
    exact hy0
  · exact h

theorem execStpEnClear_evolves {s₀ s t} (a) (he : execStpEnClear a s = .next t) (h : Evolves r s₀ s) : Evolves r s₀ t := by
  unfold execStpEnClear at he
  cases he
  with_reducible refine State.onWrite_evolves _ _ _ _ (fun y0 hy0 => ?_) ?_
  · with_reducible refine State.drainCtl_evolves ?_
    with_reducible refine stpCtlWrite_evolves _ ?_
    exact hy0
  · exact h

theorem State.deliver_evolves {s₀ s} (a) (h : Evolves r s₀ s) : Evolves r s₀ (State.deliver s a) := by
  unfold State.deliver
  extract_lets -underBinder -merge -useContext +onlyGivenNames v0
  have hv0 : Evolves r s₀ v0 := by
    with_reducible refine Evolves.upd_mk rfl rfl rfl rfl rfl rfl rfl rfl rfl rfl rfl rfl rfl rfl rfl rfl rfl rfl rfl rfl rfl rfl rfl rfl rfl rfl rfl rfl ?_
    exact h
  try clear_value v0
  with_reducible refine Evolves.ite ?_ ?_
  · with_reducible refine Evolves.ite ?_ ?_
    · exact hv0
    · extract_lets -underBinder -merge -useContext +onlyGivenNames v1
      have hv1 : Evolves r s₀ v1 := by
        with_reducible refine State.addCtr_evolves _ _ _ ?_
        exact hv0
      try clear_value v1
      with_reducible refine Evolves.ite ?_ ?_
      · with_reducible refine State.decideDue_evolves ?_
        exact hv1
      · exact hv1
  · with_reducible refine Evolves.ite ?_ ?_
    · with_reducible refine State.wrapAdd_evolves _ _ _ ?_
      exact hv0
    · exact hv0

theorem execSignalArrival_evolves {s₀ s t} (a b) (he : execSignalArrival a b s = .next t) (h : Evolves r s₀ s) : Evolves r s₀ t := by
  unfold execSignalArrival at he
  cases he
  with_reducible refine Evolves.ite ?_ ?_
  · exact h
  · split
    · with_reducible refine State.drainCtl_evolves ?_
      with_reducible refine State.deliver_evolves _ ?_
      exact h
    · exact h

theorem execPhaseEnd_evolves {s₀ s t} (he : execPhaseEnd s = .next t) (h : Evolves r s₀ s) : Evolves r s₀ t := by
  unfold execPhaseEnd at he
  cases he
  extract_lets -underBinder -merge -useContext +onlyGivenNames v0
  try clear_value v0
  extract_lets -underBinder -merge -useContext +onlyGivenNames v1
  try clear_value v1
  extract_lets -underBinder -merge -useContext +onlyGivenNames v2
  try clear_value v2
  with_reducible refine Evolves.ite ?_ ?_
  · exact h
  · with_reducible refine Evolves.ite ?_ ?_
    · with_reducible refine Evolves.ite ?_ ?_
      · with_reducible refine State.drainCtl_evolves ?_
        with_reducible refine State.decideDue_evolves ?_
        exact h
      · with_reducible refine Evolves.ite ?_ ?_
        · with_reducible refine State.setPhase_evolves _ ?_
          exact h
        · exact h
    · with_reducible refine Evolves.ite ?_ ?_
      · with_reducible refine Evolves.ite ?_ ?_
        · with_reducible refine State.setPhase_evolves _ ?_
          exact h
        · exact h
      · with_reducible refine Evolves.ite ?_ ?_
        · with_reducible refine Evolves.ite ?_ ?_
          · with_reducible refine State.setPhase_evolves _ ?_
            exact h
          · exact h
        · exact h

theorem execUpdateComplete_evolves {s₀ s t} (he : execUpdateComplete s = .next t) (h : Evolves r s₀ s) : Evolves r s₀ t := by
  unfold execUpdateComplete at he
  cases he
  extract_lets -underBinder -merge -useContext +onlyGivenNames v0
  try clear_value v0
  with_reducible refine Evolves.ite ?_ ?_
  · exact h
  · with_reducible refine State.setReg_evolves _ _ _ ?_
    with_reducible refine State.setStsBit_evolves _ _ ?_
    with_reducible refine State.setGmv_evolves _ _ ?_
    exact h

theorem State.openCheck_evolves {s₀ s} (a) (h : Evolves r s₀ s) : Evolves r s₀ (State.openCheck s a) := by
  unfold State.openCheck
  extract_lets -underBinder -merge -useContext +onlyGivenNames v0
  have hv0 : Evolves r s₀ v0 := by
    with_reducible refine State.gateLedger_evolves ?_
    exact h
  try clear_value v0
  extract_lets -underBinder -merge -useContext +onlyGivenNames v1
  have hv1 : Evolves r s₀ v1 := by
    with_reducible refine State.setReg_evolves _ _ _ ?_
    with_reducible refine State.setReg_evolves _ _ _ ?_
    with_reducible refine State.setReg_evolves _ _ _ ?_
    with_reducible refine State.setReg_evolves _ _ _ ?_
    exact hv0
  try clear_value v1
  extract_lets -underBinder -merge -useContext +onlyGivenNames v2
  have hv2 : Evolves r s₀ v2 := by
    with_reducible refine Evolves.foldl (fun a3 x4 ha3 => ?_) ?_
    · with_reducible refine State.stageScale_evolves _ _ ?_
      exact ha3
    · exact hv1
  try clear_value v2
  extract_lets -underBinder -merge -useContext +onlyGivenNames v5
  have hv5 : Evolves r s₀ v5 := by
    with_reducible refine State.setPhase_evolves _ ?_
    with_reducible refine State.modStep_evolves _ ?_
    exact hv2
  try clear_value v5
  with_reducible refine Evolves.ite ?_ ?_
  · extract_lets -underBinder -merge -useContext +onlyGivenNames v6
    try clear_value v6
    with_reducible refine State.setStsBit_evolves _ _ ?_
    with_reducible refine State.writeGmul_evolves _ _ ?_
    with_reducible refine State.modStep_evolves _ ?_
    exact hv5
  · exact hv5

theorem execCheckOpen_evolves {s₀ s t} (he : execCheckOpen s = .next t) (h : Evolves r s₀ s) : Evolves r s₀ t := by
  unfold execCheckOpen at he
  cases he
  extract_lets -underBinder -merge -useContext +onlyGivenNames v0
  try clear_value v0
  with_reducible refine Evolves.ite ?_ ?_
  · exact h
  · split
    · with_reducible refine State.drainCtl_evolves ?_
      with_reducible refine State.cause_evolves _ ?_
      with_reducible refine State.ctlPoison_evolves _ _ ?_
      exact h
    · with_reducible refine State.openCheck_evolves _ ?_
      exact h

theorem State.ckpLate_evolves {s₀ s} (h : Evolves r s₀ s) : Evolves r s₀ (State.ckpLate s) := by
  unfold State.ckpLate
  with_reducible refine Evolves.ite ?_ ?_
  · exact h
  · extract_lets -underBinder -merge -useContext +onlyGivenNames v0
    have hv0 : Evolves r s₀ v0 := by
      with_reducible refine State.notice_evolves _ _ _ ?_
      exact h
    try clear_value v0
    with_reducible refine Evolves.upd_mk rfl rfl rfl rfl rfl rfl rfl rfl rfl rfl rfl rfl rfl rfl rfl rfl rfl rfl rfl rfl rfl rfl rfl rfl rfl rfl rfl rfl ?_
    exact hv0

theorem State.giveVerdict_evolves {s₀ s} (a) (h : Evolves r s₀ s) : Evolves r s₀ (State.giveVerdict s a) := by
  unfold State.giveVerdict
  extract_lets -underBinder -merge -useContext +onlyGivenNames v0
  try clear_value v0
  extract_lets -underBinder -merge -useContext +onlyGivenNames v1
  try clear_value v1
  extract_lets -underBinder -merge -useContext +onlyGivenNames v2
  have hv2 : Evolves r s₀ v2 := by
    with_reducible refine Evolves.ite ?_ ?_
    · with_reducible refine State.raise_evolves _ _ _ _ _ _ ?_
      exact h
    · exact h
  try clear_value v2
  extract_lets -underBinder -merge -useContext +onlyGivenNames v3
  have hv3 : Evolves r s₀ v3 := by
    with_reducible refine Evolves.ite ?_ ?_
    · with_reducible refine State.raise_evolves _ _ _ _ _ _ ?_
      exact hv2
    · exact hv2
  try clear_value v3
  extract_lets -underBinder -merge -useContext +onlyGivenNames v4
  have hv4 : Evolves r s₀ v4 := by
    with_reducible refine State.setStsBit_evolves _ _ ?_
    with_reducible refine State.modStep_evolves _ ?_
    exact hv3
  try clear_value v4
  extract_lets -underBinder -merge -useContext +onlyGivenNames v5
  try clear_value v5
  with_reducible refine Evolves.ite ?_ ?_
  · with_reducible refine Evolves.upd_mk rfl rfl rfl rfl rfl rfl rfl rfl rfl rfl rfl rfl rfl rfl rfl rfl rfl rfl rfl rfl rfl rfl rfl rfl rfl rfl rfl rfl ?_
    exact hv4
  · exact hv4

theorem execLocalVerdict_evolves {s₀ s t} (he : execLocalVerdict s = .next t) (h : Evolves r s₀ s) : Evolves r s₀ t := by
  unfold execLocalVerdict at he
  cases he
  extract_lets -underBinder -merge -useContext +onlyGivenNames v0
  try clear_value v0
  with_reducible refine Evolves.ite ?_ ?_
  · exact h
  · with_reducible refine Evolves.ite ?_ ?_
    · with_reducible refine State.ckpLate_evolves ?_
      exact h
    · with_reducible refine State.drainCtl_evolves ?_
      with_reducible refine State.giveVerdict_evolves _ ?_
      exact h

theorem State.verdictSquash_evolves {s₀ s} (a) (h : Evolves r s₀ s) : Evolves r s₀ (State.verdictSquash s a) := by
  unfold State.verdictSquash
  with_reducible refine State.startSquash_evolves _ ?_
  exact h

theorem State.toCommit_evolves {s₀ s} (h : Evolves r s₀ s) : Evolves r s₀ (State.toCommit s) := by
  unfold State.toCommit
  with_reducible refine Evolves.ite ?_ ?_
  · with_reducible refine State.modStep_evolves _ ?_
    with_reducible refine State.setPhase_evolves _ ?_
    exact h
  · with_reducible refine State.setPhase_evolves _ ?_
    exact h

theorem State.verdictCommit_evolves {s₀ s} (a b) (h : Evolves r s₀ s) : Evolves r s₀ (State.verdictCommit s a b) := by
  unfold State.verdictCommit
  split
  · extract_lets -underBinder -merge -useContext +onlyGivenNames v4
    have hv4 : Evolves r s₀ v4 := by
      with_reducible refine Evolves.ite ?_ ?_
      · exact h
      · with_reducible refine State.setReg_evolves _ _ _ ?_
        exact h
    try clear_value v4
    with_reducible refine Evolves.ite ?_ ?_
    · with_reducible refine State.verdictSquash_evolves _ ?_
      exact hv4
    · extract_lets -underBinder -merge -useContext +onlyGivenNames v5
      try clear_value v5
      extract_lets -underBinder -merge -useContext +onlyGivenNames v6
      have hv6 : Evolves r s₀ v6 := by
        with_reducible refine State.modStep_evolves _ ?_
        with_reducible refine State.setReg_evolves _ _ _ ?_
        with_reducible refine Evolves.ite ?_ ?_
        · with_reducible refine State.bump_evolves _ _ _ ?_
          exact hv4
        · exact hv4
      try clear_value v6
      extract_lets -underBinder -merge -useContext +onlyGivenNames v7
      have hv7 : Evolves r s₀ v7 := by
        with_reducible refine State.setStsBit_evolves _ _ ?_
        exact hv6
      try clear_value v7
      split
      · with_reducible refine Evolves.ite ?_ ?_
        · extract_lets -underBinder -merge -useContext +onlyGivenNames v9
          try clear_value v9
          with_reducible refine State.flushAll_evolves _ ?_
          with_reducible refine State.modStep_evolves _ ?_
          with_reducible refine State.setGmv_evolves _ _ ?_
          with_reducible refine State.setStsBit_evolves _ _ ?_
          with_reducible refine State.setPhase_evolves _ ?_
          exact hv7
        · with_reducible refine State.toCommit_evolves ?_
          exact hv7
      · with_reducible refine State.toCommit_evolves ?_
        exact hv7

theorem execVoteResult_evolves {s₀ s t} (a) (he : execVoteResult a s = .next t) (h : Evolves r s₀ s) : Evolves r s₀ t := by
  unfold execVoteResult at he
  cases he
  with_reducible refine Evolves.ite ?_ ?_
  · exact h
  · with_reducible refine Evolves.ite ?_ ?_
    · with_reducible refine Evolves.ite ?_ ?_
      · with_reducible refine State.drainCtl_evolves ?_
        with_reducible refine State.verdictSquash_evolves _ ?_
        exact h
      · with_reducible refine State.drainCtl_evolves ?_
        with_reducible refine State.verdictCommit_evolves _ _ ?_
        exact h
    · with_reducible refine Evolves.ite ?_ ?_
      · exact h
      · extract_lets -underBinder -merge -useContext +onlyGivenNames v0
        have hv0 : Evolves r s₀ v0 := by
          with_reducible refine Evolves.ite ?_ ?_
          · exact h
          · with_reducible refine State.ctlDown_evolves _ ?_
            exact h
        try clear_value v0
        extract_lets -underBinder -merge -useContext +onlyGivenNames v1
        try clear_value v1
        extract_lets -underBinder -merge -useContext +onlyGivenNames v2
        try clear_value v2
        with_reducible refine Evolves.ite ?_ ?_
        · with_reducible refine State.drainCtl_evolves ?_
          with_reducible refine State.verdictSquash_evolves _ ?_
          exact hv0
        · with_reducible refine State.drainCtl_evolves ?_
          with_reducible refine State.verdictCommit_evolves _ _ ?_
          exact hv0

theorem execVoteTimeout_evolves {s₀ s t} (he : execVoteTimeout s = .next t) (h : Evolves r s₀ s) : Evolves r s₀ t := by
  unfold execVoteTimeout at he
  cases he
  extract_lets -underBinder -merge -useContext +onlyGivenNames v0
  try clear_value v0
  with_reducible refine Evolves.ite ?_ ?_
  · exact h
  · with_reducible refine State.drainCtl_evolves ?_
    with_reducible refine State.cause_evolves _ ?_
    with_reducible refine State.raise_evolves _ _ _ _ _ _ ?_
    exact h

theorem State.toIdle_evolves {s₀ s} (h : Evolves r s₀ s) : Evolves r s₀ (State.toIdle s) := by
  unfold State.toIdle
  with_reducible refine State.modStep_evolves _ ?_
  with_reducible refine State.setFld_evolves _ _ _ _ _ ?_
  with_reducible refine State.setPhase_evolves _ ?_
  exact h

theorem State.finishSquash_evolves {s₀ s} (h : Evolves r s₀ s) : Evolves r s₀ (State.finishSquash s) := by
  unfold State.finishSquash
  extract_lets -underBinder -merge -useContext +onlyGivenNames v0
  try clear_value v0
  extract_lets -underBinder -merge -useContext +onlyGivenNames v1
  have hv1 : Evolves r s₀ v1 := by
    with_reducible refine State.gateSquash_evolves _ ?_
    with_reducible refine State.drainCtl_evolves ?_
    exact h
  try clear_value v1
  extract_lets -underBinder -merge -useContext +onlyGivenNames v2
  have hv2 : Evolves r s₀ v2 := by
    with_reducible refine Evolves.foldl (fun a3 x4 ha3 => ?_) ?_
    · with_reducible refine State.overRec_evolves _ _ _ (fun y5 hy5 => ?_) ?_
      · with_reducible refine State.squashScale_evolves _ ?_
        exact hy5
      · exact ha3
    · exact hv1
  try clear_value v2
  extract_lets -underBinder -merge -useContext +onlyGivenNames v6
  have hv6 : Evolves r s₀ v6 := by
    with_reducible refine State.clearNumFlags_evolves _ ?_
    with_reducible refine State.clearNumFlags_evolves _ ?_
    exact hv2
  try clear_value v6
  extract_lets -underBinder -merge -useContext +onlyGivenNames v7
  have hv7 : Evolves r s₀ v7 := by
    with_reducible refine State.freeStash_evolves _ ?_
    with_reducible refine State.freeStash_evolves _ ?_
    with_reducible refine State.clearStaged_evolves ?_
    exact hv6
  try clear_value v7
  extract_lets -underBinder -merge -useContext +onlyGivenNames v8
  have hv8 : Evolves r s₀ v8 := by
    with_reducible refine State.eachTile_evolves _ (fun y9 y10 hy9 => ?_) ?_
    · with_reducible refine State.invalStats_evolves _ ?_
      exact hy9
    · exact hv7
  try clear_value v8
  extract_lets -underBinder -merge -useContext +onlyGivenNames v11
  have hv11 : Evolves r s₀ v11 := by
    with_reducible refine State.clearEvc_evolves _ _ ?_
    with_reducible refine State.clearEvc_evolves _ _ ?_
    with_reducible refine State.clearMap_evolves ?_
    exact hv8
  try clear_value v11
  extract_lets -underBinder -merge -useContext +onlyGivenNames v12
  have hv12 : Evolves r s₀ v12 := by
    with_reducible refine Evolves.ite ?_ ?_
    · with_reducible refine State.rewindAll_evolves _ ?_
      exact hv11
    · with_reducible refine Evolves.foldl (fun a13 x14 ha13 => ?_) ?_
      · with_reducible refine State.skipStream_evolves _ _ ?_
        exact ha13
      · exact hv11
  try clear_value v12
  extract_lets -underBinder -merge -useContext +onlyGivenNames v15
  have hv15 : Evolves r s₀ v15 := by
    with_reducible refine State.setFld_evolves _ _ _ _ _ ?_
    with_reducible refine State.bump_evolves _ _ _ ?_
    exact hv12
  try clear_value v15
  extract_lets -underBinder -merge -useContext +onlyGivenNames v16
  have hv16 : Evolves r s₀ v16 := by
    with_reducible refine State.stpSignal_evolves ?_
    with_reducible refine State.notice_evolves _ _ _ ?_
    exact hv15
  try clear_value v16
  with_reducible refine Evolves.ite ?_ ?_
  · with_reducible refine State.toIdle_evolves ?_
    exact hv16
  · with_reducible refine State.beginFwd_evolves ?_
    exact hv16

theorem State.finishRestage_evolves {s₀ s} (h : Evolves r s₀ s) : Evolves r s₀ (State.finishRestage s) := by
  unfold State.finishRestage
  extract_lets -underBinder -merge -useContext +onlyGivenNames v0
  try clear_value v0
  extract_lets -underBinder -merge -useContext +onlyGivenNames v1
  try clear_value v1
  extract_lets -underBinder -merge -useContext +onlyGivenNames v2
  try clear_value v2
  split
  · with_reducible refine State.cause_evolves _ ?_
    with_reducible refine State.ctlPoison_evolves _ _ ?_
    exact h
  · extract_lets -underBinder -merge -useContext +onlyGivenNames v6
    have hv6 : Evolves r s₀ v6 := by
      with_reducible refine Evolves.foldl (fun a7 x8 ha7 => ?_) ?_
      · with_reducible refine State.restageScale_evolves _ _ ?_
        exact ha7
      · exact h
    try clear_value v6
    extract_lets -underBinder -merge -useContext +onlyGivenNames v9
    have hv9 : Evolves r s₀ v9 := by
      with_reducible refine State.clearStaged_evolves ?_
      with_reducible refine State.clearNumFlags_evolves _ ?_
      exact hv6
    try clear_value v9
    extract_lets -underBinder -merge -useContext +onlyGivenNames v10
    have hv10 : Evolves r s₀ v10 := by
      with_reducible refine State.rewindAll_evolves _ ?_
      with_reducible refine State.freeStash_evolves _ ?_
      exact hv9
    try clear_value v10
    extract_lets -underBinder -merge -useContext +onlyGivenNames v11
    have hv11 : Evolves r s₀ v11 := by
      with_reducible refine State.eachTile_evolves _ (fun y12 y13 hy12 => ?_) ?_
      · with_reducible refine State.invalStats_evolves _ ?_
        exact hy12
      · exact hv10
    try clear_value v11
    extract_lets -underBinder -merge -useContext +onlyGivenNames v14
    have hv14 : Evolves r s₀ v14 := by
      with_reducible refine State.writeGmul_evolves _ _ ?_
      with_reducible refine State.clearEvc_evolves _ _ ?_
      exact hv11
    try clear_value v14
    extract_lets -underBinder -merge -useContext +onlyGivenNames v15
    have hv15 : Evolves r s₀ v15 := by
      with_reducible refine State.stpSignal_evolves ?_
      with_reducible refine State.bump_evolves _ _ _ ?_
      with_reducible refine State.notice_evolves _ _ _ ?_
      exact hv14
    try clear_value v15
    with_reducible refine State.toCommit_evolves ?_
    with_reducible refine State.modStep_evolves _ ?_
    with_reducible refine State.setStsBit_evolves _ _ ?_
    exact hv15

theorem execFlushComplete_evolves {s₀ s t} (he : execFlushComplete s = .next t) (h : Evolves r s₀ s) : Evolves r s₀ t := by
  unfold execFlushComplete at he
  cases he
  with_reducible refine Evolves.ite ?_ ?_
  · exact h
  · with_reducible refine Evolves.ite ?_ ?_
    · with_reducible refine State.drainCtl_evolves ?_
      with_reducible refine State.finishSquash_evolves ?_
      exact h
    · with_reducible refine Evolves.ite ?_ ?_
      · with_reducible refine State.drainCtl_evolves ?_
        with_reducible refine State.finishRestage_evolves ?_
        exact h
      · exact h

theorem State.commitStop_evolves {s₀ s t} (he : State.commitStop s = some t) (h : Evolves r s₀ s) : Evolves r s₀ t := by
  unfold State.commitStop at he
  dsimp only at he
  split at he
  · simp only [Option.some.injEq] at he; subst he; with_reducible exact State.cause_evolves _ h
  · split at he
    · simp at he
    · simp only [Option.some.injEq] at he; subst he; with_reducible exact State.cause_evolves _ (State.raise_evolves _ _ _ _ _ _ h)

theorem State.commitScales_evolves {s₀ s} (a) (h : Evolves r s₀ s) : Evolves r s₀ (State.commitScales s a) := by
  unfold State.commitScales
  extract_lets -underBinder -merge -useContext +onlyGivenNames v0
  try clear_value v0
  with_reducible refine Evolves.foldl (fun a1 x2 ha1 => ?_) ?_
  · with_reducible refine State.overRec_evolves _ _ _ (fun y3 hy3 => ?_) ?_
    · with_reducible refine State.overRec_evolves _ _ _ (fun y4 hy4 => ?_) ?_
      · split
        · rename_i w5 w6 e7
          have hw5 : Evolves r s₀ w5 := Evolves.of_pair e7 (by
            with_reducible refine State.commitScale_evolves _ _ ?_
            exact hy4)
          split
          · with_reducible refine Evolves.ite ?_ ?_
            · with_reducible refine State.raise_evolves _ _ _ _ _ _ ?_
              exact hw5
            · exact hw5
          · exact hw5
      · exact hy3
    · exact ha1
  · exact h

theorem State.freeDev_evolves {s₀ s} (a b) (h : Evolves r s₀ s) : Evolves r s₀ (State.freeDev a b s) := by
  unfold State.freeDev
  split
  · exact (by assumption)
  · split
    · rename_i w3 w4 e5
      have hw4 : Evolves r s₀ w4 := Evolves.of_pair2 e5 (by
        with_reducible refine State.fresh_evolves ?_
        exact (by assumption))
      with_reducible refine State.freeDev_evolves _ _ ?_
      with_reducible refine State.devPut_evolves _ _ _ ?_
      exact hw4

theorem State.undefShard_evolves {s₀ s} (a) (h : Evolves r s₀ s) : Evolves r s₀ (State.undefShard s a) := by
  unfold State.undefShard
  extract_lets -underBinder -merge -useContext +onlyGivenNames v0
  try clear_value v0
  with_reducible refine Evolves.ite ?_ ?_
  · exact h
  · with_reducible refine Evolves.foldl (fun a1 x2 ha1 => ?_) ?_
    · with_reducible refine State.freeDev_evolves _ _ ?_
      exact ha1
    · exact h

theorem State.flipSides_evolves {s₀ s} (h : Evolves r s₀ s) : Evolves r s₀ (State.flipSides s) := by
  unfold State.flipSides
  with_reducible refine State.modStep_evolves _ ?_
  with_reducible refine Evolves.foldl (fun a0 x1 ha0 => ?_) ?_
  · with_reducible refine State.overRec_evolves _ _ _ (fun y2 hy2 => ?_) ?_
    · extract_lets -underBinder -merge -useContext +onlyGivenNames v3
      try clear_value v3
      extract_lets -underBinder -merge -useContext +onlyGivenNames v4
      try clear_value v4
      with_reducible refine Evolves.ite ?_ ?_
      · with_reducible refine State.devPut_evolves _ _ _ ?_
        with_reducible refine State.undefShard_evolves _ ?_
        exact hy2
      · exact hy2
    · exact ha0
  · exact h

theorem State.bumpGroups_evolves {s₀ s} (h : Evolves r s₀ s) : Evolves r s₀ (State.bumpGroups s) := by
  unfold State.bumpGroups
  with_reducible refine Evolves.foldl (fun a0 x1 ha0 => ?_) ?_
  · with_reducible refine State.overRec_evolves _ _ _ (fun y2 hy2 => ?_) ?_
    · with_reducible refine Evolves.ite ?_ ?_
      · exact hy2
      · extract_lets -underBinder -merge -useContext +onlyGivenNames v3
        try clear_value v3
        with_reducible refine State.devPut_evolves _ _ _ ?_
        with_reducible refine Evolves.foldl (fun a4 x5 ha4 => ?_) ?_
        · with_reducible refine State.rootSwap_evolves _ ?_
          exact ha4
        · exact hy2
    · exact ha0
  · exact h

theorem State.ckpCommit_evolves {s₀ s} (a) (h : Evolves r s₀ s) : Evolves r s₀ (State.ckpCommit s a) := by
  unfold State.ckpCommit
  extract_lets -underBinder -merge -useContext +onlyGivenNames v0
  try clear_value v0
  extract_lets -underBinder -merge -useContext +onlyGivenNames v1
  try clear_value v1
  with_reducible refine Evolves.ite ?_ ?_
  · with_reducible refine Evolves.upd_mk rfl rfl rfl rfl rfl rfl rfl rfl rfl rfl rfl rfl rfl rfl rfl rfl rfl rfl rfl rfl rfl rfl rfl rfl rfl rfl rfl rfl ?_
    exact h
  · exact h

theorem State.orphanStreams_evolves {s₀ s} (a) (h : Evolves r s₀ s) : Evolves r s₀ (State.orphanStreams s a) := by
  unfold State.orphanStreams
  with_reducible refine Evolves.ite ?_ ?_
  · with_reducible refine State.modStep_evolves _ ?_
    with_reducible refine Evolves.foldl (fun a0 x1 ha0 => ?_) ?_
    · with_reducible refine Evolves.ite ?_ ?_
      · with_reducible refine State.setFld_evolves _ _ _ _ _ ?_
        exact ha0
      · exact ha0
    · exact h
  · exact h

theorem State.doCommit_evolves {s₀ s} (h : Evolves r s₀ s) : Evolves r s₀ (State.doCommit s) := by
  unfold State.doCommit
  extract_lets -underBinder -merge -useContext +onlyGivenNames v0
  try clear_value v0
  extract_lets -underBinder -merge -useContext +onlyGivenNames v1
  try clear_value v1
  extract_lets -underBinder -merge -useContext +onlyGivenNames v2
  have hv2 : Evolves r s₀ v2 := by
    with_reducible refine Evolves.ite ?_ ?_
    · exact h
    · with_reducible refine State.writeGmul_evolves _ _ ?_
      exact h
  try clear_value v2
  extract_lets -underBinder -merge -useContext +onlyGivenNames v3
  have hv3 : Evolves r s₀ v3 := by
    with_reducible refine State.bumpGroups_evolves ?_
    with_reducible refine State.flipSides_evolves ?_
    with_reducible refine State.commitScales_evolves _ ?_
    exact hv2
  try clear_value v3
  extract_lets -underBinder -merge -useContext +onlyGivenNames v4
  have hv4 : Evolves r s₀ v4 := by
    with_reducible refine State.clearNumFlags_evolves _ ?_
    with_reducible refine State.freeStash_evolves _ ?_
    exact hv3
  try clear_value v4
  extract_lets -underBinder -merge -useContext +onlyGivenNames v5
  extract_lets -underBinder -merge -useContext +onlyGivenNames v6
  have hv6 : Evolves r s₀ v6 := by
    with_reducible refine State.clearEvc_evolves _ _ ?_
    with_reducible refine State.clearMap_evolves ?_
    exact hv4
  try clear_value v6
  extract_lets -underBinder -merge -useContext +onlyGivenNames v7
  have hv7 : Evolves r s₀ v7 := by
    with_reducible refine Evolves.foldl (fun a8 x9 ha8 => ?_) ?_
    · with_reducible refine State.commitStream_evolves _ _ _ ?_
      exact ha8
    · exact hv6
  try clear_value v7
  extract_lets -underBinder -merge -useContext +onlyGivenNames v10
  have hv10 : Evolves r s₀ v10 := by
    with_reducible refine State.setReg_evolves _ _ _ ?_
    with_reducible refine State.setReg_evolves _ _ _ ?_
    exact hv7
  try clear_value v10
  extract_lets -underBinder -merge -useContext +onlyGivenNames v11
  have hv11 : Evolves r s₀ v11 := by
    with_reducible refine State.setFld_evolves _ _ _ _ _ ?_
    with_reducible refine State.setStsBit_evolves _ _ ?_
    with_reducible refine State.setStsBit_evolves _ _ ?_
    exact hv10
  try clear_value v11
  extract_lets -underBinder -merge -useContext +onlyGivenNames v12
  have hv12 : Evolves r s₀ v12 := by
    with_reducible refine State.gateCommit_evolves _ ?_
    with_reducible refine State.bump_evolves _ _ _ ?_
    with_reducible refine State.notice_evolves _ _ _ ?_
    exact hv11
  try clear_value v12
  extract_lets -underBinder -merge -useContext +onlyGivenNames v13
  have hv13 : Evolves r s₀ v13 := by
    with_reducible refine State.modStep_evolves _ ?_
    with_reducible refine State.ckpCommit_evolves _ ?_
    exact hv12
  try clear_value v13
  extract_lets -underBinder -merge -useContext +onlyGivenNames v14
  try clear_value v14
  extract_lets -underBinder -merge -useContext +onlyGivenNames v15
  have hv15 : Evolves r s₀ v15 := by
    with_reducible refine State.orphanStreams_evolves _ ?_
    with_reducible refine State.setStsBit_evolves _ _ ?_
    exact hv13
  try clear_value v15
  with_reducible refine Evolves.ite ?_ ?_
  · with_reducible refine Evolves.ite ?_ ?_
    · with_reducible refine State.toIdle_evolves ?_
      exact hv15
    · with_reducible refine State.startSquash_evolves _ ?_
      with_reducible refine State.enterFwd_evolves ?_
      exact hv15
  · with_reducible refine Evolves.ite ?_ ?_
    · with_reducible refine State.setPhase_evolves _ ?_
      exact hv15
    · with_reducible refine State.beginFwd_evolves ?_
      exact hv15

theorem State.tryCommit_evolves {s₀ s} (h : Evolves r s₀ s) : Evolves r s₀ (State.tryCommit s) := by
  unfold State.tryCommit
  with_reducible refine Evolves.ite ?_ ?_
  · exact h
  · split
    · rename_i w0 e1
      have hw0 : Evolves r s₀ w0 := by
        with_reducible refine State.commitStop_evolves e1 ?_
        exact h
      with_reducible refine State.drainCtl_evolves ?_
      exact hw0
    · with_reducible refine Evolves.ite ?_ ?_
      · exact h
      · with_reducible refine State.drainCtl_evolves ?_
        with_reducible refine State.doCommit_evolves ?_
        exact h

theorem execCommit_evolves {s₀ s t} (he : execCommit s = .next t) (h : Evolves r s₀ s) : Evolves r s₀ t := by
  unfold execCommit at he
  cases he
  with_reducible refine Evolves.ite ?_ ?_
  · exact h
  · with_reducible refine Evolves.ite ?_ ?_
    · with_reducible refine State.tryCommit_evolves ?_
      exact h
    · with_reducible refine Evolves.ite ?_ ?_
      · with_reducible refine State.tryCommit_evolves ?_
        with_reducible refine State.modStep_evolves _ ?_
        with_reducible refine State.setPhase_evolves _ ?_
        exact h
      · exact h

end Sys2Proof.Machine
end

