-- ==== Sys2Proof/Laws/EvolvesCkp.lean ====
section
/-! SUPPORT. Laws/EvolvesCkp.lean: every operation of checkpoints, synchronisation and couriers evolves the state (Laws/Evolves.lean); one lemma for each. -/
namespace Sys2Proof.Machine

set_option Elab.async false
set_option linter.all false

variable {r : Bool}

theorem State.addReq_evolves {s₀ s} (a) (h : Evolves r s₀ s) : Evolves r s₀ (State.addReq s a) := by
  unfold State.addReq
  with_reducible refine Evolves.upd_mk rfl rfl rfl rfl rfl rfl rfl rfl rfl rfl rfl rfl rfl rfl rfl rfl rfl rfl rfl rfl rfl rfl rfl rfl rfl rfl rfl rfl ?_
  exact h

theorem State.dropReq_evolves {s₀ s} (a) (h : Evolves r s₀ s) : Evolves r s₀ (State.dropReq s a) := by
  unfold State.dropReq
  with_reducible refine Evolves.upd_mk rfl rfl rfl rfl rfl rfl rfl rfl rfl rfl rfl rfl rfl rfl rfl rfl rfl rfl rfl rfl rfl rfl rfl rfl rfl rfl rfl rfl ?_
  exact h

theorem State.dropReqs_evolves {s₀ s} (a) (h : Evolves r s₀ s) : Evolves r s₀ (State.dropReqs s a) := by
  unfold State.dropReqs
  with_reducible refine Evolves.upd_mk rfl rfl rfl rfl rfl rfl rfl rfl rfl rfl rfl rfl rfl rfl rfl rfl rfl rfl rfl rfl rfl rfl rfl rfl rfl rfl rfl rfl ?_
  exact h

theorem State.setCkSts_evolves {s₀ s} (a b) (h : Evolves r s₀ s) : Evolves r s₀ (State.setCkSts s a b) := by
  unfold State.setCkSts
  with_reducible refine State.setFld_evolves _ _ _ _ _ ?_
  exact h

theorem State.readAll_evolves {s₀ s} (a) (h : Evolves r s₀ s) : Evolves r s₀ (State.readAll s a).1 := by
  unfold State.readAll
  split
  · with_reducible refine Evolves.mk_fst ?_
    exact h
  · split
    · rename_i w3 w4 w5 e6
      have hw3 : Evolves r s₀ w3 := Evolves.of_pair e6 (by
        with_reducible refine State.devRead_evolves _ _ _ _ ?_
        exact h)
      split
      · rename_i w7 w8 w9 e10
        have hw7 : Evolves r s₀ w7 := Evolves.of_pair e10 (by
          with_reducible refine State.readAll_evolves _ ?_
          with_reducible refine State.farTouch_evolves _ _ _ ?_
          exact hw3)
        with_reducible refine Evolves.mk_fst ?_
        exact hw7

theorem State.ckpFail_evolves {s₀ s} (a) (h : Evolves r s₀ s) : Evolves r s₀ (State.ckpFail s a) := by
  unfold State.ckpFail
  with_reducible refine State.raise_evolves _ _ _ _ _ _ ?_
  with_reducible refine State.bump_evolves _ _ _ ?_
  with_reducible refine State.setFld_evolves _ _ _ _ _ ?_
  exact h

theorem State.endCkpGrants_evolves {s₀ s} (h : Evolves r s₀ s) : Evolves r s₀ (State.endCkpGrants s) := by
  unfold State.endCkpGrants
  with_reducible refine Evolves.foldl (fun a0 x1 ha0 => ?_) ?_
  · with_reducible refine State.endGrant_evolves _ _ ?_
    exact ha0
  · with_reducible refine State.crsWithdraw_evolves _ ?_
    exact h

theorem State.stopCapture_evolves {s₀ s} (a) (h : Evolves r s₀ s) : Evolves r s₀ (State.stopCapture s a) := by
  unfold State.stopCapture
  extract_lets -underBinder -merge -useContext +onlyGivenNames v0 v1
  try clear_value v0
  have hv1 : Evolves r s₀ v1 := by
    with_reducible refine Evolves.upd_mk rfl rfl rfl rfl rfl rfl rfl rfl rfl rfl rfl rfl rfl rfl rfl rfl rfl rfl rfl rfl rfl rfl rfl rfl rfl rfl rfl rfl ?_
    exact h
  try clear_value v1
  with_reducible refine State.ckpFail_evolves _ ?_
  with_reducible refine State.setCkSts_evolves _ _ ?_
  with_reducible refine State.endCkpGrants_evolves ?_
  exact hv1

theorem State.putPieces_evolves {s₀ s} (a b) (h : Evolves r s₀ s) : Evolves r s₀ (State.putPieces s a b) := by
  unfold State.putPieces
  with_reducible refine Evolves.foldl (fun a0 x1 ha0 => ?_) ?_
  · with_reducible refine State.blockStore_evolves _ _ _ _ _ ?_
    exact ha0
  · exact h

theorem State.readSegs_evolves {s₀ s} (a) (h : Evolves r s₀ s) : Evolves r s₀ (State.readSegs s a).1 := by
  unfold State.readSegs
  split
  · with_reducible refine Evolves.mk_fst ?_
    exact h
  · split
    · rename_i w4 w5 w6 e7
      have hw4 : Evolves r s₀ w4 := Evolves.of_pair e7 (by
        with_reducible refine State.readAll_evolves _ ?_
        exact h)
      split
      · rename_i w8 w9 w10 e11
        have hw8 : Evolves r s₀ w8 := Evolves.of_pair e11 (by
          with_reducible refine State.readSegs_evolves _ ?_
          exact hw4)
        with_reducible refine Evolves.mk_fst ?_
        exact hw8

theorem State.startCapture_evolves {s₀ s} (a) (h : Evolves r s₀ s) : Evolves r s₀ (State.startCapture s a) := by
  unfold State.startCapture
  extract_lets -underBinder -merge -useContext +onlyGivenNames v0 v1
  try clear_value v0
  have hv1 : Evolves r s₀ v1 := by
    with_reducible refine State.setCkSts_evolves _ _ ?_
    with_reducible refine Evolves.upd_mk rfl rfl rfl rfl rfl rfl rfl rfl rfl rfl rfl rfl rfl rfl rfl rfl rfl rfl rfl rfl rfl rfl rfl rfl rfl rfl rfl rfl ?_
    exact h
  try clear_value v1
  extract_lets -underBinder -merge -useContext +onlyGivenNames v2
  try clear_value v2
  with_reducible refine Evolves.ite ?_ ?_
  · with_reducible refine State.ckpFail_evolves _ ?_
    exact hv1
  · extract_lets -underBinder -merge -useContext +onlyGivenNames v3
    try clear_value v3
    split
    · rename_i w4 w5 w6 e7
      have hw4 : Evolves r s₀ w4 := Evolves.of_pair e7 (by
        with_reducible refine State.readSegs_evolves _ ?_
        exact hv1)
      extract_lets -underBinder -merge -useContext +onlyGivenNames v8
      try clear_value v8
      extract_lets -underBinder -merge -useContext +onlyGivenNames v9
      try clear_value v9
      extract_lets -underBinder -merge -useContext +onlyGivenNames v10
      try clear_value v10
      extract_lets -underBinder -merge -useContext +onlyGivenNames v11
      try clear_value v11
      extract_lets -underBinder -merge -useContext +onlyGivenNames v12
      try clear_value v12
      extract_lets -underBinder -merge -useContext +onlyGivenNames v13
      try clear_value v13
      extract_lets -underBinder -merge -useContext +onlyGivenNames v14
      try clear_value v14
      with_reducible refine Evolves.ite ?_ ?_
      · with_reducible refine State.ckpFail_evolves _ ?_
        exact hv1
      · with_reducible refine Evolves.ite ?_ ?_
        · with_reducible refine State.ckpFail_evolves _ ?_
          exact hv1
        · extract_lets -underBinder -merge -useContext +onlyGivenNames v15
          have hv15 : Evolves r s₀ v15 := by
            unfold v15
            split
            · exact hw4
            · extract_lets -underBinder -merge -useContext +onlyGivenNames v18
              try clear_value v18
              extract_lets -underBinder -merge -useContext +onlyGivenNames v19
              have hv19 : Evolves r s₀ v19 := by
                with_reducible refine State.blockStore_evolves _ _ _ _ _ ?_
                exact hw4
              try clear_value v19
              extract_lets -underBinder -merge -useContext +onlyGivenNames v20
              have hv20 : Evolves r s₀ v20 := by
                with_reducible refine Evolves.ite ?_ ?_
                · with_reducible refine State.setReg_evolves _ _ _ ?_
                  exact hv19
                · exact hv19
              try clear_value v20
              with_reducible refine Evolves.ite ?_ ?_
              · exact hv20
              · with_reducible refine State.putPieces_evolves _ _ ?_
                exact hv20
          try clear_value v15
          with_reducible refine Evolves.ite ?_ ?_
          · with_reducible refine State.ckpFail_evolves _ ?_
            exact hv15
          · extract_lets -underBinder -merge -useContext +onlyGivenNames v21
            have hv21 : Evolves r s₀ v21 := by
              with_reducible refine State.crsPlain_evolves _ _ _ _ ?_
              exact hv15
            try clear_value v21
            with_reducible refine State.setCkSts_evolves _ _ ?_
            with_reducible refine Evolves.upd_mk rfl rfl rfl rfl rfl rfl rfl rfl rfl rfl rfl rfl rfl rfl rfl rfl rfl rfl rfl rfl rfl rfl rfl rfl rfl rfl rfl rfl ?_
            exact hv21

theorem execCapture_evolves {s₀ s t} (he : execCapture s = .next t) (h : Evolves r s₀ s) : Evolves r s₀ t := by
  unfold execCapture at he
  cases he
  split
  · exact h
  · with_reducible refine Evolves.ite ?_ ?_
    · exact h
    · with_reducible refine State.startCapture_evolves _ ?_
      exact h

theorem State.bulkSend_evolves {s₀ s} (a b c) (h : Evolves r s₀ s) : Evolves r s₀ (State.bulkSend s a b c) := by
  unfold State.bulkSend
  with_reducible refine Evolves.foldl (fun a0 x1 ha0 => ?_) ?_
  · with_reducible refine State.routeOut_evolves _ ?_
    with_reducible refine State.addReq_evolves _ ?_
    exact ha0
  · exact h

theorem State.buddyFail_evolves {s₀ s} (a) (h : Evolves r s₀ s) : Evolves r s₀ (State.buddyFail s a) := by
  unfold State.buddyFail
  with_reducible refine State.ckpFail_evolves _ ?_
  with_reducible refine State.setCkSts_evolves _ _ ?_
  extract_lets -underBinder -merge -useContext +onlyGivenNames v0
  have hv0 : Evolves r s₀ v0 := by
    with_reducible refine State.dropReqs_evolves _ ?_
    exact h
  try clear_value v0
  with_reducible refine Evolves.upd_mk rfl rfl rfl rfl rfl rfl rfl rfl rfl rfl rfl rfl rfl rfl rfl rfl rfl rfl rfl rfl rfl rfl rfl rfl rfl rfl rfl rfl ?_
  exact hv0

theorem State.startSend_evolves {s₀ s} (a b c d) (h : Evolves r s₀ s) : Evolves r s₀ (State.startSend s a b c d) := by
  unfold State.startSend
  split
  · with_reducible refine State.ckpFail_evolves _ ?_
    exact h
  · with_reducible refine Evolves.ite ?_ ?_
    · with_reducible refine State.ckpFail_evolves _ ?_
      exact h
    · extract_lets -underBinder -merge -useContext +onlyGivenNames v3
      have hv3 : Evolves r s₀ v3 := by
        with_reducible refine Evolves.ite ?_ ?_
        · with_reducible refine State.setReg_evolves _ _ _ ?_
          exact h
        · exact h
      try clear_value v3
      extract_lets -underBinder -merge -useContext +onlyGivenNames v4
      have hv4 : Evolves r s₀ v4 := by
        with_reducible refine Evolves.foldl (fun a5 x6 ha5 => ?_) ?_
        · with_reducible refine State.bulkSend_evolves _ _ _ ?_
          exact ha5
        · with_reducible refine State.bulkSend_evolves _ _ _ ?_
          exact hv3
      try clear_value v4
      with_reducible refine State.setCkSts_evolves _ _ ?_
      with_reducible refine Evolves.upd_mk rfl rfl rfl rfl rfl rfl rfl rfl rfl rfl rfl rfl rfl rfl rfl rfl rfl rfl rfl rfl rfl rfl rfl rfl rfl rfl rfl rfl ?_
      exact hv4

theorem State.captured_evolves {s₀ s} (a) (h : Evolves r s₀ s) : Evolves r s₀ (State.captured s a) := by
  unfold State.captured
  extract_lets -underBinder -merge -useContext +onlyGivenNames v0
  try clear_value v0
  extract_lets -underBinder -merge -useContext +onlyGivenNames v1
  have hv1 : Evolves r s₀ v1 := by
    with_reducible refine Evolves.foldl (fun a2 x3 ha2 => ?_) ?_
    · with_reducible refine State.bump_evolves _ _ _ ?_
      exact ha2
    · exact h
  try clear_value v1
  extract_lets -underBinder -merge -useContext +onlyGivenNames v4
  have hv4 : Evolves r s₀ v4 := by
    unfold v4
    split
    · with_reducible refine State.endCkpGrants_evolves ?_
      exact hv1
    · extract_lets -underBinder -merge -useContext +onlyGivenNames v7
      have hv7 : Evolves r s₀ v7 := by
        with_reducible refine State.blockStore_evolves _ _ _ _ _ ?_
        with_reducible refine State.endCkpGrants_evolves ?_
        exact hv1
      try clear_value v7
      with_reducible refine State.setFld_evolves _ _ _ _ _ ?_
      with_reducible refine State.setReg_evolves _ _ _ ?_
      exact hv7
  try clear_value v4
  extract_lets -underBinder -merge -useContext +onlyGivenNames v8 v9
  try clear_value v8
  have hv9 : Evolves r s₀ v9 := by
    with_reducible refine State.bump_evolves _ _ _ ?_
    with_reducible refine State.setCkSts_evolves _ _ ?_
    with_reducible refine Evolves.upd_mk rfl rfl rfl rfl rfl rfl rfl rfl rfl rfl rfl rfl rfl rfl rfl rfl rfl rfl rfl rfl rfl rfl rfl rfl rfl rfl rfl rfl ?_
    exact hv4
  try clear_value v9
  split
  · with_reducible refine State.startSend_evolves _ _ _ _ ?_
    exact hv9
  · with_reducible refine Evolves.ite ?_ ?_
    · with_reducible refine State.ckpFail_evolves _ ?_
      exact hv9
    · with_reducible refine State.notice_evolves _ _ _ ?_
      exact hv9

theorem execCaptureDone_evolves {s₀ s t} (he : execCaptureDone s = .next t) (h : Evolves r s₀ s) : Evolves r s₀ t := by
  unfold execCaptureDone at he
  cases he
  split
  · exact h
  · with_reducible refine Evolves.ite ?_ ?_
    · exact h
    · with_reducible refine State.captured_evolves _ ?_
      exact h

theorem execBuddySendDone_evolves {s₀ s t} (he : execBuddySendDone s = .next t) (h : Evolves r s₀ s) : Evolves r s₀ t := by
  unfold execBuddySendDone at he
  cases he
  split
  · exact h
  · with_reducible refine Evolves.ite ?_ ?_
    · exact h
    · with_reducible refine Evolves.ite ?_ ?_
      · extract_lets -underBinder -merge -useContext +onlyGivenNames v5 v6
        try clear_value v5
        have hv6 : Evolves r s₀ v6 := by
          with_reducible refine State.setCkSts_evolves _ _ ?_
          with_reducible refine Evolves.upd_mk rfl rfl rfl rfl rfl rfl rfl rfl rfl rfl rfl rfl rfl rfl rfl rfl rfl rfl rfl rfl rfl rfl rfl rfl rfl rfl rfl rfl ?_
          exact h
        try clear_value v6
        with_reducible refine State.notice_evolves _ _ _ ?_
        with_reducible refine State.setFld_evolves _ _ _ _ _ ?_
        with_reducible refine State.setReg_evolves _ _ _ ?_
        exact hv6
      · split
        · with_reducible refine State.buddyFail_evolves _ ?_
          exact h
        · extract_lets -underBinder -merge -useContext +onlyGivenNames v10
          have hv10 : Evolves r s₀ v10 := by
            with_reducible refine State.bulkSend_evolves _ _ _ ?_
            exact h
          try clear_value v10
          with_reducible refine Evolves.upd_mk rfl rfl rfl rfl rfl rfl rfl rfl rfl rfl rfl rfl rfl rfl rfl rfl rfl rfl rfl rfl rfl rfl rfl rfl rfl rfl rfl rfl ?_
          exact hv10

theorem State.startRestore_evolves {s₀ s} (h : Evolves r s₀ s) : Evolves r s₀ (State.startRestore s) := by
  unfold State.startRestore
  with_reducible refine Evolves.ite ?_ ?_
  · exact h
  · extract_lets -underBinder -merge -useContext +onlyGivenNames v0
    have hv0 : Evolves r s₀ v0 := by
      with_reducible refine State.setCkSts_evolves _ _ ?_
      exact h
    try clear_value v0
    with_reducible refine Evolves.ite ?_ ?_
    · with_reducible refine State.setCkSts_evolves _ _ ?_
      exact hv0
    · with_reducible refine State.ckpFail_evolves _ ?_
      exact hv0

theorem State.abortCkp_evolves {s₀ s} (h : Evolves r s₀ s) : Evolves r s₀ (State.abortCkp s) := by
  unfold State.abortCkp
  extract_lets -underBinder -merge -useContext +onlyGivenNames v0
  have hv0 : Evolves r s₀ v0 := by
    with_reducible refine Evolves.ite ?_ ?_
    · with_reducible refine State.stopCapture_evolves _ ?_
      exact h
    · exact h
  try clear_value v0
  extract_lets -underBinder -merge -useContext +onlyGivenNames v1
  have hv1 : Evolves r s₀ v1 := by
    with_reducible refine Evolves.ite ?_ ?_
    · with_reducible refine State.buddyFail_evolves _ ?_
      exact hv0
    · exact hv0
  try clear_value v1
  with_reducible refine Evolves.ite ?_ ?_
  · with_reducible refine State.ckpFail_evolves _ ?_
    with_reducible refine State.setCkSts_evolves _ _ ?_
    exact hv1
  · exact hv1

theorem ckpCtlWrite_evolves {s₀ s} (a) (h : Evolves r s₀ s) : Evolves r s₀ (ckpCtlWrite a s) := by
  unfold ckpCtlWrite
  extract_lets -underBinder -merge -useContext +onlyGivenNames v0
  have hv0 : Evolves r s₀ v0 := by
    with_reducible refine State.setReg_evolves _ _ _ ?_
    exact h
  try clear_value v0
  extract_lets -underBinder -merge -useContext +onlyGivenNames v1
  have hv1 : Evolves r s₀ v1 := by
    with_reducible refine Evolves.ite ?_ ?_
    · with_reducible refine State.setCkSts_evolves _ _ ?_
      exact hv0
    · exact hv0
  try clear_value v1
  extract_lets -underBinder -merge -useContext +onlyGivenNames v2
  have hv2 : Evolves r s₀ v2 := by
    with_reducible refine Evolves.ite ?_ ?_
    · with_reducible refine State.abortCkp_evolves ?_
      exact hv1
    · exact hv1
  try clear_value v2
  with_reducible refine Evolves.ite ?_ ?_
  · with_reducible refine State.startRestore_evolves ?_
    exact hv2
  · exact hv2

theorem execNow_evolves {s₀ s t} (a) (he : execNow a s = .next t) (h : Evolves r s₀ s) : Evolves r s₀ t := by
  unfold execNow at he
  cases he
  with_reducible refine State.onWrite_evolves _ _ _ _ (fun y0 hy0 => ?_) ?_
  · with_reducible refine ckpCtlWrite_evolves _ ?_
    exact hy0
  · exact h

theorem execRestore_evolves {s₀ s t} (a) (he : execRestore a s = .next t) (h : Evolves r s₀ s) : Evolves r s₀ t := by
  unfold execRestore at he
  cases he
  with_reducible refine State.onWrite_evolves _ _ _ _ (fun y0 hy0 => ?_) ?_
  · with_reducible refine ckpCtlWrite_evolves _ ?_
    exact hy0
  · exact h

theorem execCkpAbort_evolves {s₀ s t} (a) (he : execCkpAbort a s = .next t) (h : Evolves r s₀ s) : Evolves r s₀ t := by
  unfold execCkpAbort at he
  cases he
  with_reducible refine State.onWrite_evolves _ _ _ _ (fun y0 hy0 => ?_) ?_
  · with_reducible refine ckpCtlWrite_evolves _ ?_
    exact hy0
  · exact h

theorem State.srcBytes_evolves {s₀ s} (a b c) (h : Evolves r s₀ s) : Evolves r s₀ (State.srcBytes s a b c).1 := by
  unfold State.srcBytes
  extract_lets -underBinder -merge -useContext +onlyGivenNames v0
  try clear_value v0
  split
  · with_reducible refine Evolves.mk_fst ?_
    with_reducible refine State.devRead_evolves _ _ _ _ ?_
    exact h
  · with_reducible refine Evolves.mk_fst ?_
    with_reducible refine State.devRead_evolves _ _ _ _ ?_
    exact h
  · with_reducible refine Evolves.mk_fst ?_
    exact h

theorem State.putContent_evolves {s₀ s} (a b c d e) (h : Evolves r s₀ s) : Evolves r s₀ (State.putContent s a b c d e) := by
  unfold State.putContent
  split
  · exact h
  · extract_lets -underBinder -merge -useContext +onlyGivenNames v5
    have hv5 : ∀ z6 z7 z8, Evolves r s₀ z6 → Evolves r s₀ (v5 z6 z7 z8) := by
      intro z6 z7 z8 hz6
      dsimp only [v5]
      with_reducible refine State.blockStore_evolves _ _ _ _ _ ?_
      exact hz6
    clear_value v5
    with_reducible refine Evolves.ite ?_ ?_
    · exact h
    · split
      · with_reducible refine hv5 _ _ _ ?_
        exact h
      · with_reducible refine Evolves.ite ?_ ?_
        · exact h
        · extract_lets -underBinder -merge -useContext +onlyGivenNames v11
          try clear_value v11
          extract_lets -underBinder -merge -useContext +onlyGivenNames v12
          try clear_value v12
          extract_lets -underBinder -merge -useContext +onlyGivenNames v13
          have hv13 : Evolves r s₀ v13 := by
            with_reducible refine hv5 _ _ _ ?_
            exact h
          try clear_value v13
          with_reducible refine State.putContent_evolves _ _ _ _ _ ?_
          with_reducible refine hv5 _ _ _ ?_
          exact hv13
      · with_reducible refine Evolves.ite ?_ ?_
        · exact h
        · extract_lets -underBinder -merge -useContext +onlyGivenNames v15
          try clear_value v15
          extract_lets -underBinder -merge -useContext +onlyGivenNames v16
          have hv16 : Evolves r s₀ v16 := by
            with_reducible refine State.squashScale_evolves _ ?_
            with_reducible refine hv5 _ _ _ ?_
            exact h
          try clear_value v16
          extract_lets -underBinder -merge -useContext +onlyGivenNames v17
          have hv17 : Evolves r s₀ v17 := by
            with_reducible refine Evolves.ite ?_ ?_
            · with_reducible refine hv5 _ _ _ ?_
              exact hv16
            · exact hv16
          try clear_value v17
          with_reducible refine State.putContent_evolves _ _ _ _ _ ?_
          exact hv17
      · with_reducible refine Evolves.ite ?_ ?_
        · exact h
        · extract_lets -underBinder -merge -useContext +onlyGivenNames v19
          try clear_value v19
          extract_lets -underBinder -merge -useContext +onlyGivenNames v20
          try clear_value v20
          extract_lets -underBinder -merge -useContext +onlyGivenNames v21
          try clear_value v21
          extract_lets -underBinder -merge -useContext +onlyGivenNames v22
          have hv22 : Evolves r s₀ v22 := by
            with_reducible refine hv5 _ _ _ ?_
            exact h
          try clear_value v22
          with_reducible refine State.putContent_evolves _ _ _ _ _ ?_
          with_reducible refine hv5 _ _ _ ?_
          exact hv22
      · exact h

theorem State.restoreSegs_evolves {s₀ s} (a b c d) (h : Evolves r s₀ s) : Evolves r s₀ (State.restoreSegs s a b c d).1 := by
  unfold State.restoreSegs
  split
  · with_reducible refine Evolves.mk_fst ?_
    exact h
  · extract_lets -underBinder -merge -useContext +onlyGivenNames v4
    try clear_value v4
    split
    · rename_i w5 w6 w7 e8
      have hw5 : Evolves r s₀ w5 := Evolves.of_pair e8 (by
        with_reducible refine State.srcBytes_evolves _ _ _ ?_
        exact h)
      with_reducible refine Evolves.ite_fst ?_ ?_
      · with_reducible refine Evolves.mk_fst ?_
        with_reducible refine State.setReg_evolves _ _ _ ?_
        exact hw5
      · with_reducible refine Evolves.ite_fst ?_ ?_
        · with_reducible refine State.restoreSegs_evolves _ _ _ _ ?_
          exact hw5
        · with_reducible refine Evolves.ite_fst ?_ ?_
          · with_reducible refine Evolves.mk_fst ?_
            exact hw5
          · extract_lets -underBinder -merge -useContext +onlyGivenNames v9
            try clear_value v9
            with_reducible refine State.restoreSegs_evolves _ _ _ _ ?_
            with_reducible refine State.putContent_evolves _ _ _ _ _ ?_
            exact hw5

theorem State.restoreStream_evolves {s₀ s} (a b) (h : Evolves r s₀ s) : Evolves r s₀ (State.restoreStream s a b) := by
  unfold State.restoreStream
  extract_lets -underBinder -merge -useContext +onlyGivenNames v0
  try clear_value v0
  extract_lets -underBinder -merge -useContext +onlyGivenNames v1
  extract_lets -underBinder -merge -useContext +onlyGivenNames v2
  have hv2 : Evolves r s₀ v2 := by
    with_reducible refine Evolves.foldl (fun a3 x4 ha3 => ?_) ?_
    · with_reducible refine State.dropSample_evolves _ _ ?_
      with_reducible refine State.abandon_evolves _ _ ?_
      exact ha3
    · exact h
  try clear_value v2
  extract_lets -underBinder -merge -useContext +onlyGivenNames v5
  have hv5 : Evolves r s₀ v5 := by
    with_reducible refine State.modStr_evolves _ _ ?_
    exact hv2
  try clear_value v5
  with_reducible refine Evolves.foldl (fun a6 x7 ha6 => ?_) ?_
  · with_reducible refine State.setReg_evolves _ _ _ ?_
    exact ha6
  · exact hv5

theorem State.warmUp_evolves {s₀ s} (h : Evolves r s₀ s) : Evolves r s₀ (State.warmUp s) := by
  unfold State.warmUp
  extract_lets -underBinder -merge -useContext +onlyGivenNames v0
  have hv0 : Evolves r s₀ v0 := by
    with_reducible refine Evolves.foldl (fun a1 x2 ha1 => ?_) ?_
    · with_reducible refine State.overRec_evolves _ _ _ (fun y3 hy3 => ?_) ?_
      · extract_lets -underBinder -merge -useContext +onlyGivenNames v4
        have hv4 : Evolves r s₀ v4 := by
          with_reducible refine State.devPut_evolves _ _ _ ?_
          with_reducible refine State.devPut_evolves _ _ _ ?_
          exact hy3
        try clear_value v4
        extract_lets -underBinder -merge -useContext +onlyGivenNames v5
        have hv5 : Evolves r s₀ v5 := by
          with_reducible refine State.devPut_evolves _ _ _ ?_
          exact hv4
        try clear_value v5
        with_reducible refine State.devPut_evolves _ _ _ ?_
        exact hv5
      · exact ha1
    · exact h
  try clear_value v0
  with_reducible refine State.raise_evolves _ _ _ _ _ _ ?_
  exact hv0

theorem State.endRestore_evolves {s₀ s} (a b c) (h : Evolves r s₀ s) : Evolves r s₀ (State.endRestore s a b c) := by
  unfold State.endRestore
  extract_lets -underBinder -merge -useContext +onlyGivenNames v0
  try clear_value v0
  extract_lets -underBinder -merge -useContext +onlyGivenNames v1
  try clear_value v1
  extract_lets -underBinder -merge -useContext +onlyGivenNames v2
  have hv2 : Evolves r s₀ v2 := by
    with_reducible refine State.setReg_evolves _ _ _ ?_
    with_reducible refine State.setReg_evolves _ _ _ ?_
    with_reducible refine State.setReg_evolves _ _ _ ?_
    exact h
  try clear_value v2
  extract_lets -underBinder -merge -useContext +onlyGivenNames v3
  have hv3 : Evolves r s₀ v3 := by
    with_reducible refine State.setReg_evolves _ _ _ ?_
    exact hv2
  try clear_value v3
  extract_lets -underBinder -merge -useContext +onlyGivenNames v4
  have hv4 : Evolves r s₀ v4 := by
    with_reducible refine Evolves.foldl (fun a5 x6 ha5 => ?_) ?_
    · with_reducible refine State.restoreStream_evolves _ _ ?_
      exact ha5
    · exact hv3
  try clear_value v4
  extract_lets -underBinder -merge -useContext +onlyGivenNames v7
  have hv7 : Evolves r s₀ v7 := by
    with_reducible refine State.eachTile_evolves _ (fun y8 y9 hy8 => ?_) ?_
    · with_reducible refine State.setReg_evolves _ _ _ ?_
      with_reducible refine State.invalStats_evolves _ ?_
      exact hy8
    · exact hv4
  try clear_value v7
  extract_lets -underBinder -merge -useContext +onlyGivenNames v10
  have hv10 : Evolves r s₀ v10 := by
    with_reducible refine State.modGate_evolves _ ?_
    with_reducible refine State.setFld_evolves _ _ _ _ _ ?_
    with_reducible refine State.setReg_evolves _ _ _ ?_
    exact hv7
  try clear_value v10
  extract_lets -underBinder -merge -useContext +onlyGivenNames v11
  have hv11 : Evolves r s₀ v11 := by
    with_reducible refine Evolves.ite ?_ ?_
    · exact hv10
    · with_reducible refine State.warmUp_evolves ?_
      exact hv10
  try clear_value v11
  with_reducible refine State.notice_evolves _ _ _ ?_
  with_reducible refine State.setCkSts_evolves _ _ ?_
  with_reducible refine State.setCkSts_evolves _ _ ?_
  exact hv11

theorem State.restored_evolves {s₀ s} (a) (h : Evolves r s₀ s) : Evolves r s₀ (State.restored s a) := by
  unfold State.restored
  extract_lets -underBinder -merge -useContext +onlyGivenNames v0
  have hv0 : ∀ z1 z2, Evolves r s₀ z1 → Evolves r s₀ (v0 z1 z2) := by
    intro z1 z2 hz1
    dsimp only [v0]
    with_reducible refine State.ckpFail_evolves _ ?_
    with_reducible refine State.setCkSts_evolves _ _ ?_
    exact hz1
  clear_value v0
  with_reducible refine Evolves.ite ?_ ?_
  · with_reducible refine hv0 _ _ ?_
    exact h
  · with_reducible refine Evolves.ite ?_ ?_
    · with_reducible refine hv0 _ _ ?_
      exact h
    · split
      · rename_i w3 w4 w5 e6
        have hw3 : Evolves r s₀ w3 := Evolves.of_pair e6 (by
          with_reducible refine State.srcBytes_evolves _ _ _ ?_
          exact h)
        extract_lets -underBinder -merge -useContext +onlyGivenNames v7
        try clear_value v7
        split
        · rename_i w8 w9 w10 e11
          have hw8 : Evolves r s₀ w8 := Evolves.of_pair e11 (by
            with_reducible refine State.srcBytes_evolves _ _ _ ?_
            exact hw3)
          with_reducible refine Evolves.ite ?_ ?_
          · with_reducible refine hv0 _ _ ?_
            exact hw8
          · extract_lets -underBinder -merge -useContext +onlyGivenNames v12
            try clear_value v12
            split
            · rename_i w13 w14 w15 e16
              have hw13 : Evolves r s₀ w13 := Evolves.of_pair e16 (by
                with_reducible refine State.restoreSegs_evolves _ _ _ _ ?_
                exact hw8)
              with_reducible refine hv0 _ _ ?_
              exact hw13
            · rename_i w17 w18 e19
              have hw17 : Evolves r s₀ w17 := Evolves.of_pair e19 (by
                with_reducible refine State.restoreSegs_evolves _ _ _ _ ?_
                exact hw8)
              with_reducible refine State.endRestore_evolves _ _ _ ?_
              exact hw17

theorem execRestoreDone_evolves {s₀ s t} (a) (he : execRestoreDone a s = .next t) (h : Evolves r s₀ s) : Evolves r s₀ t := by
  unfold execRestoreDone at he
  cases he
  with_reducible refine Evolves.ite ?_ ?_
  · exact h
  · with_reducible refine State.restored_evolves _ ?_
    exact h

theorem synWait_evolves {s₀ s} (a) (h : Evolves r s₀ s) : Evolves r s₀ (synWait s a) := by
  unfold synWait
  with_reducible refine State.addRun_evolves _ _ ?_
  exact h

theorem synSend_evolves {s₀ s} (a) (h : Evolves r s₀ s) : Evolves r s₀ (synSend s a) := by
  unfold synSend
  with_reducible refine State.send_evolves _ _ _ _ ?_
  with_reducible refine State.addRun_evolves _ _ ?_
  exact h

theorem execSynFence_evolves {s₀ s t} (a b) (he : execSynFence a b s = .next t) (h : Evolves r s₀ s) : Evolves r s₀ t := by
  unfold execSynFence at he
  cases he
  with_reducible refine State.issueWith_evolves _ _ _ _ _ (fun y0 y1 hy0 => ?_) ?_
  · with_reducible refine synWait_evolves _ ?_
    exact hy0
  · exact h

theorem execSynSignal_evolves {s₀ s t} (a b) (he : execSynSignal a b s = .next t) (h : Evolves r s₀ s) : Evolves r s₀ t := by
  unfold execSynSignal at he
  cases he
  with_reducible refine State.issueWith_evolves _ _ _ _ _ (fun y0 y1 hy0 => ?_) ?_
  · with_reducible refine synSend_evolves _ ?_
    exact hy0
  · exact h

theorem execSynDrain_evolves {s₀ s t} (a b) (he : execSynDrain a b s = .next t) (h : Evolves r s₀ s) : Evolves r s₀ t := by
  unfold execSynDrain at he
  cases he
  with_reducible refine State.issueWith_evolves _ _ _ _ _ (fun y0 y1 hy0 => ?_) ?_
  · with_reducible refine synWait_evolves _ ?_
    exact hy0
  · exact h

theorem State.barrierArrive_evolves {s₀ s} (a b) (h : Evolves r s₀ s) : Evolves r s₀ (State.barrierArrive s a b) := by
  unfold State.barrierArrive
  extract_lets -underBinder -merge -useContext +onlyGivenNames v0
  try clear_value v0
  split
  · with_reducible refine Evolves.ite ?_ ?_
    · extract_lets -underBinder -merge -useContext +onlyGivenNames v2
      have hv2 : Evolves r s₀ v2 := by
        with_reducible refine State.modTile_evolves _ _ ?_
        exact h
      try clear_value v2
      with_reducible refine Evolves.upd_mk rfl rfl rfl rfl rfl rfl rfl rfl rfl rfl rfl rfl rfl rfl rfl rfl rfl rfl rfl rfl rfl rfl rfl rfl rfl rfl rfl rfl ?_
      exact hv2
    · exact h
  · exact h

theorem execSynBarrier_evolves {s₀ s t} (a b) (he : execSynBarrier a b s = .next t) (h : Evolves r s₀ s) : Evolves r s₀ t := by
  unfold execSynBarrier at he
  cases he
  with_reducible refine Evolves.ite ?_ ?_
  · with_reducible refine State.barrierArrive_evolves _ _ ?_
    exact h
  · with_reducible refine State.barrierArrive_evolves _ _ ?_
    with_reducible refine State.issueWith_evolves _ _ _ _ _ (fun y0 y1 hy0 => ?_) ?_
    · with_reducible refine synWait_evolves _ ?_
      exact hy0
    · exact h

theorem State.releaseBarrier_evolves {s₀ s} (a) (h : Evolves r s₀ s) : Evolves r s₀ (State.releaseBarrier s a) := by
  unfold State.releaseBarrier
  with_reducible refine Evolves.foldl (fun a0 x1 ha0 => ?_) ?_
  · with_reducible refine State.modTile_evolves _ _ ?_
    exact ha0
  · exact h

theorem State.countArrival_evolves {s₀ s} (a) (h : Evolves r s₀ s) : Evolves r s₀ (State.countArrival s a) := by
  unfold State.countArrival
  extract_lets -underBinder -merge -useContext +onlyGivenNames v0
  try clear_value v0
  extract_lets -underBinder -merge -useContext +onlyGivenNames v1
  try clear_value v1
  extract_lets -underBinder -merge -useContext +onlyGivenNames v2
  try clear_value v2
  extract_lets -underBinder -merge -useContext +onlyGivenNames v3
  try clear_value v3
  extract_lets -underBinder -merge -useContext +onlyGivenNames v4
  try clear_value v4
  extract_lets -underBinder -merge -useContext +onlyGivenNames v5
  have hv5 : Evolves r s₀ v5 := by
    with_reducible refine Evolves.ite ?_ ?_
    · exact h
    · with_reducible refine State.raise_evolves _ _ _ _ _ _ ?_
      exact h
  try clear_value v5
  extract_lets -underBinder -merge -useContext +onlyGivenNames v6
  try clear_value v6
  with_reducible refine Evolves.ite ?_ ?_
  · with_reducible refine State.releaseBarrier_evolves _ ?_
    with_reducible refine Evolves.upd_parts ?_ rfl rfl rfl rfl rfl rfl rfl rfl rfl rfl rfl ?_
    · exact fun hp => { hp with
        barriers := by first | exact keysRise_sset hp.barriers | exact keysRise_filter _ hp.barriers | exact keysRise_sput (Nat.zero_le _) hp.barriers | exact keysRise_sdel hp.barriers | exact keysRise_map_snd hp.barriers | exact keysRise_map_if hp.barriers | rfl
      }
    exact hv5
  · with_reducible refine Evolves.upd_parts ?_ rfl rfl rfl rfl rfl rfl rfl rfl rfl rfl rfl ?_
    · exact fun hp => { hp with
        barriers := by first | exact keysRise_sset hp.barriers | exact keysRise_filter _ hp.barriers | exact keysRise_sput (Nat.zero_le _) hp.barriers | exact keysRise_sdel hp.barriers | exact keysRise_map_snd hp.barriers | exact keysRise_map_if hp.barriers | rfl
      }
    exact hv5

theorem execBarrierArrival_evolves {s₀ s t} (a) (he : execBarrierArrival a s = .next t) (h : Evolves r s₀ s) : Evolves r s₀ t := by
  unfold execBarrierArrival at he
  cases he
  split
  · with_reducible refine Evolves.ite ?_ ?_
    · with_reducible refine State.countArrival_evolves _ ?_
      with_reducible refine Evolves.upd_mk rfl rfl rfl rfl rfl rfl rfl rfl rfl rfl rfl rfl rfl rfl rfl rfl rfl rfl rfl rfl rfl rfl rfl rfl rfl rfl rfl rfl ?_
      exact h
    · exact h
  · exact h

theorem State.modXfer_evolves {s₀ s} (a b) (h : Evolves r s₀ s) : Evolves r s₀ (State.modXfer s a b) := by
  unfold State.modXfer
  with_reducible refine Evolves.upd_mk rfl rfl rfl rfl rfl rfl rfl rfl rfl rfl rfl rfl rfl rfl rfl rfl rfl rfl rfl rfl rfl rfl rfl rfl rfl rfl rfl rfl ?_
  exact h

theorem State.dropXfer_evolves {s₀ s} (a) (h : Evolves r s₀ s) : Evolves r s₀ (State.dropXfer s a) := by
  unfold State.dropXfer
  with_reducible refine Evolves.upd_mk rfl rfl rfl rfl rfl rfl rfl rfl rfl rfl rfl rfl rfl rfl rfl rfl rfl rfl rfl rfl rfl rfl rfl rfl rfl rfl rfl rfl ?_
  exact h

theorem State.setRunSt_evolves {s₀ s} (a b) (h : Evolves r s₀ s) : Evolves r s₀ (State.setRunSt s a b) := by
  unfold State.setRunSt
  with_reducible refine Evolves.ite ?_ ?_
  · exact h
  · with_reducible refine State.modTile_evolves _ _ ?_
    exact h

theorem State.noteUndo_evolves {s₀ s} (a b) (h : Evolves r s₀ s) : Evolves r s₀ (State.noteUndo s a b) := by
  unfold State.noteUndo
  with_reducible refine Evolves.ite ?_ ?_
  · exact h
  · with_reducible refine State.modTile_evolves _ _ ?_
    exact h

theorem State.pickEngine_evolves {s₀ s t w} (a) (he : State.pickEngine s a = some (w, t)) (h : Evolves r s₀ s) :
    Evolves r s₀ t := by
  unfold State.pickEngine at he
  dsimp only at he
  split at he
  · cases he
  · cases he
    exact State.fresh_evolves h

theorem State.xReq_evolves {s₀ s} (a b c d) (h : Evolves r s₀ s) : Evolves r s₀ (State.xReq s a b c d) := by
  unfold State.xReq
  with_reducible refine State.crsRequest_evolves _ _ ?_
  exact h

theorem State.xFar_evolves {s₀ s} (a b c) (h : Evolves r s₀ s) : Evolves r s₀ (State.xFar s a b c) := by
  unfold State.xFar
  with_reducible refine Evolves.foldl (fun a0 x1 ha0 => ?_) ?_
  · with_reducible refine State.xReq_evolves _ _ _ _ ?_
    exact ha0
  · exact h

theorem State.xFeed_evolves {s₀ s} (a) (h : Evolves r s₀ s) : Evolves r s₀ (State.xFeed s a) := by
  unfold State.xFeed
  split
  · split
    · with_reducible refine State.modXfer_evolves _ _ ?_
      with_reducible refine Evolves.ite ?_ ?_
      · exact h
      · with_reducible refine State.chkFeed_evolves _ _ ?_
        exact h
  · exact h

theorem State.feedBytes_evolves {s₀ s} (a b) (h : Evolves r s₀ s) : Evolves r s₀ (State.feedBytes s a b) := by
  unfold State.feedBytes
  with_reducible refine State.xFeed_evolves _ ?_
  with_reducible refine State.modXfer_evolves _ _ ?_
  exact h

theorem State.feedLater_evolves {s₀ s} (a b) (h : Evolves r s₀ s) : Evolves r s₀ (State.feedLater s a b) := by
  unfold State.feedLater
  with_reducible refine State.modXfer_evolves _ _ ?_
  exact h

theorem State.feedCame_evolves {s₀ s} (a b c) (h : Evolves r s₀ s) : Evolves r s₀ (State.feedCame s a b c) := by
  unfold State.feedCame
  with_reducible refine State.xFeed_evolves _ ?_
  with_reducible refine State.modXfer_evolves _ _ ?_
  exact h

theorem State.xUnpin_evolves {s₀ s} (a) (h : Evolves r s₀ s) : Evolves r s₀ (State.xUnpin s a) := by
  unfold State.xUnpin
  split
  · split
    · with_reducible refine State.modXfer_evolves _ _ ?_
      with_reducible refine State.unpin_evolves _ _ ?_
      exact h
    · exact h
  · exact h

theorem State.endGrantsOf_evolves {s₀ s} (a b) (h : Evolves r s₀ s) : Evolves r s₀ (State.endGrantsOf s a b) := by
  unfold State.endGrantsOf
  with_reducible refine Evolves.foldl (fun a0 x1 ha0 => ?_) ?_
  · with_reducible refine State.endGrant_evolves _ _ ?_
    exact ha0
  · exact h

theorem State.xStop_evolves {s₀ s} (a) (h : Evolves r s₀ s) : Evolves r s₀ (State.xStop s a) := by
  unfold State.xStop
  extract_lets -underBinder -merge -useContext +onlyGivenNames v0
  have hv0 : Evolves r s₀ v0 := by
    with_reducible refine State.crsWithdraw_evolves _ ?_
    with_reducible refine State.xUnpin_evolves _ ?_
    exact h
  try clear_value v0
  extract_lets -underBinder -merge -useContext +onlyGivenNames v1
  have hv1 : Evolves r s₀ v1 := by
    with_reducible refine Evolves.upd_mk rfl rfl rfl rfl rfl rfl rfl rfl rfl rfl rfl rfl rfl rfl rfl rfl rfl rfl rfl rfl rfl rfl rfl rfl rfl rfl rfl rfl ?_
    exact hv0
  try clear_value v1
  with_reducible refine State.endGrantsOf_evolves _ _ ?_
  exact hv1

theorem State.xFault_evolves {s₀ s} (a b c) (h : Evolves r s₀ s) : Evolves r s₀ (State.xFault s a b c) := by
  unfold State.xFault
  split
  · exact h
  · with_reducible refine Evolves.ite ?_ ?_
    · exact h
    · extract_lets -underBinder -merge -useContext +onlyGivenNames v2
      have hv2 : Evolves r s₀ v2 := by
        unfold v2
        split
        · with_reducible refine State.orReg_evolves _ _ _ ?_
          exact h
        · exact h
      try clear_value v2
      extract_lets -underBinder -merge -useContext +onlyGivenNames v5
      have hv5 : Evolves r s₀ v5 := by
        with_reducible refine State.modXfer_evolves _ _ ?_
        with_reducible refine State.xStop_evolves _ ?_
        exact hv2
      try clear_value v5
      with_reducible refine Evolves.ite ?_ ?_
      · with_reducible refine State.movFault_evolves _ _ _ _ ?_
        with_reducible refine State.setRunSt_evolves _ _ ?_
        exact hv5
      · exact hv5

theorem State.xWalkFault_evolves {s₀ s} (a b c) (h : Evolves r s₀ s) : Evolves r s₀ (State.xWalkFault s a b c) := by
  unfold State.xWalkFault
  split
  · exact h
  · with_reducible refine State.xFault_evolves _ _ _ ?_
    with_reducible refine State.walkFault_evolves _ _ _ _ ?_
    exact h

theorem State.xStashFault_evolves {s₀ s} (a b c d) (h : Evolves r s₀ s) : Evolves r s₀ (State.xStashFault s a b c d) := by
  unfold State.xStashFault
  with_reducible refine State.xFault_evolves _ _ _ ?_
  with_reducible refine State.raise_evolves _ _ _ _ _ _ ?_
  with_reducible refine State.bump_evolves _ _ _ ?_
  exact h

theorem State.xReset_evolves {s₀ s} (a b) (h : Evolves r s₀ s) : Evolves r s₀ (State.xReset s a b) := by
  unfold State.xReset
  split
  · rename_i w0 w1 e2
    have hw1 : Evolves r s₀ w1 := Evolves.of_pair2 e2 (by
      with_reducible refine State.fresh_evolves ?_
      exact h)
    with_reducible refine State.xFault_evolves _ _ _ ?_
    exact hw1

theorem State.xFaultAll_evolves {s₀ s} (a b) (h : Evolves r s₀ s) : Evolves r s₀ (State.xFaultAll s a b) := by
  unfold State.xFaultAll
  with_reducible refine Evolves.foldl (fun a0 x1 ha0 => ?_) ?_
  · with_reducible refine State.xReset_evolves _ _ ?_
    exact ha0
  · exact h

theorem State.xFinish_evolves {s₀ s} (a) (h : Evolves r s₀ s) : Evolves r s₀ (State.xFinish s a) := by
  unfold State.xFinish
  with_reducible refine State.dropXfer_evolves _ ?_
  with_reducible refine State.dropReqs_evolves _ ?_
  with_reducible refine State.xStop_evolves _ ?_
  exact h

theorem State.dropCopies_evolves {s₀ s} (a) (h : Evolves r s₀ s) : Evolves r s₀ (State.dropCopies s a) := by
  unfold State.dropCopies
  with_reducible refine Evolves.foldl (fun a0 x1 ha0 => ?_) ?_
  · with_reducible refine State.xFinish_evolves _ ?_
    exact ha0
  · exact h

theorem State.newXfer_evolves {s₀ s} (a) (h : Evolves r s₀ s) : Evolves r s₀ (State.newXfer s a) := by
  unfold State.newXfer
  extract_lets -underBinder -merge -useContext +onlyGivenNames v0
  have hv0 : Evolves r s₀ v0 := by
    with_reducible refine Evolves.upd_mk rfl rfl rfl rfl rfl rfl rfl rfl rfl rfl rfl rfl rfl rfl rfl rfl rfl rfl rfl rfl rfl rfl rfl rfl rfl rfl rfl rfl ?_
    exact h
  try clear_value v0
  with_reducible refine Evolves.ite ?_ ?_
  · with_reducible refine State.xReq_evolves _ _ _ _ ?_
    exact hv0
  · exact hv0

end Sys2Proof.Machine
end

