-- ==== Sys2Proof/Laws/EvolvesHost.lean ====
section
/-! SUPPORT. Laws/EvolvesHost.lean: every operation of host ports, partitions and security evolves the state (Laws/Evolves.lean); one lemma for each. -/
namespace Sys2Proof.Machine

set_option Elab.async false
set_option linter.all false

variable {r : Bool}

theorem State.modPort_evolves {s₀ s} (a b) (h : Evolves r s₀ s) : Evolves r s₀ (State.modPort s a b) := by
  unfold State.modPort
  with_reducible refine State.setPort_evolves _ _ ?_
  exact h

theorem State.setHptSts_evolves {s₀ s} (a b c) (h : Evolves r s₀ s) : Evolves r s₀ (State.setHptSts s a b c) := by
  unfold State.setHptSts
  with_reducible refine State.setFld_evolves _ _ _ _ _ ?_
  exact h

theorem State.flushPba_evolves {s₀ s} (a) (h : Evolves r s₀ s) : Evolves r s₀ (State.flushPba s a) := by
  unfold State.flushPba
  with_reducible refine Evolves.foldl (fun a0 x1 ha0 => ?_) ?_
  · extract_lets -underBinder -merge -useContext +onlyGivenNames v2
    try clear_value v2
    with_reducible refine Evolves.ite ?_ ?_
    · with_reducible refine State.signalPort_evolves _ _ ?_
      with_reducible refine State.setPort_evolves _ _ ?_
      exact ha0
    · exact ha0
  · exact h

theorem State.cfgWrite_evolves {s₀ s} (a b c) (h : Evolves r s₀ s) : Evolves r s₀ (State.cfgWrite s a b c) := by
  unfold State.cfgWrite
  extract_lets -underBinder -merge -useContext +onlyGivenNames v0
  try clear_value v0
  with_reducible refine Evolves.ite ?_ ?_
  · with_reducible refine State.flushPba_evolves _ ?_
    with_reducible refine State.modPort_evolves _ _ ?_
    exact h
  · with_reducible refine Evolves.ite ?_ ?_
    · with_reducible refine State.modPort_evolves _ _ ?_
      exact h
    · exact h

theorem execConfigRequest_evolves {s₀ s t} (a b c d) (he : execConfigRequest a b c d s = .next t) (h : Evolves r s₀ s) : Evolves r s₀ t := by
  unfold execConfigRequest at he
  cases he
  with_reducible refine Evolves.ite ?_ ?_
  · exact h
  · with_reducible refine Evolves.ite ?_ ?_
    · with_reducible refine Evolves.upd_out ?_ rfl rfl rfl rfl rfl rfl rfl rfl rfl rfl rfl rfl rfl rfl rfl rfl rfl rfl rfl rfl rfl rfl rfl rfl rfl rfl rfl ?_
      · exact ⟨_, rfl⟩
      exact h
    · with_reducible refine Evolves.ite ?_ ?_
      · with_reducible refine State.cfgWrite_evolves _ _ _ ?_
        exact h
      · with_reducible refine Evolves.upd_out ?_ rfl rfl rfl rfl rfl rfl rfl rfl rfl rfl rfl rfl rfl rfl rfl rfl rfl rfl rfl rfl rfl rfl rfl rfl rfl rfl rfl ?_
        · exact ⟨_, rfl⟩
        exact h

theorem execIrqHoldoffExpire_evolves {s₀ s t} (a b) (he : execIrqHoldoffExpire a b s = .next t) (h : Evolves r s₀ s) : Evolves r s₀ t := by
  unfold execIrqHoldoffExpire at he
  cases he
  extract_lets -underBinder -merge -useContext +onlyGivenNames v0
  try clear_value v0
  split
  · exact h
  · with_reducible refine Evolves.ite ?_ ?_
    · exact h
    · extract_lets -underBinder -merge -useContext +onlyGivenNames v3
      have hv3 : Evolves r s₀ v3 := by
        with_reducible refine State.setPort_evolves _ _ ?_
        exact h
      try clear_value v3
      with_reducible refine Evolves.ite ?_ ?_
      · with_reducible refine State.signalPort_evolves _ _ ?_
        exact hv3
      · exact hv3

theorem vectorCtlWrite_evolves {s₀ s} (a b c) (h : Evolves r s₀ s) : Evolves r s₀ (vectorCtlWrite a b c s) := by
  unfold vectorCtlWrite
  with_reducible refine State.flushPba_evolves _ ?_
  with_reducible refine State.setReg_evolves _ _ _ ?_
  exact h

theorem execVectorUnmask_evolves {s₀ s t} (a b) (he : execVectorUnmask a b s = .next t) (h : Evolves r s₀ s) : Evolves r s₀ t := by
  unfold execVectorUnmask at he
  cases he
  with_reducible refine Evolves.ite ?_ ?_
  · with_reducible refine State.onWrite_evolves _ _ _ _ (fun y0 hy0 => ?_) ?_
    · with_reducible refine vectorCtlWrite_evolves _ _ _ ?_
      exact hy0
    · exact h
  · exact h

theorem State.setWin_evolves {s₀ s} (a b) (h : Evolves r s₀ s) : Evolves r s₀ (State.setWin s a b) := by
  unfold State.setWin
  with_reducible refine State.modPort_evolves _ _ ?_
  exact h

theorem State.winNext_evolves {s₀ s} (a) (h : Evolves r s₀ s) : Evolves r s₀ (State.winNext s a) := by
  unfold State.winNext
  with_reducible refine State.setReg_evolves _ _ _ ?_
  exact h

theorem winLoWrite_evolves {s₀ s} (a b) (h : Evolves r s₀ s) : Evolves r s₀ (winLoWrite a b s) := by
  unfold winLoWrite
  with_reducible refine State.setWin_evolves _ _ ?_
  exact h

theorem winHiWrite_evolves {s₀ s} (a b) (h : Evolves r s₀ s) : Evolves r s₀ (winHiWrite a b s) := by
  unfold winHiWrite
  with_reducible refine State.winNext_evolves _ ?_
  with_reducible refine State.setWin_evolves _ _ ?_
  exact h

theorem winHiRead_evolves {s₀ s} (a) (h : Evolves r s₀ s) : Evolves r s₀ (winHiRead a s) := by
  unfold winHiRead
  with_reducible refine State.reply_evolves _ ?_
  with_reducible refine State.winNext_evolves _ ?_
  exact h

theorem execWinDataHiAccess_evolves {s₀ s t} (a b c d) (he : execWinDataHiAccess a b c d s = .next t) (h : Evolves r s₀ s) : Evolves r s₀ t := by
  unfold execWinDataHiAccess at he
  cases he
  with_reducible refine Evolves.ite ?_ ?_
  · with_reducible refine Evolves.ite ?_ ?_
    · with_reducible refine State.onWrite_evolves _ _ _ _ (fun y0 hy0 => ?_) ?_
      · with_reducible refine winHiWrite_evolves _ _ ?_
        exact hy0
      · exact h
    · with_reducible refine State.onRead_evolves _ _ _ _ (fun y1 hy1 => ?_) ?_
      · with_reducible refine winHiRead_evolves _ ?_
        exact hy1
      · exact h
  · exact h

theorem pageLockWrite_evolves {s₀ s} (a b c) (h : Evolves r s₀ s) : Evolves r s₀ (pageLockWrite a b c s) := by
  unfold pageLockWrite
  extract_lets -underBinder -merge -useContext +onlyGivenNames v0
  try clear_value v0
  extract_lets -underBinder -merge -useContext +onlyGivenNames v1
  try clear_value v1
  with_reducible refine Evolves.ite ?_ ?_
  · with_reducible refine Evolves.ite ?_ ?_
    · with_reducible refine State.setReg_evolves _ _ _ ?_
      exact h
    · exact h
  · with_reducible refine Evolves.ite ?_ ?_
    · with_reducible refine State.setReg_evolves _ _ _ ?_
      exact h
    · with_reducible refine Evolves.ite ?_ ?_
      · exact h
      · split
        · with_reducible refine State.deny_evolves _ _ _ ?_
          exact h
        · exact h

theorem execPageLockWrite_evolves {s₀ s t} (a b c) (he : execPageLockWrite a b c s = .next t) (h : Evolves r s₀ s) : Evolves r s₀ t := by
  unfold execPageLockWrite at he
  cases he
  with_reducible refine Evolves.ite ?_ ?_
  · exact h
  · with_reducible refine State.onWrite_evolves _ _ _ _ (fun y0 hy0 => ?_) ?_
    · with_reducible refine pageLockWrite_evolves _ _ _ ?_
      exact hy0
    · exact h

theorem State.setCq_evolves {s₀ s} (a b) (h : Evolves r s₀ s) : Evolves r s₀ (State.setCq s a b) := by
  unfold State.setCq
  with_reducible refine Evolves.upd_parts ?_ rfl rfl rfl rfl rfl rfl rfl rfl rfl rfl rfl ?_
  · exact fun hp => { hp with
      queues := by first | exact keysRise_sset hp.queues | exact keysRise_filter _ hp.queues | exact keysRise_sput (Nat.zero_le _) hp.queues | exact keysRise_sdel hp.queues | exact keysRise_map_snd hp.queues | exact keysRise_map_if hp.queues | rfl
    }
  exact h

theorem State.modCq_evolves {s₀ s} (a b) (h : Evolves r s₀ s) : Evolves r s₀ (State.modCq s a b) := by
  unfold State.modCq
  with_reducible refine State.setCq_evolves _ _ ?_
  exact h

theorem State.cqHead_evolves {s₀ s} (a) (h : Evolves r s₀ s) : Evolves r s₀ (State.cqHead s a) := by
  unfold State.cqHead
  extract_lets -underBinder -merge -useContext +onlyGivenNames v0
  try clear_value v0
  extract_lets -underBinder -merge -useContext +onlyGivenNames v1
  try clear_value v1
  extract_lets -underBinder -merge -useContext +onlyGivenNames v2
  try clear_value v2
  with_reducible refine State.setReg_evolves _ _ _ ?_
  with_reducible refine State.setCq_evolves _ _ ?_
  exact h

theorem State.cqReport_evolves {s₀ s} (a b c d e) (h : Evolves r s₀ s) : Evolves r s₀ (State.cqReport s a b c d e) := by
  unfold State.cqReport
  split
  · exact h
  · extract_lets -underBinder -merge -useContext +onlyGivenNames v2
    try clear_value v2
    extract_lets -underBinder -merge -useContext +onlyGivenNames v3
    try clear_value v3
    extract_lets -underBinder -merge -useContext +onlyGivenNames v4
    try clear_value v4
    extract_lets -underBinder -merge -useContext +onlyGivenNames v5
    try clear_value v5
    extract_lets -underBinder -merge -useContext +onlyGivenNames v6
    have hv6 : Evolves r s₀ v6 := by
      with_reducible refine Evolves.ite ?_ ?_
      · with_reducible refine State.blockStore_evolves _ _ _ _ _ ?_
        exact h
      · exact h
    try clear_value v6
    extract_lets -underBinder -merge -useContext +onlyGivenNames v7
    have hv7 : Evolves r s₀ v7 := by
      with_reducible refine Evolves.ite ?_ ?_
      · with_reducible refine State.signalPort_evolves _ _ ?_
        exact hv6
      · exact hv6
    try clear_value v7
    with_reducible refine Evolves.ite ?_ ?_
    · exact hv7
    · with_reducible refine State.raise_evolves _ _ _ _ _ _ ?_
      with_reducible refine State.orReg_evolves _ _ _ ?_
      with_reducible refine State.setFld_evolves _ _ _ _ _ ?_
      exact hv7

theorem State.cqTake_evolves {s₀ s} (a b c d) (h : Evolves r s₀ s) : Evolves r s₀ (State.cqTake s a b c d) := by
  unfold State.cqTake
  with_reducible refine State.cqHead_evolves _ ?_
  with_reducible refine State.modCq_evolves _ _ ?_
  exact h

theorem State.cqFinish_evolves {s₀ s} (a b c d) (h : Evolves r s₀ s) : Evolves r s₀ (State.cqFinish s a b c d) := by
  unfold State.cqFinish
  extract_lets -underBinder -merge -useContext +onlyGivenNames v0
  try clear_value v0
  with_reducible refine State.cqTake_evolves _ _ _ _ ?_
  with_reducible refine State.cqReport_evolves _ _ _ _ _ ?_
  exact h

theorem State.cqFlushRun_evolves {s₀ s} (a b) (h : Evolves r s₀ s) : Evolves r s₀ (State.cqFlushRun a b s) := by
  unfold State.cqFlushRun
  split
  · exact (by assumption)
  · extract_lets -underBinder -merge -useContext +onlyGivenNames v3
    try clear_value v3
    split
    · exact (by assumption)
    · with_reducible refine Evolves.ite ?_ ?_
      · with_reducible refine State.setReg_evolves _ _ _ ?_
        with_reducible refine State.setCq_evolves _ _ ?_
        exact (by assumption)
      · with_reducible refine Evolves.ite ?_ ?_
        · exact (by assumption)
        · extract_lets -underBinder -merge -useContext +onlyGivenNames v6
          try clear_value v6
          with_reducible refine Evolves.ite ?_ ?_
          · exact (by assumption)
          · with_reducible refine State.cqFlushRun_evolves _ _ ?_
            with_reducible refine State.cqFinish_evolves _ _ _ _ ?_
            exact (by assumption)

theorem cqTailWrite_evolves {s₀ s} (a b) (h : Evolves r s₀ s) : Evolves r s₀ (cqTailWrite a b s) := by
  unfold cqTailWrite
  extract_lets -underBinder -merge -useContext +onlyGivenNames v0
  try clear_value v0
  with_reducible refine Evolves.ite ?_ ?_
  · with_reducible refine State.setReg_evolves _ _ _ ?_
    exact h
  · with_reducible refine State.orReg_evolves _ _ _ ?_
    exact h

theorem State.cqResume_evolves {s₀ s} (a) (h : Evolves r s₀ s) : Evolves r s₀ (State.cqResume s a) := by
  unfold State.cqResume
  with_reducible refine State.setReg_evolves _ _ _ ?_
  exact h

theorem State.cqFlush_evolves {s₀ s} (a) (h : Evolves r s₀ s) : Evolves r s₀ (State.cqFlush s a) := by
  unfold State.cqFlush
  extract_lets -underBinder -merge -useContext +onlyGivenNames v0
  try clear_value v0
  with_reducible refine State.cqFlushRun_evolves _ _ ?_
  with_reducible refine State.modCq_evolves _ _ ?_
  exact h

theorem cqCtlWrite_evolves {s₀ s} (a b) (h : Evolves r s₀ s) : Evolves r s₀ (cqCtlWrite a b s) := by
  unfold cqCtlWrite
  extract_lets -underBinder -merge -useContext +onlyGivenNames v0
  try clear_value v0
  extract_lets -underBinder -merge -useContext +onlyGivenNames v1
  have hv1 : Evolves r s₀ v1 := by
    with_reducible refine State.setReg_evolves _ _ _ ?_
    exact h
  try clear_value v1
  extract_lets -underBinder -merge -useContext +onlyGivenNames v2
  have hv2 : Evolves r s₀ v2 := by
    with_reducible refine Evolves.ite ?_ ?_
    · with_reducible refine State.setFld_evolves _ _ _ _ _ ?_
      with_reducible refine State.setReg_evolves _ _ _ ?_
      with_reducible refine State.setReg_evolves _ _ _ ?_
      with_reducible refine State.setCq_evolves _ _ ?_
      with_reducible refine State.dropCopies_evolves _ ?_
      exact hv1
    · exact hv1
  try clear_value v2
  extract_lets -underBinder -merge -useContext +onlyGivenNames v3
  have hv3 : Evolves r s₀ v3 := by
    with_reducible refine Evolves.ite ?_ ?_
    · with_reducible refine State.cqResume_evolves _ ?_
      exact hv2
    · exact hv2
  try clear_value v3
  with_reducible refine Evolves.ite ?_ ?_
  · with_reducible refine State.cqFlush_evolves _ ?_
    exact hv3
  · exact hv3

theorem cqAddrWrite_evolves {s₀ s} (a b c) (h : Evolves r s₀ s) : Evolves r s₀ (cqAddrWrite a b c s) := by
  unfold cqAddrWrite
  with_reducible refine State.setReg_evolves _ _ _ ?_
  exact h

theorem cqWrite_evolves {s₀ s} (a b c) (h : Evolves r s₀ s) : Evolves r s₀ (cqWrite a b c s) := by
  unfold cqWrite
  with_reducible refine Evolves.ite ?_ ?_
  · with_reducible refine cqTailWrite_evolves _ _ ?_
    exact h
  · with_reducible refine Evolves.ite ?_ ?_
    · with_reducible refine cqCtlWrite_evolves _ _ ?_
      exact h
    · with_reducible refine Evolves.ite ?_ ?_
      · with_reducible refine cqAddrWrite_evolves _ _ _ ?_
        exact h
      · exact h

theorem execCqEnable_evolves {s₀ s t} (a b c) (he : execCqEnable a b c s = .next t) (h : Evolves r s₀ s) : Evolves r s₀ t := by
  unfold execCqEnable at he
  cases he
  with_reducible refine Evolves.ite ?_ ?_
  · with_reducible refine State.onWrite_evolves _ _ _ _ (fun y0 hy0 => ?_) ?_
    · with_reducible refine cqCtlWrite_evolves _ _ ?_
      exact hy0
    · exact h
  · exact h

theorem execCqDoorbell_evolves {s₀ s t} (a b c) (he : execCqDoorbell a b c s = .next t) (h : Evolves r s₀ s) : Evolves r s₀ t := by
  unfold execCqDoorbell at he
  cases he
  with_reducible refine Evolves.ite ?_ ?_
  · with_reducible refine State.onWrite_evolves _ _ _ _ (fun y0 hy0 => ?_) ?_
    · with_reducible refine cqTailWrite_evolves _ _ ?_
      exact hy0
    · exact h
  · exact h

theorem execCqResume_evolves {s₀ s t} (a b c) (he : execCqResume a b c s = .next t) (h : Evolves r s₀ s) : Evolves r s₀ t := by
  unfold execCqResume at he
  cases he
  with_reducible refine Evolves.ite ?_ ?_
  · with_reducible refine State.onWrite_evolves _ _ _ _ (fun y0 hy0 => ?_) ?_
    · with_reducible refine cqCtlWrite_evolves _ _ ?_
      exact hy0
    · exact h
  · exact h

theorem execCqFlush_evolves {s₀ s t} (a b c) (he : execCqFlush a b c s = .next t) (h : Evolves r s₀ s) : Evolves r s₀ t := by
  unfold execCqFlush at he
  cases he
  with_reducible refine Evolves.ite ?_ ?_
  · with_reducible refine State.onWrite_evolves _ _ _ _ (fun y0 hy0 => ?_) ?_
    · with_reducible refine cqCtlWrite_evolves _ _ ?_
      exact hy0
    · exact h
  · exact h

theorem State.detach_evolves {s₀ s} (a b) (h : Evolves r s₀ s) : Evolves r s₀ (State.detach s a b) := by
  unfold State.detach
  extract_lets -underBinder -merge -useContext +onlyGivenNames v0
  have hv0 : Evolves r s₀ v0 := by
    with_reducible refine Evolves.foldl (fun a1 x2 ha1 => ?_) ?_
    · with_reducible refine State.orReg_evolves _ _ _ ?_
      exact ha1
    · exact h
  try clear_value v0
  extract_lets -underBinder -merge -useContext +onlyGivenNames v3
  have hv3 : Evolves r s₀ v3 := by
    with_reducible refine State.setHptSts_evolves _ _ _ ?_
    exact hv0
  try clear_value v3
  extract_lets -underBinder -merge -useContext +onlyGivenNames v4
  have hv4 : Evolves r s₀ v4 := by
    with_reducible refine State.modPort_evolves _ _ ?_
    with_reducible refine State.setFld_evolves _ _ _ _ _ ?_
    exact hv3
  try clear_value v4
  extract_lets -underBinder -merge -useContext +onlyGivenNames v5
  have hv5 : Evolves r s₀ v5 := by
    with_reducible refine State.raise_evolves _ _ _ _ _ _ ?_
    exact hv4
  try clear_value v5
  extract_lets -underBinder -merge -useContext +onlyGivenNames v6
  try clear_value v6
  with_reducible refine Evolves.ite ?_ ?_
  · exact hv5
  · extract_lets -underBinder -merge -useContext +onlyGivenNames v7
    have hv7 : Evolves r s₀ v7 := by
      with_reducible refine State.raise_evolves _ _ _ _ _ _ ?_
      with_reducible refine State.orReg_evolves _ _ _ ?_
      exact hv5
    try clear_value v7
    with_reducible refine Evolves.ite ?_ ?_
    · with_reducible refine State.modStep_evolves _ ?_
      with_reducible refine State.setStsBit_evolves _ _ ?_
      exact hv7
    · exact hv7

theorem State.resetPort_evolves {s₀ s} (a) (h : Evolves r s₀ s) : Evolves r s₀ (State.resetPort s a) := by
  unfold State.resetPort
  extract_lets -underBinder -merge -useContext +onlyGivenNames v0
  try clear_value v0
  extract_lets -underBinder -merge -useContext +onlyGivenNames v1
  have hv1 : Evolves r s₀ v1 := by
    with_reducible refine State.setReg_evolves _ _ _ ?_
    with_reducible refine State.resetBlock_evolves _ ?_
    exact h
  try clear_value v1
  extract_lets -underBinder -merge -useContext +onlyGivenNames v2
  have hv2 : Evolves r s₀ v2 := by
    with_reducible refine Evolves.foldl (fun a3 x4 ha3 => ?_) ?_
    · with_reducible refine State.setCq_evolves _ _ ?_
      with_reducible refine State.resetPage_evolves _ ?_
      with_reducible refine State.dropCopies_evolves _ ?_
      exact ha3
    · exact hv1
  try clear_value v2
  with_reducible refine State.modPort_evolves _ _ ?_
  with_reducible refine State.resetPage_evolves _ ?_
  exact hv2

theorem State.resetCfg_evolves {s₀ s} (a) (h : Evolves r s₀ s) : Evolves r s₀ (State.resetCfg s a) := by
  unfold State.resetCfg
  with_reducible refine State.modPort_evolves _ _ ?_
  exact h

theorem execPcieLinkDown_evolves {s₀ s t} (a) (he : execPcieLinkDown a s = .next t) (h : Evolves r s₀ s) : Evolves r s₀ t := by
  unfold execPcieLinkDown at he
  cases he
  with_reducible refine Evolves.ite ?_ ?_
  · extract_lets -underBinder -merge -useContext +onlyGivenNames v0
    have hv0 : Evolves r s₀ v0 := by
      with_reducible refine State.setHptSts_evolves _ _ _ ?_
      exact h
    try clear_value v0
    with_reducible refine Evolves.ite ?_ ?_
    · exact hv0
    · with_reducible refine State.detach_evolves _ _ ?_
      exact hv0
  · exact h

theorem execHotReset_evolves {s₀ s t} (a) (he : execHotReset a s = .next t) (h : Evolves r s₀ s) : Evolves r s₀ t := by
  unfold execHotReset at he
  cases he
  with_reducible refine Evolves.ite ?_ ?_
  · extract_lets -underBinder -merge -useContext +onlyGivenNames v0
    have hv0 : Evolves r s₀ v0 := by
      with_reducible refine State.resetCfg_evolves _ ?_
      with_reducible refine State.setHptSts_evolves _ _ _ ?_
      exact h
    try clear_value v0
    with_reducible refine Evolves.ite ?_ ?_
    · exact hv0
    · with_reducible refine State.detach_evolves _ _ ?_
      exact hv0
  · exact h

theorem execFlr_evolves {s₀ s t} (a) (he : execFlr a s = .next t) (h : Evolves r s₀ s) : Evolves r s₀ t := by
  unfold execFlr at he
  cases he
  with_reducible refine Evolves.ite ?_ ?_
  · extract_lets -underBinder -merge -useContext +onlyGivenNames v0
    have hv0 : Evolves r s₀ v0 := by
      with_reducible refine State.resetCfg_evolves _ ?_
      exact h
    try clear_value v0
    with_reducible refine Evolves.ite ?_ ?_
    · exact hv0
    · with_reducible refine State.detach_evolves _ _ ?_
      exact hv0
  · exact h

theorem execD3hotEntry_evolves {s₀ s t} (a) (he : execD3hotEntry a s = .next t) (h : Evolves r s₀ s) : Evolves r s₀ t := by
  unfold execD3hotEntry at he
  cases he
  with_reducible refine Evolves.ite ?_ ?_
  · extract_lets -underBinder -merge -useContext +onlyGivenNames v0
    have hv0 : Evolves r s₀ v0 := by
      with_reducible refine State.setHptSts_evolves _ _ _ ?_
      exact h
    try clear_value v0
    with_reducible refine Evolves.ite ?_ ?_
    · exact hv0
    · with_reducible refine State.detach_evolves _ _ ?_
      exact hv0
  · exact h

theorem State.portReturn_evolves {s₀ s} (a b c) (h : Evolves r s₀ s) : Evolves r s₀ (State.portReturn s a b c) := by
  unfold State.portReturn
  extract_lets -underBinder -merge -useContext +onlyGivenNames v0
  try clear_value v0
  extract_lets -underBinder -merge -useContext +onlyGivenNames v1
  have hv1 : Evolves r s₀ v1 := by
    with_reducible refine Evolves.ite ?_ ?_
    · with_reducible refine State.resetPort_evolves _ ?_
      exact h
    · exact h
  try clear_value v1
  extract_lets -underBinder -merge -useContext +onlyGivenNames v2
  have hv2 : Evolves r s₀ v2 := by
    with_reducible refine State.setReg_evolves _ _ _ ?_
    exact hv1
  try clear_value v2
  with_reducible refine Evolves.ite ?_ ?_
  · exact hv2
  · extract_lets -underBinder -merge -useContext +onlyGivenNames v3
    have hv3 : Evolves r s₀ v3 := by
      with_reducible refine State.notice_evolves _ _ _ ?_
      exact hv2
    try clear_value v3
    extract_lets -underBinder -merge -useContext +onlyGivenNames v4
    try clear_value v4
    with_reducible refine Evolves.ite ?_ ?_
    · exact hv3
    · extract_lets -underBinder -merge -useContext +onlyGivenNames v5
      try clear_value v5
      extract_lets -underBinder -merge -useContext +onlyGivenNames v6
      have hv6 : Evolves r s₀ v6 := by
        with_reducible refine State.setFld_evolves _ _ _ _ _ ?_
        exact hv3
      try clear_value v6
      with_reducible refine Evolves.ite ?_ ?_
      · with_reducible refine State.notice_evolves _ _ _ ?_
        exact hv6
      · exact hv6

theorem execPortReturn_evolves {s₀ s t} (a b c) (he : execPortReturn a b c s = .next t) (h : Evolves r s₀ s) : Evolves r s₀ t := by
  unfold execPortReturn at he
  cases he
  with_reducible refine Evolves.ite ?_ ?_
  · with_reducible refine State.portReturn_evolves _ _ _ ?_
    exact h
  · exact h

theorem State.release_evolves {s₀ s} (a) (h : Evolves r s₀ s) : Evolves r s₀ (State.release s a) := by
  unfold State.release
  with_reducible refine Evolves.ite ?_ ?_
  · with_reducible refine State.modPort_evolves _ _ ?_
    exact h
  · exact h

theorem execPerstNChange_evolves {s₀ s t} (a b) (he : execPerstNChange a b s = .next t) (h : Evolves r s₀ s) : Evolves r s₀ t := by
  unfold execPerstNChange at he
  cases he
  with_reducible refine Evolves.ite ?_ ?_
  · exact h
  · extract_lets -underBinder -merge -useContext +onlyGivenNames v0
    have hv0 : Evolves r s₀ v0 := by
      with_reducible refine State.modPort_evolves _ _ ?_
      exact h
    try clear_value v0
    with_reducible refine Evolves.ite ?_ ?_
    · with_reducible refine State.release_evolves _ ?_
      exact hv0
    · extract_lets -underBinder -merge -useContext +onlyGivenNames v1
      have hv1 : Evolves r s₀ v1 := by
        with_reducible refine State.resetCfg_evolves _ ?_
        with_reducible refine State.modPort_evolves _ _ ?_
        exact hv0
      try clear_value v1
      with_reducible refine Evolves.ite ?_ ?_
      · exact hv1
      · extract_lets -underBinder -merge -useContext +onlyGivenNames v2
        have hv2 : Evolves r s₀ v2 := by
          with_reducible refine State.setHptSts_evolves _ _ _ ?_
          exact hv1
        try clear_value v2
        with_reducible refine Evolves.ite ?_ ?_
        · exact hv2
        · with_reducible refine State.detach_evolves _ _ ?_
          exact hv2

theorem State.prtErr_evolves {s₀ s} (a b) (h : Evolves r s₀ s) : Evolves r s₀ (State.prtErr s a b) := by
  unfold State.prtErr
  with_reducible refine State.notice_evolves _ _ _ ?_
  with_reducible refine State.setReg_evolves _ _ _ ?_
  exact h

theorem State.dropKeys_evolves {s₀ s} (a) (h : Evolves r s₀ s) : Evolves r s₀ (State.dropKeys s a) := by
  unfold State.dropKeys
  with_reducible refine Evolves.upd_mk rfl rfl rfl rfl rfl rfl rfl rfl rfl rfl rfl rfl rfl rfl rfl rfl rfl rfl rfl rfl rfl rfl rfl rfl rfl rfl rfl rfl ?_
  exact h

theorem State.keysAfter_evolves {s₀ s} (a) (h : Evolves r s₀ s) : Evolves r s₀ (State.keysAfter a s) := by
  unfold State.keysAfter
  with_reducible refine Evolves.foldl (fun a0 x1 ha0 => ?_) ?_
  · extract_lets -underBinder -merge -useContext +onlyGivenNames v2
    try clear_value v2
    with_reducible refine Evolves.ite ?_ ?_
    · with_reducible refine State.dropKeys_evolves _ ?_
      exact ha0
    · exact ha0
  · exact h

theorem prtChange_evolves {s₀ s} (a b c d) (hd : ∀ x0, Evolves r s₀ x0 → Evolves r s₀ (d x0)) (h : Evolves r s₀ s) : Evolves r s₀ (prtChange a b c d s) := by
  unfold prtChange
  extract_lets -underBinder -merge -useContext +onlyGivenNames v0
  have hv0 : Evolves r s₀ v0 := by
    with_reducible refine hd _ ?_
    exact h
  try clear_value v0
  with_reducible refine Evolves.ite ?_ ?_
  · with_reducible refine State.keysAfter_evolves _ ?_
    exact hv0
  · with_reducible refine State.prtErr_evolves _ _ ?_
    exact h

theorem State.onPrt_evolves {s₀ s} (a b c d) (hd : ∀ x0, Evolves r s₀ x0 → Evolves r s₀ (d x0)) (h : Evolves r s₀ s) : Evolves r s₀ (State.onPrt s a b c d) := by
  unfold State.onPrt
  split
  · split
    · with_reducible refine Evolves.ite ?_ ?_
      · with_reducible refine hd _ ?_
        with_reducible refine State.touchDebug_evolves _ ?_
        exact h
      · with_reducible refine State.prtErr_evolves _ _ ?_
        exact h
    · with_reducible refine State.prtErr_evolves _ _ ?_
      exact h
    · with_reducible refine hd _ ?_
      with_reducible refine State.touchDebug_evolves _ ?_
      exact h
  · extract_lets -underBinder -merge -useContext +onlyGivenNames v6
    have hv6 : Evolves r s₀ v6 := by
      with_reducible refine State.deny_evolves _ _ _ ?_
      exact h
    try clear_value v6
    with_reducible refine Evolves.ite ?_ ?_
    · with_reducible refine State.prtErr_evolves _ _ ?_
      exact hv6
    · exact hv6
  · exact h

theorem prtMapWrite_evolves {s₀ s} (a b) (h : Evolves r s₀ s) : Evolves r s₀ (prtMapWrite a b s) := by
  unfold prtMapWrite
  extract_lets -underBinder -merge -useContext +onlyGivenNames v0
  try clear_value v0
  extract_lets -underBinder -merge -useContext +onlyGivenNames v1
  try clear_value v1
  with_reducible refine prtChange_evolves _ _ _ _ (fun y2 hy2 => ?_) ?_
  · with_reducible refine State.setReg_evolves _ _ _ ?_
    exact hy2
  · exact h

theorem prtOwnerWrite_evolves {s₀ s} (a b) (h : Evolves r s₀ s) : Evolves r s₀ (prtOwnerWrite a b s) := by
  unfold prtOwnerWrite
  with_reducible refine prtChange_evolves _ _ _ _ (fun y0 hy0 => ?_) ?_
  · with_reducible refine State.setReg_evolves _ _ _ ?_
    exact hy0
  · exact h

theorem prtFarWrite_evolves {s₀ s} (a b c) (h : Evolves r s₀ s) : Evolves r s₀ (prtFarWrite a b c s) := by
  unfold prtFarWrite
  extract_lets -underBinder -merge -useContext +onlyGivenNames v0
  try clear_value v0
  with_reducible refine prtChange_evolves _ _ _ _ (fun y1 hy1 => ?_) ?_
  · with_reducible refine State.setReg_evolves _ _ _ ?_
    exact hy1
  · exact h

theorem pageOwnerWrite_evolves {s₀ s} (a b) (h : Evolves r s₀ s) : Evolves r s₀ (pageOwnerWrite a b s) := by
  unfold pageOwnerWrite
  split
  · exact h
  · with_reducible refine Evolves.ite ?_ ?_
    · exact h
    · extract_lets -underBinder -merge -useContext +onlyGivenNames v3
      try clear_value v3
      with_reducible refine prtChange_evolves _ _ _ _ (fun y4 hy4 => ?_) ?_
      · with_reducible refine State.setReg_evolves _ _ _ ?_
        exact hy4
      · exact h

theorem execPrtMapWrite_evolves {s₀ s t} (a b c) (he : execPrtMapWrite a b c s = .next t) (h : Evolves r s₀ s) : Evolves r s₀ t := by
  unfold execPrtMapWrite at he
  cases he
  with_reducible refine Evolves.ite ?_ ?_
  · with_reducible refine State.onPrt_evolves _ _ _ _ (fun y0 hy0 => ?_) ?_
    · with_reducible refine prtMapWrite_evolves _ _ ?_
      exact hy0
    · exact h
  · exact h

theorem execPrtPOwnerWrite_evolves {s₀ s t} (a b c) (he : execPrtPOwnerWrite a b c s = .next t) (h : Evolves r s₀ s) : Evolves r s₀ t := by
  unfold execPrtPOwnerWrite at he
  cases he
  with_reducible refine Evolves.ite ?_ ?_
  · with_reducible refine State.onPrt_evolves _ _ _ _ (fun y0 hy0 => ?_) ?_
    · with_reducible refine prtOwnerWrite_evolves _ _ ?_
      exact hy0
    · exact h
  · exact h

theorem execPrtFarWrite_evolves {s₀ s t} (a b c d) (he : execPrtFarWrite a b c d s = .next t) (h : Evolves r s₀ s) : Evolves r s₀ t := by
  unfold execPrtFarWrite at he
  cases he
  with_reducible refine Evolves.ite ?_ ?_
  · with_reducible refine State.onPrt_evolves _ _ _ _ (fun y0 hy0 => ?_) ?_
    · with_reducible refine prtFarWrite_evolves _ _ _ ?_
      exact hy0
    · exact h
  · exact h

theorem execPageOwnerWrite_evolves {s₀ s t} (a b c) (he : execPageOwnerWrite a b c s = .next t) (h : Evolves r s₀ s) : Evolves r s₀ t := by
  unfold execPageOwnerWrite at he
  cases he
  with_reducible refine Evolves.ite ?_ ?_
  · exact h
  · with_reducible refine State.onPrt_evolves _ _ _ _ (fun y0 hy0 => ?_) ?_
    · with_reducible refine pageOwnerWrite_evolves _ _ ?_
      exact hy0
    · exact h

theorem State.modSec_evolves {s₀ s} (a) (h : Evolves r s₀ s)
    (hf : ∀ x, x.svnFused ≤ (a x).svnFused := by
      intro x; first | exact Nat.le_refl _ | exact Nat.le_max_left _ _ | (dsimp only; split <;> exact Nat.le_refl _)) :
    Evolves r s₀ (State.modSec s a) :=
  h.trans { Evolves.refl r s with svn := hf _, parts := fun hp => { hp with } }

theorem State.releaseAll_evolves {s₀ s} (h : Evolves r s₀ s) : Evolves r s₀ (State.releaseAll s) := by
  unfold State.releaseAll
  with_reducible refine Evolves.foldl (fun a0 x1 ha0 => ?_) ?_
  · with_reducible refine State.release_evolves _ ?_
    exact ha0
  · exact h

theorem State.runImage_evolves {s₀ s} (a b) (h : Evolves r s₀ s) : Evolves r s₀ (State.runImage s a b) := by
  unfold State.runImage
  extract_lets -underBinder -merge -useContext +onlyGivenNames v0
  try clear_value v0
  extract_lets -underBinder -merge -useContext +onlyGivenNames v1
  have hv1 : Evolves r s₀ v1 := by
    with_reducible refine Evolves.foldl (fun a2 x3 ha2 => ?_) ?_
    · with_reducible refine State.setReg_evolves _ _ _ ?_
      exact ha2
    · exact h
  try clear_value v1
  with_reducible refine State.modSec_evolves _ ?_
  with_reducible refine State.setFld_evolves _ _ _ _ _ ?_
  exact hv1

theorem State.bootDone_evolves {s₀ s} (a) (h : Evolves r s₀ s) : Evolves r s₀ (State.bootDone s a) := by
  unfold State.bootDone
  extract_lets -underBinder -merge -useContext +onlyGivenNames v0
  try clear_value v0
  extract_lets -underBinder -merge -useContext +onlyGivenNames v1
  try clear_value v1
  extract_lets -underBinder -merge -useContext +onlyGivenNames v2
  try clear_value v2
  extract_lets -underBinder -merge -useContext +onlyGivenNames v3
  have hv3 : ∀ z4, Evolves r s₀ z4 → Evolves r s₀ (v3 z4) := by
    intro z4 hz4
    dsimp only [v3]
    with_reducible refine State.releaseAll_evolves ?_
    with_reducible refine State.modSec_evolves _ ?_
    exact hz4
  clear_value v3
  with_reducible refine Evolves.ite ?_ ?_
  · with_reducible refine hv3 _ ?_
    with_reducible refine State.runImage_evolves _ _ ?_
    exact h
  · with_reducible refine Evolves.ite ?_ ?_
    · with_reducible refine hv3 _ ?_
      with_reducible refine State.raise_evolves _ _ _ _ _ _ ?_
      with_reducible refine State.runImage_evolves _ _ ?_
      exact h
    · with_reducible refine hv3 _ ?_
      with_reducible refine State.orReg_evolves _ _ _ ?_
      exact h

theorem imgCtlWrite_evolves {s₀ s} (a b) (h : Evolves r s₀ s) : Evolves r s₀ (imgCtlWrite a b s) := by
  unfold imgCtlWrite
  extract_lets -underBinder -merge -useContext +onlyGivenNames v0
  try clear_value v0
  extract_lets -underBinder -merge -useContext +onlyGivenNames v1
  have hv1 : Evolves r s₀ v1 := by
    with_reducible refine State.setReg_evolves _ _ _ ?_
    exact h
  try clear_value v1
  extract_lets -underBinder -merge -useContext +onlyGivenNames v2
  have hv2 : Evolves r s₀ v2 := by
    unfold v2
    split
    · with_reducible refine State.modPort_evolves _ _ ?_
      exact hv1
    · exact hv1
  try clear_value v2
  with_reducible refine Evolves.ite ?_ ?_
  · extract_lets -underBinder -merge -useContext +onlyGivenNames v5
    try clear_value v5
    extract_lets -underBinder -merge -useContext +onlyGivenNames v6
    try clear_value v6
    with_reducible refine State.modSec_evolves _ ?_
    with_reducible refine State.setFld_evolves _ _ _ _ _ ?_
    exact hv2
  · exact hv2

theorem execImageStage_evolves {s₀ s t} (a) (he : execImageStage a s = .next t) (h : Evolves r s₀ s) : Evolves r s₀ t := by
  unfold execImageStage at he
  cases he
  with_reducible refine State.onWrite_evolves _ _ _ _ (fun y0 hy0 => ?_) ?_
  · with_reducible refine imgCtlWrite_evolves _ _ ?_
    exact hy0
  · exact h

theorem execImageProgram_evolves {s₀ s t} (a) (he : execImageProgram a s = .next t) (h : Evolves r s₀ s) : Evolves r s₀ t := by
  unfold execImageProgram at he
  cases he
  with_reducible refine State.onWrite_evolves _ _ _ _ (fun y0 hy0 => ?_) ?_
  · with_reducible refine imgCtlWrite_evolves _ _ ?_
    exact hy0
  · exact h

theorem execImgDone_evolves {s₀ s t} (a) (he : execImgDone a s = .next t) (h : Evolves r s₀ s) : Evolves r s₀ t := by
  unfold execImgDone at he
  cases he
  split
  · extract_lets -underBinder -merge -useContext +onlyGivenNames v1
    try clear_value v1
    extract_lets -underBinder -merge -useContext +onlyGivenNames v2
    have hv2 : Evolves r s₀ v2 := by
      with_reducible refine State.modSec_evolves _ ?_
      exact h
    try clear_value v2
    with_reducible refine State.notice_evolves _ _ _ ?_
    with_reducible refine State.setFld_evolves _ _ _ _ _ ?_
    exact hv2
  · exact h

theorem svnCommitWrite_evolves {s₀ s} (a b) (h : Evolves r s₀ s) : Evolves r s₀ (svnCommitWrite a b s) := by
  unfold svnCommitWrite
  with_reducible refine Evolves.ite ?_ ?_
  · with_reducible refine State.modSec_evolves _ ?_
    exact h
  · exact h

theorem execSvnCommit_evolves {s₀ s t} (a) (he : execSvnCommit a s = .next t) (h : Evolves r s₀ s) : Evolves r s₀ t := by
  unfold execSvnCommit at he
  cases he
  with_reducible refine State.onWrite_evolves _ _ _ _ (fun y0 hy0 => ?_) ?_
  · with_reducible refine svnCommitWrite_evolves _ _ ?_
    exact hy0
  · exact h

theorem State.spdm_evolves {s₀ s} (a b c d e) (h : Evolves r s₀ s) : Evolves r s₀ (State.spdm s a b c d e) := by
  unfold State.spdm
  with_reducible refine Evolves.ite ?_ ?_
  · extract_lets -underBinder -merge -useContext +onlyGivenNames v0
    try clear_value v0
    extract_lets -underBinder -merge -useContext +onlyGivenNames v1
    try clear_value v1
    extract_lets -underBinder -merge -useContext +onlyGivenNames v2
    try clear_value v2
    extract_lets -underBinder -merge -useContext +onlyGivenNames v3
    have hv3 : Evolves r s₀ v3 := by
      with_reducible refine Evolves.upd_out ?_ rfl rfl rfl rfl rfl rfl rfl rfl rfl rfl rfl rfl rfl rfl rfl rfl rfl rfl rfl rfl rfl rfl rfl rfl rfl rfl rfl ?_
      · exact ⟨_, rfl⟩
      exact h
    with_reducible refine Evolves.ite ?_ ?_
    · with_reducible refine State.modPort_evolves _ _ ?_
      exact hv3
    · exact hv3
  · exact h

theorem execGetVersion_evolves {s₀ s t} (a b) (he : execGetVersion a b s = .next t) (h : Evolves r s₀ s) : Evolves r s₀ t := by
  unfold execGetVersion at he
  cases he
  with_reducible refine State.spdm_evolves _ _ _ _ _ ?_
  exact h

theorem execGetCapabilities_evolves {s₀ s t} (a b) (he : execGetCapabilities a b s = .next t) (h : Evolves r s₀ s) : Evolves r s₀ t := by
  unfold execGetCapabilities at he
  cases he
  with_reducible refine State.spdm_evolves _ _ _ _ _ ?_
  exact h

theorem execNegotiateAlgorithms_evolves {s₀ s t} (a b) (he : execNegotiateAlgorithms a b s = .next t) (h : Evolves r s₀ s) : Evolves r s₀ t := by
  unfold execNegotiateAlgorithms at he
  cases he
  with_reducible refine State.spdm_evolves _ _ _ _ _ ?_
  exact h

theorem execGetDigests_evolves {s₀ s t} (a b) (he : execGetDigests a b s = .next t) (h : Evolves r s₀ s) : Evolves r s₀ t := by
  unfold execGetDigests at he
  cases he
  with_reducible refine State.spdm_evolves _ _ _ _ _ ?_
  exact h

theorem execGetCertificate_evolves {s₀ s t} (a b) (he : execGetCertificate a b s = .next t) (h : Evolves r s₀ s) : Evolves r s₀ t := by
  unfold execGetCertificate at he
  cases he
  with_reducible refine State.spdm_evolves _ _ _ _ _ ?_
  exact h

theorem execChallenge_evolves {s₀ s t} (a b) (he : execChallenge a b s = .next t) (h : Evolves r s₀ s) : Evolves r s₀ t := by
  unfold execChallenge at he
  cases he
  with_reducible refine State.spdm_evolves _ _ _ _ _ ?_
  exact h

theorem execGetMeasurements_evolves {s₀ s t} (a b) (he : execGetMeasurements a b s = .next t) (h : Evolves r s₀ s) : Evolves r s₀ t := by
  unfold execGetMeasurements at he
  cases he
  with_reducible refine State.spdm_evolves _ _ _ _ _ ?_
  exact h

theorem execKeyExchange_evolves {s₀ s t} (a b) (he : execKeyExchange a b s = .next t) (h : Evolves r s₀ s) : Evolves r s₀ t := by
  unfold execKeyExchange at he
  cases he
  with_reducible refine State.spdm_evolves _ _ _ _ _ ?_
  exact h

theorem execFinish_evolves {s₀ s t} (a b) (he : execFinish a b s = .next t) (h : Evolves r s₀ s) : Evolves r s₀ t := by
  unfold execFinish at he
  cases he
  with_reducible refine State.spdm_evolves _ _ _ _ _ ?_
  exact h

theorem execEndSession_evolves {s₀ s t} (a b) (he : execEndSession a b s = .next t) (h : Evolves r s₀ s) : Evolves r s₀ t := by
  unfold execEndSession at he
  cases he
  with_reducible refine State.spdm_evolves _ _ _ _ _ ?_
  exact h

theorem State.keyRefuse_evolves {s₀ s} (a) (h : Evolves r s₀ s) : Evolves r s₀ (State.keyRefuse s a) := by
  unfold State.keyRefuse
  with_reducible refine State.notice_evolves _ _ _ ?_
  with_reducible refine State.setReg_evolves _ _ _ ?_
  exact h

theorem State.holdsKeys_evolves {s₀ s} (h : Evolves r s₀ s) : Evolves r s₀ (State.holdsKeys s) := by
  unfold State.holdsKeys
  with_reducible refine State.setFld_evolves _ _ _ _ _ ?_
  exact h

theorem State.onKey_evolves {s₀ s} (a b c) (hc : ∀ x0 x1, Evolves r s₀ x1 → Evolves r s₀ (c x0 x1)) (h : Evolves r s₀ s) : Evolves r s₀ (State.onKey s a b c) := by
  unfold State.onKey
  split
  · with_reducible refine Evolves.ite ?_ ?_
    · with_reducible refine State.keyRefuse_evolves _ ?_
      exact h
    · exact h
  · split
    · with_reducible refine hc _ _ ?_
      exact h
    · extract_lets -underBinder -merge -useContext +onlyGivenNames v5
      have hv5 : Evolves r s₀ v5 := by
        with_reducible refine State.deny_evolves _ _ _ ?_
        exact h
      try clear_value v5
      with_reducible refine Evolves.ite ?_ ?_
      · with_reducible refine State.keyRefuse_evolves _ ?_
        exact hv5
      · exact hv5
    · exact h
  · with_reducible refine Evolves.ite ?_ ?_
    · with_reducible refine State.keyRefuse_evolves _ ?_
      exact h
    · exact h

theorem keyCmdWrite_evolves {s₀ s} (a b) (h : Evolves r s₀ s) : Evolves r s₀ (keyCmdWrite a b s) := by
  unfold keyCmdWrite
  with_reducible refine Evolves.ite ?_ ?_
  · exact h
  · split
    · with_reducible refine State.keyRefuse_evolves _ ?_
      exact h
    · extract_lets -underBinder -merge -useContext +onlyGivenNames v2
      try clear_value v2
      extract_lets -underBinder -merge -useContext +onlyGivenNames v3
      try clear_value v3
      extract_lets -underBinder -merge -useContext +onlyGivenNames v4
      try clear_value v4
      extract_lets -underBinder -merge -useContext +onlyGivenNames v5 v6 v7
      try clear_value v5
      try clear_value v6
      have hv7 : Evolves r s₀ v7 := by
        with_reducible refine Evolves.ite ?_ ?_
        · with_reducible refine State.holdsKeys_evolves ?_
          with_reducible refine State.modPort_evolves _ _ ?_
          with_reducible refine State.modSec_evolves _ ?_
          exact h
        · exact h
      try clear_value v7
      with_reducible refine Evolves.ite ?_ ?_
      · with_reducible refine State.modSec_evolves _ ?_
        exact hv7
      · exact hv7

theorem execKeyLoad_evolves {s₀ s t} (a b) (he : execKeyLoad a b s = .next t) (h : Evolves r s₀ s) : Evolves r s₀ t := by
  unfold execKeyLoad at he
  cases he
  with_reducible refine State.onKey_evolves _ _ _ (fun y0 y1 hy1 => ?_) ?_
  · with_reducible refine keyCmdWrite_evolves _ _ ?_
    exact hy1
  · exact h

theorem execKeyErase_evolves {s₀ s t} (a b) (he : execKeyErase a b s = .next t) (h : Evolves r s₀ s) : Evolves r s₀ t := by
  unfold execKeyErase at he
  cases he
  with_reducible refine State.onKey_evolves _ _ _ (fun y0 y1 hy1 => ?_) ?_
  · with_reducible refine keyCmdWrite_evolves _ _ ?_
    exact hy1
  · exact h

theorem State.installKey_evolves {s₀ s} (a b c d e) (h : Evolves r s₀ s) : Evolves r s₀ (State.installKey s a b c d e) := by
  unfold State.installKey
  extract_lets -underBinder -merge -useContext +onlyGivenNames v0
  try clear_value v0
  extract_lets -underBinder -merge -useContext +onlyGivenNames v1
  try clear_value v1
  extract_lets -underBinder -merge -useContext +onlyGivenNames v2
  try clear_value v2
  extract_lets -underBinder -merge -useContext +onlyGivenNames v3
  try clear_value v3
  extract_lets -underBinder -merge -useContext +onlyGivenNames v4
  have hv4 : Evolves r s₀ v4 := by
    with_reducible refine Evolves.ite ?_ ?_
    · with_reducible refine State.setLink_evolves _ _ _ ?_
      exact h
    · with_reducible refine Evolves.ite ?_ ?_
      · with_reducible refine State.setLink_evolves _ _ _ ?_
        exact h
      · exact h
  try clear_value v4
  with_reducible refine Evolves.upd_parts ?_ rfl rfl rfl rfl rfl rfl rfl rfl rfl rfl rfl ?_
  · exact fun hp => { hp with
      linkKeys := by first | exact keysRise_sset hp.linkKeys | exact keysRise_filter _ hp.linkKeys | exact keysRise_sput (Nat.zero_le _) hp.linkKeys | exact keysRise_sdel hp.linkKeys | exact keysRise_map_snd hp.linkKeys | exact keysRise_map_if hp.linkKeys | rfl
    }
  exact hv4

theorem linkCmdWrite_evolves {s₀ s} (a b) (h : Evolves r s₀ s) : Evolves r s₀ (linkCmdWrite a b s) := by
  unfold linkCmdWrite
  with_reducible refine Evolves.ite ?_ ?_
  · exact h
  · extract_lets -underBinder -merge -useContext +onlyGivenNames v0
    try clear_value v0
    extract_lets -underBinder -merge -useContext +onlyGivenNames v1
    try clear_value v1
    extract_lets -underBinder -merge -useContext +onlyGivenNames v2
    try clear_value v2
    extract_lets -underBinder -merge -useContext +onlyGivenNames v3
    try clear_value v3
    extract_lets -underBinder -merge -useContext +onlyGivenNames v4
    try clear_value v4
    split
    · with_reducible refine State.keyRefuse_evolves _ ?_
      exact h
    · extract_lets -underBinder -merge -useContext +onlyGivenNames v7
      try clear_value v7
      with_reducible refine Evolves.ite ?_ ?_
      · with_reducible refine State.keyRefuse_evolves _ ?_
        exact h
      · split
        · with_reducible refine State.keyRefuse_evolves _ ?_
          exact h
        · extract_lets -underBinder -merge -useContext +onlyGivenNames v10
          have hv10 : Evolves r s₀ v10 := by
            with_reducible refine State.holdsKeys_evolves ?_
            with_reducible refine State.installKey_evolves _ _ _ _ _ ?_
            exact h
          try clear_value v10
          with_reducible refine Evolves.ite ?_ ?_
          · with_reducible refine State.turnPhase_evolves _ _ ?_
            with_reducible refine State.modLink_evolves _ _ _ ?_
            exact hv10
          · exact hv10

theorem execLinkKeyInstall_evolves {s₀ s t} (a b) (he : execLinkKeyInstall a b s = .next t) (h : Evolves r s₀ s) : Evolves r s₀ t := by
  unfold execLinkKeyInstall at he
  cases he
  with_reducible refine State.onKey_evolves _ _ _ (fun y0 y1 hy1 => ?_) ?_
  · with_reducible refine linkCmdWrite_evolves _ _ ?_
    exact hy1
  · exact h

theorem keyStageWrite_evolves {s₀ s} (a b c) (h : Evolves r s₀ s) : Evolves r s₀ (keyStageWrite a b c s) := by
  unfold keyStageWrite
  with_reducible refine Evolves.ite ?_ ?_
  · with_reducible refine State.modPort_evolves _ _ ?_
    exact h
  · with_reducible refine Evolves.ite ?_ ?_
    · with_reducible refine State.modPort_evolves _ _ ?_
      exact h
    · with_reducible refine Evolves.ite ?_ ?_
      · with_reducible refine State.modPort_evolves _ _ ?_
        exact h
      · exact h

theorem secClearWrite_evolves {s₀ s} (a b) (h : Evolves r s₀ s) : Evolves r s₀ (secClearWrite a b s) := by
  unfold secClearWrite
  with_reducible refine Evolves.ite ?_ ?_
  · exact h
  · extract_lets -underBinder -merge -useContext +onlyGivenNames v0
    have hv0 : Evolves r s₀ v0 := by
      with_reducible refine State.modSec_evolves _ ?_
      with_reducible refine State.orReg_evolves _ _ _ ?_
      exact h
    try clear_value v0
    extract_lets -underBinder -merge -useContext +onlyGivenNames v1
    have hv1 : Evolves r s₀ v1 := by
      with_reducible refine Evolves.foldl (fun a2 x3 ha2 => ?_) ?_
      · with_reducible refine State.modPort_evolves _ _ ?_
        with_reducible refine State.setFld_evolves _ _ _ _ _ ?_
        exact ha2
      · exact hv0
    try clear_value v1
    extract_lets -underBinder -merge -useContext +onlyGivenNames v4
    try clear_value v4
    with_reducible refine Evolves.foldl (fun a5 x6 ha5 => ?_) ?_
    · with_reducible refine State.linkDown_evolves _ _ ?_
      exact ha5
    · with_reducible refine Evolves.upd_parts ?_ rfl rfl rfl rfl rfl rfl rfl rfl rfl rfl rfl ?_
      · exact fun hp => { hp with
          linkKeys := by first | exact keysRise_sset hp.linkKeys | exact keysRise_filter _ hp.linkKeys | exact keysRise_sput (Nat.zero_le _) hp.linkKeys | exact keysRise_sdel hp.linkKeys | exact keysRise_map_snd hp.linkKeys | exact keysRise_map_if hp.linkKeys | rfl
        }
      exact hv1

theorem execSecClear_evolves {s₀ s t} (a) (he : execSecClear a s = .next t) (h : Evolves r s₀ s) : Evolves r s₀ t := by
  unfold execSecClear at he
  cases he
  with_reducible refine State.onWrite_evolves _ _ _ _ (fun y0 hy0 => ?_) ?_
  · with_reducible refine secClearWrite_evolves _ _ ?_
    exact hy0
  · exact h

theorem State.keysCleared_evolves {s₀ s} (h : Evolves r s₀ s) : Evolves r s₀ (State.keysCleared s) := by
  unfold State.keysCleared
  with_reducible refine Evolves.ite ?_ ?_
  · with_reducible refine State.notice_evolves _ _ _ ?_
    with_reducible refine State.setFld_evolves _ _ _ _ _ ?_
    exact h
  · exact h

theorem execIdeKm_evolves {s₀ s t} (a b c) (he : execIdeKm a b c s = .next t) (h : Evolves r s₀ s) : Evolves r s₀ t := by
  unfold execIdeKm at he
  cases he
  with_reducible refine Evolves.ite ?_ ?_
  · with_reducible refine Evolves.ite ?_ ?_
    · with_reducible refine Evolves.ite ?_ ?_
      · with_reducible refine State.keyRefuse_evolves _ ?_
        exact h
      · exact h
    · extract_lets -underBinder -merge -useContext +onlyGivenNames v0
      have hv0 : Evolves r s₀ v0 := by
        with_reducible refine Evolves.ite ?_ ?_
        · with_reducible refine State.holdsKeys_evolves ?_
          with_reducible refine State.modPort_evolves _ _ ?_
          exact h
        · exact h
      try clear_value v0
      with_reducible refine Evolves.ite ?_ ?_
      · with_reducible refine State.setHptSts_evolves _ _ _ ?_
        exact hv0
      · exact hv0
  · exact h

theorem execIdeLost_evolves {s₀ s t} (a b) (he : execIdeLost a b s = .next t) (h : Evolves r s₀ s) : Evolves r s₀ t := by
  unfold execIdeLost at he
  cases he
  with_reducible refine Evolves.ite ?_ ?_
  · with_reducible refine State.raise_evolves _ _ _ _ _ _ ?_
    with_reducible refine State.setHptSts_evolves _ _ _ ?_
    exact h
  · exact h

end Sys2Proof.Machine
end

