-- ==== Sys2Proof/Laws/EvolvesReset.lean ====
section
/-! SUPPORT. Laws/EvolvesReset.lean: every operation of exports, the error log, tile queues, resets and memory commands evolves the state (Laws/Evolves.lean); one lemma for each. -/
namespace Sys2Proof.Machine

set_option Elab.async false
set_option linter.all false

variable {r : Bool}

theorem State.setEnc_evolves {s₀ s} (a b) (h : Evolves r s₀ s) : Evolves r s₀ (State.setEnc s a b) := by
  unfold State.setEnc
  with_reducible refine Evolves.upd_parts ?_ rfl rfl rfl rfl rfl rfl rfl rfl rfl rfl rfl ?_
  · exact fun hp => { hp with
      encoders := by first | exact keysRise_sset hp.encoders | exact keysRise_filter _ hp.encoders | exact keysRise_sput (Nat.zero_le _) hp.encoders | exact keysRise_sdel hp.encoders | exact keysRise_map_snd hp.encoders | exact keysRise_map_if hp.encoders | rfl
    }
  exact h

theorem exeTailWrite_evolves {s₀ s} (a b) (h : Evolves r s₀ s) : Evolves r s₀ (exeTailWrite a b s) := by
  unfold exeTailWrite
  extract_lets -underBinder -merge -useContext +onlyGivenNames v0
  try clear_value v0
  with_reducible refine Evolves.ite ?_ ?_
  · with_reducible refine State.setReg_evolves _ _ _ ?_
    exact h
  · exact h

theorem execExeJobTailWrite_evolves {s₀ s t} (a b c) (he : execExeJobTailWrite a b c s = .next t) (h : Evolves r s₀ s) : Evolves r s₀ t := by
  unfold execExeJobTailWrite at he
  cases he
  with_reducible refine Evolves.ite ?_ ?_
  · with_reducible refine State.onWrite_evolves _ _ _ _ (fun y0 hy0 => ?_) ?_
    · with_reducible refine exeTailWrite_evolves _ _ ?_
      exact hy0
    · exact h
  · exact h

theorem State.retireExport_evolves {s₀ s} (a b) (h : Evolves r s₀ s) : Evolves r s₀ (State.retireExport s a b) := by
  unfold State.retireExport
  extract_lets -underBinder -merge -useContext +onlyGivenNames v0
  have hv0 : Evolves r s₀ v0 := by
    with_reducible refine Evolves.ite ?_ ?_
    · with_reducible refine State.blockSignal_evolves _ _ _ _ _ ?_
      exact h
    · exact h
  try clear_value v0
  with_reducible refine State.setReg_evolves _ _ _ ?_
  exact hv0

theorem execEncodeJob_evolves {s₀ s t} (a) (he : execEncodeJob a s = .next t) (h : Evolves r s₀ s) : Evolves r s₀ t := by
  unfold execEncodeJob at he
  cases he
  extract_lets -underBinder -merge -useContext +onlyGivenNames v0
  try clear_value v0
  extract_lets -underBinder -merge -useContext +onlyGivenNames v1
  try clear_value v1
  with_reducible refine Evolves.ite ?_ ?_
  · exact h
  · extract_lets -underBinder -merge -useContext +onlyGivenNames v2
    try clear_value v2
    with_reducible refine Evolves.ite ?_ ?_
    · with_reducible refine State.retireExport_evolves _ _ ?_
      with_reducible refine State.raise_evolves _ _ _ _ _ _ ?_
      exact h
    · extract_lets -underBinder -merge -useContext +onlyGivenNames v3
      try clear_value v3
      with_reducible refine State.setEnc_evolves _ _ ?_
      exact h

theorem State.outFlush_evolves {s₀ s} (a) (h : Evolves r s₀ s) : Evolves r s₀ (State.outFlush s a) := by
  unfold State.outFlush
  extract_lets -underBinder -merge -useContext +onlyGivenNames v0
  try clear_value v0
  extract_lets -underBinder -merge -useContext +onlyGivenNames v1
  try clear_value v1
  extract_lets -underBinder -merge -useContext +onlyGivenNames v2
  try clear_value v2
  extract_lets -underBinder -merge -useContext +onlyGivenNames v3
  try clear_value v3
  extract_lets -underBinder -merge -useContext +onlyGivenNames v4
  try clear_value v4
  extract_lets -underBinder -merge -useContext +onlyGivenNames v5
  try clear_value v5
  extract_lets -underBinder -merge -useContext +onlyGivenNames v6
  try clear_value v6
  with_reducible refine Evolves.ite ?_ ?_
  · exact h
  · extract_lets -underBinder -merge -useContext +onlyGivenNames v7
    try clear_value v7
    extract_lets -underBinder -merge -useContext +onlyGivenNames v8
    have hv8 : ∀ z9 z10 z11, Evolves r s₀ z9 → Evolves r s₀ (v8 z9 z10 z11) := by
      intro z9 z10 z11 hz9
      dsimp only [v8]
      with_reducible refine State.blockStore_evolves _ _ _ _ _ ?_
      exact hz9
    clear_value v8
    extract_lets -underBinder -merge -useContext +onlyGivenNames v12
    have hv12 : Evolves r s₀ v12 := by
      with_reducible refine Evolves.ite ?_ ?_
      · exact h
      · with_reducible refine hv8 _ _ _ ?_
        exact h
    try clear_value v12
    extract_lets -underBinder -merge -useContext +onlyGivenNames v13
    have hv13 : Evolves r s₀ v13 := by
      with_reducible refine State.bump_evolves _ _ _ ?_
      with_reducible refine State.setReg_evolves _ _ _ ?_
      with_reducible refine hv8 _ _ _ ?_
      exact hv12
    try clear_value v13
    extract_lets -underBinder -merge -useContext +onlyGivenNames v14
    have hv14 : Evolves r s₀ v14 := by
      with_reducible refine State.bump_evolves _ _ _ ?_
      exact hv13
    try clear_value v14
    extract_lets -underBinder -merge -useContext +onlyGivenNames v15
    try clear_value v15
    split
    · extract_lets -underBinder -merge -useContext +onlyGivenNames v17
      have hv17 : Evolves r s₀ v17 := by
        with_reducible refine Evolves.ite ?_ ?_
        · with_reducible refine State.notice_evolves _ _ _ ?_
          exact hv14
        · exact hv14
      try clear_value v17
      with_reducible refine State.retireExport_evolves _ _ ?_
      with_reducible refine State.setEnc_evolves _ _ ?_
      exact hv17
    · with_reducible refine State.setEnc_evolves _ _ ?_
      exact hv14

theorem State.outRecord_evolves {s₀ s} (a b) (h : Evolves r s₀ s) : Evolves r s₀ (State.outRecord s a b) := by
  unfold State.outRecord
  extract_lets -underBinder -merge -useContext +onlyGivenNames v0
  have hv0 : Evolves r s₀ v0 := by
    with_reducible refine State.outFlush_evolves _ ?_
    with_reducible refine State.setEnc_evolves _ _ ?_
    exact h
  try clear_value v0
  extract_lets -underBinder -merge -useContext +onlyGivenNames v1
  try clear_value v1
  split
  · with_reducible refine Evolves.ite ?_ ?_
    · exact hv0
    · with_reducible refine State.notice_evolves _ _ _ ?_
      with_reducible refine State.setEnc_evolves _ _ ?_
      exact hv0
  · exact hv0

theorem State.sliceOut_evolves {s₀ s} (a b c d) (h : Evolves r s₀ s) : Evolves r s₀ (State.sliceOut s a b c d) := by
  unfold State.sliceOut
  extract_lets -underBinder -merge -useContext +onlyGivenNames v0
  try clear_value v0
  extract_lets -underBinder -merge -useContext +onlyGivenNames v1
  try clear_value v1
  extract_lets -underBinder -merge -useContext +onlyGivenNames v2
  try clear_value v2
  split
  · extract_lets -underBinder -merge -useContext +onlyGivenNames v5
    try clear_value v5
    extract_lets -underBinder -merge -useContext +onlyGivenNames v6
    try clear_value v6
    extract_lets -underBinder -merge -useContext +onlyGivenNames v7
    try clear_value v7
    extract_lets -underBinder -merge -useContext +onlyGivenNames v8
    try clear_value v8
    extract_lets -underBinder -merge -useContext +onlyGivenNames v9
    try clear_value v9
    extract_lets -underBinder -merge -useContext +onlyGivenNames v10
    try clear_value v10
    extract_lets -underBinder -merge -useContext +onlyGivenNames v11
    try clear_value v11
    extract_lets -underBinder -merge -useContext +onlyGivenNames v12
    try clear_value v12
    extract_lets -underBinder -merge -useContext +onlyGivenNames v13
    have hv13 : Evolves r s₀ v13 := by
      with_reducible refine Evolves.ite ?_ ?_
      · with_reducible refine State.bump_evolves _ _ _ ?_
        exact h
      · exact h
    try clear_value v13
    with_reducible refine State.outRecord_evolves _ _ ?_
    exact hv13

theorem execSliceEncoded_evolves {s₀ s t} (a b c) (he : execSliceEncoded a b c s = .next t) (h : Evolves r s₀ s) : Evolves r s₀ t := by
  unfold execSliceEncoded at he
  cases he
  extract_lets -underBinder -merge -useContext +onlyGivenNames v0
  try clear_value v0
  split
  · exact h
  · with_reducible refine Evolves.ite ?_ ?_
    · exact h
    · with_reducible refine State.sliceOut_evolves _ _ _ _ ?_
      exact h

theorem exeOutHeadWrite_evolves {s₀ s} (a b) (h : Evolves r s₀ s) : Evolves r s₀ (exeOutHeadWrite a b s) := by
  unfold exeOutHeadWrite
  extract_lets -underBinder -merge -useContext +onlyGivenNames v0
  try clear_value v0
  extract_lets -underBinder -merge -useContext +onlyGivenNames v1
  try clear_value v1
  with_reducible refine Evolves.ite ?_ ?_
  · with_reducible refine State.outFlush_evolves _ ?_
    with_reducible refine State.setReg_evolves _ _ _ ?_
    exact h
  · exact h

theorem execOutHeadWrite_evolves {s₀ s t} (a b c) (he : execOutHeadWrite a b c s = .next t) (h : Evolves r s₀ s) : Evolves r s₀ t := by
  unfold execOutHeadWrite at he
  cases he
  with_reducible refine Evolves.ite ?_ ?_
  · with_reducible refine State.onWrite_evolves _ _ _ _ (fun y0 hy0 => ?_) ?_
    · with_reducible refine exeOutHeadWrite_evolves _ _ ?_
      exact hy0
    · exact h
  · exact h

theorem exeCtlWrite_evolves {s₀ s} (a b) (h : Evolves r s₀ s) : Evolves r s₀ (exeCtlWrite a b s) := by
  unfold exeCtlWrite
  extract_lets -underBinder -merge -useContext +onlyGivenNames v0
  have hv0 : Evolves r s₀ v0 := by
    with_reducible refine State.setReg_evolves _ _ _ ?_
    exact h
  try clear_value v0
  with_reducible refine Evolves.ite ?_ ?_
  · extract_lets -underBinder -merge -useContext +onlyGivenNames v1
    try clear_value v1
    with_reducible refine State.setEnc_evolves _ _ ?_
    exact hv0
  · exact hv0

theorem execExeAbort_evolves {s₀ s t} (a b) (he : execExeAbort a b s = .next t) (h : Evolves r s₀ s) : Evolves r s₀ t := by
  unfold execExeAbort at he
  cases he
  with_reducible refine Evolves.ite ?_ ?_
  · with_reducible refine State.onWrite_evolves _ _ _ _ (fun y0 hy0 => ?_) ?_
    · with_reducible refine exeCtlWrite_evolves _ _ ?_
      exact hy0
    · exact h
  · exact h

theorem errLogPopWrite_evolves {s₀ s} (a) (h : Evolves r s₀ s) : Evolves r s₀ (errLogPopWrite a s) := by
  unfold errLogPopWrite
  split
  · next hl =>
    refine Evolves.ite (h.trans { Evolves.refl r s with log := fun hn => ?_, parts := fun hp => { hp with } }) h
    rw [hl] at hn
    exact Nat.le_of_succ_le hn
  · exact h

theorem execErrLogPop_evolves {s₀ s t} (a b) (he : execErrLogPop a b s = .next t) (h : Evolves r s₀ s) : Evolves r s₀ t := by
  unfold execErrLogPop at he
  cases he
  with_reducible refine State.onWrite_evolves _ _ _ _ (fun y0 hy0 => ?_) ?_
  · with_reducible refine errLogPopWrite_evolves _ ?_
    exact hy0
  · exact h

theorem logData0_evolves {s₀ s} (h : Evolves r s₀ s) : Evolves r s₀ (logData0 s) := by
  unfold logData0
  with_reducible refine State.reply_evolves _ ?_
  with_reducible refine Evolves.upd_mk rfl rfl rfl rfl rfl rfl rfl rfl rfl rfl rfl rfl rfl rfl rfl rfl rfl rfl rfl rfl rfl rfl rfl rfl rfl rfl rfl rfl ?_
  exact h

theorem execLogData0Read_evolves {s₀ s t} (a) (he : execLogData0Read a s = .next t) (h : Evolves r s₀ s) : Evolves r s₀ t := by
  unfold execLogData0Read at he
  cases he
  with_reducible refine State.onRead_evolves _ _ _ _ (fun y0 hy0 => ?_) ?_
  · with_reducible refine logData0_evolves ?_
    exact hy0
  · exact h

theorem errFirstWrite_evolves {s₀ s} (a b) (h : Evolves r s₀ s) : Evolves r s₀ (errFirstWrite a b s) := by
  unfold errFirstWrite
  extract_lets -underBinder -merge -useContext +onlyGivenNames v0
  try clear_value v0
  with_reducible refine Evolves.ite ?_ ?_
  · with_reducible refine State.setReg_evolves _ _ _ ?_
    exact h
  · exact h

theorem execErrFirstRearm_evolves {s₀ s t} (a b) (he : execErrFirstRearm a b s = .next t) (h : Evolves r s₀ s) : Evolves r s₀ t := by
  unfold execErrFirstRearm at he
  cases he
  with_reducible refine Evolves.ite ?_ ?_
  · exact h
  · with_reducible refine State.onWrite_evolves _ _ _ _ (fun y0 hy0 => ?_) ?_
    · with_reducible refine errFirstWrite_evolves _ _ ?_
      exact hy0
    · exact h

theorem errFatalWrite_evolves {s₀ s} (a) (h : Evolves r s₀ s) : Evolves r s₀ (errFatalWrite a s) := by
  unfold errFatalWrite
  with_reducible refine Evolves.ite ?_ ?_
  · with_reducible refine State.setFld_evolves _ _ _ _ _ ?_
    exact h
  · exact h

theorem execFatalClear_evolves {s₀ s t} (a) (he : execFatalClear a s = .next t) (h : Evolves r s₀ s) : Evolves r s₀ t := by
  unfold execFatalClear at he
  cases he
  with_reducible refine State.onWrite_evolves _ _ _ _ (fun y0 hy0 => ?_) ?_
  · with_reducible refine errFatalWrite_evolves _ ?_
    exact hy0
  · exact h

theorem mtLatch_evolves {s₀ s} (h : Evolves r s₀ s) : Evolves r s₀ (mtLatch s) := by
  unfold mtLatch
  with_reducible refine State.reply_evolves _ ?_
  with_reducible refine State.setReg_evolves _ _ _ ?_
  exact h

theorem execMtLoRead_evolves {s₀ s t} (a) (he : execMtLoRead a s = .next t) (h : Evolves r s₀ s) : Evolves r s₀ t := by
  unfold execMtLoRead at he
  cases he
  with_reducible refine State.onRead_evolves _ _ _ _ (fun y0 hy0 => ?_) ?_
  · with_reducible refine mtLatch_evolves ?_
    exact hy0
  · exact h

theorem tilSeqTailWrite_evolves {s₀ s} (a b) (h : Evolves r s₀ s) : Evolves r s₀ (tilSeqTailWrite a b s) := by
  unfold tilSeqTailWrite
  extract_lets -underBinder -merge -useContext +onlyGivenNames v0
  try clear_value v0
  extract_lets -underBinder -merge -useContext +onlyGivenNames v1
  try clear_value v1
  extract_lets -underBinder -merge -useContext +onlyGivenNames v2
  try clear_value v2
  with_reducible refine Evolves.ite ?_ ?_
  · extract_lets -underBinder -merge -useContext +onlyGivenNames v3
    try clear_value v3
    extract_lets -underBinder -merge -useContext +onlyGivenNames v4
    try clear_value v4
    with_reducible refine State.setReg_evolves _ _ _ ?_
    with_reducible refine State.modTile_evolves _ _ ?_
    exact h
  · with_reducible refine State.raise_evolves _ _ _ _ _ _ ?_
    exact h

theorem execTilSeqTailWrite_evolves {s₀ s t} (a b c) (he : execTilSeqTailWrite a b c s = .next t) (h : Evolves r s₀ s) : Evolves r s₀ t := by
  unfold execTilSeqTailWrite at he
  cases he
  with_reducible refine Evolves.ite ?_ ?_
  · with_reducible refine State.onWrite_evolves _ _ _ _ (fun y0 hy0 => ?_) ?_
    · with_reducible refine tilSeqTailWrite_evolves _ _ ?_
      exact hy0
    · exact h
  · exact h

theorem tilResume_evolves {s₀ s} (a) (h : Evolves r s₀ s) : Evolves r s₀ (tilResume a s) := by
  unfold tilResume
  extract_lets -underBinder -merge -useContext +onlyGivenNames v0
  try clear_value v0
  split
  · exact h
  · extract_lets -underBinder -merge -useContext +onlyGivenNames v3
    have hv3 : Evolves r s₀ v3 := by
      with_reducible refine State.modTile_evolves _ _ ?_
      exact h
    try clear_value v3
    with_reducible refine Evolves.ite ?_ ?_
    · extract_lets -underBinder -merge -useContext +onlyGivenNames v4
      split
      · exact hv3
      · extract_lets -underBinder -merge -useContext +onlyGivenNames v7
        have hv7 : Evolves r s₀ v7 := by
          with_reducible refine State.modTile_evolves _ _ ?_
          with_reducible refine State.blurRun_evolves _ _ ?_
          exact hv3
        try clear_value v7
        extract_lets -underBinder -merge -useContext +onlyGivenNames v8
        have hv8 : Evolves r s₀ v8 := by
          with_reducible refine State.retireSignals_evolves _ _ _ ?_
          exact hv7
        try clear_value v8
        with_reducible refine Evolves.ite ?_ ?_
        · exact hv8
        · with_reducible refine State.passHead_evolves _ _ ?_
          exact hv8
    · with_reducible refine State.retireUnissued_evolves _ _ _ ?_
      exact hv3

theorem tilSeqCtlWrite_evolves {s₀ s} (a b) (h : Evolves r s₀ s) : Evolves r s₀ (tilSeqCtlWrite a b s) := by
  unfold tilSeqCtlWrite
  extract_lets -underBinder -merge -useContext +onlyGivenNames v0
  have hv0 : Evolves r s₀ v0 := by
    with_reducible refine Evolves.ite ?_ ?_
    · with_reducible refine State.flushTile_evolves _ ?_
      exact h
    · exact h
  try clear_value v0
  with_reducible refine Evolves.ite ?_ ?_
  · with_reducible refine tilResume_evolves _ ?_
    exact hv0
  · exact hv0

theorem execResume_evolves {s₀ s t} (a b) (he : execResume a b s = .next t) (h : Evolves r s₀ s) : Evolves r s₀ t := by
  unfold execResume at he
  cases he
  with_reducible refine Evolves.ite ?_ ?_
  · with_reducible refine State.onWrite_evolves _ _ _ _ (fun y0 hy0 => ?_) ?_
    · with_reducible refine tilSeqCtlWrite_evolves _ _ ?_
      exact hy0
    · exact h
  · exact h

theorem execFlush_evolves {s₀ s t} (a b) (he : execFlush a b s = .next t) (h : Evolves r s₀ s) : Evolves r s₀ t := by
  unfold execFlush at he
  cases he
  with_reducible refine Evolves.ite ?_ ?_
  · with_reducible refine State.onWrite_evolves _ _ _ _ (fun y0 hy0 => ?_) ?_
    · with_reducible refine tilSeqCtlWrite_evolves _ _ ?_
      exact hy0
    · exact h
  · exact h

theorem execSeqStall_evolves {s₀ s t} (a) (he : execSeqStall a s = .next t) (h : Evolves r s₀ s) : Evolves r s₀ t := by
  unfold execSeqStall at he
  cases he
  extract_lets -underBinder -merge -useContext +onlyGivenNames v0
  try clear_value v0
  split
  · exact h
  · with_reducible refine Evolves.ite ?_ ?_
    · exact h
    · extract_lets -underBinder -merge -useContext +onlyGivenNames v4
      try clear_value v4
      with_reducible refine State.raise_evolves _ _ _ _ _ _ ?_
      with_reducible refine State.modTile_evolves _ _ ?_
      exact h

theorem State.withClock_evolves {s₀ s} (a) (h : Evolves r s₀ s) : Evolves r s₀ (State.withClock s a) := by
  unfold State.withClock
  with_reducible refine State.modTile_evolves _ _ ?_
  exact h

theorem State.lineUpset_evolves {s₀ s} (a b) (h : Evolves r s₀ s) : Evolves r s₀ (State.lineUpset s a b) := by
  unfold State.lineUpset
  split
  · exact h
  · with_reducible refine Evolves.ite ?_ ?_
    · exact h
    · with_reducible refine Evolves.upd_parts ?_ rfl rfl rfl rfl rfl rfl rfl rfl rfl rfl rfl ?_
      · exact fun hp => { hp with
          upsets := by first | exact keysRise_sset hp.upsets | exact keysRise_filter _ hp.upsets | exact keysRise_sput (Nat.zero_le _) hp.upsets | exact keysRise_sdel hp.upsets | exact keysRise_map_snd hp.upsets | exact keysRise_map_if hp.upsets | rfl
        }
      exact h
  · with_reducible refine Evolves.upd_parts ?_ rfl rfl rfl rfl rfl rfl rfl rfl rfl rfl rfl ?_
    · exact fun hp => { hp with
        upsets := by first | exact keysRise_sset hp.upsets | exact keysRise_filter _ hp.upsets | exact keysRise_sput (Nat.zero_le _) hp.upsets | exact keysRise_sdel hp.upsets | exact keysRise_map_snd hp.upsets | exact keysRise_map_if hp.upsets | rfl
      }
    exact h

theorem execSramScrub_evolves {s₀ s t} (a b) (he : execSramScrub a b s = .next t) (h : Evolves r s₀ s) : Evolves r s₀ t := by
  unfold execSramScrub at he
  cases he
  split
  · exact h
  · with_reducible refine Evolves.ite ?_ ?_
    · exact h
    · extract_lets -underBinder -merge -useContext +onlyGivenNames v2
      try clear_value v2
      extract_lets -underBinder -merge -useContext +onlyGivenNames v3
      try clear_value v3
      extract_lets -underBinder -merge -useContext +onlyGivenNames v4
      have hv4 : Evolves r s₀ v4 := by
        with_reducible refine State.modTile_evolves _ _ ?_
        with_reducible refine State.lineUpset_evolves _ _ ?_
        exact h
      try clear_value v4
      with_reducible refine Evolves.ite ?_ ?_
      · with_reducible refine State.raise_evolves _ _ _ _ _ _ ?_
        with_reducible refine State.orReg_evolves _ _ _ ?_
        exact hv4
      · with_reducible refine Evolves.ite ?_ ?_
        · with_reducible refine State.ceOwn_evolves _ _ _ ?_
          exact hv4
        · exact hv4

theorem execSramInitDone_evolves {s₀ s t} (a) (he : execSramInitDone a s = .next t) (h : Evolves r s₀ s) : Evolves r s₀ t := by
  unfold execSramInitDone at he
  cases he
  with_reducible refine Evolves.ite ?_ ?_
  · with_reducible refine State.orReg_evolves _ _ _ ?_
    with_reducible refine State.zeroRange_evolves _ _ ?_
    exact h
  · exact h

theorem State.blurSite_evolves {s₀ s} (a) (h : Evolves r s₀ s) : Evolves r s₀ (State.blurSite s a) := by
  unfold State.blurSite
  with_reducible refine Evolves.foldl (fun a0 x1 ha0 => ?_) ?_
  · with_reducible refine State.blurRun_evolves _ _ ?_
    exact ha0
  · exact h

theorem State.loseSignals_evolves {s₀ s} (a b) (h : Evolves r s₀ s) : Evolves r s₀ (State.loseSignals s a b) := by
  unfold State.loseSignals
  split
  · exact h
  · with_reducible refine Evolves.ite ?_ ?_
    · split
      · rename_i w3 w4 e5
        have hw4 : Evolves r s₀ w4 := Evolves.of_pair2 e5 (by
          with_reducible refine State.fresh_evolves ?_
          exact h)
        with_reducible refine State.loseSignals_evolves _ _ ?_
        with_reducible refine Evolves.ite ?_ ?_
        · with_reducible refine Evolves.upd_mk rfl rfl rfl rfl rfl rfl rfl rfl rfl rfl rfl rfl rfl rfl rfl rfl rfl rfl rfl rfl rfl rfl rfl rfl rfl rfl rfl rfl ?_
          exact hw4
        · exact hw4
    · with_reducible refine State.loseSignals_evolves _ _ ?_
      exact h

theorem spareMapWrite_evolves {s₀ s} (a b c) (h : Evolves r s₀ s) : Evolves r s₀ (spareMapWrite a b c s) := by
  unfold spareMapWrite
  extract_lets -underBinder -merge -useContext +onlyGivenNames v0
  try clear_value v0
  extract_lets -underBinder -merge -useContext +onlyGivenNames v1
  try clear_value v1
  with_reducible refine Evolves.ite ?_ ?_
  · exact h
  · extract_lets -underBinder -merge -useContext +onlyGivenNames v2
    try clear_value v2
    extract_lets -underBinder -merge -useContext +onlyGivenNames v3
    try clear_value v3
    extract_lets -underBinder -merge -useContext +onlyGivenNames v4
    try clear_value v4
    extract_lets -underBinder -merge -useContext +onlyGivenNames v5
    try clear_value v5
    extract_lets -underBinder -merge -useContext +onlyGivenNames v6
    try clear_value v6
    extract_lets -underBinder -merge -useContext +onlyGivenNames v7
    have hv7 : Evolves r s₀ v7 := by
      with_reducible refine Evolves.ite ?_ ?_
      · with_reducible refine State.blurSite_evolves _ ?_
        with_reducible refine Evolves.foldl (fun a8 x9 ha8 => ?_) ?_
        · with_reducible refine State.loseSignals_evolves _ _ ?_
          exact ha8
        · exact h
      · exact h
    try clear_value v7
    extract_lets -underBinder -merge -useContext +onlyGivenNames v10
    have hv10 : Evolves r s₀ v10 := by
      with_reducible refine Evolves.ite ?_ ?_
      · with_reducible refine Evolves.foldl (fun a11 x12 ha11 => ?_) ?_
        · with_reducible refine State.blurSite_evolves _ ?_
          exact ha11
        · exact hv7
      · exact hv7
    try clear_value v10
    with_reducible refine State.invalStats_evolves _ ?_
    with_reducible refine State.setReg_evolves _ _ _ ?_
    exact hv10

theorem execSpareMapWrite_evolves {s₀ s t} (a b c d) (he : execSpareMapWrite a b c d s = .next t) (h : Evolves r s₀ s) : Evolves r s₀ t := by
  unfold execSpareMapWrite at he
  cases he
  with_reducible refine Evolves.ite ?_ ?_
  · with_reducible refine State.onWrite_evolves _ _ _ _ (fun y0 hy0 => ?_) ?_
    · with_reducible refine spareMapWrite_evolves _ _ _ ?_
      exact hy0
    · exact h
  · exact h

theorem State.openRounding_evolves {s₀ s} (a b) (h : Evolves r s₀ s) : Evolves r s₀ (State.openRounding s a b) := by
  unfold State.openRounding
  extract_lets -underBinder -merge -useContext +onlyGivenNames v0
  try clear_value v0
  with_reducible refine Evolves.ite ?_ ?_
  · exact h
  · split
    · rename_i w1 w2 e3
      have hw2 : Evolves r s₀ w2 := Evolves.of_pair2 e3 (by
        with_reducible refine State.fresh_evolves ?_
        exact h)
      with_reducible refine State.modTile_evolves _ _ ?_
      exact hw2

theorem State.openSkip_evolves {s₀ s} (a) (h : Evolves r s₀ s) : Evolves r s₀ (State.openSkip s a) := by
  unfold State.openSkip
  extract_lets -underBinder -merge -useContext +onlyGivenNames v0
  try clear_value v0
  with_reducible refine Evolves.ite ?_ ?_
  · exact h
  · split
    · rename_i w1 w2 e3
      have hw2 : Evolves r s₀ w2 := Evolves.of_pair2 e3 (by
        with_reducible refine State.fresh_evolves ?_
        exact h)
      with_reducible refine State.modTile_evolves _ _ ?_
      exact hw2

theorem tilRndWrite_evolves {s₀ s} (a b) (h : Evolves r s₀ s) : Evolves r s₀ (tilRndWrite a b s) := by
  unfold tilRndWrite
  extract_lets -underBinder -merge -useContext +onlyGivenNames v0
  try clear_value v0
  extract_lets -underBinder -merge -useContext +onlyGivenNames v1
  try clear_value v1
  extract_lets -underBinder -merge -useContext +onlyGivenNames v2
  have hv2 : Evolves r s₀ v2 := by
    with_reducible refine State.setReg_evolves _ _ _ ?_
    exact h
  try clear_value v2
  with_reducible refine State.openRounding_evolves _ _ ?_
  exact hv2

theorem tilExcise_evolves {s₀ s} (a) (h : Evolves r s₀ s) : Evolves r s₀ (tilExcise a s) := by
  unfold tilExcise
  extract_lets -underBinder -merge -useContext +onlyGivenNames v0
  try clear_value v0
  extract_lets -underBinder -merge -useContext +onlyGivenNames v1
  try clear_value v1
  extract_lets -underBinder -merge -useContext +onlyGivenNames v2
  try clear_value v2
  with_reducible refine State.setFld_evolves _ _ _ _ _ ?_
  with_reducible refine State.exciseTile_evolves _ ?_
  exact h

theorem execExcise_evolves {s₀ s t} (a b) (he : execExcise a b s = .next t) (h : Evolves r s₀ s) : Evolves r s₀ t := by
  unfold execExcise at he
  cases he
  with_reducible refine Evolves.ite ?_ ?_
  · with_reducible refine State.onWrite_evolves _ _ _ _ (fun y0 hy0 => ?_) ?_
    · with_reducible refine tilExcise_evolves _ ?_
      exact hy0
    · exact h
  · exact h

theorem execFrozenSkip_evolves {s₀ s t} (a b) (he : execFrozenSkip a b s = .next t) (h : Evolves r s₀ s) : Evolves r s₀ t := by
  unfold execFrozenSkip at he
  cases he
  extract_lets -underBinder -merge -useContext +onlyGivenNames v0
  try clear_value v0
  with_reducible refine Evolves.ite ?_ ?_
  · with_reducible refine State.bump_evolves _ _ _ ?_
    with_reducible refine State.retireUnissued_evolves _ _ _ ?_
    exact h
  · exact h

theorem execExciseMapDiscard_evolves {s₀ s t} (a b) (he : execExciseMapDiscard a b s = .next t) (h : Evolves r s₀ s) : Evolves r s₀ t := by
  unfold execExciseMapDiscard at he
  cases he
  extract_lets -underBinder -merge -useContext +onlyGivenNames v0
  try clear_value v0
  with_reducible refine Evolves.ite ?_ ?_
  · with_reducible refine State.retireUnissued_evolves _ _ _ ?_
    exact h
  · exact h

theorem State.yieldAll_evolves {s₀ s} (a) (h : Evolves r s₀ s) : Evolves r s₀ (State.yieldAll s a) := by
  unfold State.yieldAll
  with_reducible refine State.modTile_evolves _ _ ?_
  exact h

theorem execYield_evolves {s₀ s t} (a) (he : execYield a s = .next t) (h : Evolves r s₀ s) : Evolves r s₀ t := by
  unfold execYield at he
  cases he
  extract_lets -underBinder -merge -useContext +onlyGivenNames v0
  try clear_value v0
  extract_lets -underBinder -merge -useContext +onlyGivenNames v1
  have hv1 : Evolves r s₀ v1 := by
    with_reducible refine State.yieldAll_evolves _ ?_
    exact h
  try clear_value v1
  with_reducible refine Evolves.ite ?_ ?_
  · exact hv1
  · exact h

theorem State.loseXfers_evolves {s₀ s} (a) (h : Evolves r s₀ s) : Evolves r s₀ (State.loseXfers s a) := by
  unfold State.loseXfers
  with_reducible refine Evolves.foldl (fun a0 x1 ha0 => ?_) ?_
  · with_reducible refine State.xFinish_evolves _ ?_
    exact ha0
  · exact h

theorem State.dropTile_evolves {s₀ s} (a) (h : Evolves r s₀ s) : Evolves r s₀ (State.dropTile s a) := by
  unfold State.dropTile
  extract_lets -underBinder -merge -useContext +onlyGivenNames v0
  have hv0 : Evolves r s₀ v0 := by
    with_reducible refine State.loseXfers_evolves _ ?_
    with_reducible refine State.blurSite_evolves _ ?_
    exact h
  try clear_value v0
  extract_lets -underBinder -merge -useContext +onlyGivenNames v1
  try clear_value v1
  with_reducible refine State.setTile_evolves _ _ ?_
  exact hv0

theorem State.dropStream_evolves {s₀ s} (a) (h : Evolves r s₀ s) : Evolves r s₀ (State.dropStream s a) := by
  unfold State.dropStream
  extract_lets -underBinder -merge -useContext +onlyGivenNames v0
  have hv0 : Evolves r s₀ v0 := by
    with_reducible refine Evolves.foldl (fun a1 x2 ha1 => ?_) ?_
    · with_reducible refine State.dropSample_evolves _ _ ?_
      with_reducible refine State.abandon_evolves _ _ ?_
      exact ha1
    · exact h
  try clear_value v0
  with_reducible refine State.setStr_evolves _ _ ?_
  exact hv0

theorem State.resetKeeping_evolves {s₀ s} (a b) (h : Evolves r s₀ s) : Evolves r s₀ (State.resetKeeping s a b) := by
  unfold State.resetKeeping
  with_reducible refine Evolves.foldl (fun a0 x1 ha0 => ?_) ?_
  · with_reducible refine State.setReg_evolves _ _ _ ?_
    exact ha0
  · with_reducible refine State.resetBlock_evolves _ ?_
    exact h

theorem State.dropBlock_evolves {s₀ s} (a) (h : Evolves r s₀ s) : Evolves r s₀ (State.dropBlock s a) := by
  unfold State.dropBlock
  split
  · exact h
  · split
    · with_reducible refine State.resetKeeping_evolves _ _ ?_
      with_reducible refine State.dropTile_evolves _ ?_
      exact h
    · with_reducible refine State.resetBlock_evolves _ ?_
      exact h
    · with_reducible refine Evolves.upd_parts ?_ rfl rfl rfl rfl rfl rfl rfl rfl rfl rfl rfl ?_
      · exact fun hp => { hp with
          barriers := by first | exact keysRise_sset hp.barriers | exact keysRise_filter _ hp.barriers | exact keysRise_sput (Nat.zero_le _) hp.barriers | exact keysRise_sdel hp.barriers | exact keysRise_map_snd hp.barriers | exact keysRise_map_if hp.barriers | rfl
        }
      exact h
    · with_reducible refine State.resetKeeping_evolves _ _ ?_
      exact h
    · with_reducible refine State.resetKeeping_evolves _ _ ?_
      exact h
    · with_reducible refine State.resetBlock_evolves _ ?_
      with_reducible refine Evolves.upd_parts ?_ rfl rfl rfl rfl rfl rfl rfl rfl rfl rfl rfl ?_
      · exact fun hp => { hp with
          dbgStep := by first | exact keysRise_sset hp.dbgStep | exact keysRise_filter _ hp.dbgStep | exact keysRise_sput (Nat.zero_le _) hp.dbgStep | exact keysRise_sdel hp.dbgStep | exact keysRise_map_snd hp.dbgStep | exact keysRise_map_if hp.dbgStep | rfl
        }
      exact h
    · with_reducible refine State.xFaultAll_evolves _ _ ?_
      exact h
    · extract_lets -underBinder -merge -useContext +onlyGivenNames v11
      try clear_value v11
      extract_lets -underBinder -merge -useContext +onlyGivenNames v12
      have hv12 : Evolves r s₀ v12 := by
        with_reducible refine Evolves.foldl (fun a13 x14 ha13 => ?_) ?_
        · with_reducible refine State.endGrant_evolves _ _ ?_
          exact ha13
        · exact h
      try clear_value v12
      with_reducible refine State.resetBlock_evolves _ ?_
      with_reducible refine State.setCrs_evolves _ _ ?_
      exact hv12
    · with_reducible refine State.resetBlock_evolves _ ?_
      with_reducible refine Evolves.upd_mk rfl rfl rfl rfl rfl rfl rfl rfl rfl rfl rfl rfl rfl rfl rfl rfl rfl rfl rfl rfl rfl rfl rfl rfl rfl rfl rfl rfl ?_
      exact h
    · with_reducible refine State.resetBlock_evolves _ ?_
      with_reducible refine State.dropStream_evolves _ ?_
      exact h
    · with_reducible refine State.resetBlock_evolves _ ?_
      with_reducible refine State.dropReqs_evolves _ ?_
      with_reducible refine Evolves.upd_parts ?_ rfl rfl rfl rfl rfl rfl rfl rfl rfl rfl rfl ?_
      · exact fun hp => { hp with
          pools := by first | exact keysRise_sset hp.pools | exact keysRise_filter _ hp.pools | exact keysRise_sput (Nat.zero_le _) hp.pools | exact keysRise_sdel hp.pools | exact keysRise_map_snd hp.pools | exact keysRise_map_if hp.pools | rfl
        }
      exact h
    · with_reducible refine State.resetBlock_evolves _ ?_
      with_reducible refine Evolves.upd_mk rfl rfl rfl rfl rfl rfl rfl rfl rfl rfl rfl rfl rfl rfl rfl rfl rfl rfl rfl rfl rfl rfl rfl rfl rfl rfl rfl rfl ?_
      exact h
    · with_reducible refine State.resetBlock_evolves _ ?_
      with_reducible refine Evolves.upd_parts ?_ rfl rfl rfl rfl rfl rfl rfl rfl rfl rfl rfl ?_
      · exact fun hp => { hp with
          stashStacks := by first | exact keysRise_sset hp.stashStacks | exact keysRise_filter _ hp.stashStacks | exact keysRise_sput (Nat.zero_le _) hp.stashStacks | exact keysRise_sdel hp.stashStacks | exact keysRise_map_snd hp.stashStacks | exact keysRise_map_if hp.stashStacks | rfl
        }
      exact h
    · with_reducible refine State.resetBlock_evolves _ ?_
      exact h
    · with_reducible refine State.resetBlock_evolves _ ?_
      with_reducible refine State.dropReqs_evolves _ ?_
      with_reducible refine State.crsWithdraw_evolves _ ?_
      with_reducible refine Evolves.upd_mk rfl rfl rfl rfl rfl rfl rfl rfl rfl rfl rfl rfl rfl rfl rfl rfl rfl rfl rfl rfl rfl rfl rfl rfl rfl rfl rfl rfl ?_
      exact h
    · with_reducible refine State.resetBlock_evolves _ ?_
      with_reducible refine Evolves.upd_mk rfl rfl rfl rfl rfl rfl rfl rfl rfl rfl rfl rfl rfl rfl rfl rfl rfl rfl rfl rfl rfl rfl rfl rfl rfl rfl rfl rfl ?_
      exact h
    · with_reducible refine State.resetBlock_evolves _ ?_
      exact h
    · with_reducible refine State.resetBlock_evolves _ ?_
      with_reducible refine Evolves.upd_parts ?_ rfl rfl rfl rfl rfl rfl rfl rfl rfl rfl rfl ?_
      · exact fun hp => { hp with
          encoders := by first | exact keysRise_sset hp.encoders | exact keysRise_filter _ hp.encoders | exact keysRise_sput (Nat.zero_le _) hp.encoders | exact keysRise_sdel hp.encoders | exact keysRise_map_snd hp.encoders | exact keysRise_map_if hp.encoders | rfl
        }
      exact h
    · with_reducible refine State.resetBlock_evolves _ ?_
      with_reducible refine Evolves.upd_parts ?_ rfl rfl rfl rfl rfl rfl rfl rfl rfl rfl rfl ?_
      · exact fun hp => { hp with
          links := by first | exact keysRise_sset hp.links | exact keysRise_filter _ hp.links | exact keysRise_sput (Nat.zero_le _) hp.links | exact keysRise_sdel hp.links | exact keysRise_map_snd hp.links | exact keysRise_map_if hp.links | rfl
        }
      exact h
    · with_reducible refine State.resetBlock_evolves _ ?_
      with_reducible refine Evolves.upd_parts ?_ rfl rfl rfl rfl rfl rfl rfl rfl rfl rfl rfl ?_
      · exact fun hp => { hp with
          routes := by first | exact keysRise_sset hp.routes | exact keysRise_filter _ hp.routes | exact keysRise_sput (Nat.zero_le _) hp.routes | exact keysRise_sdel hp.routes | exact keysRise_map_snd hp.routes | exact keysRise_map_if hp.routes | rfl
        }
      exact h
    · extract_lets -underBinder -merge -useContext +onlyGivenNames v28
      have hv28 : Evolves r s₀ v28 := by
        with_reducible refine Evolves.foldl (fun a29 x30 ha29 => ?_) ?_
        · with_reducible refine State.endGrant_evolves _ _ ?_
          exact ha29
        · exact h
      try clear_value v28
      with_reducible refine State.resetBlock_evolves _ ?_
      with_reducible refine Evolves.upd_parts ?_ rfl rfl rfl rfl rfl rfl rfl rfl rfl rfl rfl ?_
      · exact fun hp => { hp with
          chk := by first | exact keysRise_sset hp.chk | exact keysRise_filter _ hp.chk | exact keysRise_sput (Nat.zero_le _) hp.chk | exact keysRise_sdel hp.chk | exact keysRise_map_snd hp.chk | exact keysRise_map_if hp.chk | rfl
        }
      exact hv28
    · extract_lets -underBinder -merge -useContext +onlyGivenNames v32
      try clear_value v32
      with_reducible refine State.modPort_evolves _ _ ?_
      with_reducible refine State.setReg_evolves _ _ _ ?_
      with_reducible refine State.resetBlock_evolves _ ?_
      exact h
    · exact h

theorem pageCtlWrite_evolves {s₀ s} (a b) (h : Evolves r s₀ s) : Evolves r s₀ (pageCtlWrite a b s) := by
  unfold pageCtlWrite
  extract_lets -underBinder -merge -useContext +onlyGivenNames v0
  try clear_value v0
  extract_lets -underBinder -merge -useContext +onlyGivenNames v1
  have hv1 : Evolves r s₀ v1 := by
    with_reducible refine State.setReg_evolves _ _ _ ?_
    exact h
  try clear_value v1
  split
  · exact h
  · with_reducible refine Evolves.ite ?_ ?_
    · extract_lets -underBinder -merge -useContext +onlyGivenNames v5
      have hv5 : Evolves r s₀ v5 := by
        with_reducible refine State.dropBlock_evolves _ ?_
        exact hv1
      try clear_value v5
      with_reducible refine Evolves.upd_mk rfl rfl rfl rfl rfl rfl rfl rfl rfl rfl rfl rfl rfl rfl rfl rfl rfl rfl rfl rfl rfl rfl rfl rfl rfl rfl rfl rfl ?_
      exact hv5
    · exact hv1

theorem execSrst_evolves {s₀ s t} (a b) (he : execSrst a b s = .next t) (h : Evolves r s₀ s) : Evolves r s₀ t := by
  unfold execSrst at he
  cases he
  with_reducible refine Evolves.ite ?_ ?_
  · exact h
  · with_reducible refine State.onWrite_evolves _ _ _ _ (fun y0 hy0 => ?_) ?_
    · with_reducible refine pageCtlWrite_evolves _ _ ?_
      exact hy0
    · exact h

theorem execSrstDone_evolves {s₀ s t} (a) (he : execSrstDone a s = .next t) (h : Evolves r s₀ s) : Evolves r s₀ t := by
  unfold execSrstDone at he
  cases he
  with_reducible refine Evolves.ite ?_ ?_
  · with_reducible refine Evolves.upd_mk rfl rfl rfl rfl rfl rfl rfl rfl rfl rfl rfl rfl rfl rfl rfl rfl rfl rfl rfl rfl rfl rfl rfl rfl rfl rfl rfl rfl ?_
    exact h
  · exact h

theorem evtForceWrite_evolves {s₀ s} (a b) (h : Evolves r s₀ s) : Evolves r s₀ (evtForceWrite a b s) := by
  unfold evtForceWrite
  split
  · exact h
  · with_reducible refine Evolves.foldl (fun a3 x4 ha3 => ?_) ?_
    · with_reducible refine Evolves.ite ?_ ?_
      · with_reducible refine State.raise_evolves _ _ _ _ _ _ ?_
        exact ha3
      · exact ha3
    · with_reducible refine State.debugVoid_evolves _ ?_
      exact h

theorem execEvtForceWrite_evolves {s₀ s t} (a b c) (he : execEvtForceWrite a b c s = .next t) (h : Evolves r s₀ s) : Evolves r s₀ t := by
  unfold execEvtForceWrite at he
  cases he
  with_reducible refine Evolves.ite ?_ ?_
  · exact h
  · with_reducible refine State.onWrite_evolves _ _ _ _ (fun y0 hy0 => ?_) ?_
    · with_reducible refine evtForceWrite_evolves _ _ ?_
      exact hy0
    · exact h

theorem evtEnWrite_evolves {s₀ s} (a b) (h : Evolves r s₀ s) : Evolves r s₀ (evtEnWrite a b s) := by
  unfold evtEnWrite
  extract_lets -underBinder -merge -useContext +onlyGivenNames v0
  try clear_value v0
  split
  · exact h
  · extract_lets -underBinder -merge -useContext +onlyGivenNames v4
    try clear_value v4
    extract_lets -underBinder -merge -useContext +onlyGivenNames v5
    have hv5 : Evolves r s₀ v5 := by
      with_reducible refine State.setReg_evolves _ _ _ ?_
      exact h
    try clear_value v5
    with_reducible refine Evolves.foldl (fun a6 x7 ha6 => ?_) ?_
    · with_reducible refine Evolves.ite ?_ ?_
      · with_reducible refine State.signal_evolves _ _ ?_
        exact ha6
      · exact ha6
    · exact hv5

theorem execEvtEnWrite_evolves {s₀ s t} (a b c) (he : execEvtEnWrite a b c s = .next t) (h : Evolves r s₀ s) : Evolves r s₀ t := by
  unfold execEvtEnWrite at he
  cases he
  with_reducible refine Evolves.ite ?_ ?_
  · exact h
  · with_reducible refine State.onWrite_evolves _ _ _ _ (fun y0 hy0 => ?_) ?_
    · with_reducible refine evtEnWrite_evolves _ _ ?_
      exact hy0
    · exact h

theorem State.resetDomRegs_evolves {s₀ s} (a) (h : Evolves r s₀ s) : Evolves r s₀ (State.resetDomRegs s a) := by
  unfold State.resetDomRegs
  with_reducible refine Evolves.foldl (fun a0 x1 ha0 => ?_) ?_
  · with_reducible refine Evolves.ite ?_ ?_
    · with_reducible refine State.resetKeeping_evolves _ _ ?_
      exact ha0
    · with_reducible refine State.resetBlock_evolves _ ?_
      exact ha0
  · exact h

theorem State.loseDomain_evolves {s₀ s} (a) (h : Evolves r s₀ s) : Evolves r s₀ (State.loseDomain s a) := by
  unfold State.loseDomain
  extract_lets -underBinder -merge -useContext +onlyGivenNames v0 v1
  have hv0 : Evolves r s₀ v0 := by
    with_reducible refine State.dropCopies_evolves _ ?_
    exact h
  try clear_value v0
  have hv1 : Evolves r s₀ v1 := by
    with_reducible refine Evolves.ite ?_ ?_
    · with_reducible refine Evolves.foldl (fun a2 x3 ha2 => ?_) ?_
      · with_reducible refine State.zeroRange_evolves _ _ ?_
        with_reducible refine State.setTile_evolves _ _ ?_
        with_reducible refine State.loseXfers_evolves _ ?_
        exact ha2
      · exact h
    · with_reducible refine Evolves.ite ?_ ?_
      · with_reducible refine State.zeroRange_evolves _ _ ?_
        exact h
      · with_reducible refine Evolves.ite ?_ ?_
        · with_reducible refine Evolves.upd_parts ?_ rfl rfl rfl rfl rfl rfl rfl rfl rfl rfl rfl ?_
          · exact fun hp => { hp with
              barriers := by first | exact keysRise_sset hp.barriers | exact keysRise_filter _ hp.barriers | exact keysRise_sput (Nat.zero_le _) hp.barriers | exact keysRise_sdel hp.barriers | exact keysRise_map_snd hp.barriers | exact keysRise_map_if hp.barriers | rfl
              pools := by first | exact keysRise_sset hp.pools | exact keysRise_filter _ hp.pools | exact keysRise_sput (Nat.zero_le _) hp.pools | exact keysRise_sdel hp.pools | exact keysRise_map_snd hp.pools | exact keysRise_map_if hp.pools | rfl
              crossings := by first | exact keysRise_sset hp.crossings | exact keysRise_filter _ hp.crossings | exact keysRise_sput (Nat.zero_le _) hp.crossings | exact keysRise_sdel hp.crossings | exact keysRise_map_snd hp.crossings | exact keysRise_map_if hp.crossings | rfl
              chk := by first | exact keysRise_sset hp.chk | exact keysRise_filter _ hp.chk | exact keysRise_sput (Nat.zero_le _) hp.chk | exact keysRise_sdel hp.chk | exact keysRise_map_snd hp.chk | exact keysRise_map_if hp.chk | rfl
              stashStacks := by first | exact keysRise_sset hp.stashStacks | exact keysRise_filter _ hp.stashStacks | exact keysRise_sput (Nat.zero_le _) hp.stashStacks | exact keysRise_sdel hp.stashStacks | exact keysRise_map_snd hp.stashStacks | exact keysRise_map_if hp.stashStacks | rfl
            }
          exact h
        · with_reducible refine Evolves.ite ?_ ?_
          · with_reducible refine Evolves.ite ?_ ?_
            · with_reducible refine State.zeroRange_evolves _ _ ?_
              exact h
            · exact h
          · with_reducible refine Evolves.ite ?_ ?_
            · with_reducible refine Evolves.upd_parts ?_ rfl rfl rfl rfl rfl rfl rfl rfl rfl rfl rfl ?_
              · exact fun hp => { hp with
                  links := by first | exact keysRise_sset hp.links | exact keysRise_filter _ hp.links | exact keysRise_sput (Nat.zero_le _) hp.links | exact keysRise_sdel hp.links | exact keysRise_map_snd hp.links | exact keysRise_map_if hp.links | rfl
                  routes := by first | exact keysRise_sset hp.routes | exact keysRise_filter _ hp.routes | exact keysRise_sput (Nat.zero_le _) hp.routes | exact keysRise_sdel hp.routes | exact keysRise_map_snd hp.routes | exact keysRise_map_if hp.routes | rfl
                  linkKeys := by first | exact keysRise_sset hp.linkKeys | exact keysRise_filter _ hp.linkKeys | exact keysRise_sput (Nat.zero_le _) hp.linkKeys | exact keysRise_sdel hp.linkKeys | exact keysRise_map_snd hp.linkKeys | exact keysRise_map_if hp.linkKeys | rfl
                }
              exact h
            · with_reducible refine Evolves.ite ?_ ?_
              · with_reducible refine Evolves.upd_parts ?_ rfl rfl rfl rfl rfl rfl rfl rfl rfl rfl rfl ?_
                · exact fun hp => { hp with
                    streams := by first | exact keysRise_sset hp.streams | exact keysRise_filter _ hp.streams | exact keysRise_sput (Nat.zero_le _) hp.streams | exact keysRise_sdel hp.streams | exact keysRise_map_snd hp.streams | exact keysRise_map_if hp.streams | rfl
                    encoders := by first | exact keysRise_sset hp.encoders | exact keysRise_filter _ hp.encoders | exact keysRise_sput (Nat.zero_le _) hp.encoders | exact keysRise_sdel hp.encoders | exact keysRise_map_snd hp.encoders | exact keysRise_map_if hp.encoders | rfl
                  }
                exact h
              · with_reducible refine Evolves.upd_parts ?_ rfl rfl rfl rfl rfl rfl rfl rfl rfl rfl rfl ?_
                · exact fun hp => { hp with
                    ports := by first | exact keysRise_sset hp.ports | exact keysRise_filter _ hp.ports | exact keysRise_sput (Nat.zero_le _) hp.ports | exact keysRise_sdel hp.ports | exact keysRise_map_snd hp.ports | exact keysRise_map_if hp.ports | rfl
                    queues := by first | exact keysRise_sset hp.queues | exact keysRise_filter _ hp.queues | exact keysRise_sput (Nat.zero_le _) hp.queues | exact keysRise_sdel hp.queues | exact keysRise_map_snd hp.queues | exact keysRise_map_if hp.queues | rfl
                  }
                exact hv0
  try clear_value v1
  with_reducible refine State.setDom_evolves _ _ ?_
  with_reducible refine State.resetDomRegs_evolves _ ?_
  exact hv1

theorem State.readAllLines_evolves {s₀ s} (a b c) (h : Evolves r s₀ s) : Evolves r s₀ (State.readAllLines s a b c).1 := by
  unfold State.readAllLines
  split
  · with_reducible refine Evolves.mk_fst ?_
    exact h
  · split
    · rename_i w3 w4 e5
      have hw3 : Evolves r s₀ w3 := Evolves.of_pair e5 (by
        with_reducible refine State.lineRead_evolves _ _ _ ?_
        exact h)
      split
      · rename_i w6 w7 e8
        have hw6 : Evolves r s₀ w6 := Evolves.of_pair e8 (by
          with_reducible refine State.readAllLines_evolves _ _ _ ?_
          exact hw3)
        with_reducible refine Evolves.mk_fst ?_
        exact hw6

theorem execMemoryRead_evolves {s₀ s t} (a b c) (he : execMemoryRead a b c s = .next t) (h : Evolves r s₀ s) : Evolves r s₀ t := by
  unfold execMemoryRead at he
  split at he
  · cases he
  rw [Host.Outcome.next.injEq] at he
  subst he
  with_reducible refine Evolves.ite ?_ ?_
  · exact h
  · extract_lets -underBinder -merge -useContext +onlyGivenNames v0
    try clear_value v0
    split
    · rename_i w1 w2 e3
      have hw1 : Evolves r s₀ w1 := Evolves.of_pair e3 (by
        with_reducible refine State.readAllLines_evolves _ _ _ ?_
        with_reducible refine State.lineUpset_evolves _ _ ?_
        exact h)
      with_reducible refine State.reply_evolves _ ?_
      exact hw1

theorem execMemoryWrite_evolves {s₀ s t} (a b c) (he : execMemoryWrite a b c s = .next t) (h : Evolves r s₀ s) : Evolves r s₀ t := by
  unfold execMemoryWrite at he
  split at he
  · cases he
  rw [Host.Outcome.next.injEq] at he
  subst he
  with_reducible refine Evolves.ite ?_ ?_
  · exact h
  · extract_lets -underBinder -merge -useContext +onlyGivenNames v0
    have hv0 : Evolves r s₀ v0 := by
      with_reducible refine State.devWrite_evolves _ _ ?_
      exact h
    try clear_value v0
    with_reducible refine Evolves.ite ?_ ?_
    · with_reducible refine Evolves.foldl (fun a1 x2 ha1 => ?_) ?_
      · with_reducible refine State.poisonLine_evolves _ ?_
        exact ha1
      · exact hv0
    · exact hv0

theorem State.atomicCmd_evolves {s₀ s t} (a b) (he : State.atomicCmd s a b = .next t) (h : Evolves r s₀ s) :
    Evolves r s₀ t := by
  unfold State.atomicCmd at he
  dsimp only at he
  split at he
  · cases he
  rw [Host.Outcome.next.injEq] at he
  subst he
  with_reducible exact Evolves.ite (State.atomic_evolves _ _ h) h

theorem execFmax_evolves {s₀ s t} (a b) (he : execFmax a b s = .next t) (h : Evolves r s₀ s) : Evolves r s₀ t := by
  unfold execFmax at he
  with_reducible refine State.atomicCmd_evolves _ _ he ?_
  exact h

theorem execUadd_evolves {s₀ s t} (a b) (he : execUadd a b s = .next t) (h : Evolves r s₀ s) : Evolves r s₀ t := by
  unfold execUadd at he
  with_reducible refine State.atomicCmd_evolves _ _ he ?_
  exact h

theorem execOr32_evolves {s₀ s t} (a b) (he : execOr32 a b s = .next t) (h : Evolves r s₀ s) : Evolves r s₀ t := by
  unfold execOr32 at he
  with_reducible refine State.atomicCmd_evolves _ _ he ?_
  exact h

theorem execMemScrub_evolves {s₀ s t} (a b c) (he : execMemScrub a b c s = .next t) (h : Evolves r s₀ s) : Evolves r s₀ t := by
  unfold execMemScrub at he
  cases he
  extract_lets -underBinder -merge -useContext +onlyGivenNames v0
  try clear_value v0
  split
  · exact h
  · with_reducible refine Evolves.ite ?_ ?_
    · exact h
    · extract_lets -underBinder -merge -useContext +onlyGivenNames v4
      try clear_value v4
      extract_lets -underBinder -merge -useContext +onlyGivenNames v5
      have hv5 : Evolves r s₀ v5 := by
        with_reducible refine Evolves.upd_parts ?_ rfl rfl rfl rfl rfl rfl rfl rfl rfl rfl rfl ?_
        · exact fun hp => { hp with
            scrubPos := by first | exact keysRise_sset hp.scrubPos | exact keysRise_filter _ hp.scrubPos | exact keysRise_sput (Nat.zero_le _) hp.scrubPos | exact keysRise_sdel hp.scrubPos | exact keysRise_map_snd hp.scrubPos | exact keysRise_map_if hp.scrubPos | rfl
          }
        exact h
      try clear_value v5
      with_reducible refine Evolves.ite ?_ ?_
      · exact hv5
      · with_reducible refine State.lineRead_evolves _ _ _ ?_
        with_reducible refine State.lineUpset_evolves _ _ ?_
        exact hv5

theorem nmcCtlWrite_evolves {s₀ s} (a b) (h : Evolves r s₀ s) : Evolves r s₀ (nmcCtlWrite a b s) := by
  unfold nmcCtlWrite
  extract_lets -underBinder -merge -useContext +onlyGivenNames v0
  have hv0 : Evolves r s₀ v0 := by
    with_reducible refine State.setReg_evolves _ _ _ ?_
    exact h
  try clear_value v0
  with_reducible refine Evolves.ite ?_ ?_
  · with_reducible refine State.orReg_evolves _ _ _ ?_
    exact hv0
  · exact hv0

theorem State.fillDone_evolves {s₀ s} (a) (h : Evolves r s₀ s) : Evolves r s₀ (State.fillDone s a) := by
  unfold State.fillDone
  with_reducible refine State.setReg_evolves _ _ _ ?_
  exact h

theorem execNearInitDone_evolves {s₀ s t} (a) (he : execNearInitDone a s = .next t) (h : Evolves r s₀ s) : Evolves r s₀ t := by
  unfold execNearInitDone at he
  cases he
  with_reducible refine Evolves.ite ?_ ?_
  · with_reducible refine State.fillDone_evolves _ ?_
    with_reducible refine State.zeroRange_evolves _ _ ?_
    exact h
  · exact h

theorem execZero_evolves {s₀ s t} (a b) (he : execZero a b s = .next t) (h : Evolves r s₀ s) : Evolves r s₀ t := by
  unfold execZero at he
  cases he
  with_reducible refine Evolves.ite ?_ ?_
  · with_reducible refine State.onWrite_evolves _ _ _ _ (fun y0 hy0 => ?_) ?_
    · with_reducible refine nmcCtlWrite_evolves _ _ ?_
      exact hy0
    · exact h
  · exact h

theorem State.zeroChannel_evolves {s₀ s} (a) (h : Evolves r s₀ s) : Evolves r s₀ (State.zeroChannel s a) :=
  h.trans { Evolves.refl r s with mem := fun hm => wf_filter _ hm, poison := fun hp => rises_filter _ hp, parts := fun hp => { hp with upsets := keysRise_filter _ hp.upsets } }

theorem execZeroFillDone_evolves {s₀ s t} (a) (he : execZeroFillDone a s = .next t) (h : Evolves r s₀ s) : Evolves r s₀ t := by
  unfold execZeroFillDone at he
  cases he
  with_reducible refine Evolves.ite ?_ ?_
  · with_reducible refine State.fillDone_evolves _ ?_
    with_reducible refine State.zeroChannel_evolves _ ?_
    exact h
  · exact h

end Sys2Proof.Machine
end

