-- ==== Sys2Proof/Laws/EvolvesPower.lean ====
section
/-! SUPPORT. Laws/EvolvesPower.lean: every operation of domains, self-test and power evolves the state (Laws/Evolves.lean); one lemma for each. -/
namespace Sys2Proof.Machine

set_option Elab.async false
set_option linter.all false

variable {r : Bool}

theorem State.modPwr_evolves {s₀ s} (a) (h : Evolves r s₀ s) : Evolves r s₀ (State.modPwr s a) := by
  unfold State.modPwr
  with_reducible refine Evolves.upd_mk rfl rfl rfl rfl rfl rfl rfl rfl rfl rfl rfl rfl rfl rfl rfl rfl rfl rfl rfl rfl rfl rfl rfl rfl rfl rfl rfl rfl ?_
  exact h

theorem State.modGov_evolves {s₀ s} (a) (h : Evolves r s₀ s) : Evolves r s₀ (State.modGov s a) := by
  unfold State.modGov
  with_reducible refine State.modPwr_evolves _ ?_
  exact h

theorem State.setPst_evolves {s₀ s} (a) (h : Evolves r s₀ s) : Evolves r s₀ (State.setPst s a) := by
  unfold State.setPst
  with_reducible refine State.setFld_evolves _ _ _ _ _ ?_
  exact h

theorem State.stopPlls_evolves {s₀ s} (h : Evolves r s₀ s) : Evolves r s₀ (State.stopPlls s) := by
  unfold State.stopPlls
  with_reducible refine Evolves.foldl (fun a0 x1 ha0 => ?_) ?_
  · with_reducible refine Evolves.ite ?_ ?_
    · exact ha0
    · with_reducible refine State.modPwr_evolves _ ?_
      with_reducible refine State.setFld_evolves _ _ _ _ _ ?_
      with_reducible refine State.setFld_evolves _ _ _ _ _ ?_
      exact ha0
  · exact h

theorem State.defer_evolves {s₀ s} (a) (h : Evolves r s₀ s) : Evolves r s₀ (State.defer s a) := by
  unfold State.defer
  with_reducible refine Evolves.ite ?_ ?_
  · exact h
  · with_reducible refine State.modGov_evolves _ ?_
    with_reducible refine State.bump_evolves _ _ _ ?_
    exact h

theorem State.admitted_evolves {s₀ s} (a) (h : Evolves r s₀ s) : Evolves r s₀ (State.admitted s a) := by
  unfold State.admitted
  with_reducible refine State.modGov_evolves _ ?_
  exact h

theorem execPllStart_evolves {s₀ s t} (a) (he : execPllStart a s = .next t) (h : Evolves r s₀ s) : Evolves r s₀ t := by
  unfold execPllStart at he
  cases he
  with_reducible refine Evolves.ite ?_ ?_
  · exact h
  · extract_lets -underBinder -merge -useContext +onlyGivenNames v0
    try clear_value v0
    extract_lets -underBinder -merge -useContext +onlyGivenNames v1
    try clear_value v1
    with_reducible refine Evolves.ite ?_ ?_
    · with_reducible refine State.defer_evolves _ ?_
      exact h
    · with_reducible refine State.modPwr_evolves _ ?_
      with_reducible refine State.setFld_evolves _ _ _ _ _ ?_
      with_reducible refine State.admitted_evolves _ ?_
      exact h

theorem execPllLock_evolves {s₀ s t} (a) (he : execPllLock a s = .next t) (h : Evolves r s₀ s) : Evolves r s₀ t := by
  unfold execPllLock at he
  cases he
  with_reducible refine Evolves.ite ?_ ?_
  · with_reducible refine State.modPwr_evolves _ ?_
    with_reducible refine State.setFld_evolves _ _ _ _ _ ?_
    with_reducible refine State.setFld_evolves _ _ _ _ _ ?_
    exact h
  · exact h

theorem State.pllStop_evolves {s₀ s} (a) (h : Evolves r s₀ s) : Evolves r s₀ (State.pllStop s a) := by
  unfold State.pllStop
  with_reducible refine State.modPwr_evolves _ ?_
  with_reducible refine State.setFld_evolves _ _ _ _ _ ?_
  with_reducible refine State.setFld_evolves _ _ _ _ _ ?_
  exact h

theorem execPllUnlock_evolves {s₀ s t} (a) (he : execPllUnlock a s = .next t) (h : Evolves r s₀ s) : Evolves r s₀ t := by
  unfold execPllUnlock at he
  cases he
  with_reducible refine Evolves.ite ?_ ?_
  · with_reducible refine State.raise_evolves _ _ _ _ _ _ ?_
    with_reducible refine State.bump_evolves _ _ _ ?_
    with_reducible refine State.pllStop_evolves _ ?_
    exact h
  · exact h

theorem execXtalFail_evolves {s₀ s t} (he : execXtalFail s = .next t) (h : Evolves r s₀ s) : Evolves r s₀ t := by
  unfold execXtalFail at he
  cases he
  with_reducible refine Evolves.ite ?_ ?_
  · extract_lets -underBinder -merge -useContext +onlyGivenNames v0
    have hv0 : Evolves r s₀ v0 := by
      with_reducible refine Evolves.foldl (fun a1 x2 ha1 => ?_) ?_
      · with_reducible refine State.pllStop_evolves _ ?_
        exact ha1
      · with_reducible refine State.setFld_evolves _ _ _ _ _ ?_
        exact h
    try clear_value v0
    with_reducible refine State.raise_evolves _ _ _ _ _ _ ?_
    with_reducible refine State.setFld_evolves _ _ _ _ _ ?_
    exact hv0
  · exact h

theorem execDomainAdmission_evolves {s₀ s t} (a) (he : execDomainAdmission a s = .next t) (h : Evolves r s₀ s) : Evolves r s₀ t := by
  unfold execDomainAdmission at he
  cases he
  with_reducible refine Evolves.ite ?_ ?_
  · exact h
  · with_reducible refine Evolves.ite ?_ ?_
    · with_reducible refine State.defer_evolves _ ?_
      exact h
    · with_reducible refine State.modPwr_evolves _ ?_
      with_reducible refine State.admitted_evolves _ ?_
      exact h

theorem State.turnOnPage_evolves {s₀ s} (a) (h : Evolves r s₀ s) : Evolves r s₀ (State.turnOnPage s a) := by
  unfold State.turnOnPage
  extract_lets -underBinder -merge -useContext +onlyGivenNames v0
  try clear_value v0
  extract_lets -underBinder -merge -useContext +onlyGivenNames v1
  try clear_value v1
  extract_lets -underBinder -merge -useContext +onlyGivenNames v2
  have hv2 : Evolves r s₀ v2 := by
    with_reducible refine State.setFld_evolves _ _ _ _ _ ?_
    with_reducible refine State.resetPage_evolves _ ?_
    exact h
  try clear_value v2
  with_reducible refine Evolves.ite ?_ ?_
  · with_reducible refine State.setReg_evolves _ _ _ ?_
    exact hv2
  · exact hv2

theorem State.turnOnPages_evolves {s₀ s} (a) (h : Evolves r s₀ s) : Evolves r s₀ (State.turnOnPages s a) := by
  unfold State.turnOnPages
  with_reducible refine Evolves.foldl (fun a0 x1 ha0 => ?_) ?_
  · with_reducible refine State.turnOnPage_evolves _ ?_
    exact ha0
  · exact h

theorem State.startUp_evolves {s₀ s} (a b) (h : Evolves r s₀ s) : Evolves r s₀ (State.startUp s a b) := by
  unfold State.startUp
  with_reducible refine Evolves.ite ?_ ?_
  · with_reducible refine Evolves.foldl (fun a0 x1 ha0 => ?_) ?_
    · with_reducible refine Evolves.ite ?_ ?_
      · with_reducible refine State.invalStats_evolves _ ?_
        exact ha0
      · exact ha0
    · exact h
  · with_reducible refine Evolves.ite ?_ ?_
    · with_reducible refine State.setReg_evolves _ _ _ ?_
      exact h
    · with_reducible refine Evolves.ite ?_ ?_
      · exact h.trans { Evolves.refl r s with regs := fun hr => keysRise_filter _ hr, parts := fun hp => { hp with } }
      · with_reducible refine Evolves.ite ?_ ?_
        · extract_lets -underBinder -merge -useContext +onlyGivenNames v2
          have hv2 : Evolves r s₀ v2 := by
            with_reducible refine Evolves.foldl (fun a3 x4 ha3 => ?_) ?_
            · with_reducible refine Evolves.ite ?_ ?_
              · with_reducible refine State.setReg_evolves _ _ _ ?_
                exact ha3
              · with_reducible refine State.setReg_evolves _ _ _ ?_
                with_reducible refine State.zeroChannel_evolves _ ?_
                exact ha3
            · exact h
          try clear_value v2
          with_reducible refine State.modPwr_evolves _ ?_
          exact hv2
        · with_reducible refine Evolves.ite ?_ ?_
          · with_reducible refine State.releaseAll_evolves ?_
            exact h
          · exact h

theorem State.turnOn_evolves {s₀ s} (a) (h : Evolves r s₀ s) : Evolves r s₀ (State.turnOn s a) := by
  unfold State.turnOn
  extract_lets -underBinder -merge -useContext +onlyGivenNames v0
  have hv0 : Evolves r s₀ v0 := by
    with_reducible refine State.modPwr_evolves _ ?_
    with_reducible refine State.setDom_evolves _ _ ?_
    with_reducible refine State.turnOnPages_evolves _ ?_
    exact h
  try clear_value v0
  extract_lets -underBinder -merge -useContext +onlyGivenNames v1
  have hv1 : Evolves r s₀ v1 := by
    unfold v1
    split
    · with_reducible refine Evolves.upd_mk rfl rfl rfl rfl rfl rfl rfl rfl rfl rfl rfl rfl rfl rfl rfl rfl rfl rfl rfl rfl rfl rfl rfl rfl rfl rfl rfl rfl ?_
      exact hv0
    · exact hv0
  try clear_value v1
  with_reducible refine State.startUp_evolves _ _ ?_
  exact hv1

theorem execDomainOn_evolves {s₀ s t} (a) (he : execDomainOn a s = .next t) (h : Evolves r s₀ s) : Evolves r s₀ t := by
  unfold execDomainOn at he
  cases he
  with_reducible refine Evolves.ite ?_ ?_
  · with_reducible refine State.turnOn_evolves _ ?_
    exact h
  · exact h

theorem State.skipTest_evolves {s₀ s} (a) (h : Evolves r s₀ s) : Evolves r s₀ (State.skipTest s a) := by
  unfold State.skipTest
  split
  · with_reducible refine Evolves.ite ?_ ?_
    · with_reducible refine Evolves.upd_mk rfl rfl rfl rfl rfl rfl rfl rfl rfl rfl rfl rfl rfl rfl rfl rfl rfl rfl rfl rfl rfl rfl rfl rfl rfl rfl rfl rfl ?_
      exact h
    · exact h
  · exact h

theorem execDomainFault_evolves {s₀ s t} (a) (he : execDomainFault a s = .next t) (h : Evolves r s₀ s) : Evolves r s₀ t := by
  unfold execDomainFault at he
  cases he
  split
  · with_reducible refine Evolves.ite ?_ ?_
    · extract_lets -underBinder -merge -useContext +onlyGivenNames v2
      have hv2 : Evolves r s₀ v2 := by
        with_reducible refine State.modPwr_evolves _ ?_
        exact h
      try clear_value v2
      with_reducible refine State.raise_evolves _ _ _ _ _ _ ?_
      with_reducible refine State.skipTest_evolves _ ?_
      exact hv2
    · exact h
  · exact h

theorem domReqWrite_evolves {s₀ s} (a b) (h : Evolves r s₀ s) : Evolves r s₀ (domReqWrite a b s) := by
  unfold domReqWrite
  extract_lets -underBinder -merge -useContext +onlyGivenNames v0
  try clear_value v0
  extract_lets -underBinder -merge -useContext +onlyGivenNames v1
  try clear_value v1
  extract_lets -underBinder -merge -useContext +onlyGivenNames v2
  try clear_value v2
  with_reducible refine State.modPwr_evolves _ ?_
  with_reducible refine State.setReg_evolves _ _ _ ?_
  exact h

theorem State.detachAll_evolves {s₀ s} (h : Evolves r s₀ s) : Evolves r s₀ (State.detachAll s) := by
  unfold State.detachAll
  with_reducible refine Evolves.foldl (fun a0 x1 ha0 => ?_) ?_
  · with_reducible refine Evolves.ite ?_ ?_
    · extract_lets -underBinder -merge -useContext +onlyGivenNames v2
      have hv2 : Evolves r s₀ v2 := by
        with_reducible refine State.setHptSts_evolves _ _ _ ?_
        exact ha0
      try clear_value v2
      with_reducible refine Evolves.ite ?_ ?_
      · exact hv2
      · with_reducible refine State.detach_evolves _ _ ?_
        exact hv2
    · exact ha0
  · exact h

theorem State.turnOff_evolves {s₀ s} (a) (h : Evolves r s₀ s) : Evolves r s₀ (State.turnOff s a) := by
  unfold State.turnOff
  with_reducible refine State.stopPlls_evolves ?_
  with_reducible refine State.loseDomain_evolves _ ?_
  with_reducible refine Evolves.ite ?_ ?_
  · with_reducible refine State.detachAll_evolves ?_
    exact h
  · exact h

theorem execDomainOff_evolves {s₀ s t} (a) (he : execDomainOff a s = .next t) (h : Evolves r s₀ s) : Evolves r s₀ t := by
  unfold execDomainOff at he
  cases he
  with_reducible refine Evolves.ite ?_ ?_
  · with_reducible refine State.turnOff_evolves _ ?_
    exact h
  · exact h

theorem State.modBst_evolves {s₀ s} (a) (h : Evolves r s₀ s) : Evolves r s₀ (State.modBst s a) := by
  unfold State.modBst
  with_reducible refine Evolves.upd_mk rfl rfl rfl rfl rfl rfl rfl rfl rfl rfl rfl rfl rfl rfl rfl rfl rfl rfl rfl rfl rfl rfl rfl rfl rfl rfl rfl rfl ?_
  exact h

theorem State.setDomBits_evolves {s₀ s} (a b) (h : Evolves r s₀ s) : Evolves r s₀ (State.setDomBits s a b) := by
  unfold State.setDomBits
  with_reducible refine State.setReg_evolves _ _ _ ?_
  with_reducible refine State.setReg_evolves _ _ _ ?_
  exact h

theorem State.domBit_evolves {s₀ s} (a b c) (h : Evolves r s₀ s) : Evolves r s₀ (State.domBit s a b c) := by
  unfold State.domBit
  with_reducible refine State.setDomBits_evolves _ _ ?_
  exact h

theorem State.setBstSts_evolves {s₀ s} (a b c) (h : Evolves r s₀ s) : Evolves r s₀ (State.setBstSts s a b c) := by
  unfold State.setBstSts
  with_reducible refine State.setFld_evolves _ _ _ _ _ ?_
  exact h

theorem State.bstStart_evolves {s₀ s} (a b) (h : Evolves r s₀ s) : Evolves r s₀ (State.bstStart s a b) := by
  unfold State.bstStart
  extract_lets -underBinder -merge -useContext +onlyGivenNames v0
  have hv0 : Evolves r s₀ v0 := by
    with_reducible refine State.setReg_evolves _ _ _ ?_
    with_reducible refine State.setDomBits_evolves _ _ ?_
    with_reducible refine State.setDomBits_evolves _ _ ?_
    exact h
  try clear_value v0
  extract_lets -underBinder -merge -useContext +onlyGivenNames v1
  have hv1 : Evolves r s₀ v1 := by
    with_reducible refine State.setBstSts_evolves _ _ _ ?_
    with_reducible refine State.setBstSts_evolves _ _ _ ?_
    with_reducible refine State.setReg_evolves _ _ _ ?_
    exact hv0
  try clear_value v1
  with_reducible refine secClearWrite_evolves _ _ ?_
  with_reducible refine State.modBst_evolves _ ?_
  exact hv1

theorem State.bstShow_evolves {s₀ s} (h : Evolves r s₀ s) : Evolves r s₀ (State.bstShow s) := by
  unfold State.bstShow
  split
  · with_reducible refine State.setBstSts_evolves _ _ _ ?_
    exact h
  · exact h

theorem execKeysCleared_evolves {s₀ s t} (he : execKeysCleared s = .next t) (h : Evolves r s₀ s) : Evolves r s₀ t := by
  unfold execKeysCleared at he
  cases he
  extract_lets -underBinder -merge -useContext +onlyGivenNames v0
  have hv0 : Evolves r s₀ v0 := by
    with_reducible refine State.keysCleared_evolves ?_
    exact h
  try clear_value v0
  with_reducible refine Evolves.ite ?_ ?_
  · with_reducible refine State.bstShow_evolves ?_
    with_reducible refine State.modSec_evolves _ ?_
    exact hv0
  · exact hv0

theorem State.bstFromFlash_evolves {s₀ s} (h : Evolves r s₀ s) : Evolves r s₀ (State.bstFromFlash s) := by
  unfold State.bstFromFlash
  split
  · with_reducible refine State.setReg_evolves _ _ _ ?_
    with_reducible refine State.setReg_evolves _ _ _ ?_
    with_reducible refine State.setDomBits_evolves _ _ ?_
    exact h
  · exact h

theorem State.bstAtStart_evolves {s₀ s} (h : Evolves r s₀ s) : Evolves r s₀ (State.bstAtStart s) := by
  unfold State.bstAtStart
  extract_lets -underBinder -merge -useContext +onlyGivenNames v0
  try clear_value v0
  extract_lets -underBinder -merge -useContext +onlyGivenNames v1
  try clear_value v1
  extract_lets -underBinder -merge -useContext +onlyGivenNames v2
  try clear_value v2
  extract_lets -underBinder -merge -useContext +onlyGivenNames v3
  have hv3 : Evolves r s₀ v3 := by
    with_reducible refine State.setFld_evolves _ _ _ _ _ ?_
    with_reducible refine State.modBst_evolves _ ?_
    exact h
  try clear_value v3
  extract_lets -underBinder -merge -useContext +onlyGivenNames v4
  have hv4 : Evolves r s₀ v4 := by
    with_reducible refine State.setBstSts_evolves _ _ _ ?_
    exact hv3
  try clear_value v4
  with_reducible refine Evolves.ite ?_ ?_
  · extract_lets -underBinder -merge -useContext +onlyGivenNames v5
    have hv5 : Evolves r s₀ v5 := by
      unfold v5
      split
      · with_reducible refine State.setDomBits_evolves _ _ ?_
        with_reducible refine State.setDomBits_evolves _ _ ?_
        exact hv4
      · exact hv4
    try clear_value v5
    with_reducible refine State.notice_evolves _ _ _ ?_
    with_reducible refine State.bstFromFlash_evolves ?_
    exact hv5
  · with_reducible refine Evolves.ite ?_ ?_
    · with_reducible refine State.bstStart_evolves _ _ ?_
      exact hv4
    · exact hv4

theorem State.freeRange_evolves {s₀ s} (a b) (h : Evolves r s₀ s) : Evolves r s₀ (State.freeRange a b s) := by
  unfold State.freeRange
  split
  · exact (by assumption)
  · split
    · rename_i w3 w4 e5
      have hw4 : Evolves r s₀ w4 := Evolves.of_pair2 e5 (by
        with_reducible refine State.fresh_evolves ?_
        exact (by assumption))
      with_reducible refine State.freeRange_evolves _ _ ?_
      with_reducible refine State.setByte_evolves _ _ ?_
      exact hw4

theorem State.badWindow_evolves {s₀ s} (a) (h : Evolves r s₀ s) : Evolves r s₀ (State.badWindow s a) := by
  unfold State.badWindow
  extract_lets -underBinder -merge -useContext +onlyGivenNames v0
  try clear_value v0
  extract_lets -underBinder -merge -useContext +onlyGivenNames v1
  have hv1 : Evolves r s₀ v1 := by
    with_reducible refine State.raise_evolves _ _ _ _ _ _ ?_
    with_reducible refine State.setReg_evolves _ _ _ ?_
    exact h
  try clear_value v1
  with_reducible refine State.freeRange_evolves _ _ ?_
  exact hv1

theorem State.bstFailure_evolves {s₀ s} (a b) (h : Evolves r s₀ s) : Evolves r s₀ (State.bstFailure s a b) := by
  unfold State.bstFailure
  extract_lets -underBinder -merge -useContext +onlyGivenNames v0
  try clear_value v0
  extract_lets -underBinder -merge -useContext +onlyGivenNames v1
  have hv1 : Evolves r s₀ v1 := by
    with_reducible refine Evolves.ite ?_ ?_
    · with_reducible refine State.setReg_evolves _ _ _ ?_
      with_reducible refine State.setReg_evolves _ _ _ ?_
      exact h
    · with_reducible refine State.setFld_evolves _ _ _ _ _ ?_
      exact h
  try clear_value v1
  with_reducible refine State.raise_evolves _ _ _ _ _ _ ?_
  exact hv1

theorem State.demandTile_evolves {s₀ s} (a) (h : Evolves r s₀ s) : Evolves r s₀ (State.demandTile s a) := by
  unfold State.demandTile
  extract_lets -underBinder -merge -useContext +onlyGivenNames v0
  try clear_value v0
  extract_lets -underBinder -merge -useContext +onlyGivenNames v1
  try clear_value v1
  with_reducible refine State.setReg_evolves _ _ _ ?_
  with_reducible refine State.resetKeeping_evolves _ _ ?_
  with_reducible refine State.setTile_evolves _ _ ?_
  exact h

theorem State.afterTest_evolves {s₀ s} (a b) (h : Evolves r s₀ s) : Evolves r s₀ (State.afterTest s a b) := by
  unfold State.afterTest
  with_reducible refine Evolves.ite ?_ ?_
  · extract_lets -underBinder -merge -useContext +onlyGivenNames v0
    have hv0 : Evolves r s₀ v0 := by
      with_reducible refine Evolves.ite ?_ ?_
      · with_reducible refine Evolves.foldl (fun a1 x2 ha1 => ?_) ?_
        · with_reducible refine State.demandTile_evolves _ ?_
          exact ha1
        · exact h
      · with_reducible refine State.setDom_evolves _ _ ?_
        with_reducible refine State.loseDomain_evolves _ ?_
        exact h
    try clear_value v0
    with_reducible refine Evolves.foldl (fun a3 x4 ha3 => ?_) ?_
    · with_reducible refine State.invalStats_evolves _ ?_
      exact ha3
    · exact hv0
  · with_reducible refine Evolves.ite ?_ ?_
    · with_reducible refine State.setReg_evolves _ _ _ ?_
      with_reducible refine State.setDom_evolves _ _ ?_
      with_reducible refine State.loseDomain_evolves _ ?_
      exact h
    · with_reducible refine Evolves.ite ?_ ?_
      · extract_lets -underBinder -merge -useContext +onlyGivenNames v5
        try clear_value v5
        with_reducible refine State.setDom_evolves _ _ ?_
        with_reducible refine State.loseDomain_evolves _ ?_
        with_reducible refine State.modPwr_evolves _ ?_
        exact h
      · with_reducible refine State.setDom_evolves _ _ ?_
        with_reducible refine State.loseDomain_evolves _ ?_
        exact h

theorem State.testDone_evolves {s₀ s} (a b c) (h : Evolves r s₀ s) : Evolves r s₀ (State.testDone s a b c) := by
  unfold State.testDone
  extract_lets -underBinder -merge -useContext +onlyGivenNames v0
  try clear_value v0
  extract_lets -underBinder -merge -useContext +onlyGivenNames v1
  have hv1 : Evolves r s₀ v1 := by
    with_reducible refine State.afterTest_evolves _ _ ?_
    exact h
  try clear_value v1
  extract_lets -underBinder -merge -useContext +onlyGivenNames v2
  have hv2 : Evolves r s₀ v2 := by
    with_reducible refine Evolves.foldl (fun a3 x4 ha3 => ?_) ?_
    · with_reducible refine State.bstFailure_evolves _ _ ?_
      exact ha3
    · exact hv1
  try clear_value v2
  extract_lets -underBinder -merge -useContext +onlyGivenNames v5
  have hv5 : Evolves r s₀ v5 := by
    with_reducible refine Evolves.ite ?_ ?_
    · with_reducible refine Evolves.foldl (fun a6 x7 ha6 => ?_) ?_
      · with_reducible refine State.badWindow_evolves _ ?_
        exact ha6
      · exact hv2
    · exact hv2
  try clear_value v5
  extract_lets -underBinder -merge -useContext +onlyGivenNames v8
  have hv8 : Evolves r s₀ v8 := by
    with_reducible refine State.domBit_evolves _ _ _ ?_
    exact hv5
  try clear_value v8
  extract_lets -underBinder -merge -useContext +onlyGivenNames v9
  have hv9 : Evolves r s₀ v9 := by
    with_reducible refine Evolves.ite ?_ ?_
    · with_reducible refine Evolves.ite ?_ ?_
      · with_reducible refine State.domBit_evolves _ _ _ ?_
        exact hv8
      · exact hv8
    · with_reducible refine State.domBit_evolves _ _ _ ?_
      exact hv8
  try clear_value v9
  extract_lets -underBinder -merge -useContext +onlyGivenNames v10
  try clear_value v10
  extract_lets -underBinder -merge -useContext +onlyGivenNames v11
  have hv11 : Evolves r s₀ v11 := by
    with_reducible refine Evolves.ite ?_ ?_
    · with_reducible refine State.loseDomain_evolves _ ?_
      exact hv9
    · exact hv9
  try clear_value v11
  extract_lets -underBinder -merge -useContext +onlyGivenNames v12
  try clear_value v12
  with_reducible refine State.bstShow_evolves ?_
  with_reducible refine State.stopPlls_evolves ?_
  with_reducible refine State.modBst_evolves _ ?_
  exact hv11

theorem execDomainTestDone_evolves {s₀ s t} (a) (he : execDomainTestDone a s = .next t) (h : Evolves r s₀ s) : Evolves r s₀ t := by
  unfold execDomainTestDone at he
  cases he
  split
  · split
    · with_reducible refine Evolves.ite ?_ ?_
      · with_reducible refine State.testDone_evolves _ _ _ ?_
        exact h
      · exact h
    · exact h
  · exact h

theorem State.bstClose_evolves {s₀ s} (a) (h : Evolves r s₀ s) : Evolves r s₀ (State.bstClose s a) := by
  unfold State.bstClose
  with_reducible refine State.setBstSts_evolves _ _ _ ?_
  with_reducible refine State.setBstSts_evolves _ _ _ ?_
  with_reducible refine State.modBst_evolves _ ?_
  with_reducible refine State.modSec_evolves _ ?_
  exact h

theorem State.bstKill_evolves {s₀ s} (h : Evolves r s₀ s) : Evolves r s₀ (State.bstKill s) := by
  unfold State.bstKill
  with_reducible refine Evolves.ite ?_ ?_
  · with_reducible refine State.bstClose_evolves _ ?_
    exact h
  · exact h

theorem State.bstFinish_evolves {s₀ s} (a) (h : Evolves r s₀ s) : Evolves r s₀ (State.bstFinish s a) := by
  unfold State.bstFinish
  extract_lets -underBinder -merge -useContext +onlyGivenNames v0
  try clear_value v0
  extract_lets -underBinder -merge -useContext +onlyGivenNames v1
  try clear_value v1
  extract_lets -underBinder -merge -useContext +onlyGivenNames v2
  have hv2 : Evolves r s₀ v2 := by
    with_reducible refine Evolves.ite ?_ ?_
    · with_reducible refine State.modBst_evolves _ ?_
      exact h
    · exact h
  try clear_value v2
  with_reducible refine State.notice_evolves _ _ _ ?_
  with_reducible refine State.bstClose_evolves _ ?_
  with_reducible refine State.bump_evolves _ _ _ ?_
  with_reducible refine State.setReg_evolves _ _ _ ?_
  exact hv2

theorem State.bstAbort_evolves {s₀ s} (h : Evolves r s₀ s) : Evolves r s₀ (State.bstAbort s) := by
  unfold State.bstAbort
  split
  · exact h
  · with_reducible refine State.modBst_evolves _ ?_
    exact h

theorem bstCtlWrite_evolves {s₀ s} (a b) (h : Evolves r s₀ s) : Evolves r s₀ (bstCtlWrite a b s) := by
  unfold bstCtlWrite
  with_reducible refine Evolves.ite ?_ ?_
  · exact h
  · extract_lets -underBinder -merge -useContext +onlyGivenNames v0
    have hv0 : Evolves r s₀ v0 := by
      with_reducible refine State.setReg_evolves _ _ _ ?_
      exact h
    try clear_value v0
    extract_lets -underBinder -merge -useContext +onlyGivenNames v1
    try clear_value v1
    extract_lets -underBinder -merge -useContext +onlyGivenNames v2
    have hv2 : Evolves r s₀ v2 := by
      with_reducible refine Evolves.ite ?_ ?_
      · with_reducible refine State.bstStart_evolves _ _ ?_
        exact hv0
      · exact hv0
    try clear_value v2
    with_reducible refine Evolves.ite ?_ ?_
    · with_reducible refine State.bstAbort_evolves ?_
      exact hv2
    · exact hv2

theorem execBstRun_evolves {s₀ s t} (a) (he : execBstRun a s = .next t) (h : Evolves r s₀ s) : Evolves r s₀ t := by
  unfold execBstRun at he
  cases he
  with_reducible refine State.onWrite_evolves _ _ _ _ (fun y0 hy0 => ?_) ?_
  · with_reducible refine bstCtlWrite_evolves _ _ ?_
    exact hy0
  · exact h

theorem execBstAbort_evolves {s₀ s t} (a) (he : execBstAbort a s = .next t) (h : Evolves r s₀ s) : Evolves r s₀ t := by
  unfold execBstAbort at he
  cases he
  with_reducible refine State.onWrite_evolves _ _ _ _ (fun y0 hy0 => ?_) ?_
  · with_reducible refine bstCtlWrite_evolves _ _ ?_
    exact hy0
  · exact h

theorem fenceWrite_evolves {s₀ s} (a b) (h : Evolves r s₀ s) : Evolves r s₀ (fenceWrite a b s) := by
  unfold fenceWrite
  extract_lets -underBinder -merge -useContext +onlyGivenNames v0
  try clear_value v0
  with_reducible refine Evolves.foldl (fun a1 x2 ha1 => ?_) ?_
  · with_reducible refine Evolves.ite ?_ ?_
    · with_reducible refine State.modPwr_evolves _ ?_
      with_reducible refine State.domBit_evolves _ _ _ ?_
      exact ha1
    · exact ha1
  · exact h

theorem execFenceClear_evolves {s₀ s t} (a b) (he : execFenceClear a b s = .next t) (h : Evolves r s₀ s) : Evolves r s₀ t := by
  unfold execFenceClear at he
  cases he
  with_reducible refine Evolves.ite ?_ ?_
  · extract_lets -underBinder -merge -useContext +onlyGivenNames v0
    try clear_value v0
    with_reducible refine State.onWrite_evolves _ _ _ _ (fun y1 hy1 => ?_) ?_
    · with_reducible refine fenceWrite_evolves _ _ ?_
      exact hy1
    · exact h
  · exact h

theorem bstSetWrite_evolves {s₀ s} (a b) (h : Evolves r s₀ s) : Evolves r s₀ (bstSetWrite a b s) := by
  unfold bstSetWrite
  with_reducible refine Evolves.ite ?_ ?_
  · exact h
  · with_reducible refine State.setReg_evolves _ _ _ ?_
    exact h

theorem State.settleSt_evolves {s₀ s} (h : Evolves r s₀ s) : Evolves r s₀ (State.settleSt s) := by
  unfold State.settleSt
  with_reducible refine Evolves.ite ?_ ?_
  · with_reducible refine State.setPst_evolves _ ?_
    exact h
  · with_reducible refine Evolves.ite ?_ ?_
    · exact h
    · with_reducible refine State.setPst_evolves _ ?_
      exact h

theorem State.tryStart_evolves {s₀ s} (h : Evolves r s₀ s) : Evolves r s₀ (State.tryStart s) := by
  unfold State.tryStart
  with_reducible refine Evolves.ite ?_ ?_
  · extract_lets -underBinder -merge -useContext +onlyGivenNames v0
    have hv0 : Evolves r s₀ v0 := by
      with_reducible refine State.modPwr_evolves _ ?_
      with_reducible refine State.setFld_evolves _ _ _ _ _ ?_
      exact h
    try clear_value v0
    with_reducible refine State.settleSt_evolves ?_
    with_reducible refine State.bstAtStart_evolves ?_
    exact hv0
  · with_reducible refine State.settleSt_evolves ?_
    exact h

theorem State.dropDomains_evolves {s₀ s} (h : Evolves r s₀ s) : Evolves r s₀ (State.dropDomains s) := by
  unfold State.dropDomains
  extract_lets -underBinder -merge -useContext +onlyGivenNames v0
  have hv0 : Evolves r s₀ v0 := by
    with_reducible refine Evolves.foldl (fun a1 x2 ha1 => ?_) ?_
    · with_reducible refine Evolves.ite ?_ ?_
      · with_reducible refine State.loseDomain_evolves _ ?_
        exact ha1
      · exact ha1
    · exact h
  try clear_value v0
  with_reducible refine State.modPwr_evolves _ ?_
  with_reducible refine Evolves.ite ?_ ?_
  · with_reducible refine State.loseDomain_evolves _ ?_
    exact hv0
  · exact hv0

theorem State.govRest_evolves {s₀ s} (h : Evolves r s₀ s) : Evolves r s₀ (State.govRest s) := by
  unfold State.govRest
  with_reducible refine State.setReg_evolves _ _ _ ?_
  with_reducible refine State.setFld_evolves _ _ _ _ _ ?_
  with_reducible refine State.modGov_evolves _ ?_
  exact h

theorem State.emergencyOff_evolves {s₀ s} (a) (ha : ∀ x0, Evolves r s₀ x0 → Evolves r s₀ (a x0)) (h : Evolves r s₀ s) : Evolves r s₀ (State.emergencyOff s a) := by
  unfold State.emergencyOff
  extract_lets -underBinder -merge -useContext +onlyGivenNames v0
  have hv0 : Evolves r s₀ v0 := by
    with_reducible refine State.bstKill_evolves ?_
    with_reducible refine ha _ ?_
    exact h
  try clear_value v0
  extract_lets -underBinder -merge -useContext +onlyGivenNames v1
  have hv1 : Evolves r s₀ v1 := by
    with_reducible refine State.modBst_evolves _ ?_
    with_reducible refine State.modPwr_evolves _ ?_
    exact hv0
  try clear_value v1
  with_reducible refine State.setPst_evolves _ ?_
  with_reducible refine State.govRest_evolves ?_
  with_reducible refine State.stopPlls_evolves ?_
  with_reducible refine State.dropDomains_evolves ?_
  exact hv1

theorem State.setVin_evolves {s₀ s} (a) (h : Evolves r s₀ s) : Evolves r s₀ (State.setVin s a) := by
  unfold State.setVin
  extract_lets -underBinder -merge -useContext +onlyGivenNames v0
  have hv0 : Evolves r s₀ v0 := by
    with_reducible refine State.modPwr_evolves _ ?_
    exact h
  try clear_value v0
  with_reducible refine Evolves.ite ?_ ?_
  · with_reducible refine State.emergencyOff_evolves _ (fun y1 hy1 => ?_) ?_
    · with_reducible refine State.raise_evolves _ _ _ _ _ _ ?_
      exact hy1
    · exact hv0
  · exact hv0

theorem State.vioUp_evolves {s₀ s} (a) (h : Evolves r s₀ s) : Evolves r s₀ (State.vioUp s a) := by
  unfold State.vioUp
  extract_lets -underBinder -merge -useContext +onlyGivenNames v0
  have hv0 : Evolves r s₀ v0 := by
    with_reducible refine State.modPwr_evolves _ ?_
    exact h.trans { Evolves.refl r s with ao := fun _ _ => rfl, parts := fun hp => { hp with } }
  try clear_value v0
  extract_lets -underBinder -merge -useContext +onlyGivenNames v1
  have hv1 : Evolves r s₀ v1 := by
    with_reducible refine State.settleSt_evolves ?_
    with_reducible refine State.bstFromFlash_evolves ?_
    with_reducible refine State.setFld_evolves _ _ _ _ _ ?_
    exact hv0
  try clear_value v1
  extract_lets -underBinder -merge -useContext +onlyGivenNames v2
  have hv2 : Evolves r s₀ v2 := by
    with_reducible refine Evolves.ite ?_ ?_
    · with_reducible refine State.raise_evolves _ _ _ _ _ _ ?_
      exact hv1
    · exact hv1
  try clear_value v2
  with_reducible refine Evolves.ite ?_ ?_
  · exact hv2
  · with_reducible refine State.settleSt_evolves ?_
    with_reducible refine State.modPwr_evolves _ ?_
    with_reducible refine State.notice_evolves _ _ _ ?_
    exact hv2

theorem execVio12Apply_evolves {s₀ s t} (a) (he : execVio12Apply a s = .next t) (h : Evolves r s₀ s) : Evolves r s₀ t := by
  unfold execVio12Apply at he
  cases he
  with_reducible refine Evolves.ite ?_ ?_
  · with_reducible refine Evolves.ite ?_ ?_
    · with_reducible refine State.modPwr_evolves _ ?_
      exact h
    · exact h
  · with_reducible refine Evolves.ite ?_ ?_
    · exact h
    · with_reducible refine State.vioUp_evolves _ ?_
      exact h

theorem execBootDone_evolves {s₀ s t} (a) (he : execBootDone a s = .next t) (h : Evolves r s₀ s) : Evolves r s₀ t := by
  unfold execBootDone at he
  cases he
  with_reducible refine Evolves.ite ?_ ?_
  · with_reducible refine State.tryStart_evolves ?_
    with_reducible refine State.bootDone_evolves _ ?_
    exact h
  · exact h

theorem State.vioLost_evolves {s₀ s} (h : Evolves true s₀ s) : Evolves true s₀ (State.vioLost s) := by
  unfold State.vioLost
  exact h.trans ⟨fun _ => rfl, fun _ => rfl, fun _ => rfl, fun hp => ⟨rfl, rfl, rfl, rfl, rfl, keysRise_map_snd hp.ports, rfl, rfl, rfl, rfl, rfl, rfl, rfl, rfl, rfl, rfl, rfl⟩, fun _ => Nat.zero_le _, Nat.le_refl _, List.prefix_rfl, Nat.le_refl _, rfl,
      nofun, nofun, nofun⟩

theorem execVio12Loss_evolves {s₀ s t} (he : execVio12Loss s = .next t) (h : Evolves true s₀ s) : Evolves true s₀ t := by
  unfold execVio12Loss at he
  cases he
  with_reducible refine Evolves.ite ?_ ?_
  · exact h
  · with_reducible refine State.vioLost_evolves ?_
    exact h

theorem execVanaApply_evolves {s₀ s t} (a) (he : execVanaApply a s = .next t) (h : Evolves r s₀ s) : Evolves r s₀ t := by
  unfold execVanaApply at he
  cases he
  with_reducible refine Evolves.ite ?_ ?_
  · extract_lets -underBinder -merge -useContext +onlyGivenNames v0
    try clear_value v0
    extract_lets -underBinder -merge -useContext +onlyGivenNames v1
    have hv1 : Evolves r s₀ v1 := by
      with_reducible refine State.modPwr_evolves _ ?_
      exact h
    try clear_value v1
    with_reducible refine Evolves.ite ?_ ?_
    · with_reducible refine State.tryStart_evolves ?_
      exact hv1
    · exact hv1
  · exact h

theorem execVanaLate_evolves {s₀ s t} (he : execVanaLate s = .next t) (h : Evolves r s₀ s) : Evolves r s₀ t := by
  unfold execVanaLate at he
  cases he
  with_reducible refine Evolves.ite ?_ ?_
  · with_reducible refine State.modPwr_evolves _ ?_
    with_reducible refine State.notice_evolves _ _ _ ?_
    exact h
  · exact h

theorem execVanaLoss_evolves {s₀ s t} (he : execVanaLoss s = .next t) (h : Evolves r s₀ s) : Evolves r s₀ t := by
  unfold execVanaLoss at he
  cases he
  with_reducible refine Evolves.ite ?_ ?_
  · extract_lets -underBinder -merge -useContext +onlyGivenNames v0
    have hv0 : Evolves r s₀ v0 := by
      with_reducible refine State.modPwr_evolves _ ?_
      exact h
    try clear_value v0
    with_reducible refine Evolves.ite ?_ ?_
    · with_reducible refine State.emergencyOff_evolves _ (fun y1 hy1 => ?_) ?_
      · with_reducible refine State.raise_evolves _ _ _ _ _ _ ?_
        exact hy1
      · exact hv0
    · with_reducible refine Evolves.ite ?_ ?_
      · with_reducible refine State.settleSt_evolves ?_
        exact hv0
      · exact hv0
  · exact h

theorem execVinApply_evolves {s₀ s t} (a) (he : execVinApply a s = .next t) (h : Evolves r s₀ s) : Evolves r s₀ t := by
  unfold execVinApply at he
  cases he
  extract_lets -underBinder -merge -useContext +onlyGivenNames v0
  have hv0 : Evolves r s₀ v0 := by
    with_reducible refine State.setVin_evolves _ ?_
    exact h
  try clear_value v0
  with_reducible refine Evolves.ite ?_ ?_
  · with_reducible refine State.tryStart_evolves ?_
    exact hv0
  · exact hv0

theorem execVinOutOfRange_evolves {s₀ s t} (a) (he : execVinOutOfRange a s = .next t) (h : Evolves r s₀ s) : Evolves r s₀ t := by
  unfold execVinOutOfRange at he
  cases he
  with_reducible refine Evolves.ite ?_ ?_
  · exact h
  · extract_lets -underBinder -merge -useContext +onlyGivenNames v0
    have hv0 : Evolves r s₀ v0 := by
      with_reducible refine State.setVin_evolves _ ?_
      exact h
    try clear_value v0
    with_reducible refine Evolves.ite ?_ ?_
    · with_reducible refine State.settleSt_evolves ?_
      exact hv0
    · exact hv0

theorem execInputCharged_evolves {s₀ s t} (he : execInputCharged s = .next t) (h : Evolves r s₀ s) : Evolves r s₀ t := by
  unfold execInputCharged at he
  cases he
  extract_lets -underBinder -merge -useContext +onlyGivenNames v0
  have hv0 : Evolves r s₀ v0 := by
    with_reducible refine State.modPwr_evolves _ ?_
    exact h
  try clear_value v0
  with_reducible refine Evolves.ite ?_ ?_
  · with_reducible refine State.tryStart_evolves ?_
    exact hv0
  · exact hv0

theorem execVinFault_evolves {s₀ s t} (a) (he : execVinFault a s = .next t) (h : Evolves r s₀ s) : Evolves r s₀ t := by
  unfold execVinFault at he
  cases he
  with_reducible refine Evolves.ite ?_ ?_
  · with_reducible refine State.emergencyOff_evolves _ (fun y0 hy0 => ?_) ?_
    · with_reducible refine State.raise_evolves _ _ _ _ _ _ ?_
      with_reducible refine State.raise_evolves _ _ _ _ _ _ ?_
      exact hy0
    · with_reducible refine State.setVin_evolves _ ?_
      exact h
  · exact h

theorem State.parkRequest_evolves {s₀ s} (h : Evolves r s₀ s) : Evolves r s₀ (State.parkRequest s) := by
  unfold State.parkRequest
  with_reducible refine Evolves.ite ?_ ?_
  · with_reducible refine State.settleSt_evolves ?_
    with_reducible refine State.modPwr_evolves _ ?_
    with_reducible refine State.notice_evolves _ _ _ ?_
    exact h
  · exact h

theorem State.parkWithdraw_evolves {s₀ s} (h : Evolves r s₀ s) : Evolves r s₀ (State.parkWithdraw s) := by
  unfold State.parkWithdraw
  with_reducible refine Evolves.ite ?_ ?_
  · with_reducible refine State.settleSt_evolves ?_
    with_reducible refine State.modPwr_evolves _ ?_
    exact h
  · exact h

theorem State.dropAll_evolves {s₀ s} (h : Evolves r s₀ s) : Evolves r s₀ (State.dropAll s) := by
  unfold State.dropAll
  extract_lets -underBinder -merge -useContext +onlyGivenNames v0
  try clear_value v0
  with_reducible refine Evolves.foldl (fun a1 x2 ha1 => ?_) ?_
  · with_reducible refine State.dropBlock_evolves _ ?_
    exact ha1
  · exact h

theorem State.parkBegin_evolves {s₀ s} (h : Evolves r s₀ s) : Evolves r s₀ (State.parkBegin s) := by
  unfold State.parkBegin
  extract_lets -underBinder -merge -useContext +onlyGivenNames v0
  try clear_value v0
  extract_lets -underBinder -merge -useContext +onlyGivenNames v1
  have hv1 : Evolves r s₀ v1 := by
    with_reducible refine State.setFld_evolves _ _ _ _ _ ?_
    with_reducible refine Evolves.ite ?_ ?_
    · with_reducible refine State.dropAll_evolves ?_
      exact h
    · exact h
  try clear_value v1
  extract_lets -underBinder -merge -useContext +onlyGivenNames v2
  have hv2 : Evolves r s₀ v2 := by
    with_reducible refine State.setPst_evolves _ ?_
    with_reducible refine State.modGov_evolves _ ?_
    with_reducible refine State.modPwr_evolves _ ?_
    exact hv1
  try clear_value v2
  with_reducible refine Evolves.ite ?_ ?_
  · with_reducible refine State.bstStart_evolves _ _ ?_
    exact hv2
  · exact hv2

theorem State.graceEnd_evolves {s₀ s} (h : Evolves r s₀ s) : Evolves r s₀ (State.graceEnd s) := by
  unfold State.graceEnd
  split
  · with_reducible refine State.modPwr_evolves _ ?_
    with_reducible refine Evolves.ite ?_ ?_
    · with_reducible refine State.bstAbort_evolves ?_
      exact h
    · exact h
  · with_reducible refine State.parkBegin_evolves ?_
    exact h

theorem execParkGraceExpire_evolves {s₀ s t} (he : execParkGraceExpire s = .next t) (h : Evolves r s₀ s) : Evolves r s₀ t := by
  unfold execParkGraceExpire at he
  cases he
  split
  · with_reducible refine Evolves.ite ?_ ?_
    · exact h
    · with_reducible refine State.graceEnd_evolves ?_
      exact h
  · exact h

theorem execBstDone_evolves {s₀ s t} (he : execBstDone s = .next t) (h : Evolves r s₀ s) : Evolves r s₀ t := by
  unfold execBstDone at he
  cases he
  split
  · with_reducible refine Evolves.ite ?_ ?_
    · extract_lets -underBinder -merge -useContext +onlyGivenNames v1
      have hv1 : Evolves r s₀ v1 := by
        with_reducible refine State.bstFinish_evolves _ ?_
        exact h
      try clear_value v1
      with_reducible refine Evolves.ite ?_ ?_
      · with_reducible refine State.parkBegin_evolves ?_
        exact hv1
      · exact hv1
    · exact h
  · exact h

theorem State.parkDown_evolves {s₀ s} (h : Evolves r s₀ s) : Evolves r s₀ (State.parkDown s) := by
  unfold State.parkDown
  extract_lets -underBinder -merge -useContext +onlyGivenNames v0
  try clear_value v0
  extract_lets -underBinder -merge -useContext +onlyGivenNames v1
  try clear_value v1
  extract_lets -underBinder -merge -useContext +onlyGivenNames v2
  have hv2 : Evolves r s₀ v2 := by
    with_reducible refine State.modPwr_evolves _ ?_
    exact h
  try clear_value v2
  extract_lets -underBinder -merge -useContext +onlyGivenNames v3
  have hv3 : Evolves r s₀ v3 := by
    with_reducible refine State.modPwr_evolves _ ?_
    with_reducible refine State.dropDomains_evolves ?_
    exact hv2
  try clear_value v3
  with_reducible refine State.setPst_evolves _ ?_
  with_reducible refine State.govRest_evolves ?_
  with_reducible refine State.stopPlls_evolves ?_
  exact hv3

theorem execParkComplete_evolves {s₀ s t} (he : execParkComplete s = .next t) (h : Evolves r s₀ s) : Evolves r s₀ t := by
  unfold execParkComplete at he
  cases he
  with_reducible refine Evolves.ite ?_ ?_
  · exact h
  · with_reducible refine State.parkDown_evolves ?_
    exact h

theorem State.resume_evolves {s₀ s} (h : Evolves r s₀ s) : Evolves r s₀ (State.resume s) := by
  unfold State.resume
  with_reducible refine State.tryStart_evolves ?_
  with_reducible refine State.settleSt_evolves ?_
  with_reducible refine State.modPwr_evolves _ ?_
  with_reducible refine State.setPst_evolves _ ?_
  exact h

theorem State.pwrResume_evolves {s₀ s} (h : Evolves r s₀ s) : Evolves r s₀ (State.pwrResume s) := by
  unfold State.pwrResume
  with_reducible refine Evolves.ite ?_ ?_
  · with_reducible refine Evolves.ite ?_ ?_
    · with_reducible refine State.resume_evolves ?_
      exact h
    · exact h
  · with_reducible refine Evolves.ite ?_ ?_
    · with_reducible refine State.resume_evolves ?_
      exact h
    · exact h

theorem State.parkedCheck_evolves {s₀ s} (h : Evolves r s₀ s) : Evolves r s₀ (State.parkedCheck s) := by
  unfold State.parkedCheck
  with_reducible refine Evolves.ite ?_ ?_
  · with_reducible refine State.resume_evolves ?_
    exact h
  · exact h

theorem pwrCtlWrite_evolves {s₀ s} (a) (h : Evolves r s₀ s) : Evolves r s₀ (pwrCtlWrite a s) := by
  unfold pwrCtlWrite
  extract_lets -underBinder -merge -useContext +onlyGivenNames v0
  have hv0 : Evolves r s₀ v0 := by
    with_reducible refine State.setReg_evolves _ _ _ ?_
    exact h
  try clear_value v0
  extract_lets -underBinder -merge -useContext +onlyGivenNames v1
  have hv1 : Evolves r s₀ v1 := by
    with_reducible refine Evolves.ite ?_ ?_
    · with_reducible refine State.modPwr_evolves _ ?_
      exact hv0
    · exact hv0
  try clear_value v1
  extract_lets -underBinder -merge -useContext +onlyGivenNames v2
  have hv2 : Evolves r s₀ v2 := by
    with_reducible refine Evolves.ite ?_ ?_
    · with_reducible refine State.parkRequest_evolves ?_
      exact hv1
    · with_reducible refine State.parkWithdraw_evolves ?_
      exact hv1
  try clear_value v2
  extract_lets -underBinder -merge -useContext +onlyGivenNames v3
  have hv3 : Evolves r s₀ v3 := by
    with_reducible refine Evolves.ite ?_ ?_
    · with_reducible refine State.graceEnd_evolves ?_
      exact hv2
    · exact hv2
  try clear_value v3
  with_reducible refine Evolves.ite ?_ ?_
  · with_reducible refine State.pwrResume_evolves ?_
    exact hv3
  · with_reducible refine State.parkedCheck_evolves ?_
    exact hv3

theorem execPwrResume_evolves {s₀ s t} (a) (he : execPwrResume a s = .next t) (h : Evolves r s₀ s) : Evolves r s₀ t := by
  unfold execPwrResume at he
  cases he
  with_reducible refine State.onWrite_evolves _ _ _ _ (fun y0 hy0 => ?_) ?_
  · with_reducible refine pwrCtlWrite_evolves _ ?_
    exact hy0
  · exact h

theorem execPark_evolves {s₀ s t} (a) (he : execPark a s = .next t) (h : Evolves r s₀ s) : Evolves r s₀ t := by
  unfold execPark at he
  cases he
  with_reducible refine State.onWrite_evolves _ _ _ _ (fun y0 hy0 => ?_) ?_
  · with_reducible refine pwrCtlWrite_evolves _ ?_
    exact hy0
  · exact h

theorem execParkGo_evolves {s₀ s t} (a) (he : execParkGo a s = .next t) (h : Evolves r s₀ s) : Evolves r s₀ t := by
  unfold execParkGo at he
  cases he
  with_reducible refine State.onWrite_evolves _ _ _ _ (fun y0 hy0 => ?_) ?_
  · with_reducible refine pwrCtlWrite_evolves _ ?_
    exact hy0
  · exact h

theorem execShutdown_evolves {s₀ s t} (a) (he : execShutdown a s = .next t) (h : Evolves r s₀ s) : Evolves r s₀ t := by
  unfold execShutdown at he
  cases he
  with_reducible refine State.onWrite_evolves _ _ _ _ (fun y0 hy0 => ?_) ?_
  · with_reducible refine pwrCtlWrite_evolves _ ?_
    exact hy0
  · exact h

theorem execResumed_evolves {s₀ s t} (he : execResumed s = .next t) (h : Evolves r s₀ s) : Evolves r s₀ t := by
  unfold execResumed at he
  cases he
  with_reducible refine Evolves.ite ?_ ?_
  · with_reducible refine State.notice_evolves _ _ _ ?_
    with_reducible refine State.modPwr_evolves _ ?_
    exact h
  · exact h

theorem State.pinsMoved_evolves {s₀ s} (a) (h : Evolves r s₀ s) : Evolves r s₀ (State.pinsMoved a s) := by
  unfold State.pinsMoved
  extract_lets -underBinder -merge -useContext +onlyGivenNames v0
  have hv0 : Evolves r s₀ v0 := by
    with_reducible refine Evolves.ite ?_ ?_
    · with_reducible refine State.parkRequest_evolves ?_
      exact h
    · with_reducible refine Evolves.ite ?_ ?_
      · with_reducible refine State.parkedCheck_evolves ?_
        with_reducible refine State.parkWithdraw_evolves ?_
        exact h
      · exact h
  try clear_value v0
  with_reducible refine Evolves.ite ?_ ?_
  · with_reducible refine State.notice_evolves _ _ _ ?_
    exact hv0
  · exact hv0

theorem State.movePins_evolves {s₀ s} (a) (h : Evolves r s₀ s) : Evolves r s₀ (State.movePins s a) := by
  unfold State.movePins
  with_reducible refine Evolves.ite ?_ ?_
  · with_reducible refine State.pinsMoved_evolves _ ?_
    with_reducible refine State.modPwr_evolves _ ?_
    exact h
  · with_reducible refine State.modPwr_evolves _ ?_
    exact h

theorem execParkNChange_evolves {s₀ s t} (a) (he : execParkNChange a s = .next t) (h : Evolves r s₀ s) : Evolves r s₀ t := by
  unfold execParkNChange at he
  cases he
  with_reducible refine State.movePins_evolves _ ?_
  exact h

theorem execThrottleNChange_evolves {s₀ s t} (a) (he : execThrottleNChange a s = .next t) (h : Evolves r s₀ s) : Evolves r s₀ t := by
  unfold execThrottleNChange at he
  cases he
  with_reducible refine State.movePins_evolves _ ?_
  exact h

theorem execSidebandNoise_evolves {s₀ s t} (a) (he : execSidebandNoise a s = .next t) (h : Evolves r s₀ s) : Evolves r s₀ t := by
  unfold execSidebandNoise at he
  cases he
  with_reducible refine Evolves.ite ?_ ?_
  · with_reducible refine State.movePins_evolves _ ?_
    with_reducible refine State.raise_evolves _ _ _ _ _ _ ?_
    exact h
  · exact h

theorem execNoiseQuiet_evolves {s₀ s t} (a) (he : execNoiseQuiet a s = .next t) (h : Evolves r s₀ s) : Evolves r s₀ t := by
  unfold execNoiseQuiet at he
  cases he
  with_reducible refine Evolves.ite ?_ ?_
  · with_reducible refine State.movePins_evolves _ ?_
    exact h
  · exact h

theorem execNoiseWindowEnd_evolves {s₀ s t} (a) (he : execNoiseWindowEnd a s = .next t) (h : Evolves r s₀ s) : Evolves r s₀ t := by
  unfold execNoiseWindowEnd at he
  cases he
  exact h

theorem State.keepOverReset_evolves {s₀ s} (a) (h : Evolves r s₀ s) : Evolves r s₀ (State.keepOverReset a s) := by
  unfold State.keepOverReset
  extract_lets -underBinder -merge -useContext +onlyGivenNames v0
  have hv0 : Evolves r s₀ v0 := by
    with_reducible refine Evolves.foldl (fun a1 x2 ha1 => ?_) ?_
    · with_reducible refine State.setReg_evolves _ _ _ ?_
      exact ha1
    · exact h
  try clear_value v0
  extract_lets -underBinder -merge -useContext +onlyGivenNames v3
  have hv3 : Evolves r s₀ v3 := by
    with_reducible refine Evolves.foldl (fun a4 x5 ha4 => ?_) ?_
    · with_reducible refine State.setReg_evolves _ _ _ ?_
      exact ha4
    · exact hv0
  try clear_value v3
  extract_lets -underBinder -merge -useContext +onlyGivenNames v6
  have hv6 : Evolves r s₀ v6 := by
    with_reducible refine State.setFld_evolves _ _ _ _ _ ?_
    exact hv3
  try clear_value v6
  extract_lets -underBinder -merge -useContext +onlyGivenNames v7
  have hv7 : Evolves r s₀ v7 := by
    with_reducible refine State.setReg_evolves _ _ _ ?_
    with_reducible refine State.setDom_evolves _ _ ?_
    exact hv6
  try clear_value v7
  extract_lets -underBinder -merge -useContext +onlyGivenNames v8
  have hv8 : Evolves r s₀ v8 := by
    with_reducible refine State.setReg_evolves _ _ _ ?_
    exact hv7
  try clear_value v8
  with_reducible refine Evolves.foldl (fun a9 x10 ha9 => ?_) ?_
  · with_reducible refine State.setReg_evolves _ _ _ ?_
    exact ha9
  · exact hv8

theorem State.moduleReset_evolves {s₀ s} (h : Evolves true s₀ s) : Evolves true s₀ (State.moduleReset s) := by
  unfold State.moduleReset
  extract_lets -underBinder -merge -useContext +onlyGivenNames v0
  have hv0 : Evolves true s₀ v0 := by
    with_reducible refine State.dropDomains_evolves ?_
    with_reducible refine State.bstKill_evolves ?_
    with_reducible refine State.modPwr_evolves _ ?_
    exact h
  try clear_value v0
  extract_lets -underBinder -merge -useContext +onlyGivenNames v1 v2 v3 v4
  have hv4 : Evolves true s₀ v4 := by
    exact h.trans ⟨fun _ => rfl, fun _ => rfl, fun _ => rfl, fun hp => ⟨rfl, rfl, rfl, rfl, rfl, keysRise_map_snd hp.ports, rfl, rfl, rfl, rfl, rfl, rfl, rfl, rfl, rfl, rfl, rfl⟩, fun _ => Nat.zero_le _, Nat.le_refl _, List.prefix_rfl, Nat.le_refl _, rfl,
      nofun, nofun, nofun⟩
  try clear_value v4
  with_reducible refine State.settleSt_evolves ?_
  with_reducible refine State.bstFromFlash_evolves ?_
  with_reducible refine State.keepOverReset_evolves _ ?_
  exact hv4

theorem execResetNAssert_evolves {s₀ s t} (he : execResetNAssert s = .next t) (h : Evolves true s₀ s) : Evolves true s₀ t := by
  unfold execResetNAssert at he
  cases he
  with_reducible refine Evolves.ite ?_ ?_
  · with_reducible refine State.modPwr_evolves _ ?_
    exact h
  · with_reducible refine Evolves.ite ?_ ?_
    · exact h
    · with_reducible refine State.moduleReset_evolves ?_
      exact h

theorem execResetNRelease_evolves {s₀ s t} (he : execResetNRelease s = .next t) (h : Evolves r s₀ s) : Evolves r s₀ t := by
  unfold execResetNRelease at he
  cases he
  extract_lets -underBinder -merge -useContext +onlyGivenNames v0
  have hv0 : Evolves r s₀ v0 := by
    with_reducible refine State.modPwr_evolves _ ?_
    exact h
  try clear_value v0
  with_reducible refine Evolves.ite ?_ ?_
  · extract_lets -underBinder -merge -useContext +onlyGivenNames v1
    have hv1 : Evolves r s₀ v1 := by
      with_reducible refine State.tryStart_evolves ?_
      exact hv0
    try clear_value v1
    with_reducible refine Evolves.ite ?_ ?_
    · with_reducible refine State.parkRequest_evolves ?_
      exact hv1
    · exact hv1
  · exact hv0

end Sys2Proof.Machine
end

