-- ==== Sys2Proof/Laws/EvolvesBus.lean ====
section
/-! SUPPORT. Laws/EvolvesBus.lean: every operation of the governor, debug, pads, the dispatcher and the register bus evolves the state (Laws/Evolves.lean); one lemma for each. -/
namespace Sys2Proof.Machine

set_option Elab.async false
set_option linter.all false

variable {r : Bool}

theorem State.fill_evolves {s₀ s} (a b) (h : Evolves r s₀ s) : Evolves r s₀ (State.fill s a b) := by
  unfold State.fill
  extract_lets -underBinder -merge -useContext +onlyGivenNames v0
  try clear_value v0
  extract_lets -underBinder -merge -useContext +onlyGivenNames v1
  try clear_value v1
  extract_lets -underBinder -merge -useContext +onlyGivenNames v2
  try clear_value v2
  extract_lets -underBinder -merge -useContext +onlyGivenNames v3
  try clear_value v3
  with_reducible refine Evolves.ite ?_ ?_
  · with_reducible refine State.modGov_evolves _ ?_
    exact h
  · with_reducible refine Evolves.ite ?_ ?_
    · extract_lets -underBinder -merge -useContext +onlyGivenNames v4
      try clear_value v4
      extract_lets -underBinder -merge -useContext +onlyGivenNames v5
      try clear_value v5
      extract_lets -underBinder -merge -useContext +onlyGivenNames v6
      try clear_value v6
      extract_lets -underBinder -merge -useContext +onlyGivenNames v7
      have hv7 : Evolves r s₀ v7 := by
        with_reducible refine Evolves.foldl (fun a8 x9 ha8 => ?_) ?_
        · with_reducible refine State.withClock_evolves _ ?_
          exact ha8
        · exact h
      try clear_value v7
      extract_lets -underBinder -merge -useContext +onlyGivenNames v10
      try clear_value v10
      extract_lets -underBinder -merge -useContext +onlyGivenNames v11
      have hv11 : Evolves r s₀ v11 := by
        with_reducible refine State.modGov_evolves _ ?_
        exact hv7
      try clear_value v11
      with_reducible refine Evolves.ite ?_ ?_
      · with_reducible refine State.modGov_evolves _ ?_
        with_reducible refine State.notice_evolves _ _ _ ?_
        exact hv11
      · exact hv11
    · extract_lets -underBinder -merge -useContext +onlyGivenNames v12
      try clear_value v12
      with_reducible refine State.modGov_evolves _ ?_
      exact h

theorem State.showDuty_evolves {s₀ s} (h : Evolves r s₀ s) : Evolves r s₀ (State.showDuty s) := by
  unfold State.showDuty
  extract_lets -underBinder -merge -useContext +onlyGivenNames v0
  try clear_value v0
  with_reducible refine State.setReg_evolves _ _ _ ?_
  exact h

theorem State.govOver_evolves {s₀ s} (a) (h : Evolves r s₀ s) : Evolves r s₀ (State.govOver s a) := by
  unfold State.govOver
  extract_lets -underBinder -merge -useContext +onlyGivenNames v0
  try clear_value v0
  with_reducible refine Evolves.ite ?_ ?_
  · extract_lets -underBinder -merge -useContext +onlyGivenNames v1
    try clear_value v1
    extract_lets -underBinder -merge -useContext +onlyGivenNames v2
    have hv2 : Evolves r s₀ v2 := by
      with_reducible refine State.modGov_evolves _ ?_
      exact h
    try clear_value v2
    with_reducible refine Evolves.ite ?_ ?_
    · with_reducible refine State.raise_evolves _ _ _ _ _ _ ?_
      with_reducible refine State.modGov_evolves _ ?_
      exact hv2
    · exact hv2
  · with_reducible refine State.modGov_evolves _ ?_
    exact h

theorem State.govTick_evolves {s₀ s} (a b c) (h : Evolves r s₀ s) : Evolves r s₀ (State.govTick s a b c) := by
  unfold State.govTick
  extract_lets -underBinder -merge -useContext +onlyGivenNames v0
  have hv0 : Evolves r s₀ v0 := by
    with_reducible refine State.modGov_evolves _ ?_
    with_reducible refine State.modPwr_evolves _ ?_
    exact h
  try clear_value v0
  extract_lets -underBinder -merge -useContext +onlyGivenNames v1
  try clear_value v1
  extract_lets -underBinder -merge -useContext +onlyGivenNames v2
  try clear_value v2
  extract_lets -underBinder -merge -useContext +onlyGivenNames v3
  have hv3 : Evolves r s₀ v3 := by
    with_reducible refine State.modGov_evolves _ ?_
    exact hv0
  try clear_value v3
  extract_lets -underBinder -merge -useContext +onlyGivenNames v4
  try clear_value v4
  extract_lets -underBinder -merge -useContext +onlyGivenNames v5
  try clear_value v5
  extract_lets -underBinder -merge -useContext +onlyGivenNames v6
  try clear_value v6
  extract_lets -underBinder -merge -useContext +onlyGivenNames v7
  have hv7 : Evolves r s₀ v7 := by
    with_reducible refine State.modGov_evolves _ ?_
    exact hv3
  try clear_value v7
  extract_lets -underBinder -merge -useContext +onlyGivenNames v8
  have hv8 : Evolves r s₀ v8 := by
    with_reducible refine Evolves.ite ?_ ?_
    · with_reducible refine State.fill_evolves _ _ ?_
      exact hv7
    · with_reducible refine State.modGov_evolves _ ?_
      exact hv7
  try clear_value v8
  extract_lets -underBinder -merge -useContext +onlyGivenNames v9
  try clear_value v9
  extract_lets -underBinder -merge -useContext +onlyGivenNames v10
  have hv10 : Evolves r s₀ v10 := by
    with_reducible refine State.bump_evolves _ _ _ ?_
    with_reducible refine State.setFld_evolves _ _ _ _ _ ?_
    exact hv8
  try clear_value v10
  extract_lets -underBinder -merge -useContext +onlyGivenNames v11
  have hv11 : Evolves r s₀ v11 := by
    with_reducible refine State.setReg_evolves _ _ _ ?_
    with_reducible refine State.setReg_evolves _ _ _ ?_
    exact hv10
  try clear_value v11
  with_reducible refine State.govOver_evolves _ ?_
  with_reducible refine State.showDuty_evolves ?_
  exact hv11

theorem execGovernorTick_evolves {s₀ s t} (a b c) (he : execGovernorTick a b c s = .next t) (h : Evolves r s₀ s) : Evolves r s₀ t := by
  unfold execGovernorTick at he
  cases he
  with_reducible refine Evolves.ite ?_ ?_
  · with_reducible refine State.govTick_evolves _ _ _ ?_
    exact h
  · exact h

theorem execIdleClockStop_evolves {s₀ s t} (a) (he : execIdleClockStop a s = .next t) (h : Evolves r s₀ s) : Evolves r s₀ t := by
  unfold execIdleClockStop at he
  cases he
  extract_lets -underBinder -merge -useContext +onlyGivenNames v0
  try clear_value v0
  with_reducible refine Evolves.ite ?_ ?_
  · exact h
  · with_reducible refine State.modTile_evolves _ _ ?_
    exact h

theorem State.takeWake_evolves {s₀ s} (a) (h : Evolves r s₀ s) : Evolves r s₀ (State.takeWake s a) := by
  unfold State.takeWake
  split
  · extract_lets -underBinder -merge -useContext +onlyGivenNames v2
    try clear_value v2
    with_reducible refine State.modGov_evolves _ ?_
    exact h

theorem execComputeClockRestart_evolves {s₀ s t} (a) (he : execComputeClockRestart a s = .next t) (h : Evolves r s₀ s) : Evolves r s₀ t := by
  unfold execComputeClockRestart at he
  cases he
  extract_lets -underBinder -merge -useContext +onlyGivenNames v0
  try clear_value v0
  extract_lets -underBinder -merge -useContext +onlyGivenNames v1
  try clear_value v1
  with_reducible refine Evolves.ite ?_ ?_
  · exact h
  · with_reducible refine Evolves.ite ?_ ?_
    · with_reducible refine State.defer_evolves _ ?_
      exact h
    · with_reducible refine State.withClock_evolves _ ?_
      with_reducible refine State.takeWake_evolves _ ?_
      with_reducible refine State.admitted_evolves _ ?_
      exact h

theorem State.dramSample_evolves {s₀ s} (a b) (h : Evolves r s₀ s) : Evolves r s₀ (State.dramSample s a b) := by
  unfold State.dramSample
  extract_lets -underBinder -merge -useContext +onlyGivenNames v0
  try clear_value v0
  with_reducible refine Evolves.ite ?_ ?_
  · exact h
  · extract_lets -underBinder -merge -useContext +onlyGivenNames v1
    have hv1 : Evolves r s₀ v1 := by
      with_reducible refine State.setFld_evolves _ _ _ _ _ ?_
      with_reducible refine State.setReg_evolves _ _ _ ?_
      exact h
    try clear_value v1
    extract_lets -underBinder -merge -useContext +onlyGivenNames v2
    try clear_value v2
    with_reducible refine Evolves.ite ?_ ?_
    · with_reducible refine Evolves.ite ?_ ?_
      · exact hv1
      · with_reducible refine State.modGov_evolves _ ?_
        with_reducible refine State.raise_evolves _ _ _ _ _ _ ?_
        exact hv1
    · with_reducible refine Evolves.ite ?_ ?_
      · with_reducible refine State.modGov_evolves _ ?_
        exact hv1
      · exact hv1

theorem State.heatStep_evolves {s₀ s} (a b) (h : Evolves r s₀ s) : Evolves r s₀ (State.heatStep s a b) := by
  unfold State.heatStep
  extract_lets -underBinder -merge -useContext +onlyGivenNames v0
  try clear_value v0
  extract_lets -underBinder -merge -useContext +onlyGivenNames v1
  try clear_value v1
  extract_lets -underBinder -merge -useContext +onlyGivenNames v2
  try clear_value v2
  extract_lets -underBinder -merge -useContext +onlyGivenNames v3
  try clear_value v3
  extract_lets -underBinder -merge -useContext +onlyGivenNames v4
  try clear_value v4
  extract_lets -underBinder -merge -useContext +onlyGivenNames v5
  try clear_value v5
  extract_lets -underBinder -merge -useContext +onlyGivenNames v6
  try clear_value v6
  extract_lets -underBinder -merge -useContext +onlyGivenNames v7
  have hv7 : Evolves r s₀ v7 := by
    with_reducible refine Evolves.ite ?_ ?_
    · with_reducible refine State.raise_evolves _ _ _ _ _ _ ?_
      exact h
    · exact h
  try clear_value v7
  extract_lets -underBinder -merge -useContext +onlyGivenNames v8
  have hv8 : Evolves r s₀ v8 := by
    with_reducible refine State.modGov_evolves _ ?_
    exact hv7
  try clear_value v8
  with_reducible refine Evolves.ite ?_ ?_
  · with_reducible refine Evolves.ite ?_ ?_
    · with_reducible refine State.modGov_evolves _ ?_
      exact hv8
    · exact hv8
  · with_reducible refine Evolves.ite ?_ ?_
    · with_reducible refine State.modGov_evolves _ ?_
      exact hv8
    · exact hv8

theorem State.takeTemps_evolves {s₀ s} (a) (h : Evolves r s₀ s) : Evolves r s₀ (State.takeTemps s a) := by
  unfold State.takeTemps
  extract_lets -underBinder -merge -useContext +onlyGivenNames v0
  try clear_value v0
  split
  · extract_lets -underBinder -merge -useContext +onlyGivenNames v3
    have hv3 : Evolves r s₀ v3 := by
      with_reducible refine State.modPwr_evolves _ ?_
      with_reducible refine State.setReg_evolves _ _ _ ?_
      exact h
    try clear_value v3
    split
    · with_reducible refine Evolves.ite ?_ ?_
      · exact hv3
      · extract_lets -underBinder -merge -useContext +onlyGivenNames v5
        have hv5 : Evolves r s₀ v5 := by
          with_reducible refine State.setReg_evolves _ _ _ ?_
          exact hv3
        try clear_value v5
        with_reducible refine State.modPwr_evolves _ ?_
        with_reducible refine State.emergencyOff_evolves _ (fun y6 hy6 => ?_) ?_
        · with_reducible refine State.raise_evolves _ _ _ _ _ _ ?_
          exact hy6
        · exact hv5
    · extract_lets -underBinder -merge -useContext +onlyGivenNames v8
      have hv8 : Evolves r s₀ v8 := by
        with_reducible refine Evolves.foldl (fun a9 x10 ha9 => ?_) ?_
        · with_reducible refine State.dramSample_evolves _ _ ?_
          exact ha9
        · exact hv3
      try clear_value v8
      with_reducible refine State.showDuty_evolves ?_
      with_reducible refine Evolves.foldl (fun a11 x12 ha11 => ?_) ?_
      · with_reducible refine State.heatStep_evolves _ _ ?_
        exact ha11
      · exact hv8

theorem execThermalSample_evolves {s₀ s t} (a) (he : execThermalSample a s = .next t) (h : Evolves r s₀ s) : Evolves r s₀ t := by
  unfold execThermalSample at he
  cases he
  with_reducible refine Evolves.ite ?_ ?_
  · exact h
  · with_reducible refine State.takeTemps_evolves _ ?_
    exact h

theorem dbgCtlWrite_evolves {s₀ s} (a b) (h : Evolves r s₀ s) : Evolves r s₀ (dbgCtlWrite a b s) := by
  unfold dbgCtlWrite
  extract_lets -underBinder -merge -useContext +onlyGivenNames v0
  have hv0 : Evolves r s₀ v0 := by
    with_reducible refine State.setReg_evolves _ _ _ ?_
    exact h
  try clear_value v0
  with_reducible refine Evolves.ite ?_ ?_
  · with_reducible refine Evolves.upd_parts ?_ rfl rfl rfl rfl rfl rfl rfl rfl rfl rfl rfl ?_
    · exact fun hp => { hp with
        dbgStep := by first | exact keysRise_sset hp.dbgStep | exact keysRise_filter _ hp.dbgStep | exact keysRise_sput (Nat.zero_le _) hp.dbgStep | exact keysRise_sdel hp.dbgStep | exact keysRise_map_snd hp.dbgStep | exact keysRise_map_if hp.dbgStep | rfl
      }
    exact hv0
  · exact hv0

theorem execFreeze_evolves {s₀ s t} (a b c) (he : execFreeze a b c s = .next t) (h : Evolves r s₀ s) : Evolves r s₀ t := by
  unfold execFreeze at he
  cases he
  with_reducible refine Evolves.ite ?_ ?_
  · with_reducible refine State.onWrite_evolves _ _ _ _ (fun y0 hy0 => ?_) ?_
    · with_reducible refine dbgCtlWrite_evolves _ _ ?_
      exact hy0
    · exact h
  · exact h

theorem execDbgStep_evolves {s₀ s t} (a b) (he : execDbgStep a b s = .next t) (h : Evolves r s₀ s) : Evolves r s₀ t := by
  unfold execDbgStep at he
  cases he
  with_reducible refine Evolves.ite ?_ ?_
  · with_reducible refine State.onWrite_evolves _ _ _ _ (fun y0 hy0 => ?_) ?_
    · with_reducible refine dbgCtlWrite_evolves _ _ ?_
      exact hy0
    · exact h
  · exact h

theorem State.pokeWord_evolves {s₀ s} (a b c d) (h : Evolves r s₀ s) : Evolves r s₀ (State.pokeWord s a b c d) := by
  unfold State.pokeWord
  extract_lets -underBinder -merge -useContext +onlyGivenNames v0
  try clear_value v0
  split
  · with_reducible refine Evolves.ite ?_ ?_
    · with_reducible refine State.setVreg_evolves _ _ _ ?_
      exact h
    · exact h
  · with_reducible refine Evolves.ite ?_ ?_
    · with_reducible refine State.setPreg_evolves _ _ _ ?_
      exact h
    · exact h
  · with_reducible refine Evolves.ite ?_ ?_
    · extract_lets -underBinder -merge -useContext +onlyGivenNames v4
      try clear_value v4
      with_reducible refine State.setBank_evolves _ _ _ ?_
      exact h
    · exact h
  · with_reducible refine Evolves.ite ?_ ?_
    · extract_lets -underBinder -merge -useContext +onlyGivenNames v6
      try clear_value v6
      with_reducible refine State.setBank_evolves _ _ _ ?_
      exact h
    · exact h
  · extract_lets -underBinder -merge -useContext +onlyGivenNames v8
    try clear_value v8
    extract_lets -underBinder -merge -useContext +onlyGivenNames v9
    try clear_value v9
    with_reducible refine Evolves.ite ?_ ?_
    · with_reducible refine State.setTile_evolves _ _ ?_
      exact h
    · with_reducible refine Evolves.ite ?_ ?_
      · exact h
      · with_reducible refine State.setTile_evolves _ _ ?_
        exact h
  · with_reducible refine Evolves.ite ?_ ?_
    · extract_lets -underBinder -merge -useContext +onlyGivenNames v11
      try clear_value v11
      extract_lets -underBinder -merge -useContext +onlyGivenNames v12
      try clear_value v12
      with_reducible refine State.setTile_evolves _ _ ?_
      exact h
    · exact h
  · with_reducible refine State.setTile_evolves _ _ ?_
    exact h
  · exact h

theorem peekWrite_evolves {s₀ s} (a b) (h : Evolves r s₀ s) : Evolves r s₀ (peekWrite a b s) := by
  unfold peekWrite
  split
  · with_reducible refine State.pokeWord_evolves _ _ _ _ ?_
    exact h
  · exact h

theorem peekRead_evolves {s₀ s} (a) (h : Evolves r s₀ s) : Evolves r s₀ (peekRead a s) := by
  unfold peekRead
  split
  · with_reducible refine State.reply_evolves _ ?_
    exact h
  · with_reducible refine State.reply_evolves _ ?_
    exact h

theorem State.onPeekWrite_evolves {s₀ s} (a b c) (h : Evolves r s₀ s) : Evolves r s₀ (State.onPeekWrite s a b c) := by
  unfold State.onPeekWrite
  with_reducible refine Evolves.ite ?_ ?_
  · with_reducible refine State.onWrite_evolves _ _ _ _ (fun y0 hy0 => ?_) ?_
    · with_reducible refine peekWrite_evolves _ _ ?_
      exact hy0
    · exact h
  · split
    · with_reducible refine State.deny_evolves _ _ _ ?_
      exact h
    · exact h

theorem execPeekDataAccess_evolves {s₀ s t} (a b c d) (he : execPeekDataAccess a b c d s = .next t) (h : Evolves r s₀ s) : Evolves r s₀ t := by
  unfold execPeekDataAccess at he
  cases he
  with_reducible refine Evolves.ite ?_ ?_
  · with_reducible refine Evolves.ite ?_ ?_
    · with_reducible refine State.onPeekWrite_evolves _ _ _ ?_
      exact h
    · with_reducible refine State.onRead_evolves _ _ _ _ (fun y0 hy0 => ?_) ?_
      · with_reducible refine peekRead_evolves _ ?_
        exact hy0
      · exact h
  · exact h

theorem traceCtlWrite_evolves {s₀ s} (a) (h : Evolves r s₀ s) : Evolves r s₀ (traceCtlWrite a s) := by
  unfold traceCtlWrite
  extract_lets -underBinder -merge -useContext +onlyGivenNames v0
  try clear_value v0
  extract_lets -underBinder -merge -useContext +onlyGivenNames v1
  have hv1 : Evolves r s₀ v1 := by
    with_reducible refine State.setReg_evolves _ _ _ ?_
    exact h
  try clear_value v1
  with_reducible refine Evolves.ite ?_ ?_
  · with_reducible refine State.setReg_evolves _ _ _ ?_
    exact hv1
  · exact hv1

theorem State.smb_evolves {s₀ s t} (a) (he : State.smb s a = .next t) (h : Evolves r s₀ s) : Evolves r s₀ t := by
  unfold State.smb at he
  cases he
  with_reducible refine Evolves.ite ?_ ?_
  · with_reducible refine Evolves.upd_out ?_ rfl rfl rfl rfl rfl rfl rfl rfl rfl rfl rfl rfl rfl rfl rfl rfl rfl rfl rfl rfl rfl rfl rfl rfl rfl rfl rfl ?_
    · exact ⟨_, rfl⟩
    exact h
  · exact h

theorem execReadVersion_evolves {s₀ s t} (he : execReadVersion s = .next t) (h : Evolves r s₀ s) : Evolves r s₀ t := by
  unfold execReadVersion at he
  with_reducible refine State.smb_evolves _ he ?_
  exact h

theorem execReadSupplySts_evolves {s₀ s t} (he : execReadSupplySts s = .next t) (h : Evolves r s₀ s) : Evolves r s₀ t := by
  unfold execReadSupplySts at he
  with_reducible refine State.smb_evolves _ he ?_
  exact h

theorem execReadPwrSts_evolves {s₀ s t} (he : execReadPwrSts s = .next t) (h : Evolves r s₀ s) : Evolves r s₀ t := by
  unfold execReadPwrSts at he
  with_reducible refine State.smb_evolves _ he ?_
  exact h

theorem execReadPwrTemp_evolves {s₀ s t} (he : execReadPwrTemp s = .next t) (h : Evolves r s₀ s) : Evolves r s₀ t := by
  unfold execReadPwrTemp at he
  with_reducible refine State.smb_evolves _ he ?_
  exact h

theorem execReadPwrEst_evolves {s₀ s t} (he : execReadPwrEst s = .next t) (h : Evolves r s₀ s) : Evolves r s₀ t := by
  unfold execReadPwrEst at he
  with_reducible refine State.smb_evolves _ he ?_
  exact h

theorem execReadErrSts_evolves {s₀ s t} (he : execReadErrSts s = .next t) (h : Evolves r s₀ s) : Evolves r s₀ t := by
  unfold execReadErrSts at he
  with_reducible refine State.smb_evolves _ he ?_
  exact h

theorem execReadSideband_evolves {s₀ s t} (he : execReadSideband s = .next t) (h : Evolves r s₀ s) : Evolves r s₀ t := by
  unfold execReadSideband at he
  with_reducible refine State.smb_evolves _ he ?_
  exact h

theorem execReadModuleTime_evolves {s₀ s t} (he : execReadModuleTime s = .next t) (h : Evolves r s₀ s) : Evolves r s₀ t := by
  unfold execReadModuleTime at he
  with_reducible refine State.smb_evolves _ he ?_
  exact h

theorem execReadErrorRecord_evolves {s₀ s t} (he : execReadErrorRecord s = .next t) (h : Evolves r s₀ s) : Evolves r s₀ t := by
  unfold execReadErrorRecord at he
  with_reducible refine State.smb_evolves _ he ?_
  exact h

theorem execSmbClkTimeout_evolves {s₀ s t} (he : execSmbClkTimeout s = .next t) (h : Evolves r s₀ s) : Evolves r s₀ t := by
  unfold execSmbClkTimeout at he
  cases he
  exact h

theorem State.modTap_evolves {s₀ s} (a) (h : Evolves r s₀ s) : Evolves r s₀ (State.modTap s a) := by
  unfold State.modTap
  with_reducible refine Evolves.upd_mk rfl rfl rfl rfl rfl rfl rfl rfl rfl rfl rfl rfl rfl rfl rfl rfl rfl rfl rfl rfl rfl rfl rfl rfl rfl rfl rfl rfl ?_
  exact h

theorem State.boundaryScan_evolves {s₀ s} (a) (h : Evolves r s₀ s) : Evolves r s₀ (State.boundaryScan s a) := by
  unfold State.boundaryScan
  split
  · rename_i w0 w1 e2
    have hw1 : Evolves r s₀ w1 := Evolves.of_pair2 e2 (by
      with_reducible refine State.fresh_evolves ?_
      exact h)
    split
    · rename_i w3 w4 e5
      have hw4 : Evolves r s₀ w4 := Evolves.of_pair2 e5 (by
        with_reducible refine State.fresh_evolves ?_
        exact hw1)
      with_reducible refine State.modTap_evolves _ ?_
      exact hw4

theorem State.holdPads_evolves {s₀ s} (h : Evolves r s₀ s) : Evolves r s₀ (State.holdPads s) := by
  unfold State.holdPads
  extract_lets -underBinder -merge -useContext +onlyGivenNames v0
  have hv0 : Evolves r s₀ v0 := by
    with_reducible refine Evolves.ite ?_ ?_
    · with_reducible refine State.detachAll_evolves ?_
      exact h
    · exact h
  try clear_value v0
  with_reducible refine Evolves.foldl (fun a1 x2 ha1 => ?_) ?_
  · extract_lets -underBinder -merge -useContext +onlyGivenNames v3
    try clear_value v3
    extract_lets -underBinder -merge -useContext +onlyGivenNames v4
    try clear_value v4
    extract_lets -underBinder -merge -useContext +onlyGivenNames v5
    try clear_value v5
    with_reducible refine Evolves.ite ?_ ?_
    · exact ha1
    · extract_lets -underBinder -merge -useContext +onlyGivenNames v6
      have hv6 : Evolves r s₀ v6 := by
        with_reducible refine Evolves.ite ?_ ?_
        · with_reducible refine State.linkDown_evolves _ _ ?_
          exact ha1
        · with_reducible refine State.setReg_evolves _ _ _ ?_
          with_reducible refine State.setLink_evolves _ _ _ ?_
          exact ha1
      try clear_value v6
      with_reducible refine State.modLink_evolves _ _ _ ?_
      exact hv6
  · exact hv0

theorem State.tapLoad_evolves {s₀ s t} (a) (ha : ∀ x0, Evolves r s₀ x0 → Evolves r s₀ (a x0)) (he : State.tapLoad s a = .next t) (h : Evolves r s₀ s) : Evolves r s₀ t := by
  unfold State.tapLoad at he
  cases he
  with_reducible refine Evolves.ite ?_ ?_
  · with_reducible refine ha _ ?_
    exact h
  · exact h

theorem execExtest_evolves {s₀ s t} (he : execExtest s = .next t) (h : Evolves r s₀ s) : Evolves r s₀ t := by
  unfold execExtest at he
  with_reducible refine State.tapLoad_evolves _ (fun y0 hy0 => ?_) he ?_
  · with_reducible refine State.boundaryScan_evolves _ ?_
    with_reducible refine State.holdPads_evolves ?_
    exact hy0
  exact h

theorem execIdcode_evolves {s₀ s t} (he : execIdcode s = .next t) (h : Evolves r s₀ s) : Evolves r s₀ t := by
  unfold execIdcode at he
  with_reducible refine State.tapLoad_evolves _ (fun y0 hy0 => ?_) he ?_
  · with_reducible refine State.modTap_evolves _ ?_
    exact hy0
  exact h

theorem execSamplePreload_evolves {s₀ s t} (he : execSamplePreload s = .next t) (h : Evolves r s₀ s) : Evolves r s₀ t := by
  unfold execSamplePreload at he
  with_reducible refine State.tapLoad_evolves _ (fun y0 hy0 => ?_) he ?_
  · with_reducible refine State.boundaryScan_evolves _ ?_
    exact hy0
  exact h

theorem execClamp_evolves {s₀ s t} (he : execClamp s = .next t) (h : Evolves r s₀ s) : Evolves r s₀ t := by
  unfold execClamp at he
  with_reducible refine State.tapLoad_evolves _ (fun y0 hy0 => ?_) he ?_
  · with_reducible refine State.modTap_evolves _ ?_
    with_reducible refine State.holdPads_evolves ?_
    exact hy0
  exact h

theorem execHighz_evolves {s₀ s t} (he : execHighz s = .next t) (h : Evolves r s₀ s) : Evolves r s₀ t := by
  unfold execHighz at he
  with_reducible refine State.tapLoad_evolves _ (fun y0 hy0 => ?_) he ?_
  · with_reducible refine State.modTap_evolves _ ?_
    with_reducible refine State.holdPads_evolves ?_
    exact hy0
  exact h

theorem execExtestPulse_evolves {s₀ s t} (he : execExtestPulse s = .next t) (h : Evolves r s₀ s) : Evolves r s₀ t := by
  unfold execExtestPulse at he
  with_reducible refine State.tapLoad_evolves _ (fun y0 hy0 => ?_) he ?_
  · with_reducible refine State.boundaryScan_evolves _ ?_
    with_reducible refine State.holdPads_evolves ?_
    exact hy0
  exact h

theorem execExtestTrain_evolves {s₀ s t} (he : execExtestTrain s = .next t) (h : Evolves r s₀ s) : Evolves r s₀ t := by
  unfold execExtestTrain at he
  with_reducible refine State.tapLoad_evolves _ (fun y0 hy0 => ?_) he ?_
  · with_reducible refine State.boundaryScan_evolves _ ?_
    with_reducible refine State.holdPads_evolves ?_
    exact hy0
  exact h

theorem execBypass_evolves {s₀ s t} (he : execBypass s = .next t) (h : Evolves r s₀ s) : Evolves r s₀ t := by
  unfold execBypass at he
  with_reducible refine State.tapLoad_evolves _ (fun y0 hy0 => ?_) he ?_
  · with_reducible refine State.modTap_evolves _ ?_
    exact hy0
  exact h

theorem execPrivateScan_evolves {s₀ s t} (a) (he : execPrivateScan a s = .next t) (h : Evolves r s₀ s) : Evolves r s₀ t := by
  unfold execPrivateScan at he
  with_reducible refine State.tapLoad_evolves _ (fun y0 hy0 => ?_) he ?_
  · with_reducible refine Evolves.ite ?_ ?_
    · split
      · rename_i w1 w2 e3
        have hw2 : Evolves r s₀ w2 := Evolves.of_pair2 e3 (by
          with_reducible refine State.fresh_evolves ?_
          exact hy0)
        with_reducible refine State.modTap_evolves _ ?_
        exact hw2
    · with_reducible refine State.modTap_evolves _ ?_
      exact hy0
  exact h

theorem execTapReset_evolves {s₀ s t} (he : execTapReset s = .next t) (h : Evolves r s₀ s) : Evolves r s₀ t := by
  unfold execTapReset at he
  with_reducible refine State.tapLoad_evolves _ (fun y0 hy0 => ?_) he ?_
  · with_reducible refine State.modTap_evolves _ ?_
    exact hy0
  exact h

theorem State.hddWrite_evolves {s₀ s t} (a b) (he : State.hddWrite s a b = some t) (h : Evolves r s₀ s) : Evolves r s₀ t := by
  unfold State.hddWrite at he
  dsimp only at he
  split at he
  · cases he; exact h
  · split at he
    · cases he
    · cases he; exact tilSeqTailWrite_evolves _ _ (State.store_evolves _ _ h)

theorem State.hddEmit_evolves {s₀ s} (a b) (h : Evolves r s₀ s) : Evolves r s₀ (State.hddEmit s a b).1 := by
  unfold State.hddEmit
  split
  · with_reducible refine Evolves.mk_fst ?_
    exact h
  · with_reducible refine Evolves.ite_fst ?_ ?_
    · split
      · rename_i w4 w5 e6
        have hw4 : Evolves r s₀ w4 := Evolves.of_pair e6 (by
          with_reducible refine State.hddEmit_evolves _ _ ?_
          exact h)
        with_reducible refine Evolves.mk_fst ?_
        exact hw4
    · split
      · rename_i w7 e8
        have hw7 : Evolves r s₀ w7 := by
          with_reducible refine State.hddWrite_evolves _ _ e8 ?_
          exact h
        with_reducible refine State.hddEmit_evolves _ _ ?_
        exact hw7
      · split
        · rename_i w10 w11 e12
          have hw10 : Evolves r s₀ w10 := Evolves.of_pair e12 (by
            with_reducible refine State.hddEmit_evolves _ _ ?_
            exact h)
          with_reducible refine Evolves.mk_fst ?_
          exact hw10

theorem State.hddClear_evolves {s₀ s} (a) (h : Evolves r s₀ s) : Evolves r s₀ (State.hddClear s a) := by
  unfold State.hddClear
  extract_lets -underBinder -merge -useContext +onlyGivenNames v0
  try clear_value v0
  with_reducible refine Evolves.ite ?_ ?_
  · with_reducible refine Evolves.foldl (fun a1 x2 ha1 => ?_) ?_
    · with_reducible refine State.setReg_evolves _ _ _ ?_
      exact ha1
    · exact h
  · exact h

theorem hddStart_evolves {s₀ s} (a) (h : Evolves r s₀ s) : Evolves r s₀ (hddStart a s) := by
  unfold hddStart
  extract_lets -underBinder -merge -useContext +onlyGivenNames v0
  try clear_value v0
  extract_lets -underBinder -merge -useContext +onlyGivenNames v1
  have hv1 : Evolves r s₀ v1 := by
    with_reducible refine Evolves.foldl (fun a2 x3 ha2 => ?_) ?_
    · with_reducible refine State.hddClear_evolves _ ?_
      exact ha2
    · exact h
  try clear_value v1
  extract_lets -underBinder -merge -useContext +onlyGivenNames v4
  have hv4 : Evolves r s₀ v4 := by
    with_reducible refine State.setFld_evolves _ _ _ _ _ ?_
    exact hv1
  try clear_value v4
  split
  · rename_i w5 w6 e7
    have hw6 : Evolves r s₀ w6 := Evolves.of_pair2 e7 (by
      with_reducible refine State.fresh_evolves ?_
      exact hv4)
    extract_lets -underBinder -merge -useContext +onlyGivenNames v8
    try clear_value v8
    extract_lets -underBinder -merge -useContext +onlyGivenNames v9
    have hv9 : Evolves r s₀ v9 := by
      with_reducible refine Evolves.foldl (fun a10 x11 ha10 => ?_) ?_
      · with_reducible refine State.raise_evolves _ _ _ _ _ _ ?_
        with_reducible refine State.setFld_evolves _ _ _ _ _ ?_
        exact ha10
      · exact hw6
    try clear_value v9
    extract_lets -underBinder -merge -useContext +onlyGivenNames v12
    try clear_value v12
    split
    · split
      · extract_lets -underBinder -merge -useContext +onlyGivenNames v17
        extract_lets -underBinder -merge -useContext +onlyGivenNames v18
        try clear_value v18
        extract_lets -underBinder -merge -useContext +onlyGivenNames v19
        try clear_value v19
        extract_lets -underBinder -merge -useContext +onlyGivenNames v20
        try clear_value v20
        extract_lets -underBinder -merge -useContext +onlyGivenNames v21
        try clear_value v21
        extract_lets -underBinder -merge -useContext +onlyGivenNames v22
        try clear_value v22
        extract_lets -underBinder -merge -useContext +onlyGivenNames v23
        try clear_value v23
        extract_lets -underBinder -merge -useContext +onlyGivenNames v24
        have hv24 : Evolves r s₀ v24 := by
          with_reducible refine State.setReg_evolves _ _ _ ?_
          with_reducible refine State.setReg_evolves _ _ _ ?_
          with_reducible refine State.setReg_evolves _ _ _ ?_
          exact hv9
        try clear_value v24
        extract_lets -underBinder -merge -useContext +onlyGivenNames v25
        have hv25 : Evolves r s₀ v25 := by
          with_reducible refine State.bump_evolves _ _ _ ?_
          exact hv24
        try clear_value v25
        extract_lets -underBinder -merge -useContext +onlyGivenNames v26
        have hv26 : Evolves r s₀ v26 := by
          with_reducible refine Evolves.ite ?_ ?_
          · with_reducible refine State.notice_evolves _ _ _ ?_
            exact hv25
          · exact hv25
        try clear_value v26
        split
        · rename_i w27 w28 e29
          have hw27 : Evolves r s₀ w27 := Evolves.of_pair e29 (by
            with_reducible refine State.hddEmit_evolves _ _ ?_
            exact hv26)
          with_reducible refine Evolves.upd_mk rfl rfl rfl rfl rfl rfl rfl rfl rfl rfl rfl rfl rfl rfl rfl rfl rfl rfl rfl rfl rfl rfl rfl rfl rfl rfl rfl rfl ?_
          exact hw27

theorem hddGo_evolves {s₀ s} (h : Evolves r s₀ s) : Evolves r s₀ (hddGo s) := by
  unfold hddGo
  extract_lets -underBinder -merge -useContext +onlyGivenNames v0
  try clear_value v0
  with_reducible refine Evolves.ite ?_ ?_
  · exact h
  · with_reducible refine hddStart_evolves _ ?_
    exact h

theorem hddAbort_evolves {s₀ s} (h : Evolves r s₀ s) : Evolves r s₀ (hddAbort s) := by
  unfold hddAbort
  split
  · with_reducible refine Evolves.upd_mk rfl rfl rfl rfl rfl rfl rfl rfl rfl rfl rfl rfl rfl rfl rfl rfl rfl rfl rfl rfl rfl rfl rfl rfl rfl rfl rfl rfl ?_
    exact h
  · exact h

theorem hddCtlWrite_evolves {s₀ s} (a) (h : Evolves r s₀ s) : Evolves r s₀ (hddCtlWrite a s) := by
  unfold hddCtlWrite
  extract_lets -underBinder -merge -useContext +onlyGivenNames v0
  have hv0 : Evolves r s₀ v0 := by
    with_reducible refine State.setReg_evolves _ _ _ ?_
    exact h
  try clear_value v0
  extract_lets -underBinder -merge -useContext +onlyGivenNames v1
  have hv1 : Evolves r s₀ v1 := by
    with_reducible refine Evolves.ite ?_ ?_
    · with_reducible refine hddAbort_evolves ?_
      exact hv0
    · exact hv0
  try clear_value v1
  with_reducible refine Evolves.ite ?_ ?_
  · with_reducible refine hddGo_evolves ?_
    exact hv1
  · exact hv1

theorem execDispatch_evolves {s₀ s t} (a) (he : execDispatch a s = .next t) (h : Evolves r s₀ s) : Evolves r s₀ t := by
  unfold execDispatch at he
  cases he
  with_reducible refine State.onWrite_evolves _ _ _ _ (fun y0 hy0 => ?_) ?_
  · with_reducible refine hddGo_evolves ?_
    exact hy0
  · exact h

theorem execDispatchAbort_evolves {s₀ s t} (a) (he : execDispatchAbort a s = .next t) (h : Evolves r s₀ s) : Evolves r s₀ t := by
  unfold execDispatchAbort at he
  cases he
  with_reducible refine State.onWrite_evolves _ _ _ _ (fun y0 hy0 => ?_) ?_
  · with_reducible refine hddAbort_evolves ?_
    exact hy0
  · exact h

theorem execDispatchDone_evolves {s₀ s t} (he : execDispatchDone s = .next t) (h : Evolves r s₀ s) : Evolves r s₀ t := by
  unfold execDispatchDone at he
  cases he
  split
  · exact h
  · with_reducible refine Evolves.ite ?_ ?_
    · exact h
    · split
      · rename_i w2 w3 e4
        have hw2 : Evolves r s₀ w2 := Evolves.of_pair e4 (by
          with_reducible refine State.hddEmit_evolves _ _ ?_
          exact h)
        with_reducible refine Evolves.ite ?_ ?_
        · with_reducible refine State.notice_evolves _ _ _ ?_
          with_reducible refine State.setFld_evolves _ _ _ _ _ ?_
          with_reducible refine Evolves.upd_mk rfl rfl rfl rfl rfl rfl rfl rfl rfl rfl rfl rfl rfl rfl rfl rfl rfl rfl rfl rfl rfl rfl rfl rfl rfl rfl rfl rfl ?_
          exact hw2
        · with_reducible refine Evolves.upd_mk rfl rfl rfl rfl rfl rfl rfl rfl rfl rfl rfl rfl rfl rfl rfl rfl rfl rfl rfl rfl rfl rfl rfl rfl rfl rfl rfl rfl ?_
          exact hw2

theorem plainRead_evolves {s₀ s} (a b c) (h : Evolves r s₀ s) : Evolves r s₀ (plainRead a b c s) := by
  unfold plainRead
  split
  · with_reducible refine State.reply_evolves _ ?_
    exact h
  · split
    · extract_lets -underBinder -merge -useContext +onlyGivenNames v5
      try clear_value v5
      extract_lets -underBinder -merge -useContext +onlyGivenNames v6
      try clear_value v6
      with_reducible refine State.reply_evolves _ ?_
      with_reducible refine Evolves.ite ?_ ?_
      · exact h
      · with_reducible refine State.setReg_evolves _ _ _ ?_
        exact h

theorem regRead_evolves {s₀ s} (a b c) (h : Evolves r s₀ s) : Evolves r s₀ (regRead a b c s) := by
  unfold regRead
  with_reducible refine Evolves.ite ?_ ?_
  · with_reducible refine State.reply_evolves _ ?_
    exact h
  · with_reducible refine Evolves.ite ?_ ?_
    · with_reducible refine plainRead_evolves _ _ _ ?_
      exact h
    · split
      · extract_lets -underBinder -merge -useContext +onlyGivenNames v1
        try clear_value v1
        with_reducible refine Evolves.ite ?_ ?_
        · with_reducible refine poolFreeLatch_evolves _ ?_
          exact h
        · with_reducible refine plainRead_evolves _ _ _ ?_
          exact h
      · with_reducible refine Evolves.ite ?_ ?_
        · with_reducible refine ledgerLatch_evolves _ ?_
          exact h
        · with_reducible refine plainRead_evolves _ _ _ ?_
          exact h
      · with_reducible refine Evolves.ite ?_ ?_
        · with_reducible refine routeDataRead_evolves ?_
          exact h
        · with_reducible refine plainRead_evolves _ _ _ ?_
          exact h
      · with_reducible refine Evolves.ite ?_ ?_
        · with_reducible refine chkValueLoRead_evolves _ ?_
          exact h
        · with_reducible refine Evolves.ite ?_ ?_
          · with_reducible refine chkResultLoRead_evolves _ ?_
            exact h
          · with_reducible refine plainRead_evolves _ _ _ ?_
            exact h
      · with_reducible refine Evolves.ite ?_ ?_
        · with_reducible refine winHiRead_evolves _ ?_
          exact h
        · with_reducible refine plainRead_evolves _ _ _ ?_
          exact h
      · with_reducible refine Evolves.ite ?_ ?_
        · with_reducible refine mtLatch_evolves ?_
          exact h
        · with_reducible refine plainRead_evolves _ _ _ ?_
          exact h
      · with_reducible refine Evolves.ite ?_ ?_
        · with_reducible refine logData0_evolves ?_
          exact h
        · with_reducible refine plainRead_evolves _ _ _ ?_
          exact h
      · with_reducible refine Evolves.ite ?_ ?_
        · with_reducible refine peekRead_evolves _ ?_
          exact h
        · with_reducible refine plainRead_evolves _ _ _ ?_
          exact h
      · with_reducible refine plainRead_evolves _ _ _ ?_
        exact h

theorem State.wordRead_evolves {s₀ s} (a b c) (h : Evolves r s₀ s) : Evolves r s₀ (State.wordRead s a b c) := by
  unfold State.wordRead
  split
  · with_reducible refine Evolves.ite ?_ ?_
    · with_reducible refine State.reply_evolves _ ?_
      exact h
    · with_reducible refine State.reply_evolves _ ?_
      exact h
  · with_reducible refine State.onRead_evolves _ _ _ _ (fun y2 hy2 => ?_) ?_
    · with_reducible refine regRead_evolves _ _ _ ?_
      exact hy2
    · exact h

theorem plainWrite_evolves {s₀ s} (a b c) (h : Evolves r s₀ s) : Evolves r s₀ (plainWrite a b c s) := by
  unfold plainWrite
  split
  · exact h
  · split
    · exact h
    · extract_lets -underBinder -merge -useContext +onlyGivenNames v5
      try clear_value v5
      with_reducible refine State.setReg_evolves _ _ _ ?_
      exact h

theorem stpWrite_evolves {s₀ s} (a b) (h : Evolves r s₀ s) : Evolves r s₀ (stpWrite a b s) := by
  unfold stpWrite
  with_reducible refine Evolves.ite ?_ ?_
  · with_reducible refine State.drainCtl_evolves ?_
    with_reducible refine stpCtlWrite_evolves _ ?_
    exact h
  · with_reducible refine Evolves.ite ?_ ?_
    · exact h
    · with_reducible refine Evolves.ite ?_ ?_
      · extract_lets -underBinder -merge -useContext +onlyGivenNames v0
        try clear_value v0
        extract_lets -underBinder -merge -useContext +onlyGivenNames v1
        have hv1 : Evolves r s₀ v1 := by
          with_reducible refine plainWrite_evolves _ _ _ ?_
          exact h
        try clear_value v1
        with_reducible refine Evolves.ite ?_ ?_
        · with_reducible refine State.setFld_evolves _ _ _ _ _ ?_
          exact hv1
        · exact hv1
      · with_reducible refine plainWrite_evolves _ _ _ ?_
        exact h

theorem tilWrite_evolves {s₀ s} (a b c) (h : Evolves r s₀ s) : Evolves r s₀ (tilWrite a b c s) := by
  unfold tilWrite
  with_reducible refine Evolves.ite ?_ ?_
  · with_reducible refine tilSeqCtlWrite_evolves _ _ ?_
    exact h
  · with_reducible refine Evolves.ite ?_ ?_
    · with_reducible refine tilSeqTailWrite_evolves _ _ ?_
      exact h
    · with_reducible refine Evolves.ite ?_ ?_
      · with_reducible refine actLoadWrite_evolves _ _ ?_
        exact h
      · with_reducible refine Evolves.ite ?_ ?_
        · with_reducible refine Evolves.ite ?_ ?_
          · with_reducible refine State.invalStats_evolves _ ?_
            exact h
          · exact h
        · with_reducible refine Evolves.ite ?_ ?_
          · extract_lets -underBinder -merge -useContext +onlyGivenNames v0
            have hv0 : Evolves r s₀ v0 := by
              with_reducible refine plainWrite_evolves _ _ _ ?_
              exact h
            try clear_value v0
            extract_lets -underBinder -merge -useContext +onlyGivenNames v1
            try clear_value v1
            extract_lets -underBinder -merge -useContext +onlyGivenNames v2
            have hv2 : Evolves r s₀ v2 := by
              with_reducible refine Evolves.ite ?_ ?_
              · exact hv0
              · with_reducible refine State.openSkip_evolves _ ?_
                exact hv0
            try clear_value v2
            with_reducible refine Evolves.ite ?_ ?_
            · with_reducible refine tilExcise_evolves _ ?_
              exact hv2
            · exact hv2
          · with_reducible refine Evolves.ite ?_ ?_
            · with_reducible refine tilRndWrite_evolves _ _ ?_
              exact h
            · with_reducible refine plainWrite_evolves _ _ _ ?_
              exact h

theorem kvsWrite_evolves {s₀ s} (a b) (h : Evolves r s₀ s) : Evolves r s₀ (kvsWrite a b s) := by
  unfold kvsWrite
  extract_lets -underBinder -merge -useContext +onlyGivenNames v0
  try clear_value v0
  extract_lets -underBinder -merge -useContext +onlyGivenNames v1
  try clear_value v1
  with_reducible refine Evolves.ite ?_ ?_
  · with_reducible refine kvsTailWrite_evolves _ ?_
    exact h
  · with_reducible refine Evolves.ite ?_ ?_
    · with_reducible refine plainWrite_evolves _ _ _ ?_
      exact h
    · with_reducible refine Evolves.ite ?_ ?_
      · with_reducible refine poolCtlWrite_evolves _ _ ?_
        exact h
      · with_reducible refine Evolves.ite ?_ ?_
        · exact h
        · with_reducible refine plainWrite_evolves _ _ _ ?_
          exact h

theorem strWrite_evolves {s₀ s} (a b c) (h : Evolves r s₀ s) : Evolves r s₀ (strWrite a b c s) := by
  unfold strWrite
  with_reducible refine Evolves.ite ?_ ?_
  · with_reducible refine strCtlWrite_evolves _ _ ?_
    exact h
  · with_reducible refine Evolves.ite ?_ ?_
    · with_reducible refine strTailWrite_evolves _ _ ?_
      exact h
    · with_reducible refine Evolves.ite ?_ ?_
      · with_reducible refine strCursorWrite_evolves _ _ ?_
        exact h
      · with_reducible refine Evolves.ite ?_ ?_
        · with_reducible refine strReqTailWrite_evolves _ _ ?_
          exact h
        · with_reducible refine Evolves.ite ?_ ?_
          · exact h
          · with_reducible refine plainWrite_evolves _ _ _ ?_
            exact h

theorem tokWrite_evolves {s₀ s} (a b) (h : Evolves r s₀ s) : Evolves r s₀ (tokWrite a b s) := by
  unfold tokWrite
  extract_lets -underBinder -merge -useContext +onlyGivenNames v0
  try clear_value v0
  with_reducible refine Evolves.ite ?_ ?_
  · with_reducible refine plainWrite_evolves _ _ _ ?_
    exact h
  · with_reducible refine Evolves.ite ?_ ?_
    · with_reducible refine dictCtlWrite_evolves _ _ ?_
      exact h
    · with_reducible refine Evolves.ite ?_ ?_
      · exact h
      · with_reducible refine plainWrite_evolves _ _ _ ?_
        exact h

theorem exeWrite_evolves {s₀ s} (a b c) (h : Evolves r s₀ s) : Evolves r s₀ (exeWrite a b c s) := by
  unfold exeWrite
  with_reducible refine Evolves.ite ?_ ?_
  · with_reducible refine exeCtlWrite_evolves _ _ ?_
    exact h
  · with_reducible refine Evolves.ite ?_ ?_
    · with_reducible refine exeTailWrite_evolves _ _ ?_
      exact h
    · with_reducible refine Evolves.ite ?_ ?_
      · with_reducible refine exeOutHeadWrite_evolves _ _ ?_
        exact h
      · with_reducible refine plainWrite_evolves _ _ _ ?_
        exact h

theorem gatlWrite_evolves {s₀ s} (a b c) (h : Evolves r s₀ s) : Evolves r s₀ (gatlWrite a b c s) := by
  unfold gatlWrite
  extract_lets -underBinder -merge -useContext +onlyGivenNames v0
  try clear_value v0
  with_reducible refine Evolves.ite ?_ ?_
  · with_reducible refine lnkCtlWrite_evolves _ _ _ ?_
    exact h
  · with_reducible refine plainWrite_evolves _ _ _ ?_
    exact h

theorem gatsWrite_evolves {s₀ s} (a b) (h : Evolves r s₀ s) : Evolves r s₀ (gatsWrite a b s) := by
  unfold gatsWrite
  with_reducible refine Evolves.ite ?_ ?_
  · with_reducible refine routeDataWrite_evolves _ ?_
    exact h
  · with_reducible refine Evolves.ite ?_ ?_
    · with_reducible refine gatJobTailWrite_evolves _ ?_
      exact h
    · with_reducible refine Evolves.ite ?_ ?_
      · exact h
      · with_reducible refine plainWrite_evolves _ _ _ ?_
        exact h

theorem chkRegWrite_evolves {s₀ s} (a b c) (h : Evolves r s₀ s) : Evolves r s₀ (chkRegWrite a b c s) := by
  unfold chkRegWrite
  with_reducible refine Evolves.ite ?_ ?_
  · with_reducible refine chkCtlWrite_evolves _ _ ?_
    exact h
  · with_reducible refine Evolves.ite ?_ ?_
    · with_reducible refine chkSetWrite_evolves _ _ _ ?_
      exact h
    · with_reducible refine Evolves.ite ?_ ?_
      · with_reducible refine chkValueLoWrite_evolves _ _ ?_
        exact h
      · with_reducible refine Evolves.ite ?_ ?_
        · with_reducible refine chkValueHiWrite_evolves _ _ ?_
          exact h
        · with_reducible refine Evolves.ite ?_ ?_
          · with_reducible refine chkFeedWrite_evolves _ _ _ ?_
            exact h
          · with_reducible refine Evolves.ite ?_ ?_
            · with_reducible refine chkFeedWrite_evolves _ _ _ ?_
              exact h
            · with_reducible refine Evolves.ite ?_ ?_
              · with_reducible refine chkFeedWrite_evolves _ _ _ ?_
                exact h
              · with_reducible refine plainWrite_evolves _ _ _ ?_
                exact h

theorem secWrite_evolves {s₀ s} (a b c) (h : Evolves r s₀ s) : Evolves r s₀ (secWrite a b c s) := by
  unfold secWrite
  with_reducible refine Evolves.ite ?_ ?_
  · with_reducible refine secClearWrite_evolves _ _ ?_
    exact h
  · with_reducible refine Evolves.ite ?_ ?_
    · with_reducible refine imgCtlWrite_evolves _ _ ?_
      exact h
    · with_reducible refine Evolves.ite ?_ ?_
      · with_reducible refine svnCommitWrite_evolves _ _ ?_
        exact h
      · with_reducible refine Evolves.ite ?_ ?_
        · split
          · with_reducible refine keyStageWrite_evolves _ _ _ ?_
            exact h
          · exact h
        · with_reducible refine plainWrite_evolves _ _ _ ?_
          exact h

theorem bstWrite_evolves {s₀ s} (a b c) (h : Evolves r s₀ s) : Evolves r s₀ (bstWrite a b c s) := by
  unfold bstWrite
  with_reducible refine Evolves.ite ?_ ?_
  · with_reducible refine bstCtlWrite_evolves _ _ ?_
    exact h
  · with_reducible refine Evolves.ite ?_ ?_
    · exact h
    · with_reducible refine Evolves.ite ?_ ?_
      · with_reducible refine fenceWrite_evolves _ _ ?_
        exact h
      · with_reducible refine Evolves.ite ?_ ?_
        · with_reducible refine bstSetWrite_evolves _ _ ?_
          exact h
        · with_reducible refine plainWrite_evolves _ _ _ ?_
          exact h

theorem hdrWrite_evolves {s₀ s} (a b c d) (h : Evolves r s₀ s) : Evolves r s₀ (hdrWrite a b c d s) := by
  unfold hdrWrite
  extract_lets -underBinder -merge -useContext +onlyGivenNames v0
  try clear_value v0
  with_reducible refine Evolves.ite ?_ ?_
  · with_reducible refine pageCtlWrite_evolves _ _ ?_
    exact h
  · with_reducible refine Evolves.ite ?_ ?_
    · with_reducible refine State.setReg_evolves _ _ _ ?_
      exact h
    · with_reducible refine Evolves.ite ?_ ?_
      · with_reducible refine evtEnWrite_evolves _ _ ?_
        exact h
      · with_reducible refine Evolves.ite ?_ ?_
        · with_reducible refine evtForceWrite_evolves _ _ ?_
          exact h
        · with_reducible refine Evolves.ite ?_ ?_
          · with_reducible refine State.setReg_evolves _ _ _ ?_
            exact h
          · with_reducible refine Evolves.ite ?_ ?_
            · with_reducible refine errFirstWrite_evolves _ _ ?_
              exact h
            · with_reducible refine Evolves.ite ?_ ?_
              · with_reducible refine pageLockWrite_evolves _ _ _ ?_
                exact h
              · exact h

theorem regWrite_evolves {s₀ s} (a b c d) (h : Evolves r s₀ s) : Evolves r s₀ (regWrite a b c d s) := by
  unfold regWrite
  split
  · exact h
  · with_reducible refine Evolves.ite ?_ ?_
    · with_reducible refine hdrWrite_evolves _ _ _ _ ?_
      exact h
    · split
      · with_reducible refine tilWrite_evolves _ _ _ ?_
        exact h
      · extract_lets -underBinder -merge -useContext +onlyGivenNames v5
        try clear_value v5
        with_reducible refine Evolves.ite ?_ ?_
        · with_reducible refine spareMapWrite_evolves _ _ _ ?_
          exact h
        · exact h
      · with_reducible refine Evolves.ite ?_ ?_
        · with_reducible refine nmcCtlWrite_evolves _ _ ?_
          exact h
        · with_reducible refine plainWrite_evolves _ _ _ ?_
          exact h
      · with_reducible refine Evolves.ite ?_ ?_
        · with_reducible refine nmcCtlWrite_evolves _ _ ?_
          exact h
        · with_reducible refine plainWrite_evolves _ _ _ ?_
          exact h
      · with_reducible refine Evolves.ite ?_ ?_
        · with_reducible refine crsQuotaWrite_evolves _ _ ?_
          exact h
        · with_reducible refine plainWrite_evolves _ _ _ ?_
          exact h
      · with_reducible refine strWrite_evolves _ _ _ ?_
        exact h
      · with_reducible refine kvsWrite_evolves _ _ ?_
        exact h
      · with_reducible refine Evolves.ite ?_ ?_
        · with_reducible refine hddCtlWrite_evolves _ ?_
          exact h
        · with_reducible refine plainWrite_evolves _ _ _ ?_
          exact h
      · with_reducible refine stpWrite_evolves _ _ ?_
        exact h
      · with_reducible refine Evolves.ite ?_ ?_
        · with_reducible refine ckpCtlWrite_evolves _ ?_
          exact h
        · with_reducible refine plainWrite_evolves _ _ _ ?_
          exact h
      · with_reducible refine tokWrite_evolves _ _ ?_
        exact h
      · with_reducible refine exeWrite_evolves _ _ _ ?_
        exact h
      · with_reducible refine gatlWrite_evolves _ _ _ ?_
        exact h
      · with_reducible refine gatsWrite_evolves _ _ ?_
        exact h
      · with_reducible refine chkRegWrite_evolves _ _ _ ?_
        exact h
      · with_reducible refine Evolves.ite ?_ ?_
        · with_reducible refine winLoWrite_evolves _ _ ?_
          exact h
        · with_reducible refine Evolves.ite ?_ ?_
          · with_reducible refine winHiWrite_evolves _ _ ?_
            exact h
          · with_reducible refine plainWrite_evolves _ _ _ ?_
            exact h
      · with_reducible refine Evolves.ite ?_ ?_
        · with_reducible refine pwrCtlWrite_evolves _ ?_
          exact h
        · with_reducible refine Evolves.ite ?_ ?_
          · with_reducible refine State.stopPlls_evolves ?_
            with_reducible refine domReqWrite_evolves _ _ ?_
            exact h
          · with_reducible refine plainWrite_evolves _ _ _ ?_
            exact h
      · with_reducible refine Evolves.ite ?_ ?_
        · with_reducible refine State.stopPlls_evolves ?_
          with_reducible refine plainWrite_evolves _ _ _ ?_
          exact h
        · with_reducible refine plainWrite_evolves _ _ _ ?_
          exact h
      · with_reducible refine Evolves.ite ?_ ?_
        · with_reducible refine errFatalWrite_evolves _ ?_
          exact h
        · with_reducible refine Evolves.ite ?_ ?_
          · with_reducible refine errLogPopWrite_evolves _ ?_
            exact h
          · with_reducible refine plainWrite_evolves _ _ _ ?_
            exact h
      · with_reducible refine secWrite_evolves _ _ _ ?_
        exact h
      · with_reducible refine bstWrite_evolves _ _ _ ?_
        exact h
      · with_reducible refine Evolves.ite ?_ ?_
        · with_reducible refine dbgCtlWrite_evolves _ _ ?_
          exact h
        · with_reducible refine Evolves.ite ?_ ?_
          · with_reducible refine traceCtlWrite_evolves _ ?_
            exact h
          · with_reducible refine plainWrite_evolves _ _ _ ?_
            exact h
      · with_reducible refine cqWrite_evolves _ _ _ ?_
        exact h
      · with_reducible refine Evolves.ite ?_ ?_
        · with_reducible refine vectorCtlWrite_evolves _ _ _ ?_
          exact h
        · with_reducible refine plainWrite_evolves _ _ _ ?_
          exact h
      · exact h
      · with_reducible refine plainWrite_evolves _ _ _ ?_
        exact h
      · with_reducible refine plainWrite_evolves _ _ _ ?_
        exact h
      · with_reducible refine plainWrite_evolves _ _ _ ?_
        exact h
      · with_reducible refine plainWrite_evolves _ _ _ ?_
        exact h
      · with_reducible refine plainWrite_evolves _ _ _ ?_
        exact h
      · with_reducible refine plainWrite_evolves _ _ _ ?_
        exact h
      · with_reducible refine plainWrite_evolves _ _ _ ?_
        exact h
      · with_reducible refine plainWrite_evolves _ _ _ ?_
        exact h
      · with_reducible refine plainWrite_evolves _ _ _ ?_
        exact h

theorem prtGoverned_evolves {s₀ s t} (a b c) (he : prtGoverned a b c = some t) (h : Evolves r s₀ s) : Evolves r s₀ (t s) := by
  unfold prtGoverned at he
  split at he
  · repeat' split at he
    all_goals first | (cases he; done) | (rw [Option.some.injEq] at he; subst he)
    · with_reducible exact pageOwnerWrite_evolves _ _ h
    · with_reducible exact prtMapWrite_evolves _ _ h
    · with_reducible exact prtOwnerWrite_evolves _ _ h
    · with_reducible exact prtFarWrite_evolves _ _ _ h
    · with_reducible exact prtFarWrite_evolves _ _ _ h
  · cases he

theorem State.onlyDeny_evolves {s₀ s} (a b c) (h : Evolves r s₀ s) : Evolves r s₀ (State.onlyDeny s a b c) := by
  unfold State.onlyDeny
  split
  · with_reducible refine State.deny_evolves _ _ _ ?_
    exact h
  · exact h

theorem State.wordWrite_evolves {s₀ s} (a b c d) (h : Evolves r s₀ s) : Evolves r s₀ (State.wordWrite s a b c d) := by
  unfold State.wordWrite
  split
  · with_reducible refine State.onPrt_evolves _ _ _ _ (fun y1 hy1 => ?_) ?_
    · exact prtGoverned_evolves _ _ _ (by assumption) (by assumption)
    · exact h
  · with_reducible refine Evolves.ite ?_ ?_
    · with_reducible refine State.onKey_evolves _ _ _ (fun y3 y4 hy4 => ?_) ?_
      · with_reducible refine keyCmdWrite_evolves _ _ ?_
        exact hy4
      · exact h
    · with_reducible refine Evolves.ite ?_ ?_
      · with_reducible refine State.onKey_evolves _ _ _ (fun y5 y6 hy6 => ?_) ?_
        · with_reducible refine linkCmdWrite_evolves _ _ ?_
          exact hy6
        · exact h
      · with_reducible refine Evolves.ite ?_ ?_
        · with_reducible refine State.onlyDeny_evolves _ _ _ ?_
          exact h
        · split
          · with_reducible refine Evolves.ite ?_ ?_
            · with_reducible refine State.onPeekWrite_evolves _ _ _ ?_
              exact h
            · with_reducible refine State.onWrite_evolves _ _ _ _ (fun y8 hy8 => ?_) ?_
              · with_reducible refine regWrite_evolves _ _ _ _ ?_
                exact hy8
              · exact h
          · with_reducible refine State.onWrite_evolves _ _ _ _ (fun y10 hy10 => ?_) ?_
            · with_reducible refine regWrite_evolves _ _ _ _ ?_
              exact hy10
            · exact h

theorem State.partWrite_evolves {s₀ s} (a b c) (h : Evolves r s₀ s) : Evolves r s₀ (State.partWrite s a b c) := by
  unfold State.partWrite
  split
  · split
    · with_reducible refine State.deny_evolves _ _ _ ?_
      exact h
    · with_reducible refine Evolves.ite ?_ ?_
      · exact h
      · with_reducible refine State.deny_evolves _ _ _ ?_
        exact h
    · with_reducible refine State.deny_evolves _ _ _ ?_
      exact h
    · exact h
  · exact h

theorem execRegisterWrite_evolves {s₀ s t} (a b c d e) (he : execRegisterWrite a b c d e s = .next t) (h : Evolves r s₀ s) : Evolves r s₀ t := by
  unfold execRegisterWrite at he
  cases he
  with_reducible refine Evolves.foldl (fun a0 x1 ha0 => ?_) ?_
  · with_reducible refine Evolves.ite ?_ ?_
    · with_reducible refine State.wordWrite_evolves _ _ _ _ ?_
      exact ha0
    · with_reducible refine State.partWrite_evolves _ _ _ ?_
      exact ha0
  · exact h

theorem execRcRead_evolves {s₀ s t} (a b c d) (he : execRcRead a b c d s = .next t) (h : Evolves r s₀ s) : Evolves r s₀ t := by
  unfold execRcRead at he
  dsimp only at he
  rw [Host.Outcome.next.injEq] at he
  subst he
  refine State.reply_evolves _ (Evolves.foldl_fst (fun p x hp => ?_) h)
  exact State.wordRead_evolves _ _ _ (State.reply_evolves _ hp)

theorem State.regDevWrite_evolves {s₀ s} (a b c d) (h : Evolves r s₀ s) : Evolves r s₀ (State.regDevWrite s a b c d) := by
  unfold State.regDevWrite
  with_reducible refine Evolves.foldl (fun a0 x1 ha0 => ?_) ?_
  · extract_lets -underBinder -merge -useContext +onlyGivenNames v2
    try clear_value v2
    with_reducible refine State.wordWrite_evolves _ _ _ _ ?_
    exact ha0
  · exact h

theorem State.regDevRead_evolves {s₀ s} (a b c d) (h : Evolves r s₀ s) : Evolves r s₀ (State.regDevRead s a b c d).1 := by
  unfold State.regDevRead
  dsimp only
  refine Evolves.foldl_fst (fun p x hp => ?_) h
  exact State.reply_evolves _ (State.wordRead_evolves _ _ _ (State.reply_evolves _ hp))

end Sys2Proof.Machine
end

