-- ==== Sys2Proof/Laws/EvolvesMov.lean ====
section
/-! SUPPORT. Laws/EvolvesMov.lean: every operation of moves, aperture accesses, convolutions and queue commands evolves the state (Laws/Evolves.lean); one lemma for each. -/
namespace Sys2Proof.Machine

set_option Elab.async false
set_option linter.all false

variable {r : Bool}

theorem State.xMemPut_evolves {s₀ s} (a b c d e) (h : Evolves r s₀ s) : Evolves r s₀ (State.xMemPut s a b c d e) := by
  unfold State.xMemPut
  split
  · with_reducible refine State.xFault_evolves _ _ _ ?_
    with_reducible refine State.badLine_evolves _ _ _ ?_
    exact h
  · extract_lets -underBinder -merge -useContext +onlyGivenNames v2
    try clear_value v2
    extract_lets -underBinder -merge -useContext +onlyGivenNames v3
    have hv3 : Evolves r s₀ v3 := by
      with_reducible refine State.noteUndo_evolves _ _ ?_
      exact h
    try clear_value v3
    extract_lets -underBinder -merge -useContext +onlyGivenNames v4
    have hv4 : Evolves r s₀ v4 := by
      with_reducible refine State.devWrite_evolves _ _ ?_
      exact hv3
    try clear_value v4
    extract_lets -underBinder -merge -useContext +onlyGivenNames v5
    have hv5 : Evolves r s₀ v5 := by
      with_reducible refine Evolves.foldl (fun a6 x7 ha6 => ?_) ?_
      · with_reducible refine State.poisonLine_evolves _ ?_
        exact ha6
      · exact hv4
    try clear_value v5
    with_reducible refine State.xFar_evolves _ _ _ ?_
    exact hv5

theorem State.xHostPut_evolves {s₀ s} (a b c d e f g) (h : Evolves r s₀ s) : Evolves r s₀ (State.xHostPut s a b c d e f g) := by
  unfold State.xHostPut
  split
  · with_reducible refine State.xFault_evolves _ _ _ ?_
    exact h
  · extract_lets -underBinder -merge -useContext +onlyGivenNames v2
    try clear_value v2
    extract_lets -underBinder -merge -useContext +onlyGivenNames v3
    try clear_value v3
    extract_lets -underBinder -merge -useContext +onlyGivenNames v4
    have hv4 : Evolves r s₀ v4 := by
      with_reducible refine Evolves.upd_out ?_ rfl rfl rfl rfl rfl rfl rfl rfl rfl rfl rfl rfl rfl rfl rfl rfl rfl rfl rfl rfl rfl rfl rfl rfl rfl rfl rfl ?_
      · exact ⟨_, List.append_assoc _ _ _⟩
      exact h
    with_reducible refine State.modXfer_evolves _ _ ?_
    with_reducible refine State.xReq_evolves _ _ _ _ ?_
    exact hv4

theorem State.xRemotePut_evolves {s₀ s} (a b c d e f) (h : Evolves r s₀ s) : Evolves r s₀ (State.xRemotePut s a b c d e f) := by
  unfold State.xRemotePut
  with_reducible refine Evolves.foldl (fun a0 x1 ha0 => ?_) ?_
  · extract_lets -underBinder -merge -useContext +onlyGivenNames v2
    try clear_value v2
    with_reducible refine State.routeOut_evolves _ ?_
    with_reducible refine State.addReq_evolves _ ?_
    exact ha0
  · exact h

theorem State.xPut_evolves {s₀ s} (a b c d e) (h : Evolves r s₀ s) : Evolves r s₀ (State.xPut s a b c d e) := by
  unfold State.xPut
  split
  · exact h
  · with_reducible refine Evolves.ite ?_ ?_
    · exact h
    · split
      · with_reducible refine State.xFault_evolves _ _ _ ?_
        exact h
      · with_reducible refine Evolves.ite ?_ ?_
        · with_reducible refine State.modXfer_evolves _ _ ?_
          exact h
        · split
          · with_reducible refine State.xMemPut_evolves _ _ _ _ _ ?_
            exact h
          · with_reducible refine State.xMemPut_evolves _ _ _ _ _ ?_
            exact h
          · with_reducible refine State.xMemPut_evolves _ _ _ _ _ ?_
            exact h
          · with_reducible refine State.xMemPut_evolves _ _ _ _ _ ?_
            exact h
          · with_reducible refine State.regDevWrite_evolves _ _ _ _ ?_
            exact h
          · with_reducible refine State.xHostPut_evolves _ _ _ _ _ _ _ ?_
            exact h
          · with_reducible refine State.xRemotePut_evolves _ _ _ _ _ _ ?_
            exact h
          · with_reducible refine State.xFault_evolves _ _ _ ?_
            exact h

theorem State.xDeliver_evolves {s₀ s} (a b c d e f) (h : Evolves r s₀ s) : Evolves r s₀ (State.xDeliver s a b c d e f) := by
  unfold State.xDeliver
  extract_lets -underBinder -merge -useContext +onlyGivenNames v0
  have hv0 : Evolves r s₀ v0 := by
    with_reducible refine State.xPut_evolves _ _ _ _ _ ?_
    exact h
  try clear_value v0
  extract_lets -underBinder -merge -useContext +onlyGivenNames v1
  have hv1 : Evolves r s₀ v1 := by
    with_reducible refine Evolves.ite ?_ ?_
    · exact hv0
    · with_reducible refine Evolves.ite ?_ ?_
      · with_reducible refine State.feedBytes_evolves _ _ ?_
        exact hv0
      · with_reducible refine State.feedCame_evolves _ _ _ ?_
        exact hv0
  try clear_value v1
  split
  · with_reducible refine Evolves.ite ?_ ?_
    · with_reducible refine State.xFault_evolves _ _ _ ?_
      exact hv1
    · exact hv1
  · exact hv1

theorem State.xHostRead_evolves {s₀ s} (a b c d) (h : Evolves r s₀ s) : Evolves r s₀ (State.xHostRead s a b c d) := by
  unfold State.xHostRead
  split
  · with_reducible refine Evolves.ite ?_ ?_
    · exact h
    · split
      · with_reducible refine State.xFault_evolves _ _ _ ?_
        exact h
      · extract_lets -underBinder -merge -useContext +onlyGivenNames v5
        try clear_value v5
        extract_lets -underBinder -merge -useContext +onlyGivenNames v6
        have hv6 : Evolves r s₀ v6 := by
          with_reducible refine State.addReq_evolves _ ?_
          exact h
        extract_lets -underBinder -merge -useContext +onlyGivenNames v7
        have hv7 : Evolves r s₀ v7 := by
          with_reducible refine State.xReq_evolves _ _ _ _ ?_
          with_reducible refine Evolves.upd_out ?_ rfl rfl rfl rfl rfl rfl rfl rfl rfl rfl rfl rfl rfl rfl rfl rfl rfl rfl rfl rfl rfl rfl rfl rfl rfl rfl rfl ?_
          · exact ⟨_, rfl⟩
          exact hv6
        with_reducible refine Evolves.ite ?_ ?_
        · exact hv7
        · with_reducible refine State.feedLater_evolves _ _ ?_
          exact hv7
  · exact h

theorem State.xRemoteRead_evolves {s₀ s} (a b c d e) (h : Evolves r s₀ s) : Evolves r s₀ (State.xRemoteRead s a b c d e) := by
  unfold State.xRemoteRead
  split
  · exact h
  · with_reducible refine Evolves.foldl (fun a2 x3 ha2 => ?_) ?_
    · with_reducible refine State.feedLater_evolves _ _ ?_
      with_reducible refine State.routeOut_evolves _ ?_
      with_reducible refine State.addReq_evolves _ ?_
      exact ha2
    · exact h

theorem State.xMove_evolves {s₀ s} (a b c d) (h : Evolves r s₀ s) : Evolves r s₀ (State.xMove s a b c d) := by
  unfold State.xMove
  split
  · exact h
  · with_reducible refine Evolves.ite ?_ ?_
    · exact h
    · split
      · with_reducible refine State.xFault_evolves _ _ _ ?_
        exact h
      · split
        · split
          · rename_i w5 w6 w7 e8
            have hw5 : Evolves r s₀ w5 := Evolves.of_pair e8 (by
              with_reducible refine State.devRead_evolves _ _ _ _ ?_
              exact h)
            extract_lets -underBinder -merge -useContext +onlyGivenNames v9
            have hv9 : Evolves r s₀ v9 := by
              with_reducible refine State.xFar_evolves _ _ _ ?_
              exact hw5
            try clear_value v9
            split
            · with_reducible refine State.xDeliver_evolves _ _ _ _ _ _ ?_
              exact hv9
            · with_reducible refine State.xDeliver_evolves _ _ _ _ _ _ ?_
              exact hv9
        · split
          · rename_i w13 w14 w15 e16
            have hw13 : Evolves r s₀ w13 := Evolves.of_pair e16 (by
              with_reducible refine State.devRead_evolves _ _ _ _ ?_
              exact h)
            extract_lets -underBinder -merge -useContext +onlyGivenNames v17
            have hv17 : Evolves r s₀ v17 := by
              with_reducible refine State.xFar_evolves _ _ _ ?_
              exact hw13
            try clear_value v17
            split
            · with_reducible refine State.xDeliver_evolves _ _ _ _ _ _ ?_
              exact hv17
            · with_reducible refine State.xDeliver_evolves _ _ _ _ _ _ ?_
              exact hv17
        · split
          · rename_i w22 w23 w24 e25
            have hw22 : Evolves r s₀ w22 := Evolves.of_pair e25 (by
              with_reducible refine State.devRead_evolves _ _ _ _ ?_
              exact h)
            extract_lets -underBinder -merge -useContext +onlyGivenNames v26
            have hv26 : Evolves r s₀ v26 := by
              with_reducible refine State.xFar_evolves _ _ _ ?_
              exact hw22
            try clear_value v26
            split
            · with_reducible refine State.xDeliver_evolves _ _ _ _ _ _ ?_
              exact hv26
            · with_reducible refine State.xDeliver_evolves _ _ _ _ _ _ ?_
              exact hv26
        · split
          · rename_i w31 w32 w33 e34
            have hw31 : Evolves r s₀ w31 := Evolves.of_pair e34 (by
              with_reducible refine State.devRead_evolves _ _ _ _ ?_
              exact h)
            extract_lets -underBinder -merge -useContext +onlyGivenNames v35
            have hv35 : Evolves r s₀ v35 := by
              with_reducible refine State.xFar_evolves _ _ _ ?_
              exact hw31
            try clear_value v35
            split
            · with_reducible refine State.xDeliver_evolves _ _ _ _ _ _ ?_
              exact hv35
            · with_reducible refine State.xDeliver_evolves _ _ _ _ _ _ ?_
              exact hv35
        · split
          · rename_i w40 w41 e42
            have hw40 : Evolves r s₀ w40 := Evolves.of_pair e42 (by
              with_reducible refine State.regDevRead_evolves _ _ _ _ ?_
              exact h)
            with_reducible refine State.xDeliver_evolves _ _ _ _ _ _ ?_
            exact hw40
        · with_reducible refine Evolves.foldl (fun a45 x46 ha45 => ?_) ?_
          · with_reducible refine State.xHostRead_evolves _ _ _ _ ?_
            exact ha45
          · exact h
        · with_reducible refine State.xRemoteRead_evolves _ _ _ _ _ ?_
          exact h
        · with_reducible refine State.xFault_evolves _ _ _ ?_
          exact h

theorem State.stashStuck_evolves {s₀ s} (a b) (h : Evolves r s₀ s) : Evolves r s₀ (State.stashStuck s a b) := by
  unfold State.stashStuck
  split
  · with_reducible refine State.cause_evolves _ ?_
    with_reducible refine State.modXfer_evolves _ _ ?_
    with_reducible refine State.ctlPoison_evolves _ _ ?_
    exact h
  · exact h


/-- The state of a stash allocation. -/
theorem State.stashAlloc_evolves {s₀ s t} (a b) (he : State.stashAlloc s a b = .ok t ∨ State.stashAlloc s a b = .full t)
    (h : Evolves r s₀ s) : Evolves r s₀ t := by
  unfold State.stashAlloc at he
  dsimp only at he
  split at he
  · rcases he with he | he
    · cases he; with_reducible exact State.allocOn_evolves _ _ _ (State.setFld_evolves _ _ _ _ _ (State.stashFull_evolves _ _ h))
    · cases he
  · rcases he with he | he
    · cases he; with_reducible exact State.allocOn_evolves _ _ _ h
    · cases he
  · rcases he with he | he
    · cases he
    · cases he
      with_reducible exact State.cause_evolves _ (Evolves.ite (State.orReg_evolves _ _ _ (State.stashFull_evolves _ _ h))
        (State.stashFull_evolves _ _ h))

/-- The state of one side of a row through the stash aperture. -/
theorem State.stashAt_evolves {s₀ s t} (a b c d) (he : (∃ n, State.stashAt s a b c d = .at_ t n) ∨ State.stashAt s a b c d = .stall t)
    (h : Evolves r s₀ s) : Evolves r s₀ t := by
  unfold State.stashAt at he
  dsimp only at he
  split at he
  · simp at he
  split at he
  · simp at he
  split at he
  · simp at he
  split at he
  · simp at he
  split at he
  · simp at he
  split at he
  · rcases he with ⟨n, he⟩ | he
    · simp only [StashAns.at_.injEq] at he; exact he.1 ▸ h
    · simp at he
  split at he
  · simp at he
  split at he
  · next hs =>
    rcases he with ⟨n, he⟩ | he
    · simp only [StashAns.at_.injEq] at he; exact he.1 ▸ State.stashAlloc_evolves _ _ (Or.inl hs) h
    · simp at he
  · next hs =>
    rcases he with ⟨n, he⟩ | he
    · simp at he
    · simp only [StashAns.stall.injEq] at he; exact he ▸ State.stashAlloc_evolves _ _ (Or.inr hs) h

theorem State.stashSide_evolves {s₀ s t} (a b c d)
    (he : (∃ n, State.stashSide s a b c d = .at_ t n) ∨ State.stashSide s a b c d = .stall t) (h : Evolves r s₀ s) :
    Evolves r s₀ t := by
  unfold State.stashSide at he
  split at he
  · exact State.stashAt_evolves _ _ _ _ he h
  · rcases he with ⟨n, he⟩ | he
    · simp only [StashAns.at_.injEq] at he; exact he.1 ▸ h
    · simp at he

theorem State.xRow_evolves {s₀ s} (a b c d) (h : Evolves r s₀ s) : Evolves r s₀ (State.xRow s a b c d).1 := by
  unfold State.xRow
  split
  · with_reducible refine Evolves.mk_fst ?_
    exact h
  · with_reducible refine Evolves.ite_fst ?_ ?_
    · with_reducible refine Evolves.mk_fst ?_
      exact h
    · split
      · with_reducible refine Evolves.mk_fst ?_
        with_reducible refine State.xStashFault_evolves _ _ _ _ ?_
        exact h
      · with_reducible refine Evolves.mk_fst ?_
        with_reducible refine State.stashStuck_evolves _ _ ?_
        exact h
      · rename_i w5 e6
        have hw5 := State.stashSide_evolves _ _ _ _ (Or.inr e6) h
        with_reducible refine Evolves.mk_fst ?_
        exact hw5
      · rename_i w7 w8 e9
        have hw7 := State.stashSide_evolves _ _ _ _ (Or.inl ⟨_, e9⟩) h
        split
        · with_reducible refine Evolves.mk_fst ?_
          with_reducible refine State.xStashFault_evolves _ _ _ _ ?_
          exact hw7
        · with_reducible refine Evolves.mk_fst ?_
          with_reducible refine State.stashStuck_evolves _ _ ?_
          exact hw7
        · rename_i w13 e14
          have hw13 := State.stashSide_evolves _ _ _ _ (Or.inr e14) hw7
          with_reducible refine Evolves.mk_fst ?_
          with_reducible refine State.modXfer_evolves _ _ ?_
          exact hw13
        · rename_i w15 w16 e17
          have hw15 := State.stashSide_evolves _ _ _ _ (Or.inl ⟨_, e17⟩) hw7
          with_reducible refine Evolves.ite_fst ?_ ?_
          · with_reducible refine Evolves.mk_fst ?_
            exact hw15
          · extract_lets -underBinder -merge -useContext +onlyGivenNames v18
            have hv18 : Evolves r s₀ v18 := by
              with_reducible refine State.modXfer_evolves _ _ ?_
              exact hw15
            try clear_value v18
            with_reducible refine Evolves.mk_fst ?_
            with_reducible refine Evolves.foldl (fun a19 x20 ha19 => ?_) ?_
            · with_reducible refine State.xMove_evolves _ _ _ _ ?_
              exact ha19
            · exact hv18

theorem State.xWaitPage_evolves {s₀ s} (a b c d) (h : Evolves r s₀ s) : Evolves r s₀ (State.xWaitPage s a b c d) := by
  unfold State.xWaitPage
  with_reducible refine Evolves.ite ?_ ?_
  · with_reducible refine State.xWalkFault_evolves _ _ _ ?_
    with_reducible refine State.raise_evolves _ _ _ _ _ _ ?_
    exact h
  · with_reducible refine Evolves.ite ?_ ?_
    · exact h
    · with_reducible refine Evolves.upd_mk rfl rfl rfl rfl rfl rfl rfl rfl rfl rfl rfl rfl rfl rfl rfl rfl rfl rfl rfl rfl rfl rfl rfl rfl rfl rfl rfl rfl ?_
      exact h

theorem State.xGotPage_evolves {s₀ s} (a) (h : Evolves r s₀ s) : Evolves r s₀ (State.xGotPage s a) := by
  unfold State.xGotPage
  with_reducible refine Evolves.upd_mk rfl rfl rfl rfl rfl rfl rfl rfl rfl rfl rfl rfl rfl rfl rfl rfl rfl rfl rfl rfl rfl rfl rfl rfl rfl rfl rfl rfl ?_
  exact h

theorem State.xPagedRow_evolves {s₀ s} (a b c d) (h : Evolves r s₀ s) : Evolves r s₀ (State.xPagedRow s a b c d).1 := by
  unfold State.xPagedRow
  extract_lets -underBinder -merge -useContext +onlyGivenNames v0
  try clear_value v0
  with_reducible refine Evolves.ite_fst ?_ ?_
  · with_reducible refine State.xRow_evolves _ _ _ _ ?_
    exact h
  · with_reducible refine State.xRow_evolves _ _ _ _ ?_
    exact h

theorem State.xPaged_evolves {s₀ s} (a b) (h : Evolves r s₀ s) : Evolves r s₀ (State.xPaged s a b).1 := by
  unfold State.xPaged
  extract_lets -underBinder -merge -useContext +onlyGivenNames v0
  try clear_value v0
  extract_lets -underBinder -merge -useContext +onlyGivenNames v1
  try clear_value v1
  extract_lets -underBinder -merge -useContext +onlyGivenNames v2
  try clear_value v2
  extract_lets -underBinder -merge -useContext +onlyGivenNames v3
  try clear_value v3
  split
  · with_reducible refine Evolves.ite_fst ?_ ?_
    · with_reducible refine Evolves.ite_fst ?_ ?_
      · with_reducible refine Evolves.mk_fst ?_
        exact h
      · with_reducible refine Evolves.mk_fst ?_
        with_reducible refine State.xUnpin_evolves _ ?_
        exact h
    · with_reducible refine State.xPagedRow_evolves _ _ _ _ ?_
      exact h
  · with_reducible refine Evolves.ite_fst ?_ ?_
    · with_reducible refine Evolves.mk_fst ?_
      exact h
    · split
      · with_reducible refine Evolves.mk_fst ?_
        with_reducible refine State.xWalkFault_evolves _ _ _ ?_
        exact h
      · split
        · with_reducible refine Evolves.mk_fst ?_
          with_reducible refine State.xWalkFault_evolves _ _ _ ?_
          exact h
        · with_reducible refine Evolves.mk_fst ?_
          with_reducible refine State.xWaitPage_evolves _ _ _ _ ?_
          exact h
        · with_reducible refine Evolves.mk_fst ?_
          exact h
        · rename_i w12 w13 e14
          have hw12 := State.walkPage_evolves _ _ _ _ e14 h
          extract_lets -underBinder -merge -useContext +onlyGivenNames v15
          try clear_value v15
          extract_lets -underBinder -merge -useContext +onlyGivenNames v16
          have hv16 : Evolves r s₀ v16 := by
            with_reducible refine State.modXfer_evolves _ _ ?_
            with_reducible refine State.xGotPage_evolves _ ?_
            exact hw12
          try clear_value v16
          split
          · rename_i w17 w18 e19
            have hw17 : Evolves r s₀ w17 := Evolves.of_pair e19 (by
              with_reducible refine State.xPagedRow_evolves _ _ _ _ ?_
              exact hv16)
            with_reducible refine Evolves.ite_fst ?_ ?_
            · with_reducible refine Evolves.mk_fst ?_
              exact hw17
            · with_reducible refine Evolves.ite_fst ?_ ?_
              · with_reducible refine Evolves.mk_fst ?_
                exact h
              · with_reducible refine Evolves.mk_fst ?_
                exact hw17

theorem State.xConfirm_evolves {s₀ s} (a) (h : Evolves r s₀ s) : Evolves r s₀ (State.xConfirm s a) := by
  unfold State.xConfirm
  split
  · with_reducible refine Evolves.ite ?_ ?_
    · with_reducible refine Evolves.foldl (fun a1 x2 ha1 => ?_) ?_
      · with_reducible refine State.xHostRead_evolves _ _ _ _ ?_
        exact ha1
      · exact h
    · exact h
  · exact h

theorem State.xHeld_evolves {s₀ s} (a b) (h : Evolves r s₀ s) : Evolves r s₀ (State.xHeld s a b) := by
  unfold State.xHeld
  with_reducible refine Evolves.foldl (fun a0 x1 ha0 => ?_) ?_
  · with_reducible refine State.xDeliver_evolves _ _ _ _ _ _ ?_
    exact ha0
  · with_reducible refine State.modXfer_evolves _ _ ?_
    exact h

theorem State.xAdvance_evolves {s₀ s} (a b) (h : Evolves r s₀ s) : Evolves r s₀ (State.xAdvance a b s) := by
  unfold State.xAdvance
  split
  · exact (by assumption)
  · split
    · exact (by assumption)
    · with_reducible refine Evolves.ite ?_ ?_
      · exact (by assumption)
      · with_reducible refine Evolves.ite ?_ ?_
        · with_reducible refine Evolves.ite ?_ ?_
          · exact (by assumption)
          · with_reducible refine State.xAdvance_evolves _ _ ?_
            with_reducible refine State.xHeld_evolves _ _ ?_
            exact (by assumption)
        · with_reducible refine Evolves.ite ?_ ?_
          · with_reducible refine State.xConfirm_evolves _ ?_
            exact (by assumption)
          · split
            · rename_i w5 e6
              have hw5 : Evolves r s₀ w5 := Evolves.of_pair e6 (by
                with_reducible refine Evolves.ite_fst ?_ ?_
                · with_reducible refine State.xPaged_evolves _ _ ?_
                  exact (by assumption)
                · with_reducible refine State.xRow_evolves _ _ _ _ ?_
                  exact (by assumption))
              with_reducible refine State.xAdvance_evolves _ _ ?_
              exact hw5
            · rename_i w7 e8
              have hw7 : Evolves r s₀ w7 := Evolves.of_pair e8 (by
                with_reducible refine Evolves.ite_fst ?_ ?_
                · with_reducible refine State.xPaged_evolves _ _ ?_
                  exact (by assumption)
                · with_reducible refine State.xRow_evolves _ _ _ _ ?_
                  exact (by assumption))
              exact hw7

theorem State.advance_evolves {s₀ s} (a) (h : Evolves r s₀ s) : Evolves r s₀ (State.advance s a) := by
  unfold State.advance
  split
  · with_reducible refine State.xAdvance_evolves _ _ ?_
    exact h
  · exact h

theorem State.movRun_evolves {s₀ s} (a) (h : Evolves r s₀ s) : Evolves r s₀ (State.movRun s a) := by
  unfold State.movRun
  split
  · exact h
  · rename_i w1 w2 e3
    have hw2 : Evolves r s₀ w2 := by
      with_reducible refine State.pickEngine_evolves _ e3 ?_
      exact h
    extract_lets -underBinder -merge -useContext +onlyGivenNames v4
    try clear_value v4
    with_reducible refine State.advance_evolves _ ?_
    with_reducible refine State.newXfer_evolves _ ?_
    with_reducible refine State.addRun_evolves _ _ ?_
    exact hw2

theorem execMov_evolves {s₀ s t} (a b) (he : execMov a b s = .next t) (h : Evolves r s₀ s) : Evolves r s₀ t := by
  unfold execMov at he
  cases he
  with_reducible refine Evolves.ite ?_ ?_
  · with_reducible refine State.issueWith_evolves _ _ _ _ _ (fun y0 y1 hy0 => ?_) ?_
    · with_reducible refine State.movRun_evolves _ ?_
      exact hy0
    · exact h
  · with_reducible refine Evolves.foldl (fun a2 x3 ha2 => ?_) ?_
    · with_reducible refine State.advance_evolves _ ?_
      exact ha2
    · exact h

theorem State.answered_evolves {s₀ s} (a b c d) (h : Evolves r s₀ s) : Evolves r s₀ (State.answered s a b c d) := by
  unfold State.answered
  split
  · with_reducible refine State.advance_evolves _ ?_
    with_reducible refine State.xDeliver_evolves _ _ _ _ _ _ ?_
    with_reducible refine State.dropReq_evolves _ ?_
    exact h
  · with_reducible refine State.dropReq_evolves _ ?_
    exact h

theorem State.confirmed_evolves {s₀ s} (a b) (h : Evolves r s₀ s) : Evolves r s₀ (State.confirmed s a b) := by
  unfold State.confirmed
  with_reducible refine State.modXfer_evolves _ _ ?_
  exact h

theorem execHostCompletion_evolves {s₀ s t} (a b) (he : execHostCompletion a b s = .next t) (h : Evolves r s₀ s) : Evolves r s₀ t := by
  unfold execHostCompletion at he
  cases he
  split
  · exact h
  · with_reducible refine Evolves.ite ?_ ?_
    · exact h
    · extract_lets -underBinder -merge -useContext +onlyGivenNames v3
      have hv3 : Evolves r s₀ v3 := by
        with_reducible refine State.modPort_evolves _ _ ?_
        exact h
      try clear_value v3
      split
      · with_reducible refine Evolves.ite ?_ ?_
        · with_reducible refine State.advance_evolves _ ?_
          with_reducible refine State.confirmed_evolves _ _ ?_
          with_reducible refine State.dropReq_evolves _ ?_
          exact hv3
        · with_reducible refine State.answered_evolves _ _ _ _ ?_
          exact hv3
      · with_reducible refine State.dropReq_evolves _ ?_
        exact hv3

theorem State.cplExpired_evolves {s₀ s} (a b c d) (h : Evolves r s₀ s) : Evolves r s₀ (State.cplExpired s a b c d) := by
  unfold State.cplExpired
  extract_lets -underBinder -merge -useContext +onlyGivenNames v0
  have hv0 : Evolves r s₀ v0 := by
    with_reducible refine State.raise_evolves _ _ _ _ _ _ ?_
    with_reducible refine State.bump_evolves _ _ _ ?_
    with_reducible refine State.dropReq_evolves _ ?_
    exact h
  try clear_value v0
  extract_lets -underBinder -merge -useContext +onlyGivenNames v1
  have hv1 : Evolves r s₀ v1 := by
    unfold v1
    split
    · with_reducible refine State.xFault_evolves _ _ _ ?_
      exact hv0
    · exact hv0
  try clear_value v1
  extract_lets -underBinder -merge -useContext +onlyGivenNames v4
  try clear_value v4
  extract_lets -underBinder -merge -useContext +onlyGivenNames v5
  have hv5 : Evolves r s₀ v5 := by
    with_reducible refine State.modPort_evolves _ _ ?_
    exact hv1
  try clear_value v5
  with_reducible refine Evolves.ite ?_ ?_
  · with_reducible refine State.detach_evolves _ _ ?_
    exact hv5
  · exact hv5

theorem execCplTimeout_evolves {s₀ s t} (a) (he : execCplTimeout a s = .next t) (h : Evolves r s₀ s) : Evolves r s₀ t := by
  unfold execCplTimeout at he
  cases he
  split
  · exact h
  · extract_lets -underBinder -merge -useContext +onlyGivenNames v3
    try clear_value v3
    with_reducible refine Evolves.ite ?_ ?_
    · exact h
    · with_reducible refine State.cplExpired_evolves _ _ _ _ ?_
      exact h

theorem State.stageByte_evolves {s₀ s} (a b) (h : Evolves r s₀ s) : Evolves r s₀ (State.stageByte s a b) := by
  unfold State.stageByte
  with_reducible refine Evolves.upd_mk rfl rfl rfl rfl rfl rfl rfl rfl rfl rfl rfl rfl rfl rfl rfl rfl rfl rfl rfl rfl rfl rfl rfl rfl rfl rfl rfl rfl ?_
  exact h

theorem State.apWrite_evolves {s₀ s} (a b c) (h : Evolves r s₀ s) : Evolves r s₀ (State.apWrite s a b c) := by
  unfold State.apWrite
  with_reducible refine Evolves.ite ?_ ?_
  · with_reducible refine Evolves.ite ?_ ?_
    · with_reducible refine State.deny_evolves _ _ _ ?_
      exact h
    · with_reducible refine Evolves.ite ?_ ?_
      · with_reducible refine State.deny_evolves _ _ _ ?_
        exact h
      · with_reducible refine Evolves.foldl (fun a0 x1 ha0 => ?_) ?_
        · with_reducible refine State.stageByte_evolves _ _ ?_
          exact ha0
        · exact h
  · split
    · with_reducible refine State.deny_evolves _ _ _ ?_
      exact h
    · with_reducible refine State.devWrite_evolves _ _ ?_
      exact h

theorem State.apRead_evolves {s₀ s} (a b c) (h : Evolves r s₀ s) : Evolves r s₀ (State.apRead s a b c).1 := by
  unfold State.apRead
  with_reducible refine Evolves.ite_fst ?_ ?_
  · with_reducible refine Evolves.ite_fst ?_ ?_
    · with_reducible refine Evolves.mk_fst ?_
      with_reducible refine State.deny_evolves _ _ _ ?_
      exact h
    · with_reducible refine Evolves.ite_fst ?_ ?_
      · with_reducible refine Evolves.mk_fst ?_
        with_reducible refine State.deny_evolves _ _ _ ?_
        exact h
      · with_reducible refine Evolves.mk_fst ?_
        exact h
  · split
    · with_reducible refine Evolves.mk_fst ?_
      with_reducible refine State.deny_evolves _ _ _ ?_
      exact h
    · extract_lets -underBinder -merge -useContext +onlyGivenNames v2
      try clear_value v2
      extract_lets -underBinder -merge -useContext +onlyGivenNames v3
      have hv3 : Evolves r s₀ v3 := by
        with_reducible refine Evolves.foldl (fun a4 x5 ha4 => ?_) ?_
        · with_reducible refine State.lineRead_evolves _ _ _ ?_
          exact ha4
        · exact h
      try clear_value v3
      with_reducible refine Evolves.mk_fst ?_
      exact hv3

theorem State.apWriteAll_evolves {s₀ s} (a b c) (h : Evolves r s₀ s) : Evolves r s₀ (State.apWriteAll s a b c) := by
  unfold State.apWriteAll
  with_reducible refine Evolves.foldl (fun a0 x1 ha0 => ?_) ?_
  · with_reducible refine State.apWrite_evolves _ _ _ ?_
    exact ha0
  · exact h

theorem State.apReadAll_evolves {s₀ s} (a b c) (h : Evolves r s₀ s) : Evolves r s₀ (State.apReadAll s a b c) := by
  unfold State.apReadAll
  split
  · rename_i w0 w1 e2
    have hw0 : Evolves r s₀ w0 := Evolves.of_pair e2 (by
      with_reducible refine Evolves.foldl_fst (fun a3 x4 ha3 => ?_) ?_
      · split
        · rename_i w5 w6 e7
          have hw5 : Evolves r s₀ w5 := Evolves.of_pair e7 (by
            with_reducible refine State.apRead_evolves _ _ _ ?_
            exact ha3)
          with_reducible refine Evolves.mk_fst ?_
          exact hw5
      · with_reducible refine Evolves.mk_fst ?_
        exact h)
    with_reducible refine State.reply_evolves _ ?_
    exact hw0

theorem execBar4Access_evolves {s₀ s t} (a b c d e) (he : execBar4Access a b c d e s = .next t) (h : Evolves r s₀ s) : Evolves r s₀ t := by
  unfold execBar4Access at he
  cases he
  with_reducible refine Evolves.ite ?_ ?_
  · exact h
  · with_reducible refine Evolves.ite ?_ ?_
    · with_reducible refine Evolves.ite ?_ ?_
      · exact h
      · with_reducible refine State.reply_evolves _ ?_
        exact h
    · with_reducible refine Evolves.ite ?_ ?_
      · exact h
      · with_reducible refine Evolves.ite ?_ ?_
        · with_reducible refine State.apWriteAll_evolves _ _ _ ?_
          exact h
        · with_reducible refine State.apReadAll_evolves _ _ _ ?_
          exact h

theorem execConv_evolves {s₀ s t} (a b) (he : execConv a b s = .next t) (h : Evolves r s₀ s) : Evolves r s₀ t := by
  unfold execConv at he
  cases he
  with_reducible refine State.issueWith_evolves _ _ _ _ _ (fun y0 y1 hy0 => ?_) ?_
  · with_reducible refine State.runEff_evolves _ _ ?_
    exact hy0
  · exact h

theorem execWgrad_evolves {s₀ s t} (a b) (he : execWgrad a b s = .next t) (h : Evolves r s₀ s) : Evolves r s₀ t := by
  unfold execWgrad at he
  cases he
  with_reducible refine State.issueWith_evolves _ _ _ _ _ (fun y0 y1 hy0 => ?_) ?_
  · with_reducible refine State.runEff_evolves _ _ ?_
    exact hy0
  · exact h

theorem execMaxpool_evolves {s₀ s t} (a b) (he : execMaxpool a b s = .next t) (h : Evolves r s₀ s) : Evolves r s₀ t := by
  unfold execMaxpool at he
  cases he
  with_reducible refine State.issueWith_evolves _ _ _ _ _ (fun y0 y1 hy0 => ?_) ?_
  · with_reducible refine State.runEff_evolves _ _ ?_
    exact hy0
  · exact h

theorem execAvgpool_evolves {s₀ s t} (a b) (he : execAvgpool a b s = .next t) (h : Evolves r s₀ s) : Evolves r s₀ t := by
  unfold execAvgpool at he
  cases he
  with_reducible refine State.issueWith_evolves _ _ _ _ _ (fun y0 y1 hy0 => ?_) ?_
  · with_reducible refine State.runEff_evolves _ _ ?_
    exact hy0
  · exact h

theorem execMaxpoolB_evolves {s₀ s t} (a b) (he : execMaxpoolB a b s = .next t) (h : Evolves r s₀ s) : Evolves r s₀ t := by
  unfold execMaxpoolB at he
  cases he
  with_reducible refine State.issueWith_evolves _ _ _ _ _ (fun y0 y1 hy0 => ?_) ?_
  · with_reducible refine State.runEff_evolves _ _ ?_
    exact hy0
  · exact h

theorem execAvgpoolB_evolves {s₀ s t} (a b) (he : execAvgpoolB a b s = .next t) (h : Evolves r s₀ s) : Evolves r s₀ t := by
  unfold execAvgpoolB at he
  cases he
  with_reducible refine State.issueWith_evolves _ _ _ _ _ (fun y0 y1 hy0 => ?_) ?_
  · with_reducible refine State.runEff_evolves _ _ ?_
    exact hy0
  · exact h

theorem execS2d_evolves {s₀ s t} (a b) (he : execS2d a b s = .next t) (h : Evolves r s₀ s) : Evolves r s₀ t := by
  unfold execS2d at he
  cases he
  with_reducible refine State.issueWith_evolves _ _ _ _ _ (fun y0 y1 hy0 => ?_) ?_
  · with_reducible refine State.runEff_evolves _ _ ?_
    exact hy0
  · exact h

theorem execD2s_evolves {s₀ s t} (a b) (he : execD2s a b s = .next t) (h : Evolves r s₀ s) : Evolves r s₀ t := by
  unfold execD2s at he
  cases he
  with_reducible refine State.issueWith_evolves _ _ _ _ _ (fun y0 y1 hy0 => ?_) ?_
  · with_reducible refine State.runEff_evolves _ _ ?_
    exact hy0
  · exact h

theorem State.copySettle_evolves {s₀ s} (a b) (h : Evolves r s₀ s) : Evolves r s₀ (State.copySettle s a b) := by
  unfold State.copySettle
  extract_lets -underBinder -merge -useContext +onlyGivenNames v0
  have hv0 : Evolves r s₀ v0 := by
    with_reducible refine Evolves.foldl (fun a1 x2 ha1 => ?_) ?_
    · with_reducible refine State.advance_evolves _ ?_
      exact ha1
    · exact h
  try clear_value v0
  extract_lets -underBinder -merge -useContext +onlyGivenNames v3
  try clear_value v3
  with_reducible refine Evolves.ite ?_ ?_
  · extract_lets -underBinder -merge -useContext +onlyGivenNames v4
    have hv4 : Evolves r s₀ v4 := by
      with_reducible refine Evolves.foldl (fun a5 x6 ha5 => ?_) ?_
      · with_reducible refine State.xFinish_evolves _ ?_
        exact ha5
      · exact hv0
    try clear_value v4
    extract_lets -underBinder -merge -useContext +onlyGivenNames v7
    have hv7 : Evolves r s₀ v7 := by
      with_reducible refine State.modCq_evolves _ _ ?_
      exact hv4
    try clear_value v7
    extract_lets -underBinder -merge -useContext +onlyGivenNames v8
    try clear_value v8
    split
    · with_reducible refine State.cqHead_evolves _ ?_
      with_reducible refine State.cqReport_evolves _ _ _ _ _ ?_
      exact hv7
    · with_reducible refine State.cqHead_evolves _ ?_
      with_reducible refine State.cqReport_evolves _ _ _ _ _ ?_
      exact hv7
  · exact hv0

theorem State.copiesSettle_evolves {s₀ s} (a) (h : Evolves r s₀ s) : Evolves r s₀ (State.copiesSettle s a) := by
  unfold State.copiesSettle
  with_reducible refine Evolves.ite ?_ ?_
  · with_reducible refine Evolves.foldl (fun a0 x1 ha0 => ?_) ?_
    · with_reducible refine State.copySettle_evolves _ _ ?_
      exact ha0
    · exact h
  · exact h

theorem execCqFetch_evolves {s₀ s t} (a b) (he : execCqFetch a b s = .next t) (h : Evolves r s₀ s) : Evolves r s₀ t := by
  unfold execCqFetch at he
  cases he
  split
  · exact h
  · extract_lets -underBinder -merge -useContext +onlyGivenNames v2
    try clear_value v2
    with_reducible refine Evolves.ite ?_ ?_
    · exact h
    · extract_lets -underBinder -merge -useContext +onlyGivenNames v3
      try clear_value v3
      extract_lets -underBinder -merge -useContext +onlyGivenNames v4
      try clear_value v4
      extract_lets -underBinder -merge -useContext +onlyGivenNames v5
      have hv5 : Evolves r s₀ v5 := by
        unfold v5
        split
        · with_reducible refine Evolves.ite ?_ ?_
          · exact h
          · with_reducible refine State.crsPlain_evolves _ _ _ _ ?_
            exact h
        · with_reducible refine Evolves.ite ?_ ?_
          · exact h
          · with_reducible refine State.farTouch_evolves _ _ _ ?_
            exact h
      try clear_value v5
      extract_lets -underBinder -merge -useContext +onlyGivenNames v9
      have hv9 : Evolves r s₀ v9 := by
        with_reducible refine State.modCq_evolves _ _ ?_
        exact hv5
      try clear_value v9
      with_reducible refine State.cqFlushRun_evolves _ _ ?_
      exact hv9

theorem State.cqRun_evolves {s₀ s} (a b c) (hc : ∀ x0 x1 x2, Evolves r s₀ x2 → Evolves r s₀ (c x0 x1 x2)) (h : Evolves r s₀ s) : Evolves r s₀ (State.cqRun s a b c) := by
  unfold State.cqRun
  extract_lets -underBinder -merge -useContext +onlyGivenNames v0
  have hv0 : Evolves r s₀ v0 := by
    with_reducible refine State.copiesSettle_evolves _ ?_
    exact h
  try clear_value v0
  split
  · exact hv0
  · with_reducible refine Evolves.ite ?_ ?_
    · exact hv0
    · with_reducible refine Evolves.ite ?_ ?_
      · extract_lets -underBinder -merge -useContext +onlyGivenNames v4
        try clear_value v4
        with_reducible refine Evolves.ite ?_ ?_
        · exact hv0
        · with_reducible refine State.cqFinish_evolves _ _ _ _ ?_
          exact hv0
      · with_reducible refine hc _ _ _ ?_
        exact hv0

theorem State.cqBegin_evolves {s₀ s} (a) (h : Evolves r s₀ s) : Evolves r s₀ (State.cqBegin s a) := by
  unfold State.cqBegin
  with_reducible refine State.modCq_evolves _ _ ?_
  exact h

theorem execCqNop_evolves {s₀ s t} (a) (he : execCqNop a s = .next t) (h : Evolves r s₀ s) : Evolves r s₀ t := by
  unfold execCqNop at he
  cases he
  with_reducible refine State.cqRun_evolves _ _ _ (fun y0 y1 y2 hy2 => ?_) ?_
  · with_reducible refine State.cqFinish_evolves _ _ _ _ ?_
    exact hy2
  · exact h

theorem State.writeDescs_evolves {s₀ s} (a b) (h : Evolves r s₀ s) : Evolves r s₀ (State.writeDescs s a b) := by
  unfold State.writeDescs
  extract_lets -underBinder -merge -useContext +onlyGivenNames v0
  try clear_value v0
  extract_lets -underBinder -merge -useContext +onlyGivenNames v1
  try clear_value v1
  extract_lets -underBinder -merge -useContext +onlyGivenNames v2
  have hv2 : Evolves r s₀ v2 := by
    with_reducible refine Evolves.foldl (fun a3 x4 ha3 => ?_) ?_
    · with_reducible refine State.store_evolves _ _ ?_
      exact ha3
    · exact h
  try clear_value v2
  with_reducible refine tilSeqTailWrite_evolves _ _ ?_
  exact hv2

theorem descRun_evolves {s₀ s} (a b c) (h : Evolves r s₀ s) : Evolves r s₀ (descRun a b c s) := by
  unfold descRun
  extract_lets -underBinder -merge -useContext +onlyGivenNames v0
  try clear_value v0
  extract_lets -underBinder -merge -useContext +onlyGivenNames v1
  try clear_value v1
  extract_lets -underBinder -merge -useContext +onlyGivenNames v2
  try clear_value v2
  extract_lets -underBinder -merge -useContext +onlyGivenNames v3
  try clear_value v3
  with_reducible refine Evolves.ite ?_ ?_
  · with_reducible refine State.cqFinish_evolves _ _ _ _ ?_
    exact h
  · with_reducible refine Evolves.ite ?_ ?_
    · with_reducible refine Evolves.ite ?_ ?_
      · exact h
      · with_reducible refine State.cqFinish_evolves _ _ _ _ ?_
        exact h
    · with_reducible refine Evolves.ite ?_ ?_
      · exact h
      · with_reducible refine Evolves.ite ?_ ?_
        · with_reducible refine State.cqFinish_evolves _ _ _ _ ?_
          exact h
        · extract_lets -underBinder -merge -useContext +onlyGivenNames v4
          try clear_value v4
          with_reducible refine Evolves.ite ?_ ?_
          · with_reducible refine State.cqFinish_evolves _ _ _ _ ?_
            exact h
          · with_reducible refine Evolves.ite ?_ ?_
            · with_reducible refine State.cqBegin_evolves _ ?_
              exact h
            · with_reducible refine State.cqFinish_evolves _ _ _ _ ?_
              with_reducible refine State.writeDescs_evolves _ _ ?_
              exact h

theorem execDesc_evolves {s₀ s t} (a) (he : execDesc a s = .next t) (h : Evolves r s₀ s) : Evolves r s₀ t := by
  unfold execDesc at he
  cases he
  with_reducible refine State.cqRun_evolves _ _ _ (fun y0 y1 y2 hy2 => ?_) ?_
  · with_reducible refine descRun_evolves _ _ _ ?_
    exact hy2
  · exact h

theorem regwRun_evolves {s₀ s} (a b c) (h : Evolves r s₀ s) : Evolves r s₀ (regwRun a b c s) := by
  unfold regwRun
  extract_lets -underBinder -merge -useContext +onlyGivenNames v0
  try clear_value v0
  extract_lets -underBinder -merge -useContext +onlyGivenNames v1
  try clear_value v1
  split
  · with_reducible refine State.cqFinish_evolves _ _ _ _ ?_
    exact h
  · with_reducible refine State.cqFinish_evolves _ _ _ _ ?_
    with_reducible refine State.wordWrite_evolves _ _ _ _ ?_
    exact h

theorem execRegw_evolves {s₀ s t} (a) (he : execRegw a s = .next t) (h : Evolves r s₀ s) : Evolves r s₀ t := by
  unfold execRegw at he
  cases he
  with_reducible refine State.cqRun_evolves _ _ _ (fun y0 y1 y2 hy2 => ?_) ?_
  · with_reducible refine regwRun_evolves _ _ _ ?_
    exact hy2
  · exact h

theorem State.handCopies_evolves {s₀ s t} (a b c d e) (he : State.handCopies s a b c d e = some t) (h : Evolves r s₀ s) :
    Evolves r s₀ t := by
  unfold State.handCopies at he
  have key : ∀ (l : List (Nat × Nat)) (o : Option State), (∀ x, o = some x → Evolves r s₀ x) →
      ∀ t, l.foldl (fun (z : Option State) m =>
        match z with
        | none => none
        | some t =>
          match t.pickEngine c with
          | none => none
          | some (p, u) =>
            some ((u.newXfer { owner := copyOwner a b m.2, tile := c * 256, d := m.1, part := d, engine := p, issued := s.mt }).advance
              (copyOwner a b m.2))) o = some t → Evolves r s₀ t := by
    intro l
    induction l with
    | nil => intro o ho t ht; exact ho t ht
    | cons m l ih =>
      intro o ho
      refine ih _ ?_
      intro x hx
      cases o with
      | none => cases hx
      | some y =>
        dsimp only at hx
        split at hx
        · cases hx
        · next hp =>
          rw [Option.some.injEq] at hx
          subst hx
          with_reducible exact State.advance_evolves _ (State.newXfer_evolves _ (State.pickEngine_evolves _ hp (ho _ rfl)))
  exact key _ _ (fun x hx => by cases hx; exact h) t he

theorem copyRun_evolves {s₀ s} (a b c) (h : Evolves r s₀ s) : Evolves r s₀ (copyRun a b c s) := by
  unfold copyRun
  extract_lets -underBinder -merge -useContext +onlyGivenNames v0
  try clear_value v0
  extract_lets -underBinder -merge -useContext +onlyGivenNames v1
  try clear_value v1
  extract_lets -underBinder -merge -useContext +onlyGivenNames v2
  try clear_value v2
  with_reducible refine Evolves.ite ?_ ?_
  · with_reducible refine State.cqFinish_evolves _ _ _ _ ?_
    exact h
  · with_reducible refine Evolves.ite ?_ ?_
    · with_reducible refine State.cqFinish_evolves _ _ _ _ ?_
      exact h
    · split
      · exact h
      · rename_i w4 e5
        have hw4 : Evolves r s₀ w4 := by
          with_reducible refine State.handCopies_evolves _ _ _ _ _ e5 ?_
          exact h
        with_reducible refine State.copiesSettle_evolves _ ?_
        with_reducible refine State.cqTake_evolves _ _ _ _ ?_
        exact hw4

theorem execCopy_evolves {s₀ s t} (a) (he : execCopy a s = .next t) (h : Evolves r s₀ s) : Evolves r s₀ t := by
  unfold execCopy at he
  cases he
  with_reducible refine State.cqRun_evolves _ _ _ (fun y0 y1 y2 hy2 => ?_) ?_
  · with_reducible refine copyRun_evolves _ _ _ ?_
    exact hy2
  · exact h

theorem waitRun_evolves {s₀ s} (a b c) (h : Evolves r s₀ s) : Evolves r s₀ (waitRun a b c s) := by
  unfold waitRun
  split
  · with_reducible refine State.cqFinish_evolves _ _ _ _ ?_
    exact h
  · with_reducible refine Evolves.ite ?_ ?_
    · with_reducible refine State.cqFinish_evolves _ _ _ _ ?_
      exact h
    · with_reducible refine State.cqBegin_evolves _ ?_
      exact h

theorem execWait_evolves {s₀ s t} (a) (he : execWait a s = .next t) (h : Evolves r s₀ s) : Evolves r s₀ t := by
  unfold execWait at he
  cases he
  with_reducible refine State.cqRun_evolves _ _ _ (fun y0 y1 y2 hy2 => ?_) ?_
  · with_reducible refine waitRun_evolves _ _ _ ?_
    exact hy2
  · exact h

theorem waitExpire_evolves {s₀ s} (a b c) (h : Evolves r s₀ s) : Evolves r s₀ (waitExpire a b c s) := by
  unfold waitExpire
  extract_lets -underBinder -merge -useContext +onlyGivenNames v0
  try clear_value v0
  split
  · with_reducible refine Evolves.ite ?_ ?_
    · with_reducible refine State.cqFinish_evolves _ _ _ _ ?_
      exact h
    · exact h
  · exact h

theorem execWaitTimeout_evolves {s₀ s t} (a) (he : execWaitTimeout a s = .next t) (h : Evolves r s₀ s) : Evolves r s₀ t := by
  unfold execWaitTimeout at he
  cases he
  with_reducible refine State.cqRun_evolves _ _ _ (fun y0 y1 y2 hy2 => ?_) ?_
  · with_reducible refine waitExpire_evolves _ _ _ ?_
    exact hy2
  · exact h

theorem signalRun_evolves {s₀ s} (a b c) (h : Evolves r s₀ s) : Evolves r s₀ (signalRun a b c s) := by
  unfold signalRun
  split
  · with_reducible refine State.cqFinish_evolves _ _ _ _ ?_
    exact h
  · with_reducible refine State.cqFinish_evolves _ _ _ _ ?_
    with_reducible refine State.addCtr_evolves _ _ _ ?_
    exact h

theorem execCqSignal_evolves {s₀ s t} (a) (he : execCqSignal a s = .next t) (h : Evolves r s₀ s) : Evolves r s₀ t := by
  unfold execCqSignal at he
  cases he
  with_reducible refine State.cqRun_evolves _ _ _ (fun y0 y1 y2 hy2 => ?_) ?_
  · with_reducible refine signalRun_evolves _ _ _ ?_
    exact hy2
  · exact h

end Sys2Proof.Machine
end

