-- ==== Sys2Proof/Laws/EvolvesRemote.lean ====
section
/-! SUPPORT. Laws/EvolvesRemote.lean: every operation of packets from other modules, retirement and the step evolves the state (Laws/Evolves.lean); one lemma for each. -/
namespace Sys2Proof.Machine

set_option Elab.async false
set_option linter.all false

variable {r : Bool}

theorem State.answerTo_evolves {s₀ s} (a b) (h : Evolves r s₀ s) : Evolves r s₀ (State.answerTo s a b) := by
  unfold State.answerTo
  with_reducible refine State.routeOut_evolves _ ?_
  exact h

theorem execPacketForward_evolves {s₀ s t} (a) (he : execPacketForward a s = .next t) (h : Evolves r s₀ s) : Evolves r s₀ t := by
  unfold execPacketForward at he
  cases he
  with_reducible refine Evolves.ite ?_ ?_
  · exact h
  · with_reducible refine State.forward_evolves _ ?_
    with_reducible refine State.consumed_evolves _ ?_
    exact h

theorem State.remoteStore_evolves {s₀ s} (a b c d) (h : Evolves r s₀ s) : Evolves r s₀ (State.remoteStore s a b c d) := by
  unfold State.remoteStore
  extract_lets -underBinder -merge -useContext +onlyGivenNames v0
  have hv0 : Evolves r s₀ v0 := by
    with_reducible refine State.devWrite_evolves _ _ ?_
    exact h
  try clear_value v0
  extract_lets -underBinder -merge -useContext +onlyGivenNames v1
  have hv1 : Evolves r s₀ v1 := by
    with_reducible refine Evolves.ite ?_ ?_
    · with_reducible refine Evolves.foldl (fun a2 x3 ha2 => ?_) ?_
      · with_reducible refine State.poisonLine_evolves _ ?_
        exact ha2
      · exact hv0
    · exact hv0
  try clear_value v1
  with_reducible refine State.farTouch_evolves _ _ _ ?_
  exact hv1

theorem State.serveWrite_evolves {s₀ s} (a b c d e) (h : Evolves r s₀ s) : Evolves r s₀ (State.serveWrite s a b c d e) := by
  unfold State.serveWrite
  with_reducible refine Evolves.ite ?_ ?_
  · with_reducible refine State.answerTo_evolves _ _ ?_
    with_reducible refine State.consumed_evolves _ ?_
    exact h
  · with_reducible refine Evolves.ite ?_ ?_
    · exact h
    · with_reducible refine State.answerTo_evolves _ _ ?_
      with_reducible refine State.remoteStore_evolves _ _ _ _ ?_
      with_reducible refine State.consumed_evolves _ ?_
      exact h

theorem execLinkWrite_evolves {s₀ s t} (a) (he : execLinkWrite a s = .next t) (h : Evolves r s₀ s) : Evolves r s₀ t := by
  unfold execLinkWrite at he
  cases he
  split
  · with_reducible refine Evolves.ite ?_ ?_
    · with_reducible refine State.serveWrite_evolves _ _ _ _ _ ?_
      exact h
    · exact h
  · exact h

theorem execReadReq_evolves {s₀ s t} (a) (he : execReadReq a s = .next t) (h : Evolves r s₀ s) : Evolves r s₀ t := by
  unfold execReadReq at he
  cases he
  split
  · with_reducible refine Evolves.ite ?_ ?_
    · exact h
    · with_reducible refine Evolves.ite ?_ ?_
      · with_reducible refine State.answerTo_evolves _ _ ?_
        with_reducible refine State.consumed_evolves _ ?_
        exact h
      · with_reducible refine Evolves.ite ?_ ?_
        · exact h
        · split
          · rename_i w3 w4 w5 e6
            have hw3 : Evolves r s₀ w3 := Evolves.of_pair e6 (by
              with_reducible refine State.devRead_evolves _ _ _ _ ?_
              with_reducible refine State.consumed_evolves _ ?_
              exact h)
            with_reducible refine State.answerTo_evolves _ _ ?_
            with_reducible refine State.farTouch_evolves _ _ _ ?_
            exact hw3
  · exact h

theorem execReadRsp_evolves {s₀ s t} (a) (he : execReadRsp a s = .next t) (h : Evolves r s₀ s) : Evolves r s₀ t := by
  unfold execReadRsp at he
  cases he
  split
  · with_reducible refine Evolves.ite ?_ ?_
    · exact h
    · extract_lets -underBinder -merge -useContext +onlyGivenNames v4
      have hv4 : Evolves r s₀ v4 := by
        with_reducible refine State.consumed_evolves _ ?_
        exact h
      try clear_value v4
      split
      · exact hv4
      · split
        · with_reducible refine Evolves.ite ?_ ?_
          · with_reducible refine State.advance_evolves _ ?_
            with_reducible refine State.xFault_evolves _ _ _ ?_
            with_reducible refine State.dropReq_evolves _ ?_
            exact hv4
          · with_reducible refine Evolves.ite ?_ ?_
            · exact hv4
            · with_reducible refine State.answered_evolves _ _ _ _ ?_
              exact hv4
        · with_reducible refine State.dropReq_evolves _ ?_
          exact hv4
  · exact h

theorem State.ringAck_evolves {s₀ s} (a b) (h : Evolves r s₀ s) : Evolves r s₀ (State.ringAck s a b) := by
  unfold State.ringAck
  with_reducible refine Evolves.ite ?_ ?_
  · exact h
  · with_reducible refine Evolves.ite ?_ ?_
    · with_reducible refine Evolves.upd_mk rfl rfl rfl rfl rfl rfl rfl rfl rfl rfl rfl rfl rfl rfl rfl rfl rfl rfl rfl rfl rfl rfl rfl rfl rfl rfl rfl rfl ?_
      exact h
    · split
      · with_reducible refine State.kvFinish_evolves _ _ ?_
        with_reducible refine State.dropReqs_evolves _ ?_
        exact h
      · with_reducible refine State.dropReqs_evolves _ ?_
        exact h

theorem State.ringAnswer_evolves {s₀ s} (a b c) (h : Evolves r s₀ s) : Evolves r s₀ (State.ringAnswer s a b c) := by
  unfold State.ringAnswer
  with_reducible refine Evolves.ite ?_ ?_
  · with_reducible refine State.ringAck_evolves _ _ ?_
    exact h
  · with_reducible refine State.routeOut_evolves _ ?_
    exact h

theorem State.setRing_evolves {s₀ s} (a) (h : Evolves r s₀ s) : Evolves r s₀ (State.setRing s a) := by
  unfold State.setRing
  with_reducible refine Evolves.upd_mk rfl rfl rfl rfl rfl rfl rfl rfl rfl rfl rfl rfl rfl rfl rfl rfl rfl rfl rfl rfl rfl rfl rfl rfl rfl rfl rfl rfl ?_
  exact h

theorem State.dropRing_evolves {s₀ s} (a b) (h : Evolves r s₀ s) : Evolves r s₀ (State.dropRing s a b) := by
  unfold State.dropRing
  with_reducible refine Evolves.upd_mk rfl rfl rfl rfl rfl rfl rfl rfl rfl rfl rfl rfl rfl rfl rfl rfl rfl rfl rfl rfl rfl rfl rfl rfl rfl rfl rfl rfl ?_
  exact h

theorem State.ringFree_evolves {s₀ s} (a) (h : Evolves r s₀ s) : Evolves r s₀ (State.ringFree s a) := by
  unfold State.ringFree
  with_reducible refine Evolves.foldl (fun a0 x1 ha0 => ?_) ?_
  · with_reducible refine State.dropRef_evolves _ _ ?_
    exact ha0
  · exact h

theorem State.ringFail_evolves {s₀ s} (a) (h : Evolves r s₀ s) : Evolves r s₀ (State.ringFail s a) := by
  unfold State.ringFail
  extract_lets -underBinder -merge -useContext +onlyGivenNames v0
  have hv0 : Evolves r s₀ v0 := by
    with_reducible refine State.dropRing_evolves _ _ ?_
    with_reducible refine State.ringFree_evolves _ ?_
    exact h
  try clear_value v0
  extract_lets -underBinder -merge -useContext +onlyGivenNames v1
  try clear_value v1
  with_reducible refine State.ringAnswer_evolves _ _ _ ?_
  with_reducible refine Evolves.upd_mk rfl rfl rfl rfl rfl rfl rfl rfl rfl rfl rfl rfl rfl rfl rfl rfl rfl rfl rfl rfl rfl rfl rfl rfl rfl rfl rfl rfl ?_
  exact hv0

theorem State.ringBegin_evolves {s₀ s} (a b c d) (h : Evolves r s₀ s) : Evolves r s₀ (State.ringBegin s a b c d) := by
  unfold State.ringBegin
  with_reducible refine Evolves.ite ?_ ?_
  · exact h
  · extract_lets -underBinder -merge -useContext +onlyGivenNames v0
    have hv0 : Evolves r s₀ v0 := by
      with_reducible refine Evolves.foldl (fun a1 x2 ha1 => ?_) ?_
      · with_reducible refine State.dropRing_evolves _ _ ?_
        with_reducible refine State.ringFree_evolves _ ?_
        exact ha1
      · exact h
    try clear_value v0
    extract_lets -underBinder -merge -useContext +onlyGivenNames v3
    try clear_value v3
    extract_lets -underBinder -merge -useContext +onlyGivenNames v4
    have hv4 : Evolves r s₀ v4 := by
      with_reducible refine Evolves.upd_mk rfl rfl rfl rfl rfl rfl rfl rfl rfl rfl rfl rfl rfl rfl rfl rfl rfl rfl rfl rfl rfl rfl rfl rfl rfl rfl rfl rfl ?_
      exact hv0
    try clear_value v4
    with_reducible refine Evolves.ite ?_ ?_
    · exact hv4
    · with_reducible refine State.ringFail_evolves _ ?_
      exact hv4

theorem State.ringCheck_evolves {s₀ s} (a b) (h : Evolves r s₀ s) : Evolves r s₀ (State.ringCheck s a b) := by
  unfold State.ringCheck
  split
  · exact h
  · split
    · with_reducible refine Evolves.ite ?_ ?_
      · exact h
      · extract_lets -underBinder -merge -useContext +onlyGivenNames v13
        have hv13 : Evolves r s₀ v13 := by
          with_reducible refine Evolves.foldl (fun a14 x15 ha14 => ?_) ?_
          · with_reducible refine State.setEntry_evolves _ _ _ _ ?_
            exact ha14
          · exact h
        try clear_value v13
        extract_lets -underBinder -merge -useContext +onlyGivenNames v16
        have hv16 : Evolves r s₀ v16 := by
          with_reducible refine State.dropRing_evolves _ _ ?_
          with_reducible refine State.setCx_evolves _ _ _ _ ?_
          with_reducible refine State.setCx_evolves _ _ _ _ ?_
          with_reducible refine State.setCx_evolves _ _ _ _ ?_
          with_reducible refine State.setLen_evolves _ _ ?_
          exact hv13
        try clear_value v16
        extract_lets -underBinder -merge -useContext +onlyGivenNames v17
        have hv17 : Evolves r s₀ v17 := by
          unfold v17
          split
          · with_reducible refine State.blockSignal_evolves _ _ _ _ _ ?_
            exact hv16
          · exact hv16
        try clear_value v17
        with_reducible refine State.ringAnswer_evolves _ _ _ ?_
        exact hv17
    · exact h

theorem State.ringWait_evolves {s₀ s} (a) (h : Evolves r s₀ s) : Evolves r s₀ (State.ringWait s a).1 := by
  unfold State.ringWait
  extract_lets -underBinder -merge -useContext +onlyGivenNames v0
  try clear_value v0
  with_reducible refine Evolves.ite_fst ?_ ?_
  · with_reducible refine Evolves.mk_fst ?_
    with_reducible refine State.ringFail_evolves _ ?_
    with_reducible refine State.raise_evolves _ _ _ _ _ _ ?_
    exact h
  · with_reducible refine Evolves.ite_fst ?_ ?_
    · with_reducible refine Evolves.mk_fst ?_
      exact h
    · with_reducible refine Evolves.mk_fst ?_
      with_reducible refine Evolves.upd_mk rfl rfl rfl rfl rfl rfl rfl rfl rfl rfl rfl rfl rfl rfl rfl rfl rfl rfl rfl rfl rfl rfl rfl rfl rfl rfl rfl rfl ?_
      exact h

theorem State.ringWrite_evolves {s₀ s} (a b c d) (h : Evolves r s₀ s) : Evolves r s₀ (State.ringWrite s a b c d) := by
  unfold State.ringWrite
  extract_lets -underBinder -merge -useContext +onlyGivenNames v0
  try clear_value v0
  with_reducible refine State.setRing_evolves _ ?_
  with_reducible refine State.farTouch_evolves _ _ _ ?_
  with_reducible refine State.devWrite_evolves _ _ ?_
  exact h

theorem State.ringTake_evolves {s₀ s} (a b) (h : Evolves r s₀ s) : Evolves r s₀ (State.ringTake s a b).1 := by
  unfold State.ringTake
  with_reducible refine Evolves.ite_fst ?_ ?_
  · with_reducible refine Evolves.mk_fst ?_
    exact h
  · split
    · extract_lets -underBinder -merge -useContext +onlyGivenNames v7
      try clear_value v7
      extract_lets -underBinder -merge -useContext +onlyGivenNames v8
      have hv8 : Evolves r s₀ v8 := by
        with_reducible refine State.ringBegin_evolves _ _ _ _ ?_
        exact h
      try clear_value v8
      split
      · with_reducible refine Evolves.mk_fst ?_
        exact hv8
      · with_reducible refine Evolves.ite_fst ?_ ?_
        · with_reducible refine Evolves.mk_fst ?_
          exact hv8
        · split
          · with_reducible refine Evolves.mk_fst ?_
            with_reducible refine State.ringCheck_evolves _ _ ?_
            with_reducible refine State.ringWrite_evolves _ _ _ _ ?_
            exact hv8
          · extract_lets -underBinder -merge -useContext +onlyGivenNames v13
            try clear_value v13
            with_reducible refine Evolves.ite_fst ?_ ?_
            · with_reducible refine Evolves.mk_fst ?_
              with_reducible refine State.ringFail_evolves _ ?_
              exact hv8
            · with_reducible refine Evolves.ite_fst ?_ ?_
              · with_reducible refine State.ringWait_evolves _ ?_
                exact hv8
              · split
                · with_reducible refine State.ringWait_evolves _ ?_
                  exact hv8
                · rename_i w15 w16 e17
                  have hw15 : Evolves r s₀ w15 := by
                    with_reducible refine State.allocPage_evolves _ e17 ?_
                    exact hv8
                  extract_lets -underBinder -merge -useContext +onlyGivenNames v18
                  try clear_value v18
                  with_reducible refine Evolves.mk_fst ?_
                  with_reducible refine State.ringCheck_evolves _ _ ?_
                  with_reducible refine State.ringWrite_evolves _ _ _ _ ?_
                  exact hw15
    · extract_lets -underBinder -merge -useContext +onlyGivenNames v30
      have hv30 : Evolves r s₀ v30 := by
        with_reducible refine State.ringBegin_evolves _ _ _ _ ?_
        exact h
      try clear_value v30
      split
      · with_reducible refine Evolves.mk_fst ?_
        exact hv30
      · with_reducible refine Evolves.ite_fst ?_ ?_
        · with_reducible refine Evolves.mk_fst ?_
          with_reducible refine State.dropRing_evolves _ _ ?_
          exact hv30
        · with_reducible refine Evolves.mk_fst ?_
          with_reducible refine State.ringCheck_evolves _ _ ?_
          with_reducible refine State.setRing_evolves _ ?_
          exact hv30
    · with_reducible refine Evolves.mk_fst ?_
      exact h

theorem State.ringPost_evolves {s₀ s} (a b) (h : Evolves r s₀ s) : Evolves r s₀ (State.ringPost s a b) := by
  unfold State.ringPost
  with_reducible refine Evolves.ite ?_ ?_
  · with_reducible refine State.ringTake_evolves _ _ ?_
    exact h
  · with_reducible refine State.routeOut_evolves _ ?_
    exact h

theorem State.allocFailed_evolves {s₀ s} (a) (h : Evolves r s₀ s) : Evolves r s₀ (State.allocFailed s a) := by
  unfold State.allocFailed
  split
  · split
    · with_reducible refine State.kvFinish_evolves _ _ ?_
      with_reducible refine State.raise_evolves _ _ _ _ _ _ ?_
      exact h
    · exact h
  · split
    · with_reducible refine State.xWalkFault_evolves _ _ _ ?_
      with_reducible refine State.raise_evolves _ _ _ _ _ _ ?_
      with_reducible refine State.xGotPage_evolves _ ?_
      exact h
    · with_reducible refine State.xGotPage_evolves _ ?_
      exact h
  · split
    · with_reducible refine State.ringFail_evolves _ ?_
      with_reducible refine State.raise_evolves _ _ _ _ _ _ ?_
      exact h
    · with_reducible refine State.dropRing_evolves _ _ ?_
      exact h

theorem execAllocWaitExpire_evolves {s₀ s t} (a) (he : execAllocWaitExpire a s = .next t) (h : Evolves r s₀ s) : Evolves r s₀ t := by
  unfold execAllocWaitExpire at he
  cases he
  split
  · exact h
  · with_reducible refine Evolves.ite ?_ ?_
    · exact h
    · with_reducible refine State.allocFailed_evolves _ ?_
      exact h

theorem ringGo_evolves {s₀ s} (a b) (h : Evolves r s₀ s) : Evolves r s₀ (ringGo a b s) := by
  unfold ringGo
  extract_lets -underBinder -merge -useContext +onlyGivenNames v0
  try clear_value v0
  extract_lets -underBinder -merge -useContext +onlyGivenNames v1
  try clear_value v1
  extract_lets -underBinder -merge -useContext +onlyGivenNames v2
  try clear_value v2
  extract_lets -underBinder -merge -useContext +onlyGivenNames v3
  try clear_value v3
  extract_lets -underBinder -merge -useContext +onlyGivenNames v4
  have hv4 : Evolves r s₀ v4 := by
    with_reducible refine State.addReq_evolves _ ?_
    exact h
  try clear_value v4
  extract_lets -underBinder -merge -useContext +onlyGivenNames v5
  have hv5 : Evolves r s₀ v5 := by
    with_reducible refine Evolves.foldl (fun a6 x7 ha6 => ?_) ?_
    · with_reducible refine Evolves.foldl (fun a8 x9 ha8 => ?_) ?_
      · with_reducible refine State.ringPost_evolves _ _ ?_
        exact ha8
      · exact ha6
    · exact hv4
  try clear_value v5
  extract_lets -underBinder -merge -useContext +onlyGivenNames v10
  try clear_value v10
  with_reducible refine State.ringPost_evolves _ _ ?_
  exact hv5

theorem State.ringRead_evolves {s₀ s} (a) (h : Evolves r s₀ s) : Evolves r s₀ (State.ringRead s a).1 := by
  unfold State.ringRead
  with_reducible refine Evolves.foldl_fst (fun a0 x1 ha0 => ?_) ?_
  · with_reducible refine Evolves.ite_fst ?_ ?_
    · exact ha0
    · split
      · rename_i w2 w3 e4
        have hw2 : Evolves r s₀ w2 := Evolves.of_pair e4 (by
          with_reducible refine State.readLines_evolves _ _ _ ?_
          exact ha0)
        with_reducible refine Evolves.mk_fst ?_
        with_reducible refine State.farTouch_evolves _ _ _ ?_
        exact hw2
  · with_reducible refine Evolves.mk_fst ?_
    exact h

theorem ringStart_evolves {s₀ s} (a) (h : Evolves r s₀ s) : Evolves r s₀ (ringStart a s) := by
  unfold ringStart
  extract_lets -underBinder -merge -useContext +onlyGivenNames v0
  try clear_value v0
  with_reducible refine Evolves.ite ?_ ?_
  · exact h
  · with_reducible refine Evolves.ite ?_ ?_
    · with_reducible refine State.kvFinish_evolves _ _ ?_
      exact h
    · extract_lets -underBinder -merge -useContext +onlyGivenNames v1
      try clear_value v1
      with_reducible refine Evolves.ite ?_ ?_
      · exact h
      · split
        · rename_i w2 w3 e4
          have hw2 : Evolves r s₀ w2 := Evolves.of_pair e4 (by
            with_reducible refine State.ringRead_evolves _ ?_
            exact h)
          with_reducible refine Evolves.ite ?_ ?_
          · with_reducible refine State.kvFinish_evolves _ _ ?_
            exact hw2
          · with_reducible refine ringGo_evolves _ _ ?_
            exact hw2

theorem execRingSend_evolves {s₀ s t} (he : execRingSend s = .next t) (h : Evolves r s₀ s) : Evolves r s₀ t := by
  unfold execRingSend at he
  cases he
  with_reducible refine State.kvRun_evolves _ _ (fun y0 y1 hy1 => ?_) ?_
  · with_reducible refine ringStart_evolves _ ?_
    exact hy1
  · exact h

theorem execRingSendComplete_evolves {s₀ s t} (he : execRingSendComplete s = .next t) (h : Evolves r s₀ s) : Evolves r s₀ t := by
  unfold execRingSendComplete at he
  cases he
  with_reducible refine State.kvRun_evolves _ _ (fun y0 y1 hy1 => ?_) ?_
  · with_reducible refine Evolves.ite ?_ ?_
    · with_reducible refine State.kvFinish_evolves _ _ ?_
      with_reducible refine State.dropReqs_evolves _ ?_
      exact hy1
    · exact hy1
  · exact h

theorem execBulk_evolves {s₀ s t} (a) (he : execBulk a s = .next t) (h : Evolves r s₀ s) : Evolves r s₀ t := by
  unfold execBulk at he
  cases he
  with_reducible refine Evolves.ite ?_ ?_
  · exact h
  · split
    · with_reducible refine State.serveWrite_evolves _ _ _ _ _ ?_
      exact h
    · split
      · rename_i w4 e5
        have hw4 : Evolves r s₀ w4 := Evolves.of_pair e5 (by
          with_reducible refine State.ringTake_evolves _ _ ?_
          exact h)
        with_reducible refine State.consumed_evolves _ ?_
        exact hw4
      · rename_i w6 e7
        have hw6 : Evolves r s₀ w6 := Evolves.of_pair e7 (by
          with_reducible refine State.ringTake_evolves _ _ ?_
          exact h)
        exact hw6

theorem State.reqFailed_evolves {s₀ s} (a b) (h : Evolves r s₀ s) : Evolves r s₀ (State.reqFailed s a b) := by
  unfold State.reqFailed
  split
  · with_reducible refine State.advance_evolves _ ?_
    with_reducible refine State.xFault_evolves _ _ _ ?_
    with_reducible refine State.dropReq_evolves _ ?_
    exact h
  · with_reducible refine State.buddyFail_evolves _ ?_
    exact h
  · with_reducible refine State.ringAck_evolves _ _ ?_
    exact h

theorem execAck_evolves {s₀ s t} (a) (he : execAck a s = .next t) (h : Evolves r s₀ s) : Evolves r s₀ t := by
  unfold execAck at he
  cases he
  split
  · with_reducible refine Evolves.ite ?_ ?_
    · exact h
    · extract_lets -underBinder -merge -useContext +onlyGivenNames v2
      have hv2 : Evolves r s₀ v2 := by
        with_reducible refine State.consumed_evolves _ ?_
        exact h
      try clear_value v2
      split
      · exact hv2
      · with_reducible refine Evolves.ite ?_ ?_
        · with_reducible refine State.reqFailed_evolves _ _ ?_
          exact hv2
        · split
          · with_reducible refine State.advance_evolves _ ?_
            with_reducible refine State.dropReq_evolves _ ?_
            exact hv2
          · with_reducible refine State.dropReq_evolves _ ?_
            exact hv2
          · with_reducible refine State.ringAck_evolves _ _ ?_
            exact hv2
  · exact h

theorem execRemoteSignal_evolves {s₀ s t} (a) (he : execRemoteSignal a s = .next t) (h : Evolves r s₀ s) : Evolves r s₀ t := by
  unfold execRemoteSignal at he
  cases he
  split
  · with_reducible refine Evolves.ite ?_ ?_
    · extract_lets -underBinder -merge -useContext +onlyGivenNames v3
      have hv3 : Evolves r s₀ v3 := by
        with_reducible refine State.consumed_evolves _ ?_
        exact h
      try clear_value v3
      extract_lets -underBinder -merge -useContext +onlyGivenNames v4
      try clear_value v4
      with_reducible refine Evolves.ite ?_ ?_
      · with_reducible refine State.addCtr_evolves _ _ _ ?_
        exact hv3
      · exact hv3
    · exact h
  · exact h

theorem execAckTimeout_evolves {s₀ s t} (a) (he : execAckTimeout a s = .next t) (h : Evolves r s₀ s) : Evolves r s₀ t := by
  unfold execAckTimeout at he
  cases he
  extract_lets -underBinder -merge -useContext +onlyGivenNames v0
  try clear_value v0
  split
  · exact h
  · with_reducible refine Evolves.ite ?_ ?_
    · exact h
    · with_reducible refine State.reqFailed_evolves _ _ ?_
      exact h

theorem State.writePacked_evolves {s₀ s} (a b) (h : Evolves r s₀ s) : Evolves r s₀ (State.writePacked s a b) := by
  unfold State.writePacked
  split
  · exact h
  · with_reducible refine State.modTile_evolves _ _ ?_
    with_reducible refine State.setReg_evolves _ _ _ ?_
    exact h

theorem State.stashReadOf_evolves {s₀ s} (a b) (h : Evolves r s₀ s) : Evolves r s₀ (State.stashReadOf s a b) := by
  unfold State.stashReadOf
  with_reducible refine Evolves.ite ?_ ?_
  · with_reducible refine State.cause_evolves _ ?_
    with_reducible refine State.ctlPoison_evolves _ _ ?_
    exact h
  · with_reducible refine State.stashRead_evolves _ _ ?_
    exact h

theorem State.movComplete_evolves {s₀ s} (a) (h : Evolves r s₀ s) : Evolves r s₀ (State.movComplete s a) := by
  unfold State.movComplete
  extract_lets -underBinder -merge -useContext +onlyGivenNames v0
  have hv0 : Evolves r s₀ v0 := by
    with_reducible refine Evolves.ite ?_ ?_
    · with_reducible refine State.setLen_evolves _ _ ?_
      exact h
    · exact h
  try clear_value v0
  with_reducible refine Evolves.foldl (fun a1 x2 ha1 => ?_) ?_
  · with_reducible refine State.stashReadOf_evolves _ _ ?_
    exact ha1
  · exact hv0

theorem State.retireOwed_evolves {s₀ s} (a b c) (h : Evolves r s₀ s) : Evolves r s₀ (State.retireOwed s a b c) := by
  unfold State.retireOwed
  split
  · exact h
  · with_reducible refine Evolves.ite ?_ ?_
    · with_reducible refine Evolves.ite ?_ ?_
      · with_reducible refine State.send_evolves _ _ _ _ ?_
        exact h
      · exact h
    · with_reducible refine Evolves.ite ?_ ?_
      · with_reducible refine State.modStep_evolves _ ?_
        exact h
      · exact h
  · with_reducible refine Evolves.ite ?_ ?_
    · extract_lets -underBinder -merge -useContext +onlyGivenNames v3
      have hv3 : Evolves r s₀ v3 := by
        with_reducible refine State.movComplete_evolves _ ?_
        exact h
      try clear_value v3
      with_reducible refine Evolves.ite ?_ ?_
      · with_reducible refine State.send_evolves _ _ _ _ ?_
        exact hv3
      · exact hv3
    · extract_lets -underBinder -merge -useContext +onlyGivenNames v4
      have hv4 : Evolves r s₀ v4 := by
        with_reducible refine State.writePacked_evolves _ _ ?_
        with_reducible refine State.mergeAll_evolves _ _ _ ?_
        exact h
      try clear_value v4
      with_reducible refine Evolves.ite ?_ ?_
      · with_reducible refine State.updRetire_evolves _ ?_
        exact hv4
      · exact hv4

theorem State.retireRun_evolves {s₀ s} (a b c) (h : Evolves r s₀ s) : Evolves r s₀ (State.retireRun s a b c) := by
  unfold State.retireRun
  extract_lets -underBinder -merge -useContext +onlyGivenNames v0
  have hv0 : Evolves r s₀ v0 := by
    with_reducible refine State.retireOwed_evolves _ _ _ ?_
    exact h
  try clear_value v0
  extract_lets -underBinder -merge -useContext +onlyGivenNames v1
  have hv1 : Evolves r s₀ v1 := by
    with_reducible refine Evolves.ite ?_ ?_
    · with_reducible refine State.xFinish_evolves _ ?_
      exact hv0
    · exact hv0
  try clear_value v1
  extract_lets -underBinder -merge -useContext +onlyGivenNames v2
  have hv2 : Evolves r s₀ v2 := by
    with_reducible refine State.modTile_evolves _ _ ?_
    exact hv1
  try clear_value v2
  extract_lets -underBinder -merge -useContext +onlyGivenNames v3
  have hv3 : Evolves r s₀ v3 := by
    with_reducible refine State.retireSignals_evolves _ _ _ ?_
    exact hv2
  try clear_value v3
  with_reducible refine Evolves.ite ?_ ?_
  · exact hv3
  · with_reducible refine State.passHead_evolves _ _ ?_
    exact hv3

theorem State.settleMov_evolves {s₀ s} (a b) (h : Evolves r s₀ s) : Evolves r s₀ (State.settleMov s a b) := by
  unfold State.settleMov
  with_reducible refine Evolves.ite ?_ ?_
  · exact h
  · with_reducible refine Evolves.ite ?_ ?_
    · with_reducible refine State.xStop_evolves _ ?_
      exact h
    · with_reducible refine State.advance_evolves _ ?_
      exact h

theorem State.retireAt_evolves {s₀ s} (a b) (h : Evolves r s₀ s) : Evolves r s₀ (State.retireAt s a b) := by
  unfold State.retireAt
  extract_lets -underBinder -merge -useContext +onlyGivenNames v0
  try clear_value v0
  split
  · exact h
  · extract_lets -underBinder -merge -useContext +onlyGivenNames v3
    have hv3 : Evolves r s₀ v3 := by
      with_reducible refine State.settleMov_evolves _ _ ?_
      exact h
    try clear_value v3
    split
    · exact hv3
    · with_reducible refine Evolves.ite ?_ ?_
      · with_reducible refine State.retireRun_evolves _ _ _ ?_
        exact hv3
      · exact hv3

theorem execDescriptorRetire_evolves {s₀ s t} (a b) (he : execDescriptorRetire a b s = .next t) (h : Evolves r s₀ s) : Evolves r s₀ t := by
  unfold execDescriptorRetire at he
  cases he
  extract_lets -underBinder -merge -useContext +onlyGivenNames v0
  try clear_value v0
  with_reducible refine Evolves.ite ?_ ?_
  · exact h
  · with_reducible refine State.retireAt_evolves _ _ ?_
    exact h

theorem State.parkedStart_evolves {s₀ s} (a) (h : Evolves r s₀ s) : Evolves r s₀ (State.parkedStart s a) := by
  unfold State.parkedStart
  split
  · with_reducible refine mmaRun_evolves _ ?_
    exact h
  · with_reducible refine State.runEff_evolves _ _ ?_
    exact h
  · with_reducible refine vchRun_evolves _ ?_
    exact h
  · with_reducible refine State.movRun_evolves _ ?_
    exact h

theorem State.parkNow_evolves {s₀ s} (a) (h : Evolves r s₀ s) : Evolves r s₀ (State.parkNow s a) := by
  unfold State.parkNow
  with_reducible refine State.passHead_evolves _ _ ?_
  with_reducible refine State.modTile_evolves _ _ ?_
  exact h

theorem State.unparked_evolves {s₀ s} (a) (h : Evolves r s₀ s) : Evolves r s₀ (State.unparked s a) := by
  unfold State.unparked
  with_reducible refine State.modTile_evolves _ _ ?_
  exact h

theorem State.deferPark_evolves {s₀ s} (a) (h : Evolves r s₀ s) : Evolves r s₀ (State.deferPark s a) := by
  unfold State.deferPark
  split
  · exact h
  · with_reducible refine State.unparked_evolves _ ?_
    exact h
  · extract_lets -underBinder -merge -useContext +onlyGivenNames v3
    try clear_value v3
    extract_lets -underBinder -merge -useContext +onlyGivenNames v4
    try clear_value v4
    with_reducible refine Evolves.ite ?_ ?_
    · exact h
    · with_reducible refine Evolves.ite ?_ ?_
      · with_reducible refine State.unparked_evolves _ ?_
        exact h
      · with_reducible refine Evolves.ite ?_ ?_
        · with_reducible refine State.bump_evolves _ _ _ ?_
          with_reducible refine State.unparked_evolves _ ?_
          exact h
        · with_reducible refine State.parkNow_evolves _ ?_
          exact h

theorem execDeferPark_evolves {s₀ s t} (a b) (he : execDeferPark a b s = .next t) (h : Evolves r s₀ s) : Evolves r s₀ t := by
  unfold execDeferPark at he
  cases he
  extract_lets -underBinder -merge -useContext +onlyGivenNames v0
  try clear_value v0
  extract_lets -underBinder -merge -useContext +onlyGivenNames v1
  try clear_value v1
  with_reducible refine Evolves.ite ?_ ?_
  · exact h
  · with_reducible refine State.deferPark_evolves _ ?_
    exact h

theorem State.parkedIssue_evolves {s₀ s} (a) (h : Evolves r s₀ s) : Evolves r s₀ (State.parkedIssue s a) := by
  unfold State.parkedIssue
  extract_lets -underBinder -merge -useContext +onlyGivenNames v0
  try clear_value v0
  split
  · with_reducible refine State.modTile_evolves _ _ ?_
    exact h
  · split
    · with_reducible refine Evolves.ite ?_ ?_
      · with_reducible refine State.modTile_evolves _ _ ?_
        with_reducible refine State.parkedStart_evolves _ ?_
        with_reducible refine State.modTile_evolves _ _ ?_
        exact h
      · exact h
    · exact h

theorem execParkedIssue_evolves {s₀ s t} (a) (he : execParkedIssue a s = .next t) (h : Evolves r s₀ s) : Evolves r s₀ t := by
  unfold execParkedIssue at he
  cases he
  with_reducible refine Evolves.ite ?_ ?_
  · with_reducible refine State.parkedIssue_evolves _ ?_
    exact h
  · exact h

theorem State.resetHolder_evolves {s₀ s} (a b c) (h : Evolves r s₀ s) : Evolves r s₀ (State.resetHolder s a b c) := by
  unfold State.resetHolder
  split
  · with_reducible refine State.xReset_evolves _ _ ?_
    exact h
  · with_reducible refine State.modSample_evolves _ _ _ ?_
    with_reducible refine State.raise_evolves _ _ _ _ _ _ ?_
    with_reducible refine State.bump_evolves _ _ _ ?_
    exact h
  · exact h

theorem execCrossingWdog_evolves {s₀ s t} (a b) (he : execCrossingWdog a b s = .next t) (h : Evolves r s₀ s) : Evolves r s₀ t := by
  unfold execCrossingWdog at he
  cases he
  extract_lets -underBinder -merge -useContext +onlyGivenNames v0
  try clear_value v0
  split
  · exact h
  · with_reducible refine Evolves.ite ?_ ?_
    · exact h
    · extract_lets -underBinder -merge -useContext +onlyGivenNames v4
      have hv4 : Evolves r s₀ v4 := by
        with_reducible refine State.resetHolder_evolves _ _ _ ?_
        with_reducible refine State.endGrant_evolves _ _ ?_
        exact h
      try clear_value v4
      with_reducible refine State.raise_evolves _ _ _ _ _ _ ?_
      with_reducible refine State.bump_evolves _ _ _ ?_
      exact hv4

theorem State.tick_evolves {s₀ s} (h : Evolves r s₀ s) : Evolves r s₀ (State.tick s) := by
  unfold State.tick
  with_reducible refine Evolves.ite ?_ ?_
  · with_reducible refine State.drainCtl_evolves ?_
    with_reducible refine State.passTime_evolves ?_
    exact h
  · exact h

end Sys2Proof.Machine
end

