-- ==== Sys2Proof/Laws/State.lean ====
section
/-! SUPPORT. Laws/State.lean: one lemma for each field and each update of the state that leaves the field alone, and what a
register, a byte of memory and a tile's store read as after an update. -/
namespace Sys2Proof.Machine

variable (s : State)


@[simp] theorem State.setReg_mt (a b c) : (s.setReg a b c).mt = s.mt := rfl
@[simp] theorem State.setReg_aoOn (a b c) : (s.setReg a b c).aoOn = s.aoOn := rfl
@[simp] theorem State.setReg_hold (a b c) : (s.setReg a b c).hold = s.hold := rfl
@[simp] theorem State.setReg_mem (a b c) : (s.setReg a b c).mem = s.mem := rfl
@[simp] theorem State.setReg_poison (a b c) : (s.setReg a b c).poison = s.poison := rfl
@[simp] theorem State.setReg_upsets (a b c) : (s.setReg a b c).upsets = s.upsets := rfl
@[simp] theorem State.setReg_ceWin (a b c) : (s.setReg a b c).ceWin = s.ceWin := rfl
@[simp] theorem State.setReg_scrubPos (a b c) : (s.setReg a b c).scrubPos = s.scrubPos := rfl
@[simp] theorem State.setReg_tiles (a b c) : (s.setReg a b c).tiles = s.tiles := rfl
@[simp] theorem State.setReg_signals (a b c) : (s.setReg a b c).signals = s.signals := rfl
@[simp] theorem State.setReg_arrivals (a b c) : (s.setReg a b c).arrivals = s.arrivals := rfl
@[simp] theorem State.setReg_barriers (a b c) : (s.setReg a b c).barriers = s.barriers := rfl
@[simp] theorem State.setReg_step (a b c) : (s.setReg a b c).step = s.step := rfl
@[simp] theorem State.setReg_ctlOut (a b c) : (s.setReg a b c).ctlOut = s.ctlOut := rfl
@[simp] theorem State.setReg_log (a b c) : (s.setReg a b c).log = s.log := rfl
@[simp] theorem State.setReg_logLatch (a b c) : (s.setReg a b c).logLatch = s.logLatch := rfl
@[simp] theorem State.setReg_logOverwrote (a b c) : (s.setReg a b c).logOverwrote = s.logOverwrote := rfl
@[simp] theorem State.setReg_voidCause (a b c) : (s.setReg a b c).voidCause = s.voidCause := rfl
@[simp] theorem State.setReg_ports (a b c) : (s.setReg a b c).ports = s.ports := rfl
@[simp] theorem State.setReg_pools (a b c) : (s.setReg a b c).pools = s.pools := rfl
@[simp] theorem State.setReg_kvWaiters (a b c) : (s.setReg a b c).kvWaiters = s.kvWaiters := rfl
@[simp] theorem State.setReg_rings (a b c) : (s.setReg a b c).rings = s.rings := rfl
@[simp] theorem State.setReg_dispatch (a b c) : (s.setReg a b c).dispatch = s.dispatch := rfl
@[simp] theorem State.setReg_crossings (a b c) : (s.setReg a b c).crossings = s.crossings := rfl
@[simp] theorem State.setReg_streams (a b c) : (s.setReg a b c).streams = s.streams := rfl
@[simp] theorem State.setReg_tokQueue (a b c) : (s.setReg a b c).tokQueue = s.tokQueue := rfl
@[simp] theorem State.setReg_encoders (a b c) : (s.setReg a b c).encoders = s.encoders := rfl
@[simp] theorem State.setReg_chk (a b c) : (s.setReg a b c).chk = s.chk := rfl
@[simp] theorem State.setReg_links (a b c) : (s.setReg a b c).links = s.links := rfl
@[simp] theorem State.setReg_stranded (a b c) : (s.setReg a b c).stranded = s.stranded := rfl
@[simp] theorem State.setReg_routes (a b c) : (s.setReg a b c).routes = s.routes := rfl
@[simp] theorem State.setReg_linkKeys (a b c) : (s.setReg a b c).linkKeys = s.linkKeys := rfl
@[simp] theorem State.setReg_gate (a b c) : (s.setReg a b c).gate = s.gate := rfl
@[simp] theorem State.setReg_stashStacks (a b c) : (s.setReg a b c).stashStacks = s.stashStacks := rfl
@[simp] theorem State.setReg_ckp (a b c) : (s.setReg a b c).ckp = s.ckp := rfl
@[simp] theorem State.setReg_xfers (a b c) : (s.setReg a b c).xfers = s.xfers := rfl
@[simp] theorem State.setReg_reqs (a b c) : (s.setReg a b c).reqs = s.reqs := rfl
@[simp] theorem State.setReg_nextReq (a b c) : (s.setReg a b c).nextReq = s.nextReq := rfl
@[simp] theorem State.setReg_timeSynced (a b c) : (s.setReg a b c).timeSynced = s.timeSynced := rfl
@[simp] theorem State.setReg_timeGood (a b c) : (s.setReg a b c).timeGood = s.timeGood := rfl
@[simp] theorem State.setReg_timeMissed (a b c) : (s.setReg a b c).timeMissed = s.timeMissed := rfl
@[simp] theorem State.setReg_slew (a b c) : (s.setReg a b c).slew = s.slew := rfl
@[simp] theorem State.setReg_slewTicks (a b c) : (s.setReg a b c).slewTicks = s.slewTicks := rfl
@[simp] theorem State.setReg_queues (a b c) : (s.setReg a b c).queues = s.queues := rfl
@[simp] theorem State.setReg_sec (a b c) : (s.setReg a b c).sec = s.sec := rfl
@[simp] theorem State.setReg_pwr (a b c) : (s.setReg a b c).pwr = s.pwr := rfl
@[simp] theorem State.setReg_bst (a b c) : (s.setReg a b c).bst = s.bst := rfl
@[simp] theorem State.setReg_tap (a b c) : (s.setReg a b c).tap = s.tap := rfl
@[simp] theorem State.setReg_srstBusy (a b c) : (s.setReg a b c).srstBusy = s.srstBusy := rfl
@[simp] theorem State.setReg_dbgStep (a b c) : (s.setReg a b c).dbgStep = s.dbgStep := rfl
@[simp] theorem State.setReg_out (a b c) : (s.setReg a b c).out = s.out := rfl
@[simp] theorem State.setReg_answer (a b c) : (s.setReg a b c).answer = s.answer := rfl
@[simp] theorem State.setReg_freeCtr (a b c) : (s.setReg a b c).freeCtr = s.freeCtr := rfl
@[simp] theorem State.setReg_pending (a b c) : (s.setReg a b c).pending = s.pending := rfl

@[simp] theorem State.resetBlock_mt (a) : (s.resetBlock a).mt = s.mt := rfl
@[simp] theorem State.resetBlock_aoOn (a) : (s.resetBlock a).aoOn = s.aoOn := rfl
@[simp] theorem State.resetBlock_hold (a) : (s.resetBlock a).hold = s.hold := rfl
@[simp] theorem State.resetBlock_mem (a) : (s.resetBlock a).mem = s.mem := rfl
@[simp] theorem State.resetBlock_poison (a) : (s.resetBlock a).poison = s.poison := rfl
@[simp] theorem State.resetBlock_upsets (a) : (s.resetBlock a).upsets = s.upsets := rfl
@[simp] theorem State.resetBlock_ceWin (a) : (s.resetBlock a).ceWin = s.ceWin := rfl
@[simp] theorem State.resetBlock_scrubPos (a) : (s.resetBlock a).scrubPos = s.scrubPos := rfl
@[simp] theorem State.resetBlock_tiles (a) : (s.resetBlock a).tiles = s.tiles := rfl
@[simp] theorem State.resetBlock_signals (a) : (s.resetBlock a).signals = s.signals := rfl
@[simp] theorem State.resetBlock_arrivals (a) : (s.resetBlock a).arrivals = s.arrivals := rfl
@[simp] theorem State.resetBlock_barriers (a) : (s.resetBlock a).barriers = s.barriers := rfl
@[simp] theorem State.resetBlock_step (a) : (s.resetBlock a).step = s.step := rfl
@[simp] theorem State.resetBlock_ctlOut (a) : (s.resetBlock a).ctlOut = s.ctlOut := rfl
@[simp] theorem State.resetBlock_log (a) : (s.resetBlock a).log = s.log := rfl
@[simp] theorem State.resetBlock_logLatch (a) : (s.resetBlock a).logLatch = s.logLatch := rfl
@[simp] theorem State.resetBlock_logOverwrote (a) : (s.resetBlock a).logOverwrote = s.logOverwrote := rfl
@[simp] theorem State.resetBlock_voidCause (a) : (s.resetBlock a).voidCause = s.voidCause := rfl
@[simp] theorem State.resetBlock_ports (a) : (s.resetBlock a).ports = s.ports := rfl
@[simp] theorem State.resetBlock_pools (a) : (s.resetBlock a).pools = s.pools := rfl
@[simp] theorem State.resetBlock_kvWaiters (a) : (s.resetBlock a).kvWaiters = s.kvWaiters := rfl
@[simp] theorem State.resetBlock_rings (a) : (s.resetBlock a).rings = s.rings := rfl
@[simp] theorem State.resetBlock_dispatch (a) : (s.resetBlock a).dispatch = s.dispatch := rfl
@[simp] theorem State.resetBlock_crossings (a) : (s.resetBlock a).crossings = s.crossings := rfl
@[simp] theorem State.resetBlock_streams (a) : (s.resetBlock a).streams = s.streams := rfl
@[simp] theorem State.resetBlock_tokQueue (a) : (s.resetBlock a).tokQueue = s.tokQueue := rfl
@[simp] theorem State.resetBlock_encoders (a) : (s.resetBlock a).encoders = s.encoders := rfl
@[simp] theorem State.resetBlock_chk (a) : (s.resetBlock a).chk = s.chk := rfl
@[simp] theorem State.resetBlock_links (a) : (s.resetBlock a).links = s.links := rfl
@[simp] theorem State.resetBlock_stranded (a) : (s.resetBlock a).stranded = s.stranded := rfl
@[simp] theorem State.resetBlock_routes (a) : (s.resetBlock a).routes = s.routes := rfl
@[simp] theorem State.resetBlock_linkKeys (a) : (s.resetBlock a).linkKeys = s.linkKeys := rfl
@[simp] theorem State.resetBlock_gate (a) : (s.resetBlock a).gate = s.gate := rfl
@[simp] theorem State.resetBlock_stashStacks (a) : (s.resetBlock a).stashStacks = s.stashStacks := rfl
@[simp] theorem State.resetBlock_ckp (a) : (s.resetBlock a).ckp = s.ckp := rfl
@[simp] theorem State.resetBlock_xfers (a) : (s.resetBlock a).xfers = s.xfers := rfl
@[simp] theorem State.resetBlock_reqs (a) : (s.resetBlock a).reqs = s.reqs := rfl
@[simp] theorem State.resetBlock_nextReq (a) : (s.resetBlock a).nextReq = s.nextReq := rfl
@[simp] theorem State.resetBlock_timeSynced (a) : (s.resetBlock a).timeSynced = s.timeSynced := rfl
@[simp] theorem State.resetBlock_timeGood (a) : (s.resetBlock a).timeGood = s.timeGood := rfl
@[simp] theorem State.resetBlock_timeMissed (a) : (s.resetBlock a).timeMissed = s.timeMissed := rfl
@[simp] theorem State.resetBlock_slew (a) : (s.resetBlock a).slew = s.slew := rfl
@[simp] theorem State.resetBlock_slewTicks (a) : (s.resetBlock a).slewTicks = s.slewTicks := rfl
@[simp] theorem State.resetBlock_queues (a) : (s.resetBlock a).queues = s.queues := rfl
@[simp] theorem State.resetBlock_sec (a) : (s.resetBlock a).sec = s.sec := rfl
@[simp] theorem State.resetBlock_pwr (a) : (s.resetBlock a).pwr = s.pwr := rfl
@[simp] theorem State.resetBlock_bst (a) : (s.resetBlock a).bst = s.bst := rfl
@[simp] theorem State.resetBlock_tap (a) : (s.resetBlock a).tap = s.tap := rfl
@[simp] theorem State.resetBlock_srstBusy (a) : (s.resetBlock a).srstBusy = s.srstBusy := rfl
@[simp] theorem State.resetBlock_dbgStep (a) : (s.resetBlock a).dbgStep = s.dbgStep := rfl
@[simp] theorem State.resetBlock_out (a) : (s.resetBlock a).out = s.out := rfl
@[simp] theorem State.resetBlock_answer (a) : (s.resetBlock a).answer = s.answer := rfl
@[simp] theorem State.resetBlock_freeCtr (a) : (s.resetBlock a).freeCtr = s.freeCtr := rfl
@[simp] theorem State.resetBlock_pending (a) : (s.resetBlock a).pending = s.pending := rfl

@[simp] theorem State.resetPage_mt (a) : (s.resetPage a).mt = s.mt := rfl
@[simp] theorem State.resetPage_aoOn (a) : (s.resetPage a).aoOn = s.aoOn := rfl
@[simp] theorem State.resetPage_hold (a) : (s.resetPage a).hold = s.hold := rfl
@[simp] theorem State.resetPage_mem (a) : (s.resetPage a).mem = s.mem := rfl
@[simp] theorem State.resetPage_poison (a) : (s.resetPage a).poison = s.poison := rfl
@[simp] theorem State.resetPage_upsets (a) : (s.resetPage a).upsets = s.upsets := rfl
@[simp] theorem State.resetPage_ceWin (a) : (s.resetPage a).ceWin = s.ceWin := rfl
@[simp] theorem State.resetPage_scrubPos (a) : (s.resetPage a).scrubPos = s.scrubPos := rfl
@[simp] theorem State.resetPage_tiles (a) : (s.resetPage a).tiles = s.tiles := rfl
@[simp] theorem State.resetPage_signals (a) : (s.resetPage a).signals = s.signals := rfl
@[simp] theorem State.resetPage_arrivals (a) : (s.resetPage a).arrivals = s.arrivals := rfl
@[simp] theorem State.resetPage_barriers (a) : (s.resetPage a).barriers = s.barriers := rfl
@[simp] theorem State.resetPage_step (a) : (s.resetPage a).step = s.step := rfl
@[simp] theorem State.resetPage_ctlOut (a) : (s.resetPage a).ctlOut = s.ctlOut := rfl
@[simp] theorem State.resetPage_log (a) : (s.resetPage a).log = s.log := rfl
@[simp] theorem State.resetPage_logLatch (a) : (s.resetPage a).logLatch = s.logLatch := rfl
@[simp] theorem State.resetPage_logOverwrote (a) : (s.resetPage a).logOverwrote = s.logOverwrote := rfl
@[simp] theorem State.resetPage_voidCause (a) : (s.resetPage a).voidCause = s.voidCause := rfl
@[simp] theorem State.resetPage_ports (a) : (s.resetPage a).ports = s.ports := rfl
@[simp] theorem State.resetPage_pools (a) : (s.resetPage a).pools = s.pools := rfl
@[simp] theorem State.resetPage_kvWaiters (a) : (s.resetPage a).kvWaiters = s.kvWaiters := rfl
@[simp] theorem State.resetPage_rings (a) : (s.resetPage a).rings = s.rings := rfl
@[simp] theorem State.resetPage_dispatch (a) : (s.resetPage a).dispatch = s.dispatch := rfl
@[simp] theorem State.resetPage_crossings (a) : (s.resetPage a).crossings = s.crossings := rfl
@[simp] theorem State.resetPage_streams (a) : (s.resetPage a).streams = s.streams := rfl
@[simp] theorem State.resetPage_tokQueue (a) : (s.resetPage a).tokQueue = s.tokQueue := rfl
@[simp] theorem State.resetPage_encoders (a) : (s.resetPage a).encoders = s.encoders := rfl
@[simp] theorem State.resetPage_chk (a) : (s.resetPage a).chk = s.chk := rfl
@[simp] theorem State.resetPage_links (a) : (s.resetPage a).links = s.links := rfl
@[simp] theorem State.resetPage_stranded (a) : (s.resetPage a).stranded = s.stranded := rfl
@[simp] theorem State.resetPage_routes (a) : (s.resetPage a).routes = s.routes := rfl
@[simp] theorem State.resetPage_linkKeys (a) : (s.resetPage a).linkKeys = s.linkKeys := rfl
@[simp] theorem State.resetPage_gate (a) : (s.resetPage a).gate = s.gate := rfl
@[simp] theorem State.resetPage_stashStacks (a) : (s.resetPage a).stashStacks = s.stashStacks := rfl
@[simp] theorem State.resetPage_ckp (a) : (s.resetPage a).ckp = s.ckp := rfl
@[simp] theorem State.resetPage_xfers (a) : (s.resetPage a).xfers = s.xfers := rfl
@[simp] theorem State.resetPage_reqs (a) : (s.resetPage a).reqs = s.reqs := rfl
@[simp] theorem State.resetPage_nextReq (a) : (s.resetPage a).nextReq = s.nextReq := rfl
@[simp] theorem State.resetPage_timeSynced (a) : (s.resetPage a).timeSynced = s.timeSynced := rfl
@[simp] theorem State.resetPage_timeGood (a) : (s.resetPage a).timeGood = s.timeGood := rfl
@[simp] theorem State.resetPage_timeMissed (a) : (s.resetPage a).timeMissed = s.timeMissed := rfl
@[simp] theorem State.resetPage_slew (a) : (s.resetPage a).slew = s.slew := rfl
@[simp] theorem State.resetPage_slewTicks (a) : (s.resetPage a).slewTicks = s.slewTicks := rfl
@[simp] theorem State.resetPage_queues (a) : (s.resetPage a).queues = s.queues := rfl
@[simp] theorem State.resetPage_sec (a) : (s.resetPage a).sec = s.sec := rfl
@[simp] theorem State.resetPage_pwr (a) : (s.resetPage a).pwr = s.pwr := rfl
@[simp] theorem State.resetPage_bst (a) : (s.resetPage a).bst = s.bst := rfl
@[simp] theorem State.resetPage_tap (a) : (s.resetPage a).tap = s.tap := rfl
@[simp] theorem State.resetPage_srstBusy (a) : (s.resetPage a).srstBusy = s.srstBusy := rfl
@[simp] theorem State.resetPage_dbgStep (a) : (s.resetPage a).dbgStep = s.dbgStep := rfl
@[simp] theorem State.resetPage_out (a) : (s.resetPage a).out = s.out := rfl
@[simp] theorem State.resetPage_answer (a) : (s.resetPage a).answer = s.answer := rfl
@[simp] theorem State.resetPage_freeCtr (a) : (s.resetPage a).freeCtr = s.freeCtr := rfl
@[simp] theorem State.resetPage_pending (a) : (s.resetPage a).pending = s.pending := rfl

@[simp] theorem State.setByte_mt (a b) : (s.setByte a b).mt = s.mt := rfl
@[simp] theorem State.setByte_aoOn (a b) : (s.setByte a b).aoOn = s.aoOn := rfl
@[simp] theorem State.setByte_hold (a b) : (s.setByte a b).hold = s.hold := rfl
@[simp] theorem State.setByte_regs (a b) : (s.setByte a b).regs = s.regs := rfl
@[simp] theorem State.setByte_poison (a b) : (s.setByte a b).poison = s.poison := rfl
@[simp] theorem State.setByte_upsets (a b) : (s.setByte a b).upsets = s.upsets := rfl
@[simp] theorem State.setByte_ceWin (a b) : (s.setByte a b).ceWin = s.ceWin := rfl
@[simp] theorem State.setByte_scrubPos (a b) : (s.setByte a b).scrubPos = s.scrubPos := rfl
@[simp] theorem State.setByte_tiles (a b) : (s.setByte a b).tiles = s.tiles := rfl
@[simp] theorem State.setByte_signals (a b) : (s.setByte a b).signals = s.signals := rfl
@[simp] theorem State.setByte_arrivals (a b) : (s.setByte a b).arrivals = s.arrivals := rfl
@[simp] theorem State.setByte_barriers (a b) : (s.setByte a b).barriers = s.barriers := rfl
@[simp] theorem State.setByte_step (a b) : (s.setByte a b).step = s.step := rfl
@[simp] theorem State.setByte_ctlOut (a b) : (s.setByte a b).ctlOut = s.ctlOut := rfl
@[simp] theorem State.setByte_log (a b) : (s.setByte a b).log = s.log := rfl
@[simp] theorem State.setByte_logLatch (a b) : (s.setByte a b).logLatch = s.logLatch := rfl
@[simp] theorem State.setByte_logOverwrote (a b) : (s.setByte a b).logOverwrote = s.logOverwrote := rfl
@[simp] theorem State.setByte_voidCause (a b) : (s.setByte a b).voidCause = s.voidCause := rfl
@[simp] theorem State.setByte_ports (a b) : (s.setByte a b).ports = s.ports := rfl
@[simp] theorem State.setByte_pools (a b) : (s.setByte a b).pools = s.pools := rfl
@[simp] theorem State.setByte_kvWaiters (a b) : (s.setByte a b).kvWaiters = s.kvWaiters := rfl
@[simp] theorem State.setByte_rings (a b) : (s.setByte a b).rings = s.rings := rfl
@[simp] theorem State.setByte_dispatch (a b) : (s.setByte a b).dispatch = s.dispatch := rfl
@[simp] theorem State.setByte_crossings (a b) : (s.setByte a b).crossings = s.crossings := rfl
@[simp] theorem State.setByte_streams (a b) : (s.setByte a b).streams = s.streams := rfl
@[simp] theorem State.setByte_tokQueue (a b) : (s.setByte a b).tokQueue = s.tokQueue := rfl
@[simp] theorem State.setByte_encoders (a b) : (s.setByte a b).encoders = s.encoders := rfl
@[simp] theorem State.setByte_chk (a b) : (s.setByte a b).chk = s.chk := rfl
@[simp] theorem State.setByte_links (a b) : (s.setByte a b).links = s.links := rfl
@[simp] theorem State.setByte_stranded (a b) : (s.setByte a b).stranded = s.stranded := rfl
@[simp] theorem State.setByte_routes (a b) : (s.setByte a b).routes = s.routes := rfl
@[simp] theorem State.setByte_linkKeys (a b) : (s.setByte a b).linkKeys = s.linkKeys := rfl
@[simp] theorem State.setByte_gate (a b) : (s.setByte a b).gate = s.gate := rfl
@[simp] theorem State.setByte_stashStacks (a b) : (s.setByte a b).stashStacks = s.stashStacks := rfl
@[simp] theorem State.setByte_ckp (a b) : (s.setByte a b).ckp = s.ckp := rfl
@[simp] theorem State.setByte_xfers (a b) : (s.setByte a b).xfers = s.xfers := rfl
@[simp] theorem State.setByte_reqs (a b) : (s.setByte a b).reqs = s.reqs := rfl
@[simp] theorem State.setByte_nextReq (a b) : (s.setByte a b).nextReq = s.nextReq := rfl
@[simp] theorem State.setByte_timeSynced (a b) : (s.setByte a b).timeSynced = s.timeSynced := rfl
@[simp] theorem State.setByte_timeGood (a b) : (s.setByte a b).timeGood = s.timeGood := rfl
@[simp] theorem State.setByte_timeMissed (a b) : (s.setByte a b).timeMissed = s.timeMissed := rfl
@[simp] theorem State.setByte_slew (a b) : (s.setByte a b).slew = s.slew := rfl
@[simp] theorem State.setByte_slewTicks (a b) : (s.setByte a b).slewTicks = s.slewTicks := rfl
@[simp] theorem State.setByte_queues (a b) : (s.setByte a b).queues = s.queues := rfl
@[simp] theorem State.setByte_sec (a b) : (s.setByte a b).sec = s.sec := rfl
@[simp] theorem State.setByte_pwr (a b) : (s.setByte a b).pwr = s.pwr := rfl
@[simp] theorem State.setByte_bst (a b) : (s.setByte a b).bst = s.bst := rfl
@[simp] theorem State.setByte_tap (a b) : (s.setByte a b).tap = s.tap := rfl
@[simp] theorem State.setByte_srstBusy (a b) : (s.setByte a b).srstBusy = s.srstBusy := rfl
@[simp] theorem State.setByte_dbgStep (a b) : (s.setByte a b).dbgStep = s.dbgStep := rfl
@[simp] theorem State.setByte_out (a b) : (s.setByte a b).out = s.out := rfl
@[simp] theorem State.setByte_answer (a b) : (s.setByte a b).answer = s.answer := rfl
@[simp] theorem State.setByte_freeCtr (a b) : (s.setByte a b).freeCtr = s.freeCtr := rfl
@[simp] theorem State.setByte_pending (a b) : (s.setByte a b).pending = s.pending := rfl

@[simp] theorem State.store_mt (a b) : (s.store a b).mt = s.mt := rfl
@[simp] theorem State.store_aoOn (a b) : (s.store a b).aoOn = s.aoOn := rfl
@[simp] theorem State.store_hold (a b) : (s.store a b).hold = s.hold := rfl
@[simp] theorem State.store_regs (a b) : (s.store a b).regs = s.regs := rfl
@[simp] theorem State.store_ceWin (a b) : (s.store a b).ceWin = s.ceWin := rfl
@[simp] theorem State.store_scrubPos (a b) : (s.store a b).scrubPos = s.scrubPos := rfl
@[simp] theorem State.store_tiles (a b) : (s.store a b).tiles = s.tiles := rfl
@[simp] theorem State.store_signals (a b) : (s.store a b).signals = s.signals := rfl
@[simp] theorem State.store_arrivals (a b) : (s.store a b).arrivals = s.arrivals := rfl
@[simp] theorem State.store_barriers (a b) : (s.store a b).barriers = s.barriers := rfl
@[simp] theorem State.store_step (a b) : (s.store a b).step = s.step := rfl
@[simp] theorem State.store_ctlOut (a b) : (s.store a b).ctlOut = s.ctlOut := rfl
@[simp] theorem State.store_log (a b) : (s.store a b).log = s.log := rfl
@[simp] theorem State.store_logLatch (a b) : (s.store a b).logLatch = s.logLatch := rfl
@[simp] theorem State.store_logOverwrote (a b) : (s.store a b).logOverwrote = s.logOverwrote := rfl
@[simp] theorem State.store_voidCause (a b) : (s.store a b).voidCause = s.voidCause := rfl
@[simp] theorem State.store_ports (a b) : (s.store a b).ports = s.ports := rfl
@[simp] theorem State.store_pools (a b) : (s.store a b).pools = s.pools := rfl
@[simp] theorem State.store_kvWaiters (a b) : (s.store a b).kvWaiters = s.kvWaiters := rfl
@[simp] theorem State.store_rings (a b) : (s.store a b).rings = s.rings := rfl
@[simp] theorem State.store_dispatch (a b) : (s.store a b).dispatch = s.dispatch := rfl
@[simp] theorem State.store_crossings (a b) : (s.store a b).crossings = s.crossings := rfl
@[simp] theorem State.store_streams (a b) : (s.store a b).streams = s.streams := rfl
@[simp] theorem State.store_tokQueue (a b) : (s.store a b).tokQueue = s.tokQueue := rfl
@[simp] theorem State.store_encoders (a b) : (s.store a b).encoders = s.encoders := rfl
@[simp] theorem State.store_chk (a b) : (s.store a b).chk = s.chk := rfl
@[simp] theorem State.store_links (a b) : (s.store a b).links = s.links := rfl
@[simp] theorem State.store_stranded (a b) : (s.store a b).stranded = s.stranded := rfl
@[simp] theorem State.store_routes (a b) : (s.store a b).routes = s.routes := rfl
@[simp] theorem State.store_linkKeys (a b) : (s.store a b).linkKeys = s.linkKeys := rfl
@[simp] theorem State.store_gate (a b) : (s.store a b).gate = s.gate := rfl
@[simp] theorem State.store_stashStacks (a b) : (s.store a b).stashStacks = s.stashStacks := rfl
@[simp] theorem State.store_ckp (a b) : (s.store a b).ckp = s.ckp := rfl
@[simp] theorem State.store_xfers (a b) : (s.store a b).xfers = s.xfers := rfl
@[simp] theorem State.store_reqs (a b) : (s.store a b).reqs = s.reqs := rfl
@[simp] theorem State.store_nextReq (a b) : (s.store a b).nextReq = s.nextReq := rfl
@[simp] theorem State.store_timeSynced (a b) : (s.store a b).timeSynced = s.timeSynced := rfl
@[simp] theorem State.store_timeGood (a b) : (s.store a b).timeGood = s.timeGood := rfl
@[simp] theorem State.store_timeMissed (a b) : (s.store a b).timeMissed = s.timeMissed := rfl
@[simp] theorem State.store_slew (a b) : (s.store a b).slew = s.slew := rfl
@[simp] theorem State.store_slewTicks (a b) : (s.store a b).slewTicks = s.slewTicks := rfl
@[simp] theorem State.store_queues (a b) : (s.store a b).queues = s.queues := rfl
@[simp] theorem State.store_sec (a b) : (s.store a b).sec = s.sec := rfl
@[simp] theorem State.store_pwr (a b) : (s.store a b).pwr = s.pwr := rfl
@[simp] theorem State.store_bst (a b) : (s.store a b).bst = s.bst := rfl
@[simp] theorem State.store_tap (a b) : (s.store a b).tap = s.tap := rfl
@[simp] theorem State.store_srstBusy (a b) : (s.store a b).srstBusy = s.srstBusy := rfl
@[simp] theorem State.store_dbgStep (a b) : (s.store a b).dbgStep = s.dbgStep := rfl
@[simp] theorem State.store_out (a b) : (s.store a b).out = s.out := rfl
@[simp] theorem State.store_answer (a b) : (s.store a b).answer = s.answer := rfl
@[simp] theorem State.store_freeCtr (a b) : (s.store a b).freeCtr = s.freeCtr := rfl
@[simp] theorem State.store_pending (a b) : (s.store a b).pending = s.pending := rfl

@[simp] theorem State.storeLe_mt (a b c) : (s.storeLe a b c).mt = s.mt := rfl
@[simp] theorem State.storeLe_aoOn (a b c) : (s.storeLe a b c).aoOn = s.aoOn := rfl
@[simp] theorem State.storeLe_hold (a b c) : (s.storeLe a b c).hold = s.hold := rfl
@[simp] theorem State.storeLe_regs (a b c) : (s.storeLe a b c).regs = s.regs := rfl
@[simp] theorem State.storeLe_ceWin (a b c) : (s.storeLe a b c).ceWin = s.ceWin := rfl
@[simp] theorem State.storeLe_scrubPos (a b c) : (s.storeLe a b c).scrubPos = s.scrubPos := rfl
@[simp] theorem State.storeLe_tiles (a b c) : (s.storeLe a b c).tiles = s.tiles := rfl
@[simp] theorem State.storeLe_signals (a b c) : (s.storeLe a b c).signals = s.signals := rfl
@[simp] theorem State.storeLe_arrivals (a b c) : (s.storeLe a b c).arrivals = s.arrivals := rfl
@[simp] theorem State.storeLe_barriers (a b c) : (s.storeLe a b c).barriers = s.barriers := rfl
@[simp] theorem State.storeLe_step (a b c) : (s.storeLe a b c).step = s.step := rfl
@[simp] theorem State.storeLe_ctlOut (a b c) : (s.storeLe a b c).ctlOut = s.ctlOut := rfl
@[simp] theorem State.storeLe_log (a b c) : (s.storeLe a b c).log = s.log := rfl
@[simp] theorem State.storeLe_logLatch (a b c) : (s.storeLe a b c).logLatch = s.logLatch := rfl
@[simp] theorem State.storeLe_logOverwrote (a b c) : (s.storeLe a b c).logOverwrote = s.logOverwrote := rfl
@[simp] theorem State.storeLe_voidCause (a b c) : (s.storeLe a b c).voidCause = s.voidCause := rfl
@[simp] theorem State.storeLe_ports (a b c) : (s.storeLe a b c).ports = s.ports := rfl
@[simp] theorem State.storeLe_pools (a b c) : (s.storeLe a b c).pools = s.pools := rfl
@[simp] theorem State.storeLe_kvWaiters (a b c) : (s.storeLe a b c).kvWaiters = s.kvWaiters := rfl
@[simp] theorem State.storeLe_rings (a b c) : (s.storeLe a b c).rings = s.rings := rfl
@[simp] theorem State.storeLe_dispatch (a b c) : (s.storeLe a b c).dispatch = s.dispatch := rfl
@[simp] theorem State.storeLe_crossings (a b c) : (s.storeLe a b c).crossings = s.crossings := rfl
@[simp] theorem State.storeLe_streams (a b c) : (s.storeLe a b c).streams = s.streams := rfl
@[simp] theorem State.storeLe_tokQueue (a b c) : (s.storeLe a b c).tokQueue = s.tokQueue := rfl
@[simp] theorem State.storeLe_encoders (a b c) : (s.storeLe a b c).encoders = s.encoders := rfl
@[simp] theorem State.storeLe_chk (a b c) : (s.storeLe a b c).chk = s.chk := rfl
@[simp] theorem State.storeLe_links (a b c) : (s.storeLe a b c).links = s.links := rfl
@[simp] theorem State.storeLe_stranded (a b c) : (s.storeLe a b c).stranded = s.stranded := rfl
@[simp] theorem State.storeLe_routes (a b c) : (s.storeLe a b c).routes = s.routes := rfl
@[simp] theorem State.storeLe_linkKeys (a b c) : (s.storeLe a b c).linkKeys = s.linkKeys := rfl
@[simp] theorem State.storeLe_gate (a b c) : (s.storeLe a b c).gate = s.gate := rfl
@[simp] theorem State.storeLe_stashStacks (a b c) : (s.storeLe a b c).stashStacks = s.stashStacks := rfl
@[simp] theorem State.storeLe_ckp (a b c) : (s.storeLe a b c).ckp = s.ckp := rfl
@[simp] theorem State.storeLe_xfers (a b c) : (s.storeLe a b c).xfers = s.xfers := rfl
@[simp] theorem State.storeLe_reqs (a b c) : (s.storeLe a b c).reqs = s.reqs := rfl
@[simp] theorem State.storeLe_nextReq (a b c) : (s.storeLe a b c).nextReq = s.nextReq := rfl
@[simp] theorem State.storeLe_timeSynced (a b c) : (s.storeLe a b c).timeSynced = s.timeSynced := rfl
@[simp] theorem State.storeLe_timeGood (a b c) : (s.storeLe a b c).timeGood = s.timeGood := rfl
@[simp] theorem State.storeLe_timeMissed (a b c) : (s.storeLe a b c).timeMissed = s.timeMissed := rfl
@[simp] theorem State.storeLe_slew (a b c) : (s.storeLe a b c).slew = s.slew := rfl
@[simp] theorem State.storeLe_slewTicks (a b c) : (s.storeLe a b c).slewTicks = s.slewTicks := rfl
@[simp] theorem State.storeLe_queues (a b c) : (s.storeLe a b c).queues = s.queues := rfl
@[simp] theorem State.storeLe_sec (a b c) : (s.storeLe a b c).sec = s.sec := rfl
@[simp] theorem State.storeLe_pwr (a b c) : (s.storeLe a b c).pwr = s.pwr := rfl
@[simp] theorem State.storeLe_bst (a b c) : (s.storeLe a b c).bst = s.bst := rfl
@[simp] theorem State.storeLe_tap (a b c) : (s.storeLe a b c).tap = s.tap := rfl
@[simp] theorem State.storeLe_srstBusy (a b c) : (s.storeLe a b c).srstBusy = s.srstBusy := rfl
@[simp] theorem State.storeLe_dbgStep (a b c) : (s.storeLe a b c).dbgStep = s.dbgStep := rfl
@[simp] theorem State.storeLe_out (a b c) : (s.storeLe a b c).out = s.out := rfl
@[simp] theorem State.storeLe_answer (a b c) : (s.storeLe a b c).answer = s.answer := rfl
@[simp] theorem State.storeLe_freeCtr (a b c) : (s.storeLe a b c).freeCtr = s.freeCtr := rfl
@[simp] theorem State.storeLe_pending (a b c) : (s.storeLe a b c).pending = s.pending := rfl

@[simp] theorem State.zeroRange_mt (a b) : (s.zeroRange a b).mt = s.mt := rfl
@[simp] theorem State.zeroRange_aoOn (a b) : (s.zeroRange a b).aoOn = s.aoOn := rfl
@[simp] theorem State.zeroRange_hold (a b) : (s.zeroRange a b).hold = s.hold := rfl
@[simp] theorem State.zeroRange_regs (a b) : (s.zeroRange a b).regs = s.regs := rfl
@[simp] theorem State.zeroRange_ceWin (a b) : (s.zeroRange a b).ceWin = s.ceWin := rfl
@[simp] theorem State.zeroRange_scrubPos (a b) : (s.zeroRange a b).scrubPos = s.scrubPos := rfl
@[simp] theorem State.zeroRange_tiles (a b) : (s.zeroRange a b).tiles = s.tiles := rfl
@[simp] theorem State.zeroRange_signals (a b) : (s.zeroRange a b).signals = s.signals := rfl
@[simp] theorem State.zeroRange_arrivals (a b) : (s.zeroRange a b).arrivals = s.arrivals := rfl
@[simp] theorem State.zeroRange_barriers (a b) : (s.zeroRange a b).barriers = s.barriers := rfl
@[simp] theorem State.zeroRange_step (a b) : (s.zeroRange a b).step = s.step := rfl
@[simp] theorem State.zeroRange_ctlOut (a b) : (s.zeroRange a b).ctlOut = s.ctlOut := rfl
@[simp] theorem State.zeroRange_log (a b) : (s.zeroRange a b).log = s.log := rfl
@[simp] theorem State.zeroRange_logLatch (a b) : (s.zeroRange a b).logLatch = s.logLatch := rfl
@[simp] theorem State.zeroRange_logOverwrote (a b) : (s.zeroRange a b).logOverwrote = s.logOverwrote := rfl
@[simp] theorem State.zeroRange_voidCause (a b) : (s.zeroRange a b).voidCause = s.voidCause := rfl
@[simp] theorem State.zeroRange_ports (a b) : (s.zeroRange a b).ports = s.ports := rfl
@[simp] theorem State.zeroRange_pools (a b) : (s.zeroRange a b).pools = s.pools := rfl
@[simp] theorem State.zeroRange_kvWaiters (a b) : (s.zeroRange a b).kvWaiters = s.kvWaiters := rfl
@[simp] theorem State.zeroRange_rings (a b) : (s.zeroRange a b).rings = s.rings := rfl
@[simp] theorem State.zeroRange_dispatch (a b) : (s.zeroRange a b).dispatch = s.dispatch := rfl
@[simp] theorem State.zeroRange_crossings (a b) : (s.zeroRange a b).crossings = s.crossings := rfl
@[simp] theorem State.zeroRange_streams (a b) : (s.zeroRange a b).streams = s.streams := rfl
@[simp] theorem State.zeroRange_tokQueue (a b) : (s.zeroRange a b).tokQueue = s.tokQueue := rfl
@[simp] theorem State.zeroRange_encoders (a b) : (s.zeroRange a b).encoders = s.encoders := rfl
@[simp] theorem State.zeroRange_chk (a b) : (s.zeroRange a b).chk = s.chk := rfl
@[simp] theorem State.zeroRange_links (a b) : (s.zeroRange a b).links = s.links := rfl
@[simp] theorem State.zeroRange_stranded (a b) : (s.zeroRange a b).stranded = s.stranded := rfl
@[simp] theorem State.zeroRange_routes (a b) : (s.zeroRange a b).routes = s.routes := rfl
@[simp] theorem State.zeroRange_linkKeys (a b) : (s.zeroRange a b).linkKeys = s.linkKeys := rfl
@[simp] theorem State.zeroRange_gate (a b) : (s.zeroRange a b).gate = s.gate := rfl
@[simp] theorem State.zeroRange_stashStacks (a b) : (s.zeroRange a b).stashStacks = s.stashStacks := rfl
@[simp] theorem State.zeroRange_ckp (a b) : (s.zeroRange a b).ckp = s.ckp := rfl
@[simp] theorem State.zeroRange_xfers (a b) : (s.zeroRange a b).xfers = s.xfers := rfl
@[simp] theorem State.zeroRange_reqs (a b) : (s.zeroRange a b).reqs = s.reqs := rfl
@[simp] theorem State.zeroRange_nextReq (a b) : (s.zeroRange a b).nextReq = s.nextReq := rfl
@[simp] theorem State.zeroRange_timeSynced (a b) : (s.zeroRange a b).timeSynced = s.timeSynced := rfl
@[simp] theorem State.zeroRange_timeGood (a b) : (s.zeroRange a b).timeGood = s.timeGood := rfl
@[simp] theorem State.zeroRange_timeMissed (a b) : (s.zeroRange a b).timeMissed = s.timeMissed := rfl
@[simp] theorem State.zeroRange_slew (a b) : (s.zeroRange a b).slew = s.slew := rfl
@[simp] theorem State.zeroRange_slewTicks (a b) : (s.zeroRange a b).slewTicks = s.slewTicks := rfl
@[simp] theorem State.zeroRange_queues (a b) : (s.zeroRange a b).queues = s.queues := rfl
@[simp] theorem State.zeroRange_sec (a b) : (s.zeroRange a b).sec = s.sec := rfl
@[simp] theorem State.zeroRange_pwr (a b) : (s.zeroRange a b).pwr = s.pwr := rfl
@[simp] theorem State.zeroRange_bst (a b) : (s.zeroRange a b).bst = s.bst := rfl
@[simp] theorem State.zeroRange_tap (a b) : (s.zeroRange a b).tap = s.tap := rfl
@[simp] theorem State.zeroRange_srstBusy (a b) : (s.zeroRange a b).srstBusy = s.srstBusy := rfl
@[simp] theorem State.zeroRange_dbgStep (a b) : (s.zeroRange a b).dbgStep = s.dbgStep := rfl
@[simp] theorem State.zeroRange_out (a b) : (s.zeroRange a b).out = s.out := rfl
@[simp] theorem State.zeroRange_answer (a b) : (s.zeroRange a b).answer = s.answer := rfl
@[simp] theorem State.zeroRange_freeCtr (a b) : (s.zeroRange a b).freeCtr = s.freeCtr := rfl
@[simp] theorem State.zeroRange_pending (a b) : (s.zeroRange a b).pending = s.pending := rfl

@[simp] theorem State.poisonLine_mt (a) : (s.poisonLine a).mt = s.mt := rfl
@[simp] theorem State.poisonLine_aoOn (a) : (s.poisonLine a).aoOn = s.aoOn := rfl
@[simp] theorem State.poisonLine_hold (a) : (s.poisonLine a).hold = s.hold := rfl
@[simp] theorem State.poisonLine_regs (a) : (s.poisonLine a).regs = s.regs := rfl
@[simp] theorem State.poisonLine_mem (a) : (s.poisonLine a).mem = s.mem := rfl
@[simp] theorem State.poisonLine_upsets (a) : (s.poisonLine a).upsets = s.upsets := rfl
@[simp] theorem State.poisonLine_ceWin (a) : (s.poisonLine a).ceWin = s.ceWin := rfl
@[simp] theorem State.poisonLine_scrubPos (a) : (s.poisonLine a).scrubPos = s.scrubPos := rfl
@[simp] theorem State.poisonLine_tiles (a) : (s.poisonLine a).tiles = s.tiles := rfl
@[simp] theorem State.poisonLine_signals (a) : (s.poisonLine a).signals = s.signals := rfl
@[simp] theorem State.poisonLine_arrivals (a) : (s.poisonLine a).arrivals = s.arrivals := rfl
@[simp] theorem State.poisonLine_barriers (a) : (s.poisonLine a).barriers = s.barriers := rfl
@[simp] theorem State.poisonLine_step (a) : (s.poisonLine a).step = s.step := rfl
@[simp] theorem State.poisonLine_ctlOut (a) : (s.poisonLine a).ctlOut = s.ctlOut := rfl
@[simp] theorem State.poisonLine_log (a) : (s.poisonLine a).log = s.log := rfl
@[simp] theorem State.poisonLine_logLatch (a) : (s.poisonLine a).logLatch = s.logLatch := rfl
@[simp] theorem State.poisonLine_logOverwrote (a) : (s.poisonLine a).logOverwrote = s.logOverwrote := rfl
@[simp] theorem State.poisonLine_voidCause (a) : (s.poisonLine a).voidCause = s.voidCause := rfl
@[simp] theorem State.poisonLine_ports (a) : (s.poisonLine a).ports = s.ports := rfl
@[simp] theorem State.poisonLine_pools (a) : (s.poisonLine a).pools = s.pools := rfl
@[simp] theorem State.poisonLine_kvWaiters (a) : (s.poisonLine a).kvWaiters = s.kvWaiters := rfl
@[simp] theorem State.poisonLine_rings (a) : (s.poisonLine a).rings = s.rings := rfl
@[simp] theorem State.poisonLine_dispatch (a) : (s.poisonLine a).dispatch = s.dispatch := rfl
@[simp] theorem State.poisonLine_crossings (a) : (s.poisonLine a).crossings = s.crossings := rfl
@[simp] theorem State.poisonLine_streams (a) : (s.poisonLine a).streams = s.streams := rfl
@[simp] theorem State.poisonLine_tokQueue (a) : (s.poisonLine a).tokQueue = s.tokQueue := rfl
@[simp] theorem State.poisonLine_encoders (a) : (s.poisonLine a).encoders = s.encoders := rfl
@[simp] theorem State.poisonLine_chk (a) : (s.poisonLine a).chk = s.chk := rfl
@[simp] theorem State.poisonLine_links (a) : (s.poisonLine a).links = s.links := rfl
@[simp] theorem State.poisonLine_stranded (a) : (s.poisonLine a).stranded = s.stranded := rfl
@[simp] theorem State.poisonLine_routes (a) : (s.poisonLine a).routes = s.routes := rfl
@[simp] theorem State.poisonLine_linkKeys (a) : (s.poisonLine a).linkKeys = s.linkKeys := rfl
@[simp] theorem State.poisonLine_gate (a) : (s.poisonLine a).gate = s.gate := rfl
@[simp] theorem State.poisonLine_stashStacks (a) : (s.poisonLine a).stashStacks = s.stashStacks := rfl
@[simp] theorem State.poisonLine_ckp (a) : (s.poisonLine a).ckp = s.ckp := rfl
@[simp] theorem State.poisonLine_xfers (a) : (s.poisonLine a).xfers = s.xfers := rfl
@[simp] theorem State.poisonLine_reqs (a) : (s.poisonLine a).reqs = s.reqs := rfl
@[simp] theorem State.poisonLine_nextReq (a) : (s.poisonLine a).nextReq = s.nextReq := rfl
@[simp] theorem State.poisonLine_timeSynced (a) : (s.poisonLine a).timeSynced = s.timeSynced := rfl
@[simp] theorem State.poisonLine_timeGood (a) : (s.poisonLine a).timeGood = s.timeGood := rfl
@[simp] theorem State.poisonLine_timeMissed (a) : (s.poisonLine a).timeMissed = s.timeMissed := rfl
@[simp] theorem State.poisonLine_slew (a) : (s.poisonLine a).slew = s.slew := rfl
@[simp] theorem State.poisonLine_slewTicks (a) : (s.poisonLine a).slewTicks = s.slewTicks := rfl
@[simp] theorem State.poisonLine_queues (a) : (s.poisonLine a).queues = s.queues := rfl
@[simp] theorem State.poisonLine_sec (a) : (s.poisonLine a).sec = s.sec := rfl
@[simp] theorem State.poisonLine_pwr (a) : (s.poisonLine a).pwr = s.pwr := rfl
@[simp] theorem State.poisonLine_bst (a) : (s.poisonLine a).bst = s.bst := rfl
@[simp] theorem State.poisonLine_tap (a) : (s.poisonLine a).tap = s.tap := rfl
@[simp] theorem State.poisonLine_srstBusy (a) : (s.poisonLine a).srstBusy = s.srstBusy := rfl
@[simp] theorem State.poisonLine_dbgStep (a) : (s.poisonLine a).dbgStep = s.dbgStep := rfl
@[simp] theorem State.poisonLine_out (a) : (s.poisonLine a).out = s.out := rfl
@[simp] theorem State.poisonLine_answer (a) : (s.poisonLine a).answer = s.answer := rfl
@[simp] theorem State.poisonLine_freeCtr (a) : (s.poisonLine a).freeCtr = s.freeCtr := rfl
@[simp] theorem State.poisonLine_pending (a) : (s.poisonLine a).pending = s.pending := rfl

@[simp] theorem State.clearUpset_mt (a) : (s.clearUpset a).mt = s.mt := rfl
@[simp] theorem State.clearUpset_aoOn (a) : (s.clearUpset a).aoOn = s.aoOn := rfl
@[simp] theorem State.clearUpset_hold (a) : (s.clearUpset a).hold = s.hold := rfl
@[simp] theorem State.clearUpset_regs (a) : (s.clearUpset a).regs = s.regs := rfl
@[simp] theorem State.clearUpset_mem (a) : (s.clearUpset a).mem = s.mem := rfl
@[simp] theorem State.clearUpset_poison (a) : (s.clearUpset a).poison = s.poison := rfl
@[simp] theorem State.clearUpset_ceWin (a) : (s.clearUpset a).ceWin = s.ceWin := rfl
@[simp] theorem State.clearUpset_scrubPos (a) : (s.clearUpset a).scrubPos = s.scrubPos := rfl
@[simp] theorem State.clearUpset_tiles (a) : (s.clearUpset a).tiles = s.tiles := rfl
@[simp] theorem State.clearUpset_signals (a) : (s.clearUpset a).signals = s.signals := rfl
@[simp] theorem State.clearUpset_arrivals (a) : (s.clearUpset a).arrivals = s.arrivals := rfl
@[simp] theorem State.clearUpset_barriers (a) : (s.clearUpset a).barriers = s.barriers := rfl
@[simp] theorem State.clearUpset_step (a) : (s.clearUpset a).step = s.step := rfl
@[simp] theorem State.clearUpset_ctlOut (a) : (s.clearUpset a).ctlOut = s.ctlOut := rfl
@[simp] theorem State.clearUpset_log (a) : (s.clearUpset a).log = s.log := rfl
@[simp] theorem State.clearUpset_logLatch (a) : (s.clearUpset a).logLatch = s.logLatch := rfl
@[simp] theorem State.clearUpset_logOverwrote (a) : (s.clearUpset a).logOverwrote = s.logOverwrote := rfl
@[simp] theorem State.clearUpset_voidCause (a) : (s.clearUpset a).voidCause = s.voidCause := rfl
@[simp] theorem State.clearUpset_ports (a) : (s.clearUpset a).ports = s.ports := rfl
@[simp] theorem State.clearUpset_pools (a) : (s.clearUpset a).pools = s.pools := rfl
@[simp] theorem State.clearUpset_kvWaiters (a) : (s.clearUpset a).kvWaiters = s.kvWaiters := rfl
@[simp] theorem State.clearUpset_rings (a) : (s.clearUpset a).rings = s.rings := rfl
@[simp] theorem State.clearUpset_dispatch (a) : (s.clearUpset a).dispatch = s.dispatch := rfl
@[simp] theorem State.clearUpset_crossings (a) : (s.clearUpset a).crossings = s.crossings := rfl
@[simp] theorem State.clearUpset_streams (a) : (s.clearUpset a).streams = s.streams := rfl
@[simp] theorem State.clearUpset_tokQueue (a) : (s.clearUpset a).tokQueue = s.tokQueue := rfl
@[simp] theorem State.clearUpset_encoders (a) : (s.clearUpset a).encoders = s.encoders := rfl
@[simp] theorem State.clearUpset_chk (a) : (s.clearUpset a).chk = s.chk := rfl
@[simp] theorem State.clearUpset_links (a) : (s.clearUpset a).links = s.links := rfl
@[simp] theorem State.clearUpset_stranded (a) : (s.clearUpset a).stranded = s.stranded := rfl
@[simp] theorem State.clearUpset_routes (a) : (s.clearUpset a).routes = s.routes := rfl
@[simp] theorem State.clearUpset_linkKeys (a) : (s.clearUpset a).linkKeys = s.linkKeys := rfl
@[simp] theorem State.clearUpset_gate (a) : (s.clearUpset a).gate = s.gate := rfl
@[simp] theorem State.clearUpset_stashStacks (a) : (s.clearUpset a).stashStacks = s.stashStacks := rfl
@[simp] theorem State.clearUpset_ckp (a) : (s.clearUpset a).ckp = s.ckp := rfl
@[simp] theorem State.clearUpset_xfers (a) : (s.clearUpset a).xfers = s.xfers := rfl
@[simp] theorem State.clearUpset_reqs (a) : (s.clearUpset a).reqs = s.reqs := rfl
@[simp] theorem State.clearUpset_nextReq (a) : (s.clearUpset a).nextReq = s.nextReq := rfl
@[simp] theorem State.clearUpset_timeSynced (a) : (s.clearUpset a).timeSynced = s.timeSynced := rfl
@[simp] theorem State.clearUpset_timeGood (a) : (s.clearUpset a).timeGood = s.timeGood := rfl
@[simp] theorem State.clearUpset_timeMissed (a) : (s.clearUpset a).timeMissed = s.timeMissed := rfl
@[simp] theorem State.clearUpset_slew (a) : (s.clearUpset a).slew = s.slew := rfl
@[simp] theorem State.clearUpset_slewTicks (a) : (s.clearUpset a).slewTicks = s.slewTicks := rfl
@[simp] theorem State.clearUpset_queues (a) : (s.clearUpset a).queues = s.queues := rfl
@[simp] theorem State.clearUpset_sec (a) : (s.clearUpset a).sec = s.sec := rfl
@[simp] theorem State.clearUpset_pwr (a) : (s.clearUpset a).pwr = s.pwr := rfl
@[simp] theorem State.clearUpset_bst (a) : (s.clearUpset a).bst = s.bst := rfl
@[simp] theorem State.clearUpset_tap (a) : (s.clearUpset a).tap = s.tap := rfl
@[simp] theorem State.clearUpset_srstBusy (a) : (s.clearUpset a).srstBusy = s.srstBusy := rfl
@[simp] theorem State.clearUpset_dbgStep (a) : (s.clearUpset a).dbgStep = s.dbgStep := rfl
@[simp] theorem State.clearUpset_out (a) : (s.clearUpset a).out = s.out := rfl
@[simp] theorem State.clearUpset_answer (a) : (s.clearUpset a).answer = s.answer := rfl
@[simp] theorem State.clearUpset_freeCtr (a) : (s.clearUpset a).freeCtr = s.freeCtr := rfl
@[simp] theorem State.clearUpset_pending (a) : (s.clearUpset a).pending = s.pending := rfl

@[simp] theorem State.setTile_mt (a b) : (s.setTile a b).mt = s.mt := rfl
@[simp] theorem State.setTile_aoOn (a b) : (s.setTile a b).aoOn = s.aoOn := rfl
@[simp] theorem State.setTile_hold (a b) : (s.setTile a b).hold = s.hold := rfl
@[simp] theorem State.setTile_regs (a b) : (s.setTile a b).regs = s.regs := rfl
@[simp] theorem State.setTile_mem (a b) : (s.setTile a b).mem = s.mem := rfl
@[simp] theorem State.setTile_poison (a b) : (s.setTile a b).poison = s.poison := rfl
@[simp] theorem State.setTile_upsets (a b) : (s.setTile a b).upsets = s.upsets := rfl
@[simp] theorem State.setTile_ceWin (a b) : (s.setTile a b).ceWin = s.ceWin := rfl
@[simp] theorem State.setTile_scrubPos (a b) : (s.setTile a b).scrubPos = s.scrubPos := rfl
@[simp] theorem State.setTile_signals (a b) : (s.setTile a b).signals = s.signals := rfl
@[simp] theorem State.setTile_arrivals (a b) : (s.setTile a b).arrivals = s.arrivals := rfl
@[simp] theorem State.setTile_barriers (a b) : (s.setTile a b).barriers = s.barriers := rfl
@[simp] theorem State.setTile_step (a b) : (s.setTile a b).step = s.step := rfl
@[simp] theorem State.setTile_ctlOut (a b) : (s.setTile a b).ctlOut = s.ctlOut := rfl
@[simp] theorem State.setTile_log (a b) : (s.setTile a b).log = s.log := rfl
@[simp] theorem State.setTile_logLatch (a b) : (s.setTile a b).logLatch = s.logLatch := rfl
@[simp] theorem State.setTile_logOverwrote (a b) : (s.setTile a b).logOverwrote = s.logOverwrote := rfl
@[simp] theorem State.setTile_voidCause (a b) : (s.setTile a b).voidCause = s.voidCause := rfl
@[simp] theorem State.setTile_ports (a b) : (s.setTile a b).ports = s.ports := rfl
@[simp] theorem State.setTile_pools (a b) : (s.setTile a b).pools = s.pools := rfl
@[simp] theorem State.setTile_kvWaiters (a b) : (s.setTile a b).kvWaiters = s.kvWaiters := rfl
@[simp] theorem State.setTile_rings (a b) : (s.setTile a b).rings = s.rings := rfl
@[simp] theorem State.setTile_dispatch (a b) : (s.setTile a b).dispatch = s.dispatch := rfl
@[simp] theorem State.setTile_crossings (a b) : (s.setTile a b).crossings = s.crossings := rfl
@[simp] theorem State.setTile_streams (a b) : (s.setTile a b).streams = s.streams := rfl
@[simp] theorem State.setTile_tokQueue (a b) : (s.setTile a b).tokQueue = s.tokQueue := rfl
@[simp] theorem State.setTile_encoders (a b) : (s.setTile a b).encoders = s.encoders := rfl
@[simp] theorem State.setTile_chk (a b) : (s.setTile a b).chk = s.chk := rfl
@[simp] theorem State.setTile_links (a b) : (s.setTile a b).links = s.links := rfl
@[simp] theorem State.setTile_stranded (a b) : (s.setTile a b).stranded = s.stranded := rfl
@[simp] theorem State.setTile_routes (a b) : (s.setTile a b).routes = s.routes := rfl
@[simp] theorem State.setTile_linkKeys (a b) : (s.setTile a b).linkKeys = s.linkKeys := rfl
@[simp] theorem State.setTile_gate (a b) : (s.setTile a b).gate = s.gate := rfl
@[simp] theorem State.setTile_stashStacks (a b) : (s.setTile a b).stashStacks = s.stashStacks := rfl
@[simp] theorem State.setTile_ckp (a b) : (s.setTile a b).ckp = s.ckp := rfl
@[simp] theorem State.setTile_xfers (a b) : (s.setTile a b).xfers = s.xfers := rfl
@[simp] theorem State.setTile_reqs (a b) : (s.setTile a b).reqs = s.reqs := rfl
@[simp] theorem State.setTile_nextReq (a b) : (s.setTile a b).nextReq = s.nextReq := rfl
@[simp] theorem State.setTile_timeSynced (a b) : (s.setTile a b).timeSynced = s.timeSynced := rfl
@[simp] theorem State.setTile_timeGood (a b) : (s.setTile a b).timeGood = s.timeGood := rfl
@[simp] theorem State.setTile_timeMissed (a b) : (s.setTile a b).timeMissed = s.timeMissed := rfl
@[simp] theorem State.setTile_slew (a b) : (s.setTile a b).slew = s.slew := rfl
@[simp] theorem State.setTile_slewTicks (a b) : (s.setTile a b).slewTicks = s.slewTicks := rfl
@[simp] theorem State.setTile_queues (a b) : (s.setTile a b).queues = s.queues := rfl
@[simp] theorem State.setTile_sec (a b) : (s.setTile a b).sec = s.sec := rfl
@[simp] theorem State.setTile_pwr (a b) : (s.setTile a b).pwr = s.pwr := rfl
@[simp] theorem State.setTile_bst (a b) : (s.setTile a b).bst = s.bst := rfl
@[simp] theorem State.setTile_tap (a b) : (s.setTile a b).tap = s.tap := rfl
@[simp] theorem State.setTile_srstBusy (a b) : (s.setTile a b).srstBusy = s.srstBusy := rfl
@[simp] theorem State.setTile_dbgStep (a b) : (s.setTile a b).dbgStep = s.dbgStep := rfl
@[simp] theorem State.setTile_out (a b) : (s.setTile a b).out = s.out := rfl
@[simp] theorem State.setTile_answer (a b) : (s.setTile a b).answer = s.answer := rfl
@[simp] theorem State.setTile_freeCtr (a b) : (s.setTile a b).freeCtr = s.freeCtr := rfl
@[simp] theorem State.setTile_pending (a b) : (s.setTile a b).pending = s.pending := rfl

@[simp] theorem State.modTile_mt (a b) : (s.modTile a b).mt = s.mt := rfl
@[simp] theorem State.modTile_aoOn (a b) : (s.modTile a b).aoOn = s.aoOn := rfl
@[simp] theorem State.modTile_hold (a b) : (s.modTile a b).hold = s.hold := rfl
@[simp] theorem State.modTile_regs (a b) : (s.modTile a b).regs = s.regs := rfl
@[simp] theorem State.modTile_mem (a b) : (s.modTile a b).mem = s.mem := rfl
@[simp] theorem State.modTile_poison (a b) : (s.modTile a b).poison = s.poison := rfl
@[simp] theorem State.modTile_upsets (a b) : (s.modTile a b).upsets = s.upsets := rfl
@[simp] theorem State.modTile_ceWin (a b) : (s.modTile a b).ceWin = s.ceWin := rfl
@[simp] theorem State.modTile_scrubPos (a b) : (s.modTile a b).scrubPos = s.scrubPos := rfl
@[simp] theorem State.modTile_signals (a b) : (s.modTile a b).signals = s.signals := rfl
@[simp] theorem State.modTile_arrivals (a b) : (s.modTile a b).arrivals = s.arrivals := rfl
@[simp] theorem State.modTile_barriers (a b) : (s.modTile a b).barriers = s.barriers := rfl
@[simp] theorem State.modTile_step (a b) : (s.modTile a b).step = s.step := rfl
@[simp] theorem State.modTile_ctlOut (a b) : (s.modTile a b).ctlOut = s.ctlOut := rfl
@[simp] theorem State.modTile_log (a b) : (s.modTile a b).log = s.log := rfl
@[simp] theorem State.modTile_logLatch (a b) : (s.modTile a b).logLatch = s.logLatch := rfl
@[simp] theorem State.modTile_logOverwrote (a b) : (s.modTile a b).logOverwrote = s.logOverwrote := rfl
@[simp] theorem State.modTile_voidCause (a b) : (s.modTile a b).voidCause = s.voidCause := rfl
@[simp] theorem State.modTile_ports (a b) : (s.modTile a b).ports = s.ports := rfl
@[simp] theorem State.modTile_pools (a b) : (s.modTile a b).pools = s.pools := rfl
@[simp] theorem State.modTile_kvWaiters (a b) : (s.modTile a b).kvWaiters = s.kvWaiters := rfl
@[simp] theorem State.modTile_rings (a b) : (s.modTile a b).rings = s.rings := rfl
@[simp] theorem State.modTile_dispatch (a b) : (s.modTile a b).dispatch = s.dispatch := rfl
@[simp] theorem State.modTile_crossings (a b) : (s.modTile a b).crossings = s.crossings := rfl
@[simp] theorem State.modTile_streams (a b) : (s.modTile a b).streams = s.streams := rfl
@[simp] theorem State.modTile_tokQueue (a b) : (s.modTile a b).tokQueue = s.tokQueue := rfl
@[simp] theorem State.modTile_encoders (a b) : (s.modTile a b).encoders = s.encoders := rfl
@[simp] theorem State.modTile_chk (a b) : (s.modTile a b).chk = s.chk := rfl
@[simp] theorem State.modTile_links (a b) : (s.modTile a b).links = s.links := rfl
@[simp] theorem State.modTile_stranded (a b) : (s.modTile a b).stranded = s.stranded := rfl
@[simp] theorem State.modTile_routes (a b) : (s.modTile a b).routes = s.routes := rfl
@[simp] theorem State.modTile_linkKeys (a b) : (s.modTile a b).linkKeys = s.linkKeys := rfl
@[simp] theorem State.modTile_gate (a b) : (s.modTile a b).gate = s.gate := rfl
@[simp] theorem State.modTile_stashStacks (a b) : (s.modTile a b).stashStacks = s.stashStacks := rfl
@[simp] theorem State.modTile_ckp (a b) : (s.modTile a b).ckp = s.ckp := rfl
@[simp] theorem State.modTile_xfers (a b) : (s.modTile a b).xfers = s.xfers := rfl
@[simp] theorem State.modTile_reqs (a b) : (s.modTile a b).reqs = s.reqs := rfl
@[simp] theorem State.modTile_nextReq (a b) : (s.modTile a b).nextReq = s.nextReq := rfl
@[simp] theorem State.modTile_timeSynced (a b) : (s.modTile a b).timeSynced = s.timeSynced := rfl
@[simp] theorem State.modTile_timeGood (a b) : (s.modTile a b).timeGood = s.timeGood := rfl
@[simp] theorem State.modTile_timeMissed (a b) : (s.modTile a b).timeMissed = s.timeMissed := rfl
@[simp] theorem State.modTile_slew (a b) : (s.modTile a b).slew = s.slew := rfl
@[simp] theorem State.modTile_slewTicks (a b) : (s.modTile a b).slewTicks = s.slewTicks := rfl
@[simp] theorem State.modTile_queues (a b) : (s.modTile a b).queues = s.queues := rfl
@[simp] theorem State.modTile_sec (a b) : (s.modTile a b).sec = s.sec := rfl
@[simp] theorem State.modTile_pwr (a b) : (s.modTile a b).pwr = s.pwr := rfl
@[simp] theorem State.modTile_bst (a b) : (s.modTile a b).bst = s.bst := rfl
@[simp] theorem State.modTile_tap (a b) : (s.modTile a b).tap = s.tap := rfl
@[simp] theorem State.modTile_srstBusy (a b) : (s.modTile a b).srstBusy = s.srstBusy := rfl
@[simp] theorem State.modTile_dbgStep (a b) : (s.modTile a b).dbgStep = s.dbgStep := rfl
@[simp] theorem State.modTile_out (a b) : (s.modTile a b).out = s.out := rfl
@[simp] theorem State.modTile_answer (a b) : (s.modTile a b).answer = s.answer := rfl
@[simp] theorem State.modTile_freeCtr (a b) : (s.modTile a b).freeCtr = s.freeCtr := rfl
@[simp] theorem State.modTile_pending (a b) : (s.modTile a b).pending = s.pending := rfl

@[simp] theorem State.setPort_mt (a b) : (s.setPort a b).mt = s.mt := rfl
@[simp] theorem State.setPort_aoOn (a b) : (s.setPort a b).aoOn = s.aoOn := rfl
@[simp] theorem State.setPort_hold (a b) : (s.setPort a b).hold = s.hold := rfl
@[simp] theorem State.setPort_regs (a b) : (s.setPort a b).regs = s.regs := rfl
@[simp] theorem State.setPort_mem (a b) : (s.setPort a b).mem = s.mem := rfl
@[simp] theorem State.setPort_poison (a b) : (s.setPort a b).poison = s.poison := rfl
@[simp] theorem State.setPort_upsets (a b) : (s.setPort a b).upsets = s.upsets := rfl
@[simp] theorem State.setPort_ceWin (a b) : (s.setPort a b).ceWin = s.ceWin := rfl
@[simp] theorem State.setPort_scrubPos (a b) : (s.setPort a b).scrubPos = s.scrubPos := rfl
@[simp] theorem State.setPort_tiles (a b) : (s.setPort a b).tiles = s.tiles := rfl
@[simp] theorem State.setPort_signals (a b) : (s.setPort a b).signals = s.signals := rfl
@[simp] theorem State.setPort_arrivals (a b) : (s.setPort a b).arrivals = s.arrivals := rfl
@[simp] theorem State.setPort_barriers (a b) : (s.setPort a b).barriers = s.barriers := rfl
@[simp] theorem State.setPort_step (a b) : (s.setPort a b).step = s.step := rfl
@[simp] theorem State.setPort_ctlOut (a b) : (s.setPort a b).ctlOut = s.ctlOut := rfl
@[simp] theorem State.setPort_log (a b) : (s.setPort a b).log = s.log := rfl
@[simp] theorem State.setPort_logLatch (a b) : (s.setPort a b).logLatch = s.logLatch := rfl
@[simp] theorem State.setPort_logOverwrote (a b) : (s.setPort a b).logOverwrote = s.logOverwrote := rfl
@[simp] theorem State.setPort_voidCause (a b) : (s.setPort a b).voidCause = s.voidCause := rfl
@[simp] theorem State.setPort_pools (a b) : (s.setPort a b).pools = s.pools := rfl
@[simp] theorem State.setPort_kvWaiters (a b) : (s.setPort a b).kvWaiters = s.kvWaiters := rfl
@[simp] theorem State.setPort_rings (a b) : (s.setPort a b).rings = s.rings := rfl
@[simp] theorem State.setPort_dispatch (a b) : (s.setPort a b).dispatch = s.dispatch := rfl
@[simp] theorem State.setPort_crossings (a b) : (s.setPort a b).crossings = s.crossings := rfl
@[simp] theorem State.setPort_streams (a b) : (s.setPort a b).streams = s.streams := rfl
@[simp] theorem State.setPort_tokQueue (a b) : (s.setPort a b).tokQueue = s.tokQueue := rfl
@[simp] theorem State.setPort_encoders (a b) : (s.setPort a b).encoders = s.encoders := rfl
@[simp] theorem State.setPort_chk (a b) : (s.setPort a b).chk = s.chk := rfl
@[simp] theorem State.setPort_links (a b) : (s.setPort a b).links = s.links := rfl
@[simp] theorem State.setPort_stranded (a b) : (s.setPort a b).stranded = s.stranded := rfl
@[simp] theorem State.setPort_routes (a b) : (s.setPort a b).routes = s.routes := rfl
@[simp] theorem State.setPort_linkKeys (a b) : (s.setPort a b).linkKeys = s.linkKeys := rfl
@[simp] theorem State.setPort_gate (a b) : (s.setPort a b).gate = s.gate := rfl
@[simp] theorem State.setPort_stashStacks (a b) : (s.setPort a b).stashStacks = s.stashStacks := rfl
@[simp] theorem State.setPort_ckp (a b) : (s.setPort a b).ckp = s.ckp := rfl
@[simp] theorem State.setPort_xfers (a b) : (s.setPort a b).xfers = s.xfers := rfl
@[simp] theorem State.setPort_reqs (a b) : (s.setPort a b).reqs = s.reqs := rfl
@[simp] theorem State.setPort_nextReq (a b) : (s.setPort a b).nextReq = s.nextReq := rfl
@[simp] theorem State.setPort_timeSynced (a b) : (s.setPort a b).timeSynced = s.timeSynced := rfl
@[simp] theorem State.setPort_timeGood (a b) : (s.setPort a b).timeGood = s.timeGood := rfl
@[simp] theorem State.setPort_timeMissed (a b) : (s.setPort a b).timeMissed = s.timeMissed := rfl
@[simp] theorem State.setPort_slew (a b) : (s.setPort a b).slew = s.slew := rfl
@[simp] theorem State.setPort_slewTicks (a b) : (s.setPort a b).slewTicks = s.slewTicks := rfl
@[simp] theorem State.setPort_queues (a b) : (s.setPort a b).queues = s.queues := rfl
@[simp] theorem State.setPort_sec (a b) : (s.setPort a b).sec = s.sec := rfl
@[simp] theorem State.setPort_pwr (a b) : (s.setPort a b).pwr = s.pwr := rfl
@[simp] theorem State.setPort_bst (a b) : (s.setPort a b).bst = s.bst := rfl
@[simp] theorem State.setPort_tap (a b) : (s.setPort a b).tap = s.tap := rfl
@[simp] theorem State.setPort_srstBusy (a b) : (s.setPort a b).srstBusy = s.srstBusy := rfl
@[simp] theorem State.setPort_dbgStep (a b) : (s.setPort a b).dbgStep = s.dbgStep := rfl
@[simp] theorem State.setPort_out (a b) : (s.setPort a b).out = s.out := rfl
@[simp] theorem State.setPort_answer (a b) : (s.setPort a b).answer = s.answer := rfl
@[simp] theorem State.setPort_freeCtr (a b) : (s.setPort a b).freeCtr = s.freeCtr := rfl
@[simp] theorem State.setPort_pending (a b) : (s.setPort a b).pending = s.pending := rfl

@[simp] theorem State.modPort_mt (a b) : (s.modPort a b).mt = s.mt := rfl
@[simp] theorem State.modPort_aoOn (a b) : (s.modPort a b).aoOn = s.aoOn := rfl
@[simp] theorem State.modPort_hold (a b) : (s.modPort a b).hold = s.hold := rfl
@[simp] theorem State.modPort_regs (a b) : (s.modPort a b).regs = s.regs := rfl
@[simp] theorem State.modPort_mem (a b) : (s.modPort a b).mem = s.mem := rfl
@[simp] theorem State.modPort_poison (a b) : (s.modPort a b).poison = s.poison := rfl
@[simp] theorem State.modPort_upsets (a b) : (s.modPort a b).upsets = s.upsets := rfl
@[simp] theorem State.modPort_ceWin (a b) : (s.modPort a b).ceWin = s.ceWin := rfl
@[simp] theorem State.modPort_scrubPos (a b) : (s.modPort a b).scrubPos = s.scrubPos := rfl
@[simp] theorem State.modPort_tiles (a b) : (s.modPort a b).tiles = s.tiles := rfl
@[simp] theorem State.modPort_signals (a b) : (s.modPort a b).signals = s.signals := rfl
@[simp] theorem State.modPort_arrivals (a b) : (s.modPort a b).arrivals = s.arrivals := rfl
@[simp] theorem State.modPort_barriers (a b) : (s.modPort a b).barriers = s.barriers := rfl
@[simp] theorem State.modPort_step (a b) : (s.modPort a b).step = s.step := rfl
@[simp] theorem State.modPort_ctlOut (a b) : (s.modPort a b).ctlOut = s.ctlOut := rfl
@[simp] theorem State.modPort_log (a b) : (s.modPort a b).log = s.log := rfl
@[simp] theorem State.modPort_logLatch (a b) : (s.modPort a b).logLatch = s.logLatch := rfl
@[simp] theorem State.modPort_logOverwrote (a b) : (s.modPort a b).logOverwrote = s.logOverwrote := rfl
@[simp] theorem State.modPort_voidCause (a b) : (s.modPort a b).voidCause = s.voidCause := rfl
@[simp] theorem State.modPort_pools (a b) : (s.modPort a b).pools = s.pools := rfl
@[simp] theorem State.modPort_kvWaiters (a b) : (s.modPort a b).kvWaiters = s.kvWaiters := rfl
@[simp] theorem State.modPort_rings (a b) : (s.modPort a b).rings = s.rings := rfl
@[simp] theorem State.modPort_dispatch (a b) : (s.modPort a b).dispatch = s.dispatch := rfl
@[simp] theorem State.modPort_crossings (a b) : (s.modPort a b).crossings = s.crossings := rfl
@[simp] theorem State.modPort_streams (a b) : (s.modPort a b).streams = s.streams := rfl
@[simp] theorem State.modPort_tokQueue (a b) : (s.modPort a b).tokQueue = s.tokQueue := rfl
@[simp] theorem State.modPort_encoders (a b) : (s.modPort a b).encoders = s.encoders := rfl
@[simp] theorem State.modPort_chk (a b) : (s.modPort a b).chk = s.chk := rfl
@[simp] theorem State.modPort_links (a b) : (s.modPort a b).links = s.links := rfl
@[simp] theorem State.modPort_stranded (a b) : (s.modPort a b).stranded = s.stranded := rfl
@[simp] theorem State.modPort_routes (a b) : (s.modPort a b).routes = s.routes := rfl
@[simp] theorem State.modPort_linkKeys (a b) : (s.modPort a b).linkKeys = s.linkKeys := rfl
@[simp] theorem State.modPort_gate (a b) : (s.modPort a b).gate = s.gate := rfl
@[simp] theorem State.modPort_stashStacks (a b) : (s.modPort a b).stashStacks = s.stashStacks := rfl
@[simp] theorem State.modPort_ckp (a b) : (s.modPort a b).ckp = s.ckp := rfl
@[simp] theorem State.modPort_xfers (a b) : (s.modPort a b).xfers = s.xfers := rfl
@[simp] theorem State.modPort_reqs (a b) : (s.modPort a b).reqs = s.reqs := rfl
@[simp] theorem State.modPort_nextReq (a b) : (s.modPort a b).nextReq = s.nextReq := rfl
@[simp] theorem State.modPort_timeSynced (a b) : (s.modPort a b).timeSynced = s.timeSynced := rfl
@[simp] theorem State.modPort_timeGood (a b) : (s.modPort a b).timeGood = s.timeGood := rfl
@[simp] theorem State.modPort_timeMissed (a b) : (s.modPort a b).timeMissed = s.timeMissed := rfl
@[simp] theorem State.modPort_slew (a b) : (s.modPort a b).slew = s.slew := rfl
@[simp] theorem State.modPort_slewTicks (a b) : (s.modPort a b).slewTicks = s.slewTicks := rfl
@[simp] theorem State.modPort_queues (a b) : (s.modPort a b).queues = s.queues := rfl
@[simp] theorem State.modPort_sec (a b) : (s.modPort a b).sec = s.sec := rfl
@[simp] theorem State.modPort_pwr (a b) : (s.modPort a b).pwr = s.pwr := rfl
@[simp] theorem State.modPort_bst (a b) : (s.modPort a b).bst = s.bst := rfl
@[simp] theorem State.modPort_tap (a b) : (s.modPort a b).tap = s.tap := rfl
@[simp] theorem State.modPort_srstBusy (a b) : (s.modPort a b).srstBusy = s.srstBusy := rfl
@[simp] theorem State.modPort_dbgStep (a b) : (s.modPort a b).dbgStep = s.dbgStep := rfl
@[simp] theorem State.modPort_out (a b) : (s.modPort a b).out = s.out := rfl
@[simp] theorem State.modPort_answer (a b) : (s.modPort a b).answer = s.answer := rfl
@[simp] theorem State.modPort_freeCtr (a b) : (s.modPort a b).freeCtr = s.freeCtr := rfl
@[simp] theorem State.modPort_pending (a b) : (s.modPort a b).pending = s.pending := rfl

@[simp] theorem State.voidBy_mt (a) : (s.voidBy a).mt = s.mt := rfl
@[simp] theorem State.voidBy_aoOn (a) : (s.voidBy a).aoOn = s.aoOn := rfl
@[simp] theorem State.voidBy_hold (a) : (s.voidBy a).hold = s.hold := rfl
@[simp] theorem State.voidBy_regs (a) : (s.voidBy a).regs = s.regs := rfl
@[simp] theorem State.voidBy_mem (a) : (s.voidBy a).mem = s.mem := rfl
@[simp] theorem State.voidBy_poison (a) : (s.voidBy a).poison = s.poison := rfl
@[simp] theorem State.voidBy_upsets (a) : (s.voidBy a).upsets = s.upsets := rfl
@[simp] theorem State.voidBy_ceWin (a) : (s.voidBy a).ceWin = s.ceWin := rfl
@[simp] theorem State.voidBy_scrubPos (a) : (s.voidBy a).scrubPos = s.scrubPos := rfl
@[simp] theorem State.voidBy_tiles (a) : (s.voidBy a).tiles = s.tiles := rfl
@[simp] theorem State.voidBy_signals (a) : (s.voidBy a).signals = s.signals := rfl
@[simp] theorem State.voidBy_arrivals (a) : (s.voidBy a).arrivals = s.arrivals := rfl
@[simp] theorem State.voidBy_barriers (a) : (s.voidBy a).barriers = s.barriers := rfl
@[simp] theorem State.voidBy_step (a) : (s.voidBy a).step = s.step := rfl
@[simp] theorem State.voidBy_ctlOut (a) : (s.voidBy a).ctlOut = s.ctlOut := rfl
@[simp] theorem State.voidBy_log (a) : (s.voidBy a).log = s.log := rfl
@[simp] theorem State.voidBy_logLatch (a) : (s.voidBy a).logLatch = s.logLatch := rfl
@[simp] theorem State.voidBy_logOverwrote (a) : (s.voidBy a).logOverwrote = s.logOverwrote := rfl
@[simp] theorem State.voidBy_ports (a) : (s.voidBy a).ports = s.ports := rfl
@[simp] theorem State.voidBy_pools (a) : (s.voidBy a).pools = s.pools := rfl
@[simp] theorem State.voidBy_kvWaiters (a) : (s.voidBy a).kvWaiters = s.kvWaiters := rfl
@[simp] theorem State.voidBy_rings (a) : (s.voidBy a).rings = s.rings := rfl
@[simp] theorem State.voidBy_dispatch (a) : (s.voidBy a).dispatch = s.dispatch := rfl
@[simp] theorem State.voidBy_crossings (a) : (s.voidBy a).crossings = s.crossings := rfl
@[simp] theorem State.voidBy_streams (a) : (s.voidBy a).streams = s.streams := rfl
@[simp] theorem State.voidBy_tokQueue (a) : (s.voidBy a).tokQueue = s.tokQueue := rfl
@[simp] theorem State.voidBy_encoders (a) : (s.voidBy a).encoders = s.encoders := rfl
@[simp] theorem State.voidBy_chk (a) : (s.voidBy a).chk = s.chk := rfl
@[simp] theorem State.voidBy_links (a) : (s.voidBy a).links = s.links := rfl
@[simp] theorem State.voidBy_stranded (a) : (s.voidBy a).stranded = s.stranded := rfl
@[simp] theorem State.voidBy_routes (a) : (s.voidBy a).routes = s.routes := rfl
@[simp] theorem State.voidBy_linkKeys (a) : (s.voidBy a).linkKeys = s.linkKeys := rfl
@[simp] theorem State.voidBy_gate (a) : (s.voidBy a).gate = s.gate := rfl
@[simp] theorem State.voidBy_stashStacks (a) : (s.voidBy a).stashStacks = s.stashStacks := rfl
@[simp] theorem State.voidBy_ckp (a) : (s.voidBy a).ckp = s.ckp := rfl
@[simp] theorem State.voidBy_xfers (a) : (s.voidBy a).xfers = s.xfers := rfl
@[simp] theorem State.voidBy_reqs (a) : (s.voidBy a).reqs = s.reqs := rfl
@[simp] theorem State.voidBy_nextReq (a) : (s.voidBy a).nextReq = s.nextReq := rfl
@[simp] theorem State.voidBy_timeSynced (a) : (s.voidBy a).timeSynced = s.timeSynced := rfl
@[simp] theorem State.voidBy_timeGood (a) : (s.voidBy a).timeGood = s.timeGood := rfl
@[simp] theorem State.voidBy_timeMissed (a) : (s.voidBy a).timeMissed = s.timeMissed := rfl
@[simp] theorem State.voidBy_slew (a) : (s.voidBy a).slew = s.slew := rfl
@[simp] theorem State.voidBy_slewTicks (a) : (s.voidBy a).slewTicks = s.slewTicks := rfl
@[simp] theorem State.voidBy_queues (a) : (s.voidBy a).queues = s.queues := rfl
@[simp] theorem State.voidBy_sec (a) : (s.voidBy a).sec = s.sec := rfl
@[simp] theorem State.voidBy_pwr (a) : (s.voidBy a).pwr = s.pwr := rfl
@[simp] theorem State.voidBy_bst (a) : (s.voidBy a).bst = s.bst := rfl
@[simp] theorem State.voidBy_tap (a) : (s.voidBy a).tap = s.tap := rfl
@[simp] theorem State.voidBy_srstBusy (a) : (s.voidBy a).srstBusy = s.srstBusy := rfl
@[simp] theorem State.voidBy_dbgStep (a) : (s.voidBy a).dbgStep = s.dbgStep := rfl
@[simp] theorem State.voidBy_out (a) : (s.voidBy a).out = s.out := rfl
@[simp] theorem State.voidBy_answer (a) : (s.voidBy a).answer = s.answer := rfl
@[simp] theorem State.voidBy_freeCtr (a) : (s.voidBy a).freeCtr = s.freeCtr := rfl
@[simp] theorem State.voidBy_pending (a) : (s.voidBy a).pending = s.pending := rfl

@[simp] theorem State.reply_mt (a) : (s.reply a).mt = s.mt := rfl
@[simp] theorem State.reply_aoOn (a) : (s.reply a).aoOn = s.aoOn := rfl
@[simp] theorem State.reply_hold (a) : (s.reply a).hold = s.hold := rfl
@[simp] theorem State.reply_regs (a) : (s.reply a).regs = s.regs := rfl
@[simp] theorem State.reply_mem (a) : (s.reply a).mem = s.mem := rfl
@[simp] theorem State.reply_poison (a) : (s.reply a).poison = s.poison := rfl
@[simp] theorem State.reply_upsets (a) : (s.reply a).upsets = s.upsets := rfl
@[simp] theorem State.reply_ceWin (a) : (s.reply a).ceWin = s.ceWin := rfl
@[simp] theorem State.reply_scrubPos (a) : (s.reply a).scrubPos = s.scrubPos := rfl
@[simp] theorem State.reply_tiles (a) : (s.reply a).tiles = s.tiles := rfl
@[simp] theorem State.reply_signals (a) : (s.reply a).signals = s.signals := rfl
@[simp] theorem State.reply_arrivals (a) : (s.reply a).arrivals = s.arrivals := rfl
@[simp] theorem State.reply_barriers (a) : (s.reply a).barriers = s.barriers := rfl
@[simp] theorem State.reply_step (a) : (s.reply a).step = s.step := rfl
@[simp] theorem State.reply_ctlOut (a) : (s.reply a).ctlOut = s.ctlOut := rfl
@[simp] theorem State.reply_log (a) : (s.reply a).log = s.log := rfl
@[simp] theorem State.reply_logLatch (a) : (s.reply a).logLatch = s.logLatch := rfl
@[simp] theorem State.reply_logOverwrote (a) : (s.reply a).logOverwrote = s.logOverwrote := rfl
@[simp] theorem State.reply_voidCause (a) : (s.reply a).voidCause = s.voidCause := rfl
@[simp] theorem State.reply_ports (a) : (s.reply a).ports = s.ports := rfl
@[simp] theorem State.reply_pools (a) : (s.reply a).pools = s.pools := rfl
@[simp] theorem State.reply_kvWaiters (a) : (s.reply a).kvWaiters = s.kvWaiters := rfl
@[simp] theorem State.reply_rings (a) : (s.reply a).rings = s.rings := rfl
@[simp] theorem State.reply_dispatch (a) : (s.reply a).dispatch = s.dispatch := rfl
@[simp] theorem State.reply_crossings (a) : (s.reply a).crossings = s.crossings := rfl
@[simp] theorem State.reply_streams (a) : (s.reply a).streams = s.streams := rfl
@[simp] theorem State.reply_tokQueue (a) : (s.reply a).tokQueue = s.tokQueue := rfl
@[simp] theorem State.reply_encoders (a) : (s.reply a).encoders = s.encoders := rfl
@[simp] theorem State.reply_chk (a) : (s.reply a).chk = s.chk := rfl
@[simp] theorem State.reply_links (a) : (s.reply a).links = s.links := rfl
@[simp] theorem State.reply_stranded (a) : (s.reply a).stranded = s.stranded := rfl
@[simp] theorem State.reply_routes (a) : (s.reply a).routes = s.routes := rfl
@[simp] theorem State.reply_linkKeys (a) : (s.reply a).linkKeys = s.linkKeys := rfl
@[simp] theorem State.reply_gate (a) : (s.reply a).gate = s.gate := rfl
@[simp] theorem State.reply_stashStacks (a) : (s.reply a).stashStacks = s.stashStacks := rfl
@[simp] theorem State.reply_ckp (a) : (s.reply a).ckp = s.ckp := rfl
@[simp] theorem State.reply_xfers (a) : (s.reply a).xfers = s.xfers := rfl
@[simp] theorem State.reply_reqs (a) : (s.reply a).reqs = s.reqs := rfl
@[simp] theorem State.reply_nextReq (a) : (s.reply a).nextReq = s.nextReq := rfl
@[simp] theorem State.reply_timeSynced (a) : (s.reply a).timeSynced = s.timeSynced := rfl
@[simp] theorem State.reply_timeGood (a) : (s.reply a).timeGood = s.timeGood := rfl
@[simp] theorem State.reply_timeMissed (a) : (s.reply a).timeMissed = s.timeMissed := rfl
@[simp] theorem State.reply_slew (a) : (s.reply a).slew = s.slew := rfl
@[simp] theorem State.reply_slewTicks (a) : (s.reply a).slewTicks = s.slewTicks := rfl
@[simp] theorem State.reply_queues (a) : (s.reply a).queues = s.queues := rfl
@[simp] theorem State.reply_sec (a) : (s.reply a).sec = s.sec := rfl
@[simp] theorem State.reply_pwr (a) : (s.reply a).pwr = s.pwr := rfl
@[simp] theorem State.reply_bst (a) : (s.reply a).bst = s.bst := rfl
@[simp] theorem State.reply_tap (a) : (s.reply a).tap = s.tap := rfl
@[simp] theorem State.reply_srstBusy (a) : (s.reply a).srstBusy = s.srstBusy := rfl
@[simp] theorem State.reply_dbgStep (a) : (s.reply a).dbgStep = s.dbgStep := rfl
@[simp] theorem State.reply_out (a) : (s.reply a).out = s.out := rfl
@[simp] theorem State.reply_freeCtr (a) : (s.reply a).freeCtr = s.freeCtr := rfl
@[simp] theorem State.reply_pending (a) : (s.reply a).pending = s.pending := rfl

@[simp] theorem State.setFld_mt (a b c d e) : (s.setFld a b c d e).mt = s.mt := rfl
@[simp] theorem State.setFld_aoOn (a b c d e) : (s.setFld a b c d e).aoOn = s.aoOn := rfl
@[simp] theorem State.setFld_hold (a b c d e) : (s.setFld a b c d e).hold = s.hold := rfl
@[simp] theorem State.setFld_mem (a b c d e) : (s.setFld a b c d e).mem = s.mem := rfl
@[simp] theorem State.setFld_poison (a b c d e) : (s.setFld a b c d e).poison = s.poison := rfl
@[simp] theorem State.setFld_upsets (a b c d e) : (s.setFld a b c d e).upsets = s.upsets := rfl
@[simp] theorem State.setFld_ceWin (a b c d e) : (s.setFld a b c d e).ceWin = s.ceWin := rfl
@[simp] theorem State.setFld_scrubPos (a b c d e) : (s.setFld a b c d e).scrubPos = s.scrubPos := rfl
@[simp] theorem State.setFld_tiles (a b c d e) : (s.setFld a b c d e).tiles = s.tiles := rfl
@[simp] theorem State.setFld_signals (a b c d e) : (s.setFld a b c d e).signals = s.signals := rfl
@[simp] theorem State.setFld_arrivals (a b c d e) : (s.setFld a b c d e).arrivals = s.arrivals := rfl
@[simp] theorem State.setFld_barriers (a b c d e) : (s.setFld a b c d e).barriers = s.barriers := rfl
@[simp] theorem State.setFld_step (a b c d e) : (s.setFld a b c d e).step = s.step := rfl
@[simp] theorem State.setFld_ctlOut (a b c d e) : (s.setFld a b c d e).ctlOut = s.ctlOut := rfl
@[simp] theorem State.setFld_log (a b c d e) : (s.setFld a b c d e).log = s.log := rfl
@[simp] theorem State.setFld_logLatch (a b c d e) : (s.setFld a b c d e).logLatch = s.logLatch := rfl
@[simp] theorem State.setFld_logOverwrote (a b c d e) : (s.setFld a b c d e).logOverwrote = s.logOverwrote := rfl
@[simp] theorem State.setFld_voidCause (a b c d e) : (s.setFld a b c d e).voidCause = s.voidCause := rfl
@[simp] theorem State.setFld_ports (a b c d e) : (s.setFld a b c d e).ports = s.ports := rfl
@[simp] theorem State.setFld_pools (a b c d e) : (s.setFld a b c d e).pools = s.pools := rfl
@[simp] theorem State.setFld_kvWaiters (a b c d e) : (s.setFld a b c d e).kvWaiters = s.kvWaiters := rfl
@[simp] theorem State.setFld_rings (a b c d e) : (s.setFld a b c d e).rings = s.rings := rfl
@[simp] theorem State.setFld_dispatch (a b c d e) : (s.setFld a b c d e).dispatch = s.dispatch := rfl
@[simp] theorem State.setFld_crossings (a b c d e) : (s.setFld a b c d e).crossings = s.crossings := rfl
@[simp] theorem State.setFld_streams (a b c d e) : (s.setFld a b c d e).streams = s.streams := rfl
@[simp] theorem State.setFld_tokQueue (a b c d e) : (s.setFld a b c d e).tokQueue = s.tokQueue := rfl
@[simp] theorem State.setFld_encoders (a b c d e) : (s.setFld a b c d e).encoders = s.encoders := rfl
@[simp] theorem State.setFld_chk (a b c d e) : (s.setFld a b c d e).chk = s.chk := rfl
@[simp] theorem State.setFld_links (a b c d e) : (s.setFld a b c d e).links = s.links := rfl
@[simp] theorem State.setFld_stranded (a b c d e) : (s.setFld a b c d e).stranded = s.stranded := rfl
@[simp] theorem State.setFld_routes (a b c d e) : (s.setFld a b c d e).routes = s.routes := rfl
@[simp] theorem State.setFld_linkKeys (a b c d e) : (s.setFld a b c d e).linkKeys = s.linkKeys := rfl
@[simp] theorem State.setFld_gate (a b c d e) : (s.setFld a b c d e).gate = s.gate := rfl
@[simp] theorem State.setFld_stashStacks (a b c d e) : (s.setFld a b c d e).stashStacks = s.stashStacks := rfl
@[simp] theorem State.setFld_ckp (a b c d e) : (s.setFld a b c d e).ckp = s.ckp := rfl
@[simp] theorem State.setFld_xfers (a b c d e) : (s.setFld a b c d e).xfers = s.xfers := rfl
@[simp] theorem State.setFld_reqs (a b c d e) : (s.setFld a b c d e).reqs = s.reqs := rfl
@[simp] theorem State.setFld_nextReq (a b c d e) : (s.setFld a b c d e).nextReq = s.nextReq := rfl
@[simp] theorem State.setFld_timeSynced (a b c d e) : (s.setFld a b c d e).timeSynced = s.timeSynced := rfl
@[simp] theorem State.setFld_timeGood (a b c d e) : (s.setFld a b c d e).timeGood = s.timeGood := rfl
@[simp] theorem State.setFld_timeMissed (a b c d e) : (s.setFld a b c d e).timeMissed = s.timeMissed := rfl
@[simp] theorem State.setFld_slew (a b c d e) : (s.setFld a b c d e).slew = s.slew := rfl
@[simp] theorem State.setFld_slewTicks (a b c d e) : (s.setFld a b c d e).slewTicks = s.slewTicks := rfl
@[simp] theorem State.setFld_queues (a b c d e) : (s.setFld a b c d e).queues = s.queues := rfl
@[simp] theorem State.setFld_sec (a b c d e) : (s.setFld a b c d e).sec = s.sec := rfl
@[simp] theorem State.setFld_pwr (a b c d e) : (s.setFld a b c d e).pwr = s.pwr := rfl
@[simp] theorem State.setFld_bst (a b c d e) : (s.setFld a b c d e).bst = s.bst := rfl
@[simp] theorem State.setFld_tap (a b c d e) : (s.setFld a b c d e).tap = s.tap := rfl
@[simp] theorem State.setFld_srstBusy (a b c d e) : (s.setFld a b c d e).srstBusy = s.srstBusy := rfl
@[simp] theorem State.setFld_dbgStep (a b c d e) : (s.setFld a b c d e).dbgStep = s.dbgStep := rfl
@[simp] theorem State.setFld_out (a b c d e) : (s.setFld a b c d e).out = s.out := rfl
@[simp] theorem State.setFld_answer (a b c d e) : (s.setFld a b c d e).answer = s.answer := rfl
@[simp] theorem State.setFld_freeCtr (a b c d e) : (s.setFld a b c d e).freeCtr = s.freeCtr := rfl
@[simp] theorem State.setFld_pending (a b c d e) : (s.setFld a b c d e).pending = s.pending := rfl

@[simp] theorem State.bump_mt (a b c) : (s.bump a b c).mt = s.mt := rfl
@[simp] theorem State.bump_aoOn (a b c) : (s.bump a b c).aoOn = s.aoOn := rfl
@[simp] theorem State.bump_hold (a b c) : (s.bump a b c).hold = s.hold := rfl
@[simp] theorem State.bump_mem (a b c) : (s.bump a b c).mem = s.mem := rfl
@[simp] theorem State.bump_poison (a b c) : (s.bump a b c).poison = s.poison := rfl
@[simp] theorem State.bump_upsets (a b c) : (s.bump a b c).upsets = s.upsets := rfl
@[simp] theorem State.bump_ceWin (a b c) : (s.bump a b c).ceWin = s.ceWin := rfl
@[simp] theorem State.bump_scrubPos (a b c) : (s.bump a b c).scrubPos = s.scrubPos := rfl
@[simp] theorem State.bump_tiles (a b c) : (s.bump a b c).tiles = s.tiles := rfl
@[simp] theorem State.bump_signals (a b c) : (s.bump a b c).signals = s.signals := rfl
@[simp] theorem State.bump_arrivals (a b c) : (s.bump a b c).arrivals = s.arrivals := rfl
@[simp] theorem State.bump_barriers (a b c) : (s.bump a b c).barriers = s.barriers := rfl
@[simp] theorem State.bump_step (a b c) : (s.bump a b c).step = s.step := rfl
@[simp] theorem State.bump_ctlOut (a b c) : (s.bump a b c).ctlOut = s.ctlOut := rfl
@[simp] theorem State.bump_log (a b c) : (s.bump a b c).log = s.log := rfl
@[simp] theorem State.bump_logLatch (a b c) : (s.bump a b c).logLatch = s.logLatch := rfl
@[simp] theorem State.bump_logOverwrote (a b c) : (s.bump a b c).logOverwrote = s.logOverwrote := rfl
@[simp] theorem State.bump_voidCause (a b c) : (s.bump a b c).voidCause = s.voidCause := rfl
@[simp] theorem State.bump_ports (a b c) : (s.bump a b c).ports = s.ports := rfl
@[simp] theorem State.bump_pools (a b c) : (s.bump a b c).pools = s.pools := rfl
@[simp] theorem State.bump_kvWaiters (a b c) : (s.bump a b c).kvWaiters = s.kvWaiters := rfl
@[simp] theorem State.bump_rings (a b c) : (s.bump a b c).rings = s.rings := rfl
@[simp] theorem State.bump_dispatch (a b c) : (s.bump a b c).dispatch = s.dispatch := rfl
@[simp] theorem State.bump_crossings (a b c) : (s.bump a b c).crossings = s.crossings := rfl
@[simp] theorem State.bump_streams (a b c) : (s.bump a b c).streams = s.streams := rfl
@[simp] theorem State.bump_tokQueue (a b c) : (s.bump a b c).tokQueue = s.tokQueue := rfl
@[simp] theorem State.bump_encoders (a b c) : (s.bump a b c).encoders = s.encoders := rfl
@[simp] theorem State.bump_chk (a b c) : (s.bump a b c).chk = s.chk := rfl
@[simp] theorem State.bump_links (a b c) : (s.bump a b c).links = s.links := rfl
@[simp] theorem State.bump_stranded (a b c) : (s.bump a b c).stranded = s.stranded := rfl
@[simp] theorem State.bump_routes (a b c) : (s.bump a b c).routes = s.routes := rfl
@[simp] theorem State.bump_linkKeys (a b c) : (s.bump a b c).linkKeys = s.linkKeys := rfl
@[simp] theorem State.bump_gate (a b c) : (s.bump a b c).gate = s.gate := rfl
@[simp] theorem State.bump_stashStacks (a b c) : (s.bump a b c).stashStacks = s.stashStacks := rfl
@[simp] theorem State.bump_ckp (a b c) : (s.bump a b c).ckp = s.ckp := rfl
@[simp] theorem State.bump_xfers (a b c) : (s.bump a b c).xfers = s.xfers := rfl
@[simp] theorem State.bump_reqs (a b c) : (s.bump a b c).reqs = s.reqs := rfl
@[simp] theorem State.bump_nextReq (a b c) : (s.bump a b c).nextReq = s.nextReq := rfl
@[simp] theorem State.bump_timeSynced (a b c) : (s.bump a b c).timeSynced = s.timeSynced := rfl
@[simp] theorem State.bump_timeGood (a b c) : (s.bump a b c).timeGood = s.timeGood := rfl
@[simp] theorem State.bump_timeMissed (a b c) : (s.bump a b c).timeMissed = s.timeMissed := rfl
@[simp] theorem State.bump_slew (a b c) : (s.bump a b c).slew = s.slew := rfl
@[simp] theorem State.bump_slewTicks (a b c) : (s.bump a b c).slewTicks = s.slewTicks := rfl
@[simp] theorem State.bump_queues (a b c) : (s.bump a b c).queues = s.queues := rfl
@[simp] theorem State.bump_sec (a b c) : (s.bump a b c).sec = s.sec := rfl
@[simp] theorem State.bump_pwr (a b c) : (s.bump a b c).pwr = s.pwr := rfl
@[simp] theorem State.bump_bst (a b c) : (s.bump a b c).bst = s.bst := rfl
@[simp] theorem State.bump_tap (a b c) : (s.bump a b c).tap = s.tap := rfl
@[simp] theorem State.bump_srstBusy (a b c) : (s.bump a b c).srstBusy = s.srstBusy := rfl
@[simp] theorem State.bump_dbgStep (a b c) : (s.bump a b c).dbgStep = s.dbgStep := rfl
@[simp] theorem State.bump_out (a b c) : (s.bump a b c).out = s.out := rfl
@[simp] theorem State.bump_answer (a b c) : (s.bump a b c).answer = s.answer := rfl
@[simp] theorem State.bump_freeCtr (a b c) : (s.bump a b c).freeCtr = s.freeCtr := rfl
@[simp] theorem State.bump_pending (a b c) : (s.bump a b c).pending = s.pending := rfl

@[simp] theorem State.wrapAdd_mt (a b c) : (s.wrapAdd a b c).mt = s.mt := rfl
@[simp] theorem State.wrapAdd_aoOn (a b c) : (s.wrapAdd a b c).aoOn = s.aoOn := rfl
@[simp] theorem State.wrapAdd_hold (a b c) : (s.wrapAdd a b c).hold = s.hold := rfl
@[simp] theorem State.wrapAdd_mem (a b c) : (s.wrapAdd a b c).mem = s.mem := rfl
@[simp] theorem State.wrapAdd_poison (a b c) : (s.wrapAdd a b c).poison = s.poison := rfl
@[simp] theorem State.wrapAdd_upsets (a b c) : (s.wrapAdd a b c).upsets = s.upsets := rfl
@[simp] theorem State.wrapAdd_ceWin (a b c) : (s.wrapAdd a b c).ceWin = s.ceWin := rfl
@[simp] theorem State.wrapAdd_scrubPos (a b c) : (s.wrapAdd a b c).scrubPos = s.scrubPos := rfl
@[simp] theorem State.wrapAdd_tiles (a b c) : (s.wrapAdd a b c).tiles = s.tiles := rfl
@[simp] theorem State.wrapAdd_signals (a b c) : (s.wrapAdd a b c).signals = s.signals := rfl
@[simp] theorem State.wrapAdd_arrivals (a b c) : (s.wrapAdd a b c).arrivals = s.arrivals := rfl
@[simp] theorem State.wrapAdd_barriers (a b c) : (s.wrapAdd a b c).barriers = s.barriers := rfl
@[simp] theorem State.wrapAdd_step (a b c) : (s.wrapAdd a b c).step = s.step := rfl
@[simp] theorem State.wrapAdd_ctlOut (a b c) : (s.wrapAdd a b c).ctlOut = s.ctlOut := rfl
@[simp] theorem State.wrapAdd_log (a b c) : (s.wrapAdd a b c).log = s.log := rfl
@[simp] theorem State.wrapAdd_logLatch (a b c) : (s.wrapAdd a b c).logLatch = s.logLatch := rfl
@[simp] theorem State.wrapAdd_logOverwrote (a b c) : (s.wrapAdd a b c).logOverwrote = s.logOverwrote := rfl
@[simp] theorem State.wrapAdd_voidCause (a b c) : (s.wrapAdd a b c).voidCause = s.voidCause := rfl
@[simp] theorem State.wrapAdd_ports (a b c) : (s.wrapAdd a b c).ports = s.ports := rfl
@[simp] theorem State.wrapAdd_pools (a b c) : (s.wrapAdd a b c).pools = s.pools := rfl
@[simp] theorem State.wrapAdd_kvWaiters (a b c) : (s.wrapAdd a b c).kvWaiters = s.kvWaiters := rfl
@[simp] theorem State.wrapAdd_rings (a b c) : (s.wrapAdd a b c).rings = s.rings := rfl
@[simp] theorem State.wrapAdd_dispatch (a b c) : (s.wrapAdd a b c).dispatch = s.dispatch := rfl
@[simp] theorem State.wrapAdd_crossings (a b c) : (s.wrapAdd a b c).crossings = s.crossings := rfl
@[simp] theorem State.wrapAdd_streams (a b c) : (s.wrapAdd a b c).streams = s.streams := rfl
@[simp] theorem State.wrapAdd_tokQueue (a b c) : (s.wrapAdd a b c).tokQueue = s.tokQueue := rfl
@[simp] theorem State.wrapAdd_encoders (a b c) : (s.wrapAdd a b c).encoders = s.encoders := rfl
@[simp] theorem State.wrapAdd_chk (a b c) : (s.wrapAdd a b c).chk = s.chk := rfl
@[simp] theorem State.wrapAdd_links (a b c) : (s.wrapAdd a b c).links = s.links := rfl
@[simp] theorem State.wrapAdd_stranded (a b c) : (s.wrapAdd a b c).stranded = s.stranded := rfl
@[simp] theorem State.wrapAdd_routes (a b c) : (s.wrapAdd a b c).routes = s.routes := rfl
@[simp] theorem State.wrapAdd_linkKeys (a b c) : (s.wrapAdd a b c).linkKeys = s.linkKeys := rfl
@[simp] theorem State.wrapAdd_gate (a b c) : (s.wrapAdd a b c).gate = s.gate := rfl
@[simp] theorem State.wrapAdd_stashStacks (a b c) : (s.wrapAdd a b c).stashStacks = s.stashStacks := rfl
@[simp] theorem State.wrapAdd_ckp (a b c) : (s.wrapAdd a b c).ckp = s.ckp := rfl
@[simp] theorem State.wrapAdd_xfers (a b c) : (s.wrapAdd a b c).xfers = s.xfers := rfl
@[simp] theorem State.wrapAdd_reqs (a b c) : (s.wrapAdd a b c).reqs = s.reqs := rfl
@[simp] theorem State.wrapAdd_nextReq (a b c) : (s.wrapAdd a b c).nextReq = s.nextReq := rfl
@[simp] theorem State.wrapAdd_timeSynced (a b c) : (s.wrapAdd a b c).timeSynced = s.timeSynced := rfl
@[simp] theorem State.wrapAdd_timeGood (a b c) : (s.wrapAdd a b c).timeGood = s.timeGood := rfl
@[simp] theorem State.wrapAdd_timeMissed (a b c) : (s.wrapAdd a b c).timeMissed = s.timeMissed := rfl
@[simp] theorem State.wrapAdd_slew (a b c) : (s.wrapAdd a b c).slew = s.slew := rfl
@[simp] theorem State.wrapAdd_slewTicks (a b c) : (s.wrapAdd a b c).slewTicks = s.slewTicks := rfl
@[simp] theorem State.wrapAdd_queues (a b c) : (s.wrapAdd a b c).queues = s.queues := rfl
@[simp] theorem State.wrapAdd_sec (a b c) : (s.wrapAdd a b c).sec = s.sec := rfl
@[simp] theorem State.wrapAdd_pwr (a b c) : (s.wrapAdd a b c).pwr = s.pwr := rfl
@[simp] theorem State.wrapAdd_bst (a b c) : (s.wrapAdd a b c).bst = s.bst := rfl
@[simp] theorem State.wrapAdd_tap (a b c) : (s.wrapAdd a b c).tap = s.tap := rfl
@[simp] theorem State.wrapAdd_srstBusy (a b c) : (s.wrapAdd a b c).srstBusy = s.srstBusy := rfl
@[simp] theorem State.wrapAdd_dbgStep (a b c) : (s.wrapAdd a b c).dbgStep = s.dbgStep := rfl
@[simp] theorem State.wrapAdd_out (a b c) : (s.wrapAdd a b c).out = s.out := rfl
@[simp] theorem State.wrapAdd_answer (a b c) : (s.wrapAdd a b c).answer = s.answer := rfl
@[simp] theorem State.wrapAdd_freeCtr (a b c) : (s.wrapAdd a b c).freeCtr = s.freeCtr := rfl
@[simp] theorem State.wrapAdd_pending (a b c) : (s.wrapAdd a b c).pending = s.pending := rfl

@[simp] theorem State.orReg_mt (a b c) : (s.orReg a b c).mt = s.mt := rfl
@[simp] theorem State.orReg_aoOn (a b c) : (s.orReg a b c).aoOn = s.aoOn := rfl
@[simp] theorem State.orReg_hold (a b c) : (s.orReg a b c).hold = s.hold := rfl
@[simp] theorem State.orReg_mem (a b c) : (s.orReg a b c).mem = s.mem := rfl
@[simp] theorem State.orReg_poison (a b c) : (s.orReg a b c).poison = s.poison := rfl
@[simp] theorem State.orReg_upsets (a b c) : (s.orReg a b c).upsets = s.upsets := rfl
@[simp] theorem State.orReg_ceWin (a b c) : (s.orReg a b c).ceWin = s.ceWin := rfl
@[simp] theorem State.orReg_scrubPos (a b c) : (s.orReg a b c).scrubPos = s.scrubPos := rfl
@[simp] theorem State.orReg_tiles (a b c) : (s.orReg a b c).tiles = s.tiles := rfl
@[simp] theorem State.orReg_signals (a b c) : (s.orReg a b c).signals = s.signals := rfl
@[simp] theorem State.orReg_arrivals (a b c) : (s.orReg a b c).arrivals = s.arrivals := rfl
@[simp] theorem State.orReg_barriers (a b c) : (s.orReg a b c).barriers = s.barriers := rfl
@[simp] theorem State.orReg_step (a b c) : (s.orReg a b c).step = s.step := rfl
@[simp] theorem State.orReg_ctlOut (a b c) : (s.orReg a b c).ctlOut = s.ctlOut := rfl
@[simp] theorem State.orReg_log (a b c) : (s.orReg a b c).log = s.log := rfl
@[simp] theorem State.orReg_logLatch (a b c) : (s.orReg a b c).logLatch = s.logLatch := rfl
@[simp] theorem State.orReg_logOverwrote (a b c) : (s.orReg a b c).logOverwrote = s.logOverwrote := rfl
@[simp] theorem State.orReg_voidCause (a b c) : (s.orReg a b c).voidCause = s.voidCause := rfl
@[simp] theorem State.orReg_ports (a b c) : (s.orReg a b c).ports = s.ports := rfl
@[simp] theorem State.orReg_pools (a b c) : (s.orReg a b c).pools = s.pools := rfl
@[simp] theorem State.orReg_kvWaiters (a b c) : (s.orReg a b c).kvWaiters = s.kvWaiters := rfl
@[simp] theorem State.orReg_rings (a b c) : (s.orReg a b c).rings = s.rings := rfl
@[simp] theorem State.orReg_dispatch (a b c) : (s.orReg a b c).dispatch = s.dispatch := rfl
@[simp] theorem State.orReg_crossings (a b c) : (s.orReg a b c).crossings = s.crossings := rfl
@[simp] theorem State.orReg_streams (a b c) : (s.orReg a b c).streams = s.streams := rfl
@[simp] theorem State.orReg_tokQueue (a b c) : (s.orReg a b c).tokQueue = s.tokQueue := rfl
@[simp] theorem State.orReg_encoders (a b c) : (s.orReg a b c).encoders = s.encoders := rfl
@[simp] theorem State.orReg_chk (a b c) : (s.orReg a b c).chk = s.chk := rfl
@[simp] theorem State.orReg_links (a b c) : (s.orReg a b c).links = s.links := rfl
@[simp] theorem State.orReg_stranded (a b c) : (s.orReg a b c).stranded = s.stranded := rfl
@[simp] theorem State.orReg_routes (a b c) : (s.orReg a b c).routes = s.routes := rfl
@[simp] theorem State.orReg_linkKeys (a b c) : (s.orReg a b c).linkKeys = s.linkKeys := rfl
@[simp] theorem State.orReg_gate (a b c) : (s.orReg a b c).gate = s.gate := rfl
@[simp] theorem State.orReg_stashStacks (a b c) : (s.orReg a b c).stashStacks = s.stashStacks := rfl
@[simp] theorem State.orReg_ckp (a b c) : (s.orReg a b c).ckp = s.ckp := rfl
@[simp] theorem State.orReg_xfers (a b c) : (s.orReg a b c).xfers = s.xfers := rfl
@[simp] theorem State.orReg_reqs (a b c) : (s.orReg a b c).reqs = s.reqs := rfl
@[simp] theorem State.orReg_nextReq (a b c) : (s.orReg a b c).nextReq = s.nextReq := rfl
@[simp] theorem State.orReg_timeSynced (a b c) : (s.orReg a b c).timeSynced = s.timeSynced := rfl
@[simp] theorem State.orReg_timeGood (a b c) : (s.orReg a b c).timeGood = s.timeGood := rfl
@[simp] theorem State.orReg_timeMissed (a b c) : (s.orReg a b c).timeMissed = s.timeMissed := rfl
@[simp] theorem State.orReg_slew (a b c) : (s.orReg a b c).slew = s.slew := rfl
@[simp] theorem State.orReg_slewTicks (a b c) : (s.orReg a b c).slewTicks = s.slewTicks := rfl
@[simp] theorem State.orReg_queues (a b c) : (s.orReg a b c).queues = s.queues := rfl
@[simp] theorem State.orReg_sec (a b c) : (s.orReg a b c).sec = s.sec := rfl
@[simp] theorem State.orReg_pwr (a b c) : (s.orReg a b c).pwr = s.pwr := rfl
@[simp] theorem State.orReg_bst (a b c) : (s.orReg a b c).bst = s.bst := rfl
@[simp] theorem State.orReg_tap (a b c) : (s.orReg a b c).tap = s.tap := rfl
@[simp] theorem State.orReg_srstBusy (a b c) : (s.orReg a b c).srstBusy = s.srstBusy := rfl
@[simp] theorem State.orReg_dbgStep (a b c) : (s.orReg a b c).dbgStep = s.dbgStep := rfl
@[simp] theorem State.orReg_out (a b c) : (s.orReg a b c).out = s.out := rfl
@[simp] theorem State.orReg_answer (a b c) : (s.orReg a b c).answer = s.answer := rfl
@[simp] theorem State.orReg_freeCtr (a b c) : (s.orReg a b c).freeCtr = s.freeCtr := rfl
@[simp] theorem State.orReg_pending (a b c) : (s.orReg a b c).pending = s.pending := rfl

@[simp] theorem State.setCrs_mt (a b) : (s.setCrs a b).mt = s.mt := rfl
@[simp] theorem State.setCrs_aoOn (a b) : (s.setCrs a b).aoOn = s.aoOn := rfl
@[simp] theorem State.setCrs_hold (a b) : (s.setCrs a b).hold = s.hold := rfl
@[simp] theorem State.setCrs_regs (a b) : (s.setCrs a b).regs = s.regs := rfl
@[simp] theorem State.setCrs_mem (a b) : (s.setCrs a b).mem = s.mem := rfl
@[simp] theorem State.setCrs_poison (a b) : (s.setCrs a b).poison = s.poison := rfl
@[simp] theorem State.setCrs_upsets (a b) : (s.setCrs a b).upsets = s.upsets := rfl
@[simp] theorem State.setCrs_ceWin (a b) : (s.setCrs a b).ceWin = s.ceWin := rfl
@[simp] theorem State.setCrs_scrubPos (a b) : (s.setCrs a b).scrubPos = s.scrubPos := rfl
@[simp] theorem State.setCrs_tiles (a b) : (s.setCrs a b).tiles = s.tiles := rfl
@[simp] theorem State.setCrs_signals (a b) : (s.setCrs a b).signals = s.signals := rfl
@[simp] theorem State.setCrs_arrivals (a b) : (s.setCrs a b).arrivals = s.arrivals := rfl
@[simp] theorem State.setCrs_barriers (a b) : (s.setCrs a b).barriers = s.barriers := rfl
@[simp] theorem State.setCrs_step (a b) : (s.setCrs a b).step = s.step := rfl
@[simp] theorem State.setCrs_ctlOut (a b) : (s.setCrs a b).ctlOut = s.ctlOut := rfl
@[simp] theorem State.setCrs_log (a b) : (s.setCrs a b).log = s.log := rfl
@[simp] theorem State.setCrs_logLatch (a b) : (s.setCrs a b).logLatch = s.logLatch := rfl
@[simp] theorem State.setCrs_logOverwrote (a b) : (s.setCrs a b).logOverwrote = s.logOverwrote := rfl
@[simp] theorem State.setCrs_voidCause (a b) : (s.setCrs a b).voidCause = s.voidCause := rfl
@[simp] theorem State.setCrs_ports (a b) : (s.setCrs a b).ports = s.ports := rfl
@[simp] theorem State.setCrs_pools (a b) : (s.setCrs a b).pools = s.pools := rfl
@[simp] theorem State.setCrs_kvWaiters (a b) : (s.setCrs a b).kvWaiters = s.kvWaiters := rfl
@[simp] theorem State.setCrs_rings (a b) : (s.setCrs a b).rings = s.rings := rfl
@[simp] theorem State.setCrs_dispatch (a b) : (s.setCrs a b).dispatch = s.dispatch := rfl
@[simp] theorem State.setCrs_streams (a b) : (s.setCrs a b).streams = s.streams := rfl
@[simp] theorem State.setCrs_tokQueue (a b) : (s.setCrs a b).tokQueue = s.tokQueue := rfl
@[simp] theorem State.setCrs_encoders (a b) : (s.setCrs a b).encoders = s.encoders := rfl
@[simp] theorem State.setCrs_chk (a b) : (s.setCrs a b).chk = s.chk := rfl
@[simp] theorem State.setCrs_links (a b) : (s.setCrs a b).links = s.links := rfl
@[simp] theorem State.setCrs_stranded (a b) : (s.setCrs a b).stranded = s.stranded := rfl
@[simp] theorem State.setCrs_routes (a b) : (s.setCrs a b).routes = s.routes := rfl
@[simp] theorem State.setCrs_linkKeys (a b) : (s.setCrs a b).linkKeys = s.linkKeys := rfl
@[simp] theorem State.setCrs_gate (a b) : (s.setCrs a b).gate = s.gate := rfl
@[simp] theorem State.setCrs_stashStacks (a b) : (s.setCrs a b).stashStacks = s.stashStacks := rfl
@[simp] theorem State.setCrs_ckp (a b) : (s.setCrs a b).ckp = s.ckp := rfl
@[simp] theorem State.setCrs_xfers (a b) : (s.setCrs a b).xfers = s.xfers := rfl
@[simp] theorem State.setCrs_reqs (a b) : (s.setCrs a b).reqs = s.reqs := rfl
@[simp] theorem State.setCrs_nextReq (a b) : (s.setCrs a b).nextReq = s.nextReq := rfl
@[simp] theorem State.setCrs_timeSynced (a b) : (s.setCrs a b).timeSynced = s.timeSynced := rfl
@[simp] theorem State.setCrs_timeGood (a b) : (s.setCrs a b).timeGood = s.timeGood := rfl
@[simp] theorem State.setCrs_timeMissed (a b) : (s.setCrs a b).timeMissed = s.timeMissed := rfl
@[simp] theorem State.setCrs_slew (a b) : (s.setCrs a b).slew = s.slew := rfl
@[simp] theorem State.setCrs_slewTicks (a b) : (s.setCrs a b).slewTicks = s.slewTicks := rfl
@[simp] theorem State.setCrs_queues (a b) : (s.setCrs a b).queues = s.queues := rfl
@[simp] theorem State.setCrs_sec (a b) : (s.setCrs a b).sec = s.sec := rfl
@[simp] theorem State.setCrs_pwr (a b) : (s.setCrs a b).pwr = s.pwr := rfl
@[simp] theorem State.setCrs_bst (a b) : (s.setCrs a b).bst = s.bst := rfl
@[simp] theorem State.setCrs_tap (a b) : (s.setCrs a b).tap = s.tap := rfl
@[simp] theorem State.setCrs_srstBusy (a b) : (s.setCrs a b).srstBusy = s.srstBusy := rfl
@[simp] theorem State.setCrs_dbgStep (a b) : (s.setCrs a b).dbgStep = s.dbgStep := rfl
@[simp] theorem State.setCrs_out (a b) : (s.setCrs a b).out = s.out := rfl
@[simp] theorem State.setCrs_answer (a b) : (s.setCrs a b).answer = s.answer := rfl
@[simp] theorem State.setCrs_freeCtr (a b) : (s.setCrs a b).freeCtr = s.freeCtr := rfl
@[simp] theorem State.setCrs_pending (a b) : (s.setCrs a b).pending = s.pending := rfl

@[simp] theorem State.setChkUnit_mt (a b) : (s.setChkUnit a b).mt = s.mt := rfl
@[simp] theorem State.setChkUnit_aoOn (a b) : (s.setChkUnit a b).aoOn = s.aoOn := rfl
@[simp] theorem State.setChkUnit_hold (a b) : (s.setChkUnit a b).hold = s.hold := rfl
@[simp] theorem State.setChkUnit_regs (a b) : (s.setChkUnit a b).regs = s.regs := rfl
@[simp] theorem State.setChkUnit_mem (a b) : (s.setChkUnit a b).mem = s.mem := rfl
@[simp] theorem State.setChkUnit_poison (a b) : (s.setChkUnit a b).poison = s.poison := rfl
@[simp] theorem State.setChkUnit_upsets (a b) : (s.setChkUnit a b).upsets = s.upsets := rfl
@[simp] theorem State.setChkUnit_ceWin (a b) : (s.setChkUnit a b).ceWin = s.ceWin := rfl
@[simp] theorem State.setChkUnit_scrubPos (a b) : (s.setChkUnit a b).scrubPos = s.scrubPos := rfl
@[simp] theorem State.setChkUnit_tiles (a b) : (s.setChkUnit a b).tiles = s.tiles := rfl
@[simp] theorem State.setChkUnit_signals (a b) : (s.setChkUnit a b).signals = s.signals := rfl
@[simp] theorem State.setChkUnit_arrivals (a b) : (s.setChkUnit a b).arrivals = s.arrivals := rfl
@[simp] theorem State.setChkUnit_barriers (a b) : (s.setChkUnit a b).barriers = s.barriers := rfl
@[simp] theorem State.setChkUnit_step (a b) : (s.setChkUnit a b).step = s.step := rfl
@[simp] theorem State.setChkUnit_ctlOut (a b) : (s.setChkUnit a b).ctlOut = s.ctlOut := rfl
@[simp] theorem State.setChkUnit_log (a b) : (s.setChkUnit a b).log = s.log := rfl
@[simp] theorem State.setChkUnit_logLatch (a b) : (s.setChkUnit a b).logLatch = s.logLatch := rfl
@[simp] theorem State.setChkUnit_logOverwrote (a b) : (s.setChkUnit a b).logOverwrote = s.logOverwrote := rfl
@[simp] theorem State.setChkUnit_voidCause (a b) : (s.setChkUnit a b).voidCause = s.voidCause := rfl
@[simp] theorem State.setChkUnit_ports (a b) : (s.setChkUnit a b).ports = s.ports := rfl
@[simp] theorem State.setChkUnit_pools (a b) : (s.setChkUnit a b).pools = s.pools := rfl
@[simp] theorem State.setChkUnit_kvWaiters (a b) : (s.setChkUnit a b).kvWaiters = s.kvWaiters := rfl
@[simp] theorem State.setChkUnit_rings (a b) : (s.setChkUnit a b).rings = s.rings := rfl
@[simp] theorem State.setChkUnit_dispatch (a b) : (s.setChkUnit a b).dispatch = s.dispatch := rfl
@[simp] theorem State.setChkUnit_crossings (a b) : (s.setChkUnit a b).crossings = s.crossings := rfl
@[simp] theorem State.setChkUnit_streams (a b) : (s.setChkUnit a b).streams = s.streams := rfl
@[simp] theorem State.setChkUnit_tokQueue (a b) : (s.setChkUnit a b).tokQueue = s.tokQueue := rfl
@[simp] theorem State.setChkUnit_encoders (a b) : (s.setChkUnit a b).encoders = s.encoders := rfl
@[simp] theorem State.setChkUnit_links (a b) : (s.setChkUnit a b).links = s.links := rfl
@[simp] theorem State.setChkUnit_stranded (a b) : (s.setChkUnit a b).stranded = s.stranded := rfl
@[simp] theorem State.setChkUnit_routes (a b) : (s.setChkUnit a b).routes = s.routes := rfl
@[simp] theorem State.setChkUnit_linkKeys (a b) : (s.setChkUnit a b).linkKeys = s.linkKeys := rfl
@[simp] theorem State.setChkUnit_gate (a b) : (s.setChkUnit a b).gate = s.gate := rfl
@[simp] theorem State.setChkUnit_stashStacks (a b) : (s.setChkUnit a b).stashStacks = s.stashStacks := rfl
@[simp] theorem State.setChkUnit_ckp (a b) : (s.setChkUnit a b).ckp = s.ckp := rfl
@[simp] theorem State.setChkUnit_xfers (a b) : (s.setChkUnit a b).xfers = s.xfers := rfl
@[simp] theorem State.setChkUnit_reqs (a b) : (s.setChkUnit a b).reqs = s.reqs := rfl
@[simp] theorem State.setChkUnit_nextReq (a b) : (s.setChkUnit a b).nextReq = s.nextReq := rfl
@[simp] theorem State.setChkUnit_timeSynced (a b) : (s.setChkUnit a b).timeSynced = s.timeSynced := rfl
@[simp] theorem State.setChkUnit_timeGood (a b) : (s.setChkUnit a b).timeGood = s.timeGood := rfl
@[simp] theorem State.setChkUnit_timeMissed (a b) : (s.setChkUnit a b).timeMissed = s.timeMissed := rfl
@[simp] theorem State.setChkUnit_slew (a b) : (s.setChkUnit a b).slew = s.slew := rfl
@[simp] theorem State.setChkUnit_slewTicks (a b) : (s.setChkUnit a b).slewTicks = s.slewTicks := rfl
@[simp] theorem State.setChkUnit_queues (a b) : (s.setChkUnit a b).queues = s.queues := rfl
@[simp] theorem State.setChkUnit_sec (a b) : (s.setChkUnit a b).sec = s.sec := rfl
@[simp] theorem State.setChkUnit_pwr (a b) : (s.setChkUnit a b).pwr = s.pwr := rfl
@[simp] theorem State.setChkUnit_bst (a b) : (s.setChkUnit a b).bst = s.bst := rfl
@[simp] theorem State.setChkUnit_tap (a b) : (s.setChkUnit a b).tap = s.tap := rfl
@[simp] theorem State.setChkUnit_srstBusy (a b) : (s.setChkUnit a b).srstBusy = s.srstBusy := rfl
@[simp] theorem State.setChkUnit_dbgStep (a b) : (s.setChkUnit a b).dbgStep = s.dbgStep := rfl
@[simp] theorem State.setChkUnit_out (a b) : (s.setChkUnit a b).out = s.out := rfl
@[simp] theorem State.setChkUnit_answer (a b) : (s.setChkUnit a b).answer = s.answer := rfl
@[simp] theorem State.setChkUnit_freeCtr (a b) : (s.setChkUnit a b).freeCtr = s.freeCtr := rfl
@[simp] theorem State.setChkUnit_pending (a b) : (s.setChkUnit a b).pending = s.pending := rfl

@[simp] theorem State.setPool_mt (a b) : (s.setPool a b).mt = s.mt := rfl
@[simp] theorem State.setPool_aoOn (a b) : (s.setPool a b).aoOn = s.aoOn := rfl
@[simp] theorem State.setPool_hold (a b) : (s.setPool a b).hold = s.hold := rfl
@[simp] theorem State.setPool_regs (a b) : (s.setPool a b).regs = s.regs := rfl
@[simp] theorem State.setPool_mem (a b) : (s.setPool a b).mem = s.mem := rfl
@[simp] theorem State.setPool_poison (a b) : (s.setPool a b).poison = s.poison := rfl
@[simp] theorem State.setPool_upsets (a b) : (s.setPool a b).upsets = s.upsets := rfl
@[simp] theorem State.setPool_ceWin (a b) : (s.setPool a b).ceWin = s.ceWin := rfl
@[simp] theorem State.setPool_scrubPos (a b) : (s.setPool a b).scrubPos = s.scrubPos := rfl
@[simp] theorem State.setPool_tiles (a b) : (s.setPool a b).tiles = s.tiles := rfl
@[simp] theorem State.setPool_signals (a b) : (s.setPool a b).signals = s.signals := rfl
@[simp] theorem State.setPool_arrivals (a b) : (s.setPool a b).arrivals = s.arrivals := rfl
@[simp] theorem State.setPool_barriers (a b) : (s.setPool a b).barriers = s.barriers := rfl
@[simp] theorem State.setPool_step (a b) : (s.setPool a b).step = s.step := rfl
@[simp] theorem State.setPool_ctlOut (a b) : (s.setPool a b).ctlOut = s.ctlOut := rfl
@[simp] theorem State.setPool_log (a b) : (s.setPool a b).log = s.log := rfl
@[simp] theorem State.setPool_logLatch (a b) : (s.setPool a b).logLatch = s.logLatch := rfl
@[simp] theorem State.setPool_logOverwrote (a b) : (s.setPool a b).logOverwrote = s.logOverwrote := rfl
@[simp] theorem State.setPool_voidCause (a b) : (s.setPool a b).voidCause = s.voidCause := rfl
@[simp] theorem State.setPool_ports (a b) : (s.setPool a b).ports = s.ports := rfl
@[simp] theorem State.setPool_kvWaiters (a b) : (s.setPool a b).kvWaiters = s.kvWaiters := rfl
@[simp] theorem State.setPool_rings (a b) : (s.setPool a b).rings = s.rings := rfl
@[simp] theorem State.setPool_dispatch (a b) : (s.setPool a b).dispatch = s.dispatch := rfl
@[simp] theorem State.setPool_crossings (a b) : (s.setPool a b).crossings = s.crossings := rfl
@[simp] theorem State.setPool_streams (a b) : (s.setPool a b).streams = s.streams := rfl
@[simp] theorem State.setPool_tokQueue (a b) : (s.setPool a b).tokQueue = s.tokQueue := rfl
@[simp] theorem State.setPool_encoders (a b) : (s.setPool a b).encoders = s.encoders := rfl
@[simp] theorem State.setPool_chk (a b) : (s.setPool a b).chk = s.chk := rfl
@[simp] theorem State.setPool_links (a b) : (s.setPool a b).links = s.links := rfl
@[simp] theorem State.setPool_stranded (a b) : (s.setPool a b).stranded = s.stranded := rfl
@[simp] theorem State.setPool_routes (a b) : (s.setPool a b).routes = s.routes := rfl
@[simp] theorem State.setPool_linkKeys (a b) : (s.setPool a b).linkKeys = s.linkKeys := rfl
@[simp] theorem State.setPool_gate (a b) : (s.setPool a b).gate = s.gate := rfl
@[simp] theorem State.setPool_stashStacks (a b) : (s.setPool a b).stashStacks = s.stashStacks := rfl
@[simp] theorem State.setPool_ckp (a b) : (s.setPool a b).ckp = s.ckp := rfl
@[simp] theorem State.setPool_xfers (a b) : (s.setPool a b).xfers = s.xfers := rfl
@[simp] theorem State.setPool_reqs (a b) : (s.setPool a b).reqs = s.reqs := rfl
@[simp] theorem State.setPool_nextReq (a b) : (s.setPool a b).nextReq = s.nextReq := rfl
@[simp] theorem State.setPool_timeSynced (a b) : (s.setPool a b).timeSynced = s.timeSynced := rfl
@[simp] theorem State.setPool_timeGood (a b) : (s.setPool a b).timeGood = s.timeGood := rfl
@[simp] theorem State.setPool_timeMissed (a b) : (s.setPool a b).timeMissed = s.timeMissed := rfl
@[simp] theorem State.setPool_slew (a b) : (s.setPool a b).slew = s.slew := rfl
@[simp] theorem State.setPool_slewTicks (a b) : (s.setPool a b).slewTicks = s.slewTicks := rfl
@[simp] theorem State.setPool_queues (a b) : (s.setPool a b).queues = s.queues := rfl
@[simp] theorem State.setPool_sec (a b) : (s.setPool a b).sec = s.sec := rfl
@[simp] theorem State.setPool_pwr (a b) : (s.setPool a b).pwr = s.pwr := rfl
@[simp] theorem State.setPool_bst (a b) : (s.setPool a b).bst = s.bst := rfl
@[simp] theorem State.setPool_tap (a b) : (s.setPool a b).tap = s.tap := rfl
@[simp] theorem State.setPool_srstBusy (a b) : (s.setPool a b).srstBusy = s.srstBusy := rfl
@[simp] theorem State.setPool_dbgStep (a b) : (s.setPool a b).dbgStep = s.dbgStep := rfl
@[simp] theorem State.setPool_out (a b) : (s.setPool a b).out = s.out := rfl
@[simp] theorem State.setPool_answer (a b) : (s.setPool a b).answer = s.answer := rfl
@[simp] theorem State.setPool_freeCtr (a b) : (s.setPool a b).freeCtr = s.freeCtr := rfl
@[simp] theorem State.setPool_pending (a b) : (s.setPool a b).pending = s.pending := rfl

@[simp] theorem State.setStr_mt (a b) : (s.setStr a b).mt = s.mt := rfl
@[simp] theorem State.setStr_aoOn (a b) : (s.setStr a b).aoOn = s.aoOn := rfl
@[simp] theorem State.setStr_hold (a b) : (s.setStr a b).hold = s.hold := rfl
@[simp] theorem State.setStr_regs (a b) : (s.setStr a b).regs = s.regs := rfl
@[simp] theorem State.setStr_mem (a b) : (s.setStr a b).mem = s.mem := rfl
@[simp] theorem State.setStr_poison (a b) : (s.setStr a b).poison = s.poison := rfl
@[simp] theorem State.setStr_upsets (a b) : (s.setStr a b).upsets = s.upsets := rfl
@[simp] theorem State.setStr_ceWin (a b) : (s.setStr a b).ceWin = s.ceWin := rfl
@[simp] theorem State.setStr_scrubPos (a b) : (s.setStr a b).scrubPos = s.scrubPos := rfl
@[simp] theorem State.setStr_tiles (a b) : (s.setStr a b).tiles = s.tiles := rfl
@[simp] theorem State.setStr_signals (a b) : (s.setStr a b).signals = s.signals := rfl
@[simp] theorem State.setStr_arrivals (a b) : (s.setStr a b).arrivals = s.arrivals := rfl
@[simp] theorem State.setStr_barriers (a b) : (s.setStr a b).barriers = s.barriers := rfl
@[simp] theorem State.setStr_step (a b) : (s.setStr a b).step = s.step := rfl
@[simp] theorem State.setStr_ctlOut (a b) : (s.setStr a b).ctlOut = s.ctlOut := rfl
@[simp] theorem State.setStr_log (a b) : (s.setStr a b).log = s.log := rfl
@[simp] theorem State.setStr_logLatch (a b) : (s.setStr a b).logLatch = s.logLatch := rfl
@[simp] theorem State.setStr_logOverwrote (a b) : (s.setStr a b).logOverwrote = s.logOverwrote := rfl
@[simp] theorem State.setStr_voidCause (a b) : (s.setStr a b).voidCause = s.voidCause := rfl
@[simp] theorem State.setStr_ports (a b) : (s.setStr a b).ports = s.ports := rfl
@[simp] theorem State.setStr_pools (a b) : (s.setStr a b).pools = s.pools := rfl
@[simp] theorem State.setStr_kvWaiters (a b) : (s.setStr a b).kvWaiters = s.kvWaiters := rfl
@[simp] theorem State.setStr_rings (a b) : (s.setStr a b).rings = s.rings := rfl
@[simp] theorem State.setStr_dispatch (a b) : (s.setStr a b).dispatch = s.dispatch := rfl
@[simp] theorem State.setStr_crossings (a b) : (s.setStr a b).crossings = s.crossings := rfl
@[simp] theorem State.setStr_tokQueue (a b) : (s.setStr a b).tokQueue = s.tokQueue := rfl
@[simp] theorem State.setStr_encoders (a b) : (s.setStr a b).encoders = s.encoders := rfl
@[simp] theorem State.setStr_chk (a b) : (s.setStr a b).chk = s.chk := rfl
@[simp] theorem State.setStr_links (a b) : (s.setStr a b).links = s.links := rfl
@[simp] theorem State.setStr_stranded (a b) : (s.setStr a b).stranded = s.stranded := rfl
@[simp] theorem State.setStr_routes (a b) : (s.setStr a b).routes = s.routes := rfl
@[simp] theorem State.setStr_linkKeys (a b) : (s.setStr a b).linkKeys = s.linkKeys := rfl
@[simp] theorem State.setStr_gate (a b) : (s.setStr a b).gate = s.gate := rfl
@[simp] theorem State.setStr_stashStacks (a b) : (s.setStr a b).stashStacks = s.stashStacks := rfl
@[simp] theorem State.setStr_ckp (a b) : (s.setStr a b).ckp = s.ckp := rfl
@[simp] theorem State.setStr_xfers (a b) : (s.setStr a b).xfers = s.xfers := rfl
@[simp] theorem State.setStr_reqs (a b) : (s.setStr a b).reqs = s.reqs := rfl
@[simp] theorem State.setStr_nextReq (a b) : (s.setStr a b).nextReq = s.nextReq := rfl
@[simp] theorem State.setStr_timeSynced (a b) : (s.setStr a b).timeSynced = s.timeSynced := rfl
@[simp] theorem State.setStr_timeGood (a b) : (s.setStr a b).timeGood = s.timeGood := rfl
@[simp] theorem State.setStr_timeMissed (a b) : (s.setStr a b).timeMissed = s.timeMissed := rfl
@[simp] theorem State.setStr_slew (a b) : (s.setStr a b).slew = s.slew := rfl
@[simp] theorem State.setStr_slewTicks (a b) : (s.setStr a b).slewTicks = s.slewTicks := rfl
@[simp] theorem State.setStr_queues (a b) : (s.setStr a b).queues = s.queues := rfl
@[simp] theorem State.setStr_sec (a b) : (s.setStr a b).sec = s.sec := rfl
@[simp] theorem State.setStr_pwr (a b) : (s.setStr a b).pwr = s.pwr := rfl
@[simp] theorem State.setStr_bst (a b) : (s.setStr a b).bst = s.bst := rfl
@[simp] theorem State.setStr_tap (a b) : (s.setStr a b).tap = s.tap := rfl
@[simp] theorem State.setStr_srstBusy (a b) : (s.setStr a b).srstBusy = s.srstBusy := rfl
@[simp] theorem State.setStr_dbgStep (a b) : (s.setStr a b).dbgStep = s.dbgStep := rfl
@[simp] theorem State.setStr_out (a b) : (s.setStr a b).out = s.out := rfl
@[simp] theorem State.setStr_answer (a b) : (s.setStr a b).answer = s.answer := rfl
@[simp] theorem State.setStr_freeCtr (a b) : (s.setStr a b).freeCtr = s.freeCtr := rfl
@[simp] theorem State.setStr_pending (a b) : (s.setStr a b).pending = s.pending := rfl

@[simp] theorem State.setLink_mt (a b c) : (s.setLink a b c).mt = s.mt := rfl
@[simp] theorem State.setLink_aoOn (a b c) : (s.setLink a b c).aoOn = s.aoOn := rfl
@[simp] theorem State.setLink_hold (a b c) : (s.setLink a b c).hold = s.hold := rfl
@[simp] theorem State.setLink_regs (a b c) : (s.setLink a b c).regs = s.regs := rfl
@[simp] theorem State.setLink_mem (a b c) : (s.setLink a b c).mem = s.mem := rfl
@[simp] theorem State.setLink_poison (a b c) : (s.setLink a b c).poison = s.poison := rfl
@[simp] theorem State.setLink_upsets (a b c) : (s.setLink a b c).upsets = s.upsets := rfl
@[simp] theorem State.setLink_ceWin (a b c) : (s.setLink a b c).ceWin = s.ceWin := rfl
@[simp] theorem State.setLink_scrubPos (a b c) : (s.setLink a b c).scrubPos = s.scrubPos := rfl
@[simp] theorem State.setLink_tiles (a b c) : (s.setLink a b c).tiles = s.tiles := rfl
@[simp] theorem State.setLink_signals (a b c) : (s.setLink a b c).signals = s.signals := rfl
@[simp] theorem State.setLink_arrivals (a b c) : (s.setLink a b c).arrivals = s.arrivals := rfl
@[simp] theorem State.setLink_barriers (a b c) : (s.setLink a b c).barriers = s.barriers := rfl
@[simp] theorem State.setLink_step (a b c) : (s.setLink a b c).step = s.step := rfl
@[simp] theorem State.setLink_ctlOut (a b c) : (s.setLink a b c).ctlOut = s.ctlOut := rfl
@[simp] theorem State.setLink_log (a b c) : (s.setLink a b c).log = s.log := rfl
@[simp] theorem State.setLink_logLatch (a b c) : (s.setLink a b c).logLatch = s.logLatch := rfl
@[simp] theorem State.setLink_logOverwrote (a b c) : (s.setLink a b c).logOverwrote = s.logOverwrote := rfl
@[simp] theorem State.setLink_voidCause (a b c) : (s.setLink a b c).voidCause = s.voidCause := rfl
@[simp] theorem State.setLink_ports (a b c) : (s.setLink a b c).ports = s.ports := rfl
@[simp] theorem State.setLink_pools (a b c) : (s.setLink a b c).pools = s.pools := rfl
@[simp] theorem State.setLink_kvWaiters (a b c) : (s.setLink a b c).kvWaiters = s.kvWaiters := rfl
@[simp] theorem State.setLink_rings (a b c) : (s.setLink a b c).rings = s.rings := rfl
@[simp] theorem State.setLink_dispatch (a b c) : (s.setLink a b c).dispatch = s.dispatch := rfl
@[simp] theorem State.setLink_crossings (a b c) : (s.setLink a b c).crossings = s.crossings := rfl
@[simp] theorem State.setLink_streams (a b c) : (s.setLink a b c).streams = s.streams := rfl
@[simp] theorem State.setLink_tokQueue (a b c) : (s.setLink a b c).tokQueue = s.tokQueue := rfl
@[simp] theorem State.setLink_encoders (a b c) : (s.setLink a b c).encoders = s.encoders := rfl
@[simp] theorem State.setLink_chk (a b c) : (s.setLink a b c).chk = s.chk := rfl
@[simp] theorem State.setLink_stranded (a b c) : (s.setLink a b c).stranded = s.stranded := rfl
@[simp] theorem State.setLink_routes (a b c) : (s.setLink a b c).routes = s.routes := rfl
@[simp] theorem State.setLink_linkKeys (a b c) : (s.setLink a b c).linkKeys = s.linkKeys := rfl
@[simp] theorem State.setLink_gate (a b c) : (s.setLink a b c).gate = s.gate := rfl
@[simp] theorem State.setLink_stashStacks (a b c) : (s.setLink a b c).stashStacks = s.stashStacks := rfl
@[simp] theorem State.setLink_ckp (a b c) : (s.setLink a b c).ckp = s.ckp := rfl
@[simp] theorem State.setLink_xfers (a b c) : (s.setLink a b c).xfers = s.xfers := rfl
@[simp] theorem State.setLink_reqs (a b c) : (s.setLink a b c).reqs = s.reqs := rfl
@[simp] theorem State.setLink_nextReq (a b c) : (s.setLink a b c).nextReq = s.nextReq := rfl
@[simp] theorem State.setLink_timeSynced (a b c) : (s.setLink a b c).timeSynced = s.timeSynced := rfl
@[simp] theorem State.setLink_timeGood (a b c) : (s.setLink a b c).timeGood = s.timeGood := rfl
@[simp] theorem State.setLink_timeMissed (a b c) : (s.setLink a b c).timeMissed = s.timeMissed := rfl
@[simp] theorem State.setLink_slew (a b c) : (s.setLink a b c).slew = s.slew := rfl
@[simp] theorem State.setLink_slewTicks (a b c) : (s.setLink a b c).slewTicks = s.slewTicks := rfl
@[simp] theorem State.setLink_queues (a b c) : (s.setLink a b c).queues = s.queues := rfl
@[simp] theorem State.setLink_sec (a b c) : (s.setLink a b c).sec = s.sec := rfl
@[simp] theorem State.setLink_pwr (a b c) : (s.setLink a b c).pwr = s.pwr := rfl
@[simp] theorem State.setLink_bst (a b c) : (s.setLink a b c).bst = s.bst := rfl
@[simp] theorem State.setLink_tap (a b c) : (s.setLink a b c).tap = s.tap := rfl
@[simp] theorem State.setLink_srstBusy (a b c) : (s.setLink a b c).srstBusy = s.srstBusy := rfl
@[simp] theorem State.setLink_dbgStep (a b c) : (s.setLink a b c).dbgStep = s.dbgStep := rfl
@[simp] theorem State.setLink_out (a b c) : (s.setLink a b c).out = s.out := rfl
@[simp] theorem State.setLink_answer (a b c) : (s.setLink a b c).answer = s.answer := rfl
@[simp] theorem State.setLink_freeCtr (a b c) : (s.setLink a b c).freeCtr = s.freeCtr := rfl
@[simp] theorem State.setLink_pending (a b c) : (s.setLink a b c).pending = s.pending := rfl

@[simp] theorem State.modLink_mt (a b c) : (s.modLink a b c).mt = s.mt := rfl
@[simp] theorem State.modLink_aoOn (a b c) : (s.modLink a b c).aoOn = s.aoOn := rfl
@[simp] theorem State.modLink_hold (a b c) : (s.modLink a b c).hold = s.hold := rfl
@[simp] theorem State.modLink_regs (a b c) : (s.modLink a b c).regs = s.regs := rfl
@[simp] theorem State.modLink_mem (a b c) : (s.modLink a b c).mem = s.mem := rfl
@[simp] theorem State.modLink_poison (a b c) : (s.modLink a b c).poison = s.poison := rfl
@[simp] theorem State.modLink_upsets (a b c) : (s.modLink a b c).upsets = s.upsets := rfl
@[simp] theorem State.modLink_ceWin (a b c) : (s.modLink a b c).ceWin = s.ceWin := rfl
@[simp] theorem State.modLink_scrubPos (a b c) : (s.modLink a b c).scrubPos = s.scrubPos := rfl
@[simp] theorem State.modLink_tiles (a b c) : (s.modLink a b c).tiles = s.tiles := rfl
@[simp] theorem State.modLink_signals (a b c) : (s.modLink a b c).signals = s.signals := rfl
@[simp] theorem State.modLink_arrivals (a b c) : (s.modLink a b c).arrivals = s.arrivals := rfl
@[simp] theorem State.modLink_barriers (a b c) : (s.modLink a b c).barriers = s.barriers := rfl
@[simp] theorem State.modLink_step (a b c) : (s.modLink a b c).step = s.step := rfl
@[simp] theorem State.modLink_ctlOut (a b c) : (s.modLink a b c).ctlOut = s.ctlOut := rfl
@[simp] theorem State.modLink_log (a b c) : (s.modLink a b c).log = s.log := rfl
@[simp] theorem State.modLink_logLatch (a b c) : (s.modLink a b c).logLatch = s.logLatch := rfl
@[simp] theorem State.modLink_logOverwrote (a b c) : (s.modLink a b c).logOverwrote = s.logOverwrote := rfl
@[simp] theorem State.modLink_voidCause (a b c) : (s.modLink a b c).voidCause = s.voidCause := rfl
@[simp] theorem State.modLink_ports (a b c) : (s.modLink a b c).ports = s.ports := rfl
@[simp] theorem State.modLink_pools (a b c) : (s.modLink a b c).pools = s.pools := rfl
@[simp] theorem State.modLink_kvWaiters (a b c) : (s.modLink a b c).kvWaiters = s.kvWaiters := rfl
@[simp] theorem State.modLink_rings (a b c) : (s.modLink a b c).rings = s.rings := rfl
@[simp] theorem State.modLink_dispatch (a b c) : (s.modLink a b c).dispatch = s.dispatch := rfl
@[simp] theorem State.modLink_crossings (a b c) : (s.modLink a b c).crossings = s.crossings := rfl
@[simp] theorem State.modLink_streams (a b c) : (s.modLink a b c).streams = s.streams := rfl
@[simp] theorem State.modLink_tokQueue (a b c) : (s.modLink a b c).tokQueue = s.tokQueue := rfl
@[simp] theorem State.modLink_encoders (a b c) : (s.modLink a b c).encoders = s.encoders := rfl
@[simp] theorem State.modLink_chk (a b c) : (s.modLink a b c).chk = s.chk := rfl
@[simp] theorem State.modLink_stranded (a b c) : (s.modLink a b c).stranded = s.stranded := rfl
@[simp] theorem State.modLink_routes (a b c) : (s.modLink a b c).routes = s.routes := rfl
@[simp] theorem State.modLink_linkKeys (a b c) : (s.modLink a b c).linkKeys = s.linkKeys := rfl
@[simp] theorem State.modLink_gate (a b c) : (s.modLink a b c).gate = s.gate := rfl
@[simp] theorem State.modLink_stashStacks (a b c) : (s.modLink a b c).stashStacks = s.stashStacks := rfl
@[simp] theorem State.modLink_ckp (a b c) : (s.modLink a b c).ckp = s.ckp := rfl
@[simp] theorem State.modLink_xfers (a b c) : (s.modLink a b c).xfers = s.xfers := rfl
@[simp] theorem State.modLink_reqs (a b c) : (s.modLink a b c).reqs = s.reqs := rfl
@[simp] theorem State.modLink_nextReq (a b c) : (s.modLink a b c).nextReq = s.nextReq := rfl
@[simp] theorem State.modLink_timeSynced (a b c) : (s.modLink a b c).timeSynced = s.timeSynced := rfl
@[simp] theorem State.modLink_timeGood (a b c) : (s.modLink a b c).timeGood = s.timeGood := rfl
@[simp] theorem State.modLink_timeMissed (a b c) : (s.modLink a b c).timeMissed = s.timeMissed := rfl
@[simp] theorem State.modLink_slew (a b c) : (s.modLink a b c).slew = s.slew := rfl
@[simp] theorem State.modLink_slewTicks (a b c) : (s.modLink a b c).slewTicks = s.slewTicks := rfl
@[simp] theorem State.modLink_queues (a b c) : (s.modLink a b c).queues = s.queues := rfl
@[simp] theorem State.modLink_sec (a b c) : (s.modLink a b c).sec = s.sec := rfl
@[simp] theorem State.modLink_pwr (a b c) : (s.modLink a b c).pwr = s.pwr := rfl
@[simp] theorem State.modLink_bst (a b c) : (s.modLink a b c).bst = s.bst := rfl
@[simp] theorem State.modLink_tap (a b c) : (s.modLink a b c).tap = s.tap := rfl
@[simp] theorem State.modLink_srstBusy (a b c) : (s.modLink a b c).srstBusy = s.srstBusy := rfl
@[simp] theorem State.modLink_dbgStep (a b c) : (s.modLink a b c).dbgStep = s.dbgStep := rfl
@[simp] theorem State.modLink_out (a b c) : (s.modLink a b c).out = s.out := rfl
@[simp] theorem State.modLink_answer (a b c) : (s.modLink a b c).answer = s.answer := rfl
@[simp] theorem State.modLink_freeCtr (a b c) : (s.modLink a b c).freeCtr = s.freeCtr := rfl
@[simp] theorem State.modLink_pending (a b c) : (s.modLink a b c).pending = s.pending := rfl

@[simp] theorem State.modGate_mt (a) : (s.modGate a).mt = s.mt := rfl
@[simp] theorem State.modGate_aoOn (a) : (s.modGate a).aoOn = s.aoOn := rfl
@[simp] theorem State.modGate_hold (a) : (s.modGate a).hold = s.hold := rfl
@[simp] theorem State.modGate_regs (a) : (s.modGate a).regs = s.regs := rfl
@[simp] theorem State.modGate_mem (a) : (s.modGate a).mem = s.mem := rfl
@[simp] theorem State.modGate_poison (a) : (s.modGate a).poison = s.poison := rfl
@[simp] theorem State.modGate_upsets (a) : (s.modGate a).upsets = s.upsets := rfl
@[simp] theorem State.modGate_ceWin (a) : (s.modGate a).ceWin = s.ceWin := rfl
@[simp] theorem State.modGate_scrubPos (a) : (s.modGate a).scrubPos = s.scrubPos := rfl
@[simp] theorem State.modGate_tiles (a) : (s.modGate a).tiles = s.tiles := rfl
@[simp] theorem State.modGate_signals (a) : (s.modGate a).signals = s.signals := rfl
@[simp] theorem State.modGate_arrivals (a) : (s.modGate a).arrivals = s.arrivals := rfl
@[simp] theorem State.modGate_barriers (a) : (s.modGate a).barriers = s.barriers := rfl
@[simp] theorem State.modGate_step (a) : (s.modGate a).step = s.step := rfl
@[simp] theorem State.modGate_ctlOut (a) : (s.modGate a).ctlOut = s.ctlOut := rfl
@[simp] theorem State.modGate_log (a) : (s.modGate a).log = s.log := rfl
@[simp] theorem State.modGate_logLatch (a) : (s.modGate a).logLatch = s.logLatch := rfl
@[simp] theorem State.modGate_logOverwrote (a) : (s.modGate a).logOverwrote = s.logOverwrote := rfl
@[simp] theorem State.modGate_voidCause (a) : (s.modGate a).voidCause = s.voidCause := rfl
@[simp] theorem State.modGate_ports (a) : (s.modGate a).ports = s.ports := rfl
@[simp] theorem State.modGate_pools (a) : (s.modGate a).pools = s.pools := rfl
@[simp] theorem State.modGate_kvWaiters (a) : (s.modGate a).kvWaiters = s.kvWaiters := rfl
@[simp] theorem State.modGate_rings (a) : (s.modGate a).rings = s.rings := rfl
@[simp] theorem State.modGate_dispatch (a) : (s.modGate a).dispatch = s.dispatch := rfl
@[simp] theorem State.modGate_crossings (a) : (s.modGate a).crossings = s.crossings := rfl
@[simp] theorem State.modGate_streams (a) : (s.modGate a).streams = s.streams := rfl
@[simp] theorem State.modGate_tokQueue (a) : (s.modGate a).tokQueue = s.tokQueue := rfl
@[simp] theorem State.modGate_encoders (a) : (s.modGate a).encoders = s.encoders := rfl
@[simp] theorem State.modGate_chk (a) : (s.modGate a).chk = s.chk := rfl
@[simp] theorem State.modGate_links (a) : (s.modGate a).links = s.links := rfl
@[simp] theorem State.modGate_stranded (a) : (s.modGate a).stranded = s.stranded := rfl
@[simp] theorem State.modGate_routes (a) : (s.modGate a).routes = s.routes := rfl
@[simp] theorem State.modGate_linkKeys (a) : (s.modGate a).linkKeys = s.linkKeys := rfl
@[simp] theorem State.modGate_stashStacks (a) : (s.modGate a).stashStacks = s.stashStacks := rfl
@[simp] theorem State.modGate_ckp (a) : (s.modGate a).ckp = s.ckp := rfl
@[simp] theorem State.modGate_xfers (a) : (s.modGate a).xfers = s.xfers := rfl
@[simp] theorem State.modGate_reqs (a) : (s.modGate a).reqs = s.reqs := rfl
@[simp] theorem State.modGate_nextReq (a) : (s.modGate a).nextReq = s.nextReq := rfl
@[simp] theorem State.modGate_timeSynced (a) : (s.modGate a).timeSynced = s.timeSynced := rfl
@[simp] theorem State.modGate_timeGood (a) : (s.modGate a).timeGood = s.timeGood := rfl
@[simp] theorem State.modGate_timeMissed (a) : (s.modGate a).timeMissed = s.timeMissed := rfl
@[simp] theorem State.modGate_slew (a) : (s.modGate a).slew = s.slew := rfl
@[simp] theorem State.modGate_slewTicks (a) : (s.modGate a).slewTicks = s.slewTicks := rfl
@[simp] theorem State.modGate_queues (a) : (s.modGate a).queues = s.queues := rfl
@[simp] theorem State.modGate_sec (a) : (s.modGate a).sec = s.sec := rfl
@[simp] theorem State.modGate_pwr (a) : (s.modGate a).pwr = s.pwr := rfl
@[simp] theorem State.modGate_bst (a) : (s.modGate a).bst = s.bst := rfl
@[simp] theorem State.modGate_tap (a) : (s.modGate a).tap = s.tap := rfl
@[simp] theorem State.modGate_srstBusy (a) : (s.modGate a).srstBusy = s.srstBusy := rfl
@[simp] theorem State.modGate_dbgStep (a) : (s.modGate a).dbgStep = s.dbgStep := rfl
@[simp] theorem State.modGate_out (a) : (s.modGate a).out = s.out := rfl
@[simp] theorem State.modGate_answer (a) : (s.modGate a).answer = s.answer := rfl
@[simp] theorem State.modGate_freeCtr (a) : (s.modGate a).freeCtr = s.freeCtr := rfl
@[simp] theorem State.modGate_pending (a) : (s.modGate a).pending = s.pending := rfl

@[simp] theorem State.modStep_mt (a) : (s.modStep a).mt = s.mt := rfl
@[simp] theorem State.modStep_aoOn (a) : (s.modStep a).aoOn = s.aoOn := rfl
@[simp] theorem State.modStep_hold (a) : (s.modStep a).hold = s.hold := rfl
@[simp] theorem State.modStep_regs (a) : (s.modStep a).regs = s.regs := rfl
@[simp] theorem State.modStep_mem (a) : (s.modStep a).mem = s.mem := rfl
@[simp] theorem State.modStep_poison (a) : (s.modStep a).poison = s.poison := rfl
@[simp] theorem State.modStep_upsets (a) : (s.modStep a).upsets = s.upsets := rfl
@[simp] theorem State.modStep_ceWin (a) : (s.modStep a).ceWin = s.ceWin := rfl
@[simp] theorem State.modStep_scrubPos (a) : (s.modStep a).scrubPos = s.scrubPos := rfl
@[simp] theorem State.modStep_tiles (a) : (s.modStep a).tiles = s.tiles := rfl
@[simp] theorem State.modStep_signals (a) : (s.modStep a).signals = s.signals := rfl
@[simp] theorem State.modStep_arrivals (a) : (s.modStep a).arrivals = s.arrivals := rfl
@[simp] theorem State.modStep_barriers (a) : (s.modStep a).barriers = s.barriers := rfl
@[simp] theorem State.modStep_ctlOut (a) : (s.modStep a).ctlOut = s.ctlOut := rfl
@[simp] theorem State.modStep_log (a) : (s.modStep a).log = s.log := rfl
@[simp] theorem State.modStep_logLatch (a) : (s.modStep a).logLatch = s.logLatch := rfl
@[simp] theorem State.modStep_logOverwrote (a) : (s.modStep a).logOverwrote = s.logOverwrote := rfl
@[simp] theorem State.modStep_voidCause (a) : (s.modStep a).voidCause = s.voidCause := rfl
@[simp] theorem State.modStep_ports (a) : (s.modStep a).ports = s.ports := rfl
@[simp] theorem State.modStep_pools (a) : (s.modStep a).pools = s.pools := rfl
@[simp] theorem State.modStep_kvWaiters (a) : (s.modStep a).kvWaiters = s.kvWaiters := rfl
@[simp] theorem State.modStep_rings (a) : (s.modStep a).rings = s.rings := rfl
@[simp] theorem State.modStep_dispatch (a) : (s.modStep a).dispatch = s.dispatch := rfl
@[simp] theorem State.modStep_crossings (a) : (s.modStep a).crossings = s.crossings := rfl
@[simp] theorem State.modStep_streams (a) : (s.modStep a).streams = s.streams := rfl
@[simp] theorem State.modStep_tokQueue (a) : (s.modStep a).tokQueue = s.tokQueue := rfl
@[simp] theorem State.modStep_encoders (a) : (s.modStep a).encoders = s.encoders := rfl
@[simp] theorem State.modStep_chk (a) : (s.modStep a).chk = s.chk := rfl
@[simp] theorem State.modStep_links (a) : (s.modStep a).links = s.links := rfl
@[simp] theorem State.modStep_stranded (a) : (s.modStep a).stranded = s.stranded := rfl
@[simp] theorem State.modStep_routes (a) : (s.modStep a).routes = s.routes := rfl
@[simp] theorem State.modStep_linkKeys (a) : (s.modStep a).linkKeys = s.linkKeys := rfl
@[simp] theorem State.modStep_gate (a) : (s.modStep a).gate = s.gate := rfl
@[simp] theorem State.modStep_stashStacks (a) : (s.modStep a).stashStacks = s.stashStacks := rfl
@[simp] theorem State.modStep_ckp (a) : (s.modStep a).ckp = s.ckp := rfl
@[simp] theorem State.modStep_xfers (a) : (s.modStep a).xfers = s.xfers := rfl
@[simp] theorem State.modStep_reqs (a) : (s.modStep a).reqs = s.reqs := rfl
@[simp] theorem State.modStep_nextReq (a) : (s.modStep a).nextReq = s.nextReq := rfl
@[simp] theorem State.modStep_timeSynced (a) : (s.modStep a).timeSynced = s.timeSynced := rfl
@[simp] theorem State.modStep_timeGood (a) : (s.modStep a).timeGood = s.timeGood := rfl
@[simp] theorem State.modStep_timeMissed (a) : (s.modStep a).timeMissed = s.timeMissed := rfl
@[simp] theorem State.modStep_slew (a) : (s.modStep a).slew = s.slew := rfl
@[simp] theorem State.modStep_slewTicks (a) : (s.modStep a).slewTicks = s.slewTicks := rfl
@[simp] theorem State.modStep_queues (a) : (s.modStep a).queues = s.queues := rfl
@[simp] theorem State.modStep_sec (a) : (s.modStep a).sec = s.sec := rfl
@[simp] theorem State.modStep_pwr (a) : (s.modStep a).pwr = s.pwr := rfl
@[simp] theorem State.modStep_bst (a) : (s.modStep a).bst = s.bst := rfl
@[simp] theorem State.modStep_tap (a) : (s.modStep a).tap = s.tap := rfl
@[simp] theorem State.modStep_srstBusy (a) : (s.modStep a).srstBusy = s.srstBusy := rfl
@[simp] theorem State.modStep_dbgStep (a) : (s.modStep a).dbgStep = s.dbgStep := rfl
@[simp] theorem State.modStep_out (a) : (s.modStep a).out = s.out := rfl
@[simp] theorem State.modStep_answer (a) : (s.modStep a).answer = s.answer := rfl
@[simp] theorem State.modStep_freeCtr (a) : (s.modStep a).freeCtr = s.freeCtr := rfl
@[simp] theorem State.modStep_pending (a) : (s.modStep a).pending = s.pending := rfl

@[simp] theorem State.dropReq_mt (a) : (s.dropReq a).mt = s.mt := rfl
@[simp] theorem State.dropReq_aoOn (a) : (s.dropReq a).aoOn = s.aoOn := rfl
@[simp] theorem State.dropReq_hold (a) : (s.dropReq a).hold = s.hold := rfl
@[simp] theorem State.dropReq_regs (a) : (s.dropReq a).regs = s.regs := rfl
@[simp] theorem State.dropReq_mem (a) : (s.dropReq a).mem = s.mem := rfl
@[simp] theorem State.dropReq_poison (a) : (s.dropReq a).poison = s.poison := rfl
@[simp] theorem State.dropReq_upsets (a) : (s.dropReq a).upsets = s.upsets := rfl
@[simp] theorem State.dropReq_ceWin (a) : (s.dropReq a).ceWin = s.ceWin := rfl
@[simp] theorem State.dropReq_scrubPos (a) : (s.dropReq a).scrubPos = s.scrubPos := rfl
@[simp] theorem State.dropReq_tiles (a) : (s.dropReq a).tiles = s.tiles := rfl
@[simp] theorem State.dropReq_signals (a) : (s.dropReq a).signals = s.signals := rfl
@[simp] theorem State.dropReq_arrivals (a) : (s.dropReq a).arrivals = s.arrivals := rfl
@[simp] theorem State.dropReq_barriers (a) : (s.dropReq a).barriers = s.barriers := rfl
@[simp] theorem State.dropReq_step (a) : (s.dropReq a).step = s.step := rfl
@[simp] theorem State.dropReq_ctlOut (a) : (s.dropReq a).ctlOut = s.ctlOut := rfl
@[simp] theorem State.dropReq_log (a) : (s.dropReq a).log = s.log := rfl
@[simp] theorem State.dropReq_logLatch (a) : (s.dropReq a).logLatch = s.logLatch := rfl
@[simp] theorem State.dropReq_logOverwrote (a) : (s.dropReq a).logOverwrote = s.logOverwrote := rfl
@[simp] theorem State.dropReq_voidCause (a) : (s.dropReq a).voidCause = s.voidCause := rfl
@[simp] theorem State.dropReq_ports (a) : (s.dropReq a).ports = s.ports := rfl
@[simp] theorem State.dropReq_pools (a) : (s.dropReq a).pools = s.pools := rfl
@[simp] theorem State.dropReq_kvWaiters (a) : (s.dropReq a).kvWaiters = s.kvWaiters := rfl
@[simp] theorem State.dropReq_rings (a) : (s.dropReq a).rings = s.rings := rfl
@[simp] theorem State.dropReq_dispatch (a) : (s.dropReq a).dispatch = s.dispatch := rfl
@[simp] theorem State.dropReq_crossings (a) : (s.dropReq a).crossings = s.crossings := rfl
@[simp] theorem State.dropReq_streams (a) : (s.dropReq a).streams = s.streams := rfl
@[simp] theorem State.dropReq_tokQueue (a) : (s.dropReq a).tokQueue = s.tokQueue := rfl
@[simp] theorem State.dropReq_encoders (a) : (s.dropReq a).encoders = s.encoders := rfl
@[simp] theorem State.dropReq_chk (a) : (s.dropReq a).chk = s.chk := rfl
@[simp] theorem State.dropReq_links (a) : (s.dropReq a).links = s.links := rfl
@[simp] theorem State.dropReq_stranded (a) : (s.dropReq a).stranded = s.stranded := rfl
@[simp] theorem State.dropReq_routes (a) : (s.dropReq a).routes = s.routes := rfl
@[simp] theorem State.dropReq_linkKeys (a) : (s.dropReq a).linkKeys = s.linkKeys := rfl
@[simp] theorem State.dropReq_gate (a) : (s.dropReq a).gate = s.gate := rfl
@[simp] theorem State.dropReq_stashStacks (a) : (s.dropReq a).stashStacks = s.stashStacks := rfl
@[simp] theorem State.dropReq_ckp (a) : (s.dropReq a).ckp = s.ckp := rfl
@[simp] theorem State.dropReq_xfers (a) : (s.dropReq a).xfers = s.xfers := rfl
@[simp] theorem State.dropReq_nextReq (a) : (s.dropReq a).nextReq = s.nextReq := rfl
@[simp] theorem State.dropReq_timeSynced (a) : (s.dropReq a).timeSynced = s.timeSynced := rfl
@[simp] theorem State.dropReq_timeGood (a) : (s.dropReq a).timeGood = s.timeGood := rfl
@[simp] theorem State.dropReq_timeMissed (a) : (s.dropReq a).timeMissed = s.timeMissed := rfl
@[simp] theorem State.dropReq_slew (a) : (s.dropReq a).slew = s.slew := rfl
@[simp] theorem State.dropReq_slewTicks (a) : (s.dropReq a).slewTicks = s.slewTicks := rfl
@[simp] theorem State.dropReq_queues (a) : (s.dropReq a).queues = s.queues := rfl
@[simp] theorem State.dropReq_sec (a) : (s.dropReq a).sec = s.sec := rfl
@[simp] theorem State.dropReq_pwr (a) : (s.dropReq a).pwr = s.pwr := rfl
@[simp] theorem State.dropReq_bst (a) : (s.dropReq a).bst = s.bst := rfl
@[simp] theorem State.dropReq_tap (a) : (s.dropReq a).tap = s.tap := rfl
@[simp] theorem State.dropReq_srstBusy (a) : (s.dropReq a).srstBusy = s.srstBusy := rfl
@[simp] theorem State.dropReq_dbgStep (a) : (s.dropReq a).dbgStep = s.dbgStep := rfl
@[simp] theorem State.dropReq_out (a) : (s.dropReq a).out = s.out := rfl
@[simp] theorem State.dropReq_answer (a) : (s.dropReq a).answer = s.answer := rfl
@[simp] theorem State.dropReq_freeCtr (a) : (s.dropReq a).freeCtr = s.freeCtr := rfl
@[simp] theorem State.dropReq_pending (a) : (s.dropReq a).pending = s.pending := rfl

@[simp] theorem State.modXfer_mt (a b) : (s.modXfer a b).mt = s.mt := rfl
@[simp] theorem State.modXfer_aoOn (a b) : (s.modXfer a b).aoOn = s.aoOn := rfl
@[simp] theorem State.modXfer_hold (a b) : (s.modXfer a b).hold = s.hold := rfl
@[simp] theorem State.modXfer_regs (a b) : (s.modXfer a b).regs = s.regs := rfl
@[simp] theorem State.modXfer_mem (a b) : (s.modXfer a b).mem = s.mem := rfl
@[simp] theorem State.modXfer_poison (a b) : (s.modXfer a b).poison = s.poison := rfl
@[simp] theorem State.modXfer_upsets (a b) : (s.modXfer a b).upsets = s.upsets := rfl
@[simp] theorem State.modXfer_ceWin (a b) : (s.modXfer a b).ceWin = s.ceWin := rfl
@[simp] theorem State.modXfer_scrubPos (a b) : (s.modXfer a b).scrubPos = s.scrubPos := rfl
@[simp] theorem State.modXfer_tiles (a b) : (s.modXfer a b).tiles = s.tiles := rfl
@[simp] theorem State.modXfer_signals (a b) : (s.modXfer a b).signals = s.signals := rfl
@[simp] theorem State.modXfer_arrivals (a b) : (s.modXfer a b).arrivals = s.arrivals := rfl
@[simp] theorem State.modXfer_barriers (a b) : (s.modXfer a b).barriers = s.barriers := rfl
@[simp] theorem State.modXfer_step (a b) : (s.modXfer a b).step = s.step := rfl
@[simp] theorem State.modXfer_ctlOut (a b) : (s.modXfer a b).ctlOut = s.ctlOut := rfl
@[simp] theorem State.modXfer_log (a b) : (s.modXfer a b).log = s.log := rfl
@[simp] theorem State.modXfer_logLatch (a b) : (s.modXfer a b).logLatch = s.logLatch := rfl
@[simp] theorem State.modXfer_logOverwrote (a b) : (s.modXfer a b).logOverwrote = s.logOverwrote := rfl
@[simp] theorem State.modXfer_voidCause (a b) : (s.modXfer a b).voidCause = s.voidCause := rfl
@[simp] theorem State.modXfer_ports (a b) : (s.modXfer a b).ports = s.ports := rfl
@[simp] theorem State.modXfer_pools (a b) : (s.modXfer a b).pools = s.pools := rfl
@[simp] theorem State.modXfer_kvWaiters (a b) : (s.modXfer a b).kvWaiters = s.kvWaiters := rfl
@[simp] theorem State.modXfer_rings (a b) : (s.modXfer a b).rings = s.rings := rfl
@[simp] theorem State.modXfer_dispatch (a b) : (s.modXfer a b).dispatch = s.dispatch := rfl
@[simp] theorem State.modXfer_crossings (a b) : (s.modXfer a b).crossings = s.crossings := rfl
@[simp] theorem State.modXfer_streams (a b) : (s.modXfer a b).streams = s.streams := rfl
@[simp] theorem State.modXfer_tokQueue (a b) : (s.modXfer a b).tokQueue = s.tokQueue := rfl
@[simp] theorem State.modXfer_encoders (a b) : (s.modXfer a b).encoders = s.encoders := rfl
@[simp] theorem State.modXfer_chk (a b) : (s.modXfer a b).chk = s.chk := rfl
@[simp] theorem State.modXfer_links (a b) : (s.modXfer a b).links = s.links := rfl
@[simp] theorem State.modXfer_stranded (a b) : (s.modXfer a b).stranded = s.stranded := rfl
@[simp] theorem State.modXfer_routes (a b) : (s.modXfer a b).routes = s.routes := rfl
@[simp] theorem State.modXfer_linkKeys (a b) : (s.modXfer a b).linkKeys = s.linkKeys := rfl
@[simp] theorem State.modXfer_gate (a b) : (s.modXfer a b).gate = s.gate := rfl
@[simp] theorem State.modXfer_stashStacks (a b) : (s.modXfer a b).stashStacks = s.stashStacks := rfl
@[simp] theorem State.modXfer_ckp (a b) : (s.modXfer a b).ckp = s.ckp := rfl
@[simp] theorem State.modXfer_reqs (a b) : (s.modXfer a b).reqs = s.reqs := rfl
@[simp] theorem State.modXfer_nextReq (a b) : (s.modXfer a b).nextReq = s.nextReq := rfl
@[simp] theorem State.modXfer_timeSynced (a b) : (s.modXfer a b).timeSynced = s.timeSynced := rfl
@[simp] theorem State.modXfer_timeGood (a b) : (s.modXfer a b).timeGood = s.timeGood := rfl
@[simp] theorem State.modXfer_timeMissed (a b) : (s.modXfer a b).timeMissed = s.timeMissed := rfl
@[simp] theorem State.modXfer_slew (a b) : (s.modXfer a b).slew = s.slew := rfl
@[simp] theorem State.modXfer_slewTicks (a b) : (s.modXfer a b).slewTicks = s.slewTicks := rfl
@[simp] theorem State.modXfer_queues (a b) : (s.modXfer a b).queues = s.queues := rfl
@[simp] theorem State.modXfer_sec (a b) : (s.modXfer a b).sec = s.sec := rfl
@[simp] theorem State.modXfer_pwr (a b) : (s.modXfer a b).pwr = s.pwr := rfl
@[simp] theorem State.modXfer_bst (a b) : (s.modXfer a b).bst = s.bst := rfl
@[simp] theorem State.modXfer_tap (a b) : (s.modXfer a b).tap = s.tap := rfl
@[simp] theorem State.modXfer_srstBusy (a b) : (s.modXfer a b).srstBusy = s.srstBusy := rfl
@[simp] theorem State.modXfer_dbgStep (a b) : (s.modXfer a b).dbgStep = s.dbgStep := rfl
@[simp] theorem State.modXfer_out (a b) : (s.modXfer a b).out = s.out := rfl
@[simp] theorem State.modXfer_answer (a b) : (s.modXfer a b).answer = s.answer := rfl
@[simp] theorem State.modXfer_freeCtr (a b) : (s.modXfer a b).freeCtr = s.freeCtr := rfl
@[simp] theorem State.modXfer_pending (a b) : (s.modXfer a b).pending = s.pending := rfl

@[simp] theorem State.dropXfer_mt (a) : (s.dropXfer a).mt = s.mt := rfl
@[simp] theorem State.dropXfer_aoOn (a) : (s.dropXfer a).aoOn = s.aoOn := rfl
@[simp] theorem State.dropXfer_hold (a) : (s.dropXfer a).hold = s.hold := rfl
@[simp] theorem State.dropXfer_regs (a) : (s.dropXfer a).regs = s.regs := rfl
@[simp] theorem State.dropXfer_mem (a) : (s.dropXfer a).mem = s.mem := rfl
@[simp] theorem State.dropXfer_poison (a) : (s.dropXfer a).poison = s.poison := rfl
@[simp] theorem State.dropXfer_upsets (a) : (s.dropXfer a).upsets = s.upsets := rfl
@[simp] theorem State.dropXfer_ceWin (a) : (s.dropXfer a).ceWin = s.ceWin := rfl
@[simp] theorem State.dropXfer_scrubPos (a) : (s.dropXfer a).scrubPos = s.scrubPos := rfl
@[simp] theorem State.dropXfer_tiles (a) : (s.dropXfer a).tiles = s.tiles := rfl
@[simp] theorem State.dropXfer_signals (a) : (s.dropXfer a).signals = s.signals := rfl
@[simp] theorem State.dropXfer_arrivals (a) : (s.dropXfer a).arrivals = s.arrivals := rfl
@[simp] theorem State.dropXfer_barriers (a) : (s.dropXfer a).barriers = s.barriers := rfl
@[simp] theorem State.dropXfer_step (a) : (s.dropXfer a).step = s.step := rfl
@[simp] theorem State.dropXfer_ctlOut (a) : (s.dropXfer a).ctlOut = s.ctlOut := rfl
@[simp] theorem State.dropXfer_log (a) : (s.dropXfer a).log = s.log := rfl
@[simp] theorem State.dropXfer_logLatch (a) : (s.dropXfer a).logLatch = s.logLatch := rfl
@[simp] theorem State.dropXfer_logOverwrote (a) : (s.dropXfer a).logOverwrote = s.logOverwrote := rfl
@[simp] theorem State.dropXfer_voidCause (a) : (s.dropXfer a).voidCause = s.voidCause := rfl
@[simp] theorem State.dropXfer_ports (a) : (s.dropXfer a).ports = s.ports := rfl
@[simp] theorem State.dropXfer_pools (a) : (s.dropXfer a).pools = s.pools := rfl
@[simp] theorem State.dropXfer_kvWaiters (a) : (s.dropXfer a).kvWaiters = s.kvWaiters := rfl
@[simp] theorem State.dropXfer_rings (a) : (s.dropXfer a).rings = s.rings := rfl
@[simp] theorem State.dropXfer_dispatch (a) : (s.dropXfer a).dispatch = s.dispatch := rfl
@[simp] theorem State.dropXfer_crossings (a) : (s.dropXfer a).crossings = s.crossings := rfl
@[simp] theorem State.dropXfer_streams (a) : (s.dropXfer a).streams = s.streams := rfl
@[simp] theorem State.dropXfer_tokQueue (a) : (s.dropXfer a).tokQueue = s.tokQueue := rfl
@[simp] theorem State.dropXfer_encoders (a) : (s.dropXfer a).encoders = s.encoders := rfl
@[simp] theorem State.dropXfer_chk (a) : (s.dropXfer a).chk = s.chk := rfl
@[simp] theorem State.dropXfer_links (a) : (s.dropXfer a).links = s.links := rfl
@[simp] theorem State.dropXfer_stranded (a) : (s.dropXfer a).stranded = s.stranded := rfl
@[simp] theorem State.dropXfer_routes (a) : (s.dropXfer a).routes = s.routes := rfl
@[simp] theorem State.dropXfer_linkKeys (a) : (s.dropXfer a).linkKeys = s.linkKeys := rfl
@[simp] theorem State.dropXfer_gate (a) : (s.dropXfer a).gate = s.gate := rfl
@[simp] theorem State.dropXfer_stashStacks (a) : (s.dropXfer a).stashStacks = s.stashStacks := rfl
@[simp] theorem State.dropXfer_ckp (a) : (s.dropXfer a).ckp = s.ckp := rfl
@[simp] theorem State.dropXfer_reqs (a) : (s.dropXfer a).reqs = s.reqs := rfl
@[simp] theorem State.dropXfer_nextReq (a) : (s.dropXfer a).nextReq = s.nextReq := rfl
@[simp] theorem State.dropXfer_timeSynced (a) : (s.dropXfer a).timeSynced = s.timeSynced := rfl
@[simp] theorem State.dropXfer_timeGood (a) : (s.dropXfer a).timeGood = s.timeGood := rfl
@[simp] theorem State.dropXfer_timeMissed (a) : (s.dropXfer a).timeMissed = s.timeMissed := rfl
@[simp] theorem State.dropXfer_slew (a) : (s.dropXfer a).slew = s.slew := rfl
@[simp] theorem State.dropXfer_slewTicks (a) : (s.dropXfer a).slewTicks = s.slewTicks := rfl
@[simp] theorem State.dropXfer_queues (a) : (s.dropXfer a).queues = s.queues := rfl
@[simp] theorem State.dropXfer_sec (a) : (s.dropXfer a).sec = s.sec := rfl
@[simp] theorem State.dropXfer_pwr (a) : (s.dropXfer a).pwr = s.pwr := rfl
@[simp] theorem State.dropXfer_bst (a) : (s.dropXfer a).bst = s.bst := rfl
@[simp] theorem State.dropXfer_tap (a) : (s.dropXfer a).tap = s.tap := rfl
@[simp] theorem State.dropXfer_srstBusy (a) : (s.dropXfer a).srstBusy = s.srstBusy := rfl
@[simp] theorem State.dropXfer_dbgStep (a) : (s.dropXfer a).dbgStep = s.dbgStep := rfl
@[simp] theorem State.dropXfer_out (a) : (s.dropXfer a).out = s.out := rfl
@[simp] theorem State.dropXfer_answer (a) : (s.dropXfer a).answer = s.answer := rfl
@[simp] theorem State.dropXfer_freeCtr (a) : (s.dropXfer a).freeCtr = s.freeCtr := rfl
@[simp] theorem State.dropXfer_pending (a) : (s.dropXfer a).pending = s.pending := rfl

@[simp] theorem State.setCq_mt (a b) : (s.setCq a b).mt = s.mt := rfl
@[simp] theorem State.setCq_aoOn (a b) : (s.setCq a b).aoOn = s.aoOn := rfl
@[simp] theorem State.setCq_hold (a b) : (s.setCq a b).hold = s.hold := rfl
@[simp] theorem State.setCq_regs (a b) : (s.setCq a b).regs = s.regs := rfl
@[simp] theorem State.setCq_mem (a b) : (s.setCq a b).mem = s.mem := rfl
@[simp] theorem State.setCq_poison (a b) : (s.setCq a b).poison = s.poison := rfl
@[simp] theorem State.setCq_upsets (a b) : (s.setCq a b).upsets = s.upsets := rfl
@[simp] theorem State.setCq_ceWin (a b) : (s.setCq a b).ceWin = s.ceWin := rfl
@[simp] theorem State.setCq_scrubPos (a b) : (s.setCq a b).scrubPos = s.scrubPos := rfl
@[simp] theorem State.setCq_tiles (a b) : (s.setCq a b).tiles = s.tiles := rfl
@[simp] theorem State.setCq_signals (a b) : (s.setCq a b).signals = s.signals := rfl
@[simp] theorem State.setCq_arrivals (a b) : (s.setCq a b).arrivals = s.arrivals := rfl
@[simp] theorem State.setCq_barriers (a b) : (s.setCq a b).barriers = s.barriers := rfl
@[simp] theorem State.setCq_step (a b) : (s.setCq a b).step = s.step := rfl
@[simp] theorem State.setCq_ctlOut (a b) : (s.setCq a b).ctlOut = s.ctlOut := rfl
@[simp] theorem State.setCq_log (a b) : (s.setCq a b).log = s.log := rfl
@[simp] theorem State.setCq_logLatch (a b) : (s.setCq a b).logLatch = s.logLatch := rfl
@[simp] theorem State.setCq_logOverwrote (a b) : (s.setCq a b).logOverwrote = s.logOverwrote := rfl
@[simp] theorem State.setCq_voidCause (a b) : (s.setCq a b).voidCause = s.voidCause := rfl
@[simp] theorem State.setCq_ports (a b) : (s.setCq a b).ports = s.ports := rfl
@[simp] theorem State.setCq_pools (a b) : (s.setCq a b).pools = s.pools := rfl
@[simp] theorem State.setCq_kvWaiters (a b) : (s.setCq a b).kvWaiters = s.kvWaiters := rfl
@[simp] theorem State.setCq_rings (a b) : (s.setCq a b).rings = s.rings := rfl
@[simp] theorem State.setCq_dispatch (a b) : (s.setCq a b).dispatch = s.dispatch := rfl
@[simp] theorem State.setCq_crossings (a b) : (s.setCq a b).crossings = s.crossings := rfl
@[simp] theorem State.setCq_streams (a b) : (s.setCq a b).streams = s.streams := rfl
@[simp] theorem State.setCq_tokQueue (a b) : (s.setCq a b).tokQueue = s.tokQueue := rfl
@[simp] theorem State.setCq_encoders (a b) : (s.setCq a b).encoders = s.encoders := rfl
@[simp] theorem State.setCq_chk (a b) : (s.setCq a b).chk = s.chk := rfl
@[simp] theorem State.setCq_links (a b) : (s.setCq a b).links = s.links := rfl
@[simp] theorem State.setCq_stranded (a b) : (s.setCq a b).stranded = s.stranded := rfl
@[simp] theorem State.setCq_routes (a b) : (s.setCq a b).routes = s.routes := rfl
@[simp] theorem State.setCq_linkKeys (a b) : (s.setCq a b).linkKeys = s.linkKeys := rfl
@[simp] theorem State.setCq_gate (a b) : (s.setCq a b).gate = s.gate := rfl
@[simp] theorem State.setCq_stashStacks (a b) : (s.setCq a b).stashStacks = s.stashStacks := rfl
@[simp] theorem State.setCq_ckp (a b) : (s.setCq a b).ckp = s.ckp := rfl
@[simp] theorem State.setCq_xfers (a b) : (s.setCq a b).xfers = s.xfers := rfl
@[simp] theorem State.setCq_reqs (a b) : (s.setCq a b).reqs = s.reqs := rfl
@[simp] theorem State.setCq_nextReq (a b) : (s.setCq a b).nextReq = s.nextReq := rfl
@[simp] theorem State.setCq_timeSynced (a b) : (s.setCq a b).timeSynced = s.timeSynced := rfl
@[simp] theorem State.setCq_timeGood (a b) : (s.setCq a b).timeGood = s.timeGood := rfl
@[simp] theorem State.setCq_timeMissed (a b) : (s.setCq a b).timeMissed = s.timeMissed := rfl
@[simp] theorem State.setCq_slew (a b) : (s.setCq a b).slew = s.slew := rfl
@[simp] theorem State.setCq_slewTicks (a b) : (s.setCq a b).slewTicks = s.slewTicks := rfl
@[simp] theorem State.setCq_sec (a b) : (s.setCq a b).sec = s.sec := rfl
@[simp] theorem State.setCq_pwr (a b) : (s.setCq a b).pwr = s.pwr := rfl
@[simp] theorem State.setCq_bst (a b) : (s.setCq a b).bst = s.bst := rfl
@[simp] theorem State.setCq_tap (a b) : (s.setCq a b).tap = s.tap := rfl
@[simp] theorem State.setCq_srstBusy (a b) : (s.setCq a b).srstBusy = s.srstBusy := rfl
@[simp] theorem State.setCq_dbgStep (a b) : (s.setCq a b).dbgStep = s.dbgStep := rfl
@[simp] theorem State.setCq_out (a b) : (s.setCq a b).out = s.out := rfl
@[simp] theorem State.setCq_answer (a b) : (s.setCq a b).answer = s.answer := rfl
@[simp] theorem State.setCq_freeCtr (a b) : (s.setCq a b).freeCtr = s.freeCtr := rfl
@[simp] theorem State.setCq_pending (a b) : (s.setCq a b).pending = s.pending := rfl

@[simp] theorem State.modCq_mt (a b) : (s.modCq a b).mt = s.mt := rfl
@[simp] theorem State.modCq_aoOn (a b) : (s.modCq a b).aoOn = s.aoOn := rfl
@[simp] theorem State.modCq_hold (a b) : (s.modCq a b).hold = s.hold := rfl
@[simp] theorem State.modCq_regs (a b) : (s.modCq a b).regs = s.regs := rfl
@[simp] theorem State.modCq_mem (a b) : (s.modCq a b).mem = s.mem := rfl
@[simp] theorem State.modCq_poison (a b) : (s.modCq a b).poison = s.poison := rfl
@[simp] theorem State.modCq_upsets (a b) : (s.modCq a b).upsets = s.upsets := rfl
@[simp] theorem State.modCq_ceWin (a b) : (s.modCq a b).ceWin = s.ceWin := rfl
@[simp] theorem State.modCq_scrubPos (a b) : (s.modCq a b).scrubPos = s.scrubPos := rfl
@[simp] theorem State.modCq_tiles (a b) : (s.modCq a b).tiles = s.tiles := rfl
@[simp] theorem State.modCq_signals (a b) : (s.modCq a b).signals = s.signals := rfl
@[simp] theorem State.modCq_arrivals (a b) : (s.modCq a b).arrivals = s.arrivals := rfl
@[simp] theorem State.modCq_barriers (a b) : (s.modCq a b).barriers = s.barriers := rfl
@[simp] theorem State.modCq_step (a b) : (s.modCq a b).step = s.step := rfl
@[simp] theorem State.modCq_ctlOut (a b) : (s.modCq a b).ctlOut = s.ctlOut := rfl
@[simp] theorem State.modCq_log (a b) : (s.modCq a b).log = s.log := rfl
@[simp] theorem State.modCq_logLatch (a b) : (s.modCq a b).logLatch = s.logLatch := rfl
@[simp] theorem State.modCq_logOverwrote (a b) : (s.modCq a b).logOverwrote = s.logOverwrote := rfl
@[simp] theorem State.modCq_voidCause (a b) : (s.modCq a b).voidCause = s.voidCause := rfl
@[simp] theorem State.modCq_ports (a b) : (s.modCq a b).ports = s.ports := rfl
@[simp] theorem State.modCq_pools (a b) : (s.modCq a b).pools = s.pools := rfl
@[simp] theorem State.modCq_kvWaiters (a b) : (s.modCq a b).kvWaiters = s.kvWaiters := rfl
@[simp] theorem State.modCq_rings (a b) : (s.modCq a b).rings = s.rings := rfl
@[simp] theorem State.modCq_dispatch (a b) : (s.modCq a b).dispatch = s.dispatch := rfl
@[simp] theorem State.modCq_crossings (a b) : (s.modCq a b).crossings = s.crossings := rfl
@[simp] theorem State.modCq_streams (a b) : (s.modCq a b).streams = s.streams := rfl
@[simp] theorem State.modCq_tokQueue (a b) : (s.modCq a b).tokQueue = s.tokQueue := rfl
@[simp] theorem State.modCq_encoders (a b) : (s.modCq a b).encoders = s.encoders := rfl
@[simp] theorem State.modCq_chk (a b) : (s.modCq a b).chk = s.chk := rfl
@[simp] theorem State.modCq_links (a b) : (s.modCq a b).links = s.links := rfl
@[simp] theorem State.modCq_stranded (a b) : (s.modCq a b).stranded = s.stranded := rfl
@[simp] theorem State.modCq_routes (a b) : (s.modCq a b).routes = s.routes := rfl
@[simp] theorem State.modCq_linkKeys (a b) : (s.modCq a b).linkKeys = s.linkKeys := rfl
@[simp] theorem State.modCq_gate (a b) : (s.modCq a b).gate = s.gate := rfl
@[simp] theorem State.modCq_stashStacks (a b) : (s.modCq a b).stashStacks = s.stashStacks := rfl
@[simp] theorem State.modCq_ckp (a b) : (s.modCq a b).ckp = s.ckp := rfl
@[simp] theorem State.modCq_xfers (a b) : (s.modCq a b).xfers = s.xfers := rfl
@[simp] theorem State.modCq_reqs (a b) : (s.modCq a b).reqs = s.reqs := rfl
@[simp] theorem State.modCq_nextReq (a b) : (s.modCq a b).nextReq = s.nextReq := rfl
@[simp] theorem State.modCq_timeSynced (a b) : (s.modCq a b).timeSynced = s.timeSynced := rfl
@[simp] theorem State.modCq_timeGood (a b) : (s.modCq a b).timeGood = s.timeGood := rfl
@[simp] theorem State.modCq_timeMissed (a b) : (s.modCq a b).timeMissed = s.timeMissed := rfl
@[simp] theorem State.modCq_slew (a b) : (s.modCq a b).slew = s.slew := rfl
@[simp] theorem State.modCq_slewTicks (a b) : (s.modCq a b).slewTicks = s.slewTicks := rfl
@[simp] theorem State.modCq_sec (a b) : (s.modCq a b).sec = s.sec := rfl
@[simp] theorem State.modCq_pwr (a b) : (s.modCq a b).pwr = s.pwr := rfl
@[simp] theorem State.modCq_bst (a b) : (s.modCq a b).bst = s.bst := rfl
@[simp] theorem State.modCq_tap (a b) : (s.modCq a b).tap = s.tap := rfl
@[simp] theorem State.modCq_srstBusy (a b) : (s.modCq a b).srstBusy = s.srstBusy := rfl
@[simp] theorem State.modCq_dbgStep (a b) : (s.modCq a b).dbgStep = s.dbgStep := rfl
@[simp] theorem State.modCq_out (a b) : (s.modCq a b).out = s.out := rfl
@[simp] theorem State.modCq_answer (a b) : (s.modCq a b).answer = s.answer := rfl
@[simp] theorem State.modCq_freeCtr (a b) : (s.modCq a b).freeCtr = s.freeCtr := rfl
@[simp] theorem State.modCq_pending (a b) : (s.modCq a b).pending = s.pending := rfl

@[simp] theorem State.modSec_mt (a) : (s.modSec a).mt = s.mt := rfl
@[simp] theorem State.modSec_aoOn (a) : (s.modSec a).aoOn = s.aoOn := rfl
@[simp] theorem State.modSec_hold (a) : (s.modSec a).hold = s.hold := rfl
@[simp] theorem State.modSec_regs (a) : (s.modSec a).regs = s.regs := rfl
@[simp] theorem State.modSec_mem (a) : (s.modSec a).mem = s.mem := rfl
@[simp] theorem State.modSec_poison (a) : (s.modSec a).poison = s.poison := rfl
@[simp] theorem State.modSec_upsets (a) : (s.modSec a).upsets = s.upsets := rfl
@[simp] theorem State.modSec_ceWin (a) : (s.modSec a).ceWin = s.ceWin := rfl
@[simp] theorem State.modSec_scrubPos (a) : (s.modSec a).scrubPos = s.scrubPos := rfl
@[simp] theorem State.modSec_tiles (a) : (s.modSec a).tiles = s.tiles := rfl
@[simp] theorem State.modSec_signals (a) : (s.modSec a).signals = s.signals := rfl
@[simp] theorem State.modSec_arrivals (a) : (s.modSec a).arrivals = s.arrivals := rfl
@[simp] theorem State.modSec_barriers (a) : (s.modSec a).barriers = s.barriers := rfl
@[simp] theorem State.modSec_step (a) : (s.modSec a).step = s.step := rfl
@[simp] theorem State.modSec_ctlOut (a) : (s.modSec a).ctlOut = s.ctlOut := rfl
@[simp] theorem State.modSec_log (a) : (s.modSec a).log = s.log := rfl
@[simp] theorem State.modSec_logLatch (a) : (s.modSec a).logLatch = s.logLatch := rfl
@[simp] theorem State.modSec_logOverwrote (a) : (s.modSec a).logOverwrote = s.logOverwrote := rfl
@[simp] theorem State.modSec_voidCause (a) : (s.modSec a).voidCause = s.voidCause := rfl
@[simp] theorem State.modSec_ports (a) : (s.modSec a).ports = s.ports := rfl
@[simp] theorem State.modSec_pools (a) : (s.modSec a).pools = s.pools := rfl
@[simp] theorem State.modSec_kvWaiters (a) : (s.modSec a).kvWaiters = s.kvWaiters := rfl
@[simp] theorem State.modSec_rings (a) : (s.modSec a).rings = s.rings := rfl
@[simp] theorem State.modSec_dispatch (a) : (s.modSec a).dispatch = s.dispatch := rfl
@[simp] theorem State.modSec_crossings (a) : (s.modSec a).crossings = s.crossings := rfl
@[simp] theorem State.modSec_streams (a) : (s.modSec a).streams = s.streams := rfl
@[simp] theorem State.modSec_tokQueue (a) : (s.modSec a).tokQueue = s.tokQueue := rfl
@[simp] theorem State.modSec_encoders (a) : (s.modSec a).encoders = s.encoders := rfl
@[simp] theorem State.modSec_chk (a) : (s.modSec a).chk = s.chk := rfl
@[simp] theorem State.modSec_links (a) : (s.modSec a).links = s.links := rfl
@[simp] theorem State.modSec_stranded (a) : (s.modSec a).stranded = s.stranded := rfl
@[simp] theorem State.modSec_routes (a) : (s.modSec a).routes = s.routes := rfl
@[simp] theorem State.modSec_linkKeys (a) : (s.modSec a).linkKeys = s.linkKeys := rfl
@[simp] theorem State.modSec_gate (a) : (s.modSec a).gate = s.gate := rfl
@[simp] theorem State.modSec_stashStacks (a) : (s.modSec a).stashStacks = s.stashStacks := rfl
@[simp] theorem State.modSec_ckp (a) : (s.modSec a).ckp = s.ckp := rfl
@[simp] theorem State.modSec_xfers (a) : (s.modSec a).xfers = s.xfers := rfl
@[simp] theorem State.modSec_reqs (a) : (s.modSec a).reqs = s.reqs := rfl
@[simp] theorem State.modSec_nextReq (a) : (s.modSec a).nextReq = s.nextReq := rfl
@[simp] theorem State.modSec_timeSynced (a) : (s.modSec a).timeSynced = s.timeSynced := rfl
@[simp] theorem State.modSec_timeGood (a) : (s.modSec a).timeGood = s.timeGood := rfl
@[simp] theorem State.modSec_timeMissed (a) : (s.modSec a).timeMissed = s.timeMissed := rfl
@[simp] theorem State.modSec_slew (a) : (s.modSec a).slew = s.slew := rfl
@[simp] theorem State.modSec_slewTicks (a) : (s.modSec a).slewTicks = s.slewTicks := rfl
@[simp] theorem State.modSec_queues (a) : (s.modSec a).queues = s.queues := rfl
@[simp] theorem State.modSec_pwr (a) : (s.modSec a).pwr = s.pwr := rfl
@[simp] theorem State.modSec_bst (a) : (s.modSec a).bst = s.bst := rfl
@[simp] theorem State.modSec_tap (a) : (s.modSec a).tap = s.tap := rfl
@[simp] theorem State.modSec_srstBusy (a) : (s.modSec a).srstBusy = s.srstBusy := rfl
@[simp] theorem State.modSec_dbgStep (a) : (s.modSec a).dbgStep = s.dbgStep := rfl
@[simp] theorem State.modSec_out (a) : (s.modSec a).out = s.out := rfl
@[simp] theorem State.modSec_answer (a) : (s.modSec a).answer = s.answer := rfl
@[simp] theorem State.modSec_freeCtr (a) : (s.modSec a).freeCtr = s.freeCtr := rfl
@[simp] theorem State.modSec_pending (a) : (s.modSec a).pending = s.pending := rfl

@[simp] theorem State.setEnc_mt (a b) : (s.setEnc a b).mt = s.mt := rfl
@[simp] theorem State.setEnc_aoOn (a b) : (s.setEnc a b).aoOn = s.aoOn := rfl
@[simp] theorem State.setEnc_hold (a b) : (s.setEnc a b).hold = s.hold := rfl
@[simp] theorem State.setEnc_regs (a b) : (s.setEnc a b).regs = s.regs := rfl
@[simp] theorem State.setEnc_mem (a b) : (s.setEnc a b).mem = s.mem := rfl
@[simp] theorem State.setEnc_poison (a b) : (s.setEnc a b).poison = s.poison := rfl
@[simp] theorem State.setEnc_upsets (a b) : (s.setEnc a b).upsets = s.upsets := rfl
@[simp] theorem State.setEnc_ceWin (a b) : (s.setEnc a b).ceWin = s.ceWin := rfl
@[simp] theorem State.setEnc_scrubPos (a b) : (s.setEnc a b).scrubPos = s.scrubPos := rfl
@[simp] theorem State.setEnc_tiles (a b) : (s.setEnc a b).tiles = s.tiles := rfl
@[simp] theorem State.setEnc_signals (a b) : (s.setEnc a b).signals = s.signals := rfl
@[simp] theorem State.setEnc_arrivals (a b) : (s.setEnc a b).arrivals = s.arrivals := rfl
@[simp] theorem State.setEnc_barriers (a b) : (s.setEnc a b).barriers = s.barriers := rfl
@[simp] theorem State.setEnc_step (a b) : (s.setEnc a b).step = s.step := rfl
@[simp] theorem State.setEnc_ctlOut (a b) : (s.setEnc a b).ctlOut = s.ctlOut := rfl
@[simp] theorem State.setEnc_log (a b) : (s.setEnc a b).log = s.log := rfl
@[simp] theorem State.setEnc_logLatch (a b) : (s.setEnc a b).logLatch = s.logLatch := rfl
@[simp] theorem State.setEnc_logOverwrote (a b) : (s.setEnc a b).logOverwrote = s.logOverwrote := rfl
@[simp] theorem State.setEnc_voidCause (a b) : (s.setEnc a b).voidCause = s.voidCause := rfl
@[simp] theorem State.setEnc_ports (a b) : (s.setEnc a b).ports = s.ports := rfl
@[simp] theorem State.setEnc_pools (a b) : (s.setEnc a b).pools = s.pools := rfl
@[simp] theorem State.setEnc_kvWaiters (a b) : (s.setEnc a b).kvWaiters = s.kvWaiters := rfl
@[simp] theorem State.setEnc_rings (a b) : (s.setEnc a b).rings = s.rings := rfl
@[simp] theorem State.setEnc_dispatch (a b) : (s.setEnc a b).dispatch = s.dispatch := rfl
@[simp] theorem State.setEnc_crossings (a b) : (s.setEnc a b).crossings = s.crossings := rfl
@[simp] theorem State.setEnc_streams (a b) : (s.setEnc a b).streams = s.streams := rfl
@[simp] theorem State.setEnc_tokQueue (a b) : (s.setEnc a b).tokQueue = s.tokQueue := rfl
@[simp] theorem State.setEnc_chk (a b) : (s.setEnc a b).chk = s.chk := rfl
@[simp] theorem State.setEnc_links (a b) : (s.setEnc a b).links = s.links := rfl
@[simp] theorem State.setEnc_stranded (a b) : (s.setEnc a b).stranded = s.stranded := rfl
@[simp] theorem State.setEnc_routes (a b) : (s.setEnc a b).routes = s.routes := rfl
@[simp] theorem State.setEnc_linkKeys (a b) : (s.setEnc a b).linkKeys = s.linkKeys := rfl
@[simp] theorem State.setEnc_gate (a b) : (s.setEnc a b).gate = s.gate := rfl
@[simp] theorem State.setEnc_stashStacks (a b) : (s.setEnc a b).stashStacks = s.stashStacks := rfl
@[simp] theorem State.setEnc_ckp (a b) : (s.setEnc a b).ckp = s.ckp := rfl
@[simp] theorem State.setEnc_xfers (a b) : (s.setEnc a b).xfers = s.xfers := rfl
@[simp] theorem State.setEnc_reqs (a b) : (s.setEnc a b).reqs = s.reqs := rfl
@[simp] theorem State.setEnc_nextReq (a b) : (s.setEnc a b).nextReq = s.nextReq := rfl
@[simp] theorem State.setEnc_timeSynced (a b) : (s.setEnc a b).timeSynced = s.timeSynced := rfl
@[simp] theorem State.setEnc_timeGood (a b) : (s.setEnc a b).timeGood = s.timeGood := rfl
@[simp] theorem State.setEnc_timeMissed (a b) : (s.setEnc a b).timeMissed = s.timeMissed := rfl
@[simp] theorem State.setEnc_slew (a b) : (s.setEnc a b).slew = s.slew := rfl
@[simp] theorem State.setEnc_slewTicks (a b) : (s.setEnc a b).slewTicks = s.slewTicks := rfl
@[simp] theorem State.setEnc_queues (a b) : (s.setEnc a b).queues = s.queues := rfl
@[simp] theorem State.setEnc_sec (a b) : (s.setEnc a b).sec = s.sec := rfl
@[simp] theorem State.setEnc_pwr (a b) : (s.setEnc a b).pwr = s.pwr := rfl
@[simp] theorem State.setEnc_bst (a b) : (s.setEnc a b).bst = s.bst := rfl
@[simp] theorem State.setEnc_tap (a b) : (s.setEnc a b).tap = s.tap := rfl
@[simp] theorem State.setEnc_srstBusy (a b) : (s.setEnc a b).srstBusy = s.srstBusy := rfl
@[simp] theorem State.setEnc_dbgStep (a b) : (s.setEnc a b).dbgStep = s.dbgStep := rfl
@[simp] theorem State.setEnc_out (a b) : (s.setEnc a b).out = s.out := rfl
@[simp] theorem State.setEnc_answer (a b) : (s.setEnc a b).answer = s.answer := rfl
@[simp] theorem State.setEnc_freeCtr (a b) : (s.setEnc a b).freeCtr = s.freeCtr := rfl
@[simp] theorem State.setEnc_pending (a b) : (s.setEnc a b).pending = s.pending := rfl

@[simp] theorem State.modPwr_mt (a) : (s.modPwr a).mt = s.mt := rfl
@[simp] theorem State.modPwr_aoOn (a) : (s.modPwr a).aoOn = s.aoOn := rfl
@[simp] theorem State.modPwr_hold (a) : (s.modPwr a).hold = s.hold := rfl
@[simp] theorem State.modPwr_regs (a) : (s.modPwr a).regs = s.regs := rfl
@[simp] theorem State.modPwr_mem (a) : (s.modPwr a).mem = s.mem := rfl
@[simp] theorem State.modPwr_poison (a) : (s.modPwr a).poison = s.poison := rfl
@[simp] theorem State.modPwr_upsets (a) : (s.modPwr a).upsets = s.upsets := rfl
@[simp] theorem State.modPwr_ceWin (a) : (s.modPwr a).ceWin = s.ceWin := rfl
@[simp] theorem State.modPwr_scrubPos (a) : (s.modPwr a).scrubPos = s.scrubPos := rfl
@[simp] theorem State.modPwr_tiles (a) : (s.modPwr a).tiles = s.tiles := rfl
@[simp] theorem State.modPwr_signals (a) : (s.modPwr a).signals = s.signals := rfl
@[simp] theorem State.modPwr_arrivals (a) : (s.modPwr a).arrivals = s.arrivals := rfl
@[simp] theorem State.modPwr_barriers (a) : (s.modPwr a).barriers = s.barriers := rfl
@[simp] theorem State.modPwr_step (a) : (s.modPwr a).step = s.step := rfl
@[simp] theorem State.modPwr_ctlOut (a) : (s.modPwr a).ctlOut = s.ctlOut := rfl
@[simp] theorem State.modPwr_log (a) : (s.modPwr a).log = s.log := rfl
@[simp] theorem State.modPwr_logLatch (a) : (s.modPwr a).logLatch = s.logLatch := rfl
@[simp] theorem State.modPwr_logOverwrote (a) : (s.modPwr a).logOverwrote = s.logOverwrote := rfl
@[simp] theorem State.modPwr_voidCause (a) : (s.modPwr a).voidCause = s.voidCause := rfl
@[simp] theorem State.modPwr_ports (a) : (s.modPwr a).ports = s.ports := rfl
@[simp] theorem State.modPwr_pools (a) : (s.modPwr a).pools = s.pools := rfl
@[simp] theorem State.modPwr_kvWaiters (a) : (s.modPwr a).kvWaiters = s.kvWaiters := rfl
@[simp] theorem State.modPwr_rings (a) : (s.modPwr a).rings = s.rings := rfl
@[simp] theorem State.modPwr_dispatch (a) : (s.modPwr a).dispatch = s.dispatch := rfl
@[simp] theorem State.modPwr_crossings (a) : (s.modPwr a).crossings = s.crossings := rfl
@[simp] theorem State.modPwr_streams (a) : (s.modPwr a).streams = s.streams := rfl
@[simp] theorem State.modPwr_tokQueue (a) : (s.modPwr a).tokQueue = s.tokQueue := rfl
@[simp] theorem State.modPwr_encoders (a) : (s.modPwr a).encoders = s.encoders := rfl
@[simp] theorem State.modPwr_chk (a) : (s.modPwr a).chk = s.chk := rfl
@[simp] theorem State.modPwr_links (a) : (s.modPwr a).links = s.links := rfl
@[simp] theorem State.modPwr_stranded (a) : (s.modPwr a).stranded = s.stranded := rfl
@[simp] theorem State.modPwr_routes (a) : (s.modPwr a).routes = s.routes := rfl
@[simp] theorem State.modPwr_linkKeys (a) : (s.modPwr a).linkKeys = s.linkKeys := rfl
@[simp] theorem State.modPwr_gate (a) : (s.modPwr a).gate = s.gate := rfl
@[simp] theorem State.modPwr_stashStacks (a) : (s.modPwr a).stashStacks = s.stashStacks := rfl
@[simp] theorem State.modPwr_ckp (a) : (s.modPwr a).ckp = s.ckp := rfl
@[simp] theorem State.modPwr_xfers (a) : (s.modPwr a).xfers = s.xfers := rfl
@[simp] theorem State.modPwr_reqs (a) : (s.modPwr a).reqs = s.reqs := rfl
@[simp] theorem State.modPwr_nextReq (a) : (s.modPwr a).nextReq = s.nextReq := rfl
@[simp] theorem State.modPwr_timeSynced (a) : (s.modPwr a).timeSynced = s.timeSynced := rfl
@[simp] theorem State.modPwr_timeGood (a) : (s.modPwr a).timeGood = s.timeGood := rfl
@[simp] theorem State.modPwr_timeMissed (a) : (s.modPwr a).timeMissed = s.timeMissed := rfl
@[simp] theorem State.modPwr_slew (a) : (s.modPwr a).slew = s.slew := rfl
@[simp] theorem State.modPwr_slewTicks (a) : (s.modPwr a).slewTicks = s.slewTicks := rfl
@[simp] theorem State.modPwr_queues (a) : (s.modPwr a).queues = s.queues := rfl
@[simp] theorem State.modPwr_sec (a) : (s.modPwr a).sec = s.sec := rfl
@[simp] theorem State.modPwr_bst (a) : (s.modPwr a).bst = s.bst := rfl
@[simp] theorem State.modPwr_tap (a) : (s.modPwr a).tap = s.tap := rfl
@[simp] theorem State.modPwr_srstBusy (a) : (s.modPwr a).srstBusy = s.srstBusy := rfl
@[simp] theorem State.modPwr_dbgStep (a) : (s.modPwr a).dbgStep = s.dbgStep := rfl
@[simp] theorem State.modPwr_out (a) : (s.modPwr a).out = s.out := rfl
@[simp] theorem State.modPwr_answer (a) : (s.modPwr a).answer = s.answer := rfl
@[simp] theorem State.modPwr_freeCtr (a) : (s.modPwr a).freeCtr = s.freeCtr := rfl
@[simp] theorem State.modPwr_pending (a) : (s.modPwr a).pending = s.pending := rfl

@[simp] theorem State.modBst_mt (a) : (s.modBst a).mt = s.mt := rfl
@[simp] theorem State.modBst_aoOn (a) : (s.modBst a).aoOn = s.aoOn := rfl
@[simp] theorem State.modBst_hold (a) : (s.modBst a).hold = s.hold := rfl
@[simp] theorem State.modBst_regs (a) : (s.modBst a).regs = s.regs := rfl
@[simp] theorem State.modBst_mem (a) : (s.modBst a).mem = s.mem := rfl
@[simp] theorem State.modBst_poison (a) : (s.modBst a).poison = s.poison := rfl
@[simp] theorem State.modBst_upsets (a) : (s.modBst a).upsets = s.upsets := rfl
@[simp] theorem State.modBst_ceWin (a) : (s.modBst a).ceWin = s.ceWin := rfl
@[simp] theorem State.modBst_scrubPos (a) : (s.modBst a).scrubPos = s.scrubPos := rfl
@[simp] theorem State.modBst_tiles (a) : (s.modBst a).tiles = s.tiles := rfl
@[simp] theorem State.modBst_signals (a) : (s.modBst a).signals = s.signals := rfl
@[simp] theorem State.modBst_arrivals (a) : (s.modBst a).arrivals = s.arrivals := rfl
@[simp] theorem State.modBst_barriers (a) : (s.modBst a).barriers = s.barriers := rfl
@[simp] theorem State.modBst_step (a) : (s.modBst a).step = s.step := rfl
@[simp] theorem State.modBst_ctlOut (a) : (s.modBst a).ctlOut = s.ctlOut := rfl
@[simp] theorem State.modBst_log (a) : (s.modBst a).log = s.log := rfl
@[simp] theorem State.modBst_logLatch (a) : (s.modBst a).logLatch = s.logLatch := rfl
@[simp] theorem State.modBst_logOverwrote (a) : (s.modBst a).logOverwrote = s.logOverwrote := rfl
@[simp] theorem State.modBst_voidCause (a) : (s.modBst a).voidCause = s.voidCause := rfl
@[simp] theorem State.modBst_ports (a) : (s.modBst a).ports = s.ports := rfl
@[simp] theorem State.modBst_pools (a) : (s.modBst a).pools = s.pools := rfl
@[simp] theorem State.modBst_kvWaiters (a) : (s.modBst a).kvWaiters = s.kvWaiters := rfl
@[simp] theorem State.modBst_rings (a) : (s.modBst a).rings = s.rings := rfl
@[simp] theorem State.modBst_dispatch (a) : (s.modBst a).dispatch = s.dispatch := rfl
@[simp] theorem State.modBst_crossings (a) : (s.modBst a).crossings = s.crossings := rfl
@[simp] theorem State.modBst_streams (a) : (s.modBst a).streams = s.streams := rfl
@[simp] theorem State.modBst_tokQueue (a) : (s.modBst a).tokQueue = s.tokQueue := rfl
@[simp] theorem State.modBst_encoders (a) : (s.modBst a).encoders = s.encoders := rfl
@[simp] theorem State.modBst_chk (a) : (s.modBst a).chk = s.chk := rfl
@[simp] theorem State.modBst_links (a) : (s.modBst a).links = s.links := rfl
@[simp] theorem State.modBst_stranded (a) : (s.modBst a).stranded = s.stranded := rfl
@[simp] theorem State.modBst_routes (a) : (s.modBst a).routes = s.routes := rfl
@[simp] theorem State.modBst_linkKeys (a) : (s.modBst a).linkKeys = s.linkKeys := rfl
@[simp] theorem State.modBst_gate (a) : (s.modBst a).gate = s.gate := rfl
@[simp] theorem State.modBst_stashStacks (a) : (s.modBst a).stashStacks = s.stashStacks := rfl
@[simp] theorem State.modBst_ckp (a) : (s.modBst a).ckp = s.ckp := rfl
@[simp] theorem State.modBst_xfers (a) : (s.modBst a).xfers = s.xfers := rfl
@[simp] theorem State.modBst_reqs (a) : (s.modBst a).reqs = s.reqs := rfl
@[simp] theorem State.modBst_nextReq (a) : (s.modBst a).nextReq = s.nextReq := rfl
@[simp] theorem State.modBst_timeSynced (a) : (s.modBst a).timeSynced = s.timeSynced := rfl
@[simp] theorem State.modBst_timeGood (a) : (s.modBst a).timeGood = s.timeGood := rfl
@[simp] theorem State.modBst_timeMissed (a) : (s.modBst a).timeMissed = s.timeMissed := rfl
@[simp] theorem State.modBst_slew (a) : (s.modBst a).slew = s.slew := rfl
@[simp] theorem State.modBst_slewTicks (a) : (s.modBst a).slewTicks = s.slewTicks := rfl
@[simp] theorem State.modBst_queues (a) : (s.modBst a).queues = s.queues := rfl
@[simp] theorem State.modBst_sec (a) : (s.modBst a).sec = s.sec := rfl
@[simp] theorem State.modBst_pwr (a) : (s.modBst a).pwr = s.pwr := rfl
@[simp] theorem State.modBst_tap (a) : (s.modBst a).tap = s.tap := rfl
@[simp] theorem State.modBst_srstBusy (a) : (s.modBst a).srstBusy = s.srstBusy := rfl
@[simp] theorem State.modBst_dbgStep (a) : (s.modBst a).dbgStep = s.dbgStep := rfl
@[simp] theorem State.modBst_out (a) : (s.modBst a).out = s.out := rfl
@[simp] theorem State.modBst_answer (a) : (s.modBst a).answer = s.answer := rfl
@[simp] theorem State.modBst_freeCtr (a) : (s.modBst a).freeCtr = s.freeCtr := rfl
@[simp] theorem State.modBst_pending (a) : (s.modBst a).pending = s.pending := rfl

@[simp] theorem State.modTap_mt (a) : (s.modTap a).mt = s.mt := rfl
@[simp] theorem State.modTap_aoOn (a) : (s.modTap a).aoOn = s.aoOn := rfl
@[simp] theorem State.modTap_hold (a) : (s.modTap a).hold = s.hold := rfl
@[simp] theorem State.modTap_regs (a) : (s.modTap a).regs = s.regs := rfl
@[simp] theorem State.modTap_mem (a) : (s.modTap a).mem = s.mem := rfl
@[simp] theorem State.modTap_poison (a) : (s.modTap a).poison = s.poison := rfl
@[simp] theorem State.modTap_upsets (a) : (s.modTap a).upsets = s.upsets := rfl
@[simp] theorem State.modTap_ceWin (a) : (s.modTap a).ceWin = s.ceWin := rfl
@[simp] theorem State.modTap_scrubPos (a) : (s.modTap a).scrubPos = s.scrubPos := rfl
@[simp] theorem State.modTap_tiles (a) : (s.modTap a).tiles = s.tiles := rfl
@[simp] theorem State.modTap_signals (a) : (s.modTap a).signals = s.signals := rfl
@[simp] theorem State.modTap_arrivals (a) : (s.modTap a).arrivals = s.arrivals := rfl
@[simp] theorem State.modTap_barriers (a) : (s.modTap a).barriers = s.barriers := rfl
@[simp] theorem State.modTap_step (a) : (s.modTap a).step = s.step := rfl
@[simp] theorem State.modTap_ctlOut (a) : (s.modTap a).ctlOut = s.ctlOut := rfl
@[simp] theorem State.modTap_log (a) : (s.modTap a).log = s.log := rfl
@[simp] theorem State.modTap_logLatch (a) : (s.modTap a).logLatch = s.logLatch := rfl
@[simp] theorem State.modTap_logOverwrote (a) : (s.modTap a).logOverwrote = s.logOverwrote := rfl
@[simp] theorem State.modTap_voidCause (a) : (s.modTap a).voidCause = s.voidCause := rfl
@[simp] theorem State.modTap_ports (a) : (s.modTap a).ports = s.ports := rfl
@[simp] theorem State.modTap_pools (a) : (s.modTap a).pools = s.pools := rfl
@[simp] theorem State.modTap_kvWaiters (a) : (s.modTap a).kvWaiters = s.kvWaiters := rfl
@[simp] theorem State.modTap_rings (a) : (s.modTap a).rings = s.rings := rfl
@[simp] theorem State.modTap_dispatch (a) : (s.modTap a).dispatch = s.dispatch := rfl
@[simp] theorem State.modTap_crossings (a) : (s.modTap a).crossings = s.crossings := rfl
@[simp] theorem State.modTap_streams (a) : (s.modTap a).streams = s.streams := rfl
@[simp] theorem State.modTap_tokQueue (a) : (s.modTap a).tokQueue = s.tokQueue := rfl
@[simp] theorem State.modTap_encoders (a) : (s.modTap a).encoders = s.encoders := rfl
@[simp] theorem State.modTap_chk (a) : (s.modTap a).chk = s.chk := rfl
@[simp] theorem State.modTap_links (a) : (s.modTap a).links = s.links := rfl
@[simp] theorem State.modTap_stranded (a) : (s.modTap a).stranded = s.stranded := rfl
@[simp] theorem State.modTap_routes (a) : (s.modTap a).routes = s.routes := rfl
@[simp] theorem State.modTap_linkKeys (a) : (s.modTap a).linkKeys = s.linkKeys := rfl
@[simp] theorem State.modTap_gate (a) : (s.modTap a).gate = s.gate := rfl
@[simp] theorem State.modTap_stashStacks (a) : (s.modTap a).stashStacks = s.stashStacks := rfl
@[simp] theorem State.modTap_ckp (a) : (s.modTap a).ckp = s.ckp := rfl
@[simp] theorem State.modTap_xfers (a) : (s.modTap a).xfers = s.xfers := rfl
@[simp] theorem State.modTap_reqs (a) : (s.modTap a).reqs = s.reqs := rfl
@[simp] theorem State.modTap_nextReq (a) : (s.modTap a).nextReq = s.nextReq := rfl
@[simp] theorem State.modTap_timeSynced (a) : (s.modTap a).timeSynced = s.timeSynced := rfl
@[simp] theorem State.modTap_timeGood (a) : (s.modTap a).timeGood = s.timeGood := rfl
@[simp] theorem State.modTap_timeMissed (a) : (s.modTap a).timeMissed = s.timeMissed := rfl
@[simp] theorem State.modTap_slew (a) : (s.modTap a).slew = s.slew := rfl
@[simp] theorem State.modTap_slewTicks (a) : (s.modTap a).slewTicks = s.slewTicks := rfl
@[simp] theorem State.modTap_queues (a) : (s.modTap a).queues = s.queues := rfl
@[simp] theorem State.modTap_sec (a) : (s.modTap a).sec = s.sec := rfl
@[simp] theorem State.modTap_pwr (a) : (s.modTap a).pwr = s.pwr := rfl
@[simp] theorem State.modTap_bst (a) : (s.modTap a).bst = s.bst := rfl
@[simp] theorem State.modTap_srstBusy (a) : (s.modTap a).srstBusy = s.srstBusy := rfl
@[simp] theorem State.modTap_dbgStep (a) : (s.modTap a).dbgStep = s.dbgStep := rfl
@[simp] theorem State.modTap_out (a) : (s.modTap a).out = s.out := rfl
@[simp] theorem State.modTap_answer (a) : (s.modTap a).answer = s.answer := rfl
@[simp] theorem State.modTap_freeCtr (a) : (s.modTap a).freeCtr = s.freeCtr := rfl
@[simp] theorem State.modTap_pending (a) : (s.modTap a).pending = s.pending := rfl

@[simp] theorem State.setRing_mt (a) : (s.setRing a).mt = s.mt := rfl
@[simp] theorem State.setRing_aoOn (a) : (s.setRing a).aoOn = s.aoOn := rfl
@[simp] theorem State.setRing_hold (a) : (s.setRing a).hold = s.hold := rfl
@[simp] theorem State.setRing_regs (a) : (s.setRing a).regs = s.regs := rfl
@[simp] theorem State.setRing_mem (a) : (s.setRing a).mem = s.mem := rfl
@[simp] theorem State.setRing_poison (a) : (s.setRing a).poison = s.poison := rfl
@[simp] theorem State.setRing_upsets (a) : (s.setRing a).upsets = s.upsets := rfl
@[simp] theorem State.setRing_ceWin (a) : (s.setRing a).ceWin = s.ceWin := rfl
@[simp] theorem State.setRing_scrubPos (a) : (s.setRing a).scrubPos = s.scrubPos := rfl
@[simp] theorem State.setRing_tiles (a) : (s.setRing a).tiles = s.tiles := rfl
@[simp] theorem State.setRing_signals (a) : (s.setRing a).signals = s.signals := rfl
@[simp] theorem State.setRing_arrivals (a) : (s.setRing a).arrivals = s.arrivals := rfl
@[simp] theorem State.setRing_barriers (a) : (s.setRing a).barriers = s.barriers := rfl
@[simp] theorem State.setRing_step (a) : (s.setRing a).step = s.step := rfl
@[simp] theorem State.setRing_ctlOut (a) : (s.setRing a).ctlOut = s.ctlOut := rfl
@[simp] theorem State.setRing_log (a) : (s.setRing a).log = s.log := rfl
@[simp] theorem State.setRing_logLatch (a) : (s.setRing a).logLatch = s.logLatch := rfl
@[simp] theorem State.setRing_logOverwrote (a) : (s.setRing a).logOverwrote = s.logOverwrote := rfl
@[simp] theorem State.setRing_voidCause (a) : (s.setRing a).voidCause = s.voidCause := rfl
@[simp] theorem State.setRing_ports (a) : (s.setRing a).ports = s.ports := rfl
@[simp] theorem State.setRing_pools (a) : (s.setRing a).pools = s.pools := rfl
@[simp] theorem State.setRing_kvWaiters (a) : (s.setRing a).kvWaiters = s.kvWaiters := rfl
@[simp] theorem State.setRing_dispatch (a) : (s.setRing a).dispatch = s.dispatch := rfl
@[simp] theorem State.setRing_crossings (a) : (s.setRing a).crossings = s.crossings := rfl
@[simp] theorem State.setRing_streams (a) : (s.setRing a).streams = s.streams := rfl
@[simp] theorem State.setRing_tokQueue (a) : (s.setRing a).tokQueue = s.tokQueue := rfl
@[simp] theorem State.setRing_encoders (a) : (s.setRing a).encoders = s.encoders := rfl
@[simp] theorem State.setRing_chk (a) : (s.setRing a).chk = s.chk := rfl
@[simp] theorem State.setRing_links (a) : (s.setRing a).links = s.links := rfl
@[simp] theorem State.setRing_stranded (a) : (s.setRing a).stranded = s.stranded := rfl
@[simp] theorem State.setRing_routes (a) : (s.setRing a).routes = s.routes := rfl
@[simp] theorem State.setRing_linkKeys (a) : (s.setRing a).linkKeys = s.linkKeys := rfl
@[simp] theorem State.setRing_gate (a) : (s.setRing a).gate = s.gate := rfl
@[simp] theorem State.setRing_stashStacks (a) : (s.setRing a).stashStacks = s.stashStacks := rfl
@[simp] theorem State.setRing_ckp (a) : (s.setRing a).ckp = s.ckp := rfl
@[simp] theorem State.setRing_xfers (a) : (s.setRing a).xfers = s.xfers := rfl
@[simp] theorem State.setRing_reqs (a) : (s.setRing a).reqs = s.reqs := rfl
@[simp] theorem State.setRing_nextReq (a) : (s.setRing a).nextReq = s.nextReq := rfl
@[simp] theorem State.setRing_timeSynced (a) : (s.setRing a).timeSynced = s.timeSynced := rfl
@[simp] theorem State.setRing_timeGood (a) : (s.setRing a).timeGood = s.timeGood := rfl
@[simp] theorem State.setRing_timeMissed (a) : (s.setRing a).timeMissed = s.timeMissed := rfl
@[simp] theorem State.setRing_slew (a) : (s.setRing a).slew = s.slew := rfl
@[simp] theorem State.setRing_slewTicks (a) : (s.setRing a).slewTicks = s.slewTicks := rfl
@[simp] theorem State.setRing_queues (a) : (s.setRing a).queues = s.queues := rfl
@[simp] theorem State.setRing_sec (a) : (s.setRing a).sec = s.sec := rfl
@[simp] theorem State.setRing_pwr (a) : (s.setRing a).pwr = s.pwr := rfl
@[simp] theorem State.setRing_bst (a) : (s.setRing a).bst = s.bst := rfl
@[simp] theorem State.setRing_tap (a) : (s.setRing a).tap = s.tap := rfl
@[simp] theorem State.setRing_srstBusy (a) : (s.setRing a).srstBusy = s.srstBusy := rfl
@[simp] theorem State.setRing_dbgStep (a) : (s.setRing a).dbgStep = s.dbgStep := rfl
@[simp] theorem State.setRing_out (a) : (s.setRing a).out = s.out := rfl
@[simp] theorem State.setRing_answer (a) : (s.setRing a).answer = s.answer := rfl
@[simp] theorem State.setRing_freeCtr (a) : (s.setRing a).freeCtr = s.freeCtr := rfl
@[simp] theorem State.setRing_pending (a) : (s.setRing a).pending = s.pending := rfl

/-! ### Reads after writes -/

/-- A register set reads back as its low 32 bits. -/
theorem State.reg_setReg_same {p off v : Nat} (h : keysRise s.regs = true) : (s.setReg p off v).reg p off = v % 2 ^ 32 := by
  unfold State.reg State.setReg
  simp only [sget_sset h, if_true]
  exact BitVec.toNat_ofNat v 32

/-- A register set leaves a register with another place as it was. -/
theorem State.reg_setReg_other {p off q o v : Nat} (h : keysRise s.regs = true) (hn : q * 1024 + o / 4 ≠ p * 1024 + off / 4) :
    (s.setReg p off v).reg q o = s.reg q o := by
  show BitVec.toNat (sget _ (sset _ s.regs _ _) _) = BitVec.toNat (sget _ s.regs _)
  congr 1
  unfold sset
  split
  · exact sget_sdel_other hn h
  · exact sget_sput_other hn h

/-- Every register reads less than 2^32. -/
theorem State.reg_lt (p off : Nat) : s.reg p off < 2 ^ 32 := BitVec.isLt _

/-- A byte stored reads back, and every other byte reads as before. -/
theorem State.byte_setByte {k j v : Nat} (h : Memory.wf s.mem = true) :
    (s.setByte k v).byte j = if j = k then v % 256 else s.byte j := by
  unfold State.byte State.setByte
  simp only [sget_sset (rises_of_swfFrom h)]
  split
  · exact BitVec.toNat_ofNat v 8
  · rfl

theorem putList_other {k j : Nat} : ∀ {l : List Nat} {m : List (Nat × BitVec 8)}, Memory.wf m = true →
    j < k ∨ k + l.length ≤ j → sget 0 (putList m k l) j = sget 0 m j
  | [], _, _, _ => rfl
  | b :: r, m, hm, hj => by
    simp only [List.length_cons] at hj
    have ih := putList_other (k := k + 1) (j := j) (l := r) (swf_sset (k := k) (v := BitVec.ofNat 8 b) hm) (by omega)
    show sget 0 (putList (sset 0 m k (BitVec.ofNat 8 b)) (k + 1) r) j = _
    rw [ih, sget_sset (rises_of_swfFrom hm), if_neg (by omega)]

theorem putList_at {k i : Nat} : ∀ {l : List Nat} {m : List (Nat × BitVec 8)}, Memory.wf m = true → i < l.length →
    sget 0 (putList m k l) (k + i) = BitVec.ofNat 8 (l.getD i 0)
  | [], _, _, hi => absurd hi (Nat.not_lt_zero _)
  | b :: r, m, hm, hi => by
    have hm' := swf_sset (k := k) (v := BitVec.ofNat 8 b) hm
    show sget 0 (putList (sset 0 m k (BitVec.ofNat 8 b)) (k + 1) r) (k + i) = _
    cases i with
    | zero =>
      rw [putList_other hm' (Or.inl (by omega)), sget_sset (rises_of_swfFrom hm)]
      simp
    | succ n =>
      simp only [List.length_cons] at hi
      have := putList_at (k := k + 1) (i := n) (l := r) hm' (by omega)
      rw [show k + (n + 1) = k + 1 + n by omega, this]
      simp

/-- Bytes stored read back. -/
theorem State.byte_store_at {k i : Nat} {l : List Nat} (h : Memory.wf s.mem = true) (hi : i < l.length) :
    (s.store k l).byte (k + i) = l.getD i 0 % 256 := by
  show (sget 0 (putList s.mem k l) (k + i)).toNat = _
  rw [putList_at h hi]
  exact BitVec.toNat_ofNat _ 8

/-- A store leaves every byte outside it as it was. -/
theorem State.byte_store_other {k j : Nat} {l : List Nat} (h : Memory.wf s.mem = true) (hj : j < k ∨ k + l.length ≤ j) :
    (s.store k l).byte j = s.byte j := by
  show (sget 0 (putList s.mem k l) j).toNat = _
  rw [putList_other h hj]
  rfl

end Sys2Proof.Machine
end

