-- ==== Sys2Proof/Laws/Notice.lean ====
section
/-! SUPPORT. Laws/Notice.lean: everything that raising an event's interrupt and recording a notice can do to a state. -/
namespace Sys2Proof.Machine

theorem bit_eq_testBit (w i : Nat) : bit w i = w.testBit i := by
  rw [Nat.testBit_eq_decide_div_mod_eq, bit, Nat.shiftRight_eq_div_pow]
  rfl

/-- A delivery of interrupts: only registers, port states and what is sent may differ, and of the registers only the ports'
counts of dropped interrupts. -/
structure Signals (s t : State) : Prop where
  only : t = { s with regs := t.regs, ports := t.ports, out := t.out }
  rise : keysRise s.regs = true → keysRise t.regs = true
  reg : keysRise s.regs = true → ∀ q o, (∀ k, k < 8 → q * 1024 + o / 4 ≠ pHPT k * 1024 + R.HPT_IRQ_DROP / 4) → t.reg q o = s.reg q o

theorem Signals.refl (s : State) : Signals s s := ⟨rfl, id, fun _ _ _ _ => rfl⟩

theorem Signals.trans {s t u : State} (a : Signals s t) (b : Signals t u) : Signals s u :=
  ⟨by rw [b.only, a.only], fun h => b.rise (a.rise h), fun h q o hn => (b.reg (a.rise h) q o hn).trans (a.reg h q o hn)⟩

theorem State.signalPort_spec (s : State) {h v : Nat} (hh : h < 8) : Signals s (s.signalPort h v) := by
  unfold State.signalPort
  dsimp only
  split
  · exact ⟨rfl, fun hk => keysRise_sset hk, fun hk q o hn => State.reg_setReg_other s hk (hn h hh)⟩
  · split
    · exact ⟨rfl, id, fun _ _ _ _ => rfl⟩
    · split
      · exact ⟨rfl, id, fun _ _ _ _ => rfl⟩
      · exact ⟨rfl, id, fun _ _ _ _ => rfl⟩

theorem Signals.foldl {α : Type} {f : State → α → State} {l : List α} (hf : ∀ a x, x ∈ l → Signals a (f a x)) :
    ∀ s, Signals s (l.foldl f s) := by
  induction l with
  | nil => exact Signals.refl
  | cons x r ih =>
    intro s
    exact (hf s x (List.mem_cons_self)).trans (ih (fun a y hy => hf a y (List.mem_cons_of_mem _ hy)) _)

/-- The interrupts of an event (R13). -/
theorem State.signal_spec (s : State) (p e : Nat) : Signals s (s.signal p e) := by
  unfold State.signal
  extract_lets -underBinder -merge -useContext +onlyGivenNames cp rt part irq s1
  have hirq : ∀ h, irq = some h → h < 8 := by
    intro h
    unfold irq
    split
    · rintro ⟨⟩; exact Nat.mod_lt _ (by decide)
    · split
      · rintro ⟨⟩; exact Nat.mod_lt _ (by decide)
      · nofun
  have h1 : Signals s s1 := by
    unfold s1
    split
    · clear_value irq
      cases irq with
      | some h => exact State.signalPort_spec s (hirq h rfl)
      | none => exact Signals.refl s
    · exact Signals.refl s
  clear_value s1
  extract_lets -underBinder -merge -useContext +onlyGivenNames fd s2
  have h2 : Signals s s2 := by
    unfold s2
    split
    · refine h1.trans (Signals.foldl (fun a x hx => ?_) _)
      split
      · exact State.signalPort_spec a (List.mem_range.1 hx)
      · exact Signals.refl a
    · exact h1
  clear_value s2
  split
  · exact h2.trans ⟨rfl, id, fun _ _ _ _ => rfl⟩
  · exact h2

/-- A recorded event: EVT_STS of its page (R13), and, where tracing is on, the trace ring (DBG_TRACE_CTL, chapter 16). -/
structure Notices (s : State) (p e : Nat) (t : State) : Prop where
  only : t = { s with regs := t.regs, ports := t.ports, out := t.out, mem := t.mem, poison := t.poison, upsets := t.upsets }
  quiet : bit (s.reg pDBGM R.DBG_TRACE_CTL) 0 = false → keysRise s.regs = true →
    t.mem = s.mem ∧ t.poison = s.poison ∧ t.upsets = s.upsets
  rise : keysRise s.regs = true → keysRise t.regs = true
  sts : keysRise s.regs = true → e < 32 → bit (t.reg (s.canon p) R.EVT_STS) e = true
  reg : keysRise s.regs = true → ∀ q o, (∀ k, k < 8 → q * 1024 + o / 4 ≠ pHPT k * 1024 + R.HPT_IRQ_DROP / 4) →
    q * 1024 + o / 4 ≠ s.canon p * 1024 + R.EVT_STS / 4 → q * 1024 + o / 4 ≠ pDBGM * 1024 + R.DBG_TRACE_HEAD / 4 →
    t.reg q o = s.reg q o

/-- Setting an event and raising its interrupt. -/
theorem State.setEvt_spec (s : State) (p e : Nat) :
    s.setEvt p e = { s with regs := (s.setEvt p e).regs, ports := (s.setEvt p e).ports, out := (s.setEvt p e).out } ∧
    (keysRise s.regs = true → keysRise (s.setEvt p e).regs = true ∧
      (e < 32 → bit ((s.setEvt p e).reg (s.canon p) R.EVT_STS) e = true) ∧
      ∀ q o, (∀ k, k < 8 → q * 1024 + o / 4 ≠ pHPT k * 1024 + R.HPT_IRQ_DROP / 4) →
        q * 1024 + o / 4 ≠ s.canon p * 1024 + R.EVT_STS / 4 → (s.setEvt p e).reg q o = s.reg q o) := by
  unfold State.setEvt
  dsimp only
  generalize hs1 : s.setReg (s.canon p) R.EVT_STS (s.reg (s.canon p) R.EVT_STS ||| 2 ^ e) = s1
  have hsts : keysRise s.regs = true → e < 32 → bit (s1.reg (s.canon p) R.EVT_STS) e = true := by
    intro hk he
    rw [← hs1, State.reg_setReg_same s hk]
    simp only [bit_eq_testBit, Nat.testBit_mod_two_pow, he, decide_true, Bool.true_and, Nat.testBit_or, Nat.testBit_two_pow_self, Bool.or_true]
  have hreg : keysRise s.regs = true → ∀ q o, q * 1024 + o / 4 ≠ s.canon p * 1024 + R.EVT_STS / 4 → s1.reg q o = s.reg q o := by
    intro hk q o hn
    rw [← hs1]
    exact State.reg_setReg_other s hk hn
  have hrise : keysRise s.regs = true → keysRise s1.regs = true := by
    rw [← hs1]
    exact fun hk => keysRise_sset hk
  have honly : s1 = { s with regs := s1.regs, ports := s1.ports, out := s1.out } := by rw [← hs1]; rfl
  clear hs1
  split
  · have h := State.signal_spec s1 p e
    refine ⟨h.only.trans (by rw [honly]), fun hk => ⟨h.rise (hrise hk), fun he => ?_, fun q o h1 h2 => ?_⟩⟩
    · rw [h.reg (hrise hk) _ _ fun k _ => by simp only [pHPT, R.EVT_STS, R.HPT_IRQ_DROP]; omega]
      exact hsts hk he
    · exact (h.reg (hrise hk) q o h1).trans (hreg hk q o h2)
  · exact ⟨honly, fun hk => ⟨hrise hk, hsts hk, fun q o _ h2 => hreg hk q o h2⟩⟩

theorem State.notice_spec (s : State) (p e info : Nat) : Notices s p e (s.notice p e info) := by
  obtain ⟨ho, hr⟩ := State.setEvt_spec s p e
  unfold State.notice
  generalize s.mkRec p e 0 info 0 = r
  generalize s.setEvt p e = t at *
  unfold State.trace
  dsimp only
  have hc : keysRise s.regs = true → ∀ o, o = R.DBG_TRACE_CTL → t.reg pDBGM o = s.reg pDBGM o := by
    rintro hk o rfl
    refine (hr hk).2.2 _ _ (fun k hk => ?_) ?_ <;>
      simp only [pHPT, R.EVT_STS, R.HPT_IRQ_DROP, R.DBG_TRACE_CTL, pDBGM] <;> omega
  split
  · next hb =>
    refine ⟨by rw [ho]; rfl, fun h1 hk => ?_, fun hk => keysRise_sset (hr hk).1, fun hk he => ?_, fun hk q o h1 h2 h3 => ?_⟩
    · rw [hc hk _ rfl, h1] at hb
      exact absurd hb (by decide)
    · refine Eq.trans (congrArg (bit · e) (State.reg_setReg_other _ (hr hk).1 ?_)) ((hr hk).2.1 he)
      simp only [R.EVT_STS, R.DBG_TRACE_HEAD, pDBGM]; omega
    · exact (State.reg_setReg_other _ (hr hk).1 h3).trans ((hr hk).2.2 q o h1 h2)
  · exact ⟨by rw [ho], fun _ _ => by rw [ho]; exact ⟨rfl, rfl, rfl⟩, fun hk => (hr hk).1, fun hk he => (hr hk).2.1 he,
      fun hk q o h1 h2 _ => (hr hk).2.2 q o h1 h2⟩

end Sys2Proof.Machine
end

