-- ==== Sys2Proof/WellFormed.lean ====
section
/-! DEFINITION. WellFormed.lean: the ranges of a command's operands, as the spec numbers the things they name. -/
namespace Sys2Proof

def below (v n : Nat) : Bool := decide (v < n)

/-- A 32-bit value (R443). -/
def u32 (v : Nat) : Bool := decide (v < 4294967296)

/-- A 64-bit value. -/
def u64 (v : Nat) : Bool := decide (v < 18446744073709551616)

/-- A register access is 8, 16 or 32 bits, or a whole number of words (R446). -/
def bytesWf (n : Nat) : Bool := n == 1 || n == 2 || (n != 0 && n % 4 == 0 && decide (n ≤ 512))

/-- A logical tile ID (R68). -/
def tileWf (t : Nat) : Bool := decide (t / 256 < 6) && decide (t / 16 % 16 < 12)

/-- A physical tile site (R68). -/
def siteWf (t : Nat) : Bool := decide (t / 256 < 6) && decide (t / 16 % 16 < 13)

/-- The sender or target of a signal (R569). -/
def senderWf (t : Nat) : Bool := decide (t < 0x701)

/-- A source of accesses: a port of R441 or a partition of R464. -/
def srcWf : Src → Bool
  | .port h => decide (h < 8)
  | .device p => decide (p < 8)
  | .supervisor => true

/-- Whether every operand of a command is in its range. -/
def Instr.wellFormed : Instr → Bool
  | .registerWrite src page off bytes value => srcWf src && below page 0x4098 && below off 0x100000000 && bytesWf bytes && below value (256 ^ bytes)
  | .rcRead src page off bytes => srcWf src && below page 0x4098 && below off 0x100000000 && bytesWf bytes
  | .tilSeqTailWrite src tile value => srcWf src && tileWf tile && u32 value
  | .mma tile pos => tileWf tile && u32 pos
  | .conv tile pos => tileWf tile && u32 pos
  | .wgrad tile pos => tileWf tile && u32 pos
  | .maxpool tile pos => tileWf tile && u32 pos
  | .avgpool tile pos => tileWf tile && u32 pos
  | .maxpoolB tile pos => tileWf tile && u32 pos
  | .avgpoolB tile pos => tileWf tile && u32 pos
  | .s2d tile pos => tileWf tile && u32 pos
  | .d2s tile pos => tileWf tile && u32 pos
  | .vch tile pos => tileWf tile && u32 pos
  | .lnormF tile pos => tileWf tile && u32 pos
  | .rmsF tile pos => tileWf tile && u32 pos
  | .softmaxF tile pos => tileWf tile && u32 pos
  | .logsmF tile pos => tileWf tile && u32 pos
  | .xentF tile pos => tileWf tile && u32 pos
  | .lnormB tile pos => tileWf tile && u32 pos
  | .rmsB tile pos => tileWf tile && u32 pos
  | .softmaxB tile pos => tileWf tile && u32 pos
  | .logsmB tile pos => tileWf tile && u32 pos
  | .xentB tile pos => tileWf tile && u32 pos
  | .attBlock tile pos => tileWf tile && u32 pos
  | .attMerge tile pos => tileWf tile && u32 pos
  | .bprep tile pos => tileWf tile && u32 pos
  | .bq tile pos => tileWf tile && u32 pos
  | .bkv tile pos => tileWf tile && u32 pos
  | .mov tile pos => tileWf tile && u32 pos
  | .synFence tile pos => tileWf tile && u32 pos
  | .synSignal tile pos => tileWf tile && u32 pos
  | .synBarrier tile pos => tileWf tile && u32 pos
  | .synDrain tile pos => tileWf tile && u32 pos
  | .upd tile pos => tileWf tile && u32 pos
  | .rootAmax tile pos => tileWf tile && u32 pos
  | .rootInit tile pos => tileWf tile && u32 pos
  | .rootTstep tile pos => tileWf tile && u32 pos
  | .rootProd tile pos => tileWf tile && u32 pos
  | .rootTest tile pos => tileWf tile && u32 pos
  | .descriptorRetire tile pos => tileWf tile && u32 pos
  | .resume src tile => srcWf src && tileWf tile
  | .flush src tile => srcWf src && tileWf tile
  | .seqStall tile => tileWf tile
  | .idleClockStop tile => tileWf tile
  | .computeClockRestart tile => tileWf tile
  | .sramScrub site _ => siteWf site
  | .sramInitDone site => siteWf site
  | .spareMapWrite src district column value => srcWf src && below district 6 && below column 16 && u32 value
  | .barrierArrival tile => tileWf tile
  | .signalArrival sender target => senderWf sender && senderWf target
  | .actLoad src tile value => srcWf src && tileWf tile && u32 value
  | .actLoadDone tile => tileWf tile
  | .inval src tile => srcWf src && tileWf tile
  | .deferPark tile pos => tileWf tile && u32 pos
  | .parkedIssue tile => tileWf tile
  | .yield tile => tileWf tile
  | .excise src tile => srcWf src && tileWf tile
  | .frozenSkip tile pos => tileWf tile && u32 pos
  | .exciseMapDiscard tile pos => tileWf tile && u32 pos
  | .poolEnable src pool value => srcWf src && below pool 8 && u32 value
  | .poolInitDone pool => below pool 8
  | .poolFreeRead src pool => srcWf src && below pool 8
  | .allocWaitExpire waiter => u32 waiter
  | .kvsCmdTailWrite src value => srcWf src && u32 value
  | .sharePages => true
  | .freePages => true
  | .truncate => true
  | .freeCtx => true
  | .setLen => true
  | .ringSend => true
  | .ringSendComplete => true
  | .eviction pool => below pool 8
  | .dispatch src => srcWf src
  | .dispatchDone => true
  | .dispatchAbort src => srcWf src
  | .start src => srcWf src
  | .squash src => srcWf src
  | .stop src => srcWf src
  | .stpEnClear src => srcWf src
  | .phaseEnd => true
  | .updateComplete => true
  | .checkOpen => true
  | .localVerdict => true
  | .voteResult _ => true
  | .flushComplete => true
  | .voteTimeout => true
  | .commit => true
  | .memoryRead addr _ _ => u64 addr
  | .memoryWrite addr data _ => u64 addr && data.all (below · 256)
  | .fmax addr value => u64 addr && u32 value
  | .uadd addr value => u64 addr && u32 value
  | .or32 addr value => u64 addr && u32 value
  | .memScrub page channel _ => below page 0x4098 && below channel 128
  | .nearInitDone district => below district 6
  | .zero src channel => srcWf src && below channel 32
  | .zeroFillDone channel => below channel 32
  | .arbitrationRound crossing server => below crossing 44 && u32 server
  | .crossingWdog crossing server => below crossing 44 && u32 server
  | .quotaWindowEnd crossing => below crossing 44
  | .crsQuotaWrite src crossing value => srcWf src && below crossing 44 && u32 value
  | .streamEnable src stream value => srcWf src && below stream 256 && u32 value
  | .ingStrTailWrite src stream value => srcWf src && below stream 256 && u32 value
  | .cursorWrite src stream value => srcWf src && below stream 256 && u32 value
  | .takeSample stream => below stream 256
  | .ringDry stream => below stream 256
  | .decodeTimeout kind core => below kind 4 && below core 64
  | .decodeDone kind core _ => below kind 4 && below core 64
  | .sampleFail stream take => below stream 256 && u64 take
  | .bandWrite stream take idx _ => below stream 256 && u64 take && below idx 8
  | .tokenize engine => below engine 8
  | .bucketAssign stream take => below stream 256 && u64 take
  | .ingStrReqTailWrite src stream value => srcWf src && below stream 256 && u32 value
  | .batchRequest stream => below stream 256
  | .fillWaitExpire stream => below stream 256
  | .requestComplete stream => below stream 256
  | .ledgerLatchRead src stream => srcWf src && below stream 256
  | .dictEnable src dict value => srcWf src && below dict 16 && u32 value
  | .dictCheckDone dict => below dict 16
  | .exeJobTailWrite src core value => srcWf src && below core 64 && u32 value
  | .encodeJob core => below core 64
  | .sliceEncoded core payload rowBits => below core 64 && payload.all (below · 256) && rowBits.all (below · 256)
  | .outHeadWrite src core value => srcWf src && below core 64 && u32 value
  | .exeAbort src core => srcWf src && below core 64
  | .linkEnWrite src gate link value => srcWf src && below gate 8 && below link 12 && u32 value
  | .peerDetect gate link => below gate 8 && below link 12
  | .trainConverge gate link => below gate 8 && below link 12
  | .laneAlign gate link lanes => below gate 8 && below link 12 && below lanes 256
  | .identFlit gate link _ => below gate 8 && below link 12
  | .linkStateTimeout gate link => below gate 8 && below link 12
  | .linkRestartDelay gate link => below gate 8 && below link 12
  | .flitReceive gate link _ => below gate 8 && below link 12
  | .nakReceive gate link seq => below gate 8 && below link 12 && u32 seq
  | .retrainDone gate link _ lanes => below gate 8 && below link 12 && below lanes 256
  | .retrainWrite src gate link value => srcWf src && below gate 8 && below link 12 && u32 value
  | .segmentTimeout gate link => below gate 8 && below link 12
  | .packetForward _ => true
  | .linkWrite _ => true
  | .readReq _ => true
  | .readRsp _ => true
  | .ack _ => true
  | .remoteSignal _ => true
  | .bulk _ => true
  | .ackTimeout req => u64 req
  | .routeDataAccess src _ value => srcWf src && u32 value
  | .timeExchange _ _ _ _ _ => true
  | .gatJobTailWrite src value => srcWf src && u32 value
  | .jobTake gate => below gate 8
  | .redUp _ => true
  | .redDn _ => true
  | .jobComplete job => u32 job
  | .ready _ => true
  | .deadline => true
  | .go _ => true
  | .vote _ => true
  | .squashNotice _ => true
  | .capture => true
  | .captureDone => true
  | .buddySendDone => true
  | .now src => srcWf src
  | .restore src => srcWf src
  | .restoreDone image => image.all (below · 256)
  | .ckpAbort src => srcWf src
  | .errLogPop src seq => srcWf src && u32 seq
  | .logData0Read src => srcWf src
  | .errFirstRearm src page => srcWf src && below page 0x4098
  | .fatalClear src => srcWf src
  | .mtLoRead src => srcWf src
  | .configRequest port _ off value => below port 8 && below off 0x100000000 && u32 value
  | .bar4Access port off _ _ data => below port 8 && below off 0x100000000 && data.all (below · 256)
  | .evtForceWrite src page value => srcWf src && below page 0x4098 && u32 value
  | .evtEnWrite src page value => srcWf src && below page 0x4098 && u32 value
  | .irqHoldoffExpire port vector => below port 8 && below vector 64
  | .vectorUnmask port vector => below port 8 && below vector 64
  | .pageLockWrite src page value => srcWf src && below page 0x4098 && u32 value
  | .srst src page => srcWf src && below page 0x4098
  | .srstDone page => below page 0x4098
  | .cqEnable port queue value => below port 8 && below queue 64 && u32 value
  | .cqDoorbell port queue value => below port 8 && below queue 64 && u32 value
  | .cqFetch queue entries => below queue 64 && entries.all (below · (2 ^ 512))
  | .cqNop queue => below queue 64
  | .desc queue => below queue 64
  | .regw queue => below queue 64
  | .copy queue => below queue 64
  | .wait queue => below queue 64
  | .waitTimeout queue => below queue 64
  | .cqSignal queue => below queue 64
  | .cqResume port queue value => below port 8 && below queue 64 && u32 value
  | .cqFlush port queue value => below port 8 && below queue 64 && u32 value
  | .winDataHiAccess src port _ value => srcWf src && below port 8 && u32 value
  | .cplTimeout req => u64 req
  | .pcieLinkDown port => below port 8
  | .hotReset port => below port 8
  | .flr port => below port 8
  | .d3hotEntry port => below port 8
  | .portReturn port rate width => below port 8 && below rate 7 && below width 17
  | .prtMapWrite src district value => srcWf src && below district 6 && u32 value
  | .prtPOwnerWrite src part value => srcWf src && below part 6 && u32 value
  | .prtFarWrite src part _ value => srcWf src && below part 6 && u32 value
  | .pageOwnerWrite src page value => srcWf src && below page 0x4098 && u32 value
  | .vio12Apply mv => u32 mv
  | .bootDone _ => true
  | .imageStage src => srcWf src
  | .imageProgram src => srcWf src
  | .imgDone _ => true
  | .svnCommit src => srcWf src
  | .getVersion port req => below port 8 && req.all (below · 256)
  | .getCapabilities port req => below port 8 && req.all (below · 256)
  | .negotiateAlgorithms port req => below port 8 && req.all (below · 256)
  | .getDigests port req => below port 8 && req.all (below · 256)
  | .getCertificate port req => below port 8 && req.all (below · 256)
  | .challenge port req => below port 8 && req.all (below · 256)
  | .getMeasurements port req => below port 8 && req.all (below · 256)
  | .keyExchange port req => below port 8 && req.all (below · 256)
  | .finish port req => below port 8 && req.all (below · 256)
  | .endSession port req => below port 8 && req.all (below · 256)
  | .ideKm port stream msg => below port 8 && below stream 256 && msg.all (below · 256)
  | .ideLost port stream => below port 8 && below stream 256
  | .keyLoad src value => srcWf src && u32 value
  | .keyErase src value => srcWf src && u32 value
  | .linkKeyInstall src value => srcWf src && u32 value
  | .secClear src => srcWf src
  | .keysCleared => true
  | .vio12Loss => true
  | .vanaApply mv => u32 mv
  | .vanaLate => true
  | .vanaLoss => true
  | .vinApply mv => u32 mv
  | .inputCharged => true
  | .vinFault mv => u32 mv
  | .pwrResume src => srcWf src
  | .resumed => true
  | .park src => srcWf src
  | .parkGo src => srcWf src
  | .shutdown src => srcWf src
  | .parkGraceExpire => true
  | .parkComplete => true
  | .domainAdmission domain => below domain 41
  | .domainOn domain => below domain 41
  | .domainFault domain => below domain 41
  | .domainOff domain => below domain 41
  | .pllStart pll => below pll 10
  | .pllLock pll => below pll 10
  | .pllUnlock pll => below pll 10
  | .xtalFail => true
  | .governorTick est demand vinCurrent => u64 est && u64 demand && u32 vinCurrent
  | .thermalSample temps => temps.all (below · 256)
  | .parkNChange _ => true
  | .throttleNChange _ => true
  | .sidebandNoise pin => below pin 2
  | .noiseQuiet pin => below pin 2
  | .noiseWindowEnd pin => below pin 2
  | .resetNAssert => true
  | .resetNRelease => true
  | .bstRun src => srcWf src
  | .bstAbort src => srcWf src
  | .domainTestDone _ => true
  | .bstDone => true
  | .fenceClear src domain => srcWf src && below domain 41
  | .claim src unit _ => srcWf src && below unit 16
  | .chkReset src unit => srcWf src && below unit 16
  | .feed8 src unit value => srcWf src && below unit 16 && u32 value
  | .feed16 src unit value => srcWf src && below unit 16 && u32 value
  | .feed32 src unit value => srcWf src && below unit 16 && u32 value
  | .valueHiWrite src unit value => srcWf src && below unit 16 && u32 value
  | .chkValueLoRead src unit => srcWf src && below unit 16
  | .chkResultLoRead src unit => srcWf src && below unit 16
  | .freeze src inst _ => srcWf src && below inst 7
  | .dbgStep src inst => srcWf src && below inst 7
  | .peekDataAccess src inst _ value => srcWf src && below inst 7 && u32 value
  | .readVersion => true
  | .readSupplySts => true
  | .readPwrSts => true
  | .readPwrTemp => true
  | .readPwrEst => true
  | .readErrSts => true
  | .readSideband => true
  | .readModuleTime => true
  | .readErrorRecord => true
  | .smbClkTimeout => true
  | .extest => true
  | .idcode => true
  | .samplePreload => true
  | .clamp => true
  | .highz => true
  | .extestPulse => true
  | .extestTrain => true
  | .privateScan code => below code 256
  | .bypass => true
  | .tapReset => true
  | .codewordAlignmentLoss gate link => below gate 8 && below link 12
  | .perstNChange port _ => below port 8
  | .vinOutOfRange mv => u32 mv
  | .hostCompletion req data => u64 req && data.all (below · 256)

end Sys2Proof
end

