-- ==== Sys2Proof/Tests/Slice0.lean ====
section
/-! SUPPORT. Tests/Slice0.lean: small tests of single steps, their expected results taken from the spec's tables and examples or
worked out by hand, a term that each check of WellFormed refuses, and for every statement with hypotheses a state that meets
them. -/
namespace Sys2Proof.Tests
open Sys2Proof Sys2Proof.Machine

set_option Elab.async false

/-! ### States the tests start from -/

/-- Every domain on, port 0 released with its link up: port 0 is the admin port and owns partition 0, which holds all districts
(log entry 3). -/
def wOn : State :=
  let s0 := { State.reset with aoOn := true, ports := [(0, { released := true, perstN := true, busMaster := true })] }
  ((s0.setReg pPWR R.PWR_DOM_STS_LO 0xFFFFFFFF).setReg pPWR R.PWR_DOM_STS_HI 0x1FF).setReg (pHPT 0) R.HPT_STS 1

/-- Registers set: page, offset, value. -/
def regs (s : State) (l : List (Nat × Nat × Nat)) : State := l.foldl (fun a r => a.setReg r.1 r.2.1 r.2.2) s

/-- Bytes of memory set: key, count, value. -/
def withMem (s : State) (l : List (Nat × Nat × Nat)) : State := l.foldl (fun a p => a.store p.1 (leBytes p.2.2 p.2.1)) s

/-- A record from its fields: byte, low bit, value. -/
def mkD (l : List (Nat × Nat × Nat)) : Nat := l.foldl (fun a f => a + f.2.2 * 2 ^ (8 * f.1 + f.2.1)) 0

/-- Tile 0 with its SRAM ready and one descriptor in its queue. -/
def wTile (d : Nat) : State :=
  withMem (regs wOn [(0, R.TIL_SRAM_STS, 1), (0, R.TIL_SEQ_TAIL, 1), (pNMC 0, R.NMC_STS, 1)]) [(sramBase 0 + 0x400000, 64, d)]

/-! ### Descriptors that the checks accept -/

/-- A descriptor of every kind, with smallest extents and formats BF16 and FP32. -/
def dMma : Nat := mkD [(0, 0, 1), (20, 0, 0), (24, 0, 1), (24, 5, 1), (48, 0, 0xFFFFFFFFFFFF)]
def dCv (op out : Nat) : Nat := mkD [(0, 0, 2), (16, 0, 16), (18, 0, op), (19, 2, out), (48, 0, 0xFFFFFFFFFFFF)]
def dVch : Nat := mkD [(0, 0, 3), (20, 0, 1), (23, 0, 1), (24, 0, 4), (44, 0, 0xFFFFFFFFFFFFFFFF)]
def dRow (op f1 f2 : Nat) : Nat := mkD [(0, 0, 4), (16, 0, op), (31, 33, f1), (36, 33, f2), (52, 0, 0xFFFFFFFFFFFF)]
def dAtt (op : Nat) : Nat :=
  mkD [(0, 0, 5), (16, 0, 2048), (18, 0, op), (24, 0, 0x400), (24, 34, 0x480), (32, 17, 0x500), (40, 0, 0x1000), (40, 16, 0x2000)]
def dRoot (op : Nat) : Nat := mkD [(0, 0, 9), (18, 0, op)]
def dSyn (op : Nat) : Nat := mkD [(0, 0, 7), (16, 0, op), (24, 0, 1)]
def dMov : Nat := mkD [(0, 0, 6), (24, 0, 0x1000), (32, 0, 64), (36, 0, 1)]
def dUpd : Nat := mkD [(0, 0, 8), (2, 0, 5), (28, 0, 31)]

def winRecord : Nat :=
  mkD [(0x18, 0, 1), (0x19, 0, 1), (0x1A, 0, 1), (0x20, 0, 2), (0x24, 0, 2), (0x28, 0, 2), (0x30, 0, 2), (0x34, 0, 2)]
def attRecord : Nat := mkD [(0, 0, 1), (1, 0, 1), (2, 0, 1), (3, 0, 1), (0x10, 0, 0xFFFFFFFFFFFFFFFF)]
def backRecord : Nat :=
  mkD [(0, 0, 0x0101010101010101), (0x14, 0, 0xFFFFFFFFFFFFFFFFFFFFFFFFFFFFFFFF), (0x28, 0, 64)]

def wCv (op out : Nat) : State := withMem (wTile (dCv op out)) [(sramBase 0 + 1024, 64, winRecord)]
def wVch : State := withMem (wTile dVch) [(sramBase 0, 8, 0x05 + 0x28 * 2 ^ 8)]
def wAtt (op rec : Nat) : State := withMem (wTile (dAtt op)) [(sramBase 0 + 0x20000, 64, rec)]
def wRoot (op flags : Nat) : State :=
  withMem (regs (wTile (dRoot op)) [(pUPD, R.UPD_CTL, 1), (pUPD, R.UPD_ROOT_COUNT, 1)]) [(0, 64, mkD [(2, 0, 2), (3, 0, flags)])]
def wUpd : State :=
  { withMem (regs (wTile dUpd) [(pUPD, R.UPD_CTL, 1), (pUPD, R.UPD_SHARD_COUNT, 1)]) [(0, 128, mkD [(0x0C, 0, 32), (0x14, 0, 0xFFFFFFFFFFFFFFFF)])] with
    step := { gmv1 := true } }

/-- The step controller enabled, in a phase, the tile groups off. -/
def wStp (ph : Nat) (l : List (Nat × Nat × Nat)) : State := regs wOn ([(pPWR, R.PWR_DOM_STS_LO, 0xC0000000)] ++ [(pSTP, R.STP_CTL, 1), (pSTP, R.STP_STS, ph)] ++ l)

/-- The checks accept the descriptor of tile 0, and its effect meets no bad line. -/
def Ready (s : State) (mine : Nat → Bool) (check : State → DCtx → Meaning) (eff : State → DCtx → Eff) : Prop :=
  s.accepts 0 0 mine check = true ∧ s.effFails (s.ctxOf 0 0) (eff s (s.ctxOf 0 0)) = false

theorem ready {s : State} {mine check eff} (h : s.accepts 0 0 mine check = true) (hc : (s.upsets.isEmpty && s.poison.isEmpty) = true)
    (ho : (eff s (s.ctxOf 0 0)).overrun = false) : Ready s mine check eff := by
  simp only [Bool.and_eq_true, List.isEmpty_iff] at hc
  exact ⟨h, State.effFails_clean hc.1 hc.2 ho⟩

theorem witness_mma : Ready (wTile dMma) (fun d => dKind d == 1 || unitsOf (dKind d) == 0) mmaCheck mmaEff :=
  ready (by decide +kernel) (by decide +kernel) (by decide +kernel)
theorem witness_conv : Ready (wCv 0 0) (isConvOp 0) cvCheck convEff :=
  ready (by decide +kernel) (by decide +kernel) (by decide +kernel)
theorem witness_wgrad : Ready (wCv 1 0) (isConvOp 1) cvCheck wgradEff :=
  ready (by decide +kernel) (by decide +kernel) (by decide +kernel)
theorem witness_maxpool : Ready (wCv 2 1) (isConvOp 2) cvCheck maxpoolEff :=
  ready (by decide +kernel) (by decide +kernel) (by decide +kernel)
theorem witness_avgpool : Ready (wCv 3 1) (isConvOp 3) cvCheck avgpoolEff :=
  ready (by decide +kernel) (by decide +kernel) (by decide +kernel)
theorem witness_maxpoolB : Ready (wCv 4 1) (isConvOp 4) cvCheck maxpoolBEff :=
  ready (by decide +kernel) (by decide +kernel) (by decide +kernel)
theorem witness_avgpoolB : Ready (wCv 5 1) (isConvOp 5) cvCheck avgpoolBEff :=
  ready (by decide +kernel) (by decide +kernel) (by decide +kernel)
theorem witness_s2d : Ready (wCv 6 1) (isConvOp 6) cvCheck s2dEff :=
  ready (by decide +kernel) (by decide +kernel) (by decide +kernel)
theorem witness_d2s : Ready (wCv 7 1) (isConvOp 7) cvCheck d2sEff :=
  ready (by decide +kernel) (by decide +kernel) (by decide +kernel)

theorem witness_vch : (wVch.tile 0).actLoad = none ∧ wVch.accepts 0 0 (fun d => dKind d == 3) vchCheck = true ∧
    (let c := wVch.ctxOf 0 0
     let s1 := (wVch.jitScale c 2).jitScale c 3
     s1.effFails c (vchEff s1 c) = false) := by decide +kernel

/-- A row descriptor is ready. -/
def rowReady (op f1 f2 : Nat) : Prop := Ready (wTile (dRow op f1 f2)) (isRowOp op) rowCheck rowEff

theorem witness_lnormF : rowReady roLnormF 0 0 := ready (by decide +kernel) (by decide +kernel) (by decide +kernel)
theorem witness_rmsF : rowReady roRmsF 0 0 := ready (by decide +kernel) (by decide +kernel) (by decide +kernel)
theorem witness_softmaxF : rowReady roSoftmaxF 0 0 := ready (by decide +kernel) (by decide +kernel) (by decide +kernel)
theorem witness_logsmF : rowReady roLogsmF 0 0 := ready (by decide +kernel) (by decide +kernel) (by decide +kernel)
theorem witness_xentF : rowReady roXentF 0 16 := ready (by decide +kernel) (by decide +kernel) (by decide +kernel)
theorem witness_lnormB : rowReady roLnormB 0 0 := ready (by decide +kernel) (by decide +kernel) (by decide +kernel)
theorem witness_rmsB : rowReady roRmsB 0 0 := ready (by decide +kernel) (by decide +kernel) (by decide +kernel)
theorem witness_softmaxB : rowReady roSoftmaxB 0 0 := ready (by decide +kernel) (by decide +kernel) (by decide +kernel)
theorem witness_logsmB : rowReady roLogsmB 0 0 := ready (by decide +kernel) (by decide +kernel) (by decide +kernel)
theorem witness_xentB : rowReady roXentB 0 16 := ready (by decide +kernel) (by decide +kernel) (by decide +kernel)

theorem witness_attBlock : Ready (wAtt 0 attRecord) (isAttOp 0) attBlockCheck attBlockEff :=
  ready (by decide +kernel) (by decide +kernel) (by decide +kernel)
theorem witness_attMerge : Ready (wAtt 1 attRecord) (isAttOp 1) attMergeCheck attMergeEff :=
  ready (by decide +kernel) (by decide +kernel) (by decide +kernel)
theorem witness_bprep : Ready (wAtt 2 backRecord) (isAttOp 2) backCheck bprepEff :=
  ready (by decide +kernel) (by decide +kernel) (by decide +kernel)
theorem witness_bq : Ready (wAtt 3 backRecord) (isAttOp 3) backCheck bqEff :=
  ready (by decide +kernel) (by decide +kernel) (by decide +kernel)
theorem witness_bkv : Ready (wAtt 4 backRecord) (isAttOp 4) backCheck bkvEff :=
  ready (by decide +kernel) (by decide +kernel) (by decide +kernel)

/-- A root descriptor, the record's DONE clear or set. -/
theorem witness_root : Ready (wRoot 0 0) (isRootOp 0) rootCheck rootEff ∧ Ready (wRoot 1 0) (isRootOp 1) rootCheck rootEff ∧
    Ready (wRoot 2 0) (isRootOp 2) rootCheck rootEff ∧ Ready (wRoot 3 0) (isRootOp 3) rootCheck rootEff :=
  ⟨ready (by decide +kernel) (by decide +kernel) (by decide +kernel), ready (by decide +kernel) (by decide +kernel) (by decide +kernel),
   ready (by decide +kernel) (by decide +kernel) (by decide +kernel), ready (by decide +kernel) (by decide +kernel) (by decide +kernel)⟩
theorem witness_root_done : ([1, 2, 3, 4].all fun op =>
    (wRoot op (2 ^ rfDone)).accepts 0 0 (isRootOp op) rootCheck && (wRoot op (2 ^ rfDone)).rootFlag 0 rfDone &&
    (wRoot op 0).accepts 0 0 (isRootOp op) rootCheck && !(wRoot op 0).rootFlag 0 rfDone) = true := by decide +kernel

theorem witness_upd : wUpd.accepts 0 0 (fun d => dKind d == 8) updCheck = true ∧
    (let c := wUpd.ctxOf 0 0
     let r := wUpd.shardRec (udShard c.d)
     let g := wUpd.groupRec (shGroup r)
     wUpd.updSkewed c.d r g = false ∧
     (∀ p ∈ wUpd.updTakes c.site c.d r g ++ wUpd.updWrites c.d r g,
       wUpd.anyGranule p.1 p.2 State.targetWaits = false ∧ wUpd.anyGranule p.1 p.2 State.targetOff = false) ∧
     (wUpd.readRanges (wUpd.escalates c.d) (wUpd.updTakes c.site c.d r g)).2 = none) := by decide +kernel

theorem witness_sync : ([0, 1, 2, 3].all fun op => (wTile (dSyn op)).accepts 0 0 (isSynOp op) synCheck) = true ∧
    (wTile (dSyn 2)).isRunning 0 0 = false ∧
    ((wTile (dSyn 2)).addRun 0 (mkRun ((wTile (dSyn 2)).ctxOf 0 0) .working)).isRunning 0 0 = true := by decide +kernel

theorem witness_arrivals : (let s := { wOn with arrivals := [⟨0, 0, 1, 0⟩], signals := [{ sender := 0, target := 1, ctr := 0, inc := 1 }] }
    (s.arrivals.find? fun m => m.tile == 0).isSome = true ∧ s.blockRuns (pSQR (barrierHome 0 0)) = true ∧ s.live = true ∧
    (s.signals.find? fun m => m.sender == 0 && m.target == 1).isSome = true) := by decide +kernel

theorem witness_mov : (wTile dMov).movsAt 0 0 = [] ∧ (wTile dMov).accepts 0 0 isMovKind State.movCheck = true ∧
    ((wTile dMov).pickEngine 0).isSome = true ∧
    ((wTile dMov).newXfer { owner := ⟨0, 0, false⟩, tile := 0, d := dMov, part := 0, engine := 0, issued := 0 }).movsAt 0 0 ≠ [] := by decide +kernel

/-! ### Sequencer and housekeeping commands -/

def wT (d : Nat) (l : List (Nat × Nat × Nat)) (f : TileState → TileState) : State := (regs (wTile d) l).modTile 0 f
/-- An MMA of phase 3 with DEFER and a tensor record. -/
def dDef : Nat := mkD [(0, 0, 1), (1, 2, 1), (2, 0, 3), (24, 0, 1), (24, 5, 1), (48, 0, 0xFFFFFFFF)]
/-- A parked product in the state `st`. -/
def wParked (st : RunSt) : TileState → TileState := fun t => { t with running := [⟨9, dDef, 0, true, st, false, [], [], [], [], [], none⟩] }

theorem witness_tail : isSite 0 = true ∧ wOn.mayWrite .supervisor 0 R.TIL_SEQ_TAIL = true ∧ wOn.mayWrite .supervisor 0 R.TIL_SEQ_CTL = true ∧
    tailOk 256 (wOn.head 0) (wOn.tail 0) 256 = true ∧ tailOk 256 (wOn.head 0) (wOn.tail 0) 257 = false ∧
    wOn.mayWrite .supervisor 0 R.TIL_BWD_CTL = true ∧
    ((wT dMma [] fun t => { t with halted := some ⟨0, false, false⟩ }).tile 0).halted.isSome = true ∧
    (wT dMma [] fun t => { t with halted := some ⟨0, false, false⟩ }).mayWrite .supervisor 0 R.TIL_SEQ_CTL = true := by decide +kernel

theorem witness_retire : (let s := (wTile (dSyn 1)).addRun 0 (mkRun ((wTile (dSyn 1)).ctxOf 0 0) .done);
    ((s.retiring 0 0).any fun r => ((s.settleMov 0 r).retiring 0 0).any fun r' => (s.settleMov 0 r).runOver 0 r' &&
      !(s.settleMov 0 r).runHalted 0 r') = true ∧ s.live = true ∧ s.siteOn 0 = true ∧ s.clocked 0 = true ∧ s.frozen 0 = false) := by
  decide +kernel

theorem witness_stall : (let s := regs (wTile dMma) [(0, R.TIL_SEQ_WDOG, 1)];
    s.seqUp 0 = true ∧ s.unretired 0 = [0] ∧ s.fld 0 R.TIL_SEQ_WDOG 23 0 ≠ 0 ∧ s.isRunning 0 0 = false ∧ (s.tile 0).stallFor ≠ some 0) := by
  decide +kernel

theorem witness_parkTile : (let s := regs (wTile (dDef + 0xFFFF * 2 ^ (8 * 52))) [(0, R.TIL_BWD_CTL, 2)]; let c := s.ctxOf 0 0;
    s.inWindow 0 0 = true ∧ s.deferActive c = true ∧ (s.tile 0).overflowed.contains 0 = false ∧ s.exciseHit c.d c.stamp = false ∧
    (s.tile 0).halted ≠ some ⟨0, false, false⟩ ∧ s.frozenSkip c = .no ∧
    (s.recAddrs c (s.parkMeaning c).recs).any s.targetWaits = false ∧
    lowest (s.commonReasons c ++ (s.parkMeaning c).reasons ++ s.recReasons c (s.recAddrs c (s.parkMeaning c).recs)) = none ∧
    (s.tile 0).parked.length < 64) := by decide +kernel

theorem witness_parkedIssue : (let s := wT (dSyn 0) [] (wParked .yielded);
      ((s.yieldedRun 0).filter (s.canResume 0)).isSome = true) ∧
    (let s := wT (dSyn 0) [(pSTP, R.STP_CTL, 1)] fun t => { t with parked := [⟨9, dDef, 0⟩] };
      (s.yieldedRun 0).filter (s.canResume 0) = none ∧ (s.canIssueParked 0).any (fun p => s.canStart 0 0 p.desc) = true) := by decide +kernel

theorem witness_yield : (let s := wT (dMma + 2 ^ (8 * 24 + 19)) [] (wParked .done); let s1 := s.yieldAll 0;
    s.seqUp 0 = true ∧ (s.tile 0).running.any atChunkEnd = true ∧ s.drainPending 0 = false ∧
    (s1.window 0).any (fun p => unitsOf (dKind (s1.descAt 0 p)) % 2 == 1 && s1.canIssue 0 p) = true) := by decide +kernel

theorem witness_frozen : (let s := withMem (regs (wTile dDef) [(0, R.TIL_BWD_CTL, 1)]) [(0, 1, 64), (8, 1, 1)];
    s.inWindow 0 0 = true ∧ s.frozenSkip (s.ctxOf 0 0) = .yes) := by decide +kernel

theorem witness_excise : (let s := regs (wTile dDef) [(pSTP, R.STP_EXCISE_MAP, 1)];
    s.inWindow 0 0 = true ∧ s.exciseHit (s.ctxOf 0 0).d (s.ctxOf 0 0).stamp = true) := by decide +kernel

theorem witness_clock : (let s := regs wOn [(0, R.TIL_SRAM_STS, 1)];
      s.live = true ∧ s.siteOn 0 = true ∧ bit (s.reg 0 R.TIL_CLK_CTL) 0 = false ∧ (s.tile 0).running = [] ∧
      s.someIssue 0 = false ∧ s.pwr.gov.filling.contains 0 = false) ∧
    (let s := wT dMma [] fun t => { t with clkStopped := true };
      s.someIssue 0 = true ∧ (s.tile 0).clkStopped = true ∧ s.holding = false ∧ s.wakeLeft 0 = true ∧ s.firstInLine 0 0 256 = true) := by
  decide +kernel

theorem witness_scrub : (let s := regs wOn [(0, R.TIL_SRAM_STS, 1), (0, R.TIL_SRAM_SCRUB, 1)]; let line := sramBase 0 / 64;
    s.tileAt 0 = some 0 ∧ s.siteOn 0 = true ∧ s.fld 0 R.TIL_SRAM_SCRUB 15 0 ≠ 0 ∧ (s.lineUpset line .clean).lineCe line = false ∧
    (s.lineUpset line .correctable).lineCe line = true ∧ (s.lineUpset line .uncorrectable).lineBad line = true ∧
    wOn.siteOn 0 = true ∧ bit (wOn.reg 0 R.TIL_SRAM_STS) 0 = false) := by decide +kernel

theorem witness_spare : wOn.mayWrite .supervisor (pDST 5) (R.DST_SPARE_MAP + 4 * 15) = true ∧ bit (wOn.spareEntry 5 15) 5 = false ∧
    wOn.siteBusy (5 * 256 + 12 * 16 + 15) = false ∧
    ((([(bit (wOn.spareEntry 5 15) 4, wOn.spareEntry 5 15 % 16), (true, 11)].filterMap fun p =>
        if p.1 && decide (p.2 < 12) then some (5 * 256 + p.2 * 16 + 15) else none).any fun t =>
      wOn.siteBusy t || wOn.signals.any fun m => m.target == t) = false) := by decide +kernel

theorem witness_act : (wOn.mayWrite .supervisor 0 R.TIL_ACT_LOAD = true ∧ (wOn.tile 0).actLoad = none) ∧
    wOn.mayWrite .supervisor 0 R.TIL_ROW_CTL = true ∧
    (let s := wT 0 [] fun t => { t with actLoad := some (3, 2 ^ 24) };
      s.siteOn 0 = true ∧ s.live = true ∧ s.vchRunning 0 = false ∧ (s.tile 0).actLoad = some (3, 2 ^ 24)) := by decide +kernel

/-! ### KV page store, dispatcher and step controller -/

/-- A KV context record: valid and evictable, pool 0, BF16 halves, head size 32, one track, LEN 4, stride 2, its table's address. -/
def ctxRecord (table : Nat) : Nat :=
  mkD [(0, 0, 5), (2, 0, 1), (3, 0, 1), (0x0C, 0, 4), (0x10, 0, 2), (0x18, 0, table), (0x20, 0, 0x500000)]

/-- The store with a pool of four pages, page 2 of which the first entry of context 0 holds; context 1 holds none; one command is
in the ring. -/
def wKv (cmd : Nat) : State :=
  let s := regs wOn [(pNMC 0, R.NMC_STS, 1), (pKVS, R.KVS_CTL, 3), (pKVS, R.KVS_CTX_BASE_LO, 0x100000),
    (pKVS, R.KVS_CMD_BASE_LO, 0x400000), (pKVS, R.KVS_CMD_TAIL, 1), (pKVS, R.KVS_PIN_FLOOR, 0), (pKVS, R.KVS_EVICT_LOW, 3),
    (pKVS, R.KVS_EVICT_HIGH, 4), (pKVS, R.KVS_POOL_COUNT, 4), (pKVS, R.KVS_POOL_META_LO, 0x300000),
    (pKVS, R.KVS_POOL_ADDR_LO, 0x1000000), (pKVS, R.KVS_POOL_CTL, 3)]
  { withMem s [(0x100000, 64, ctxRecord 0x200000), (0x100040, 64, ctxRecord 0x201000), (0x200000, 8, 2 + nullPage * 2 ^ 32),
      (0x201000, 8, nullPage + nullPage * 2 ^ 32), (0x300010, 8, 1), (0x400000, 32, cmd)] with
    pools := [(0, { free := [3, 1, 0] })] }

theorem witness_poolSound : (wKv 0).canonical = true ∧ (wKv 0).poolPlain 0 = true ∧ (wKv 0).poolSound 0 = true ∧
    2 ∈ (wKv 0).poolPages 0 ∧ (wKv 0).refcnt 0 2 = 1 ∧ ((wKv 0).pool 0).free ≠ [] ∧ ((wKv 0).allocPage 0).isSome = true := by
  decide +kernel

/-- References dropped as in the table of R184: from two references a reserve page returns, from the last the page itself. -/
theorem test_pool_drop : ((wKv 0).dropRef 0 2).poolSound 0 = true ∧ (((wKv 0).dropRef 0 2).pool 0).free = [2, 3, 1, 0] ∧
    (let s := { withMem (wKv 0) [(0x300010, 8, 0x10002)] with pools := [(0, { free := [1, 0], reserve := [3] })] };
     s.poolSound 0 = true ∧ (s.unpin 0 2).poolSound 0 = true ∧ ((s.unpin 0 2).pool 0).free = [3, 1, 0] ∧ (s.unpin 0 2).pincnt 0 2 = 0 ∧
     (s.unpin 0 2).refcnt 0 2 = 1) := by decide +kernel

theorem witness_poolInit : (let s := { wKv 0 with pools := [(0, { initBusy := true })] };
    let s := withMem s [(0x300010, 8, 0)];
    (s.pool 0).initBusy = true ∧ s.blockRuns pKVS = true ∧ (s.pool 0).free = [] ∧ (s.pool 0).reserve = [] ∧
    (∀ p ∈ s.poolPages 0, s.pageMeta 0 p = 0) ∧ s.canonical = true ∧ s.poolPlain 0 = true) := by decide +kernel

/-- POOL_INIT_DONE puts every page on the free list, added in ascending order, so that the last stands at its head (R177). -/
theorem test_poolInit : (match exec (.poolInitDone 0) (withMem { wKv 0 with pools := [(0, { initBusy := true })] } [(0x300010, 8, 0)]) with
    | .next t => t.poolSound 0 && (t.pool 0).free == [3, 2, 1, 0]
    | _ => false) = true := by decide +kernel

theorem witness_pool_access : wOn.mayWrite .supervisor pKVS (poolReg 7 R.KVS_POOL_CTL) = true ∧
    bit (wOn.kvReg (poolReg 7 R.KVS_POOL_CTL)) 0 = false ∧ wOn.mayRead .supervisor pKVS (poolReg 7 R.KVS_POOL_FREE) = true ∧
    wOn.mayWrite .supervisor pKVS R.KVS_CMD_TAIL = true ∧ tailOk 256 0 0 256 = true := by decide +kernel

theorem witness_kvWaiter : (let s := { wKv 0 with kvWaiters := [.command 0 0], mt := 100000000 };
    s.kvWaiters[0]? = some (.command 0 0) ∧ s.blockRuns pKVS = true ∧
    (KvWaiter.command 0 0).since + s.kvReg R.KVS_ALLOC_WAIT % 2 ^ 16 * 1000 ≤ s.mt) := by decide +kernel

/-- A store command: operation, context, second context, first page, page count. -/
def kvCmd (op a b pg0 n : Nat) : Nat := mkD [(0, 0, op), (2, 0, a), (4, 0, b), (8, 0, pg0), (12, 0, n)]

theorem witness_share : (let s := wKv (kvCmd 1 0 1 0 2); let js := [0, 1];
    s.kvCommand = some (kvCmd 1 0 1 0 2) ∧ s.cxValid 0 = true ∧ s.cxValid 1 = true ∧ s.sameShape 0 1 = true ∧ (s.cxTp 0).isSome = true ∧
    2 ≤ s.cxStride 0 ∧ 2 ≤ s.cxStride 1 ∧
    (let es := (s.trackPages 0 js).map fun p => s.entry 0 p.1 p.2
     (s.trackPages 0 js).any (fun p => entryHas (s.entry 1 p.1 p.2)) = false ∧
     (es.filter entryHas).any (fun e => s.refcnt (s.cxPool 0) (entryPage e) = 65535) = false ∧
     (es.filter entryHas).length = 1 ∧ s.mayTake (s.cxPool 0) 1 = true)) := by decide +kernel

theorem witness_kvCommands : ([2, 3, 4, 5, 6].all fun op => (wKv (kvCmd op 0 0 0 2)).kvCommand.any fun k => kcOp k == op) = true ∧
    (wKv 0).cxValid 0 = true ∧ 2 ≤ (wKv 0).cxStride 0 ∧ (wKv 0).cxTp 0 = some 512 ∧ (wKv 0).hasReqs .ring = false := by decide +kernel

theorem witness_ringSend : (let s := { wKv (kvCmd 6 0 0 0 2) with reqs := [{ id := 1, owner := .ring, write := false, addr := 0, len := 0, since := 0, port := none }] };
    (s.reqs.any fun r => r.owner == .ring && !r.write) = true ∧ s.kvCommand.isSome = true) := by decide +kernel

/-- The context at the scan's cursor is the one that is evicted from. -/
theorem evicted_first {s : State} {n : Nat} (h : s.evictable n 0 = true) (hc : (s.pool n).cursor = 0) :
    let cs := (List.range 16384).filter (s.evictable n)
    cs ≠ [] ∧ (cs.find? fun c => decide ((s.pool n).cursor ≤ c)).getD (cs.headD 0) = 0 := by
  have : (List.range 16384).filter (s.evictable n) = 0 :: ((List.range 16383).map Nat.succ).filter (s.evictable n) := by
    rw [show 16384 = 16383 + 1 from rfl, List.range_succ_eq_map, List.filter_cons_of_pos h]
  intro cs
  have hcs : cs = _ := this
  rw [hcs, hc]
  exact ⟨List.cons_ne_nil _ _, rfl⟩

theorem witness_eviction : (let s := wKv 0;
    s.kvsRuns = true ∧ s.poolReady 0 = true ∧ bit (s.kvReg R.KVS_CTL) 1 = true ∧ (s.pool 0).free.length ≤ s.kvReg R.KVS_EVICT_LOW % 2 ^ 26 ∧
    (s.pool 0).free.length < s.kvReg R.KVS_EVICT_HIGH % 2 ^ 26 ∧ (s.pool 0).evicting = false ∧ s.evictable 0 0 = true ∧
    (s.pool 0).cursor = 0 ∧ s.victim 0 0 = some 0) := by decide +kernel

theorem witness_dispatch : wOn.mayWrite .supervisor pHDD R.HDD_CTL = true ∧ wOn.blockRuns pHDD = true ∧ wOn.dispatch = none ∧
    (regs wOn [(pHDD, R.HDD_ITEM_COUNT, 1)]).reg pHDD R.HDD_ITEM_COUNT % 2 ^ 17 ≠ 0 ∧
    (let s := { wOn with dispatch := some {} }; s.dispatch.any fun p => (s.hddEmit [] p.todo).2 = []) = true := by decide +kernel

/-- Another tile's queue is full, so that an item stays. -/
theorem witness_dispatch_waits : (let s := { regs wOn [(0, R.TIL_SEQ_TAIL, 256)] with dispatch := some { todo := [(0, 0)] } };
    s.dispatch.any fun p => (s.hddEmit [] p.todo).2 ≠ []) = true := by decide +kernel

theorem witness_stpCtl : wOn.mayWrite .supervisor pSTP R.STP_CTL = true ∧ (wStp phIdle []).mayWrite .supervisor pSTP R.STP_CTL = true ∧
    (wStp phIdle []).stpEn = true ∧ (wStp phIdle []).phase = phIdle ∧ (wStp phFwd []).phase ≠ phIdle ∧ (wStp phFwd []).phase ≠ phCommit ∧
    (wStp phFwd []).stpEn = true := by decide +kernel

theorem witness_phaseEnd : (let s := wStp phFwd [(pSTP, R.STP_MB_STS, 1)];
      s.stpRuns = true ∧ s.phase = phFwd ∧ s.step.b * s.step.tgtFwd ≤ s.stpEvc s.openStep 1 ∧ s.decided = s.step.b) ∧
    (let s := wStp phBwdI []; s.phase = phBwdI ∧ s.kept * s.step.tgtBwdi ≤ s.stpEvc s.openStep 2) ∧
    (let s := wStp phBwdW []; s.phase = phBwdW ∧ s.kept * s.step.tgtBwdw + s.step.tgtGather ≤ s.stpEvc s.openStep 3) ∧
    (let s := wStp phReduce []; s.phase = phReduce ∧ s.step.tgtRed ≤ s.stpEvc s.openStep 4 ∧ s.updPend = false ∧ s.checkReach = none) := by
  decide +kernel

/-- A vote record of the open step, and a plan whose first tree makes this module the coordinator, or a leaf below gate 0. -/
def vote : VoteRec := ⟨0, 0, 0, 0, 0, 1, 0⟩
def wTree (root : Bool) (s : State) : State := withMem (regs s [(pNMC 0, R.NMC_STS, 1)]) [(0, 32, if root then 5 else 0x80010001)]

theorem witness_vote : (let s := { wTree true (wStp (phCheck + 64) [(pSTP, R.STP_VOTE_CTL, 2 ^ 16)]) with gate := { formed := some vote } };
      s.voteEn = true ∧ s.phase = phCheck ∧ s.voting = true ∧ vote.stepTag = s.openStep ∧ vote.attempt = s.attempt ∧ s.isCoord = true ∧
      s.gate.formed = some vote) ∧
    (let s := wTree false (wStp (phCheck + 64) [(pSTP, R.STP_VOTE_CTL, 2 ^ 16 + 1)]);
      s.voteEn = true ∧ s.isCoord = false ∧ s.ctlTree.isSome = true) ∧
    (let s := { wStp (phCheck + 64) [(pSTP, R.STP_VOTE_CTL, 2 ^ 16), (pSTP, R.STP_VOTE_WAIT, 1)] with mt := 1000 };
      s.phase = phCheck ∧ s.voting = true ∧ s.voteEn = true ∧ s.stpReg R.STP_VOTE_WAIT % 2 ^ 16 ≠ 0 ∧
      s.step.verdictAt + s.stpReg R.STP_VOTE_WAIT % 2 ^ 16 * 1000 ≤ s.mt) := by decide +kernel

theorem witness_verdict : (let s := wStp phCheck [];
      s.stpRuns = true ∧ s.phase = phCheck ∧ s.voting = false ∧ s.step.commitHeld = false ∧ s.tagDrained s.openStep = true ∧
      s.ckpReading = false ∧ s.voteEn = false) ∧
    (let s := wStp (phCheck + 64) []; s.phase = phCheck ∧ s.voting = true ∧ s.voteEn = false ∧ s.step.localBits = 0 ∧
      (s.modStep fun x => { x with localBits := 1 }).step.localBits ≠ 0) := by decide +kernel

theorem witness_commit : (let s := wStp phCommit [];
      s.blockRuns pSTP = true ∧ s.phase = phCommit ∧ s.stagedHeld 1 = false ∧ s.commitStop = none ∧ s.rootsReady = true) ∧
    (let s := (wStp phCheck []).modStep fun x => { x with commitHeld := true };
      s.blockRuns pSTP = true ∧ s.phase = phCheck ∧ s.step.commitHeld = true ∧ s.fatalPend = false) ∧
    (let s := wStp (phSquash + 32) []; s.flushDone = true ∧ s.phase = phSquash ∧ s.updPend = true ∧ s.step.updTgt ≤ s.stpEvc s.openStep 5) ∧
    (wStp phRestage []).phase = phRestage := by decide +kernel

/-! ### Memory, crossings, registers -/

def wMem : State := regs wOn [(pNMC 0, R.NMC_STS, 1), (pNMC 0, R.NMC_CTL, 1), (pFMC 31, R.NMC_STS, 1), (pFMC 31, R.NMC_CTL, 1)]

theorem witness_store : wMem.canonical = true ∧ wMem.inStore (2 ^ 37 - 4) 4 = true ∧ wMem.storeServes (2 ^ 37 - 4) 4 = true ∧
    (wMem.lineRead (2 ^ 37 - 4) 0xFFFF false).2 = false ∧ bit (wMem.reg pDBGM R.DBG_TRACE_CTL) 0 = false ∧
    wMem.inStore (2 ^ 37) 4 = true ∧ wMem.storeServes (2 ^ 37) 4 = false := by decide +kernel

/-- A write, its bytes and what stays; an address outside memory faults by name. -/
theorem test_memoryWrite : (match exec (.memoryWrite 0x40 [1, 2, 3] false) wMem with
      | .next t => (t.byte 0x3F, t.byte 0x40, t.byte 0x42, t.byte 0x43, t.poison) == (0, 1, 3, 0, [])
      | _ => false) = true ∧
    (match exec (.memoryWrite 0x40 [1] true) wMem with
      | .next t => t.poison == [1]
      | _ => false) = true ∧
    (match exec (.memoryRead 0x00C000000000 1 .clean) wMem with
      | .fault e => decide (e = .noSuchAddress 0x00C000000000)
      | _ => false) = true := by decide +kernel

/-- FMAX has −0 below +0 and lets a NaN change nothing, UADD sticks, OR joins bits (R316). -/
theorem test_merges : fmax32 0x80000000 0x00000000 = 0x00000000 ∧ fmax32 0x3F800000 0x40000000 = 0x40000000 ∧
    fmax32 0x3F800000 0x7FC00000 = 0x3F800000 ∧ fmax32 0x7FC00000 0x3F800000 = 0x7FC00000 ∧ uadd32 0xFFFFFFFF 2 = 0xFFFFFFFF ∧ uadd32 2 3 = 5 ∧
    (match exec (.or32 2 0x0F0F0000) (withMem wMem [(0, 4, 0x000000F0)]) with
      | .next t => t.le 0 4 == 0x0F0F00F0
      | _ => false) = true := by decide +kernel

theorem witness_memControl : wMem.blockRuns (pNMC 0) = true ∧ bit (wMem.reg (pNMC 0) R.NMC_CTL) 0 = true ∧
    bit (wMem.reg (pNMC 0) R.NMC_STS) 0 = true ∧ wMem.blockRuns (pFMC 31) = true ∧ bit (wMem.reg (pFMC 31) R.NMC_CTL) 0 = true ∧
    wMem.poison.contains (nearLine 0 127 0 / 64) = false ∧ wMem.poison.contains (farLine 31 0 / 64) = false ∧
    (wMem.poisonLine (nearLine 0 127 0 / 64)).poison.contains (nearLine 0 127 0 / 64) = true ∧
    (let s := regs wOn [(pNMC 5, R.NMC_STS, 16), (pFMC 31, R.NMC_STS, 16)];
      s.live = true ∧ s.pageOn (pNMC 5) = true ∧ bit (s.reg (pNMC 5) R.NMC_STS) 4 = true ∧ s.pageOn (pFMC 31) = true ∧
      bit (s.reg (pFMC 31) R.NMC_STS) 4 = true ∧ s.mayWrite .supervisor (pFMC 31) R.NMC_CTL = true) := by decide +kernel

/-- Requests to crossing 43, whose two heads differ in their deadlines. -/
def crsReq (q d : Nat) : CrsReq := { requester := q, d := d, urgent := false, server := none, arrived := 0, left := 1, owner := .other }
def wCrs : State := wOn.setCrs 43 { reqs := [crsReq 5 900, crsReq 7 300, crsReq 2 300] }

theorem witness_crossing : wCrs.canonical = true ∧ wCrs.blockRuns (pCRS 43) = true ∧ 0 < crsServers 43 ∧
    ((if crsSelfEnding 43 then wCrs.endGrant 43 0 else wCrs).freeServers 43).contains 0 = true ∧
    (let s := { wOn.setCrs 43 { grants := [(0, ⟨5, false, 0, .other⟩)] } with mt := 100000000 };
      s.blockRuns (pCRS 43) = true ∧ (s.crs 43).grants.find? (fun g => g.1 == 0) = some (0, ⟨5, false, 0, .other⟩) ∧
      (s.reg (pCRS 43) R.CRS_WDOG % 2 ^ 24 = 0 ∨ s.reg (pCRS 43) R.CRS_WDOG % 2 ^ 24 * 1000 ≤ s.mt)) ∧
    (regs wOn [(pCRS 43, R.CRS_WDOG, 1)]).reg (pCRS 43) R.CRS_WDOG % 2 ^ 24 ≠ 0 ∧
    ([R.CRS_QUOTA, R.CRS_CTL, R.CRS_DEF_NORMAL, R.CRS_DEF_URGENT, R.CRS_WDOG].all fun o => wOn.mayWrite .supervisor (pCRS 43) o) = true := by
  decide +kernel

/-- R323: the smallest effective deadline wins, a tie goes to the lower requester; the losers' lost rounds rise (R322). -/
theorem test_round : ((wCrs.crsRound 43 0).2.map (·.requester)) = some 2 ∧
    (((wCrs.crsRound 43 0).1.crs 43).lost = [(5, 1), (7, 1)]) ∧ (wOn.crsRound 43 0).2 = none := by decide +kernel

def logRec (seq cls : Nat) : LogRec := ⟨0, seq, 0, 5, cls, 0, 0, 0, 0⟩

theorem witness_log : (let s := { wOn with log := [logRec 0 2] };
    s.mayWrite .supervisor pERR R.ERR_LOG_POP = true ∧ s.mayRead .supervisor pERR R.ERR_LOG_DATA = true ∧
    s.mayWrite .supervisor pERR R.ERR_FATAL = true ∧ s.mayRead .supervisor pTIM R.TIM_MT_LO = true) ∧
    (({ wOn with log := List.replicate 256 (logRec 0 3) } : State).canonical = true) ∧
    (pageBlk (wOn.canon 0) = some (.til, 0) ∧ pageBlk (wOn.canon pCLK) = some (.clk, 0) ∧ 5 < Blk.til.nevt ∧ evtClass .til 5 ≠ 0 ∧
      0 < Blk.clk.nevt ∧ evtClass .clk 0 = 3 ∧ wOn.fatalPend = false ∧ wOn.canonical = true) := by decide +kernel

/-- An uncorrectable SRAM error is logged with UE, latched, and voids the guarantees (R12, R539); PLL failures are FATAL. -/
theorem test_raise : (let t := wOn.raise 0 5 64 0;
    (t.log.map fun r => (r.page, r.event, r.flags % 4, bit r.flags 2, bit r.flags 4)) = [(0, 5, 2, true, true)] ∧
    bit (t.reg 0 R.ERR_FIRST) 11 = true ∧ t.voidCause = 2) ∧
    (let t := wOn.raise pCLK 0 0 0; t.fatalPend = true ∧ t.faultPin = true ∧ t.hold = false ∧
      (t.raise pCLK 1 0 0).hold = true ∧ (t.raise pCLK 1 0 0).voidCause = 4) := by decide +kernel

/-- With 256 unread records the oldest NONFATAL one makes room, although a FATAL one is older (R432). -/
theorem test_fullLog : (let s := { wOn with log := logRec 0 3 :: logRec 1 2 :: List.replicate 254 (logRec 2 3) };
    let t := s.logAppend (logRec 9 1);
    t.log.length = 256 ∧ (t.log.map (·.seq)).take 2 = [0, 2] ∧ (t.log.map (·.seq)).getLast? = some 9 ∧
    t.reg pERR R.ERR_LOST = 1 ∧ t.logOverwrote = true) := by decide +kernel

theorem witness_held : (let s := regs (wStp phCheck []) [(pERR, R.ERR_FATAL, 1)];
    s.canonical = true ∧ s.fatalPend = true ∧ s.phase = phCheck ∧ s.stpEn = true) ∧
    (let s := (wStp phCheck []).modStep fun x => { x with commitHeld := true };
      s.blockRuns pSTP = true ∧ s.phase = phCheck ∧ s.step.commitHeld = true ∧ s.fatalPend = false) := by decide +kernel

theorem witness_registers : (pageBlk pING = some (.ing, 0) ∧ (findRow .ing R.ING_DRY_US).isSome = true ∧
      wOn.mayWrite .supervisor pING R.ING_DRY_US = true ∧ prtGoverned pING R.ING_DRY_US 1 = none ∧
      noRegister pING R.ING_DRY_US = false ∧ wOn.mayRead .supervisor pING R.ING_DRY_US = true ∧ isBar2 pING = false) ∧
    ([R.ERR_FIRST, R.EVT_FORCE, R.EVT_EN, R.PAGE_LOCK, R.PAGE_CTL].all fun o => wOn.mayWrite .supervisor pING o) = true ∧
    bit (wOn.reg pING R.PAGE_LOCK) 31 = false ∧ wOn.aoOn = true ∧
    (let s := regs wOn [(pING, R.PAGE_LOCK, 2 ^ 31 + 5)];
      s.mayWrite .supervisor pING R.PAGE_LOCK = true ∧ bit (s.reg pING R.PAGE_LOCK) 31 = true ∧
      s.reg pING R.PAGE_LOCK % 2 ^ 16 = 5) := by decide +kernel

/-- RC_READ answers the default of CRS_DEF_NORMAL of the first crossings, and a write is read back (R14, R329). -/
theorem test_registers : (match exec (.rcRead (.port 0) (pCRS 0) R.CRS_DEF_NORMAL 4) wOn with
      | .next t => t.answer == [2048]
      | _ => false) = true ∧
    (match exec (.registerWrite (.port 0) pING R.ING_DRY_US 4 77) wOn with
      | .next t => t.reg pING R.ING_DRY_US == 77
      | _ => false) = true := by decide +kernel

/-- A second port, without a partition: a write is refused as OWNER and counts (R448, R477). -/
def wTwo : State := regs { wOn with ports := [(0, { released := true, perstN := true, busMaster := true }),
    (1, { released := true, perstN := true, busMaster := true })] } [(pHPT 1, R.HPT_STS, 1)]

theorem witness_refused : wTwo.canonical = true ∧ prtGoverned pING R.ING_DRY_US 1 = none ∧
    wTwo.judge (.port 1) pING R.ING_DRY_US true = .denied 1 dnOwner ∧ wTwo.judge (.port 1) pING R.ING_DRY_US false = .denied 1 dnOwner ∧
    (1 : Nat) ≠ wTwo.adminPort ∧ wTwo.feeds 1 pING = false ∧ wTwo.pagePart pING < 6 ∧ wTwo.pagePart pING ≠ wTwo.portPart 1 ∧
    wTwo.portPart 1 = 7 ∧ wTwo.recovery = false ∧ (2 : Nat) < 6 ∧ wTwo.pagePart pING ≠ 2 := by decide +kernel

theorem test_refused : (match exec (.registerWrite (.port 1) pING R.ING_DRY_US 4 77) wTwo with
      | .next t => t.reg pING R.ING_DRY_US == wTwo.reg pING R.ING_DRY_US && t.reg (pHPT 1) R.HPT_DENY_COUNT == 1 &&
          t.reg (pHPT 1) R.HPT_DENY_INFO == pING + dnOwner * 2 ^ 16
      | _ => false) = true := by decide +kernel

/-- Counters wrap at 2^32; a wait on 3 is met from 3 on for 2^15 counts (R90). -/
theorem test_counters : ((regs wOn [(0, R.TIL_EVC, 0xFFFFFFFF)]).addCtr 0 0 2).ctr 0 0 = 1 ∧ isTarget 0 = true ∧ isTarget 0x700 = true ∧
    waitMet 2 3 = false ∧ waitMet 3 3 = true ∧ waitMet (3 + 2 ^ 15 - 1) 3 = true ∧ waitMet (3 + 2 ^ 15) 3 = false := by decide +kernel

theorem witness_noStore : wOn.canonical = true ∧ bit (wOn.reg pDBGM R.DBG_TRACE_CTL) 0 = false ∧
    (match exec (.errFirstRearm .supervisor pING) wOn with
      | .next _ => true
      | _ => false) = true := by decide +kernel

theorem witness_computeFrame : (let s := wTile dMma; let c := s.ctxOf 0 0; let e := mmaEff s c;
    s.canonical = true ∧ (e.lines c.site).filter s.lineCe = [] ∧ e.dropped = [] ∧ (∀ p ∈ e.adds ++ e.ors ++ e.sets, p.1 < 0x1000)) := by
  decide +kernel

/-! ### Ingest and export -/

/-- Stream 0 enabled over a ring of 64 KiB in far memory, with one text record of one unit in it; slot and bucket records in near
memory. -/
def wIng : State :=
  withMem (regs wOn [(pNMC 0, R.NMC_STS, 1), (pFMC 0, R.NMC_STS, 1), (pING, R.ING_CTL, 1), (pINGS 0, R.ING_STR_CTL, 1),
    (pINGS 0, R.ING_STR_RING_SIZE, 16), (pINGS 0, R.ING_STR_RING_BASE_LO, 0), (pINGS 0, R.ING_STR_RING_BASE_LO + 4, 0x200),
    (pINGS 0, R.ING_STR_TAIL, 1), (pINGS 0, R.ING_STR_LIMIT, 1), (pING, R.ING_SLOT_BASE_LO, 0x1000), (pING, R.ING_BUCKET_BASE_LO, 0x2000),
    (pTOK, R.TOK_CTL, 1)])
    [(farBase, 5, 1 + 2 ^ 32), (0x1000, 128, mkD [(0, 0, 4), (0x10, 0, 1), (0x12, 0, 1), (0x14, 0, 1), (0x15, 0, 1)]),
     (0x2000, 64, mkD [(0, 0, 1), (4, 0, 16)])]

theorem witness_stream : (let s := wIng;
    ([R.ING_STR_CTL, R.ING_STR_TAIL, R.ING_STR_CURSOR, R.ING_STR_REQ_TAIL].all fun o => s.mayWrite .supervisor (pINGS 0) o) = true ∧
    s.ringOk 0 = true ∧ s.strEn 0 = true ∧ wOn.strEn 255 = false ∧ (wOn.str 255).pending = 0 ∧
    wOn.mayWrite .supervisor (pINGS 255) R.ING_STR_CURSOR = true ∧ s.ringUnits 0 = 1024 ∧ tailOk 64 0 0 64 = true ∧
    s.mayRead .supervisor (pINGS 0) R.ING_STR_TAKEN_LO = true) := by decide +kernel

theorem witness_take : (let s := wIng; let c := s.sreg 0 R.ING_STR_CURSOR; let a := s.unitAddr 0 c; let r := s.devRead a 64 0xFFFF;
    let len := leNat (r.2.1.take 4);
    s.mayTakeSample 0 = true ∧ s.maps (s.pagePart (pINGS 0)) a 64 false = true ∧ s.targetOff a = false ∧ s.targetWaits a = false ∧
    r.2.2 = none ∧ len = 1 ∧ len ≤ (s.sreg 0 R.ING_STR_TAIL + 2 ^ 32 - c) % 2 ^ 32 ∧ len ≤ s.ringUnits 0 - c % s.ringUnits 0 ∧
    r.2.1.getD 4 0 = 1) := by decide +kernel

/-- A request being served, with one row of one item of a video part, closed. -/
def videoPart : MediaPart := { codec := 32, slot := 0, addr := 0, bytes := 0, aux := 0 }
def video : Sample := { take := 0, handle := 0, unit := 0, len := 1, recAddr := 0, parts := [videoPart], batch := some (0, 0) }
def request (closed : Bool) : BatchReq :=
  { count := 1, bucket := 0, flags := 0, tag := 0, mb := 0, sig := 0, dst := 0x4000, rows := [[⟨0, false, [⟨0, some 0, 0⟩]⟩]],
    closed := closed, limitSince := some 0 }
def wStr (f : Stream → Stream) : State := wIng.modStr 0 f

theorem witness_dry : (let s := { (regs wIng [(pINGS 0, R.ING_STR_TAIL, 0)]).modStr 0 fun x => { x with req := some (request false), dryAt := some 0 } with mt := 2 ^ 34 };
    s.strDry 0 = true ∧ max 1 (s.reg pING R.ING_DRY_US % 2 ^ 24) * 1000 ≤ s.mt) := by decide +kernel

theorem witness_decode : (let s := { (regs wIng [(pINGS 0, R.ING_STR_BUDGET, 1)]).setCrs 42 { grants := [(0, ⟨0, false, 0, .part 0 0 0⟩)] } with mt := 1000 };
    s.blockRuns (pMDE 2) = true ∧ s.coreOwner 2 0 = some (0, 0, 0, ⟨0, false, 0, .part 0 0 0⟩) ∧
    s.sreg 0 R.ING_STR_BUDGET % 2 ^ 24 = 1 ∧ 1000 ≤ s.mt) := by decide +kernel

theorem witness_sample : (let s := wStr fun x => { x with samples := [{ video with fail := some 2 }] };
      (s.sampleOf 0 0).any (fun m => m.fail == some 2) = true ∧ s.ingRuns 0 = true ∧ s.checkWaits 0 0 = false) ∧
    (let s := wStr fun x => { x with samples := [video] };
      s.sampleOf 0 0 = some video ∧ s.ingRuns 0 = true ∧ video.fail = none ∧ video.bucket = none ∧ s.checkWaits 0 0 = false ∧
      (video.parts.any fun q => q.codec == 1 && !q.done) = false) := by decide +kernel

theorem witness_band : (let s := (wStr fun x => { x with samples := [video], req := some (request true) }).setCrs 41 { grants := [(0, ⟨0, false, 0, .part 0 0 0⟩)] };
    let sl := s.slotRec 0; let a := s.augOf video 0 videoPart;
    s.sampleOf 0 0 = some video ∧ (s.str 0).req = some (request true) ∧ (s.bucket 0).isSome = true ∧ slTube sl = 1 ∧
    s.partGranted 0 0 0 videoPart = true ∧
    (let per := max 1 (bandsPerTube sl a)
     let whole := a.q % 2 == 1 || !a.theta.isZero
     let kept := ((placesOf (request true).rows).filter fun o => o.take == 0 && !o.void && o.part == 0).length
     (List.range (min (s.bandsKept video 0 videoPart kept - 0) (if whole then per else 1))).map (0 % per + ·) ≠ [])) := by decide +kernel

theorem witness_tokenize : (let part := { videoPart with codec := 1 }; let m := { video with parts := [part] };
    let s := { wStr (fun x => { x with samples := [m] }) with tokQueue := [(0, 0, 0)] };
    s.blockRuns pTOK = true ∧ bit (s.reg pTOK R.TOK_CTL) 0 = true ∧ { s with tokQueue := [] }.sampleBy 0 0 = some m ∧ m.fail = none ∧
    m.parts[0]? = some part) := by decide +kernel

theorem witness_request : (let s := regs wIng [(pINGS 0, R.ING_STR_REQ_TAIL, 1)];
      s.ingRuns 0 = true ∧ (s.str 0).req = none ∧ s.sreg 0 R.ING_STR_REQ_HEAD % 2 ^ 16 ≠ s.sreg 0 R.ING_STR_REQ_TAIL % 2 ^ 16 ∧
      s.reachable (s.pagePart (pINGS 0)) (s.reg64 (pINGS 0) R.ING_STR_REQ_BASE_LO + 32 * 0) 32 = true) ∧
    (let s := { wStr fun x => { x with req := some (request true) } with mt := 2 ^ 34 };
      s.ingRuns 0 = true ∧ (s.str 0).req = some (request true) ∧ (request true).limitSince = some 0 ∧
      max 1 (s.reg pING R.ING_FILL_WAIT % 2 ^ 24) * 1000 ≤ s.mt ∧
      ((request true).rows.all fun l => l.all (s.entryVisible 0)) = true) := by decide +kernel

theorem witness_dict : wOn.mayWrite .supervisor pTOK (R.TOK_DICT_CTL + 0x30) = true ∧ bit (wOn.reg pTOK (R.TOK_DICT_CTL + 0x30)) 0 = false ∧
    (let s := regs wIng [(pTOK, R.TOK_DICT_CTL, 5), (pTOK, R.TOK_DICT_BASE_LO, 0x3000)];
      s.blockRuns pTOK = true ∧ bit (s.reg pTOK R.TOK_DICT_CTL) 2 = true ∧ s.dictGood 0 = false ∧
      (withMem s [(0x3000, 16, mkD [(0, 0, 1), (1, 0, 1), (4, 0, 1), (12, 0, crc32c.of (List.replicate 16 0))])]).dictGood 0 = true) := by
  decide +kernel

/-- An export job of one small frame. -/
def jobWords : Nat :=
  mkD [(4, 0, 64), (6, 0, 64), (8, 0, 64), (0x0A, 0, 64), (0x0C, 0, 1), (0x28, 0, 1000), (0x2C, 0, 1), (0x2E, 0, 1), (0x30, 0, 1), (0x32, 0, 1),
    (0x33, 0, 1), (0x34, 0, 30), (0x36, 0, 51)]

theorem witness_export : (let s := withMem (regs wIng [(pEXE 3, R.EXE_CTL, 1), (pEXE 3, R.EXE_JOB_TAIL, 1)]) [(0, 64, jobWords)];
      s.blockRuns (pEXE 3) = true ∧ bit (s.reg (pEXE 3) R.EXE_CTL) 0 = true ∧ (s.enc 3).job = none ∧
      s.exeHead 3 ≠ s.reg (pEXE 3) R.EXE_JOB_TAIL % 2 ^ 16 ∧ s.reachable (s.pagePart (pEXE 3)) 0 64 = true ∧
      ejOk (s.devLe (s.reg64 (pEXE 3) R.EXE_JOB_BASE_LO) 64) = true) ∧
    ([R.EXE_JOB_TAIL, R.EXE_OUT_HEAD, R.EXE_CTL].all fun o => wOn.mayWrite .supervisor (pEXE 3) o) = true ∧ tailOk 16 0 0 16 = true ∧
    (let s := wOn.setEnc 3 { job := some { words := jobWords } }; s.blockRuns (pEXE 3) = true ∧ (s.enc 3).held = []) := by decide +kernel


/-! ### Links, packets, reductions, checkpoints -/

/-- Link 2 of gate 1 in a state of its own, and in a segment of two flits sent. -/
def wLink (st : Nat) (l : Link := {}) : State :=
  (regs wOn [(pGAT 1, lnkReg 2 R.GAT_LNK_STS, st), (pGATS, R.GAT_MODULE_ID, 7)]).setLink 1 2 l

theorem witness_link : isLink 1 2 = true ∧ wOn.mayWrite .supervisor (pGAT 1) (lnkReg 2 R.GAT_LNK_CTL) = true ∧
    (wLink lsDetect).inState 1 2 lsDetect = true ∧ (wLink lsTrain).inState 1 2 lsTrain = true ∧ (wLink lsAlign).inState 1 2 lsAlign = true ∧
    wOn.width 1 15 = some false ∧ (wLink lsIdent).inState 1 2 lsIdent = true ∧ (wLink lsIdent).identOk 1 2 ⟨3, 4, 0, false⟩ = true ∧
    (wLink lsIdent).identOk 1 2 ⟨7, 4, 0, false⟩ = false ∧ (wLink lsActive).inState 1 2 lsActive = true ∧
    (wLink lsRetrain).inState 1 2 lsRetrain = true := by decide +kernel

theorem witness_link_times : (let s := { wLink lsTrain with mt := 100000000 };
      s.inState 1 2 (s.lstate 1 2) = true ∧ 1 ≤ s.lstate 1 2 ∧ s.lstate 1 2 ≤ 4 ∧ (s.link 1 2).since + 100000000 ≤ s.mt) ∧
    (let s := { wLink 0 { waiting := true } with mt := 10000000 };
      s.gateRuns 1 = true ∧ (s.link 1 2).waiting = true ∧ (s.link 1 2).since + 10000000 ≤ s.mt) ∧
    (let s := { wLink (lsActive + 16) { txSeg := 2 } with mt := 164 }; let l := s.link 1 2;
      s.inState 1 2 lsActive = true ∧ s.encOn 1 2 = true ∧ l.txSeg ≠ 0 ∧ l.txSegStart + 164 ≤ s.mt ∧ l.replay.length + (16 - l.txSeg) ≤ 1024) := by
  decide +kernel

/-- A packet that arrived by link 2 of gate 1 for module dst. -/
def pkt (dst : Nat) (b : Body) : Packet := { dst := dst, src := 3, dateline := false, ttl := 5, flow := 0, gate := 1, link := 2, body := b }

/-- Module 7 with its near memory, and two requests to module 3. -/
def wPkt : State :=
  { regs wOn [(pGATS, R.GAT_MODULE_ID, 7), (pNMC 0, R.NMC_STS, 1), (pGATS, R.GAT_ACK_TIMEOUT, 1)] with
    mt := 1000
    reqs := [⟨1, .xfer ⟨0, 0, false⟩, none, 0, false, 0, 4, 0x1000⟩, ⟨2, .xfer ⟨0, 0, false⟩, none, 0, true, 0, 0, 0⟩,
      ⟨3, .buddy, none, 0, true, 0, 0, 0⟩, ⟨4, .ring, none, 0, true, 0, 0, 0⟩] }

theorem witness_packet : (let s := wPkt;
    s.gateRuns 1 = true ∧ (pkt 9 (.ack 1 true)).dst ≠ s.moduleId ∧ vcRouted (Body.ack 1 true).vc = true ∧ s.canForward (pkt 9 (.ack 1 true)) = true ∧
    s.arrivedHere (pkt 7 (.ack 1 true)) = true ∧ s.remoteOk 0x1000 4 true = true ∧ s.rangeWaits 0x1000 4 = false ∧
    s.remoteOk (2 ^ 60) 4 true = false ∧ s.remoteOk 0x1000 4 false = true ∧
    ((s.consumed (pkt 7 (.ack 1 true))).modReq 1 false).any (fun r => r.owner == .xfer ⟨0, 0, false⟩ && r.len == 4) = true ∧
    ((s.consumed (pkt 7 (.ack 1 true))).modReq 2 true).any (fun r => r.owner == .xfer ⟨0, 0, false⟩) = true ∧
    ((s.consumed (pkt 7 (.ack 1 true))).modReq 3 true).any (fun r => r.owner == .buddy) = true ∧
    ((s.consumed (pkt 7 (.ack 1 true))).modReq 4 true).any (fun r => r.owner == .ring) = true ∧
    isTarget 0x700 = true ∧ (s.consumed (pkt 7 (.signal 0x700 1 1))).pagePart pSTP = s.pagePart pGATS ∧ isTarget 0x100 = true ∧
    (s.consumed (pkt 7 (.signal 0x100 1 1))).partOf 1 = s.pagePart pGATS) := by decide +kernel

theorem witness_remote : (let s := wPkt;
    (s.reqOf 1).any (fun r => r.port.isNone && r.owner != .ring && r.since + 1000 ≤ s.mt) = true ∧ s.live = true ∧
    s.reg pGATS R.GAT_ACK_TIMEOUT % 2 ^ 16 ≠ 0 ∧ s.mayWrite .supervisor pGATS R.GAT_ROUTE_DATA = true ∧
    s.mayRead .supervisor pGATS R.GAT_ROUTE_DATA = true) ∧
    (let s := regs wPkt [(pGATS, R.GAT_TIME_PORT, 128)];
      s.blockRuns pGATS = true ∧ bit (s.reg pGATS R.GAT_TIME_PORT) 7 = true ∧ bit (s.reg pGATS R.GAT_SYS_CTL) 2 = false ∧
      s.timeMissed + 1 < 10 ∧ 10 ≤ { s with timeMissed := 9 }.timeMissed + 1) := by decide +kernel

/-- A block of no data of job 0, and job 0 of 512 FP32 values. -/
def redBlock (fin : Bool) : RedBlock := ⟨0, 1, 0, 0, 0, false, false, false, false, fin, 1, 0, 0, 0, 4, []⟩
def redDesc : Nat := mkD [(0, 0, 1), (0x0C, 0, 512), (0x10, 0, 0x8000)]
def redJob (b : BlkState) : RedJob := { idx := 0, desc := redDesc, cnt := 1, trees := [], blocks := [(0, b)] }

/-- Gates enabled for reductions, with a job waiting in the ring. -/
def wRed : State :=
  withMem (regs wPkt [(pGAT 1, R.GAT_CTL, 1), (pGATS, R.GAT_SYS_CTL, 1), (pGATS, R.GAT_JOB_TAIL, 1), (pGATS, R.GAT_JOB_BASE_LO, 0x4000)])
    [(0x4000, 128, redDesc)]

theorem witness_jobs : (let s := wRed; let d := s.devLe (s.jobAddr 0) 128;
    s.mayWrite .supervisor pGATS R.GAT_JOB_TAIL = true ∧ tailOk 256 0 1 256 = true ∧ s.redRuns 1 = true ∧ s.nextTake = some 0 ∧
    s.anyGranule (s.jobAddr 0) 128 State.targetWaits = false ∧ s.anyGranule (jSrc d) (jCount d * jFb d) State.targetWaits = false) ∧
    (let s := { wRed with gate := { jobs := [redJob {}] } }; s.staleBlock (redBlock false) = false ∧
      s.jobFor (redBlock false) = some (redJob {}) ∧ wRed.jobFor (redBlock false) = none ∧
      wRed.storeRoom 1 2 (redBytes (redBlock false)) = true) ∧
    (let j := redJob { total := some (redBlock true), final := true };
      { wRed with gate := { jobs := [j] } }.jobOf 0 = some j ∧ wRed.gatsEn = true ∧ j.done = false ∧ j.stretchDone = true ∧
      ((List.range (jBlocks j.desc)).all fun b => (j.blk b).final) = true) := by decide +kernel

/-- A root with one child below link 2 of gate 1. -/
def wRoot2 : State := withMem wRed [(0, 32, mkD [(0, 0, 5), (1, 0, 1), (8, 0, 0x9004)])]

theorem witness_votes : (let s := wRed; let g : GoMsg := ⟨s.openStep, s.attempt, 1, 0, 0, []⟩;
    s.gatsEn = true ∧ g.stepTag = s.openStep ∧ g.attempt = s.attempt ∧ s.gate.go = none ∧
    (s.consumed (pkt 7 (.squash 0 0))).isCoord = false ∧ (s.consumed (pkt 7 (.squash 0 0))).phase ≠ phSquash) ∧
    (wRoot2.ctlTree.any fun t => t.childAt 1 2 == some (0, false)) = true ∧ vote.stepTag = wRoot2.openStep ∧ vote.attempt = wRoot2.attempt ∧
    (wRoot2.gate.kids.any fun e => e.1 == 0) = false ∧ wRoot2.gatsEn = true := by decide +kernel

theorem witness_deadline : (let s := { withMem (regs wRed [(pGATS, R.GAT_SYS_CTL, 9), (pGATS, R.GAT_GROUPS, 2 + 2 ^ 16)]) [(0, 32, 5)] with
      gate := { readyFrom := [0], intervals := List.replicate 16 0 } };
    s.isCoord = true ∧ s.gate.go = none ∧ s.gatsEn = true ∧ List.range s.groupsN ≠ [] ∧
    (List.range s.groupsN).all s.groupReady = false ∧ (List.range s.groupsN).any s.groupReady = true ∧ s.deadline = some 0 ∧ 0 ≤ s.mt) := by
  decide +kernel

/-- The checkpoint engine with a buddy bank on module 3. -/
def wCkp (sts : Nat) (c : CkpState) : State := { regs wPkt [(pCKP, R.CKP_STS, sts)] with ckp := c }

theorem witness_checkpoint : (let s := wCkp 0 { due := some 1 };
      s.ckp.due = some 1 ∧ s.blockRuns pCKP = true ∧ s.updPend = false ∧ s.ckSts 0 = false ∧
      (s.ckCtl 1 && (s.nextBank false).any s.sendReads) = false) ∧
    (let s := wCkp 1 { cap := some ⟨1, none, [], none⟩ };
      s.blockRuns pCKP = true ∧ s.ckSts 0 = true ∧ ((s.crs 43).reqs.any fun r => r.owner == .ckp) = false) ∧
    (let s := { wCkp 2 { send := some (0, (1, ([], true))) } with reqs := [] };
      s.blockRuns pCKP = true ∧ s.hasReqs .buddy = false) ∧
    wOn.mayWrite .supervisor pCKP R.CKP_CTL = true ∧ (let s := wCkp 4 {}; s.blockRuns pCKP = true ∧ s.ckSts 2 = true) ∧
    (let s := regs { wCkp 2 { send := some (0, (1, ([], false))) } with reqs := [] } [(pCKP, R.CKP_BUDDY0_HI, 0x80030000)];
      s.blockRuns pCKP = true ∧ s.hasReqs .buddy = false ∧ s.buddyAt 0 ≠ none) := by decide +kernel

/-! ### Supplies, domains, clocks, park -/

/-- A powered module in its power states: a change of PwrState over `wOn`. -/
def wPwr (f : PwrState → PwrState) (l : List (Nat × Nat × Nat) := []) (mt : Nat := 0) : State := { (regs wOn l).modPwr f with mt := mt }

theorem witness_supply : vio12Ok 12000 = true ∧ vanaOk 5000 = true ∧ vinOk 39999 = false ∧ wOn.aoOn = true ∧
    (let s := wPwr id [] 100000000; vanaOk s.pwr.vana = false ∧ s.pwr.lateRaised = false ∧ s.pwr.vioAt + 100000000 ≤ s.mt) ∧
    (let s := wPwr fun p => { p with vana := 5000, conv := true };
      vanaOk s.pwr.vana = true ∧ s.aoOn = true ∧ s.pwr.conv = true ∧ s.pst ≠ psParking) := by decide +kernel

theorem witness_park : wOn.mayWrite .supervisor pPWR R.PWR_CTL = true ∧
    (let s := { wPwr (fun p => { p with resuming := true, conv := true }) with aoOn := true };
      s.pwr.resuming = true ∧ s.pwr.conv = true ∧ s.bst.run = none ∧
      ((List.range 41).all fun c => !s.required c || s.domRaw c || s.fenced c || s.pwr.faulted.contains c) = true) ∧
    (let s := wPwr (fun p => { p with grace := some 0 }) [] (2 ^ 40);
      s.pwr.grace = some 0 ∧ 0 + s.fld pPWR R.PWR_PARK_GRACE 15 0 * 1000000 ≤ s.mt ∧ s.pwr.waitTest = false) ∧
    (let s := wPwr id [(pPWR, R.PWR_STS, psParking)]; s.pst = psParking ∧ s.bst.run = none) ∧
    wOn.pwr.noise.contains 0 = false ∧ (wPwr fun p => { p with noise := [0] }).pwr.noise.contains 0 = true ∧ wOn.pwr.rstLow = false ∧
    (wPwr fun p => { p with rstLow := true }).pwr.rstLow = true := by decide +kernel

theorem witness_domains : (let s := wPwr (fun p => { p with conv := true }) [(pPWR, R.PWR_DOM_STS_HI, 0x1EF), (pPWR, R.PWR_DOM_REQ_LO, 1)];
      domOrder.find? s.canRamp = some 36 ∧ s.pwr.held = false ∧ s.pwr.ramping = none) ∧
    (let s := wPwr (fun p => { p with ramping := some (3, 0) }) [] 1000000; s.pwr.ramping = some (3, 0) ∧ 0 + 1000000 ≤ s.mt) ∧
    (let s := wPwr id [(pPWR, R.PWR_DOM_REQ_LO, 0), (pPWR, R.PWR_DOM_REQ_HI, 0)]; s.live = true ∧ s.canTurnOff 0 = true) := by decide +kernel

theorem witness_clocks : (let s := wPwr (fun p => { p with conv := true }) [(pCLK, R.CLK_STS, 1), (pCLK, R.CLK_PLL_CTL, 1)];
      s.pllWanted 0 = true ∧ s.pllLocked 0 = false ∧ s.pllStarting 0 = false ∧ bit (s.reg pCLK R.CLK_STS) 0 = true ∧ s.holding = false ∧
      s.pwr.pllAt = none ∧ s.firstInLine 0x2000 0x2000 0x3000 = true ∧ s.pwr.conv = true) ∧
    (regs wOn [(pCLK, R.CLK_STS, 1 + 2 ^ 11)]).pllStarting 0 = true ∧ (regs wOn [(pCLK, R.CLK_STS, 3)]).pllLocked 0 = true := by decide +kernel

/-! ### Host ports, command queues, partitions and security -/

/-- Port 0 changed. -/
def wPort (f : PortState → PortState) (l : List (Nat × Nat × Nat) := []) : State := (regs wOn l).modPort 0 f

theorem witness_port : wOn.aoOn = true ∧ wOn.domOn 40 = true ∧ wOn.linkUp 0 = true ∧ (wOn.port 0).released = true ∧
    ((wPort fun p => { p with released := false }).port 0).released = false ∧ wOn.portUp 0 = true ∧ wOn.hold = false ∧
    wOn.apWaits 0 0 4 true = false ∧ wOn.apWaits 0 0 4 false = false ∧ wOn.mayWrite (.port 0) (pMSIX 0) (16 * 63 + 12) = true ∧
    wOn.mayWrite .supervisor (pHPT 0) R.HPT_WIN_DATA_HI = true ∧ wOn.mayRead .supervisor (pHPT 0) R.HPT_WIN_DATA_HI = true ∧
    wOn.hostOn 0 = true ∧ (wOn.setHptSts 0 0 false).detached 0 = false ∧ ((wOn.setHptSts 0 0 false).resetCfg 0).detached 0 = false ∧
    (wOn.resetCfg 0).detached 0 = false ∧ (wOn.setHptSts 0 13 true).detached 0 = false := by decide +kernel

theorem witness_port_return : (let s := wPort (fun p => { p with holdoff := [(3, 0)] }) [];
      (s.port 0).holdoff.find? (fun e => e.1 == 3) = some (3, 0) ∧ s.aoOn = true ∧
      0 + s.reg (pHPT 0) R.HPT_IRQ_HOLDOFF % 2 ^ 16 * 1000 ≤ s.mt) ∧
    (let s := regs wOn [(pHPT 0, R.HPT_STS, 0)]; s.hostOn 0 = true ∧ (s.port 0).perstN = true ∧ s.padsHeld = false ∧ s.linkUp 0 = false) ∧
    (let s1 := ((wOn.modPort 0 fun p => { p with perstN := false }).modPort 0 fun p => { p with released := false }).resetCfg 0;
      s1.linkUp 0 = true ∧ (s1.setHptSts 0 0 false).detached 0 = false) := by decide +kernel

/-- Queue 5 of port 0 with sixteen entries at 0x6000, of which e is fetched, and tile 0 ready. -/
def wCq (e : List Nat) (f : CqState → CqState := id) : State :=
  (regs wOn [(pNMC 0, R.NMC_STS, 1), (0, R.TIL_SRAM_STS, 1), (pCQ 5, R.HPT_CQ_CTL, 0x40001), (pCQ 5, R.HPT_CQ_TAIL, 3),
    (pCQ 5, R.HPT_CQ_BASE_LO, 0x6000)]).modCq 5 fun c => f { c with fetch := e.length, buf := e }

theorem witness_queue : (let s := wCq [];
      ([R.HPT_CQ_CTL, R.HPT_CQ_TAIL].all fun o => s.mayWrite (.port 0) (pCQ 5) o) = true ∧ tailOk 16 0 3 16 = true ∧
      2 ^ s.cqLog 5 = 16 ∧ s.cqPort 5 = some 0 ∧ s.cqHalt 5 = false ∧ (s.cq 5).fetch < s.cqTail 5) ∧
    ([0, 6, 255, 2, 3, 4, 5].all fun op => ((wCq [op]).copiesSettle 5).cqFront 5 == some (0, op)) = true ∧ (wCq [0]).portPart 0 < 6 ∧
    ceOp 0 = 0 ∧ 6 ≤ ceOp 6 ∧ ceOp 5 = 5 := by decide +kernel

theorem witness_queue_desc : (let e := mkD [(0, 0, 1), (8, 0, 0), (10, 0, 1)]; let t := (wCq [e, dMma]).copiesSettle 5; let c := t.cq 5; let n := df e 10 7 0;
    t.cqFront 5 = some (0, e) ∧ ceOp e = 1 ∧ n ≠ 0 ∧ n + 1 ≤ t.cqTail 5 - c.next ∧ n + 1 ≤ c.buf.length ∧ isTile (ceTile e) = true ∧
    t.tilePart (ceTile e) = t.portPart 0 ∧ t.portRefusal 0 (ceTile e) R.TIL_SEQ_TAIL true = none ∧
    t.siteOn (t.siteOf (ceTile e)) = true ∧ t.targetWaits (0x040000000000 + ceTile e * 0x800000) = false ∧
    (t.tail (t.siteOf (ceTile e)) + 2 ^ 16 - t.head (t.siteOf (ceTile e))) % 2 ^ 16 + n ≤ 256) := by decide +kernel

theorem witness_queue_regw : (let e := mkD [(0, 0, 2), (8, 0, pING), (10, 0, R.ING_DRY_US / 4)]; let t := (wCq [e]).copiesSettle 5;
      ceOp e = 2 ∧ t.cqFront 5 = some (0, e) ∧ t.mayWrite (.port 0) (df e 8 13 0) (4 * df e 10 9 0) = true) ∧
    (let e := mkD [(0, 0, 4), (8, 0, 0x700), (12, 0, 3), (14, 0, 1)]; let t := { wCq [e] fun c => { c with since := some 0 } with mt := 1000 };
      ceOp e = 4 ∧ t.cqFront 5 = some (0, e) ∧ t.counterStatus 0 (ceTile e) = none ∧ waitMet (t.ctr (ceTile e) (ceCtr e)) (df e 12 15 0) = false ∧
      waitMet (t.ctr (ceTile e) (ceCtr e)) 0 = true ∧ (t.cq 5).since = some 0 ∧ df e 14 15 0 ≠ 0 ∧ 0 + df e 14 15 0 * 1000 ≤ t.mt) := by
  decide +kernel

theorem witness_queue_copy : (let e := mkD [(0, 0, 3), (16, 0, 0x2000), (24, 0, 64)]; let t := (wCq [e]).copiesSettle 5;
    let ms := copyMovs (df e 8 63 0) (df e 16 63 0) 64 (df e 32 15 0);
    ceOp e = 3 ∧ t.cqFront 5 = some (0, e) ∧ ms.all (t.movSidesOk 0) = true ∧
    (t.handCopies 5 (t.cq 5).next (((List.range 6).find? fun d => t.partOf d == 0).getD 0) 0 ms).isSome = true) := by decide +kernel

theorem witness_admin : (let s := wOn; let a : Src := .port s.adminPort;
    ([(pPRT, R.PRT_MAP), (pPRTP 0, R.PRT_P_OWNER), (pPRTP 0, R.PRT_P_FAR_SIZE), (pPRTP 0, R.PRT_P_FAR_BASE), (pSEC, R.SEC_SVN_COMMIT),
      (pSEC, R.SEC_KEY_CMD), (pSEC, R.SEC_LINK_CMD)].all fun (p : Nat × Nat) => s.mayWrite a p.1 p.2) = true ∧
    s.mayWrite .supervisor pSEC R.SEC_IMG_CTL = true ∧ s.mayWrite .supervisor pSEC R.SEC_CLEAR = true ∧
    pageBlk pING = some (.ing, 0) ∧ isBar2 pING = false ∧ Blk.ing.bound = false ∧ s.mayWrite a pING R.PAGE_OWNER = true) := by decide +kernel

theorem witness_stopped : (let s := wOn; s.stopped 0 = true ∧ s.stopped 1 = true ∧
    (s.setReg pPRT R.PRT_MAP 0).allValid = true ∧ (s.setReg (pPRTP 0) R.PRT_P_OWNER 0).allValid = true ∧
    (s.setReg (pPRTP 0) R.PRT_P_FAR_BASE (s.reg (pPRTP 0) R.PRT_P_FAR_BASE)).allValid = true ∧
    (s.setReg pING R.PAGE_OWNER (s.reg pING R.PAGE_OWNER)).allValid = true ∧ s.pagePart pING < 6) := by decide +kernel

theorem witness_security : wOn.sec.booted = false ∧
    (let s := { wOn with sec := { job := some ⟨0, [], 1⟩, booted := true } }; s.sec.job = some ⟨0, [], 1⟩ ∧ s.spdmRuns 0 = true) ∧
    ([0, 1, 2, 3].all fun n => ((wPort fun p => { p with spdm := n, session := n - 1 }).port 0).session == n - 1) = true ∧
    (let s := wPort id [(pHPT 0, R.HPT_STS, 1 + 2 ^ 10)];
      s.hptSts 0 (ideBit 0) = true ∧ s.hostOn 0 = true ∧ s.keyRefusal 0 = none ∧ bit (s.reg pSEC R.SEC_STS) 1 = false ∧ s.sec.scanHold = false ∧
      bit 0 0 = false ∧ bit 0 1 = false ∧ s.pagePart (pGAT 0) = s.portPart 0) ∧
    ({ wOn with sec := { keys := [(0, (5, 6))] } }.sec.keys.find? (fun e : Nat × Nat × Nat => e.1 == 0 * 16 + bits 0 12 9)).isSome = true ∧
    (let s := regs wOn [(pSEC, R.SEC_STS, 2)]; bit (s.reg pSEC R.SEC_STS) 1 = true ∧ s.bst.run = none) := by decide +kernel

theorem witness_completion : (let s := { wPkt with reqs := [⟨1, .xfer ⟨0, 0, false⟩, some 0, 0, false, 0, 4, 0x1000⟩, ⟨2, .buddy, some 0, 0, true, 0, 0, 0⟩], mt := 2 ^ 36 };
    s.hostReq 1 = some (⟨1, .xfer ⟨0, 0, false⟩, some 0, 0, false, 0, 4, 0x1000⟩, 0) ∧ (s.hostReq 2).isSome = true ∧ s.live = true ∧
    s.domOn 40 = true ∧ s.linkUp 0 = true ∧ 0 + max 1 (s.reg (pHPT 0) R.HPT_CPL_TIMEOUT % 2 ^ 16) * 1000000 ≤ s.mt) := by decide +kernel

/-! ### Self-test, check units, debug, test port -/

/-- A run of the domains l under test. -/
def wBst (l : List Nat) : State := { wOn with bst := { run := some { cause := 2, todo := l } }, sec := { scanHold := true } }

theorem witness_selftest : (let s := regs wOn [(pBST, R.BST_DOM_MASK_LO, 2 ^ 24)]; let v := s.reg pBST R.BST_CTL;
      s.bstWriter .supervisor = true ∧ s.mayWrite .supervisor pBST R.BST_CTL = true ∧ bit (v + 1) 0 = true ∧ bit (v + 1) 3 = false ∧
      bit (v + 8) 0 = false ∧ bit (v + 8) 3 = true ∧ s.mayWrite .supervisor pBST R.BST_FENCE_LO = true ∧
      s.mayWrite .supervisor pBST R.BST_FENCE_HI = true ∧
      (let s1 := s.setReg pBST R.BST_CTL (bits (v + 1) 2 1 * 2); s1.demandOk (s1.domBits R.BST_DOM_MASK_LO) = true)) ∧
    (wBst [5, 4]).bst.run.map BstRun.todo = some [5, 4] ∧ (wBst [5, 4]).domRaw 5 = true ∧ (wBst [5, 4]).sec.scanHold = true ∧
    (wBst []).bst.run.map BstRun.todo = some [] := by decide +kernel

/-- Tile 0 watched by debug page 0, frozen. -/
def wDbg : State := regs wOn [(dbgPage 0, R.DBG_CTL, 1), (dbgPage 0, R.DBG_PEEK_SEL, 0)]

theorem witness_checkDebug : (let s := regs wOn [(pCHK 15, R.CHK_CTL, 1)];
      ([R.CHK_CTL, R.CHK_FEED8, R.CHK_FEED16, R.CHK_FEED32, R.CHK_VALUE_HI].all fun o => s.mayWrite .supervisor (pCHK 15) o) = true ∧
      ([R.CHK_VALUE_LO, R.CHK_RESULT_LO].all fun o => s.mayRead .supervisor (pCHK 15) o) = true ∧
      s.chkBusy 15 = false ∧ s.chkClaimed 15 = true) ∧
    (let s := wDbg; s.mayWrite .supervisor (dbgPage 0) R.DBG_CTL = true ∧ (s.debugVoid (dbgPage 0)).reg (dbgPage 0) R.DBG_CTL % 2 = 1 ∧
      s.peekOpen 0 = some 0 ∧ s.mayRead .supervisor (dbgPage 0) R.DBG_PEEK_DATA = true ∧
      s.mayWrite .supervisor (dbgPage 0) R.DBG_PEEK_DATA = true) := by decide +kernel

theorem witness_tap : wOn.aoOn = true ∧ wOn.log = [] ∧ { wOn with log := [logRec 0 1] }.log = [logRec 0 1] ∧
    bit ((regs wOn [(pSEC, R.SEC_STS, 1)]).reg pSEC R.SEC_STS) 0 = true ∧ bit ((regs wOn [(pSEC, R.SEC_STS, 0)]).reg pSEC R.SEC_STS) 0 = false := by
  decide +kernel

/-! ### Rules of the numbers, and worked examples of the spec -/

theorem witness_numbers : ([fE2M1, fFP32, fW36].all fun f => decide (decodeFp f 0 ≠ .nan)) = true ∧ decodeFp fFP32 0x7FC00000 = .nan ∧
    (let l := [fp32 0x40B00000]; blockBad l = false ∧ blockMax l = .fin false 11534336 (-21) ∧ (encodeMx .p4 (fun _ => .rne) l).2.1 = 127) ∧
    (blockBad [Fp.zero] = false ∧ (blockMax [Fp.zero]).isZero = true ∧ (encodeMx .p4 (fun _ => .rne) [Fp.zero]).2.1 = 0) := by decide +kernel

/-- R34's example: 32 values; 0.10, −0.05 and 0.20 become zero. -/
def p4xExample : List Nat :=
  [0x3E99999A, 0xBF99999A, 0x40066666, 0, 0x40B00000, 0xBF4CCCCD, 0x40400000, 0xC0266666, 0x3F800000, 0x3DCCCCCD, 0xC0800000,
   0x3FC00000, 0x3EE66666, 0xBE800000, 0x40000000, 0xBFF33333, 0x3F733333, 0x40866666, 0xBD4CCCCD, 0xC2140000, 0x3FA66666,
   0xC0466666, 0x3F19999A, 0x40333333, 0xC0A00000, 0, 0x3F8CCCCD, 0xBECCCCCD, 0x40666666, 0xBF800000, 0x3E4CCCCD, 0x4019999A]

theorem test_p4x : (let r := encodeP4x (fun _ => .rne) (p4xExample.map fp32);
    r.1 = [0xB1, 0x04, 0xA7, 0xD5, 0x02, 0x3E, 0x91, 0xC4, 0x62, 0x08, 0xD3, 0x51, 0x0F, 0x92, 0xA6, 0x50, 0x7F, 0x37, 0x33, 0x1C] ∧
    r.2.ftz = 3 ∧
    (let v := (decodeP4x (fun i => nth 0 r.1 i) (fun _ => 0) 0).1;
     (v.getD 4 .nan).eqv (fp32 0x40B40000) = true ∧ (v.getD 19 .nan).eqv (fp32 0xC2100000) = true)) := by decide +kernel

/-- The table of R63: an update of −2^-25 applied four times to 1.5. -/
theorem test_carry : (let step := fun (w c : Nat) => let r := carryApply w 0xB3000000 c; (r.1, r.2.1);
    step 0x3FC00000 0 = (0x3FC00000, 256 - 32) ∧ step 0x3FC00000 (256 - 32) = (0x3FC00000, 256 - 64) ∧
    step 0x3FC00000 (256 - 64) = (0x3FBFFFFF, 32) ∧ step 0x3FBFFFFF 32 = (0x3FBFFFFF, 0)) := by decide +kernel

/-- The first AdamW update of the example of R258, with carry −44, and the second one, which moves the master by an ulp. -/
def adamEnv (u : Nat) : UpdEnv :=
  { rule := ruAdamw, nesterov := false, coupled := false, lr := .fin false 5 (-27), beta1 := fp32 0x3F666666, beta2 := fp32 0x3F7FBE77,
    eps := fp32 0x322BCC77, wd := .fin false 1 (-4), bc1 := f32Sub Fp.one (powU (fp32 0x3F666666) u),
    bc2 := f32Sub Fp.one (powU (fp32 0x3F7FBE77) u), ob1 := f32Sub Fp.one (fp32 0x3F666666), ob2 := f32Sub Fp.one (fp32 0x3F7FBE77),
    u := u, consts := [], prog := [], m2 := true }

theorem test_adamw : (let e1 := (updElem (adamEnv 1) ⟨0x3FC00000, 0, 0, 0⟩ (.fin false 1 (-1)) none).e
    let e2 := (updElem (adamEnv 2) e1 (.fin false 1 (-1)) none).e;
    (e1.w, e1.c) = (0x3FC00000, 256 - 44) ∧ (e2.w, e2.c) = (0x3FBFFFFF, 40)) := by decide +kernel

/-- The segment of R134's example: x = −1.3 reads segment 388 of an image with EMIN = −8, whose constant term is 2. -/
theorem test_activation : actEval (fun a => if a = 1 then 0xF8 else if a = 0x1883 then 0x40 else 0) 0xBFA66666 = 0x40000000 := by
  decide +kernel

/-- The verdict of the example of R292: d = 3, S = 36, CLIP_NORM = 1 give gmul 0x3E2A_AAAB, clipped. -/
theorem test_verdict : (let s := (regs (wStp phCheck []) [(pSTP, R.STP_CLIP_NORM, 0x3F800000), (pSTP, R.STP_RESCALE, 0x3F800000)]).modStep fun x =>
      { x with sloc := 0x42100000 };
    let r := s.verdictMath 3 0; (encodeFp fFP32 r.1, encodeFp fFP32 r.2.1, r.2.2) = (0x40000000, 0x3E2AAAAB, 0, true)) := by decide +kernel

/-- The rounds of the example of R327: engines 3, 17 and 40 (urgent) over a quota of 2 grants per window. -/
def aging : State :=
  let q := fun (r : Nat) u d => ({ requester := r, urgent := u, d := d, server := none, arrived := 0, left := 8, owner := .other } : CrsReq)
  (regs wOn [(pCRS 0, R.CRS_QUOTA, 2 + 1000 * 2 ^ 8), (pCRS 0, R.CRS_CTL, 256)]).setCrs 0
    { reqs := [q 3 false 1000, q 17 false 1200, q 40 true 300] }

def rounds : Nat → State → List (Option Nat)
  | 0, _ => []
  | n + 1, s =>
    let r := s.crsRound 0 0
    let s1 := r.1.setCrs 0 { r.1.crs 0 with grants := [] }
    (r.2.map (·.requester)) :: rounds n { s1 with mt := s1.mt + 4 }

/-- CRC-32 of "123456789" by two FEED32 and one FEED8 writes (R529's example), and the CRC-64 of the same bytes. -/
theorem test_crc : (let s := regs wOn [(pCHK 5, R.CHK_CTL, 1)];
    let run := fun (c : Instr) (s : State) => match exec c s with
      | .next t => t
      | _ => s;
    let t := run (.feed8 .supervisor 5 0x39) (run (.feed32 .supervisor 5 0x38373635) (run (.feed32 .supervisor 5 0x34333231)
      (run (.chkReset .supervisor 5) s)));
    (t.reg (pCHK 5) R.CHK_BYTES, t.reg (pCHK 5) R.CHK_VALUE_LO, (t.chkCfg 5).result (t.chkValue 5)) = (9, 0x340BC6D9, 0xCBF43926)) ∧
    crc64.of [0x31, 0x32, 0x33, 0x34, 0x35, 0x36, 0x37, 0x38, 0x39] = 0x995DC9BBDF1939FA := by decide +kernel

/-- The addresses of the example of R534: tile 0x20A, its column's spare site, stream 7 and a courier engine. -/
theorem test_pages : wOn.region 0x05000020A04C = .regs 0x20A R.TIL_SEQ_TAIL ∧ 2 * 256 + 12 * 16 + 10 = 0x2CA ∧ isSite 0x2CA = true ∧
    R.TIL_SRAM_STS = 0x70 ∧ pINGS 7 = 0x808 ∧ R.ING_STR_TAIL = 0x54 ∧ pCUR (2 * 16 + 3) = 0x653 := by decide +kernel

/-- One byte and two bytes in error are corrected (R377); α^0 + α^1 + … : a codeword of zeros is a codeword. -/
theorem test_fec : rsDecode (setNth (List.replicate 72 0) 5 0xA7) = (List.replicate 72 0, some true) ∧
    rsDecode (setNth (setNth (List.replicate 72 0) 71 1) 0 0xFF) = (List.replicate 72 0, some true) := by decide +kernel

/-- Rescale of three groups of four (the example of R411), and a median of an even count. -/
theorem test_rescale : encodeFp fFP32 (roundRat fFP32 false 3 4 0) = 0x3F400000 ∧ medianOf ((List.range 16).reverse) = 7 := by decide +kernel

/-- The rounds of R327's example, engine 40 masked after its two grants. -/
theorem test_aging : rounds 6 aging = [some 40, some 40, some 3, some 17, some 3, some 17] := by decide +kernel

/-- The two iterations of R129's example, and the permutation of R131's. -/
theorem test_scan : (let run := fun (a c : List Nat) b => (stageOp {} 0x00000E4082912830 32 8 (fun _ => true) a b c).1;
    run [3, 1, 4, 1, 5, 9, 2, 6] [1, 0, 0, 1, 0, 0, 1, 0] [0] = [3, 4, 8, 1, 6, 15, 2, 8] ∧
    run [5, 3, 5, 8, 9, 7, 9, 3] [0, 0, 1, 0, 0, 1, 0, 0] [8] = [13, 16, 5, 13, 22, 7, 16, 19]) ∧
    (let r := stageOp {} 0x32 32 4 (fun _ => true) [10, 20, 30, 40] [3, 0, 5, 1] []; r.1 = [40, 10, 0, 20] ∧ r.2.laneRange = true) := by
  decide +kernel

/-- The batch of R364's example: samples A to D, of which B has four patches of slot 1. -/
def packed : List (List RowEntry) :=
  let text := fun (take n : Nat) => (⟨take, false, (List.range n).map fun i => ⟨0, none, 100 * take + i⟩⟩ : RowEntry)
  let b : RowEntry := ⟨2, false, (List.replicate 4 ⟨0, some 1, 7⟩) ++ [⟨1, none, 200⟩, ⟨1, none, 201⟩, ⟨1, none, 202⟩]⟩
  [[text 1 9, b], [text 3 6, text 4 5]]

def packing : Bucket := { b := 2, l := 16, pack := true, labelNext := true, pad := 9, mrows := [0, 8, 0, 0, 0, 0, 0, 0] }

theorem test_packing : (let m := 2 ^ 32 - 1; let r0 := bucketRow packing (placesOf packed) (packed.getD 0 []); let r1 := bucketRow packing (placesOf packed) (packed.getD 1 []);
    r0.map (·.tok) = [100, 101, 102, 103, 104, 105, 106, 107, 108, 7, 7, 7, 7, 200, 201, 202] ∧
    r0.map (·.seg) = [1, 1, 1, 1, 1, 1, 1, 1, 1, 2, 2, 2, 2, 2, 2, 2] ∧ r0.map (·.pos) = [0, 1, 2, 3, 4, 5, 6, 7, 8, 0, 1, 2, 3, 4, 5, 6] ∧
    r0.map (·.label) = [101, 102, 103, 104, 105, 106, 107, 108, m, m, m, m, m, 201, 202, m] ∧
    r0.map (·.midx) = [m, m, m, m, m, m, m, m, m, 0, 1, 2, 3, m, m, m] ∧
    r1.map (·.seg) = [1, 1, 1, 1, 1, 1, 2, 2, 2, 2, 2, 0, 0, 0, 0, 0] ∧ (r1.getLast?).map (·.tok) = some 9) ∧
    alignUp (18 * 2 * 16) 64 = 576 := by decide +kernel

/-! ### Remaining witnesses -/

theorem witness_roles : (let s := wTile (mkD [(0, 0, 1), (24, 5, 1), (48, 0, 0xFFFFFFFFFFFF)]); let c := s.ctxOf 0 0; let ra := s.recAddrs c (mmaCheck s c).recs;
      mmaFmtA c.d = some .fp32 ∧ mmaFmtB c.d = some .bf16 ∧ isTile 0 = true ∧ s.canIssue c.site 0 = true ∧ dKind c.d = 1 ∧ s.deferActive c = false ∧
      s.frozenSkip c = .no ∧ ra.any s.targetWaits = false ∧
      lowest (s.commonReasons c ++ (mmaCheck s c).reasons ++ s.recReasons c ra) = some rjFmtRole) ∧
    (let c := (wTile dMma).ctxOf 0 0; mmaFmtA c.d = some .bf16 ∧ mmaFmtB c.d = some .bf16 ∧ mmaOut c.d = 0) := by decide +kernel

theorem witness_defer : (let s := wTile (dSyn 0 + 2 ^ 10); let c := s.ctxOf 0 0; dDefer c.d = true ∧ dKind c.d = 7) ∧
    (let s := regs (wTile dDef) [(0, R.TIL_BWD_CTL, 0)]; let c := s.ctxOf 0 0; dDefer c.d = true ∧ dPhase c.d = 3 ∧ dKind c.d = 1 ∧ bit (s.reg c.site R.TIL_BWD_CTL) 1 = false ∧
      dDefer (dDef - 2 ^ 10) = false ∧ dKind (dDef - 2 ^ 10) = dKind c.d ∧ dPhase (dDef - 2 ^ 10) = dPhase c.d ∧
      dTag (dDef - 2 ^ 10) = dTag c.d) := by decide +kernel

/-- Masked by each of the three grounds, and at their edges not. -/
theorem witness_masked : attMasked (fun _ => 0) (mkD [(18, 6, 1)]) 0 1 2 = true ∧ attMasked (fun _ => 0) (mkD [(18, 6, 1)]) 0 1 1 = false ∧
    attMasked (fun _ => 0) 0 2 2 0 = true ∧ attMasked (fun _ => 0) 0 2 1 0 = false ∧
    attMasked (fun a => a % 3) (mkD [(18, 7, 1), (44, 16, 1)]) 0 0 0 = true ∧ attMasked (fun _ => 0) (mkD [(18, 7, 1), (44, 16, 1)]) 0 0 0 = false := by
  decide +kernel

theorem witness_stash : (regs wOn [(pSTP, R.STP_STASH_APT, 0x40), (pSTP, R.STP_STASH_CTL, 1)]).region 0x207FFFFFFFFF = .stash (0x207FFFFFFFFF - 0x200000000000) ∧
    wOn.region 0x200000000000 = .unmapped ∧ wOn.region 0x208000000000 = .unmapped := by decide +kernel

/-- A step in HOLD with a void guarantee, whose command is neither a module reset nor the loss of VIO12. -/
theorem witness_invariants : (let s := { wOn with hold := true, voidCause := 2, pending := [.readVersion, .tapReset], log := [logRec 0 1] };
    (match Sys2Proof.Machine.step s with
     | .next t => t.hold && t.voidCause.testBit 1 && t.pending == [.tapReset] && t.out == [.smbus [1]]
     | _ => false) = true ∧ s.canonical = true ∧ s.aoOn = true ∧ s.log.length ≤ 256) := by decide +kernel


set_option maxRecDepth 200000 in
theorem witness_act_image : (let s := (withMem (wTile 0) [(sramBase 0, 1, 1), (sramBase 0 + 0x3C, 4, 2171456736)]).modTile 0 fun t => { t with actLoad := some (3, 0) };
    s.vchRunning 0 = false ∧ outside 0 actBytes = false ∧ imageGood (s.bytes (sramBase 0) actBytes) = true) := by decide +kernel

/-! ### Terms that WellFormed refuses, one for each check -/

theorem test_illFormed : ([Instr.tilSeqTailWrite (.port 0) 0 0x100000000,               -- a 32-bit value
    .memoryRead 0x10000000000000000 1 .clean,                                            -- a 64-bit address
    .registerWrite (.port 0) 0 0 3 0, .rcRead (.port 0) 0 0 6,                           -- an access of 3 or 6 bytes
    .registerWrite (.port 0) 0 0 1 256, .registerWrite (.port 0) 0x4098 0 4 0,           -- a value wider than the access; no such page
    .mma 0x600 0, .mma 0x0C0 0, .sramInitDone 0x0D0,                                     -- no such district, row or site
    .signalArrival 0x701 0, .resume (.port 8) 0, .resume (.device 8) 0,                  -- no such sender or source
    .memoryWrite 0 [256] false, .poolEnable .supervisor 8 0, .memScrub 0 128 .clean,     -- a byte, pool or channel out of range
    .nearInitDone 6, .arbitrationRound 44 0, .streamEnable .supervisor 256 0,
    .decodeTimeout 4 0, .tokenize 8, .dictEnable .supervisor 16 0, .encodeJob 64, .peerDetect 8 0, .peerDetect 0 12,
    .irqHoldoffExpire 8 0, .irqHoldoffExpire 0 64, .cqNop 64, .portReturn 0 7 0, .portReturn 0 0 17, .domainOn 41, .pllStart 10,
    .sidebandNoise 2, .claim .supervisor 16 true, .freeze .supervisor 7 true, .privateScan 256, .cqFetch 0 [2 ^ 512]].all
      fun c => !c.wellFormed) = true := by decide +kernel

theorem test_wellFormed : ([Instr.tilSeqTailWrite (.port 7) 0x5BF 0xFFFFFFFF, .memoryRead 0xFFFFFFFFFFFFFFFF 1 .clean,
    .registerWrite .supervisor 0x4097 0xFFC 512 0, .rcRead (.device 7) 0 0 1, .mma 0x5BF 0xFFFFFFFF, .sramInitDone 0x5CF,
    .signalArrival 0x700 0x700, .peerDetect 7 11, .cqNop 63, .portReturn 7 6 16, .domainOn 40, .privateScan 255].all
      fun c => c.wellFormed) = true := by decide +kernel

/-- R267: two staged UPDs that meet cover a shard; with a gap or an overlap they do not. -/
theorem test_coversOnce : coversOnce 128 [(0, 96), (96, 32)] = true ∧ coversOnce 128 [(0, 96)] = false ∧
    coversOnce 128 [(0, 96), (64, 32)] = false := by decide

end Sys2Proof.Tests
end

section
/-! PROOFS. Number formats: exact magnitudes as rationals, what the logarithms and the rounding of `Machine/Fp.lean` give on
them, two's complement codes, and the statements on E8M0 (R22), MXINT8 (R26) and the shared exponent of P4 (R27). -/
namespace Sys2Proof.Machine

/-! ### Two's complement -/

theorem wrapInt_lt (x : Int) (n : Nat) : wrapInt x n < 2 ^ n := by
  have hpos : (0 : Int) < (2 ^ n : Nat) := Int.natCast_pos.mpr (Nat.two_pow_pos n)
  have hnn := Int.emod_nonneg x (Int.ne_of_gt hpos)
  have hlt := Int.emod_lt_of_pos x hpos
  unfold wrapInt
  omega

/-- A value in the range of n + 1 bits is what its pattern reads back as. -/
theorem sext_wrapInt {x : Int} {n : Nat} (hlo : -2 ^ n ≤ x) (hhi : x < 2 ^ n) :
    sext (wrapInt x (n + 1)) (n + 1) = x := by
  have hpow : (2 : Int) ^ (n + 1) = 2 * 2 ^ n := by rw [Int.pow_succ, Int.mul_comm]
  have hN : ((2 ^ (n + 1) : Nat) : Int) = 2 * 2 ^ n := (Int.natCast_pow 2 (n + 1)).trans hpow
  have hmod : wrapInt x (n + 1) % 2 ^ (n + 1) = wrapInt x (n + 1) := Nat.mod_eq_of_lt (wrapInt_lt x _)
  have hval : (wrapInt x (n + 1) : Int) = if 0 ≤ x then x else x + 2 * 2 ^ n := by
    have hnn : 0 ≤ x % ((2 ^ (n + 1) : Nat) : Int) := Int.emod_nonneg x (by omega)
    rw [wrapInt, Int.toNat_of_nonneg hnn, hN]
    split
    case isTrue h => exact Int.emod_eq_of_lt h (by omega)
    case isFalse h =>
      rw [← Int.add_emod_right]
      exact Int.emod_eq_of_lt (by omega) (by omega)
  simp only [sext, hmod, hpow]
  split at hval <;> split <;> omega

theorem sext_of_lt {v n : Nat} (hv : v < 2 ^ n) :
    sext v n = if 2 * v < 2 ^ n then (v : Int) else (v : Int) - 2 ^ n := by
  simp only [sext, Nat.mod_eq_of_lt hv]

/-! ### Block scales (R22) -/

theorem e8m0_of_lt {x : Nat} (hx : x < 0xFF) : e8m0 x = .fin false 1 ((x : Int) - 127) :=
  if_neg (Nat.ne_of_lt hx)

theorem decodeMx_nanScale (f : Fmt) (code : Nat) : decodeMx f code 0xFF = .nan := if_pos rfl

theorem decodeP4x_nanScale {rd : Nat → Nat} (annex : Nat → Nat) (ax : Nat) (h : rd 16 = 0xFF) :
    (decodeP4x rd annex ax).1 = List.replicate 32 .nan := by
  simp only [decodeP4x, h, true_or, if_true, List.map_const', List.length_range]

/-- Settles O5: a scale byte of 0xFF is the first thing either decoder looks at. -/
theorem e8m0Scale : Obligations.E8m0Scale := by
  refine ⟨fun x hx => e8m0_of_lt hx, rfl, decodeMx_nanScale, fun rd annex ax i hscale hi => ?_⟩
  rw [decodeP4x_nanScale annex ax hscale, List.getElem?_replicate, if_pos hi]

/-! ### MXINT8 (R26) -/

theorem decodeMx_mxint8 (code : Nat) {scale : Nat} (h : scale < 0xFF) :
    decodeMx .mxint8 code scale = .fin (decide (sext code 8 < 0)) (sext code 8).natAbs ((scale : Int) - 127 - 6) := by
  simp only [decodeMx, if_neg (Nat.ne_of_lt h), Fp.ofInt, Fp.mul, Bool.xor_false, Nat.mul_one, Int.zero_add]

/-- The rounded integer, clamped to ±127, that an MXINT8 code stands for. -/
def mxInt8Val (r : Rnd) (s : Bool) (m : Nat) (e x : Int) : Int :=
  let c : Nat := min (roundQ r m 1 (e - x) (-6)) 127
  if s then -(c : Int) else c

theorem encMxInt8_code (r : Rnd) (s : Bool) (m : Nat) (e x : Int) :
    (encMxInt8 r (.fin s m e) x).1 = wrapInt (mxInt8Val r s m e x) 8 := rfl

theorem natAbs_mxInt8Val (r : Rnd) (s : Bool) (m : Nat) (e x : Int) :
    (mxInt8Val r s m e x).natAbs = min (roundQ r m 1 (e - x) (-6)) 127 := by
  cases s <;> simp only [mxInt8Val, Bool.false_eq_true, if_true, if_false] <;> omega

theorem mxInt8Val_neg_iff {r : Rnd} {s : Bool} {m : Nat} {e x : Int} (h : mxInt8Val r s m e x ≠ 0) :
    mxInt8Val r s m e x < 0 ↔ s = true := by
  cases s <;> simp only [mxInt8Val, Bool.false_eq_true, if_true, if_false, iff_true, iff_false] at h ⊢ <;> omega

theorem sext_encMxInt8 (r : Rnd) (s : Bool) (m : Nat) (e x : Int) :
    sext (encMxInt8 r (.fin s m e) x).1 8 = mxInt8Val r s m e x := by
  have habs := natAbs_mxInt8Val r s m e x
  rw [encMxInt8_code]
  exact sext_wrapInt (n := 7) (by omega) (by omega)

/-- Settles O6: a code reads back as the clamped integer it was written from, and 0x80 would read back as −128. -/
theorem mxInt8 : Obligations.MxInt8 := by
  refine ⟨fun code scale hcode hscale => ?_, fun r s m e x => ?_⟩
  · have hval : sext code 8 = if 128 ≤ code then (code : Int) - 256 else code := by
      rw [sext_of_lt hcode]
      split <;> split <;> omega
    rw [decodeMx_mxint8 code hscale, hval]
    split <;> simp only [Fp.fin.injEq, decide_eq_decide, and_true] <;> omega
  · have habs := natAbs_mxInt8Val r s m e x
    have hread := sext_encMxInt8 r s m e x
    refine ⟨?_, fun h80 => ?_, ?_, fun hne => ?_⟩
    · rw [encMxInt8_code]
      exact wrapInt_lt _ 8
    · have h128 : sext 0x80 8 = -128 := by decide
      rw [h80, h128] at hread
      omega
    · rw [hread, habs]
    · rw [hread] at hne ⊢
      exact Bool.eq_iff_iff.mpr (decide_eq_true_iff.trans (mxInt8Val_neg_iff hne))

/-! ### Magnitudes as rationals -/

/-- The rational m × 2^e, in which the model's exact comparisons and roundings are stated. -/
def mag (m : Nat) (e : Int) : Rat := (m : Rat) * (2 : Rat) ^ e

theorem two_zpow_pos (e : Int) : (0 : Rat) < 2 ^ e := Rat.zpow_pos (by decide)

theorem mag_add (m : Nat) (e g : Int) : mag m (e + g) = mag m e * 2 ^ g := by
  simp only [mag, Rat.zpow_add (show (2 : Rat) ≠ 0 by decide), Rat.mul_assoc]

/-- The significand may take up a power of two of the exponent. -/
theorem mag_shift (m k : Nat) (e : Int) : mag (m * 2 ^ k) e = mag m (e + k) := by
  have hpow : ((2 ^ k : Nat) : Rat) = (2 : Rat) ^ (k : Int) := by
    rw [Rat.zpow_natCast, Rat.natCast_pow]
    rfl
  rw [mag_add, mag, mag, Rat.natCast_mul, hpow, Rat.mul_assoc, Rat.mul_assoc, Rat.mul_comm (2 ^ (k : Int))]

theorem mag_zero (e : Int) : mag 0 e = 0 := Rat.zero_mul _

theorem mag_lt_mag_iff {a b : Nat} {e : Int} : mag a e < mag b e ↔ a < b :=
  (Rat.mul_lt_mul_right (two_zpow_pos e)).trans Rat.natCast_lt_natCast

theorem mag_le_mag_iff {a b : Nat} {e : Int} : mag a e ≤ mag b e ↔ a ≤ b := by
  rw [← Rat.not_lt, mag_lt_mag_iff, Nat.not_lt]

theorem mag_nonneg (m : Nat) (e : Int) : 0 ≤ mag m e := mag_zero e ▸ mag_le_mag_iff.mpr (Nat.zero_le m)

theorem mag_pos {m : Nat} (hm : m ≠ 0) (e : Int) : 0 < mag m e := mag_zero e ▸ mag_lt_mag_iff.mpr (Nat.pos_of_ne_zero hm)

/-- A larger exponent is a doubled significand: magnitudes rise with it. -/
theorem mag_strictMono {m : Nat} (hm : m ≠ 0) {e g : Int} (h : e < g) : mag m e < mag m g := by
  obtain ⟨k, rfl⟩ : ∃ k : Nat, g = e + k := ⟨(g - e).toNat, by omega⟩
  rw [← mag_shift, mag_lt_mag_iff]
  exact (Nat.lt_mul_iff_one_lt_right (Nat.pos_of_ne_zero hm)).mpr (Nat.one_lt_two_pow (by omega))

theorem mag_mono (m : Nat) {e g : Int} (h : e ≤ g) : mag m e ≤ mag m g := by
  obtain ⟨k, rfl⟩ : ∃ k : Nat, g = e + k := ⟨(g - e).toNat, by omega⟩
  rw [← mag_shift, mag_le_mag_iff]
  exact Nat.le_mul_of_pos_right m (Nat.two_pow_pos k)

theorem mag_sub_le_iff {a b : Nat} {e g x : Int} : mag a (e - x) ≤ mag b g ↔ mag a e ≤ mag b (g + x) := by
  have hpos := two_zpow_pos x
  have he : mag a e = mag a (e - x) * 2 ^ x := by rw [← mag_add, Int.sub_add_cancel]
  rw [he, mag_add]
  exact ⟨fun h => Rat.mul_le_mul_of_nonneg_right h (Rat.le_of_lt hpos), fun h => Rat.le_of_mul_le_mul_right h hpos⟩

/-- `magLt` compares magnitudes. -/
theorem magLt_iff {a b : Nat} {ea eb : Int} : magLt a ea b eb = true ↔ mag a ea < mag b eb := by
  unfold magLt
  split <;> rw [decide_eq_true_eq, ← mag_lt_mag_iff, mag_shift]
  case isTrue h => rw [show ea + ((eb - ea).toNat : Int) = eb by omega]
  case isFalse h => rw [show eb + ((ea - eb).toNat : Int) = ea by omega]

theorem magLt_eq_false_iff {a b : Nat} {ea eb : Int} : magLt a ea b eb = false ↔ mag b eb ≤ mag a ea := by
  rw [← Bool.not_eq_true, magLt_iff, Rat.not_lt]

/-- The folded quotient n/d × 2^(e − q) compares with a as n × 2^e does with a × d × 2^q. -/
theorem foldExp_le_iff {n d a : Nat} {e q : Int} :
    (foldExp n d (e - q)).1 ≤ a * (foldExp n d (e - q)).2 ↔ mag n e ≤ mag (a * d) q := by
  unfold foldExp
  split <;> dsimp only
  case isTrue h =>
    rw [← mag_le_mag_iff (e := q), mag_shift, show q + ((e - q).toNat : Int) = e by omega]
  case isFalse h =>
    rw [← Nat.mul_assoc, ← mag_le_mag_iff (e := e), mag_shift, show e + ((-(e - q)).toNat : Int) = q by omega]

/-! ### Logarithms -/

/-- The test of `log2Rat` asks whether n/d reaches 2^k. -/
theorem log2Test_iff (n d : Nat) (k e : Int) :
    (if 0 ≤ k then decide (d * 2 ^ k.toNat ≤ n) else decide (d ≤ n * 2 ^ (-k).toNat)) = true ↔
      mag d (k + e) ≤ mag n e := by
  split <;> rw [decide_eq_true_eq]
  case isTrue h =>
    rw [← mag_le_mag_iff (e := e), mag_shift, show e + (k.toNat : Int) = k + e by omega]
  case isFalse h =>
    rw [← mag_le_mag_iff (e := k + e), mag_shift, show k + e + ((-k).toNat : Int) = e by omega]

theorem mag_log2_le {n : Nat} (hn : n ≠ 0) (e : Int) : mag 1 (e + n.log2) ≤ mag n e := by
  rw [← mag_shift, Nat.one_mul, mag_le_mag_iff]
  exact Nat.log2_self_le hn

theorem mag_lt_log2 (n : Nat) (e : Int) : mag n e < mag 1 (e + n.log2 + 1) := by
  rw [show e + n.log2 + 1 = e + (n.log2 + 1 : Nat) by omega, ← mag_shift, Nat.one_mul, mag_lt_mag_iff]
  exact Nat.lt_log2_self

/-- `log2Rat` is floor(log2(n / d)). -/
theorem log2Rat_spec {n d : Nat} (hn : n ≠ 0) (hd : d ≠ 0) (e : Int) :
    mag d (log2Rat n d + e) ≤ mag n e ∧ mag n e < mag d (log2Rat n d + e + 1) := by
  have htest := log2Test_iff n d ((n.log2 : Int) - d.log2) e
  generalize hk : (n.log2 : Int) - d.log2 = k at htest
  by_cases hge : mag d (k + e) ≤ mag n e
  · have hlog : log2Rat n d = k := by simp only [log2Rat, hk, htest.mpr hge, if_true]
    rw [hlog]
    refine ⟨hge, Std.lt_of_lt_of_le (mag_lt_log2 n e) ?_⟩
    rw [show e + n.log2 + 1 = k + e + 1 + d.log2 by omega]
    exact mag_log2_le hd _
  · have hlog : log2Rat n d = k - 1 := by
      simp only [log2Rat, hk, Bool.eq_false_iff.mpr (mt htest.mp hge), Bool.false_eq_true, if_false]
    rw [hlog, show k - 1 + e + 1 = k + e by omega]
    refine ⟨Rat.le_of_lt (Std.lt_of_lt_of_le (mag_lt_log2 d _) ?_), Rat.not_le.mp hge⟩
    rw [show k - 1 + e + d.log2 + 1 = e + n.log2 by omega]
    exact mag_log2_le hn e

/-- `ceilLog2Div` gives the smallest X with a ≤ c × 2^X: the bound holds at X and fails at X − 1. -/
theorem ceilLog2Div_spec (s : Bool) {m c : Nat} (e : Int) (hm : m ≠ 0) (hc : c ≠ 0) :
    mag m e ≤ mag c (ceilLog2Div (.fin s m e) c) ∧ mag c (ceilLog2Div (.fin s m e) c - 1) < mag m e := by
  obtain ⟨hlo, hhi⟩ := log2Rat_spec hm hc e
  have hfold := foldExp_le_iff (n := m) (d := c) (a := 1) (e := e) (q := log2Rat m c + e)
  rw [Nat.one_mul, Nat.one_mul] at hfold
  simp only [ceilLog2Div, if_neg hm, hfold]
  split
  case isTrue h => exact ⟨h, Std.lt_of_lt_of_le (mag_strictMono hc (by omega)) hlo⟩
  case isFalse h => exact ⟨Rat.le_of_lt hhi, by rw [Int.add_sub_cancel]; exact Rat.not_le.mp h⟩

/-! ### Rounding -/

theorem foldExp_snd_pos (n : Nat) {d : Nat} (hd : d ≠ 0) (e : Int) : 0 < (foldExp n d e).2 := by
  have hpos := Nat.pos_of_ne_zero hd
  unfold foldExp
  split
  · exact hpos
  · exact Nat.mul_pos hpos (Nat.two_pow_pos _)

/-- Every mode rounds to the integer below or to the one above. -/
theorem roundQ_le_succ (r : Rnd) (n d : Nat) (e q : Int) :
    roundQ r n d e q ≤ (foldExp n d (e - q)).1 / (foldExp n d (e - q)).2 + 1 := by
  cases r <;> simp only [roundQ]
  case rne =>
    split
    · omega
    · split <;> omega
  case rtz => omega
  case sr z => split <;> omega

/-- No mode moves an integer (for SR: a random word has 32 bits, R47). -/
theorem roundQ_of_dvd {r : Rnd} (hr : ∀ z, r = .sr z → z < 2 ^ 32) {n d a : Nat} {e q : Int} (hd : d ≠ 0)
    (h : (foldExp n d (e - q)).1 = a * (foldExp n d (e - q)).2) : roundQ r n d e q = a := by
  have hD := foldExp_snd_pos n hd (e - q)
  cases r <;> simp only [roundQ, h, Nat.mul_mod_left, Nat.mul_div_cancel a hD, Nat.mul_zero, Nat.zero_mul, Nat.zero_div,
    Nat.zero_add, hD, if_true]
  case sr z => exact if_neg (Nat.not_le.mpr (hr z rfl))

/-- Rounding does not pass an integer that the magnitude does not pass. -/
theorem roundQ_le {r : Rnd} (hr : ∀ z, r = .sr z → z < 2 ^ 32) {n d a : Nat} {e q : Int}
    (hd : d ≠ 0) (h : mag n e ≤ mag (a * d) q) : roundQ r n d e q ≤ a := by
  obtain hlt | heq := Nat.lt_or_eq_of_le (foldExp_le_iff.mpr h)
  · have hdiv := Nat.div_lt_of_lt_mul (Nat.mul_comm a _ ▸ hlt)
    have hsucc := roundQ_le_succ r n d e q
    omega
  · exact Nat.le_of_eq (roundQ_of_dvd hr hd heq)

/-- The exponent of the grid that `roundMag` rounds n/d × 2^e on: that of its binade, or of the subnormals below it. -/
def roundExp (f : FloatFmt) (n d : Nat) (e : Int) : Int :=
  (if log2Rat n d + e < f.emin then f.emin else log2Rat n d + e) - f.mbits

/-- The carry into the next binade leaves the rounded magnitude as it is. -/
theorem mag_roundMag (f : FloatFmt) (r : Rnd) {n : Nat} (hn : n ≠ 0) (d : Nat) (e : Int) :
    mag (roundMag f r n d e).1 (roundMag f r n d e).2 = mag (roundQ r n d e (roundExp f n d e)) (roundExp f n d e) := by
  have hround : roundMag f r n d e =
      if roundQ r n d e (roundExp f n d e) = 2 ^ (f.mbits + 1) then (2 ^ f.mbits, roundExp f n d e + 1)
      else (roundQ r n d e (roundExp f n d e), roundExp f n d e) := if_neg hn
  rw [hround]
  split
  case isTrue hcarry => rw [hcarry, Nat.pow_succ]; exact (mag_shift (2 ^ f.mbits) 1 _).symm
  case isFalse => rfl

/-- Below the binade above a × 2^g, the grid is at least as fine as that of a × 2^g. -/
theorem roundExp_le {f : FloatFmt} {n d a : Nat} {e g : Int} (hn : n ≠ 0) (hd : d ≠ 0)
    (ha : a < 2 ^ (f.mbits + 1)) (hg : f.emin - f.mbits ≤ g) (h : mag n e ≤ mag (a * d) g) : roundExp f n d e ≤ g := by
  have hlog : log2Rat n d + e < g + (f.mbits + 1 : Nat) := by
    refine Int.not_le.mp fun hge => Rat.not_le.mpr ?_ h
    have htop : mag (2 ^ (f.mbits + 1) * d) g ≤ mag n e := by
      rw [Nat.mul_comm, mag_shift]
      exact Rat.le_trans (mag_mono d hge) (log2Rat_spec hn hd e).1
    exact Std.lt_of_lt_of_le (mag_lt_mag_iff.mpr ((Nat.mul_lt_mul_right (Nat.pos_of_ne_zero hd)).mpr ha)) htop
  unfold roundExp
  split <;> omega

/-- A magnitude up to a value a × 2^g of the format's grid is still at most that value once it is rounded. -/
theorem roundMag_le {f : FloatFmt} {r : Rnd} (hr : ∀ z, r = .sr z → z < 2 ^ 32) {n d a : Nat} {e g : Int} (hd : d ≠ 0)
    (ha : a < 2 ^ (f.mbits + 1)) (hg : f.emin - f.mbits ≤ g) (h : mag n e ≤ mag (a * d) g) :
    mag (roundMag f r n d e).1 (roundMag f r n d e).2 ≤ mag a g := by
  by_cases hn : n = 0
  · rw [roundMag, if_pos hn, mag_zero]
    exact mag_nonneg a g
  · have hq := roundExp_le hn hd ha hg h
    have hgrid (b : Nat) : mag b g = mag (b * 2 ^ (g - roundExp f n d e).toNat) (roundExp f n d e) := by
      rw [mag_shift, show roundExp f n d e + ((g - roundExp f n d e).toNat : Int) = g by omega]
    rw [mag_roundMag f r hn, hgrid, mag_le_mag_iff]
    exact roundQ_le hr hd (by rwa [Nat.mul_right_comm, ← hgrid])

theorem FloatFmt.maxFin_lt (f : FloatFmt) : f.maxFin.1 < 2 ^ (f.mbits + 1) := by
  have hpos := Nat.two_pow_pos (f.mbits + 1)
  unfold FloatFmt.maxFin
  split <;> dsimp only <;> omega

/-- A conversion saturates only beyond the format's largest finite value (R42). -/
theorem convRat_sat {f : FloatFmt} (hf : f.emin - f.mbits ≤ f.maxFin.2) {r : Rnd} (hr : ∀ z, r = .sr z → z < 2 ^ 32)
    (s : Bool) {n d : Nat} {e : Int} (hd : d ≠ 0) (h : mag n e ≤ mag (f.maxFin.1 * d) f.maxFin.2) :
    (convRat f r s n d e).2.sat = 0 := by
  have hle := roundMag_le hr hd f.maxFin_lt hf h
  simp only [convRat, magLt_eq_false_iff.mpr hle, Bool.false_eq_true, if_false]

/-- An E2M1 element does not saturate under the exponent x while its magnitude is at most 6 × 2^x. -/
theorem encElem_fE2M1_sat {r : Rnd} (hr : ∀ z, r = .sr z → z < 2 ^ 32) (s : Bool) {m : Nat} {e x : Int}
    (h : mag m e ≤ mag 6 x) : (encElem fE2M1 r (.fin s m e) 1 1 x).2.sat = 0 := by
  refine convRat_sat (by decide) hr s Nat.one_ne_zero ?_
  have hsix : mag 6 x = mag 3 (1 + x) := (mag_shift 3 1 x).trans (by rw [Int.add_comm]; rfl)
  rw [Nat.mul_one, mag_sub_le_iff]
  exact hsix ▸ h

/-! ### The largest magnitude of a block -/

theorem Fp.lt_fin_iff {m n : Nat} {e g : Int} : Fp.lt (.fin false m e) (.fin false n g) = true ↔ mag m e < mag n g := by
  by_cases hm : m = 0 <;> by_cases hn : n = 0
  · subst hm hn
    rw [mag_zero, mag_zero]
    exact iff_of_false Bool.false_ne_true Rat.lt_irrefl
  · subst hm
    rw [mag_zero]
    exact iff_of_true (by simp only [Fp.lt, hn, and_false, if_false, if_true, Bool.not_false]) (mag_pos hn g)
  · subst hn
    rw [mag_zero]
    exact iff_of_false (by simp only [Fp.lt, hm, and_true, if_false, if_true, Bool.false_eq_true, not_false_eq_true])
      (Rat.not_lt.mpr (mag_nonneg m e))
  · simp only [Fp.lt, hm, hn, and_self, if_false, magLt_iff]

/-- The larger of two magnitudes, held as the model holds a running maximum. -/
theorem maxIgnNaN_fin (m n : Nat) (e g : Int) :
    maxIgnNaN (.fin false m e) (.fin false n g) = if mag m e < mag n g then .fin false n g else .fin false m e := by
  simp only [maxIgnNaN, Fp.isNaN, Bool.false_eq_true, if_false, Fp.lt_fin_iff]

/-- A running maximum stays finite and is at least where it began and each magnitude it has met. -/
theorem foldl_maxIgnNaN (l : List Fp) (hfin : ∀ v ∈ l, v.isFin = true) (m : Nat) (e : Int) :
    ∃ n g, l.foldl (fun a v => maxIgnNaN a v.abs) (.fin false m e) = .fin false n g ∧ mag m e ≤ mag n g ∧
      ∀ s m' e', .fin s m' e' ∈ l → mag m' e' ≤ mag n g := by
  induction l generalizing m e with
  | nil => exact ⟨m, e, rfl, Rat.le_refl, fun _ _ _ h => absurd h List.not_mem_nil⟩
  | cons v l ih =>
    obtain ⟨hv, hl⟩ := List.forall_mem_cons.mp hfin
    cases v with
    | nan => cases hv
    | inf s => cases hv
    | fin s a b =>
      obtain ⟨m₁, e₁, hmax, hm, ha⟩ : ∃ m₁ e₁, maxIgnNaN (.fin false m e) (.fin false a b) = .fin false m₁ e₁ ∧
          mag m e ≤ mag m₁ e₁ ∧ mag a b ≤ mag m₁ e₁ := by
        rw [maxIgnNaN_fin]
        split
        case isTrue h => exact ⟨a, b, rfl, Rat.le_of_lt h, Rat.le_refl⟩
        case isFalse h => exact ⟨m, e, rfl, Rat.le_refl, Rat.not_lt.mp h⟩
      obtain ⟨n, g, hfold, hstart, hmem⟩ := ih hl m₁ e₁
      refine ⟨n, g, by rw [List.foldl_cons, Fp.abs, hmax, hfold], Rat.le_trans hm hstart, fun s' m' e' h => ?_⟩
      obtain heq | h := List.mem_cons.mp h
      · cases heq; exact Rat.le_trans ha hstart
      · exact hmem s' m' e' h

theorem isFin_of_not_blockBad {l : List Fp} (hbad : blockBad l = false) {v : Fp} (hv : v ∈ l) : v.isFin = true := by
  simpa using List.any_eq_false.mp hbad v hv

theorem mag_le_blockMax {l : List Fp} (hbad : blockBad l = false) {s t : Bool} {m n : Nat} {e g : Int}
    (hmax : blockMax l = .fin t n g) (hmem : .fin s m e ∈ l) : mag m e ≤ mag n g := by
  obtain ⟨n', g', hfold, -, hle⟩ := foldl_maxIgnNaN l (fun _ => isFin_of_not_blockBad hbad) 0 0
  obtain ⟨rfl, rfl, rfl⟩ := Fp.fin.inj (hmax.symm.trans hfold)
  exact hle s m e hmem

/-! ### P4 (R27) -/

theorem clampX_spec (x : Int) :
    -127 ≤ clampX x ∧ clampX x ≤ 127 ∧ (clampX x < 127 → x ≤ clampX x) ∧ (-127 < clampX x → clampX x ≤ x) := by
  unfold clampX
  split
  · omega
  · split <;> omega

/-- The shared exponent of a P4 block. -/
def p4Exp (l : List Fp) : Int := if (blockMax l).isZero then -127 else clampX (ceilLog2Div (blockMax l) 6)

theorem encodeMx_p4_scale (rnd : Nat → Rnd) {l : List Fp} (hbad : blockBad l = false) :
    (encodeMx .p4 rnd l).2.1 = (p4Exp l + 127).toNat := by
  simp only [encodeMx, hbad, p4Exp, Bool.false_eq_true, if_false, if_true]

theorem foldl_add_sat {cs : List (Nat × ConvEv)} (h : ∀ c ∈ cs, c.2.sat = 0) (ev : ConvEv) :
    (cs.foldl (fun acc c => acc.add c.2) ev).sat = ev.sat := by
  induction cs generalizing ev with
  | nil => rfl
  | cons c cs ih =>
    obtain ⟨hc, hcs⟩ := List.forall_mem_cons.mp h
    rw [List.foldl_cons, ih hcs, ConvEv.add, hc, Nat.add_zero]

theorem encodeMx_p4_sat {rnd : Nat → Rnd} {l : List Fp} (hbad : blockBad l = false)
    (h : ∀ v ∈ l, ∀ i, (encElem fE2M1 (rnd i) v 1 1 (p4Exp l)).2.sat = 0) :
    (encodeMx .p4 rnd l).2.2.sat = 0 := by
  simp only [encodeMx, hbad, Bool.false_eq_true, if_false, if_true, Fmt.elem]
  refine foldl_add_sat (fun c hc => ?_) {}
  obtain ⟨⟨v, i⟩, hvi, rfl⟩ := List.mem_map.mp hc
  exact h v (List.fst_mem_of_mem_zipIdx hvi) i

/-- Below the upper clamp 6 × 2^X reaches the block's maximum; above the lower clamp 3 × 2^X does not. -/
theorem p4Exp_spec {l : List Fp} {s : Bool} {m : Nat} {e : Int} (hmax : blockMax l = .fin s m e) (hm : m ≠ 0) :
    -127 ≤ p4Exp l ∧ p4Exp l ≤ 127 ∧ (p4Exp l < 127 → mag m e ≤ mag 6 (p4Exp l)) ∧
      (-127 < p4Exp l → mag 3 (p4Exp l) < mag m e) := by
  have hexp : p4Exp l = clampX (ceilLog2Div (.fin s m e) 6) := by
    rw [p4Exp, hmax]
    exact if_neg (mt beq_iff_eq.mp hm)
  obtain ⟨hceil, hfloor⟩ := ceilLog2Div_spec s e hm (show 6 ≠ 0 by decide)
  obtain ⟨hlo, hhi, hup, hdown⟩ := clampX_spec (ceilLog2Div (.fin s m e) 6)
  rw [← hexp] at hlo hhi hup hdown
  refine ⟨hlo, hhi, fun h => Rat.le_trans hceil (mag_mono 6 (hup h)), fun h => ?_⟩
  have hsix : mag 6 (p4Exp l - 1) = mag 3 (p4Exp l) := (mag_shift 3 1 _).trans (by rw [Int.natCast_one, Int.sub_add_cancel])
  rw [← hsix]
  exact Std.lt_of_le_of_lt (mag_mono 6 (Int.sub_le_sub_right (hdown h) 1)) hfloor

/-- Settles O7: every magnitude is at most the block's, 6 is on the E2M1 grid, and no rounding passes a grid value. -/
theorem p4SharedExponent : Obligations.P4SharedExponent := by
  intro rnd l hrnd hbad
  refine ⟨fun hzero => ?_, fun s m e hmax hm => ?_⟩
  · rw [encodeMx_p4_scale rnd hbad, p4Exp, if_pos hzero]
    rfl
  · obtain ⟨hlo, hhi, hsix, hthree⟩ := p4Exp_spec hmax hm
    refine ⟨p4Exp l, hlo, hhi, encodeMx_p4_scale rnd hbad, fun h => ?_, fun h => magLt_iff.mpr (hthree h)⟩
    refine ⟨magLt_eq_false_iff.mpr (hsix h), encodeMx_p4_sat hbad fun v hv i => ?_⟩
    cases v with
    | nan => cases isFin_of_not_blockBad hbad hv
    | inf t => cases isFin_of_not_blockBad hbad hv
    | fin t n g => exact encElem_fE2M1_sat (hrnd i) t (Rat.le_trans (mag_le_blockMax hbad hmax hv) (hsix h))

end Sys2Proof.Machine
end

section
/-! PROOFS. Rejections at issue (R91) and the operand roles of an MMA (R70): when the checks of a kind hold a reason, no
descriptor is accepted, and the command that meets it rejects with the lowest one. -/
namespace Sys2Proof.Machine

/-! ### Reasons and rejections (R91) -/

theorem mem_rj {c : Bool} {r x : Nat} : x ∈ rj c r ↔ c = true ∧ x = r := by
  cases c with
  | false => simp only [rj, Bool.false_eq_true, if_false, List.not_mem_nil, false_and]
  | true => simp only [rj, if_true, List.mem_singleton, true_and]

theorem lowest_ne_none_of_mem {l : List Nat} {r : Nat} (h : r ∈ l) : lowest l ≠ none := by
  cases l with
  | nil => cases h
  | cons a l =>
    rw [lowest]
    split <;> exact Option.some_ne_none _

/-- A reason of the kind's own check keeps a descriptor from being accepted. -/
theorem State.accepts_eq_false_of_reason {s : State} {tile pos r : Nat} {c : DCtx} {mine check}
    (hc : s.ctxOf tile pos = c) (h : r ∈ (check s c).reasons) : s.accepts tile pos mine check = false := by
  subst hc
  exact Bool.and_eq_false_imp.mpr fun _ => Option.isNone_eq_false_iff.mpr (Option.isSome_iff_ne_none.mpr
    (lowest_ne_none_of_mem (List.mem_append_left _ (List.mem_append_right _ h))))

/-- A descriptor that may issue, is neither deferred nor frozen and has a lowest reason is rejected with it. -/
theorem State.issueWith_rejects {s : State} {tile pos r : Nat} {c : DCtx} {ra : List Nat} {mine check run}
    (hc : s.ctxOf tile pos = c) (hra : s.recAddrs c (check s c).recs = ra)
    (htile : isTile tile = true) (hissue : s.canIssue c.site pos = true) (hmine : mine c.d = true)
    (hdefer : s.deferActive c = false) (hfrozen : s.frozenSkip c = .no) (hrec : ra.any s.targetWaits = false)
    (hlow : lowest (s.commonReasons c ++ (check s c).reasons ++ s.recReasons c ra) = some r) :
    s.issueWith tile pos mine check run = (s.reportPoison c ra).reject tile c.site pos c.d r ⟨pos, false, false⟩ := by
  have hready : ¬ (isTile tile = false ∨ s.canIssue c.site pos = false ∨ mine c.d = false) := by
    simp only [htile, hissue, hmine, Bool.true_eq_false, or_self, not_false_eq_true]
  have hstays : ¬ (s.deferActive c = true ∧ (s.tile c.site).overflowed.contains pos = false ∧ s.frozenSkip c = .no) := by
    simp only [hdefer, Bool.false_eq_true, false_and, not_false_eq_true]
  subst hc hra
  unfold State.issueWith
  dsimp only
  rw [if_neg hready, if_neg hstays]
  simp only [hfrozen, hrec, hlow, Bool.false_eq_true, if_false]

/-! ### Operand roles (R70) -/

/-- The operand formats that R70 forbids. -/
def BadRoles (a b : Fmt) : Prop :=
  a = .t2 ∨ (a = .fp32 ∧ b ≠ .fp32) ∨ (a ≠ .fp32 ∧ b = .fp32) ∨ a.isInt = true ∨ b.isInt = true

/-- The model's test of R70, where one operand alone is FP32 exactly when the two comparisons differ. -/
theorem roleTest_iff {a b : Fmt} :
    (a == .t2 || (a == .fp32) != (b == .fp32) || a.isInt || b.isInt) = true ↔ BadRoles a b := by
  have hpair : ((a == .fp32) != (b == .fp32)) = true ↔ (a = .fp32 ∧ b ≠ .fp32) ∨ (a ≠ .fp32 ∧ b = .fp32) := by
    rw [bne_iff_ne, ne_eq, Bool.eq_iff_iff, beq_iff_eq, beq_iff_eq]
    by_cases ha : a = .fp32 <;> by_cases hb : b = .fp32 <;> simp only [ha, hb, ne_eq, not_true_eq_false,
      not_false_eq_true, iff_true, true_iff, iff_self, and_true, and_false, or_true, or_false]
  simp only [Bool.or_eq_true, hpair, beq_iff_eq, BadRoles, or_assoc]

theorem not_fmtRole_mem_rj {c : Bool} {r : Nat} (h : rjFmtRole ≠ r) : rjFmtRole ∉ rj c r :=
  fun hmem => h (mem_rj.mp hmem).2

theorem fmtRole_mem_rj {c : Bool} : rjFmtRole ∈ rj c rjFmtRole ↔ c = true :=
  mem_rj.trans (and_iff_left rfl)

/-- The reasons of other codes that an MMA can have. -/
theorem fmtRole_ne_mmaReasons : rjFmtRole ≠ rjKindField ∧ rjFmtRole ≠ rjFmtRsvd ∧ rjFmtRole ≠ rjRndRsvd ∧
    rjFmtRole ≠ rjFmtScale ∧ rjFmtRole ≠ rjBadLayout ∧ rjFmtRole ≠ rjAddrRange := by
  decide

/-- FMT_ROLE comes from the operands' pair or from an integer format of a stored output, and from nothing else. -/
theorem fmtRole_mem_mmaReasons {d : Nat} {a b : Fmt} (ha : mmaFmtA d = some a) (hb : mmaFmtB d = some b) :
    rjFmtRole ∈ mmaReasons d ↔ BadRoles a b ∨ (mmaOut d = 1 ∧ ∃ f, mmaFmtC d = some f ∧ f.isInt = true) := by
  obtain ⟨hkind, hrsvd, hrnd, hscale, hlayout, haddr⟩ := fmtRole_ne_mmaReasons
  simp only [mmaReasons, ha, hb, List.mem_append, fmtRole_mem_rj, not_fmtRole_mem_rj hkind, not_fmtRole_mem_rj hrsvd,
    not_fmtRole_mem_rj hrnd, not_fmtRole_mem_rj hscale, not_fmtRole_mem_rj hlayout, not_fmtRole_mem_rj haddr,
    roleTest_iff, beq_iff_eq, false_or, or_false]
  refine or_congr_right ?_
  by_cases hstore : mmaOut d = 1
  · rw [if_pos hstore, and_iff_right hstore]
    cases hc : mmaFmtC d with
    | none => simp only [List.not_mem_nil, reduceCtorEq, false_and, exists_false]
    | some f =>
      simp only [List.mem_append, fmtRole_mem_rj, not_fmtRole_mem_rj hlayout, not_fmtRole_mem_rj haddr, or_false,
        Option.some.injEq, exists_eq_left']
  · rw [if_neg hstore]
    simp only [hstore, List.not_mem_nil, false_and]

theorem exec_mma (tile pos : Nat) (s : State) : exec (.mma tile pos) s =
    .next (s.issueWith tile pos (fun d => dKind d == 1 || unitsOf (dKind d) == 0) mmaCheck mmaRun) := rfl

/-- Settles O12: FMT_ROLE stands among the reasons for a pair that R70 forbids, and for a kept output for no other. -/
theorem mmaOperandRoles : Obligations.MmaOperandRoles := by
  intro s tile pos fa fb c bad ra ha hb
  have hrole : rjFmtRole ∈ (mmaCheck s c).reasons ↔
      bad ∨ (mmaOut c.d = 1 ∧ ∃ f, mmaFmtC c.d = some f ∧ f.isInt = true) := fmtRole_mem_mmaReasons ha hb
  refine ⟨fun hbad => ?_, fun hgood hkept hmem => ?_⟩
  · have hmem := hrole.mpr (.inl hbad)
    refine ⟨hmem, fun mine => State.accepts_eq_false_of_reason rfl hmem, ?_⟩
    intro htile hissue hkind hdefer hfrozen hrec hlow
    have hmine : (dKind c.d == 1 || unitsOf (dKind c.d) == 0) = true :=
      Bool.or_eq_true_iff.mpr (.inl (beq_iff_eq.mpr hkind))
    rw [exec_mma]
    exact congrArg _ (State.issueWith_rejects rfl rfl htile hissue hmine hdefer hfrozen hrec hlow)
  · rcases hrole.mp hmem with hbad | ⟨hstored, -⟩
    · exact hgood hbad
    · omega

end Sys2Proof.Machine
end

section
/-! PROOFS. Attention masks: the three grounds of R198 in whole numbers, and the values x of R199 read by row and key. -/
namespace Sys2Proof.Machine

/-! ### The grounds of R198 -/

/-- The 16-bit segment ID of row or key n of the IDs at a base. -/
def segId (rd : Nat → Nat) (base n : Nat) : Nat := rd (base + 2 * n) + 256 * rd (base + 2 * n + 1)

/-- The model's test of the window. A natural difference stops at 0, so the signed distance of R198 reaches a window that is
not 0 only where the key does not come after the query, which the test asks beside the difference. -/
theorem windowTest_iff {window q k : Nat} :
    (window != 0 && decide (window ≤ q - k) && decide (k ≤ q)) = true ↔ window ≠ 0 ∧ (window : Int) ≤ (q : Int) - (k : Int) := by
  simp only [Bool.and_eq_true, bne_iff_ne, decide_eq_true_eq]
  omega

theorem attMasked_iff {rd : Nat → Nat} {d window i j : Nat} :
    attMasked rd d window i j = true ↔
      (atCausal d = true ∧ atQpos d + i < atKpos d + j) ∨
      (window ≠ 0 ∧ (window : Int) ≤ ((atQpos d + i : Nat) : Int) - ((atKpos d + j : Nat) : Int)) ∨
      (atSegEn d = true ∧ segId rd (atSegQ d) i ≠ segId rd (atSegK d) j) := by
  simp only [attMasked, segId, Bool.or_eq_true, windowTest_iff, Bool.and_eq_true (atCausal d), Bool.and_eq_true (atSegEn d),
    decide_eq_true_eq, bne_iff_ne, or_assoc]

/-! ### The values x of R199 -/

/-- Row i of x, from row i of the logits. -/
def attXRow (rd : Nat → Nat) (d window : Nat) (scale : Fp) (i : Nat) (row : List Fp) : List Fp :=
  row.zipIdx.map fun (v, j) => if attMasked rd d window i j then .inf true else rne32 (v.mul scale)

theorem getElem?_attX (rd : Nat → Nat) (d window : Nat) (scale : Fp) (l : List (List Fp)) (i : Nat) :
    (attX rd d window scale l)[i]? = l[i]?.map (attXRow rd d window scale i) := by
  rw [attX, List.getElem?_map, List.getElem?_zipIdx, Option.map_map, Nat.zero_add]
  rfl

theorem getElem?_attXRow (rd : Nat → Nat) (d window : Nat) (scale : Fp) (i : Nat) (row : List Fp) (j : Nat) :
    (attXRow rd d window scale i row)[j]? =
      row[j]?.map fun v => if attMasked rd d window i j then .inf true else rne32 (v.mul scale) := by
  rw [attXRow, List.getElem?_map, List.getElem?_zipIdx, Option.map_map, Nat.zero_add]
  rfl

/-- Settles O14: the model's three tests are the three grounds, and the entry of a masked key is −Inf whatever its logit. -/
theorem maskedKeys : Obligations.MaskedKeys := by
  intro rd d window i j
  refine ⟨attMasked_iff, fun scale l row v hrow hv hmasked => ⟨attXRow rd d window scale i row, ?_, ?_⟩⟩
  · rw [getElem?_attX, hrow, Option.map_some]
  · rw [getElem?_attXRow, hv, Option.map_some, if_pos hmasked]

end Sys2Proof.Machine
end

section
/-! PROOFS. Device addresses (R303 to R306): which of them name the module's own map, and where the stash aperture lies in it. -/
namespace Sys2Proof.Machine

/-- No address below the remote windows is translated (R305). -/
theorem State.localAddr_of_lt {s : State} {a : Nat} (h : a < 2 ^ 63) : s.localAddr a = a :=
  if_neg fun hremote => Nat.not_le_of_lt h hremote.1

/-- An address that is translated falls below the end of far memory (R305). -/
theorem State.localAddr_eq_self_or_lt (s : State) (a : Nat) : s.localAddr a = a ∨ s.localAddr a < 2 ^ 42 := by
  rw [State.localAddr]
  split
  · exact .inr (Nat.mod_lt _ (Nat.two_pow_pos 42))
  · exact .inl rfl

/-- The aperture range of R306. -/
def InAperture (a : Nat) : Prop := 0x200000000000 ≤ a ∧ a < 0x208000000000

theorem State.region_of_inAperture {s : State} {a : Nat} (h : InAperture a) :
    s.region a = if s.fld pSTP R.STP_STASH_APT 24 0 = 0x40 ∧ bit (s.reg pSTP R.STP_STASH_CTL) 0 = true
      then .stash (a - 0x200000000000) else .unmapped := by
  obtain ⟨hlo, hhi⟩ := h
  have hlocal : s.localAddr a = a := s.localAddr_of_lt (by omega)
  simp only [State.region, hlocal, farBase]
  rw [if_neg (fun hne => hne.1 rfl), if_neg (by omega), if_neg (by omega), if_neg (by omega), if_neg (by omega),
    if_neg (by omega), if_neg (by omega), if_pos ⟨hlo, hhi⟩]

/-- The offset in the stash, of a target that lies there. -/
def Region.stashOff : Region → Option Nat
  | .stash off => some off
  | _ => none

theorem State.not_inAperture_localAddr {s : State} {a : Nat} (h : ¬ InAperture a) : ¬ InAperture (s.localAddr a) := by
  rcases s.localAddr_eq_self_or_lt a with hself | hlow
  · rwa [hself]
  · exact fun hin => Nat.not_lt_of_le hin.1 (Nat.lt_trans hlow (by decide))

/-- Of the map's branches one alone answers the stash, and it asks for the aperture range. -/
theorem State.stashOff_region_of_not_inAperture {s : State} {a : Nat} (h : ¬ InAperture a) : (s.region a).stashOff = none := by
  have hbranch : ¬ (0x200000000000 ≤ s.localAddr a ∧ s.localAddr a < 0x208000000000) := s.not_inAperture_localAddr h
  simp only [State.region, if_neg hbranch, apply_ite Region.stashOff]
  simp only [Region.stashOff, ite_self]

/-- Settles O15: the range answers by BASE and EN, and no address outside it, translated or not, reaches the stash. That EN = 0
leaves the range unmapped, and not only unserved, is the model's reading of R306 and R243. -/
theorem stashApertureServed : Obligations.StashApertureServed := by
  intro s a
  refine ⟨fun hlo hhi => State.region_of_inAperture ⟨hlo, hhi⟩, fun off h => ?_⟩
  by_cases hin : InAperture a
  · rw [State.region_of_inAperture hin] at h
    split at h
    · injection h with hoff
      exact ⟨hin.1, hin.2, hoff.symm⟩
    · contradiction
  · have hnone := State.stashOff_region_of_not_inAperture (s := s) hin
    rw [h] at hnone
    contradiction

end Sys2Proof.Machine
end

section
/-! PROOFS. Register writes of whole words (R446 to R448), what a register without a behaviour of its own stores (R14), and the
settings of a crossing (R330). -/
namespace Sys2Proof.Machine

/-! ### A granted write of one word -/

theorem wordSpans_word {off : Nat} (h : off % 4 = 0) : wordSpans off 4 = [(off, (0, 4))] := by
  have hcount : (off + 4 - 1) / 4 + 1 - off / 4 = 1 := by omega
  have hword : off / 4 * 4 = off := by omega
  rw [wordSpans, if_neg (by decide)]
  simp only [hcount, List.range_one, List.map_cons, List.map_nil, Nat.add_zero, hword, Nat.max_self, Nat.min_self,
    Nat.sub_self, Nat.add_sub_cancel_left]

/-- An aligned word's write is one word access. -/
theorem exec_registerWrite_word {src : Src} {page off v : Nat} {s : State} (halign : off % 4 = 0) (hoff : off < 0x1000)
    (hv : v < 2 ^ 32) : exec (.registerWrite src page off 4 v) s = .next (s.wordWrite src page off v) := by
  have hfits : inPage off 4 = 4 := Nat.min_eq_left (by omega)
  show execRegisterWrite src page off 4 v s = _
  simp only [execRegisterWrite, hfits, wordSpans_word halign, List.foldl_cons, List.foldl_nil, if_true, Nat.sub_self, Nat.mul_zero,
    Nat.pow_zero, Nat.div_one, Nat.mod_eq_of_lt hv]

/-- A granted write goes to its register, where neither a partition's owner, nor a key, nor debugging has a say (R446 to R448). -/
theorem State.wordWrite_mayWrite {s : State} {src : Src} {page off v : Nat} (hprt : prtGoverned page off v = none)
    (hkey : ¬ (page = pSEC ∧ (off = R.SEC_KEY_CMD ∨ off = R.SEC_LINK_CMD))) (hreg : noRegister page off = false)
    (hdbg : ∀ i, pageBlk page ≠ some (.dbg, i)) (h : s.mayWrite src page off = true) :
    s.wordWrite src page off v = regWrite src page off v s := by
  have hwrite : s.onWrite src page off (regWrite src page off v) = regWrite src page off v s := by
    rw [State.onWrite_mayWrite h, State.touchDebug_other hdbg]
  rw [State.wordWrite, hprt]
  dsimp only
  rw [if_neg (fun hc => hkey ⟨hc.1, .inl hc.2⟩), if_neg (fun hc => hkey ⟨hc.1, .inr hc.2⟩), hreg, if_neg Bool.false_ne_true]
  split
  · next i he => exact absurd he (hdbg i)
  · exact hwrite

/-! ### Plain registers (R14) -/

/-- What a register that held `old` holds after a write of `v`: RW bits as written, W1C bits written 1 cleared. -/
def RegRow.stored (r : RegRow) (old v : Nat) : Nat := without (without old r.rw) (r.w1c &&& v) ||| (v &&& r.rw)

theorem plainWrite_eq {page off v i : Nat} {b : Blk} {r : RegRow} {s : State} (hb : pageBlk page = some (b, i))
    (hr : findRow b off = some r) :
    plainWrite page off v s = s.setReg (s.canon page) off (r.stored (s.reg (s.canon page) off) v) := by
  simp only [plainWrite, hb, hr, RegRow.stored]

/-- A register whose low n bits are its RW bits stores those bits of the value. -/
theorem RegRow.stored_mod {r : RegRow} {n : Nat} (hrw : r.rw = 2 ^ n - 1) (hw1c : r.w1c = 0) (old v : Nat) :
    r.stored old v % 2 ^ n = v % 2 ^ n := by
  refine Nat.eq_of_testBit_eq fun j => ?_
  rw [Nat.testBit_mod_two_pow, Nat.testBit_mod_two_pow]
  by_cases hj : j < n
  · simp only [hj, decide_true, RegRow.stored, without, hrw, hw1c, Nat.and_two_pow_sub_one_eq_mod, Nat.zero_and, Nat.and_zero,
      Nat.xor_zero, Nat.testBit_or, Nat.testBit_xor, Nat.testBit_mod_two_pow, Bool.true_and, bne_self_eq_false, Bool.false_or]
  · simp only [hj, decide_false, Bool.false_and]

/-! ### Crossings in the state -/

theorem State.keysRise_regs {s : State} (h : s.canonical = true) : keysRise s.regs = true := by
  simp only [State.canonical, Bool.and_eq_true] at h
  obtain ⟨⟨⟨-, hregs⟩, -⟩, -⟩ := h
  exact hregs

theorem State.keysRise_crossings {s : State} (h : s.canonical = true) : keysRise s.crossings = true := by
  simp only [State.canonical, State.partsRise, Bool.and_eq_true, and_assoc] at h
  obtain ⟨-, -, -, -, -, -, -, -, -, -, hcrossings, -⟩ := h
  exact hcrossings

theorem State.crs_setCrs {s : State} {i j : Nat} {c : Crossing} (h : keysRise s.crossings = true) :
    (s.setCrs i c).crs j = if j = i then c else s.crs j := sget_sset h

@[simp] theorem State.setCrs_reg {s : State} (i p off : Nat) (c : Crossing) : (s.setCrs i c).reg p off = s.reg p off := rfl

/-- Where no urgent grant is counted nobody has used up a quota (R325). -/
theorem State.crsMasked_of_urgents_nil {s : State} {i : Nat} (h : (s.crs i).urgents = []) (r : CrsReq) :
    s.crsMasked i r = false := by
  simp only [State.crsMasked, h, sget, Bool.and_eq_false_imp, Bool.and_eq_true, bne_iff_ne, decide_eq_false_iff_not]
  omega

/-! ### A crossing's page -/

theorem pageBlk_pCRS {i : Nat} (h : i < 44) : pageBlk (pCRS i) = some (.crs, i) := by
  unfold pageBlk pCRS
  rw [if_neg (by omega), if_neg (by omega), if_neg (by omega), if_neg (by omega), if_pos (by omega), Nat.add_sub_cancel_left]

theorem pCRS_ne_pSEC {i : Nat} (h : i < 44) : pCRS i ≠ pSEC := by
  unfold pCRS pSEC
  omega

@[simp] theorem State.canon_pCRS (s : State) (i : Nat) : s.canon (pCRS i) = pCRS i := if_neg (by unfold pCRS; omega)

theorem noRegister_pCRS {i off : Nat} (hi : i < 44) (hrow : (findRow .crs off).isSome = true) : noRegister (pCRS i) off = false := by
  have hsome : (findRow .crs off).isNone = false := Option.isNone_eq_false_iff.mpr hrow
  have hdbg : (Blk.crs == Blk.dbg) = false := by decide
  simp only [noRegister, pageBlk_pCRS hi, hsome, hdbg, reduceCtorEq, if_false, ite_self, Bool.or_self, Bool.false_and]

theorem prtGoverned_pCRS {i off v : Nat} (hi : i < 44) (hoff : off ≠ R.PAGE_OWNER) : prtGoverned (pCRS i) off v = none := by
  simp only [prtGoverned, pageBlk_pCRS hi, hoff, reduceCtorEq, false_and, if_false, ite_self]

theorem regWrite_pCRS {src : Src} {i off v : Nat} {s : State} (hi : i < 44) (hlo : 0x40 ≤ off) :
    regWrite src (pCRS i) off v s = if off = R.CRS_QUOTA then crsQuotaWrite i v s else plainWrite (pCRS i) off v s := by
  have hheader : ¬ (off < 0x40 ∧ isBar2 (pCRS i) = false) := fun h => Nat.not_lt_of_le hlo h.1
  simp only [regWrite, pageBlk_pCRS hi, if_neg hheader]

/-- Where a crossing's own registers stand: whole words behind the header. -/
def CrsWord (off : Nat) : Prop := off % 4 = 0 ∧ 0x40 ≤ off ∧ off < 0x1000 ∧ (findRow .crs off).isSome = true

/-- A granted write of a crossing's register. -/
theorem exec_registerWrite_pCRS {src : Src} {i off v : Nat} {s : State} (hi : i < 44) (hv : v < 2 ^ 32) (hoff : CrsWord off)
    (h : s.mayWrite src (pCRS i) off = true) : exec (.registerWrite src (pCRS i) off 4 v) s =
      .next (if off = R.CRS_QUOTA then crsQuotaWrite i v s else plainWrite (pCRS i) off v s) := by
  obtain ⟨halign, hlo, hhi, hrow⟩ := hoff
  have howner : off ≠ R.PAGE_OWNER := Nat.ne_of_gt (Nat.lt_of_lt_of_le (by decide) hlo)
  have hkey : ¬ (pCRS i = pSEC ∧ (off = R.SEC_KEY_CMD ∨ off = R.SEC_LINK_CMD)) :=
    fun hc => pCRS_ne_pSEC hi hc.1
  have hdbg : ∀ k, pageBlk (pCRS i) ≠ some (.dbg, k) := fun k hk => by
    rw [pageBlk_pCRS hi] at hk
    cases hk
  rw [exec_registerWrite_word halign hhi hv,
    State.wordWrite_mayWrite (prtGoverned_pCRS hi howner) hkey (noRegister_pCRS hi hrow) hdbg h, regWrite_pCRS hi hlo]

/-! ### Settings (R330) -/

/-- CRS_CTL, CRS_DEF_NORMAL, CRS_DEF_URGENT and CRS_WDOG with the widths of their fields. -/
def crsSettings : List (Nat × Nat) :=
  [(R.CRS_CTL, 12), (R.CRS_DEF_NORMAL, 24), (R.CRS_DEF_URGENT, 24), (R.CRS_WDOG, 24)]

theorem crsWord_of_mem_crsSettings : ∀ p ∈ crsSettings, CrsWord p.1 ∧ p.1 ≠ R.CRS_QUOTA := by
  unfold CrsWord; decide

theorem findRow_of_mem_crsSettings :
    ∀ p ∈ crsSettings, (findRow .crs p.1).map (fun r => (r.rw, r.w1c)) = some (2 ^ p.2 - 1, 0) := by decide

theorem exec_registerWrite_crsSetting {src : Src} {i v : Nat} {s : State} {p : Nat × Nat} (hp : p ∈ crsSettings) (hi : i < 44)
    (hv : v < 2 ^ 32) (h : s.mayWrite src (pCRS i) p.1 = true) :
    ∃ w, exec (.registerWrite src (pCRS i) p.1 4 v) s = .next (s.setReg (pCRS i) p.1 w) ∧ w % 2 ^ p.2 = v % 2 ^ p.2 := by
  obtain ⟨hword, hquota⟩ := crsWord_of_mem_crsSettings p hp
  obtain ⟨r, hrow, hfields⟩ := Option.map_eq_some_iff.mp (findRow_of_mem_crsSettings p hp)
  obtain ⟨hrw, hw1c⟩ := Prod.mk.inj hfields
  refine ⟨r.stored (s.reg (pCRS i) p.1) v, ?_, RegRow.stored_mod hrw hw1c _ _⟩
  rw [exec_registerWrite_pCRS hi hv hword h, if_neg hquota, plainWrite_eq (pageBlk_pCRS hi) hrow, State.canon_pCRS]

theorem crsWord_quota : CrsWord R.CRS_QUOTA := by
  unfold CrsWord; decide

theorem crs_crsQuotaWrite {i j v : Nat} {s : State} (h : keysRise s.crossings = true) :
    (crsQuotaWrite i v s).crs j = if j = i then { s.crs i with winStart := s.mt, urgents := [] } else s.crs j :=
  State.crs_setCrs h

theorem reg_crsQuotaWrite {i v : Nat} {s : State} (h : keysRise s.regs = true) (hv : v < 2 ^ 32) :
    (crsQuotaWrite i v s).reg (pCRS i) R.CRS_QUOTA = v := by
  rw [crsQuotaWrite, State.setCrs_reg, State.reg_setReg_same s h, Nat.mod_eq_of_lt hv]

/-- Settles O16: a setting's write is a plain register's, and the quota's opens a window with nothing counted in it. -/
theorem crossingSettings : Obligations.CrossingSettings := by
  intro s src i v hs hi hv
  refine ⟨fun p hp h => ?_, fun h => ⟨crsQuotaWrite i v s, ?_, reg_crsQuotaWrite (State.keysRise_regs hs) hv, ?_⟩⟩
  · obtain ⟨w, hexec, hw⟩ := exec_registerWrite_crsSetting hp hi hv h
    exact ⟨w, hexec, hw, State.setReg_crossings ..⟩
  · rw [exec_registerWrite_pCRS hi hv crsWord_quota h, if_pos rfl]
  · have hcrs (j : Nat) := crs_crsQuotaWrite (i := i) (j := j) (v := v) (State.keysRise_crossings hs)
    have hself := (hcrs i).trans (if_pos rfl)
    exact ⟨hself, State.crsMasked_of_urgents_nil (by rw [hself]), fun j hj => (hcrs j).trans (if_neg hj)⟩

end Sys2Proof.Machine
end

section
/-! PROOFS. The error log (R431, R432): which record a full log gives up, what making room does to the registers, and what a
pop takes away. -/
namespace Sys2Proof.Machine

/-! ### The record a full log gives up -/

/-- Entry i is the oldest record of the log that `keep` does not hold back. -/
def IsOldestNot (keep : LogRec → Prop) (l : List LogRec) (i : Nat) : Prop :=
  (∃ x, l[i]? = some x ∧ ¬ keep x) ∧ ∀ j y, j < i → l[j]? = some y → keep y

theorem findIdx?_isOldestNot {keep : LogRec → Prop} {q : LogRec → Bool} (hq : ∀ x, q x = true ↔ ¬ keep x) {l : List LogRec}
    (h : ∃ x ∈ l, ¬ keep x) : ∃ i, l.findIdx? q = some i ∧ IsOldestNot keep l i := by
  obtain ⟨x, hx, hk⟩ := h
  have hsome : (l.findIdx? q).isSome = true := by
    rw [List.findIdx?_isSome, List.any_eq_true]
    exact ⟨x, hx, (hq x).mpr hk⟩
  obtain ⟨i, hi⟩ := Option.isSome_iff_exists.mp hsome
  obtain ⟨hlt, hfound, hbefore⟩ := List.findIdx?_eq_some_iff_getElem.mp hi
  refine ⟨i, hi, ⟨l[i], List.getElem?_eq_getElem hlt, (hq _).mp hfound⟩, fun j y hj hy => ?_⟩
  obtain ⟨hjlt, rfl⟩ := List.getElem?_eq_some_iff.mp hy
  exact Classical.not_not.mp (mt (hq _).mpr (hbefore j hj))

theorem State.logVictim_of_notFatal {s : State} (h : ∃ x ∈ s.log, x.flags % 4 ≠ 3) :
    IsOldestNot (fun x => x.flags % 4 = 3) s.log s.logVictim := by
  obtain ⟨i, hi, hold⟩ := findIdx?_isOldestNot (fun _ => bne_iff_ne) h
  rwa [State.logVictim, hi]

/-- A record is the pending FATAL one (R433). -/
def State.IsPending (s : State) (x : LogRec) : Prop := s.fatalPend = true ∧ x.seq = s.reg pERR R.ERR_FATAL_SEQ

theorem State.logVictim_of_fatal {s : State} (hfatal : ∀ x ∈ s.log, x.flags % 4 = 3) (h : ∃ x ∈ s.log, ¬ s.IsPending x) :
    IsOldestNot s.IsPending s.log s.logVictim := by
  have hnone : (s.log.findIdx? fun r => r.flags % 4 != 3) = none := by
    simpa only [List.findIdx?_eq_none_iff, bne_eq_false_iff_eq] using hfatal
  have hpending (x : LogRec) : (!(s.fatalPend && x.seq == s.reg pERR R.ERR_FATAL_SEQ)) = true ↔ ¬ s.IsPending x := by
    rw [State.IsPending, Bool.not_eq_true', ← Bool.not_eq_true, Bool.and_eq_true, beq_iff_eq]
  obtain ⟨i, hi, hold⟩ := findIdx?_isOldestNot hpending h
  rwa [State.logVictim, hnone, hi]

/-! ### The steps of an append -/

/-- The record given up leaves the log, and ERR_LOST counts it. -/
def State.dropVictim (s : State) : State := ({ s with log := s.log.eraseIdx s.logVictim }).bump pERR R.ERR_LOST 1

/-- Room made in a full log: LOG_OVERWRITE tells of the first record given up since the log was last below 256. -/
def State.makeRoom (s : State) : State :=
  if s.logOverwrote then s.dropVictim else { s.dropVictim.notice pERR 2 with logOverwrote := true }

/-- A record as the newest of a log with room. -/
def State.appendNewest (s : State) (r : LogRec) : State := ({ s with log := s.log ++ [r] }).wrapAdd pERR R.ERR_LOG_SEQ 1

theorem State.logAppend_of_full {s : State} (h : s.log.length = 256) (r : LogRec) :
    s.logAppend r = s.makeRoom.appendNewest r :=
  congrArg (State.appendNewest · r) (if_neg (Nat.not_lt_of_le (Nat.le_of_eq h.symm)))

/-! ### Registers of the error page -/

@[simp] theorem State.canon_pERR (s : State) : s.canon pERR = pERR := if_neg (by decide)

/-- A notice of the error page alters no register of the page but EVT_STS. -/
theorem State.reg_notice_pERR {s : State} (hk : keysRise s.regs = true) {e o : Nat} (ho : o < 0x1000)
    (hsts : o / 4 ≠ R.EVT_STS / 4) : (s.notice pERR e).reg pERR o = s.reg pERR o := by
  refine (s.notice_spec pERR e 0).reg hk pERR o (fun k hk8 => ?_) ?_ ?_
  · simp only [pERR, pHPT, R.HPT_IRQ_DROP]
    omega
  · rw [State.canon_pERR]
    omega
  · simp only [pERR, pDBGM, R.DBG_TRACE_HEAD]
    omega

theorem State.reg_appendNewest {s : State} (hk : keysRise s.regs = true) {r : LogRec} {o : Nat}
    (hseq : o / 4 ≠ R.ERR_LOG_SEQ / 4) : (s.appendNewest r).reg pERR o = s.reg pERR o :=
  State.reg_setReg_other _ hk (by omega)

theorem State.keysRise_dropVictim {s : State} (hk : keysRise s.regs = true) : keysRise s.dropVictim.regs = true :=
  keysRise_sset hk

theorem State.reg_dropVictim_lost {s : State} (hk : keysRise s.regs = true) :
    s.dropVictim.reg pERR R.ERR_LOST = min (s.reg pERR R.ERR_LOST + 1) (2 ^ 32 - 1) :=
  (State.reg_setReg_same _ hk).trans (Nat.mod_eq_of_lt (Nat.lt_of_le_of_lt (Nat.min_le_right _ _) (by decide)))

theorem State.reg_dropVictim_sts {s : State} (hk : keysRise s.regs = true) :
    s.dropVictim.reg pERR R.EVT_STS = s.reg pERR R.EVT_STS :=
  State.reg_setReg_other _ hk (by decide)

/-! ### Making room -/

theorem State.makeRoom_of_overwrote {s : State} (h : s.logOverwrote = true) : s.makeRoom = s.dropVictim := if_pos h

theorem State.makeRoom_of_not_overwrote {s : State} (h : s.logOverwrote = false) :
    s.makeRoom = { s.dropVictim.notice pERR 2 with logOverwrote := true } :=
  if_neg (Bool.eq_false_iff.mp h)

theorem State.makeRoom_log (s : State) : s.makeRoom.log = s.log.eraseIdx s.logVictim := by
  cases h : s.logOverwrote with
  | true => rw [State.makeRoom_of_overwrote h]; rfl
  | false => rw [State.makeRoom_of_not_overwrote h]; exact s.dropVictim.notice_log pERR 2 0

theorem State.makeRoom_logOverwrote (s : State) : s.makeRoom.logOverwrote = true := by
  cases h : s.logOverwrote with
  | true => rw [State.makeRoom_of_overwrote h]; exact h
  | false => rw [State.makeRoom_of_not_overwrote h]

theorem State.keysRise_makeRoom {s : State} (hk : keysRise s.regs = true) : keysRise s.makeRoom.regs = true := by
  have hdrop := State.keysRise_dropVictim hk
  cases h : s.logOverwrote with
  | true => rwa [State.makeRoom_of_overwrote h]
  | false => rw [State.makeRoom_of_not_overwrote h]; exact (s.dropVictim.notice_spec pERR 2 0).rise hdrop

theorem State.reg_makeRoom_lost {s : State} (hk : keysRise s.regs = true) :
    s.makeRoom.reg pERR R.ERR_LOST = min (s.reg pERR R.ERR_LOST + 1) (2 ^ 32 - 1) := by
  rw [← State.reg_dropVictim_lost hk]
  cases h : s.logOverwrote with
  | true => rw [State.makeRoom_of_overwrote h]
  | false =>
    rw [State.makeRoom_of_not_overwrote h]
    exact State.reg_notice_pERR (State.keysRise_dropVictim hk) (by decide) (by decide)

theorem State.makeRoom_notice {s : State} (hk : keysRise s.regs = true) (h : s.logOverwrote = false) :
    bit (s.makeRoom.reg pERR R.EVT_STS) 2 = true := by
  rw [State.makeRoom_of_not_overwrote h]
  have hsts := (s.dropVictim.notice_spec pERR 2 0).sts (State.keysRise_dropVictim hk) (by decide)
  rwa [State.canon_pERR] at hsts

theorem State.makeRoom_quiet {s : State} (hk : keysRise s.regs = true) (h : s.logOverwrote = true) :
    s.makeRoom.reg pERR R.EVT_STS = s.reg pERR R.EVT_STS ∧ s.makeRoom.out = s.out ∧ s.makeRoom.mem = s.mem := by
  rw [State.makeRoom_of_overwrote h]
  exact ⟨State.reg_dropVictim_sts hk, rfl, rfl⟩

/-! ### Removing the oldest record (R431) -/

theorem errLogPopWrite_oldest {s : State} {r : LogRec} {l : List LogRec} (h : s.log = r :: l) (hseq : r.seq < 2 ^ 32) :
    errLogPopWrite r.seq s = { s with log := l, logOverwrote := false } := by
  simp only [errLogPopWrite, h, Nat.mod_eq_of_lt hseq, if_true]

theorem State.touchDebug_pERR (s : State) : s.touchDebug pERR = s :=
  State.touchDebug_other fun i => by
    have hblk : pageBlk pERR = some (.err, 0) := by decide
    rw [hblk]
    nofun

theorem exec_errLogPop_oldest {s : State} {src : Src} {r : LogRec} {l : List LogRec} (h : s.log = r :: l)
    (hseq : r.seq < 2 ^ 32) (hw : s.mayWrite src pERR R.ERR_LOG_POP = true) :
    exec (.errLogPop src r.seq) s = .next { s with log := l, logOverwrote := false } := by
  show execErrLogPop src r.seq s = _
  rw [execErrLogPop, State.onWrite_mayWrite hw, State.touchDebug_pERR, errLogPopWrite_oldest h hseq]

/-- Settles O19: a full log makes room for the record and appends it, and only the first room made raises the notice. -/
theorem fullLog : Obligations.FullLog := by
  refine ⟨fun s r hs hfull => ?_, fun s src r l hlog hseq hw => exec_errLogPop_oldest hlog hseq hw⟩
  have hk := State.keysRise_regs hs
  have hroom := State.keysRise_makeRoom hk
  have hvictim : s.logVictim < 256 := by
    rw [← hfull]
    exact State.logVictim_lt (List.ne_nil_of_length_eq_add_one hfull)
  rw [State.logAppend_of_full hfull]
  refine ⟨⟨s.logVictim, hvictim, congrArg (· ++ [r]) s.makeRoom_log, State.logVictim_of_notFatal, State.logVictim_of_fatal⟩,
    ?_, s.makeRoom_logOverwrote, fun hfirst => ?_, fun hagain => ?_⟩
  · rw [State.reg_appendNewest hroom (by decide), State.reg_makeRoom_lost hk]
  · rw [State.reg_appendNewest hroom (by decide), State.makeRoom_notice hk hfirst]
  · rw [State.reg_appendNewest hroom (by decide)]
    exact State.makeRoom_quiet hk hagain

end Sys2Proof.Machine
end

section
/-! PROOFS. What every step keeps (R12, R431, R434, R436, R471, R534): the laws of the commands' meanings put together, command by
command, and the step's own two cases. -/
namespace Sys2Proof.Machine

variable {r : Bool} {c : Instr} {s t : State}

/-- A command that neither ends HOLD nor clears what voids the guarantees (R12, R436). -/
def Instr.NoReset (c : Instr) : Prop := c ≠ .resetNAssert ∧ c ≠ .vio12Loss

/-- Such a command evolves the state as no reset does, and so also as one. -/
theorem exec_evolves_of_noReset (hc : Instr.NoReset c) (he : exec c s = .next t) : Evolves r s t :=
  match c with
  | .registerWrite src page off bytes value => execRegisterWrite_evolves src page off bytes value he (.refl r s)
  | .rcRead src page off bytes => execRcRead_evolves src page off bytes he (.refl r s)
  | .tilSeqTailWrite src tile value => execTilSeqTailWrite_evolves src tile value he (.refl r s)
  | .mma tile pos => execMma_evolves tile pos he (.refl r s)
  | .conv tile pos => execConv_evolves tile pos he (.refl r s)
  | .wgrad tile pos => execWgrad_evolves tile pos he (.refl r s)
  | .maxpool tile pos => execMaxpool_evolves tile pos he (.refl r s)
  | .avgpool tile pos => execAvgpool_evolves tile pos he (.refl r s)
  | .maxpoolB tile pos => execMaxpoolB_evolves tile pos he (.refl r s)
  | .avgpoolB tile pos => execAvgpoolB_evolves tile pos he (.refl r s)
  | .s2d tile pos => execS2d_evolves tile pos he (.refl r s)
  | .d2s tile pos => execD2s_evolves tile pos he (.refl r s)
  | .vch tile pos => execVch_evolves tile pos he (.refl r s)
  | .lnormF tile pos => execLnormF_evolves tile pos he (.refl r s)
  | .rmsF tile pos => execRmsF_evolves tile pos he (.refl r s)
  | .softmaxF tile pos => execSoftmaxF_evolves tile pos he (.refl r s)
  | .logsmF tile pos => execLogsmF_evolves tile pos he (.refl r s)
  | .xentF tile pos => execXentF_evolves tile pos he (.refl r s)
  | .lnormB tile pos => execLnormB_evolves tile pos he (.refl r s)
  | .rmsB tile pos => execRmsB_evolves tile pos he (.refl r s)
  | .softmaxB tile pos => execSoftmaxB_evolves tile pos he (.refl r s)
  | .logsmB tile pos => execLogsmB_evolves tile pos he (.refl r s)
  | .xentB tile pos => execXentB_evolves tile pos he (.refl r s)
  | .attBlock tile pos => execAttBlock_evolves tile pos he (.refl r s)
  | .attMerge tile pos => execAttMerge_evolves tile pos he (.refl r s)
  | .bprep tile pos => execBprep_evolves tile pos he (.refl r s)
  | .bq tile pos => execBq_evolves tile pos he (.refl r s)
  | .bkv tile pos => execBkv_evolves tile pos he (.refl r s)
  | .mov tile pos => execMov_evolves tile pos he (.refl r s)
  | .synFence tile pos => execSynFence_evolves tile pos he (.refl r s)
  | .synSignal tile pos => execSynSignal_evolves tile pos he (.refl r s)
  | .synBarrier tile pos => execSynBarrier_evolves tile pos he (.refl r s)
  | .synDrain tile pos => execSynDrain_evolves tile pos he (.refl r s)
  | .upd tile pos => execUpd_evolves tile pos he (.refl r s)
  | .rootAmax tile pos => execRootAmax_evolves tile pos he (.refl r s)
  | .rootInit tile pos => execRootInit_evolves tile pos he (.refl r s)
  | .rootTstep tile pos => execRootTstep_evolves tile pos he (.refl r s)
  | .rootProd tile pos => execRootProd_evolves tile pos he (.refl r s)
  | .rootTest tile pos => execRootTest_evolves tile pos he (.refl r s)
  | .descriptorRetire tile pos => execDescriptorRetire_evolves tile pos he (.refl r s)
  | .resume src tile => execResume_evolves src tile he (.refl r s)
  | .flush src tile => execFlush_evolves src tile he (.refl r s)
  | .seqStall tile => execSeqStall_evolves tile he (.refl r s)
  | .idleClockStop tile => execIdleClockStop_evolves tile he (.refl r s)
  | .computeClockRestart tile => execComputeClockRestart_evolves tile he (.refl r s)
  | .sramScrub site err => execSramScrub_evolves site err he (.refl r s)
  | .sramInitDone site => execSramInitDone_evolves site he (.refl r s)
  | .spareMapWrite src district column value => execSpareMapWrite_evolves src district column value he (.refl r s)
  | .barrierArrival tile => execBarrierArrival_evolves tile he (.refl r s)
  | .signalArrival sender target => execSignalArrival_evolves sender target he (.refl r s)
  | .actLoad src tile value => execActLoad_evolves src tile value he (.refl r s)
  | .actLoadDone tile => execActLoadDone_evolves tile he (.refl r s)
  | .inval src tile => execInval_evolves src tile he (.refl r s)
  | .deferPark tile pos => execDeferPark_evolves tile pos he (.refl r s)
  | .parkedIssue tile => execParkedIssue_evolves tile he (.refl r s)
  | .yield tile => execYield_evolves tile he (.refl r s)
  | .excise src tile => execExcise_evolves src tile he (.refl r s)
  | .frozenSkip tile pos => execFrozenSkip_evolves tile pos he (.refl r s)
  | .exciseMapDiscard tile pos => execExciseMapDiscard_evolves tile pos he (.refl r s)
  | .poolEnable src pool value => execPoolEnable_evolves src pool value he (.refl r s)
  | .poolInitDone pool => execPoolInitDone_evolves pool he (.refl r s)
  | .poolFreeRead src pool => execPoolFreeRead_evolves src pool he (.refl r s)
  | .allocWaitExpire waiter => execAllocWaitExpire_evolves waiter he (.refl r s)
  | .kvsCmdTailWrite src value => execKvsCmdTailWrite_evolves src value he (.refl r s)
  | .sharePages => execSharePages_evolves he (.refl r s)
  | .freePages => execFreePages_evolves he (.refl r s)
  | .truncate => execTruncate_evolves he (.refl r s)
  | .freeCtx => execFreeCtx_evolves he (.refl r s)
  | .setLen => execSetLen_evolves he (.refl r s)
  | .ringSend => execRingSend_evolves he (.refl r s)
  | .ringSendComplete => execRingSendComplete_evolves he (.refl r s)
  | .eviction pool => execEviction_evolves pool he (.refl r s)
  | .dispatch src => execDispatch_evolves src he (.refl r s)
  | .dispatchDone => execDispatchDone_evolves he (.refl r s)
  | .dispatchAbort src => execDispatchAbort_evolves src he (.refl r s)
  | .start src => execStart_evolves src he (.refl r s)
  | .squash src => execSquash_evolves src he (.refl r s)
  | .stop src => execStop_evolves src he (.refl r s)
  | .stpEnClear src => execStpEnClear_evolves src he (.refl r s)
  | .phaseEnd => execPhaseEnd_evolves he (.refl r s)
  | .updateComplete => execUpdateComplete_evolves he (.refl r s)
  | .checkOpen => execCheckOpen_evolves he (.refl r s)
  | .localVerdict => execLocalVerdict_evolves he (.refl r s)
  | .voteResult rec => execVoteResult_evolves rec he (.refl r s)
  | .flushComplete => execFlushComplete_evolves he (.refl r s)
  | .voteTimeout => execVoteTimeout_evolves he (.refl r s)
  | .commit => execCommit_evolves he (.refl r s)
  | .memoryRead addr len err => execMemoryRead_evolves addr len err he (.refl r s)
  | .memoryWrite addr data poisoned => execMemoryWrite_evolves addr data poisoned he (.refl r s)
  | .fmax addr value => execFmax_evolves addr value he (.refl r s)
  | .uadd addr value => execUadd_evolves addr value he (.refl r s)
  | .or32 addr value => execOr32_evolves addr value he (.refl r s)
  | .memScrub page channel err => execMemScrub_evolves page channel err he (.refl r s)
  | .nearInitDone district => execNearInitDone_evolves district he (.refl r s)
  | .zero src channel => execZero_evolves src channel he (.refl r s)
  | .zeroFillDone channel => execZeroFillDone_evolves channel he (.refl r s)
  | .arbitrationRound crossing server => execArbitrationRound_evolves crossing server he (.refl r s)
  | .crossingWdog crossing server => execCrossingWdog_evolves crossing server he (.refl r s)
  | .quotaWindowEnd crossing => execQuotaWindowEnd_evolves crossing he (.refl r s)
  | .crsQuotaWrite src crossing value => execCrsQuotaWrite_evolves src crossing value he (.refl r s)
  | .streamEnable src stream value => execStreamEnable_evolves src stream value he (.refl r s)
  | .ingStrTailWrite src stream value => execIngStrTailWrite_evolves src stream value he (.refl r s)
  | .cursorWrite src stream value => execCursorWrite_evolves src stream value he (.refl r s)
  | .takeSample stream => execTakeSample_evolves stream he (.refl r s)
  | .ringDry stream => execRingDry_evolves stream he (.refl r s)
  | .decodeTimeout kind core => execDecodeTimeout_evolves kind core he (.refl r s)
  | .decodeDone kind core result => execDecodeDone_evolves kind core result he (.refl r s)
  | .sampleFail stream take => execSampleFail_evolves stream take he (.refl r s)
  | .bandWrite stream take idx frames => execBandWrite_evolves stream take idx frames he (.refl r s)
  | .tokenize engine => execTokenize_evolves engine he (.refl r s)
  | .bucketAssign stream take => execBucketAssign_evolves stream take he (.refl r s)
  | .ingStrReqTailWrite src stream value => execIngStrReqTailWrite_evolves src stream value he (.refl r s)
  | .batchRequest stream => execBatchRequest_evolves stream he (.refl r s)
  | .fillWaitExpire stream => execFillWaitExpire_evolves stream he (.refl r s)
  | .requestComplete stream => execRequestComplete_evolves stream he (.refl r s)
  | .ledgerLatchRead src stream => execLedgerLatchRead_evolves src stream he (.refl r s)
  | .dictEnable src dict value => execDictEnable_evolves src dict value he (.refl r s)
  | .dictCheckDone dict => execDictCheckDone_evolves dict he (.refl r s)
  | .exeJobTailWrite src core value => execExeJobTailWrite_evolves src core value he (.refl r s)
  | .encodeJob core => execEncodeJob_evolves core he (.refl r s)
  | .sliceEncoded core payload rowBits => execSliceEncoded_evolves core payload rowBits he (.refl r s)
  | .outHeadWrite src core value => execOutHeadWrite_evolves src core value he (.refl r s)
  | .exeAbort src core => execExeAbort_evolves src core he (.refl r s)
  | .linkEnWrite src gate link value => execLinkEnWrite_evolves src gate link value he (.refl r s)
  | .peerDetect gate link => execPeerDetect_evolves gate link he (.refl r s)
  | .trainConverge gate link => execTrainConverge_evolves gate link he (.refl r s)
  | .laneAlign gate link lanes => execLaneAlign_evolves gate link lanes he (.refl r s)
  | .identFlit gate link ident => execIdentFlit_evolves gate link ident he (.refl r s)
  | .linkStateTimeout gate link => execLinkStateTimeout_evolves gate link he (.refl r s)
  | .linkRestartDelay gate link => execLinkRestartDelay_evolves gate link he (.refl r s)
  | .flitReceive gate link flit => execFlitReceive_evolves gate link flit he (.refl r s)
  | .nakReceive gate link seq => execNakReceive_evolves gate link seq he (.refl r s)
  | .retrainDone gate link ok lanes => execRetrainDone_evolves gate link ok lanes he (.refl r s)
  | .retrainWrite src gate link value => execRetrainWrite_evolves src gate link value he (.refl r s)
  | .segmentTimeout gate link => execSegmentTimeout_evolves gate link he (.refl r s)
  | .packetForward pkt => execPacketForward_evolves pkt he (.refl r s)
  | .linkWrite pkt => execLinkWrite_evolves pkt he (.refl r s)
  | .readReq pkt => execReadReq_evolves pkt he (.refl r s)
  | .readRsp pkt => execReadRsp_evolves pkt he (.refl r s)
  | .ack pkt => execAck_evolves pkt he (.refl r s)
  | .remoteSignal pkt => execRemoteSignal_evolves pkt he (.refl r s)
  | .bulk pkt => execBulk_evolves pkt he (.refl r s)
  | .ackTimeout req => execAckTimeout_evolves req he (.refl r s)
  | .routeDataAccess src write value => execRouteDataAccess_evolves src write value he (.refl r s)
  | .timeExchange t1 t2 t3 t4 ok => execTimeExchange_evolves t1 t2 t3 t4 ok he (.refl r s)
  | .gatJobTailWrite src value => execGatJobTailWrite_evolves src value he (.refl r s)
  | .jobTake gate => execJobTake_evolves gate he (.refl r s)
  | .redUp pkt => execRedUp_evolves pkt he (.refl r s)
  | .redDn pkt => execRedDn_evolves pkt he (.refl r s)
  | .jobComplete job => execJobComplete_evolves job he (.refl r s)
  | .ready pkt => execReady_evolves pkt he (.refl r s)
  | .deadline => execDeadline_evolves he (.refl r s)
  | .go pkt => execGo_evolves pkt he (.refl r s)
  | .vote pkt => execVote_evolves pkt he (.refl r s)
  | .squashNotice pkt => execSquashNotice_evolves pkt he (.refl r s)
  | .capture => execCapture_evolves he (.refl r s)
  | .captureDone => execCaptureDone_evolves he (.refl r s)
  | .buddySendDone => execBuddySendDone_evolves he (.refl r s)
  | .now src => execNow_evolves src he (.refl r s)
  | .restore src => execRestore_evolves src he (.refl r s)
  | .restoreDone image => execRestoreDone_evolves image he (.refl r s)
  | .ckpAbort src => execCkpAbort_evolves src he (.refl r s)
  | .errLogPop src seq => execErrLogPop_evolves src seq he (.refl r s)
  | .logData0Read src => execLogData0Read_evolves src he (.refl r s)
  | .errFirstRearm src page => execErrFirstRearm_evolves src page he (.refl r s)
  | .fatalClear src => execFatalClear_evolves src he (.refl r s)
  | .mtLoRead src => execMtLoRead_evolves src he (.refl r s)
  | .configRequest port write off value => execConfigRequest_evolves port write off value he (.refl r s)
  | .bar4Access port off write len data => execBar4Access_evolves port off write len data he (.refl r s)
  | .evtForceWrite src page value => execEvtForceWrite_evolves src page value he (.refl r s)
  | .evtEnWrite src page value => execEvtEnWrite_evolves src page value he (.refl r s)
  | .irqHoldoffExpire port vector => execIrqHoldoffExpire_evolves port vector he (.refl r s)
  | .vectorUnmask port vector => execVectorUnmask_evolves port vector he (.refl r s)
  | .pageLockWrite src page value => execPageLockWrite_evolves src page value he (.refl r s)
  | .srst src page => execSrst_evolves src page he (.refl r s)
  | .srstDone page => execSrstDone_evolves page he (.refl r s)
  | .cqEnable port queue value => execCqEnable_evolves port queue value he (.refl r s)
  | .cqDoorbell port queue value => execCqDoorbell_evolves port queue value he (.refl r s)
  | .cqFetch queue entries => execCqFetch_evolves queue entries he (.refl r s)
  | .cqNop queue => execCqNop_evolves queue he (.refl r s)
  | .desc queue => execDesc_evolves queue he (.refl r s)
  | .regw queue => execRegw_evolves queue he (.refl r s)
  | .copy queue => execCopy_evolves queue he (.refl r s)
  | .wait queue => execWait_evolves queue he (.refl r s)
  | .waitTimeout queue => execWaitTimeout_evolves queue he (.refl r s)
  | .cqSignal queue => execCqSignal_evolves queue he (.refl r s)
  | .cqResume port queue value => execCqResume_evolves port queue value he (.refl r s)
  | .cqFlush port queue value => execCqFlush_evolves port queue value he (.refl r s)
  | .winDataHiAccess src port write value => execWinDataHiAccess_evolves src port write value he (.refl r s)
  | .cplTimeout req => execCplTimeout_evolves req he (.refl r s)
  | .pcieLinkDown port => execPcieLinkDown_evolves port he (.refl r s)
  | .hotReset port => execHotReset_evolves port he (.refl r s)
  | .flr port => execFlr_evolves port he (.refl r s)
  | .d3hotEntry port => execD3hotEntry_evolves port he (.refl r s)
  | .portReturn port rate width => execPortReturn_evolves port rate width he (.refl r s)
  | .prtMapWrite src district value => execPrtMapWrite_evolves src district value he (.refl r s)
  | .prtPOwnerWrite src part value => execPrtPOwnerWrite_evolves src part value he (.refl r s)
  | .prtFarWrite src part size value => execPrtFarWrite_evolves src part size value he (.refl r s)
  | .pageOwnerWrite src page value => execPageOwnerWrite_evolves src page value he (.refl r s)
  | .vio12Apply mv => execVio12Apply_evolves mv he (.refl r s)
  | .bootDone res => execBootDone_evolves res he (.refl r s)
  | .imageStage src => execImageStage_evolves src he (.refl r s)
  | .imageProgram src => execImageProgram_evolves src he (.refl r s)
  | .imgDone flashOk => execImgDone_evolves flashOk he (.refl r s)
  | .svnCommit src => execSvnCommit_evolves src he (.refl r s)
  | .getVersion port req => execGetVersion_evolves port req he (.refl r s)
  | .getCapabilities port req => execGetCapabilities_evolves port req he (.refl r s)
  | .negotiateAlgorithms port req => execNegotiateAlgorithms_evolves port req he (.refl r s)
  | .getDigests port req => execGetDigests_evolves port req he (.refl r s)
  | .getCertificate port req => execGetCertificate_evolves port req he (.refl r s)
  | .challenge port req => execChallenge_evolves port req he (.refl r s)
  | .getMeasurements port req => execGetMeasurements_evolves port req he (.refl r s)
  | .keyExchange port req => execKeyExchange_evolves port req he (.refl r s)
  | .finish port req => execFinish_evolves port req he (.refl r s)
  | .endSession port req => execEndSession_evolves port req he (.refl r s)
  | .ideKm port stream msg => execIdeKm_evolves port stream msg he (.refl r s)
  | .ideLost port stream => execIdeLost_evolves port stream he (.refl r s)
  | .keyLoad src value => execKeyLoad_evolves src value he (.refl r s)
  | .keyErase src value => execKeyErase_evolves src value he (.refl r s)
  | .linkKeyInstall src value => execLinkKeyInstall_evolves src value he (.refl r s)
  | .secClear src => execSecClear_evolves src he (.refl r s)
  | .keysCleared => execKeysCleared_evolves he (.refl r s)
  | .vio12Loss => absurd rfl hc.2
  | .vanaApply mv => execVanaApply_evolves mv he (.refl r s)
  | .vanaLate => execVanaLate_evolves he (.refl r s)
  | .vanaLoss => execVanaLoss_evolves he (.refl r s)
  | .vinApply mv => execVinApply_evolves mv he (.refl r s)
  | .inputCharged => execInputCharged_evolves he (.refl r s)
  | .vinFault mv => execVinFault_evolves mv he (.refl r s)
  | .pwrResume src => execPwrResume_evolves src he (.refl r s)
  | .resumed => execResumed_evolves he (.refl r s)
  | .park src => execPark_evolves src he (.refl r s)
  | .parkGo src => execParkGo_evolves src he (.refl r s)
  | .shutdown src => execShutdown_evolves src he (.refl r s)
  | .parkGraceExpire => execParkGraceExpire_evolves he (.refl r s)
  | .parkComplete => execParkComplete_evolves he (.refl r s)
  | .domainAdmission domain => execDomainAdmission_evolves domain he (.refl r s)
  | .domainOn domain => execDomainOn_evolves domain he (.refl r s)
  | .domainFault domain => execDomainFault_evolves domain he (.refl r s)
  | .domainOff domain => execDomainOff_evolves domain he (.refl r s)
  | .pllStart pll => execPllStart_evolves pll he (.refl r s)
  | .pllLock pll => execPllLock_evolves pll he (.refl r s)
  | .pllUnlock pll => execPllUnlock_evolves pll he (.refl r s)
  | .xtalFail => execXtalFail_evolves he (.refl r s)
  | .governorTick est demand vinCurrent => execGovernorTick_evolves est demand vinCurrent he (.refl r s)
  | .thermalSample temps => execThermalSample_evolves temps he (.refl r s)
  | .parkNChange level => execParkNChange_evolves level he (.refl r s)
  | .throttleNChange level => execThrottleNChange_evolves level he (.refl r s)
  | .sidebandNoise pin => execSidebandNoise_evolves pin he (.refl r s)
  | .noiseQuiet pin => execNoiseQuiet_evolves pin he (.refl r s)
  | .noiseWindowEnd pin => execNoiseWindowEnd_evolves pin he (.refl r s)
  | .resetNAssert => absurd rfl hc.1
  | .resetNRelease => execResetNRelease_evolves he (.refl r s)
  | .bstRun src => execBstRun_evolves src he (.refl r s)
  | .bstAbort src => execBstAbort_evolves src he (.refl r s)
  | .domainTestDone res => execDomainTestDone_evolves res he (.refl r s)
  | .bstDone => execBstDone_evolves he (.refl r s)
  | .fenceClear src domain => execFenceClear_evolves src domain he (.refl r s)
  | .claim src unit claim => execClaim_evolves src unit claim he (.refl r s)
  | .chkReset src unit => execChkReset_evolves src unit he (.refl r s)
  | .feed8 src unit value => execFeed8_evolves src unit value he (.refl r s)
  | .feed16 src unit value => execFeed16_evolves src unit value he (.refl r s)
  | .feed32 src unit value => execFeed32_evolves src unit value he (.refl r s)
  | .valueHiWrite src unit value => execValueHiWrite_evolves src unit value he (.refl r s)
  | .chkValueLoRead src unit => execChkValueLoRead_evolves src unit he (.refl r s)
  | .chkResultLoRead src unit => execChkResultLoRead_evolves src unit he (.refl r s)
  | .freeze src inst on => execFreeze_evolves src inst on he (.refl r s)
  | .dbgStep src inst => execDbgStep_evolves src inst he (.refl r s)
  | .peekDataAccess src inst write value => execPeekDataAccess_evolves src inst write value he (.refl r s)
  | .readVersion => execReadVersion_evolves he (.refl r s)
  | .readSupplySts => execReadSupplySts_evolves he (.refl r s)
  | .readPwrSts => execReadPwrSts_evolves he (.refl r s)
  | .readPwrTemp => execReadPwrTemp_evolves he (.refl r s)
  | .readPwrEst => execReadPwrEst_evolves he (.refl r s)
  | .readErrSts => execReadErrSts_evolves he (.refl r s)
  | .readSideband => execReadSideband_evolves he (.refl r s)
  | .readModuleTime => execReadModuleTime_evolves he (.refl r s)
  | .readErrorRecord => execReadErrorRecord_evolves he (.refl r s)
  | .smbClkTimeout => execSmbClkTimeout_evolves he (.refl r s)
  | .extest => execExtest_evolves he (.refl r s)
  | .idcode => execIdcode_evolves he (.refl r s)
  | .samplePreload => execSamplePreload_evolves he (.refl r s)
  | .clamp => execClamp_evolves he (.refl r s)
  | .highz => execHighz_evolves he (.refl r s)
  | .extestPulse => execExtestPulse_evolves he (.refl r s)
  | .extestTrain => execExtestTrain_evolves he (.refl r s)
  | .privateScan code => execPrivateScan_evolves code he (.refl r s)
  | .bypass => execBypass_evolves he (.refl r s)
  | .tapReset => execTapReset_evolves he (.refl r s)
  | .codewordAlignmentLoss gate link => execCodewordAlignmentLoss_evolves gate link he (.refl r s)
  | .perstNChange port level => execPerstNChange_evolves port level he (.refl r s)
  | .vinOutOfRange mv => execVinOutOfRange_evolves mv he (.refl r s)
  | .hostCompletion req data => execHostCompletion_evolves req data he (.refl r s)

/-- Every command evolves the state at least as a reset does. -/
theorem exec_evolves_reset (he : exec c s = .next t) : Evolves true s t := by
  by_cases h1 : c = .resetNAssert
  · subst h1
    exact execResetNAssert_evolves he (.refl true s)
  by_cases h2 : c = .vio12Loss
  · subst h2
    exact execVio12Loss_evolves he (.refl true s)
  exact exec_evolves_of_noReset ⟨h1, h2⟩ he

/-- The state on which a step runs its command, or lets time pass: the queue without its front. -/
def State.dequeued (s : State) : State := { s with pending := s.pending.tail }

/-- What a step does is what time or the command at the front of the queue does. -/
theorem step_evolves (he : step s = .next t)
    (hexec : ∀ c, s.pending.head? = some c → exec c s.dequeued = .next t → Evolves r s.dequeued t) : Evolves r s.dequeued t := by
  unfold step at he
  split at he
  · next hp =>
    injection he with he
    have hd : s.dequeued = s := by rw [State.dequeued, hp, List.tail_nil, ← hp]
    rw [← he, hd]
    exact State.tick_evolves (.refl r s)
  · next c rest hp =>
    have hd : s.dequeued = { s with pending := rest } := by simp only [State.dequeued, hp, List.tail_cons]
    exact hexec c (by rw [hp, List.head?_cons]) (hd ▸ he)

/-- Every step evolves the state without the command it takes, as a reset may. -/
theorem step_evolves_reset (he : step s = .next t) : Evolves true s.dequeued t :=
  step_evolves he fun _ _ => exec_evolves_reset

/-- A step of neither of the two resetting commands evolves it as no reset does. -/
theorem step_evolves_of_noReset (he : step s = .next t) (h1 : s.pending.head? ≠ some .resetNAssert)
    (h2 : s.pending.head? ≠ some .vio12Loss) : Evolves false s.dequeued t :=
  step_evolves he fun _ hc => exec_evolves_of_noReset ⟨fun h => h1 (h ▸ hc), fun h => h2 (h ▸ hc)⟩

theorem canonical_iff : s.canonical = true ↔
    Memory.wf s.mem = true ∧ keysRise s.regs = true ∧ rises 0 s.poison = true ∧ Parts s := by
  simp only [State.canonical, Bool.and_eq_true, parts_iff, and_assoc]

/-- An evolution keeps the canonical form. -/
theorem Evolves.canonical (h : Evolves r s t) (hs : s.canonical = true) : t.canonical = true := by
  obtain ⟨hmem, hregs, hpoison, hparts⟩ := canonical_iff.mp hs
  exact canonical_iff.mpr ⟨h.mem hmem, h.regs hregs, h.poison hpoison, h.parts hparts⟩

end Sys2Proof.Machine

namespace Sys2Proof.Machine

/-- Settles O53: every command's law keeps the canonical form, which says nothing of the queue. -/
theorem canonicalKept : Obligations.CanonicalKept := by
  intro s t hs he
  exact (step_evolves_reset he).canonical hs

/-- Settles O54: only the two excepted commands evolve the state as a reset. -/
theorem voidAndHoldLast : Obligations.VoidAndHoldLast := by
  intro s t he h1 h2
  have h := step_evolves_of_noReset he h1 h2
  exact ⟨h.hold rfl, h.ao rfl, h.void rfl⟩

/-- Settles O55: what resets leave standing too. -/
theorem historyOnlyGrows : Obligations.HistoryOnlyGrows := by
  intro s t he
  have h := step_evolves_reset he
  exact ⟨h.out, h.svn, h.log, h.pending, h.free⟩

/-- Settles O1: `step` reads the front of the queue and nothing else. -/
theorem stepTakesFront : Obligations.StepTakesFront := fun _ _ _ => rfl

/-- Settles O56: at reset every list is empty. -/
theorem resetMeetsInvariants : Obligations.ResetMeetsInvariants :=
  ⟨by decide, by decide, fun i => Nat.zero_testBit i⟩

end Sys2Proof.Machine
end

section
/-! PROOFS. The three rounding modes (R46, R47), read on the folded quotient N/D in units of the grid. -/
namespace Sys2Proof.Machine

theorem roundQ_rne (n d : Nat) (e q : Int) : roundQ .rne n d e q =
    let (N, D) := foldExp n d (e - q)
    if 2 * (N % D) < D then N / D else if D < 2 * (N % D) then N / D + 1 else N / D + N / D % 2 := rfl

/-- The integer that RNE takes for N/D is within half of it, and even where it is exactly a half away (R46). -/
theorem nearestEven_spec {N D m : Nat} (hD : 0 < D)
    (hm : m = if 2 * (N % D) < D then N / D else if D < 2 * (N % D) then N / D + 1 else N / D + N / D % 2) :
    2 * N ≤ (2 * m + 1) * D ∧ 2 * m * D ≤ 2 * N + D ∧
      (2 * N = (2 * m + 1) * D ∨ 2 * m * D = 2 * N + D → m % 2 = 0) := by
  have hN : N = N / D * D + N % D := (Nat.div_add_mod' N D).symm
  have hr := Nat.mod_lt N hD
  generalize N / D = a at hN hm
  generalize N % D = r at hN hr hm
  rw [Nat.add_mul, Nat.one_mul, Nat.mul_assoc]
  split at hm
  case isTrue h => subst hm; omega
  case isFalse h =>
    split at hm
    case isTrue h => subst hm; rw [Nat.add_mul, Nat.one_mul]; omega
    case isFalse h' =>
      obtain h0 | h1 := Nat.mod_two_eq_zero_or_one a
      · rw [h0, Nat.add_zero] at hm; subst hm; omega
      · rw [h1] at hm; subst hm; rw [Nat.add_mul, Nat.one_mul]; omega

/-- SR steps up exactly where the remainder, as a 32-bit fraction, and the random word carry (R47). -/
theorem roundQ_sr (z n d : Nat) (e q : Int) : roundQ (.sr z) n d e q =
    let (N, D) := foldExp n d (e - q)
    N / D + if 2 ^ 32 ≤ N % D * 2 ^ 32 / D + z then 1 else 0 := by
  simp only [roundQ]
  split <;> rfl

/-- Settles O8: each mode by its own test on the remainder. -/
theorem roundingModes : Obligations.RoundingModes := by
  intro n d e q hd N D
  have hD : 0 < D := foldExp_snd_pos n (Nat.ne_of_gt hd) (e - q)
  refine ⟨nearestEven_spec hD rfl, ⟨Nat.div_mul_le_self N D, Nat.mul_comm D _ ▸ Nat.lt_mul_div_succ N hD⟩, fun z hz => ?_⟩
  refine ⟨roundQ_sr z n d e q, fun hgrid => ?_⟩
  have hN : N = N / D * D := (Nat.div_mul_cancel (Nat.dvd_of_mod_eq_zero hgrid)).symm
  have hr : ∀ w, Rnd.sr z = .sr w → w < 2 ^ 32 := fun w hw => Rnd.sr.inj hw ▸ hz
  rw [roundQ_of_dvd hr (Nat.ne_of_gt hd) hN]
  exact hN.symm

end Sys2Proof.Machine
end

section
/-! PROOFS. Codes of the float element formats (R19, R20, R44): a code is its sign, exponent and fraction fields, and the encoder
puts the fields of a decoded value back. -/
namespace Sys2Proof.Machine

/-! ### The fields of a code -/

/-- The exponent field of a code. -/
def FloatFmt.expField (f : FloatFmt) (v : Nat) : Nat := bits v (f.ebits + f.mbits - 1) f.mbits

/-- The finite value of a sign, an exponent field and a fraction field. -/
def FloatFmt.finValue (f : FloatFmt) (s : Bool) (E M : Nat) : Fp :=
  if E = 0 then .fin s M (f.emin - f.mbits) else .fin s (2 ^ f.mbits + M) ((E : Int) - f.bias - f.mbits)

variable {f : FloatFmt} {v : Nat}

theorem FloatFmt.expField_eq (hf : 0 < f.ebits) : f.expField v = v / 2 ^ f.mbits % 2 ^ f.ebits := by
  have hwidth : f.ebits + f.mbits - 1 + 1 - f.mbits = f.ebits := by omega
  rw [expField, bits, Nat.shiftRight_eq_div_pow, hwidth]

/-- A code is its three fields. -/
theorem FloatFmt.fields_eq (hf : 0 < f.ebits) (hv : v < 2 ^ f.width) :
    b2n (bit v (f.ebits + f.mbits)) * 2 ^ (f.ebits + f.mbits) + (f.expField v * 2 ^ f.mbits + v % 2 ^ f.mbits) = v := by
  have htop : v / 2 ^ f.mbits / 2 ^ f.ebits < 2 := by
    rw [Nat.div_div_eq_div_mul, ← Nat.pow_add]
    refine Nat.div_lt_of_lt_mul ?_
    rwa [← Nat.pow_succ, show (f.mbits + f.ebits).succ = f.width by simp only [FloatFmt.width]; omega]
  have hsign : b2n (bit v (f.ebits + f.mbits)) = v / 2 ^ f.mbits / 2 ^ f.ebits := by
    rw [bit, Nat.shiftRight_eq_div_pow, Nat.add_comm, Nat.pow_add, ← Nat.div_div_eq_div_mul, Nat.mod_eq_of_lt htop, b2n]
    obtain h0 | h1 := Nat.le_one_iff_eq_zero_or_eq_one.mp (Nat.le_of_lt_succ htop)
    · rw [h0]; rfl
    · rw [h1]; rfl
  rw [hsign, expField_eq hf, Nat.pow_add, ← Nat.mul_assoc, ← Nat.add_assoc, ← Nat.add_mul, Nat.div_add_mod',
    Nat.div_add_mod']

theorem decodeFp_eq : decodeFp f v =
    match f.special with
    | .none => f.finValue (bit v (f.ebits + f.mbits)) (f.expField v) (v % 2 ^ f.mbits)
    | .nan20 => if v % 2 ^ f.width = 0x20 then .nan else
        f.finValue (bit v (f.ebits + f.mbits)) (f.expField v) (v % 2 ^ f.mbits)
    | .nan7F => if f.expField v = 2 ^ f.ebits - 1 ∧ v % 2 ^ f.mbits = 2 ^ f.mbits - 1 then .nan else
        f.finValue (bit v (f.ebits + f.mbits)) (f.expField v) (v % 2 ^ f.mbits)
    | .ieee => if f.expField v = 2 ^ f.ebits - 1 then
          (if v % 2 ^ f.mbits = 0 then .inf (bit v (f.ebits + f.mbits)) else .nan)
        else f.finValue (bit v (f.ebits + f.mbits)) (f.expField v) (v % 2 ^ f.mbits) := rfl

/-! ### Encoding -/

theorem roundQ_rtz_self (m : Nat) (e : Int) : roundQ .rtz m 1 e e = m := by
  simp only [roundQ, foldExp, Int.sub_self, Int.le_refl, if_true, Int.toNat_zero, Nat.pow_zero, Nat.mul_one, Nat.div_one]

/-- A subnormal significand is in normal form as it stands. -/
theorem normMag_subnormal {M : Nat} (h : M < 2 ^ f.mbits) : normMag f M (f.emin - f.mbits) = (M, f.emin - f.mbits) := by
  unfold normMag
  split
  case isTrue h0 => rw [h0]
  case isFalse h0 =>
    have hlog : Nat.log2 M < f.mbits := (Nat.log2_lt h0).mpr h
    dsimp only
    rw [if_pos (by omega), roundQ_rtz_self]

/-- So is a significand with its leading one, at an exponent that the format has. -/
theorem normMag_normal {M : Nat} (h : M < 2 ^ f.mbits) {e : Int} (he : f.emin ≤ e + f.mbits) :
    normMag f (2 ^ f.mbits + M) e = (2 ^ f.mbits + M, e) := by
  have hpos := Nat.two_pow_pos f.mbits
  have h0 : 2 ^ f.mbits + M ≠ 0 := by omega
  have hlog : Nat.log2 (2 ^ f.mbits + M) = f.mbits := (Nat.log2_eq_iff h0).mpr ⟨by omega, by rw [Nat.pow_succ]; omega⟩
  rw [normMag, if_neg h0, hlog]
  dsimp only
  rw [if_neg (by omega), show (f.mbits : Int) + e - f.mbits = e by omega, roundQ_rtz_self]

/-- The encoder puts the fields of a finite value back; of the two zeros plain FP6 has one code (R20). -/
theorem encodeFp_finValue {s : Bool} {E M : Nat} (hM : M < 2 ^ f.mbits) : encodeFp f (f.finValue s E M) =
    (if f.special = .nan20 ∧ E = 0 ∧ M = 0 then 0 else b2n s * 2 ^ (f.ebits + f.mbits)) + (E * 2 ^ f.mbits + M) := by
  unfold FloatFmt.finValue
  split
  case isTrue hE =>
    subst hE
    simp only [encodeFp, normMag_subnormal hM, if_pos hM, true_and, Nat.zero_mul, Nat.zero_add]
  case isFalse hE =>
    have hpos := Nat.two_pow_pos f.mbits
    have hnot : ¬ 2 ^ f.mbits + M < 2 ^ f.mbits := by omega
    have hzero : ¬ 2 ^ f.mbits + M = 0 := by omega
    have hexp : ((E : Int) - f.bias - f.mbits + f.mbits + f.bias).toNat = E := by omega
    simp only [encodeFp, normMag_normal hM (e := (E : Int) - f.bias - f.mbits) (by simp only [FloatFmt.emin]; omega),
      if_neg hnot, hzero, hexp, hE, and_false, false_and, if_false, Nat.add_sub_cancel_left]

/-- What the proof asks of a format: plain FP6 has five bits below its sign, so that its NaN is the code of −0 (R20). -/
def FloatFmt.Fits (f : FloatFmt) : Prop := 0 < f.ebits ∧ (f.special = .nan20 → f.ebits + f.mbits = 5)

theorem encodeFp_decodeFp_finite (hf : f.Fits) (hv : v < 2 ^ f.width) (hzero : f.special = .nan20 → v ≠ 0x20) :
    encodeFp f (f.finValue (bit v (f.ebits + f.mbits)) (f.expField v) (v % 2 ^ f.mbits)) = v := by
  have hfields := f.fields_eq hf.1 hv
  rw [encodeFp_finValue (Nat.mod_lt v (Nat.two_pow_pos _))]
  split
  case isFalse => exact hfields
  case isTrue h =>
    obtain ⟨hs, hE, hM⟩ := h
    rw [hE, hM, hf.2 hs] at hfields
    have hne := hzero hs
    rw [hE, hM]
    cases hb : bit v 5 <;> simp only [hb, b2n, Bool.false_eq_true, if_true, if_false] at hfields <;> omega

/-- A code that is no NaN is what the encoder writes for its value. -/
theorem encodeFp_decodeFp (hf : f.Fits) (hv : v < 2 ^ f.width) (h : decodeFp f v ≠ .nan) :
    encodeFp f (decodeFp f v) = v := by
  have hfinite := encodeFp_decodeFp_finite hf hv
  rw [decodeFp_eq] at h ⊢
  cases hs : f.special <;> simp only [hs] at h ⊢
  case none => exact hfinite (by rw [hs]; nofun)
  case nan20 =>
    split at h
    case isTrue => exact absurd rfl h
    case isFalse hne => rw [if_neg hne]; exact hfinite fun _ hv' => hne (by rw [Nat.mod_eq_of_lt hv, hv'])
  case nan7F =>
    split at h
    case isTrue => exact absurd rfl h
    case isFalse hne => rw [if_neg hne]; exact hfinite (by rw [hs]; nofun)
  case ieee =>
    split at h
    case isFalse hne => rw [if_neg hne]; exact hfinite (by rw [hs]; nofun)
    case isTrue htop =>
      split at h
      case isFalse => exact absurd rfl h
      case isTrue hM =>
        have hfields := f.fields_eq hf.1 hv
        rw [htop, hM, Nat.add_zero] at hfields
        rw [if_pos htop, if_pos hM]
        exact hfields

/-- The eleven float encodings of R19 and R20. -/
def floatFmts : List FloatFmt := [fE2M1, fE2M3, fE3M2, fE2M3p, fE3M2p, fE4M3, fE5M2, fFP16, fBF16, fFP32, fW36]

theorem fits_of_mem_floatFmts : ∀ f ∈ floatFmts, f.Fits := by
  unfold FloatFmt.Fits
  decide

theorem decodeFp_canonNaN_of_mem_floatFmts : ∀ f ∈ floatFmts, f.special ≠ .none → decodeFp f (canonNaN f) = .nan := by
  decide

/-- A format without NaN decodes none. -/
theorem decodeFp_ne_nan (h : f.special = .none) : decodeFp f v ≠ .nan := by
  simp only [decodeFp_eq, h, FloatFmt.finValue]
  split <;> nofun

/-- Settles O4: the fields of a code come back, and a NaN is encoded as the one code that stands for it. -/
theorem formatCodesRoundTrip : Obligations.FormatCodesRoundTrip := by
  intro f hf v hv
  refine ⟨encodeFp_decodeFp (fits_of_mem_floatFmts f hf) hv, fun hnan => ⟨by rw [hnan, encodeFp], ?_⟩⟩
  exact decodeFp_canonNaN_of_mem_floatFmts f hf fun hnone => decodeFp_ne_nan hnone hnan

end Sys2Proof.Machine
end

section
/-! PROOFS. The carry of a master update (R62, R63): rounding to nearest drops at most half a unit in the last place, so that what
it dropped is at most 64 of the carry's units. -/
namespace Sys2Proof.Machine

/-! ### Half a unit of the grid -/

theorem mag_succ (m : Nat) (e : Int) : mag m (e + 1) = 2 * mag m e := by
  rw [mag_add, Rat.mul_comm]
  rfl

theorem mag_nat_add (m n : Nat) (e : Int) : mag (m + n) e = mag m e + mag n e := by
  rw [mag, Rat.natCast_add, Rat.add_mul]
  rfl

theorem mag_nat_mul (m n : Nat) (e : Int) : mag (m * n) e = m * mag n e := by
  rw [mag, mag, Rat.natCast_mul, Rat.mul_assoc]

/-- The folded quotient N/D is n × 2^e in units of 2^q. -/
theorem mag_foldExp (n : Nat) (e q : Int) :
    mag (foldExp n 1 (e - q)).1 q = mag ((foldExp n 1 (e - q)).2 * n) e := by
  unfold foldExp
  split <;> dsimp only
  case isTrue h => rw [mag_shift, Nat.one_mul, show q + ((e - q).toNat : Int) = e by omega]
  case isFalse h => rw [Nat.one_mul, Nat.mul_comm, mag_shift, show e + ((-(e - q)).toNat : Int) = q by omega]

/-- RNE moves a magnitude by at most half a unit of the grid (R46). -/
theorem roundQ_rne_near (n : Nat) (e q : Int) :
    2 * mag n e ≤ 2 * mag (roundQ .rne n 1 e q) q + mag 1 q ∧
      2 * mag (roundQ .rne n 1 e q) q ≤ 2 * mag n e + mag 1 q := by
  have hD := foldExp_snd_pos n Nat.one_ne_zero (e - q)
  obtain ⟨hup, hdown, -⟩ := nearestEven_spec (N := (foldExp n 1 (e - q)).1) hD (roundQ_rne n 1 e q)
  have hN := mag_foldExp n e q
  generalize roundQ .rne n 1 e q = m at hup hdown ⊢
  generalize (foldExp n 1 (e - q)).1 = N at hup hdown hN
  generalize (foldExp n 1 (e - q)).2 = D at hD hup hdown hN
  have hpos : (0 : Rat) < D := Rat.natCast_pos.mpr hD
  rw [mag_nat_mul] at hN
  constructor
  · have h := mag_le_mag_iff (e := q).mpr hup
    rw [Nat.mul_comm _ D, mag_nat_mul 2, mag_nat_mul D, mag_nat_add, mag_nat_mul 2, hN] at h
    push_cast at h
    exact Rat.le_of_mul_le_mul_left (by grind) hpos
  · have h := mag_le_mag_iff (e := q).mpr hdown
    rw [Nat.mul_comm _ D, mag_nat_add, mag_nat_mul 2 N, mag_nat_mul D, mag_nat_mul 2, hN, ← Nat.mul_one D, mag_nat_mul D 1] at h
    push_cast at h
    exact Rat.le_of_mul_le_mul_left (by grind) hpos

/-- The difference of two values of one sign is at most any bound within which their magnitudes lie. -/
theorem Fp.sub_near {s t : Bool} {m n k : Nat} {e g q : Int} {b : Rat} (h : Fp.sub (.fin s m e) (.fin s n g) = .fin t k q)
    (hup : mag m e ≤ mag n g + b) (hdown : mag n g ≤ mag m e + b) : mag k q ≤ b := by
  simp only [Fp.sub, Fp.neg, Fp.add] at h
  generalize hp : (if e ≤ g then e else g) = p at h
  have hx : mag (m * 2 ^ (e - p).toNat) p = mag m e := by
    rw [mag_shift, show p + ((e - p).toNat : Int) = e by split at hp <;> omega]
  have hy : mag (n * 2 ^ (g - p).toNat) p = mag n g := by
    rw [mag_shift, show p + ((g - p).toNat : Int) = g by split at hp <;> omega]
  generalize m * 2 ^ (e - p).toNat = x at h hx
  generalize n * 2 ^ (g - p).toNat = y at h hy
  rw [← hx, ← hy] at hup hdown
  have hs : ¬ s = !s := by cases s <;> nofun
  rw [if_neg hs] at h
  split at h
  case isTrue hxy =>
    obtain ⟨-, rfl, rfl⟩ := Fp.fin.inj h
    rw [hxy] at hup
    rw [mag_zero]
    grind
  case isFalse =>
    split at h
    case isTrue hlt =>
      obtain ⟨-, rfl, rfl⟩ := Fp.fin.inj h
      have hsum : mag x p = mag (x - y) p + mag y p := by rw [← mag_nat_add, Nat.sub_add_cancel (Nat.le_of_lt hlt)]
      grind
    case isFalse hge =>
      obtain ⟨-, rfl, rfl⟩ := Fp.fin.inj h
      have hsum : mag y p = mag (y - x) p + mag x p := by rw [← mag_nat_add, Nat.sub_add_cancel (Nat.le_of_not_lt hge)]
      grind

/-! ### The unit in the last place of a rounded value -/

theorem neg149_le_ulpExp (w : Fp) : -149 ≤ ulpExp w := by
  unfold ulpExp
  split
  · split
    · exact Int.le_refl _
    · dsimp only
      split <;> omega
  · exact Int.le_refl _

/-- A value of at least 2^23 units of a grid has no smaller unit of its own. -/
theorem le_ulpExp {s : Bool} {m : Nat} {e q : Int} (h : mag (2 ^ 23) q ≤ mag m e) : q ≤ ulpExp (.fin s m e) := by
  have hm : m ≠ 0 := by
    rintro rfl
    rw [mag_zero] at h
    exact absurd (mag_pos (by decide) q) (Rat.not_lt.mpr h)
  have hlog : q + 23 < e + m.log2 + 1 := by
    refine Int.not_le.mp fun hge => ?_
    have h1 : mag 1 (e + m.log2 + 1) ≤ mag m e := by
      refine Rat.le_trans (mag_mono 1 hge) ?_
      have h2 := mag_shift 1 23 q
      rw [Nat.one_mul] at h2
      exact h2 ▸ h
    exact absurd (mag_lt_log2 m e) (Rat.not_lt.mpr h1)
  simp only [ulpExp, if_neg hm]
  split <;> omega

/-- The grid on which a magnitude is rounded to FP32 is no coarser than the unit in the last place of the result. -/
theorem roundExp_le_ulpExp (s : Bool) {n : Nat} (hn : n ≠ 0) (e : Int) :
    roundExp fFP32 n 1 e ≤ ulpExp (.fin s (roundMag fFP32 .rne n 1 e).1 (roundMag fFP32 .rne n 1 e).2) := by
  by_cases hsub : log2Rat n 1 + e < fFP32.emin
  · have hq : roundExp fFP32 n 1 e = -149 := by rw [roundExp, if_pos hsub]; rfl
    exact hq ▸ neg149_le_ulpExp _
  · refine le_ulpExp ?_
    rw [mag_roundMag fFP32 .rne hn 1 e]
    have hq : roundExp fFP32 n 1 e + 23 = log2Rat n 1 + e := by
      rw [roundExp, if_neg hsub]
      exact Int.sub_add_cancel _ _
    have hlow : mag (1 * 2 ^ 23) (roundExp fFP32 n 1 e) ≤ mag n e := by
      rw [mag_shift]
      exact hq ▸ (log2Rat_spec hn Nat.one_ne_zero e).1
    have hnear := (roundQ_rne_near n e (roundExp fFP32 n 1 e)).1
    generalize roundExp fFP32 n 1 e = q at *
    have hodd : mag (2 * 2 ^ 23) q ≤ mag (2 * roundQ .rne n 1 e q + 1) q := by
      rw [mag_nat_add, mag_nat_mul 2, mag_nat_mul 2]
      rw [Nat.one_mul] at hlow
      push_cast
      grind
    rw [mag_le_mag_iff] at hodd ⊢
    omega

/-- What rounding to FP32 dropped is at most half a unit in the last place of the result (R62). -/
theorem convFp_rne_dropped {s t : Bool} {m n k : Nat} {e g q : Int} (hw : (convFp fFP32 .rne (.fin s m e)).1 = .fin s n g)
    (hsat : (convFp fFP32 .rne (.fin s m e)).2.sat = 0) (h : Fp.sub (.fin s m e) (.fin s n g) = .fin t k q) :
    mag k (q + 1) ≤ mag 1 (ulpExp (.fin s n g)) := by
  simp only [convFp, convRat] at hw hsat
  split at hw
  case isTrue hlarge => simp only [hlarge, if_true, Nat.one_ne_zero] at hsat
  case isFalse hlarge =>
    injection hw with _ hn hg
    subst hn hg
    by_cases hm : m = 0
    · subst hm
      simp only [roundMag, if_true] at h
      have hle : mag k q ≤ 0 := Fp.sub_near h (by simp only [mag_zero, Rat.add_zero, Rat.le_refl])
        (by simp only [mag_zero, Rat.add_zero, Rat.le_refl])
      rw [mag_succ]
      have hnn := mag_nonneg 1 (ulpExp (.fin s (roundMag fFP32 .rne 0 1 e).1 (roundMag fFP32 .rne 0 1 e).2))
      simp only [roundMag, if_true] at hnn ⊢
      grind
    · obtain ⟨hup, hdown⟩ := roundQ_rne_near m e (roundExp fFP32 m 1 e)
      rw [← mag_roundMag fFP32 .rne hm] at hup hdown
      have hle := Fp.sub_near (b := mag 1 (roundExp fFP32 m 1 e) / 2) h (by grind) (by grind)
      rw [mag_succ]
      have hulp := mag_mono 1 (roundExp_le_ulpExp s hm e)
      grind

/-! ### The carry byte -/

/-- What was dropped is at most 64 carry units, each of ulp / 128. -/
theorem carryUnits_le {k : Nat} {q u : Int} (h : mag k (q + 1) ≤ mag 1 u) : roundQ .rne k 1 (q + 7 - u) 0 ≤ 64 := by
  refine roundQ_le (by nofun) Nat.one_ne_zero ?_
  rw [mag_sub_le_iff, Int.zero_add, Nat.mul_one, show q + 7 = q + 1 + (6 : Nat) by omega, ← mag_shift]
  have hsix := mag_nat_mul 64 1 u
  rw [Nat.mul_comm, mag_nat_mul]
  rw [Nat.mul_one] at hsix
  rw [hsix]
  exact Rat.mul_le_mul_of_nonneg_left h (by decide)

/-- A carry of at most 127 units comes back with its sign. -/
theorem sext_carry {n : Nat} (h : n ≤ 127) (s : Bool) : sext (wrapInt (if s then -(n : Int) else n) 8) 8 = if s then -(n : Int) else n := by
  refine sext_wrapInt ?_ ?_ <;> split <;> omega

/-- The carry code of an exact sum and the value that it was rounded to. -/
def carryCode (y wn : Fp) : Nat :=
  match y.sub wn with
  | .fin s m e => wrapInt (if s then -((min (roundQ .rne m 1 (e + 7 - ulpExp wn) 0) 127 : Nat) : Int)
      else ((min (roundQ .rne m 1 (e + 7 - ulpExp wn) 0) 127 : Nat) : Int)) 8
  | _ => 0

/-- The exact sum of a master, its update and its carry. -/
def carrySum (w d c : Nat) : Fp :=
  (fp32 w).add ((fp32 d).add ((Fp.ofInt (sext c 8)).mul (.fin false 1 (ulpExp (fp32 w) - 7))))

/-- A finite magnitude stays finite, with its sign, in every format (R42). -/
theorem convRat_fin (f : FloatFmt) (r : Rnd) (s : Bool) (n d : Nat) (e : Int) :
    ∃ m g, (convRat f r s n d e).1 = .fin s m g := by
  simp only [convRat]
  split
  · exact ⟨_, _, rfl⟩
  · exact ⟨_, _, rfl⟩

/-- A sum that is not finite leaves no carry. -/
theorem carryApply_of_not_fin {w d c : Nat} (h : (carrySum w d c).isFin = false) :
    (carryApply w d c).2 = (0, carrySum w d c, false) := by
  generalize hy : carrySum w d c = y at h
  rw [carrySum] at hy
  simp only [carryApply, hy]
  cases y with
  | nan => rfl
  | inf s => rfl
  | fin s m e => cases h

/-- A finite sum leaves none where it saturates, and what rounding dropped where it does not. -/
theorem carryApply_of_fin {w d c : Nat} {s : Bool} {m : Nat} {e : Int} (h : carrySum w d c = .fin s m e) :
    (carryApply w d c).2 =
      let r := convRat fFP32 .rne s m 1 e
      if r.2.sat ≠ 0 then (0, r.1, true) else (carryCode (.fin s m e) r.1, r.1, false) := by
  obtain ⟨n, g, hw⟩ := convRat_fin fFP32 .rne s m 1 e
  rw [carrySum] at h
  simp only [carryApply, h, convFp, hw]
  split <;> rfl

/-- A carry code within 64 units. -/
def SmallCarry (n : Nat) : Prop := n < 256 ∧ -64 ≤ sext n 8 ∧ sext n 8 ≤ 64

theorem smallCarry_zero : SmallCarry 0 := by
  unfold SmallCarry
  decide

theorem smallCarry_wrapInt {n : Nat} (h : n ≤ 64) (s : Bool) : SmallCarry (wrapInt (if s then -(n : Int) else n) 8) := by
  rw [SmallCarry, sext_carry (Nat.le_trans h (by decide)) s]
  exact ⟨wrapInt_lt _ 8, by split <;> omega, by split <;> omega⟩

/-- The carry code of a rounding that did not saturate: the nearest number of units to what it dropped. -/
theorem carryCode_of_sub {s t : Bool} {m k : Nat} {e q : Int} (hsat : (convRat fFP32 .rne s m 1 e).2.sat = 0)
    (h : Fp.sub (.fin s m e) (convRat fFP32 .rne s m 1 e).1 = .fin t k q) :
    let n := roundQ .rne k 1 (q + 7 - ulpExp (convRat fFP32 .rne s m 1 e).1) 0
    n ≤ 64 ∧ carryCode (.fin s m e) (convRat fFP32 .rne s m 1 e).1 = wrapInt (if t then -(n : Int) else n) 8 := by
  intro n
  have hle : n ≤ 64 := by
    obtain ⟨a, g, hw⟩ := convRat_fin fFP32 .rne s m 1 e
    simp only [n, hw] at h ⊢
    exact carryUnits_le (convFp_rne_dropped hw hsat h)
  refine ⟨hle, ?_⟩
  simp only [carryCode, h]
  rw [Nat.min_eq_left (Nat.le_trans hle (by decide))]

theorem smallCarry_carryCode {s : Bool} {m : Nat} {e : Int} (hsat : (convRat fFP32 .rne s m 1 e).2.sat = 0) :
    SmallCarry (carryCode (.fin s m e) (convRat fFP32 .rne s m 1 e).1) := by
  cases hrem : Fp.sub (.fin s m e) (convRat fFP32 .rne s m 1 e).1 with
  | nan => rw [carryCode, hrem]; exact smallCarry_zero
  | inf t => rw [carryCode, hrem]; exact smallCarry_zero
  | fin t k q =>
    obtain ⟨hle, hcode⟩ := carryCode_of_sub hsat hrem
    rw [hcode]
    exact smallCarry_wrapInt hle t

theorem isFin_convRat (f : FloatFmt) (r : Rnd) (s : Bool) (n d : Nat) (e : Int) : (convRat f r s n d e).1.isFin = true := by
  obtain ⟨m, g, h⟩ := convRat_fin f r s n d e
  rw [h, Fp.isFin]

theorem Fp.exists_of_isFin {y : Fp} (h : y.isFin = true) : ∃ s m e, y = .fin s m e := by
  cases y with
  | nan => cases h
  | inf s => cases h
  | fin s m e => exact ⟨s, m, e, rfl⟩

/-- A difference with the same value that is not finite is not finite. -/
theorem Fp.sub_self_of_not_fin {y : Fp} (h : y.isFin = false) : (y.sub y).isFin = false := by
  cases y with
  | nan => rfl
  | inf s => cases s <;> rfl
  | fin s m e => cases h

/-- Settles O10: a sum that is not finite or saturates leaves no carry, and any other leaves what rounding dropped. -/
theorem carryStaysSmall : Obligations.CarryStaysSmall := by
  intro w d c r y
  have hy : carrySum w d c = y := rfl
  have hsmall (h : r.2.1 = 0) : SmallCarry r.2.1 := h ▸ smallCarry_zero
  cases hfin : y.isFin with
  | false =>
    have hr : r.2 = (0, y, false) := hy ▸ carryApply_of_not_fin (hy ▸ hfin)
    obtain ⟨h1, h2, h3⟩ := hsmall (by rw [hr])
    refine ⟨h1, h2, h3, fun _ => by rw [hr], fun _ s m e h => ?_⟩
    rw [hr] at h
    have hsub := Fp.sub_self_of_not_fin hfin
    rw [h] at hsub
    nomatch hsub
  | true =>
    obtain ⟨s, m, e, hym⟩ := Fp.exists_of_isFin hfin
    have hr := carryApply_of_fin (hy.trans hym)
    dsimp only at hr
    split at hr
    case isTrue hsat =>
      have hr : r.2 = _ := hr
      obtain ⟨h1, h2, h3⟩ := hsmall (by rw [hr])
      refine ⟨h1, h2, h3, fun _ => by rw [hr], fun h => ?_⟩
      rw [hr] at h
      nomatch h
    case isFalse hsat =>
      have hr : r.2 = _ := hr
      have hsat := Decidable.not_not.mp hsat
      rw [hr, hym]
      obtain ⟨h1, h2, h3⟩ := smallCarry_carryCode hsat
      refine ⟨h1, h2, h3, fun h => ?_, fun _ t k q h => ?_⟩
      · rw [isFin_convRat] at h
        exact h.elim nofun nofun
      · obtain ⟨hle, hcode⟩ := carryCode_of_sub hsat h
        rw [hcode, sext_carry (Nat.le_trans hle (by decide)) t]
        cases t
        · exact ⟨Int.natAbs_natCast _, fun _ => decide_eq_false (Int.not_lt.mpr (Int.natCast_nonneg _))⟩
        · simp only [if_true] 
          exact ⟨by omega, fun hne => decide_eq_true (by omega)⟩

end Sys2Proof.Machine
end

section
/-! PROOFS. Descriptors that the checks of issue accept (R91): each compute command runs to its effect. -/
namespace Sys2Proof.Machine

variable {s : State} {tile pos : Nat} {mine : Nat → Bool} {check : State → DCtx → Meaning}

/-! ### The shared path -/

theorem State.accepts_mine (h : s.accepts tile pos mine check = true) : mine (s.ctxOf tile pos).d = true := by
  simp only [State.accepts, Bool.and_eq_true] at h
  obtain ⟨⟨⟨⟨⟨⟨-, -⟩, hmine⟩, -⟩, -⟩, -⟩, -⟩ := h
  exact hmine

/-- An accepted descriptor whose effect does not fail answers the state in which the effect is carried out. -/
theorem State.issueWith_carryOut {eff : State → DCtx → Eff} (h : s.accepts tile pos mine check = true)
    (he : s.effFails (s.ctxOf tile pos) (eff s (s.ctxOf tile pos)) = false) :
    s.issueWith tile pos mine check (fun s c => s.runEff c (eff s c)) =
      s.carryOut (s.ctxOf tile pos) (eff s (s.ctxOf tile pos)) := by
  rw [State.issueWith_accepts h, State.runEff_carryOut he]

/-- The same for an effect that uses free values up. -/
theorem State.issueWith_carryOut_useFree {eff : State → DCtx → Eff} {n : Nat} (h : s.accepts tile pos mine check = true)
    (he : s.effFails (s.ctxOf tile pos) (eff s (s.ctxOf tile pos)) = false) :
    s.issueWith tile pos mine check (fun s c => (s.runEff c (eff s c)).useFree n) =
      (s.carryOut (s.ctxOf tile pos) (eff s (s.ctxOf tile pos))).useFree n := by
  rw [State.issueWith_accepts h, State.runEff_carryOut he]

/-! ### Vector streams (R116, R136) -/

/-- VCH with no table load under way takes its just-in-time scales first. -/
theorem exec_vch (hload : (s.tile (s.siteOf tile)).actLoad = none) (h : s.accepts tile pos (fun d => dKind d == 3) vchCheck = true)
    (he : ((s.jitScale (s.ctxOf tile pos) 2).jitScale (s.ctxOf tile pos) 3).effFails (s.ctxOf tile pos)
      (vchEff ((s.jitScale (s.ctxOf tile pos) 2).jitScale (s.ctxOf tile pos) 3) (s.ctxOf tile pos)) = false) :
    exec (.vch tile pos) s = .next (((s.jitScale (s.ctxOf tile pos) 2).jitScale (s.ctxOf tile pos) 3).carryOut (s.ctxOf tile pos)
      (vchEff ((s.jitScale (s.ctxOf tile pos) 2).jitScale (s.ctxOf tile pos) 3) (s.ctxOf tile pos))) := by
  have hexec : exec (.vch tile pos) s = .next (if (s.tile (s.siteOf tile)).actLoad.isSome then s
    else s.issueWith tile pos (fun d => dKind d == 3) vchCheck vchRun) := rfl
  rw [hexec, hload, Option.isSome_none, if_neg Bool.false_ne_true, State.issueWith_accepts h, vchRun, State.runEff_carryOut he]

/-! ### Roots (R272 to R274) -/

theorem State.rtOp_of_accepts {op : Nat} (hop : op ≠ 0) (h : s.accepts tile pos (isRootOp op) rootCheck = true) :
    rtOp (s.ctxOf tile pos).d = op := by
  have hmine := State.accepts_mine h
  simp only [isRootOp, Bool.and_eq_true, Bool.or_eq_true, beq_iff_eq] at hmine
  exact hmine.2.elim id fun hzero => absurd hzero.1 hop

/-- An operation but ROOT_AMAX on a record that is done counts a skip and nothing else. -/
theorem rootRun_done {c : DCtx} (hop : rtOp c.d ≠ 0) (hdone : s.rootFlag (rtRec c.d) rfDone = true) :
    rootRun s c = (s.addRun c.site (mkRun c .done)).bump c.site R.TIL_ROOT_SKIP 1 := by
  rw [rootRun, if_pos ⟨hop, hdone⟩]

theorem rootRun_test {c : DCtx} (hop : rtOp c.d = 4) (hdone : s.rootFlag (rtRec c.d) rfDone = false) :
    rootRun s c = (s.rootTest (rtRec c.d)).addRun c.site (mkRun c .done) := by
  rw [rootRun, if_neg (by rw [hdone]; exact fun h => Bool.false_ne_true h.2), if_pos hop]

/-- What a root operation leaves before it merges a statistic. -/
def State.rootRan (s : State) (c : DCtx) : State := (s.carryOut c (rootEff s c)).useFree 16384

/-- An operation on blocks runs to its effect; ROOT_AMAX and the last block of ROOT_PROD merge a maximum into the record. -/
theorem rootRun_blocks {c : DCtx} (htest : rtOp c.d ≠ 4) (hdone : rtOp c.d = 0 ∨ s.rootFlag (rtRec c.d) rfDone = false)
    (he : s.effFails c (rootEff s c) = false) :
    rootRun s c =
      if rtOp c.d = 0 then (s.rootRan c).rootMerge c 0x10 (s.blockRead c.site (rtA c.d) (rtAs c.d) (rtM c.d) (rtN c.d))
      else if rtOp c.d = 3 ∧ rtLast c.d = true then
        (s.rootRan c).rootMerge c 0x14 (mapBlock (fun i j v => f32Sub v (oneIf (rtDelta c.d i j)))
          ((s.rootRan c).blockRead c.site (rtC c.d) (rtCs c.d) (rtM c.d) (rtN c.d)))
      else s.rootRan c := by
  have hskip : ¬ (rtOp c.d ≠ 0 ∧ s.rootFlag (rtRec c.d) rfDone = true) := by
    rintro ⟨hop, hflag⟩
    exact hdone.elim hop fun hfalse => Bool.false_ne_true (hfalse.symm.trans hflag)
  rw [rootRun, if_neg hskip, if_neg htest]
  simp only [he, Bool.false_eq_true, if_false, State.runEff_carryOut he, State.rootRan]

theorem exec_rtOp_next {op : Nat} {t : State} (h : s.accepts tile pos (isRootOp op) rootCheck = true)
    (ht : rootRun s (s.ctxOf tile pos) = t) :
    Host.Outcome.next (s.rootOp op tile pos) = Host.Outcome.next (φ := Fault) (ρ := Refusal) t := by
  rw [State.rootOp, State.issueWith_accepts h, ht]

/-! ### Updates (R255) -/

/-- A UPD whose memory serves, whose step tags match and whose reads are sound has its effect. -/
theorem updRun_done {c : DCtx} {s1 : State} {r g : Nat} {writes rs : List (Nat × Nat)} (hr : s.shardRec (udShard c.d) = r)
    (hg : s.groupRec (shGroup r) = g) (hwrites : s.updWrites c.d r g = writes) (hrs : s.updTakes c.site c.d r g ++ writes = rs)
    (hskew : s.updSkewed c.d r g = false)
    (hplaces : ∀ p ∈ rs, s.anyGranule p.1 p.2 State.targetWaits = false ∧ s.anyGranule p.1 p.2 State.targetOff = false)
    (hreads : s.readRanges (s.escalates c.d) (s.updTakes c.site c.d r g) = (s1, none)) :
    updRun s c = s1.updDone c r g (c.tile / 256 * 16 + Sys2Proof.Config.freeNat s.freeCtr % 16) rs writes := by
  subst hr hg hwrites hrs
  have hwaits := List.any_eq_false.mpr fun p hp => Bool.eq_false_iff.mp (hplaces p hp).1
  have hoff := List.find?_eq_none.mpr fun p hp => Bool.eq_false_iff.mp (hplaces p hp).2
  simp only [updRun, hwaits, hskew, hoff, hreads, Bool.false_eq_true, if_false]

end Sys2Proof.Machine

namespace Sys2Proof.Machine

/-- Settles O25: all nine issue along the shared path. That the effect falls at issue is the model's choice (log entry 5). -/
theorem arrayCommandsComplete : Obligations.ArrayCommandsComplete := by
  intro s tile pos c
  have hissue {mine check} {eff : State → DCtx → Eff} (h : s.accepts tile pos mine check = true)
      (he : s.effFails c (eff s c) = false) :
      Host.Outcome.next (s.issueWith tile pos mine check fun s c => s.runEff c (eff s c)) =
        Host.Outcome.next (φ := Fault) (ρ := Refusal) (s.carryOut c (eff s c)) :=
    congrArg _ (State.issueWith_carryOut h he)
  exact ⟨hissue, hissue, hissue, hissue, hissue, hissue, hissue, hissue, hissue⟩

/-- Settles O26: the ten row operations share one path, and VCH takes its scales before it. That the effect falls at issue is
the model's choice (log entry 5). -/
theorem vectorRowCommandsComplete : Obligations.VectorRowCommandsComplete := by
  intro s tile pos c
  refine ⟨exec_vch, fun he => ?_⟩
  have hrow {op : Nat} (h : s.accepts tile pos (isRowOp op) rowCheck = true) :
      Host.Outcome.next (s.rowOp op tile pos) = Host.Outcome.next (φ := Fault) (ρ := Refusal) (s.carryOut c (rowEff s c)) :=
    congrArg _ (State.issueWith_carryOut h he)
  exact ⟨hrow, hrow, hrow, hrow, hrow, hrow, hrow, hrow, hrow, hrow⟩

/-- Settles O27: what ATT and ROOT leave in the banks is free (log entry 18), and the engine of a UPD is (log entry 50). -/
theorem attentionRootUpdateComplete : Obligations.AttentionRootUpdateComplete := by
  intro s tile pos c
  have hissue {mine check} {n : Nat} {eff : State → DCtx → Eff} (h : s.accepts tile pos mine check = true)
      (he : s.effFails c (eff s c) = false) :
      Host.Outcome.next (s.issueWith tile pos mine check fun s c => (s.runEff c (eff s c)).useFree n) =
        Host.Outcome.next (φ := Fault) (ρ := Refusal) ((s.carryOut c (eff s c)).useFree n) :=
    congrArg _ (State.issueWith_carryOut_useFree h he)
  refine ⟨hissue, hissue, hissue, hissue, hissue, ?_, ?_⟩
  · intro d skip ran a done
    have hskip {op : Nat} (hop : op ≠ 0) (h : s.accepts tile pos (isRootOp op) rootCheck = true) (hdone : done = true) :
        Host.Outcome.next (s.rootOp op tile pos) = Host.Outcome.next (φ := Fault) (ρ := Refusal) skip :=
      exec_rtOp_next h (rootRun_done (by rwa [State.rtOp_of_accepts hop h]) hdone)
    refine ⟨fun h hop he => ?_, fun h => ⟨hskip (by decide) h, fun hdone he => ?_⟩, fun h => ⟨hskip (by decide) h, fun hdone he => ?_⟩,
      fun h => ⟨hskip (by decide) h, fun hdone he => ?_⟩, fun h => ⟨hskip (by decide) h, fun hdone => ?_⟩⟩
    · exact exec_rtOp_next h ((rootRun_blocks (by rw [hop]; decide) (.inl hop) he).trans (if_pos hop))
    · have hop := State.rtOp_of_accepts (by decide) h
      refine exec_rtOp_next h ((rootRun_blocks (by rw [hop]; decide) (.inr hdone) he).trans ?_)
      rw [if_neg (by rw [hop]; decide), if_neg (by rw [hop]; exact fun h => absurd h.1 (by decide))]
      rfl
    · have hop := State.rtOp_of_accepts (by decide) h
      refine exec_rtOp_next h ((rootRun_blocks (by rw [hop]; decide) (.inr hdone) he).trans ?_)
      rw [if_neg (by rw [hop]; decide), if_neg (by rw [hop]; exact fun h => absurd h.1 (by decide))]
      rfl
    · have hop : rtOp c.d = 3 := State.rtOp_of_accepts (by decide) h
      refine exec_rtOp_next h ((rootRun_blocks (by rw [hop]; decide) (.inr hdone) he).trans ?_)
      simp only [hop, show ¬ 3 = 0 by decide, if_false, true_and]
      rfl
    · exact exec_rtOp_next h (rootRun_test (State.rtOp_of_accepts (by decide) h) hdone)
  · intro r g writes rs eng rd h hskew hplaces hbad
    have hexec : exec (.upd tile pos) s = .next (s.issueWith tile pos (fun d => dKind d == 8) updCheck updRun) := rfl
    rw [hexec, State.issueWith_accepts h]
    exact congrArg _ (updRun_done rfl rfl rfl rfl hskew hplaces (Prod.ext rfl hbad))

end Sys2Proof.Machine
end

section
/-! PROOFS. Synchronisation descriptors, their messages, and the start of a MOV (R99 to R104). -/
namespace Sys2Proof.Machine

variable {s : State} {tile pos : Nat}

theorem exec_synBarrier_of_not_running (h : s.accepts tile pos (isSynOp 2) synCheck = true)
    (hrun : s.isRunning (s.siteOf tile) pos = false) : exec (.synBarrier tile pos) s =
      .next ((s.addRun (s.siteOf tile) (mkRun (s.ctxOf tile pos) .working)).barrierArrive tile pos) := by
  have hexec : exec (.synBarrier tile pos) s = .next (if s.isRunning (s.siteOf tile) pos then s.barrierArrive tile pos
    else (s.issueWith tile pos (isSynOp 2) synCheck synWait).barrierArrive tile pos) := rfl
  rw [hexec, hrun, if_neg Bool.false_ne_true, State.issueWith_accepts h]
  rfl

theorem exec_barrierArrival {m : BarMsg} (hm : s.arrivals.find? (fun m => m.tile == tile) = some m)
    (hruns : s.blockRuns (pSQR (barrierHome m.tile m.barId)) = true) : exec (.barrierArrival tile) s =
      .next (({ s with arrivals := s.arrivals.eraseP fun x => x.tile == tile }).countArrival m) := by
  show execBarrierArrival _ s = _
  simp only [execBarrierArrival, hm, hruns, if_true]

theorem exec_signalArrival {m : SigMsg} {target : Nat} (hlive : s.live = true)
    (hm : s.signals.find? (fun m => m.sender == tile && m.target == target) = some m) :
    exec (.signalArrival tile target) s = .next ((s.deliver m).drainCtl) := by
  show execSignalArrival _ _ s = _
  simp only [execSignalArrival, hlive, hm, Bool.true_eq_false, if_false]

/-- A MOV that is not started starts on the engine picked for it, and moves on. -/
theorem exec_mov_start {e : Nat} {s1 : State} (hnew : s.movsAt tile pos = []) (h : s.accepts tile pos isMovKind State.movCheck = true)
    (he : s.pickEngine (tile / 256) = some (e, s1)) : exec (.mov tile pos) s =
      .next (((s1.addRun (s.siteOf tile) (mkRun (s.ctxOf tile pos) .working)).newXfer
        { owner := ⟨s.siteOf tile, pos, false⟩, tile := tile, d := (s.ctxOf tile pos).d, part := s.tilePart tile, engine := e,
          issued := s.mt }).advance ⟨s.siteOf tile, pos, false⟩) := by
  have hexec : exec (.mov tile pos) s = .next (if s.movsAt tile pos = [] then s.issueWith tile pos isMovKind State.movCheck State.movRun
    else (s.movsAt tile pos).foldl (fun a x => a.advance x.owner) s) := rfl
  rw [hexec, if_pos hnew, State.issueWith_accepts h, State.movRun, show (s.ctxOf tile pos).tile = tile from rfl, he]
  rfl

theorem exec_mov_on {x : Xfer} {l : List Xfer} (h : s.movsAt tile pos = x :: l) :
    exec (.mov tile pos) s = .next ((x :: l).foldl (fun a y => a.advance y.owner) s) := by
  have hexec : exec (.mov tile pos) s = .next (if s.movsAt tile pos = [] then s.issueWith tile pos isMovKind State.movCheck State.movRun
    else (s.movsAt tile pos).foldl (fun a x => a.advance x.owner) s) := rfl
  rw [hexec, h, if_neg (List.cons_ne_nil x l)]

end Sys2Proof.Machine

namespace Sys2Proof.Machine

/-- Settles O28: the engine that serves a MOV is a free choice among the open ones (log entry 50). -/
theorem syncAndMoveComplete : Obligations.SyncAndMoveComplete := by
  intro s tile pos c working
  have hissue {op run} (h : s.accepts tile pos (isSynOp op) synCheck = true) :
      Host.Outcome.next (s.issueWith tile pos (isSynOp op) synCheck run) =
        Host.Outcome.next (φ := Fault) (ρ := Refusal) (run s c) := congrArg _ (State.issueWith_accepts h)
  refine ⟨hissue, hissue, exec_synBarrier_of_not_running, fun h => ?_, hissue, fun m hm hruns => exec_barrierArrival hm hruns,
    fun m target hlive hm => exec_signalArrival hlive hm, fun e s1 hnew h he => exec_mov_start hnew h he,
    fun x l h => exec_mov_on h⟩
  exact congrArg _ (if_pos h)

end Sys2Proof.Machine
end

section
/-! PROOFS. The start of a parked descriptor (R218): it also forgets which rounding of the descriptor a change of TIL_RND_CTL had
left open (log entry 32), which the statement about PARKED_ISSUE leaves out. -/
namespace Sys2Proof.Machine

/-- Tile 0 on, with one parked descriptor of no unit whose rounding at site 0 is open. -/
def parkedLoose : State :=
  { aoOn := true, regs := [(pPWR * 1024 + R.PWR_DOM_STS_LO / 4, 1#32)],
    tiles := [(0, { parked := [⟨0, 0, 0⟩], rndLoose := [(65536, (1, 0))] })] }

/-- What PARKED_ISSUE would answer by the statement. -/
def parkedLooseKept : State :=
  (parkedLoose.setTile 0 { parkedLoose.tile 0 with parked := (parkedLoose.tile 0).parked.drop 1 }).parkedStart ⟨0, 0, 0, 0, 0, true⟩

/-- It may issue: nothing stands before it, and no yielded product waits. -/
theorem parkedLoose_mayIssue : (parkedLoose.yieldedRun 0).filter (parkedLoose.canResume 0) = none ∧
    parkedLoose.canIssueParked 0 = some ⟨0, 0, 0⟩ ∧ parkedLoose.canStart 0 0 0 = true := by
  decide

/-- The open rounding goes with the parked descriptor. -/
theorem parkedIssue_parkedLoose : ((parkedLoose.parkedIssue 0).tile 0).rndLoose = [] := by
  decide

theorem parkedLooseKept_rndLoose : (parkedLooseKept.tile 0).rndLoose = [(65536, (1, 0))] := by
  decide

/-- Refutes O29: the two states differ in the roundings left open. -/
theorem not_sequencerCommandsComplete : ¬ Obligations.SequencerCommandsComplete := by
  intro h
  obtain ⟨-, -, -, -, -, hparked, -⟩ := h parkedLoose .supervisor 0 0
  obtain ⟨hresume, hissue, hstart⟩ := parkedLoose_mayIssue
  have hexec : exec (.parkedIssue 0) parkedLoose = .next parkedLooseKept := (hparked (by decide)).2 _ hresume hissue hstart
  have hsame : parkedLoose.parkedIssue 0 = parkedLooseKept := Host.Outcome.next.inj hexec
  have hloose := parkedIssue_parkedLoose
  rw [hsame, parkedLooseKept_rndLoose] at hloose
  cases hloose

end Sys2Proof.Machine
end

section
/-! PROOFS. Granted accesses to the pages that are no debug pages (R446 to R448, R541), and conditions of an act that hold. -/
namespace Sys2Proof.Machine

/-- The debug pages, which void the guarantees when they are written (R541). -/
def isDebugPage (page : Nat) : Bool :=
  match pageBlk page with
  | some (.dbg, _) => true
  | _ => false

theorem State.touchDebug_of_not_debug {s : State} {page : Nat} (h : isDebugPage page = false) : s.touchDebug page = s :=
  State.touchDebug_other fun i hi => by
    rw [isDebugPage, hi] at h
    cases h

theorem isDebugPage_of_blk {page i : Nat} {b : Blk} (h : pageBlk page = some (b, i)) (hb : b ≠ .dbg) : isDebugPage page = false := by
  rw [isDebugPage, h]
  split
  · next he => exact absurd (Prod.ext_iff.mp (Option.some.inj he)).1 hb
  · rfl

theorem isDebugPage_eq_false_iff {page : Nat} : isDebugPage page = false ↔ ∀ i, pageBlk page ≠ some (.dbg, i) := by
  rw [isDebugPage]
  split
  · next i h => exact ⟨nofun, fun hne => absurd h (hne i)⟩
  · next h => exact ⟨fun _ i hi => h i hi, fun _ => rfl⟩

/-- A write that reaches a register outside the debug pages has its effect and no other. -/
theorem State.onWrite_granted {s : State} {src : Src} {page off : Nat} {act : State → State} (hpage : isDebugPage page = false)
    (h : s.mayWrite src page off = true) : s.onWrite src page off act = act s := by
  rw [State.onWrite_mayWrite h, State.touchDebug_of_not_debug hpage]

/-- A command that makes a register write where its condition holds, and whose write reaches the register. -/
theorem next_onWrite_of {c : Prop} [Decidable c] {s t : State} {src : Src} {page off : Nat} {act : State → State} (hc : c)
    (hpage : isDebugPage page = false) (hw : s.mayWrite src page off = true) (ht : act s = t) :
    Host.Outcome.next (if c then s.onWrite src page off act else s) = Host.Outcome.next (φ := Fault) (ρ := Refusal) t :=
  congrArg _ ((if_pos hc).trans ((State.onWrite_granted hpage hw).trans ht))

theorem isDebugPage_site {t : Nat} (h : isSite t = true) : isDebugPage t = false :=
  isDebugPage_of_blk (isSite_page h) (by decide)

theorem isDebugPage_tile {t : Nat} (h : isTile t = true) : isDebugPage t = false := isDebugPage_site (isSite_of_isTile h)

theorem isDebugPage_pDST : ∀ d < 6, isDebugPage (pDST d) = false := by decide

theorem isDebugPage_pFMC : ∀ c < 32, isDebugPage (pFMC c) = false := by decide

theorem isDebugPage_pCRS : ∀ i < 44, isDebugPage (pCRS i) = false := by decide

theorem isDebugPage_pINGS {k : Nat} (h : k < 256) : isDebugPage (pINGS k) = false := by
  have hblk : pageBlk (pINGS k) = some (.ings, k + 1) := by
    rw [pageBlk, pINGS, if_neg (by omega), if_neg (by omega), if_neg (by omega), if_neg (by omega), if_neg (by omega), if_neg (by omega),
      if_neg (by omega), if_pos (by omega), show 0x0801 + k - 0x800 = k + 1 by omega]
  exact isDebugPage_of_blk hblk (by decide)

theorem isDebugPage_pEXE : ∀ k < 4, isDebugPage (pEXE k) = false := by decide

theorem isDebugPage_pCHK : ∀ u < 16, isDebugPage (pCHK u) = false := by decide

end Sys2Proof.Machine
end

section
/-! PROOFS. Housekeeping of a tile: clock gating, scrubbing, initialisation, the spare map, table loads and INVAL (R82 to R84,
R105 to R107, R132, R136, R145, R498). -/
namespace Sys2Proof.Machine

variable {s : State} {src : Src} {tile : Nat}

theorem exec_idleClockStop (htile : isTile tile = true) (hlive : s.live = true) (hon : s.siteOn (s.siteOf tile) = true)
    (hgate : bit (s.reg (s.siteOf tile) R.TIL_CLK_CTL) 0 = false) (hrun : (s.tile (s.siteOf tile)).running = [])
    (hissue : s.someIssue (s.siteOf tile) = false) (hfill : s.pwr.gov.filling.contains tile = false) :
    exec (.idleClockStop tile) s =
      .next (s.setTile (s.siteOf tile) { s.tile (s.siteOf tile) with clkStopped := true }) := by
  show execIdleClockStop _ s = _
  simp only [execIdleClockStop, htile, hlive, hon, hgate, hrun, hissue, hfill, State.modTile, Bool.and_self, ne_eq,
    not_true_eq_false, Bool.true_eq_false, Bool.false_eq_true, or_self, if_false]

theorem exec_computeClockRestart (htile : isTile tile = true) (hlive : s.live = true) (hon : s.siteOn (s.siteOf tile) = true)
    (hstop : (s.tile (s.siteOf tile)).clkStopped = true)
    (hwork : s.someIssue (s.siteOf tile) = true ∨ bit (s.reg (s.siteOf tile) R.TIL_CLK_CTL) 0 = true)
    (hholding : s.holding = false) (hwake : s.wakeLeft (tile / 256) = true)
    (hline : s.firstInLine tile (tile / 256 * 256) (tile / 256 * 256 + 256) = true) :
    exec (.computeClockRestart tile) s = .next (((s.admitted tile).takeWake (tile / 256)).withClock (s.siteOf tile)) := by
  have hidle : ¬ (s.someIssue (s.siteOf tile) = false ∧ bit (s.reg (s.siteOf tile) R.TIL_CLK_CTL) 0 = false) := by
    rintro ⟨h1, h2⟩
    rw [h1, h2] at hwork
    exact hwork.elim Bool.false_ne_true Bool.false_ne_true
  show execComputeClockRestart _ s = _
  simp only [execComputeClockRestart, htile, hlive, hon, hstop, hidle, hholding, hwake, hline, Bool.and_self, Bool.not_true,
    Bool.true_eq_false, Bool.false_eq_true, Bool.or_self, or_self, if_false]

/-- What the patrol scrubber of a running site does with its next line (R84). -/
theorem exec_sramScrub {k t : Nat} {err : LineErr} (ht : s.tileAt k = some t) (hsite : isSite k = true) (hlive : s.live = true)
    (hon : s.siteOn k = true) (hready : bit (s.reg k R.TIL_SRAM_STS) 0 = true) (hrate : s.fld k R.TIL_SRAM_SCRUB 15 0 ≠ 0) :
    exec (.sramScrub k err) s =
      let n := (s.tile k).scrubLine % 65536
      let line := sramBase k / 64 + n
      let s1 := (s.lineUpset line err).modTile k fun t => { t with scrubLine := (n + 1) % 65536 }
      .next (if s1.lineBad line then (s1.orReg k R.TIL_SRAM_STS 2).raise t 5 (n * 64) 0xFFFF
        else if s1.lineCe line then s1.ceOwn t k line else s1) := by
  show execSramScrub _ _ s = _
  simp only [execSramScrub, ht, hsite, hlive, hon, hready, hrate, Bool.and_self, Bool.true_eq_false, or_self, if_false]

/-- A write of the spare map that moves no busy tile (R106, R107). -/
theorem spareMapWrite_idle {d c v : Nat} (hfused : bit (s.spareEntry d c) 5 = false)
    (hspare : s.siteBusy (d * 256 + 12 * 16 + c) = false)
    (hmoved : ([(bit (s.spareEntry d c) 4, s.spareEntry d c % 16), (bit v 4 && decide (v % 16 < 12), v % 16)].filterMap fun p =>
      if p.1 && decide (p.2 < 12) then some (d * 256 + p.2 * 16 + c) else none).any
        (fun t => s.siteBusy t || s.signals.any fun m => m.target == t) = false) :
    spareMapWrite d c v s = (s.setReg (pDST d) (R.DST_SPARE_MAP + 4 * c)
      (v % 16 + 16 * b2n (bit v 4 && decide (v % 16 < 12)))).invalStats (d * 256 + 12 * 16 + c) := by
  simp only [spareMapWrite, hfused, hspare, hmoved, Bool.or_self, Bool.false_eq_true, if_false]

/-- A table load that ends from the ROM image (R136). -/
theorem exec_actLoadDone_rom {k v : Nat} (htile : isTile tile = true) (hload : (s.tile (s.siteOf tile)).actLoad = some (k, v))
    (hlive : s.live = true) (hon : s.siteOn (s.siteOf tile) = true) (hvch : s.vchRunning (s.siteOf tile) = false)
    (hrom : bit v 24 = true) : exec (.actLoadDone tile) s =
      .next ((s.putSlot (s.siteOf tile) k ⟨true, (List.range actBytes).map (romImage (bits v 23 20))⟩).setFld (s.siteOf tile)
        R.TIL_ACT_STS 17 17 0) := by
  show execActLoadDone _ s = _
  simp only [execActLoadDone, htile, actLoadFinish, hload, hlive, hon, hvch, hrom, Bool.true_eq_false, Bool.false_eq_true,
    or_self, if_false, if_true]

/-- A table load that ends from sound SRAM with a good image (R132, R136). -/
theorem exec_actLoadDone_sram {k v : Nat} (htile : isTile tile = true) (hload : (s.tile (s.siteOf tile)).actLoad = some (k, v))
    (hlive : s.live = true) (hon : s.siteOn (s.siteOf tile) = true) (hvch : s.vchRunning (s.siteOf tile) = false)
    (hrom : bit v 24 = false) (hin : outside (v % 2 ^ 16 * 64) actBytes = false)
    (hsound : (regionLines (s.siteOf tile) [(v % 2 ^ 16 * 64, actBytes)]).any s.lineBad = false)
    (hgood : imageGood (s.bytes (sramBase (s.siteOf tile) + v % 2 ^ 16 * 64) actBytes) = true) :
    exec (.actLoadDone tile) s =
      .next (((s.ceOwnAll tile (s.siteOf tile) (regionLines (s.siteOf tile) [(v % 2 ^ 16 * 64, actBytes)])).putSlot (s.siteOf tile) k
        ⟨true, s.bytes (sramBase (s.siteOf tile) + v % 2 ^ 16 * 64) actBytes⟩).setFld (s.siteOf tile) R.TIL_ACT_STS 17 17 0) := by
  have hbad := List.any_eq_false.mp hsound
  have hfind : (regionLines (s.siteOf tile) [(v % 2 ^ 16 * 64, actBytes)]).find? s.lineBad = none := List.find?_eq_none.mpr hbad
  have hall : (regionLines (s.siteOf tile) [(v % 2 ^ 16 * 64, actBytes)]).filter (fun l => !s.lineBad l) = _ :=
    List.filter_eq_self.mpr fun l hl => by rw [Bool.eq_false_iff.mpr (hbad l hl), Bool.not_false]
  show execActLoadDone _ s = _
  simp only [execActLoadDone, htile, actLoadFinish, hload, hlive, hon, hvch, hrom, hin, hfind, hall, hgood,
    Bool.true_eq_false, Bool.false_eq_true, or_self, if_false, if_true]

end Sys2Proof.Machine

namespace Sys2Proof.Machine

/-- Settles O30: each command past the test that its own condition holds. -/
theorem tileHousekeepingComplete : Obligations.TileHousekeepingComplete := by
  intro s src tile site t
  refine ⟨exec_idleClockStop, exec_computeClockRestart, ?scrub, ?initDone, ?spare, ?load, ?loadDone, ?inval⟩
  case scrub =>
    intro k err lt ht hsite hlive hon hready hrate n line s1
    rw [exec_sramScrub ht hsite hlive hon hready hrate]
    exact ⟨fun hbad => congrArg _ (if_pos hbad),
      fun hbad hce => congrArg _ ((if_neg (Bool.eq_false_iff.mp hbad)).trans (if_pos hce)),
      fun hbad hce => congrArg _ ((if_neg (Bool.eq_false_iff.mp hbad)).trans (if_neg (Bool.eq_false_iff.mp hce)))⟩
  case initDone =>
    intro k hsite hlive hon hready
    exact congrArg _ (if_pos ⟨hsite, Bool.and_eq_true_iff.mpr ⟨hlive, hon⟩, hready⟩)
  case spare =>
    intro d col v hd hcol hw old valid changed hfused hspare hmoved
    refine congrArg _ ((if_pos ⟨hd, hcol⟩).trans ?_)
    rw [State.onWrite_granted (isDebugPage_pDST d hd) hw]
    exact spareMapWrite_idle hfused hspare hmoved
  case load =>
    intro v htile hw hfree hgo
    refine congrArg _ ((if_pos htile).trans ?_)
    rw [State.onWrite_granted (isDebugPage_tile htile) hw]
    have hfree : (s.tile (s.siteOf tile)).actLoad = none := hfree
    simp only [actLoadWrite, hgo, hfree, Option.isSome_none, Bool.false_eq_true, and_false, if_false, if_true]
    rfl
  case loadDone =>
    intro k v htile hload hlive hon hvch
    exact ⟨exec_actLoadDone_rom htile hload hlive hon hvch, exec_actLoadDone_sram htile hload hlive hon hvch⟩
  case inval =>
    intro htile hw
    refine congrArg _ ((if_pos htile).trans ?_)
    rw [State.onWrite_granted (isDebugPage_tile htile) hw]
    rfl

end Sys2Proof.Machine
end

section
/-! PROOFS. Commands of the KV page store (R176, R177, R186 to R194, R212, R213). -/
namespace Sys2Proof.Machine

variable {s : State} {k : Nat}

/-! ### The command at the head of the ring (R191, R192) -/

theorem State.kvRun_of_op {op : Nat} {f : Nat → State → State} (hk : s.kvCommand = some k) (hop : kcOp k = op) :
    s.kvRun op f = f k s := by
  simp only [State.kvRun, hk, kvIsOp, hop, BEq.rfl, Bool.true_or, if_true]

/-- A SHARE_PAGES whose contexts match and whose pages may be referenced goes. -/
theorem kvShare_goes (hop : kcOp k = 1) (ha : s.cxValid (kcCtx k) = true) (hb : s.cxValid (kcCtx2 k) = true)
    (hshape : s.sameShape (kcCtx k) (kcCtx2 k) = true) (htp : (s.cxTp (kcCtx k)).isSome = true)
    (hia : kcPg0 k + kcNpg k ≤ s.cxStride (kcCtx k)) (hib : kcPg0 k + kcNpg k ≤ s.cxStride (kcCtx2 k))
    (hfree : (s.trackPages (kcCtx k) ((List.range (kcNpg k)).map (kcPg0 k + ·))).any
      (fun p => entryHas (s.entry (kcCtx2 k) p.1 p.2)) = false)
    (hcount : (((s.trackPages (kcCtx k) ((List.range (kcNpg k)).map (kcPg0 k + ·))).map fun p =>
      s.entry (kcCtx k) p.1 p.2).filter entryHas).any (fun e => s.refcnt (s.cxPool (kcCtx k)) (entryPage e) = 65535) = false)
    (htake : s.mayTake (s.cxPool (kcCtx k)) (((s.trackPages (kcCtx k) ((List.range (kcNpg k)).map (kcPg0 k + ·))).map fun p =>
      s.entry (kcCtx k) p.1 p.2).filter entryHas).length = true) : kvShare k s = kvShareGo k s := by
  have htp' : ¬ (s.cxTp (kcCtx k)).isNone = true := by rw [Option.isNone_iff_eq_none]; exact Option.isSome_iff_ne_none.mp htp
  simp only [kvShare, hop, ha, hb, hshape, htp', hfree, hcount, htake, Nat.not_lt.mpr hia, Nat.not_lt.mpr hib, ne_eq,
    not_true_eq_false, Bool.true_eq_false, Bool.false_eq_true, or_self, false_and, if_false]

theorem kvFree_goes (ha : s.cxValid (kcCtx k) = true) (hi : kcPg0 k + kcNpg k ≤ s.cxStride (kcCtx k)) :
    kvFree k s = (s.clearEntries (kcCtx k) ((List.range (kcNpg k)).map (kcPg0 k + ·))).kvFinish k true := by
  simp only [kvFree, ha, Nat.not_lt.mpr hi, Bool.true_eq_false, or_self, if_false]

theorem kvTruncate_goes {tp : Nat} (htp : s.cxTp (kcCtx k) = some tp) (ha : s.cxValid (kcCtx k) = true)
    (hlen : kcPg0 k ≤ s.cxLen (kcCtx k)) :
    kvTruncate k s = ((s.setLen (kcCtx k) (kcPg0 k)).clearEntries (kcCtx k)
      ((List.range (s.cxStride (kcCtx k) - (kcPg0 k + tp - 1) / tp)).map ((kcPg0 k + tp - 1) / tp + ·))).kvFinish k true := by
  simp only [kvTruncate, htp, ha, Nat.not_lt.mpr hlen, Bool.true_eq_false, or_self, if_false]

theorem kvSetLen_goes {tp : Nat} (htp : s.cxTp (kcCtx k) = some tp) (ha : s.cxValid (kcCtx k) = true)
    (hlen : kcPg0 k ≤ s.cxStride (kcCtx k) * tp) : kvSetLen k s = (s.setLen (kcCtx k) (kcPg0 k)).kvFinish k true := by
  simp only [kvSetLen, htp, ha, Nat.not_lt.mpr hlen, Bool.true_eq_false, or_self, if_false]

theorem kvFreeCtx_goes (ha : s.cxValid (kcCtx k) = true) :
    kvFreeCtx k s = ((s.clearEntries (kcCtx k) (List.range (s.cxStride (kcCtx k)))).setCx (kcCtx k) 0 1
      (setBit ((s.clearEntries (kcCtx k) (List.range (s.cxStride (kcCtx k)))).cx (kcCtx k) 0 1) 0 false)).kvFinish k true := by
  simp only [kvFreeCtx, ha, Bool.true_eq_false, if_false]

/-- A RING_SEND whose pages serve and read sound sends its packets (R213). -/
theorem ringStart_goes (hreqs : s.hasReqs .ring = false) (ha : s.cxValid (kcCtx k) = true)
    (htp : (s.cxTp (kcCtx k)).isSome = true) (hi : kcPg0 k + kcNpg k ≤ s.cxStride (kcCtx k))
    (hserve : ∀ p ∈ s.ringPages k, s.rangeWaits p.2.2 65536 = false ∧ s.firstOff p.2.2 65536 = none)
    (hread : (s.ringRead (s.ringPages k)).2 = false) :
    ringStart k s = ringGo k (s.ringPages k) (s.ringRead (s.ringPages k)).1 := by
  have htp' : ¬ (s.cxTp (kcCtx k)).isNone = true := by rw [Option.isNone_iff_eq_none]; exact Option.isSome_iff_ne_none.mp htp
  have hwaits := List.any_eq_false.mpr fun p hp => Bool.eq_false_iff.mp (hserve p hp).1
  have hoff : (s.ringPages k).any (fun p => (s.firstOff p.2.2 65536).isSome) = false :=
    List.any_eq_false.mpr fun p hp => by rw [(hserve p hp).2]; exact Bool.false_ne_true
  simp only [ringStart, hreqs, ha, htp', Nat.not_lt.mpr hi, hwaits, hread, hoff, Bool.true_eq_false, Bool.false_eq_true, Bool.or_self,
    or_self, if_false]

/-! ### Waits and eviction (R186, R193) -/

theorem exec_allocWaitExpire {n : Nat} {w : KvWaiter} (hw : s.kvWaiters[n]? = some w) (hruns : s.blockRuns pKVS = true)
    (hlate : w.since + s.kvReg R.KVS_ALLOC_WAIT % 2 ^ 16 * 1000 ≤ s.mt) :
    exec (.allocWaitExpire n) s = .next (s.allocFailed w) := by
  show execAllocWaitExpire _ s = _
  simp only [execAllocWaitExpire, hw, hruns, Nat.not_lt.mpr hlate, Bool.true_eq_false, or_self, if_false]

/-- A scan that has not begun, with the free pages below both marks, begins and evicts the victim of the context it reaches. -/
theorem evictVisit_begins {n j : Nat} (hruns : s.kvsRuns = true) (hready : s.poolReady n = true)
    (hon : bit (s.kvReg R.KVS_CTL) 1 = true) (hlow : (s.pool n).free.length ≤ s.kvReg R.KVS_EVICT_LOW % 2 ^ 26)
    (hhigh : (s.pool n).free.length < s.kvReg R.KVS_EVICT_HIGH % 2 ^ 26) (hidle : (s.pool n).evicting = false)
    (hcs : (List.range 16384).filter (s.evictable n) ≠ [])
    (hvictim : s.victim n ((((List.range 16384).filter (s.evictable n)).find? fun c => decide ((s.pool n).cursor ≤ c)).getD
      (((List.range 16384).filter (s.evictable n)).headD 0)) = some j) :
    evictVisit n s =
      let cs := (List.range 16384).filter (s.evictable n)
      let c := (cs.find? fun c => decide ((s.pool n).cursor ≤ c)).getD (cs.headD 0)
      (s.evictPage n c j).setPool n { (s.evictPage n c j).pool n with evicting := true, cursor := c + 1, idle := 0 } := by
  simp only [evictVisit, hruns, hready, hon, hidle, hcs, hvictim, Nat.not_lt.mpr hlow, Nat.not_le.mpr hhigh, Bool.true_eq_false,
    Bool.false_eq_true, false_and, and_false, or_self, if_false]

theorem isDebugPage_pKVS : isDebugPage pKVS = false := rfl

end Sys2Proof.Machine

namespace Sys2Proof.Machine

/-- Settles O31: the ring's six operations run on the command at its head. The order of the free list is log entry 54, the signal of a
failed command log entry 41, and the form of RING_SEND log entry 56. -/
theorem kvCommandsComplete : Obligations.KvCommandsComplete := by
  intro s src n
  refine ⟨?enable, ?disable, ?initDone, ?freeRead, fun w hw hruns hlate => exec_allocWaitExpire hw hruns hlate, ?tail, ?command,
    ?evict⟩
  case enable =>
    intro v hn hw hset hclear a s1
    refine congrArg _ ((if_pos hn).trans ?_)
    rw [State.onWrite_granted isDebugPage_pKVS hw, poolCtlWrite]
    exact if_pos (by rw [hset, hclear]; rfl)
  case disable =>
    intro v hn hw hclear
    refine congrArg _ ((if_pos hn).trans ?_)
    rw [State.onWrite_granted isDebugPage_pKVS hw, poolCtlWrite]
    simp only [hclear, Bool.false_and, Bool.false_eq_true, if_false]
  case initDone =>
    intro hbusy hruns
    exact congrArg _ (if_pos ⟨hbusy, hruns⟩)
  case freeRead =>
    intro hn hr
    exact ⟨congrArg _ ((if_pos hn).trans (State.onRead_mayRead hr)), rfl⟩
  case tail =>
    intro v hw hroom
    refine congrArg _ ((State.onWrite_granted isDebugPage_pKVS hw).trans ?_)
    exact if_pos hroom
  case command =>
    intro k hk a b js
    refine ⟨?_, fun hop ha hi => ?_, fun tp htp ha => ⟨?_, fun hop hlen => ?_⟩, fun hop ha => ?_, ?_, fun hop hany => ?_⟩
    · intro hop ha hb hshape htp hia hib es hfree hcount htake
      exact congrArg _ ((State.kvRun_of_op hk hop).trans (kvShare_goes hop ha hb hshape htp hia hib hfree hcount htake))
    · exact congrArg _ ((State.kvRun_of_op hk hop).trans (kvFree_goes ha hi))
    · intro hop hlen j0
      exact congrArg _ ((State.kvRun_of_op hk hop).trans (kvTruncate_goes htp ha hlen))
    · exact congrArg _ ((State.kvRun_of_op hk hop).trans (kvSetLen_goes htp ha hlen))
    · exact congrArg _ ((State.kvRun_of_op hk hop).trans (kvFreeCtx_goes ha))
    · intro hop hreqs ha htp hi hserve hread
      exact congrArg _ ((State.kvRun_of_op hk hop).trans (ringStart_goes hreqs ha htp hi hserve hread))
    · exact congrArg _ ((State.kvRun_of_op hk hop).trans (if_pos hany))
  case evict =>
    intro j hn hruns hready hon hlow hhigh hidle cs c hcs hvictim
    exact congrArg _ ((if_pos hn).trans (evictVisit_begins hruns hready hon hlow hhigh hidle hcs hvictim))

end Sys2Proof.Machine
end

section
/-! PROOFS. The verdict at a coordinator (R398, R410): it has sent the result down the tree when it formed it, and VOTE_RESULT does not
send it again, which the statement about a coordinator's VOTE_RESULT says it does. -/
namespace Sys2Proof.Machine

/-- The formed result of the open step: no reasons, one micro-batch. -/
def emptyVote : VoteRec := ⟨0, 0, 0, 0, 1, 1, 0⟩

/-- A coordinator with one child in its plan, waiting in CHECK with a formed result; every domain is on. -/
def votingCoordinator : State :=
  ([(pPWR, R.PWR_DOM_STS_LO, 0xFFFFFFFF), (pPWR, R.PWR_DOM_STS_HI, 0x1FF), (pNMC 0, R.NMC_STS, 1), (pSTP, R.STP_CTL, 1),
      (pSTP, R.STP_STS, phCheck + 64), (pSTP, R.STP_VOTE_CTL, 2 ^ 16)].foldl (fun a r => a.setReg r.1 r.2.1 r.2.2)
    ({ aoOn := true, gate := { formed := some emptyVote } } : State)).store 0 (leBytes (0x105 + 0x8001 * 2 ^ 64) 32)

/-- What VOTE_RESULT would answer by the statement. -/
def votingCoordinatorSent : State :=
  ((votingCoordinator.ctlDown (.voteResult emptyVote)).verdictCommit emptyVote.d emptyVote.sloc).drainCtl

/-- Every condition of the statement holds of it. -/
theorem votingCoordinator_mayDecide : votingCoordinator.stpRuns = true ∧ votingCoordinator.phase = phCheck ∧
    votingCoordinator.voting = true ∧ votingCoordinator.voteEn = true ∧ emptyVote.stepTag = votingCoordinator.openStep ∧
    emptyVote.attempt = votingCoordinator.attempt ∧ votingCoordinator.isCoord = true := by
  decide +kernel

/-- A coordinator acts on the result it has formed without sending it (R410). -/
theorem exec_voteResult_coord {s : State} {v : VoteRec} (hruns : s.stpRuns = true) (hphase : s.phase = phCheck)
    (hvoting : s.voting = true) (hvote : s.voteEn = true) (htag : v.stepTag = s.openStep) (hattempt : v.attempt = s.attempt)
    (hcoord : s.isCoord = true) (hformed : s.gate.formed = some v) (hgood : v.reasons = 0) :
    exec (.voteResult v) s = .next ((s.verdictCommit v.d v.sloc).drainCtl) := by
  show execVoteResult _ s = _
  simp only [execVoteResult, hruns, hphase, hvoting, hvote, htag, hattempt, hcoord, hformed, hgood, Bool.true_eq_false, ne_eq,
    not_true_eq_false, and_false, or_self, if_false, if_true]

/-- The model leaves no packet that waits for a link. -/
theorem votingCoordinator_stranded :
    ((votingCoordinator.verdictCommit emptyVote.d emptyVote.sloc).drainCtl).stranded.length = 0 := by
  decide +kernel

theorem votingCoordinatorSent_stranded : votingCoordinatorSent.stranded.length = 1 := by
  decide +kernel

/-- Refutes O32: the statement's result leaves a packet waiting for a link, the model's none. -/
theorem not_stepCommandsComplete : ¬ Obligations.StepCommandsComplete := by
  intro h
  obtain ⟨hruns, hphase, hvoting, hvote, htag, hattempt, hcoord⟩ := votingCoordinator_mayDecide
  obtain ⟨-, -, -, hrunning, -⟩ := h votingCoordinator .supervisor
  obtain ⟨-, -, -, -, -, hresult, -⟩ := hrunning hruns
  obtain ⟨-, -, hcoordinator, -⟩ := hresult emptyVote hphase hvoting
  have hsent : exec (.voteResult emptyVote) votingCoordinator = .next votingCoordinatorSent :=
    hcoordinator hvote htag hattempt hcoord rfl rfl
  rw [exec_voteResult_coord hruns hphase hvoting hvote htag hattempt hcoord rfl rfl] at hsent
  have hstranded := congrArg (fun t : State => t.stranded.length) (Host.Outcome.next.inj hsent)
  rw [votingCoordinator_stranded, votingCoordinatorSent_stranded] at hstranded
  cases hstranded

end Sys2Proof.Machine
end

section
/-! PROOFS. Commands at the memory controllers and at the crossings (R313 to R328). -/
namespace Sys2Proof.Machine

variable {s : State} {src : Src}

/-! ### Memory (R313 to R318) -/

theorem exec_memoryRead {addr len : Nat} {err : LineErr} (hin : s.inStore addr len = true) (hserves : s.storeServes addr len = true) :
    exec (.memoryRead addr len err) s =
      let k := s.key (s.localAddr addr)
      let r := (s.lineUpset (k / 64) err).readAllLines 0xFFFF false (lineAddrs addr len)
      .next (r.1.reply (r.1.bytes k len ++ [b2n r.2])) := by
  show execMemoryRead _ _ _ s = _
  simp only [execMemoryRead, hin, hserves, Bool.true_eq_false, if_false]

theorem exec_memoryWrite {addr : Nat} {data : List Nat} {poisoned : Bool} (hin : s.inStore addr data.length = true)
    (hserves : s.storeServes addr data.length = true) :
    exec (.memoryWrite addr data poisoned) s =
      let k := s.key (s.localAddr addr)
      .next (if poisoned then (touchedLines k data.length).foldl State.poisonLine (s.store k data) else s.store k data) := by
  show execMemoryWrite _ _ _ s = _
  simp only [execMemoryWrite, hin, hserves, State.devWrite, Bool.true_eq_false, if_false]

/-- An atomic merge on a good line replaces its word (R316). -/
theorem State.atomicCmd_good {addr : Nat} {f : Nat → Nat} (hin : s.inStore (addr / 4 * 4) 4 = true)
    (hserves : s.storeServes (addr / 4 * 4) 4 = true) (hgood : (s.lineRead (addr / 4 * 4) 0xFFFF false).2 = false) :
    s.atomicCmd addr f = .next ((s.lineRead (addr / 4 * 4) 0xFFFF false).1.devPut (addr / 4 * 4) 4
      (f ((s.lineRead (addr / 4 * 4) 0xFFFF false).1.devLe (addr / 4 * 4) 4))) := by
  simp only [State.atomicCmd, State.atomic, hin, hserves, hgood, Bool.true_eq_false, Bool.false_eq_true, if_false, if_true]

theorem pageBlk_pNMC : ∀ d < 6, pageBlk (pNMC d) = some (.nmc, d) := by decide

theorem pageBlk_pFMC : ∀ c < 32, pageBlk (pFMC c) = some (.fmc, c) := by decide

/-- The visit of a running scrubber to a line at address a (R315). -/
def State.scrubVisit (s : State) (page channel a lines : Nat) (err : LineErr) : State :=
  let k := page * 128 + channel
  let s1 := { s with scrubPos := sset 0 s.scrubPos k ((sget 0 s.scrubPos k + 1) % lines) }
  if s1.poison.contains (a / 64) then s1 else ((s1.lineUpset (a / 64) err).lineRead a 0xFFFF false).1

theorem exec_memScrub_near {d ch : Nat} {err : LineErr} (hd : d < 6) (hch : ch < 128) (hruns : s.blockRuns (pNMC d) = true)
    (hon : bit (s.reg (pNMC d) R.NMC_CTL) 0 = true) (hready : bit (s.reg (pNMC d) R.NMC_STS) 0 = true) :
    exec (.memScrub (pNMC d) ch err) s =
      .next (s.scrubVisit (pNMC d) ch (nearLine d ch (sget 0 s.scrubPos (pNMC d * 128 + ch))) (2 ^ 24) err) := by
  show execMemScrub _ _ _ s = _
  simp only [execMemScrub, pageBlk_pNMC d hd, hch, hruns, hon, hready, Bool.true_eq_false, or_self, if_false, if_true]
  rfl

theorem exec_memScrub_far {c : Nat} {err : LineErr} (hc : c < 32) (hruns : s.blockRuns (pFMC c) = true)
    (hon : bit (s.reg (pFMC c) R.NMC_CTL) 0 = true) (hready : bit (s.reg (pFMC c) R.NMC_STS) 0 = true) :
    exec (.memScrub (pFMC c) 0 err) s =
      .next (s.scrubVisit (pFMC c) 0 (farLine c (sget 0 s.scrubPos (pFMC c * 128))) (2 ^ 30) err) := by
  show execMemScrub _ _ _ s = _
  simp only [execMemScrub, pageBlk_pFMC c hc, hruns, hon, hready, Bool.true_eq_false, or_self, if_false, if_true]
  rfl

/-! ### Crossings (R319 to R328) -/

theorem exec_arbitrationRound {i server : Nat} (hi : i < 44) (hserver : server < crsServers i)
    (hruns : s.blockRuns (pCRS i) = true)
    (hfree : ((if crsSelfEnding i then s.endGrant i server else s).freeServers i).contains server = true) :
    exec (.arbitrationRound i server) s =
      .next ((if crsSelfEnding i then s.endGrant i server else s).crsRound i server).1 := by
  show execArbitrationRound _ _ s = _
  simp only [execArbitrationRound, Nat.not_le.mpr hi, Nat.not_le.mpr hserver, hruns, hfree, Bool.true_eq_false, or_self,
    if_false]

theorem exec_crossingWdog {i server : Nat} {g : CrsGrant} (hi : i < 44)
    (hg : (s.crs i).grants.find? (fun g => g.1 == server) = some (server, g)) (hruns : s.blockRuns (pCRS i) = true)
    (hus : s.reg (pCRS i) R.CRS_WDOG % 2 ^ 24 ≠ 0) (hlate : g.start + s.reg (pCRS i) R.CRS_WDOG % 2 ^ 24 * 1000 ≤ s.mt) :
    exec (.crossingWdog i server) s = .next
      ((((s.endGrant i server).resetHolder i server g).bump (pCRS i) R.CRS_WDOG_COUNT 1).raise (pCRS i) 0
        (g.requester % 2 ^ 16 + server % 2 ^ 8 * 2 ^ 16) g.start) := by
  show execCrossingWdog _ _ s = _
  simp only [execCrossingWdog, hg, Nat.not_le.mpr hi, hruns, hus, Nat.not_lt.mpr hlate, Bool.true_eq_false, or_self, if_false]

end Sys2Proof.Machine

namespace Sys2Proof.Machine

/-- Settles O34: each command past the test that the store serves. A merge acts on the aligned word (log entry 60), and a read answers
its bytes with their poison mark (log entry 63). -/
theorem memoryCommandsComplete : Obligations.MemoryCommandsComplete := by
  intro s src
  refine ⟨?read, ?write, ?merge, ?scrubNear, ?scrubFar, ?nearInit, ?zero, ?zeroDone⟩
  case read => exact fun addr len err hin hserves => exec_memoryRead hin hserves
  case write =>
    exact fun addr data hin hserves => ⟨exec_memoryWrite hin hserves, exec_memoryWrite hin hserves⟩
  case merge =>
    intro addr v a r hin hserves hgood
    exact ⟨State.atomicCmd_good hin hserves hgood, State.atomicCmd_good hin hserves hgood, State.atomicCmd_good hin hserves hgood⟩
  case scrubNear =>
    intro d ch err hd hch hruns hon hready n a s1
    rw [exec_memScrub_near hd hch hruns hon hready]
    exact ⟨fun hpoison => congrArg _ (if_pos hpoison), fun hpoison => congrArg _ (if_neg (Bool.eq_false_iff.mp hpoison))⟩
  case scrubFar =>
    intro c err hc hruns hon hready n a s1 hpoison
    rw [exec_memScrub_far hc hruns hon hready]
    exact congrArg _ (if_neg (Bool.eq_false_iff.mp hpoison))
  case nearInit => exact fun d hd hlive hon hbusy => congrArg _ (if_pos ⟨hd, hlive, hon, hbusy⟩)
  case zero =>
    exact fun c hc hw => congrArg _ ((if_pos hc).trans (State.onWrite_granted (isDebugPage_pFMC c hc) hw))
  case zeroDone => exact fun c hc hlive hon hbusy => congrArg _ (if_pos ⟨hc, hlive, hon, hbusy⟩)

/-- Settles O35: each command past the test that the crossing runs. Of a host, check or checkpoint holder only the grant ends
(log entry 51). -/
theorem crossingCommandsComplete : Obligations.CrossingCommandsComplete := by
  intro s src i server hi
  refine ⟨fun hserver hruns => exec_arbitrationRound hi hserver hruns, ?wdog, fun hruns => ?window, fun v hw => ?quota⟩
  case wdog =>
    intro g hg hruns us hus hlate
    exact exec_crossingWdog hi hg hruns hus hlate
  case window =>
    exact congrArg _ (if_neg (not_or.mpr ⟨Nat.not_le.mpr hi, fun h => Bool.false_ne_true (h.symm.trans hruns)⟩))
  case quota =>
    exact congrArg _ ((if_pos hi).trans (State.onWrite_granted (isDebugPage_pCRS i hi) hw))

end Sys2Proof.Machine
end

section
/-! PROOFS. Register, event and error-log commands (R429 to R435, R446 to R453). -/
namespace Sys2Proof.Machine

variable {s : State} {src : Src} {page : Nat}

/-- An aligned word's read answers the word's low 32 bits. -/
theorem exec_rcRead_word {off : Nat} (halign : off % 4 = 0) (hoff : off < 0x1000) :
    exec (.rcRead src page off 4) s =
      let t := (s.reply []).wordRead src page off
      .next (t.reply (t.answer.map (· % 2 ^ 32))) := by
  have hfits : inPage off 4 = 4 := Nat.min_eq_left (by omega)
  show execRcRead src page off 4 s = _
  simp only [execRcRead, hfits, wordSpans_word halign, List.foldl_cons, List.foldl_nil, List.nil_append, Nat.mul_zero, Nat.pow_zero,
    Nat.div_one]

/-- A granted read goes to its register. -/
theorem State.wordRead_mayRead {off : Nat} (h : s.mayRead src page off = true) :
    s.wordRead src page off = regRead src page off s := by
  simp only [State.mayRead, beq_iff_eq] at h
  simp only [State.wordRead, State.onRead, h]

theorem isDebugPage_pERR : isDebugPage pERR = false := rfl

end Sys2Proof.Machine

namespace Sys2Proof.Machine

/-- Settles O36: a granted access is the act of its register. -/
theorem registerCommandsComplete : Obligations.RegisterCommandsComplete := by
  intro s src page
  refine ⟨?write, ?read, ?pop, fun hr => congrArg _ (State.onRead_mayRead hr), ?fatal, fun hr => congrArg _ (State.onRead_mayRead hr),
    ?page, fun hon => congrArg _ (if_pos hon)⟩
  case write =>
    intro off v halign hoff hv hprt hreg hkey hdbg hw
    rw [exec_registerWrite_word halign hoff hv, State.wordWrite_mayWrite hprt hkey hreg hdbg hw]
  case read =>
    intro off halign hoff hr
    have hr' : (s.reply []).mayRead src page off = true := hr
    rw [exec_rcRead_word halign hoff, State.wordRead_mayRead hr']
  case pop => exact fun r l hlog hw hseq => exec_errLogPop_oldest hlog hseq hw
  case fatal => exact fun hw => congrArg _ (State.onWrite_granted isDebugPage_pERR hw)
  case page =>
    intro hbar cp
    have hbar : ¬ isBar2 page = true := Bool.eq_false_iff.mp hbar
    refine ⟨fun hw hdbg => ?_, fun v hw => ?_, fun v hw => ?_, fun v hw hdbg => ⟨fun hfree hset => ?_, fun hheld hclear hsame => ?_⟩,
      fun hw => ?_⟩
    · refine congrArg _ ((if_neg hbar).trans ((State.onWrite_granted (isDebugPage_eq_false_iff.mpr hdbg) hw).trans ?_))
      rfl
    · exact congrArg _ ((if_neg hbar).trans (State.onWrite_mayWrite hw))
    · exact congrArg _ ((if_neg hbar).trans (State.onWrite_mayWrite hw))
    · refine congrArg _ ((if_neg hbar).trans ((State.onWrite_granted (isDebugPage_eq_false_iff.mpr hdbg) hw).trans ?_))
      exact (if_pos hfree).trans (if_pos hset)
    · refine congrArg _ ((if_neg hbar).trans ((State.onWrite_granted (isDebugPage_eq_false_iff.mpr hdbg) hw).trans ?_))
      exact (if_neg (by rw [hheld]; decide)).trans (if_pos ⟨hclear, .inl hsame⟩)
    · exact congrArg _ ((if_neg hbar).trans (State.onWrite_mayWrite hw))

end Sys2Proof.Machine
end

section
/-! PROOFS. Commands of ingest (R331 to R363, R371, R373). -/
namespace Sys2Proof.Machine

variable {s : State} {src : Src} {k : Nat}

/-! ### Streams and samples -/

/-- A stream whose ring holds its records enables, and an enabled one stays so (R332). -/
theorem strCtlWrite_enables {v : Nat} (hset : bit v 0 = true) (hring : s.strEn k = true ∨ s.ringOk k = true) :
    strCtlWrite k v s = s.setReg (pINGS k) R.ING_STR_CTL (v % 8) := by
  have hgood : ¬ (s.strEn k = false ∧ s.ringOk k = false) := by
    rintro ⟨h1, h2⟩
    rw [h1, h2] at hring
    exact hring.elim Bool.false_ne_true Bool.false_ne_true
  simp only [strCtlWrite, hset, hgood, Bool.true_eq_false, if_false]

theorem strTailWrite_moves {v : Nat}
    (hroom : (v % 2 ^ 32 + 2 ^ 32 - s.sreg k R.ING_STR_HEAD) % 2 ^ 32 ≤ s.ringUnits k)
    (hfwd : (s.sreg k R.ING_STR_TAIL + 2 ^ 32 - s.sreg k R.ING_STR_HEAD) % 2 ^ 32 ≤
      (v % 2 ^ 32 + 2 ^ 32 - s.sreg k R.ING_STR_HEAD) % 2 ^ 32) :
    strTailWrite k v s =
      (s.setReg (pINGS k) R.ING_STR_TAIL (v % 2 ^ 32)).modStr k fun x => { x with dryAt := none } := by
  simp only [strTailWrite, Nat.not_lt.mpr hroom, Nat.not_lt.mpr hfwd, or_self, if_false]

/-- The sample of a record of `len` units at ring position c and address a. -/
def Stream.newSample (x : Stream) (c len a : Nat) : Sample :=
  { take := x.nextTake, handle := x.nextHandle, unit := c, len := len, recAddr := a }

/-- A sound data record at the cursor is taken (R335, R338). -/
theorem State.takeAt_takes {s1 : State} {bytes : List Nat} {c f : Nat} (hc : s.sreg k R.ING_STR_CURSOR = c)
    (hmay : s.mayTakeSample k = true) (hmaps : s.maps (s.pagePart (pINGS k)) (s.unitAddr k c) 64 false = true)
    (hon : s.targetOff (s.unitAddr k c) = false) (hserves : s.targetWaits (s.unitAddr k c) = false)
    (hread : s.devRead (s.unitAddr k c) 64 0xFFFF = (s1, bytes, none)) (hlen : leNat (bytes.take 4) ≠ 0)
    (hroom : leNat (bytes.take 4) ≤ (s.sreg k R.ING_STR_TAIL + 2 ^ 32 - c) % 2 ^ 32)
    (hend : leNat (bytes.take 4) ≤ s.ringUnits k - c % s.ringUnits k) (hkind : bytes.getD 4 0 = 1) :
    s.takeAt k (f + 1) =
      (((s1.setReg (pINGS k) R.ING_STR_CURSOR (c + leNat (bytes.take 4))).setStr k
        { s1.str k with
          nextTake := (s1.str k).nextTake + 1, nextHandle := (s1.str k).nextHandle + 1, taken := (s1.str k).taken + 1,
          pending := (s1.str k).pending + 1, dryAt := none,
          samples := (s1.str k).samples ++ [(s1.str k).newSample c (leNat (bytes.take 4)) (s.unitAddr k c)] }).beginSample k
        ((s1.str k).newSample c (leNat (bytes.take 4)) (s.unitAddr k c)) true) := by
  have hbad : ((none : Option Nat).isSome || leNat (bytes.take 4) == 0 ||
      decide ((s.sreg k R.ING_STR_TAIL + 2 ^ 32 - c) % 2 ^ 32 < leNat (bytes.take 4)) ||
      decide (s.ringUnits k - c % s.ringUnits k < leNat (bytes.take 4)) || decide (2 ≤ 1) ||
      (1 == 0 && leNat (bytes.take 4) != s.ringUnits k - c % s.ringUnits k)) = false := by
    rw [decide_eq_false (Nat.not_lt.mpr hroom), decide_eq_false (Nat.not_lt.mpr hend), beq_false_of_ne hlen]
    rfl
  rw [State.takeAt]
  simp only [hc, hmay, hmaps, hon, hserves, hread, hbad, hkind, Bool.true_eq_false, Bool.false_eq_true, or_self, if_false,
    Nat.one_ne_zero]
  rfl

/-- A stream's ring that has stayed dry is reported again after ING_DRY_US (R336). -/
theorem exec_ringDry (hk : k < 256) (hdry : s.strDry k = true)
    (hdue : ∀ t, (s.str k).dryAt = some t → t + max 1 (s.reg pING R.ING_DRY_US % 2 ^ 24) * 1000 ≤ s.mt) :
    exec (.ringDry k) s = .next ((s.notice (pINGS k) 9).modStr k fun x => { x with dryAt := some s.mt }) := by
  show execRingDry k s = _
  unfold execRingDry
  cases hat : (s.str k).dryAt with
  | none => exact congrArg _ (if_pos ⟨hk, hdry, rfl⟩)
  | some t => exact congrArg _ (if_pos ⟨hk, hdry, decide_eq_true (hdue t hat)⟩)

/-! ### Decoding (R343 to R350) -/

theorem exec_decodeTimeout {kind core h i : Nat} {g : CrsGrant} (hkind : kind < 3) (hruns : s.blockRuns (pMDE kind) = true)
    (hown : s.coreOwner kind core = some (k, h, i, g)) (hb : s.sreg k R.ING_STR_BUDGET % 2 ^ 24 ≠ 0)
    (hlate : g.start + s.sreg k R.ING_STR_BUDGET % 2 ^ 24 * 1000 ≤ s.mt) :
    exec (.decodeTimeout kind core) s =
      .next ((((s.endGrant (40 + kind) core).bump (pMDE kind) R.MDE_ABANDONED 1).raise (pMDE kind) 0 core).modSample k h
        fun t => { t with fail := some (t.fail.getD 1) }) := by
  have hlate' : ¬ (s.reg (pINGS k) R.ING_STR_BUDGET % 2 ^ 24 = 0 ∨ s.mt < g.start + s.reg (pINGS k) R.ING_STR_BUDGET % 2 ^ 24 * 1000) :=
    not_or.mpr ⟨hb, Nat.not_lt.mpr hlate⟩
  show execDecodeTimeout _ _ s = _
  simp only [execDecodeTimeout, hown, hruns, Nat.not_le.mpr hkind, Bool.true_eq_false, or_self, if_false]
  exact congrArg _ (if_neg hlate')

theorem exec_decodeDone {kind core h i : Nat} {g : CrsGrant} {result : DecodeResult} (hkind : kind < 3)
    (hruns : s.blockRuns (pMDE kind) = true) (hown : s.coreOwner kind core = some (k, h, i, g)) :
    exec (.decodeDone kind core result) s = .next (s.decodeStore kind core result k h i) := by
  show execDecodeDone _ _ _ s = _
  simp only [execDecodeDone, hown, hruns, Nat.not_le.mpr hkind, Bool.true_eq_false, or_self, if_false]

theorem exec_sampleFail {take r : Nat} {m : Sample} (hk : k < 256) (hm : s.sampleOf k take = some m) (hfail : m.fail = some r)
    (hruns : s.ingRuns k = true) (hwaits : s.checkWaits k m.handle = false) :
    exec (.sampleFail k take) s = .next (s.sampleFailed k m r) := by
  show execSampleFail _ _ s = _
  simp only [execSampleFail, hm, hfail, hruns, hwaits, Nat.not_le.mpr hk, Bool.true_eq_false, Bool.false_eq_true, or_self,
    if_false]

theorem exec_bucketAssign {take : Nat} {m : Sample} (hk : k < 256) (hm : s.sampleOf k take = some m) (hruns : s.ingRuns k = true)
    (hfail : m.fail = none) (hbucket : m.bucket = none) (hwaits : s.checkWaits k m.handle = false)
    (htext : (m.parts.any fun q => q.codec == 1 && !q.done) = false) :
    exec (.bucketAssign k take) s = .next (s.assignBucket k m) := by
  show execBucketAssign _ _ s = _
  simp only [execBucketAssign, hm, hfail, hbucket, hruns, hwaits, htext, Nat.not_le.mpr hk, Option.isSome_none,
    Bool.true_eq_false, Bool.false_eq_true, or_self, if_false]

/-- The bands of a video part that its decoded frames reach. -/
def State.bandsTodo (s : State) (m : Sample) (idx take : Nat) (q : MediaPart) (r : BatchReq) : List Nat :=
  let sl := s.slotRec q.slot
  let a := s.augOf m idx q
  let per := max 1 (bandsPerTube sl a)
  let whole := a.q % 2 == 1 || !a.theta.isZero
  let kept := ((placesOf r.rows).filter fun o => o.take == take && !o.void && o.part == idx).length
  (List.range (min (s.bandsKept m idx q kept - q.band) (if whole then per - q.band % per else 1))).map (q.band % per + ·)

theorem exec_bandWrite {take idx : Nat} {m : Sample} {q : MediaPart} {r : BatchReq} {b : Bucket} {frames : List MediaFrame} (hk : k < 256)
    (hm : s.sampleOf k take = some m) (hr : (s.str k).req = some r) (hq : m.parts[idx]? = some q) (hb : s.bucket r.bucket = some b)
    (hcodec : q.codec / 16 = 2) (hfail : m.fail = none) (hclosed : r.closed = true) (hbatch : m.batch.isSome = true)
    (hframes : frames.length = slTube (s.slotRec q.slot)) (hgrant : s.partGranted k m.handle idx q = true)
    (htodo : s.bandsTodo m idx take q r ≠ []) :
    exec (.bandWrite k take idx frames) s =
      .next (s.writeBand k take idx frames m r b (s.slotRec q.slot) (s.augOf m idx q) (s.bandsTodo m idx take q r)) := by
  have hbatch' : ¬ m.batch.isNone = true := by rw [Option.isNone_iff_eq_none]; exact Option.isSome_iff_ne_none.mp hbatch
  rw [State.bandsTodo] at htodo
  show execBandWrite _ _ _ _ s = _
  simp only [execBandWrite, hm, hr, hq, hb, hcodec, hfail, hclosed, hbatch', hframes, hgrant, htodo, Nat.not_le.mpr hk, ne_eq,
    not_true_eq_false, Option.isSome_none, Bool.true_eq_false, Bool.false_eq_true, or_self, if_false]
  rfl

theorem exec_tokenize {e h i : Nat} {l : List (Nat × Nat × Nat)} {m : Sample} {q : MediaPart} (he : e < 8)
    (hruns : s.blockRuns pTOK = true) (hon : bit (s.reg pTOK R.TOK_CTL) 0 = true) (hqueue : s.tokQueue = (k, h, i) :: l)
    (hm : State.sampleBy { s with tokQueue := l } k h = some m) (hfail : m.fail = none) (hq : m.parts[i]? = some q) :
    exec (.tokenize e) s = .next (State.tokenizePart { s with tokQueue := l } k h i q) := by
  show execTokenize _ s = _
  simp only [execTokenize, hruns, hon, hqueue, hm, hfail, hq, Nat.not_le.mpr he, Bool.true_eq_false, or_self, if_false]

/-! ### Batches (R359 to R363) -/

theorem exec_batchRequest_fill (hk : k < 256) (hruns : s.ingRuns k = true) (hreq : (s.str k).req.isSome = true) :
    exec (.batchRequest k) s = .next (s.fillReq k) := by
  show execBatchRequest _ s = _
  simp only [execBatchRequest, hruns, hreq, Nat.not_le.mpr hk, Bool.true_eq_false, or_self, if_false, if_true]

theorem exec_batchRequest_take {h : Nat} (hk : k < 256) (hruns : s.ingRuns k = true) (hreq : (s.str k).req = none)
    (hh : s.sreg k R.ING_STR_REQ_HEAD % 2 ^ 16 = h) (hnew : h ≠ s.sreg k R.ING_STR_REQ_TAIL % 2 ^ 16)
    (hread : s.reachable (s.pagePart (pINGS k)) (s.reg64 (pINGS k) R.ING_STR_REQ_BASE_LO + 32 * (h % 64)) 32 = true) :
    exec (.batchRequest k) s = .next (s.takeRequest k h) := by
  show execBatchRequest _ s = _
  simp only [execBatchRequest, hruns, hreq, hh, hnew, hread, Nat.not_le.mpr hk, Option.isSome_none, Bool.true_eq_false,
    Bool.false_eq_true, or_self, if_false]

theorem exec_fillWaitExpire {t : Nat} {r : BatchReq} (hk : k < 256) (hruns : s.ingRuns k = true) (hr : (s.str k).req = some r)
    (ht : r.limitSince = some t) (hlate : t + max 1 (s.reg pING R.ING_FILL_WAIT % 2 ^ 24) * 1000 ≤ s.mt) :
    exec (.fillWaitExpire k) s = .next ((s.closeReq k).notice (pINGS k) 10) := by
  show execFillWaitExpire _ s = _
  simp only [execFillWaitExpire, hr, ht, hruns, hk, hlate, Option.bind_some, and_self, if_true]

theorem exec_requestComplete {r : BatchReq} (hk : k < 256) (hruns : s.ingRuns k = true) (hr : (s.str k).req = some r)
    (hclosed : r.closed = true) (hvisible : (r.rows.all fun l => l.all (s.entryVisible k)) = true) :
    exec (.requestComplete k) s =
      .next (((s.bump (pINGS k) R.ING_STR_PAD_ROWS (r.rows.filter (·.isEmpty)).length).reqSignals k r.flags r.sig).reqDone k) := by
  show execRequestComplete _ s = _
  simp only [execRequestComplete, hr, hclosed, hruns, hvisible, Nat.not_le.mpr hk, Bool.true_eq_false, or_self, if_false]

/-! ### Dictionaries (R358) -/

theorem exec_dictCheckDone {d : Nat} (hd : d < 4) (hruns : s.blockRuns pTOK = true)
    (hbusy : bit (s.reg pTOK (R.TOK_DICT_CTL + 0x10 * d)) 2 = true) :
    exec (.dictCheckDone d) s = .next (if s.dictGood d then s.setReg pTOK (R.TOK_DICT_CTL + 0x10 * d) 3
      else (s.setReg pTOK (R.TOK_DICT_CTL + 0x10 * d) 1).raise pTOK 0 d) := by
  show execDictCheckDone _ s = _
  simp only [execDictCheckDone, hruns, hbusy, Nat.not_le.mpr hd, Bool.true_eq_false, or_self, if_false]

theorem isDebugPage_pTOK : isDebugPage pTOK = false := rfl

end Sys2Proof.Machine

namespace Sys2Proof.Machine

/-- Settles O37: each command of ingest under the conditions of its rule (log entry 65). -/
theorem ingestCommandsComplete : Obligations.IngestCommandsComplete := by
  intro s src k hk p x
  have hwrite {off : Nat} {act : State → State} {t : State} (hw : s.mayWrite src p off = true) (ht : act s = t) :
      Host.Outcome.next (if k < 256 then s.onWrite src (pINGS k) off act else s) =
        Host.Outcome.next (φ := Fault) (ρ := Refusal) t :=
    congrArg _ ((if_pos hk).trans ((State.onWrite_granted (isDebugPage_pINGS hk) hw).trans ht))
  refine ⟨?enable, ?tail, ?cursor, ?take, fun hdry hdue => exec_ringDry hk hdry hdue, ?decode, ?sample, ?tokenize, ?reqTail, ?batch,
    fun hr => congrArg _ ((if_pos hk).trans (State.onRead_mayRead hr)), ?dict⟩
  case enable =>
    exact fun hw v => ⟨fun hclear => hwrite hw (if_pos hclear), fun hset hring => hwrite hw (strCtlWrite_enables hset hring)⟩
  case tail =>
    intro v h d hw hroom hfwd
    exact hwrite hw (strTailWrite_moves hroom hfwd)
  case cursor => exact fun v hw hoff hnone => hwrite hw (if_pos ⟨hoff, hnone⟩)
  case take =>
    intro c a r len hmay hmaps hon hserves hbad hlen hroom hend hkind y m
    refine congrArg _ ((if_pos hk).trans ?_)
    exact State.takeAt_takes rfl hmay hmaps hon hserves (Prod.ext rfl (Prod.ext rfl hbad)) hlen hroom hend hkind
  case decode =>
    intro kind core h i g hkind hruns hown
    refine ⟨?_, fun result => exec_decodeDone hkind hruns hown⟩
    intro b hb hlate
    exact exec_decodeTimeout hkind hruns hown hb hlate
  case sample =>
    intro take m hm
    refine ⟨fun r hfail hruns hwaits => exec_sampleFail hk hm hfail hruns hwaits,
      fun hruns hfail hbucket hwaits htext => exec_bucketAssign hk hm hruns hfail hbucket hwaits htext, ?_⟩
    intro r idx q b frames hr hq hb sl a per whole kept py todo hcodec hfail hclosed hbatch hframes hgrant htodo
    exact exec_bandWrite hk hm hr hq hb hcodec hfail hclosed hbatch hframes hgrant htodo
  case tokenize =>
    intro e h i l m q he hruns hon hqueue s1 hm hfail hq
    exact exec_tokenize he hruns hon hqueue hm hfail hq
  case reqTail => exact fun v hw hroom => hwrite hw (if_pos hroom)
  case batch =>
    intro hruns
    refine ⟨exec_batchRequest_fill hk hruns, ?_, fun r hr => ⟨fun t ht hlate => exec_fillWaitExpire hk hruns hr ht hlate,
      fun hclosed hvisible => exec_requestComplete hk hruns hr hclosed hvisible⟩⟩
    intro h hreq hnew hread
    exact exec_batchRequest_take hk hruns hreq rfl hnew hread
  case dict =>
    intro d v hd off
    have hdict {act : State → State} {t : State} (hw : s.mayWrite src pTOK off = true) (ht : act s = t) :
        Host.Outcome.next (if d < 4 then s.onWrite src pTOK off act else s) = Host.Outcome.next (φ := Fault) (ρ := Refusal) t :=
      congrArg _ ((if_pos hd).trans ((State.onWrite_granted isDebugPage_pTOK hw).trans ht))
    refine ⟨fun hw hclear => hdict hw (if_pos hclear), fun hw hset hoff => hdict hw ?_, fun hruns hbusy => ?_⟩
    · exact (if_neg (by rw [hset]; decide)).trans (if_neg (Bool.eq_false_iff.mp hoff))
    · rw [exec_dictCheckDone hd hruns hbusy]
      exact ⟨fun hgood => congrArg _ (if_pos hgood), fun hbad => congrArg _ (if_neg (Bool.eq_false_iff.mp hbad))⟩

end Sys2Proof.Machine
end

section
/-! PROOFS. Commands of the encoders (R364 to R370, R374). -/
namespace Sys2Proof.Machine

variable {s : State} {core : Nat}

/-- The well-formed job at the head of a running, enabled and idle encoder is taken up (R366). -/
theorem exec_encodeJob (hcore : core < 4) (hruns : s.blockRuns (pEXE core) = true)
    (hon : bit (s.reg (pEXE core) R.EXE_CTL) 0 = true) (hidle : (s.enc core).job = none)
    (hhead : s.exeHead core ≠ s.reg (pEXE core) R.EXE_JOB_TAIL % 2 ^ 16)
    (hread : s.reachable (s.pagePart (pEXE core)) (s.reg64 (pEXE core) R.EXE_JOB_BASE_LO + 64 * (s.exeHead core % 16)) 64 = true)
    (hok : ejOk (s.devLe (s.reg64 (pEXE core) R.EXE_JOB_BASE_LO + 64 * (s.exeHead core % 16)) 64) = true) :
    exec (.encodeJob core) s =
      let w := s.devLe (s.reg64 (pEXE core) R.EXE_JOB_BASE_LO + 64 * (s.exeHead core % 16)) 64
      .next (s.setEnc core { s.enc core with
        job := some ({ words := w, qpI := ejQpInit w, qpP := ejQpInit w } : EncJob).startFrame }) := by
  show execEncodeJob _ s = _
  simp only [execEncodeJob, hruns, hon, hidle, hhead, hread, hok, Nat.not_le.mpr hcore, Option.isSome_none,
    Bool.true_eq_false, Bool.false_eq_true, or_self, if_false]

theorem exec_sliceEncoded {j : EncJob} {payload rowBits : List Nat} (hcore : core < 4) (hj : (s.enc core).job = some j)
    (hruns : s.blockRuns (pEXE core) = true) (hheld : (s.enc core).held = []) :
    exec (.sliceEncoded core payload rowBits) s = .next (s.sliceOut core payload rowBits j) := by
  show execSliceEncoded _ _ _ s = _
  simp only [execSliceEncoded, hj, hruns, hheld, Nat.not_le.mpr hcore, ne_eq, not_true_eq_false, Bool.true_eq_false, or_self,
    if_false]

/-- The write with ABORT set and EN as it was marks the job to end (R370). -/
theorem exeCtlWrite_abort : exeCtlWrite core (s.reg (pEXE core) R.EXE_CTL % 2 + 2) s =
    (s.setReg (pEXE core) R.EXE_CTL (s.reg (pEXE core) R.EXE_CTL % 2)).setEnc core
      { s.enc core with job := (s.enc core).job.map fun j => { j with abort := true } } := by
  have habort : bit (s.reg (pEXE core) R.EXE_CTL % 2 + 2) 1 = true := by
    rw [bit]
    exact beq_iff_eq.mpr (by omega)
  have hen : (s.reg (pEXE core) R.EXE_CTL % 2 + 2) % 2 = s.reg (pEXE core) R.EXE_CTL % 2 := by omega
  rw [exeCtlWrite, hen]
  exact if_pos habort

end Sys2Proof.Machine

namespace Sys2Proof.Machine

/-- Settles O38: each command of the encoders under the conditions of its rule (log entry 67). -/
theorem exportCommandsComplete : Obligations.ExportCommandsComplete := by
  intro s src core hcore p e
  have hpage : isDebugPage (pEXE core) = false := isDebugPage_pEXE core hcore
  refine ⟨fun v hw hroom => next_onWrite_of hcore hpage hw (if_pos hroom), ?_,
    fun j payload rowBits hj hruns hheld => exec_sliceEncoded hcore hj hruns hheld, ?_,
    fun hw => next_onWrite_of hcore hpage hw exeCtlWrite_abort⟩
  · intro a w hruns hon hidle hhead hread hok
    exact exec_encodeJob hcore hruns hon hidle hhead hread hok
  · intro v h hw hfree
    exact next_onWrite_of hcore hpage hw (if_pos hfree)

end Sys2Proof.Machine
end

section
/-! PROOFS. Commands of the links (R375 to R385). -/
namespace Sys2Proof.Machine

variable {s : State} {g k : Nat}

theorem isDebugPage_pGAT : ∀ g < 8, isDebugPage (pGAT g) = false := by decide

theorem lt_of_isLink (h : isLink g k = true) : g < 8 := by
  rw [isLink, Bool.and_eq_true] at h
  exact of_decide_eq_true h.1

/-- An accepted identity makes the link active (R378). -/
theorem exec_identFlit_ok {ident : Ident} (hst : s.inState g k lsIdent = true) (hok : s.identOk g k ident = true) :
    exec (.identFlit g k ident) s =
      let l := s.link g k
      let s1 := (s.setLink g k { since := s.mt, retrains := l.retrains, x2 := l.x2 }).toLstate g k lsActive
      let s2 := (s1.setFld (pGAT g) (lnkReg k R.GAT_LNK_STS) 26 3
        (b2n l.x2 + 2 * b2n ident.enc + (ident.peer % 2 ^ 14) * 2 ^ 3 + (ident.link % 2 ^ 7) * 2 ^ 17)).notice (pGAT g) 0 k
      .next (if l.x2 then s2.raise (pGAT g) 2 k else s2).unstrand := by
  show execIdentFlit _ _ _ s = _
  simp only [execIdentFlit, hst, hok, if_true]

theorem exec_identFlit_refused {ident : Ident} (hst : s.inState g k lsIdent = true) (hok : s.identOk g k ident = false) :
    exec (.identFlit g k ident) s = .next ((s.raise (pGAT g) 3 k).failAttempt g k) := by
  show execIdentFlit _ _ _ s = _
  simp only [execIdentFlit, hst, hok, Bool.false_eq_true, if_true, if_false]

theorem exec_laneAlign {lanes : Nat} {x2 : Bool} (hst : s.inState g k lsAlign = true) (hx2 : s.width g lanes = some x2) :
    exec (.laneAlign g k lanes) s =
      let s1 := (s.toLstate g k lsIdent).modLink g k fun l => { l with x2 := x2 }
      .next { s1 with out := s1.out ++ [.linkCtl g k (.ident (s1.ownIdent g k))] } := by
  show execLaneAlign _ _ _ s = _
  simp only [execLaneAlign, hst, hx2, if_true]

theorem exec_retrainDone_lost {lanes : Nat} (hst : s.inState g k lsRetrain = true) :
    exec (.retrainDone g k false lanes) s = .next (s.linkDown g k) := by
  show execRetrainDone g k false lanes s = _
  simp only [execRetrainDone, hst, Bool.false_eq_true, if_true, if_false]

theorem exec_retrainDone_up {lanes : Nat} {two : Bool} (hst : s.inState g k lsRetrain = true) (hw : s.width g lanes = some two) :
    exec (.retrainDone g k true lanes) s = .next (s.retrained g k two) := by
  show execRetrainDone g k true lanes s = _
  simp only [execRetrainDone, hst, hw, if_true]

end Sys2Proof.Machine

namespace Sys2Proof.Machine

/-- Settles O39: each command of a link in the link state it belongs to (log entries 69 and 72). -/
theorem linkCommandsComplete : Obligations.LinkCommandsComplete := by
  intro s src g k off l
  refine ⟨fun v hlink hw => ?write, fun hst => congrArg _ (if_pos hst), fun hst => congrArg _ (if_pos hst),
    fun lanes x2 hst hx2 => exec_laneAlign hst hx2,
    fun ident hst => ⟨exec_identFlit_ok hst, exec_identFlit_refused hst⟩,
    fun hst hlo hhi hlate => congrArg _ (if_pos ⟨hst, hlo, hhi, hlate⟩),
    fun hlink hruns hwait hlate => congrArg _ (if_pos ⟨hlink, hruns, hwait, hlate⟩), ?active,
    fun hst => ⟨fun lanes => exec_retrainDone_lost hst, fun lanes two hw => exec_retrainDone_up hst hw⟩⟩
  case write =>
    have hpage : isDebugPage (pGAT g) = false := isDebugPage_pGAT g (lt_of_isLink hlink)
    exact ⟨next_onWrite_of hlink hpage hw rfl, next_onWrite_of hlink hpage hw rfl⟩
  case active =>
    intro hst
    refine ⟨fun flit => congrArg _ (if_pos hst), fun seq => congrArg _ (if_pos hst), congrArg _ (if_pos hst), ?_⟩
    intro wait n s1 henc hseg hlate hroom
    exact congrArg _ (if_pos ⟨hst, henc, hseg, hlate, hroom⟩)

end Sys2Proof.Machine
end

section
/-! PROOFS. Commands of remote packets (R386 to R394, R212). -/
namespace Sys2Proof.Machine

variable {s : State} {p : Packet}

theorem isDebugPage_pGATS : isDebugPage pGATS = false := rfl

theorem exec_packetForward (hruns : s.gateRuns p.gate = true) (hdst : p.dst ≠ s.moduleId) (hvc : vcRouted p.body.vc = true)
    (hcan : s.canForward p = true) : exec (.packetForward p) s = .next ((s.consumed p).forward p) := by
  show execPacketForward _ s = _
  simp only [execPacketForward, hruns, hdst, hvc, hcan, Bool.true_eq_false, or_self, if_false]

/-- A write into memory that remote writes reach is stored and acknowledged (R387, log entry 71). -/
theorem State.serveWrite_stored {a req : Nat} {l : List Nat} {poisoned : Bool} (hok : s.remoteOk a l.length true = true)
    (hserves : s.rangeWaits a l.length = false) :
    s.serveWrite p a l poisoned req = ((s.consumed p).remoteStore p.gate a l poisoned).answerTo p (.ack req true) := by
  simp only [State.serveWrite, hok, hserves, Bool.true_eq_false, Bool.false_eq_true, if_false]

theorem State.serveWrite_refused {a req : Nat} {l : List Nat} {poisoned : Bool} (hok : s.remoteOk a l.length true = false) :
    s.serveWrite p a l poisoned req = (s.consumed p).answerTo p (.ack req false) :=
  if_pos hok

theorem exec_linkWrite {a req : Nat} {l : List Nat} {poisoned : Bool} (hhere : s.arrivedHere p = true)
    (hbody : p.body = .write a l poisoned req) : exec (.linkWrite p) s = .next (s.serveWrite p a l poisoned req) := by
  show execLinkWrite _ s = _
  simp only [execLinkWrite, hbody, hhere, if_true]

theorem exec_bulkWrite {a req : Nat} {l : List Nat} (hhere : s.arrivedHere p = true) (hbody : p.body = .bulkWrite a l req) :
    exec (.bulk p) s = .next (s.serveWrite p a l false req) := by
  show execBulk _ s = _
  simp only [execBulk, hbody, hhere, Body.vc, ne_eq, not_true_eq_false, Bool.true_eq_false, or_self, if_false]

theorem exec_bulkPage {c t j o req : Nat} {g : RingGeo} {l : List Nat} (hhere : s.arrivedHere p = true)
    (hbody : p.body = .bulkPage c g t j o l req) :
    exec (.bulk p) s =
      .next (if (s.ringTake p.src p.body).2 then (s.ringTake p.src p.body).1.consumed p else (s.ringTake p.src p.body).1) := by
  show execBulk _ s = _
  simp only [execBulk, hbody, hhere, Body.vc, ne_eq, not_true_eq_false, Bool.true_eq_false, or_self, if_false]
  cases s.ringTake p.src (.bulkPage c g t j o l req) with
  | mk t taken => cases taken <;> rfl

/-- A read of memory that remote reads reach answers its bytes, poisoned when a line of them is bad (R388, log entry 48). -/
theorem exec_readReq {a n req : Nat} (hhere : s.arrivedHere p = true) (hbody : p.body = .readReq a n req)
    (hok : s.remoteOk a n false = true) (hn : n ≤ 4096) (hserves : s.rangeWaits a n = false) :
    exec (.readReq p) s = .next ((((s.consumed p).devRead a n 0xFFFF).1.farTouch (99 + p.gate) a n).answerTo p
      (.readRsp req true ((s.consumed p).devRead a n 0xFFFF).2.2.isSome ((s.consumed p).devRead a n 0xFFFF).2.1)) := by
  show execReadReq _ s = _
  simp only [execReadReq, hbody, hhere, hok, hserves, Nat.not_lt.mpr hn, Bool.true_eq_false, Bool.false_eq_true, or_self,
    if_false]

/-- The whole answer of a transfer's read is delivered to it (R388, log entry 46). -/
theorem exec_readRsp {req : Nat} {poisoned : Bool} {l : List Nat} {r : OutReq} {o : Owner} (hhere : s.arrivedHere p = true)
    (hbody : p.body = .readRsp req true poisoned l) (hr : (s.consumed p).modReq req false = some r) (ho : r.owner = .xfer o)
    (hlen : r.len ≤ l.length) :
    exec (.readRsp p) s = .next ((s.consumed p).answered r (l.take r.len) (if poisoned then 0 else r.len)
      (if poisoned then some r.addr else none)) := by
  show execReadRsp _ s = _
  simp only [execReadRsp, hbody, hhere, hr, ho, Nat.not_lt.mpr hlen, Bool.true_eq_false, if_false]

/-- An acknowledgement reaches the request that waits for it, by the request's owner (R387). -/
theorem exec_ack {req : Nat} {r : OutReq} (hhere : s.arrivedHere p = true) (hbody : p.body = .ack req true)
    (hr : (s.consumed p).modReq req true = some r) :
    exec (.ack p) s = .next (match r.owner with
      | .xfer o => ((s.consumed p).dropReq req).advance o
      | .buddy => (s.consumed p).dropReq req
      | .ring => (s.consumed p).ringAck req true) := by
  show execAck _ s = _
  simp only [execAck, hbody, hhere, hr, Bool.true_eq_false, if_false] <;> rfl

theorem exec_remoteSignal {t c inc : Nat} (hhere : s.arrivedHere p = true) (hbody : p.body = .signal t c inc)
    (htarget : isTarget t = true)
    (hpart : (if t = 0x700 then (s.consumed p).pagePart pSTP else (s.consumed p).partOf (t / 256)) = (s.consumed p).pagePart pGATS) :
    exec (.remoteSignal p) s = .next ((s.consumed p).addCtr t c inc) := by
  have hown : (if t = 0x700 then (s.consumed p).pagePart pSTP == (s.consumed p).pagePart pGATS
      else (s.consumed p).partOf (t / 256) == (s.consumed p).pagePart pGATS) = true := by
    split
    · next ht => rw [if_pos ht] at hpart; exact beq_iff_eq.mpr hpart
    · next ht => rw [if_neg ht] at hpart; exact beq_iff_eq.mpr hpart
  show execRemoteSignal _ s = _
  simp only [execRemoteSignal, hbody, hhere, htarget, hown, Bool.and_self, if_true]

theorem exec_ackTimeout {req : Nat} {r : OutReq} (hr : s.reqOf req = some r) (hlive : s.live = true) (hport : r.port = none)
    (hring : r.owner = .ring → r.write = true) (hus : s.reg pGATS R.GAT_ACK_TIMEOUT % 2 ^ 16 ≠ 0)
    (hlate : r.since + s.reg pGATS R.GAT_ACK_TIMEOUT % 2 ^ 16 * 1000 ≤ s.mt) :
    exec (.ackTimeout req) s = .next (s.reqFailed r 0x0C) := by
  have hread : ¬ (r.owner = .ring ∧ r.write = false) := by
    rintro ⟨ho, hw⟩
    exact Bool.false_ne_true (hw.symm.trans (hring ho))
  show execAckTimeout _ s = _
  simp only [execAckTimeout, hr, hlive, hport, hus, hread, Nat.not_lt.mpr hlate, Option.isSome_none, Bool.true_eq_false,
    Bool.false_eq_true, or_self, if_false]

/-- A time exchange with the master applies the offset, or counts a missed one (R392, R393). -/
theorem exec_timeExchange {t1 t2 t3 t4 : Nat} {ok : Bool} (hruns : s.blockRuns pGATS = true)
    (hport : bit (s.reg pGATS R.GAT_TIME_PORT) 7 = true) (hslave : bit (s.reg pGATS R.GAT_SYS_CTL) 2 = false) :
    exec (.timeExchange t1 t2 t3 t4 ok) s =
      .next (if ok then s.timeOffset ((((t2 : Int) - t1) - ((t4 : Int) - t3)) / 2)
        else if 10 ≤ s.timeMissed + 1 then s.timeLost else { s with timeMissed := s.timeMissed + 1 }) := by
  show execTimeExchange _ _ _ _ _ s = _
  simp only [execTimeExchange, hruns, hport, hslave, Bool.true_eq_false, Bool.false_eq_true, or_self, if_false]

end Sys2Proof.Machine

namespace Sys2Proof.Machine

/-- Settles O40: each command of a packet under the conditions of its rule. What remote accesses reach is log entry 71, FLOW and
forwarding 70, the whole answer of a read 46, poison in answers 48, the time-out 72. -/
theorem packetCommandsComplete : Obligations.PacketCommandsComplete := by
  intro s src
  refine ⟨fun p hruns hdst hvc hcan => exec_packetForward hruns hdst hvc hcan, fun p hhere => ?arrived,
    fun req r hr hlive hport hring hus hlate => exec_ackTimeout hr hlive hport hring hus hlate, fun v => ?routes, ?time⟩
  case arrived =>
    refine ⟨?_, ?_, ?_, ?_, ?_, ?_, ?_, ?_⟩
    · intro a l poisoned req hbody hok hserves
      rw [exec_linkWrite hhere hbody, State.serveWrite_stored hok hserves]
    · intro a l poisoned req hbody hok
      rw [exec_linkWrite hhere hbody, State.serveWrite_refused hok]
    · intro a n req hbody hok hn hserves
      exact exec_readReq hhere hbody hok hn hserves
    · intro req poisoned l r o hbody hr ho hlen
      exact exec_readRsp hhere hbody hr ho hlen
    · intro req r hbody hr
      rw [exec_ack hhere hbody hr]
      exact ⟨fun o ho => by rw [ho], fun ho => by rw [ho], fun ho => by rw [ho]⟩
    · intro t c inc s1 hbody htarget hpart
      exact exec_remoteSignal hhere hbody htarget hpart
    · intro a l req hbody hok hserves
      rw [exec_bulkWrite hhere hbody, State.serveWrite_stored hok hserves]
    · intro c g t j o l req hbody
      exact exec_bulkPage hhere hbody
  case routes =>
    exact ⟨fun hw => congrArg _ ((if_pos rfl).trans ((State.onWrite_granted isDebugPage_pGATS hw).trans rfl)),
      fun hr => congrArg _ ((if_neg Bool.false_ne_true).trans (State.onRead_mayRead hr))⟩
  case time =>
    intro t1 t2 t3 t4 hruns hport hslave
    rw [exec_timeExchange hruns hport hslave, exec_timeExchange hruns hport hslave]
    exact ⟨rfl, fun hfew => congrArg _ (if_neg (Nat.not_le.mpr hfew)), fun hmany => congrArg _ (if_pos hmany)⟩

end Sys2Proof.Machine
end

section
/-! PROOFS. Commands of reductions and votes (R395 to R411). -/
namespace Sys2Proof.Machine

variable {s : State} {p : Packet} {b : RedBlock}

theorem exec_jobTake {gate idx : Nat} (hruns : s.redRuns gate = true) (hnext : s.nextTake = some idx)
    (hjob : s.anyGranule (s.jobAddr idx) 128 State.targetWaits = false)
    (hsrc : s.anyGranule (jSrc (s.devLe (s.jobAddr idx) 128))
      (jCount (s.devLe (s.jobAddr idx) 128) * jFb (s.devLe (s.jobAddr idx) 128)) State.targetWaits = false) :
    exec (.jobTake gate) s = .next ((s.takeJob idx).drainCtl) := by
  show execJobTake _ s = _
  simp only [execJobTake, hruns, hnext, hjob, hsrc, Bool.or_self, Bool.true_eq_false, Bool.false_eq_true, if_false]

/-- A block of a reduction's tree received, going up or down (R400, R402). -/
theorem exec_redBlock {down : Bool} (hbody : p.body = if down then .redDn b else .redUp b) :
    exec (if down then .redDn p else .redUp p) s = .next ((s.recvBlock p down b).drainCtl) := by
  cases down with
  | false =>
    show execRedUp p s = _
    simp only [execRedUp, hbody, Bool.false_eq_true, if_false]
  | true =>
    show execRedDn p s = _
    simp only [execRedDn, hbody, if_true]

theorem State.recvBlock_job {down : Bool} {j : RedJob} (hruns : s.redRuns p.gate = true) (hfresh : s.staleBlock b = false)
    (hj : s.jobFor b = some j) : s.recvBlock p down b = (s.consumed p).useBlock j ⟨p.gate, p.link, down, b⟩ := by
  simp only [State.recvBlock, hruns, hfresh, hj, Bool.true_eq_false, Bool.false_eq_true, if_false]

theorem State.recvBlock_store {down : Bool} (hruns : s.redRuns p.gate = true) (hfresh : s.staleBlock b = false)
    (hj : s.jobFor b = none) (hroom : s.storeRoom p.gate p.link (redBytes b) = true) :
    s.recvBlock p down b = (s.consumed p).modGate fun g => { g with store := g.store ++ [⟨p.gate, p.link, down, b⟩] } := by
  simp only [State.recvBlock, hruns, hfresh, hj, hroom, Bool.true_eq_false, Bool.false_eq_true, if_false, if_true]

theorem exec_jobComplete {job : Nat} {j : RedJob} (hj : s.jobOf job = some j) (hen : s.gatsEn = true) (hdone : j.done = false)
    (hstretch : j.stretchDone = true) (hfinal : ((List.range (jBlocks j.desc)).all fun b => (j.blk b).final) = true) :
    exec (.jobComplete job) s = .next (s.jobDone job j j.desc) := by
  show execJobComplete _ s = _
  simp only [execJobComplete, hj, hen, hdone, hstretch, hfinal, Bool.true_eq_false, Bool.false_eq_true, or_self, if_false]

theorem exec_ready {tag m t : Nat} (hen : s.gatsEn = true) (hbody : p.body = .ready tag m t) :
    exec (.ready p) s = .next (((s.consumed p).takeReady tag m t).drainCtl) := by
  show execReady _ s = _
  simp only [execReady, hbody, hen, if_true]

theorem exec_go {g : GoMsg} (hen : s.gatsEn = true) (hbody : p.body = .go g) (htag : g.stepTag = s.openStep)
    (hattempt : g.attempt = s.attempt) (hfirst : s.gate.go = none) :
    exec (.go p) s = .next ((((s.consumed p).applyGo g).countStretch).tryVote.drainCtl) := by
  show execGo _ s = _
  simp only [execGo, hbody, hen, htag, hattempt, hfirst, Option.isSome_none, ne_eq, not_true_eq_false, Bool.true_eq_false,
    Bool.false_eq_true, or_self, if_false]

/-- A child's vote on the open attempt joins the votes its module waits for (R405). -/
theorem exec_vote {r : VoteRec} {bad : Bool} {t : Tree} {c : Nat} {e : Bool} (hen : s.gatsEn = true) (hbody : p.body = .vote r bad)
    (htree : s.ctlTree = some t) (hchild : t.childAt p.gate p.link = some (c, e)) (htag : r.stepTag = s.openStep)
    (hattempt : r.attempt = s.attempt) (hfirst : (s.gate.kids.any fun e => e.1 == c) = false) :
    exec (.vote p) s = .next (((s.consumed p).modGate fun g =>
      { g with kids := g.kids ++ [(c, r)], mayKeep := g.mayKeep && !bad }).tryVote) := by
  show execVote _ s = _
  simp only [execVote, hbody, htree, hen, hchild, htag, hattempt, hfirst, ne_eq, not_true_eq_false, Bool.true_eq_false,
    Bool.false_eq_true, or_self, if_false]

theorem exec_squashNotice {tag att : Nat} (hen : s.gatsEn = true) (hbody : p.body = .squash tag att) (htag : tag = s.openStep)
    (hatt : att = s.attempt) (hcoord : (s.consumed p).isCoord = false) (hphase : (s.consumed p).phase ≠ phSquash) :
    exec (.squashNotice p) s =
      .next ((((s.consumed p).modGate fun g => { g with squashFrom := some (p.gate, p.link) }).cause vbRemote).drainCtl) := by
  show execSquashNotice _ s = _
  simp only [execSquashNotice, hbody, hen, htag, hatt, hcoord, hphase, ne_eq, not_true_eq_false, Bool.true_eq_false,
    Bool.false_eq_true, or_self, if_false]

/-- The deadline fixes the set of groups when some group is ready (R398). -/
theorem State.tryFix_deadline {d : Nat} (hcoord : s.isCoord = true) (hgo : s.gate.go = none) (hen : s.gatsEn = true)
    (hgroups : List.range s.groupsN ≠ []) (hall : (List.range s.groupsN).all s.groupReady = false)
    (hany : (List.range s.groupsN).any s.groupReady = true) (hd : s.deadline = some d) (hlate : d ≤ s.mt) :
    s.tryFix = s.fixSet := by
  simp only [State.tryFix, hcoord, hgo, hen, hgroups, hall, hany, hd, hlate, Option.isSome_none, Bool.true_eq_false,
    Bool.false_eq_true, or_self, and_self, if_false, if_true]

end Sys2Proof.Machine

namespace Sys2Proof.Machine

/-- Settles O41: each command of a reduction or vote under the conditions of its rule (log entries 73 and 74). -/
theorem reductionCommandsComplete : Obligations.ReductionCommandsComplete := by
  intro s src
  refine ⟨fun v hw hroom => congrArg _ ((State.onWrite_granted isDebugPage_pGATS hw).trans (if_pos hroom)),
    fun gate idx hruns hnext hjob hsrc => exec_jobTake hruns hnext hjob hsrc, ?block,
    fun job j hj hen hdone hstretch hfinal => exec_jobComplete hj hen hdone hstretch hfinal, ?control, ?deadline⟩
  case block =>
    intro p b down hruns hfresh hbody c
    have hrecv : exec c s = .next ((s.recvBlock p down b).drainCtl) := exec_redBlock hbody
    rw [hrecv]
    exact ⟨fun j hj => by rw [State.recvBlock_job hruns hfresh hj], fun hj hroom => by rw [State.recvBlock_store hruns hfresh hj hroom]⟩
  case control =>
    intro hen p
    refine ⟨fun tag m t hbody => exec_ready hen hbody, fun g hbody htag hatt hgo => exec_go hen hbody htag hatt hgo,
      fun r bad t c e hbody htree hchild htag hatt hfirst => exec_vote hen hbody htree hchild htag hatt hfirst, ?_⟩
    intro tag att s1 hbody htag hatt hcoord hphase
    exact exec_squashNotice hen hbody htag hatt hcoord hphase
  case deadline =>
    intro d hcoord hgo hen hgroups hall hany hd hlate
    exact congrArg (fun t => Host.Outcome.next t.tryVote) (State.tryFix_deadline hcoord hgo hen hgroups hall hany hd hlate)

end Sys2Proof.Machine
end

section
/-! PROOFS. Commands of the checkpoint engine (R420 to R427, R439). -/
namespace Sys2Proof.Machine

variable {s : State}

theorem isDebugPage_pCKP : isDebugPage pCKP = false := rfl

theorem exec_capture {n : Nat} (hdue : s.ckp.due = some n) (hruns : s.blockRuns pCKP = true) (hupd : s.updPend = false)
    (hidle : s.ckSts 0 = false) (hsend : (s.ckCtl 1 && (s.nextBank false).any s.sendReads) = false) :
    exec .capture s = .next (s.startCapture n) := by
  show execCapture s = _
  simp only [execCapture, hdue, hruns, hupd, hidle, hsend, Bool.true_eq_false, Bool.false_eq_true, or_self, if_false]

/-- A capture whose transfers have ended completes, a buddy's copy once the link is free (R420 to R422). -/
theorem exec_captureDone {c : Capture} (hcap : s.ckp.cap = some c) (hruns : s.blockRuns pCKP = true) (hbusy : s.ckSts 0 = true)
    (hreqs : ((s.crs 43).reqs.any fun r => r.owner == .ckp) = false) (hbuddy : c.buddy = none ∨ s.ckSts 1 = false) :
    exec .captureDone s = .next (s.captured c) := by
  have hfree : (c.buddy.isSome && s.ckSts 1) = false := by
    obtain hnone | hidle := hbuddy
    · rw [hnone]; rfl
    · rw [hidle, Bool.and_false]
  show execCaptureDone s = _
  simp only [execCaptureDone, hcap, hruns, hbusy, hreqs, hfree, Bool.true_eq_false, Bool.false_eq_true, or_self, if_false]

/-- The buddy's copy: the header follows the image, and the copy is recorded after the header (R423). -/
theorem exec_buddySendDone {b resume : Nat} {header : List Nat} {sent : Bool} (hsend : s.ckp.send = some (b, (resume, (header, sent))))
    (hruns : s.blockRuns pCKP = true) (hreqs : s.hasReqs .buddy = false) :
    exec .buddySendDone s = .next (if sent then
        (((({ s with ckp := { s.ckp with send := none } }).setCkSts 1 false).setReg pCKP R.CKP_LAST_BUDDY resume).setFld pCKP
          R.CKP_LAST_BANK 1 1 b).notice pCKP 0 resume
      else match s.buddyAt b with
        | none => s.buddyFail ckWrite
        | some (m, a) => { s.bulkSend m a header with ckp := { s.ckp with send := some (b, (resume, (header, true))) } }) := by
  show execBuddySendDone s = _
  simp only [execBuddySendDone, hsend, hruns, hreqs, Bool.true_eq_false, Bool.false_eq_true, or_self, if_false] <;> rfl

theorem exec_restoreDone {image : List Nat} (hruns : s.blockRuns pCKP = true) (hbusy : s.ckSts 2 = true) :
    exec (.restoreDone image) s = .next (s.restored image) := by
  show execRestoreDone _ s = _
  simp only [execRestoreDone, hruns, hbusy, Bool.true_eq_false, or_self, if_false]

end Sys2Proof.Machine

namespace Sys2Proof.Machine

/-- Settles O42: each command of the checkpoint engine under the conditions of its rule (CAPTURE and NOW are R419, ABORT R439;
log entry 80). -/
theorem checkpointCommandsComplete : Obligations.CheckpointCommandsComplete := by
  intro s src
  refine ⟨fun n hdue hruns hupd hidle hsend => exec_capture hdue hruns hupd hidle hsend,
    fun c hcap hruns hbusy hreqs hbuddy => exec_captureDone hcap hruns hbusy hreqs hbuddy, fun b resume header hruns hreqs => ⟨?_, ?_⟩,
    fun hw => ?_, fun image hruns hbusy => exec_restoreDone hruns hbusy⟩
  · intro hsend s1
    exact exec_buddySendDone hsend hruns hreqs
  · intro m a hsend hat
    rw [exec_buddySendDone hsend hruns hreqs, hat]
    rfl
  · have hwrite (f : State → State) : s.onWrite src pCKP R.CKP_CTL f = f s := State.onWrite_granted isDebugPage_pCKP hw
    exact ⟨congrArg _ (hwrite _), congrArg _ (hwrite _), congrArg _ (hwrite _)⟩

end Sys2Proof.Machine
end

section
/-! PROOFS. Commands of the supplies (R481 to R487). -/
namespace Sys2Proof.Machine

variable {s : State} {mv : Nat}

theorem State.aoOn_setVin (h : s.aoOn = true) : (s.setVin mv).aoOn = true :=
  (State.setVin_evolves mv (Evolves.refl false s)).ao rfl h

theorem exec_vio12Apply (hok : vio12Ok mv = true) :
    exec (.vio12Apply mv) s = .next (if s.aoOn then s.modPwr fun p => { p with vio12 := mv } else s.vioUp mv) := by
  show execVio12Apply _ s = _
  simp only [execVio12Apply, hok, Bool.true_eq_false, if_false, if_true]

/-- A lost VANA ends in an emergency off while the converters run, and lets the state settle else (R485). -/
theorem exec_vanaLoss (hok : vanaOk s.pwr.vana = true) (hao : s.aoOn = true) :
    exec .vanaLoss s = .next (if s.pwr.conv then (s.modPwr fun p => { p with vana := 0 }).emergencyOff fun a => a.raise pAO 4 1 a.aoVin
      else (s.modPwr fun p => { p with vana := 0 }).settleSt) := by
  have hao' : (s.modPwr fun p => { p with vana := 0 }).aoOn = true := hao
  show execVanaLoss s = _
  simp only [execVanaLoss, hok, hao', Bool.true_and, if_true]
  rfl

theorem exec_vinOutOfRange (hao : s.aoOn = true) (hout : vinOk mv = false) :
    exec (.vinOutOfRange mv) s = .next (s.setVin mv).settleSt := by
  show execVinOutOfRange _ s = _
  simp only [execVinOutOfRange, hout, State.aoOn_setVin hao, Bool.false_eq_true, if_false, if_true]

/-- VIN beyond the limits of R487: an emergency off with its two events. -/
theorem exec_vinFault (hao : s.aoOn = true) (hconv : s.pwr.conv = true) (hpark : s.pst ≠ psParking)
    (hlimit : mv < 40000 ∨ 60000 < mv) :
    exec (.vinFault mv) s = .next ((s.setVin mv).emergencyOff fun a =>
      (a.raise pAO (if mv < 40000 then 2 else 3) a.aoVin).raise pAO 4 0 a.aoVin) :=
  congrArg _ (if_pos ⟨hao, hconv, hlimit, hpark⟩)

end Sys2Proof.Machine

namespace Sys2Proof.Machine

/-- Settles O43: each supply command under the conditions of its rule (R483, R484, R487; CHARGED and the input node are log
entry 94). -/
theorem supplyCommandsComplete : Obligations.SupplyCommandsComplete := by
  intro s mv
  refine ⟨exec_vio12Apply, fun hao => ?_, fun hok => ?_,
    fun hao hvana hraised hlate => congrArg _ (if_pos ⟨hao, hvana, hraised, hlate⟩), fun hok hao => ?_,
    fun hao => ⟨congrArg _ (if_pos (State.aoOn_setVin hao)), congrArg _ (if_pos hao), exec_vinOutOfRange hao,
      fun hconv hpark => ⟨fun hlow => ?_, fun hhigh => ?_⟩⟩⟩
  · exact congrArg _ (if_neg (by rw [hao]; decide))
  · exact congrArg _ (if_pos hok)
  · exact exec_vanaLoss hok hao
  · rw [exec_vinFault hao hconv hpark (.inl hlow), if_pos hlow]
  · rw [exec_vinFault hao hconv hpark (.inr hhigh), if_neg (by omega)]

end Sys2Proof.Machine
end

section
/-! PROOFS. What raising an event can change: registers, ports, the log, what voids the guarantees, and, with tracing on, the trace
ring in memory (R429 to R434, R539, R540). -/
namespace Sys2Proof.Machine

/-- Event tracing is off, in registers that each stand once. -/
def State.untraced (s : State) : Prop := keysRise s.regs = true ∧ bit (s.reg pDBGM R.DBG_TRACE_CTL) 0 = false

/-- What an act of the event log can change, and that it stores nothing while tracing is off. -/
structure Logs (s t : State) : Prop where
  only : t = { s with
    regs := t.regs, ports := t.ports, out := t.out, mem := t.mem, poison := t.poison, upsets := t.upsets, log := t.log,
    logOverwrote := t.logOverwrote, voidCause := t.voidCause, hold := t.hold }
  quiet : s.untraced → t.mem = s.mem ∧ t.poison = s.poison ∧ t.upsets = s.upsets ∧ t.untraced

namespace Logs

variable {s t u : State}

theorem refl (s : State) : Logs s s := ⟨rfl, fun h => ⟨rfl, rfl, rfl, h⟩⟩

theorem trans (a : Logs s t) (b : Logs t u) : Logs s u := by
  refine ⟨by rw [b.only, a.only], fun h => ?_⟩
  obtain ⟨hm, hp, hu, ht⟩ := a.quiet h
  obtain ⟨hm', hp', hu', hq⟩ := b.quiet ht
  exact ⟨hm'.trans hm, hp'.trans hp, hu'.trans hu, hq⟩

theorem tiles (h : Logs s t) : t.tiles = s.tiles := by rw [h.only]

theorem pwr (h : Logs s t) : t.pwr = s.pwr := by rw [h.only]

/-- An act that touches neither memory nor the registers. -/
theorem of_regs_eq (honly : t = { s with
      ports := t.ports, out := t.out, log := t.log, logOverwrote := t.logOverwrote, voidCause := t.voidCause, hold := t.hold }) :
    Logs s t := by
  refine ⟨by rw [honly], fun h => ?_⟩
  rw [honly]
  exact ⟨rfl, rfl, rfl, h⟩

theorem setReg {p off v : Nat} (hne : pDBGM * 1024 + R.DBG_TRACE_CTL / 4 ≠ p * 1024 + off / 4) : Logs s (s.setReg p off v) := by
  refine ⟨rfl, fun h => ⟨rfl, rfl, rfl, keysRise_sset h.1, ?_⟩⟩
  rw [State.reg_setReg_other s h.1 hne]
  exact h.2

/-- The first-error and event registers of a page are not DBG_TRACE_CTL. -/
theorem setReg_low {p off v : Nat} (hoff : off < R.DBG_TRACE_CTL) : Logs s (s.setReg p off v) :=
  setReg (by simp only [pDBGM, R.DBG_TRACE_CTL] at hoff ⊢; omega)

theorem setEvt (s : State) (p e : Nat) : Logs s (s.setEvt p e) := by
  obtain ⟨honly, hreg⟩ := State.setEvt_spec s p e
  refine ⟨by rw [honly], fun h => ?_⟩
  obtain ⟨hrise, -, hother⟩ := hreg h.1
  refine ⟨by rw [honly], by rw [honly], by rw [honly], hrise, ?_⟩
  rw [hother _ _ (fun k _ => ?_) ?_]
  · exact h.2
  · simp only [pDBGM, R.EVT_STS, R.DBG_TRACE_CTL]; omega
  · simp only [pHPT, pDBGM, R.HPT_IRQ_DROP, R.DBG_TRACE_CTL]; omega

theorem trace (s : State) (r : LogRec) : Logs s (s.trace r) := by
  refine ⟨?_, fun h => ?_⟩
  · unfold State.trace
    dsimp only
    split
    · rfl
    · rfl
  · have hoff : s.trace r = s := if_neg (Bool.eq_false_iff.mp h.2)
    rw [hoff]
    exact ⟨rfl, rfl, rfl, h⟩

theorem notice (s : State) (p e info : Nat) : Logs s (s.notice p e info) := (setEvt s p e).trans (trace _ _)

theorem voidBy (s : State) (cause : Nat) : Logs s (s.voidBy cause) := of_regs_eq rfl

/-- A record appended to a log that has room. -/
theorem append (s : State) (r : LogRec) : Logs s (({ s with log := s.log ++ [r] }).wrapAdd pERR R.ERR_LOG_SEQ 1) :=
  (of_regs_eq rfl : Logs s { s with log := s.log ++ [r] }).trans (setReg (by decide))

theorem logAppend (s : State) (r : LogRec) : Logs s (s.logAppend r) := by
  unfold State.logAppend
  dsimp only
  split
  · exact append s r
  · have hbumped : Logs s (({ s with log := s.log.eraseIdx s.logVictim }).bump pERR R.ERR_LOST 1) :=
      (of_regs_eq rfl : Logs s { s with log := s.log.eraseIdx s.logVictim }).trans (setReg (by decide))
    generalize ({ s with log := s.log.eraseIdx s.logVictim }).bump pERR R.ERR_LOST 1 = s0 at hbumped ⊢
    refine hbumped.trans ?_
    split
    · exact append s0 r
    · exact (notice s0 pERR 2 0).trans ((of_regs_eq rfl : Logs _ { s0.notice pERR 2 with logOverwrote := true }).trans (append _ r))

theorem fatalAct (s : State) (seq : Nat) : Logs s (s.fatalAct seq) := by
  unfold State.fatalAct
  split
  · split
    · exact refl s
    · exact (of_regs_eq rfl : Logs s { s with hold := true }).trans ((voidBy _ _).trans (notice _ _ _ _))
  · exact (setReg (by decide)).trans ((setReg (by decide)).trans (notice _ _ _ _))

theorem logError (s : State) (p e c i0 i1 : Nat) (ue forced esc : Bool) : Logs s (s.logError p e c i0 i1 ue forced esc) := by
  unfold State.logError
  extract_lets -underBinder -merge -useContext +onlyGivenNames cp first s1 flags r s2 s3
  have hfirst : Logs s s1 := by
    unfold s1
    split
    · exact (setReg_low (by decide)).trans ((setReg_low (by decide)).trans ((setReg_low (by decide)).trans
        ((setReg_low (by decide)).trans (setReg_low (by decide)))))
    · exact setReg_low (by decide)
  have hvoid : Logs s s2 := by
    unfold s2
    split
    · exact hfirst.trans (voidBy _ _)
    · exact hfirst
  have hlogged : Logs s s3 := hvoid.trans ((logAppend _ _).trans (trace _ _))
  split
  · exact hlogged.trans (fatalAct _ _)
  · exact hlogged

theorem raise (s : State) (p e i0 i1 : Nat) (esc forced : Bool) : Logs s (s.raise p e i0 i1 esc forced) := by
  unfold State.raise
  split
  · exact refl s
  · next b _ _ =>
    generalize evtClass b e = c
    by_cases hsmall : b.nevt ≤ e
    · rw [if_pos hsmall]
      exact refl s
    · rw [if_neg hsmall]
      by_cases hnotice : (if (esc && c != 0) = true then 3 else c) = 0
      · exact (if_pos hnotice).symm ▸ notice s p e i0
      · exact (if_neg hnotice).symm ▸ (setEvt s p e).trans (logError _ p e _ i0 i1 _ forced esc)

end Logs

end Sys2Proof.Machine
end

section
/-! PROOFS. Commands of parking, of the sideband pins and of RESET_N (R436, R488 to R496, R503 to R506). -/
namespace Sys2Proof.Machine

variable {s : State}

theorem isDebugPage_pPWR : isDebugPage pPWR = false := rfl

/-- A resume ends when each domain that it wants is on, fenced off or at fault (R491). -/
theorem exec_resumed (hao : s.aoOn = true) (hres : s.pwr.resuming = true) (hconv : s.pwr.conv = true) (hrun : s.bst.run = none)
    (hdom : ∀ c, c < 41 → s.required c = true → s.domRaw c = true ∨ s.fenced c = true ∨ s.pwr.faulted.contains c = true) :
    exec .resumed s = .next ((s.modPwr fun p => { p with resuming := false }).notice pPWR 1) := by
  have hall : ((List.range 41).all fun c => !s.required c || s.domRaw c || s.fenced c || s.pwr.faulted.contains c) = true := by
    refine List.all_eq_true.mpr fun c hc => ?_
    cases hreq : s.required c with
    | false => rfl
    | true =>
      obtain h | h | h := hdom c (List.mem_range.mp hc) hreq
      all_goals rw [h]; simp only [Bool.or_true, Bool.true_or]
  show execResumed s = _
  simp only [execResumed, hao, hres, hconv, hrun, hall, Option.isNone_none, Bool.and_self, if_true]

theorem exec_parkGraceExpire {t : Nat} (hao : s.aoOn = true) (ht : s.pwr.grace = some t)
    (hlate : t + s.fld pPWR R.PWR_PARK_GRACE 15 0 * 1000000 ≤ s.mt) (hwait : s.pwr.waitTest = false) :
    exec .parkGraceExpire s = .next s.graceEnd := by
  show execParkGraceExpire s = _
  simp only [execParkGraceExpire, hao, ht, hwait, Nat.not_lt.mpr hlate, Bool.false_eq_true, or_self, if_false]

theorem exec_parkComplete (hao : s.aoOn = true) (hst : s.pst = psParking) (hrun : s.bst.run = none) :
    exec .parkComplete s = .next s.parkDown := by
  show execParkComplete s = _
  simp only [execParkComplete, hao, hst, hrun, Option.isSome_none, ne_eq, not_true_eq_false, Bool.true_eq_false,
    Bool.false_eq_true, or_self, if_false]

theorem State.movePins_on {f : PwrState → PwrState} (hao : s.aoOn = true) : s.movePins f = s.pinsMoved (s.modPwr f) :=
  if_pos hao

/-- What a moved pin does depends, of the state before, on the pins alone. -/
theorem State.pinsMoved_congr {old old' t : State} (h : old'.pwr = old.pwr) : old'.pinsMoved t = old.pinsMoved t := by
  have hpark : old'.parkUsed = old.parkUsed := by rw [State.parkUsed, h]; rfl
  have hthrottle : old'.throttleUsed = old.throttleUsed := by rw [State.throttleUsed, h]; rfl
  rw [State.pinsMoved, State.pinsMoved, hpark, hthrottle]

/-- Noise on a sideband pin is raised once until the pin is quiet (R553). -/
theorem exec_sidebandNoise {pin : Nat} (hao : s.aoOn = true) (hpin : pin < 2) (hnew : s.pwr.noise.contains pin = false) :
    exec (.sidebandNoise pin) s =
      .next (s.pinsMoved ((s.raise pAO 6 pin).modPwr fun p => { p with noise := sinsert pin p.noise })) := by
  have hraise : Logs s (s.raise pAO 6 pin) := Logs.raise _ _ _ _ _ _ _
  have haoRaised : (s.raise pAO 6 pin).aoOn = true := by rw [hraise.only]; exact hao
  show execSidebandNoise pin s = _
  rw [execSidebandNoise, if_pos ⟨hao, hpin, hnew⟩, State.movePins_on haoRaised,
    State.pinsMoved_congr hraise.pwr]

end Sys2Proof.Machine

namespace Sys2Proof.Machine

/-- Settles O44: each command of parking, pins and RESET_N under the conditions of its rule (the park requests are log entry 95,
the end of a noise window log entry 99). -/
theorem parkResetCommandsComplete : Obligations.ParkResetCommandsComplete := by
  intro s src
  refine ⟨fun hw => ?ctl, fun hao => ⟨fun hres hconv hrun hdom => exec_resumed hao hres hconv hrun hdom,
    fun t ht hlate hwait => exec_parkGraceExpire hao ht hlate hwait, fun hst hrun => exec_parkComplete hao hst hrun,
    fun level => ⟨congrArg _ (State.movePins_on hao), congrArg _ (State.movePins_on hao)⟩, fun pin hpin => ⟨fun hnew => ?noise,
      fun hold => ?quiet⟩, fun _ => rfl, fun hlow => ?assert, fun hlow => ?release⟩⟩
  case ctl =>
    have hwrite (f : State → State) : s.onWrite src pPWR R.PWR_CTL f = f s := State.onWrite_granted isDebugPage_pPWR hw
    exact ⟨congrArg _ (hwrite _), congrArg _ (hwrite _), congrArg _ (hwrite _), congrArg _ (hwrite _)⟩
  case noise =>
    exact exec_sidebandNoise hao hpin hnew
  case quiet => exact congrArg _ ((if_pos ⟨hao, hold⟩).trans (State.movePins_on hao))
  case assert => exact congrArg _ ((if_neg (by rw [hao]; decide)).trans (if_neg (by rw [hlow]; decide)))
  case release => exact congrArg _ (if_pos ⟨hao, hlow⟩)

end Sys2Proof.Machine
end

section
/-! PROOFS. Commands of domains, clocks, the governor and the sensors (R482 to R485, R487, R488, R490, R492 to R509). -/
namespace Sys2Proof.Machine

variable {s : State}

theorem exec_domainAdmission {d : Nat} (hao : s.aoOn = true) (hd : d < 41) (hfirst : domOrder.find? s.canRamp = some d)
    (hheld : s.pwr.held = false) (hramp : s.pwr.ramping = none) :
    exec (.domainAdmission d) s = .next (if s.holding then s.defer (0x3000 + d)
      else (s.admitted (0x3000 + d)).modPwr fun p => { p with ramping := some (d, s.mt) }) := by
  show execDomainAdmission _ s = _
  simp only [execDomainAdmission, hao, hfirst, hheld, hramp, Nat.not_le.mpr hd, Option.isSome_none, ne_eq, not_true_eq_false,
    Bool.true_eq_false, Bool.false_eq_true, or_self, if_false]

theorem exec_domainOn {d t : Nat} (hao : s.aoOn = true) (hramp : s.pwr.ramping = some (d, t)) :
    exec (.domainOn d) s = .next (s.turnOn d) :=
  congrArg _ (if_pos ⟨hao, by rw [hramp]; rfl⟩)

theorem exec_domainFault {d t : Nat} (hao : s.aoOn = true) (hramp : s.pwr.ramping = some (d, t)) (hlate : t + 1000000 ≤ s.mt) :
    exec (.domainFault d) s =
      .next (((s.modPwr fun p => { p with ramping := none, faulted := sinsert d p.faulted }).skipTest d).raise pPWR 6 d) := by
  show execDomainFault _ s = _
  simp only [execDomainFault, hramp, hao, hlate, and_self, if_true]

/-- A wanted PLL starts in its turn, after the gap that follows the last start (R495, R501). -/
theorem exec_pllStart {k : Nat} (hao : s.aoOn = true) (hk : k < 10) (hwanted : s.pllWanted k = true) (hlocked : s.pllLocked k = false)
    (hstarting : s.pllStarting k = false) (hxtal : bit (s.reg pCLK R.CLK_STS) 0 = true) (hholding : s.holding = false)
    (hgap : ∀ t, s.pwr.pllAt = some t → t + s.fld pPWR R.PWR_WAKE 15 8 * 1000 ≤ s.mt)
    (hline : s.firstInLine (0x2000 + k) 0x2000 0x3000 = true) :
    exec (.pllStart k) s = .next (((s.admitted (0x2000 + k)).setFld pCLK R.CLK_STS (11 + k) (11 + k) 1).modPwr fun p =>
      { p with pllAt := some s.mt }) := by
  have hnotEarly : (match s.pwr.pllAt with
      | some t => decide (s.mt < t + s.fld pPWR R.PWR_WAKE 15 8 * 1000)
      | none => false) = false := by
    cases hat : s.pwr.pllAt with
    | none => rfl
    | some t => exact decide_eq_false (Nat.not_lt.mpr (hgap t hat))
  show execPllStart _ s = _
  simp only [execPllStart, hao, hwanted, hlocked, hstarting, hxtal, hholding, hline, Nat.not_le.mpr hk, Bool.true_eq_false,
    Bool.false_eq_true, or_self, if_false, Bool.not_true, Bool.or_false, Bool.false_or]
  exact congrArg _ (if_neg (Bool.eq_false_iff.mp hnotEarly))

theorem exec_pllLock {k : Nat} (hao : s.aoOn = true) (hk : k < 10) (hstarting : s.pllStarting k = true) :
    exec (.pllLock k) s =
      .next (((s.setFld pCLK R.CLK_STS (11 + k) (11 + k) 0).setFld pCLK R.CLK_STS (1 + k) (1 + k) 1).modPwr fun p =>
        { p with pllLost := p.pllLost.filter (· != k) }) := by
  show execPllLock _ s = _
  simp only [execPllLock, hao, hk, hstarting, decide_true, Bool.and_self, if_true]

theorem exec_pllUnlock {k : Nat} (hao : s.aoOn = true) (hk : k < 10) (hlocked : s.pllLocked k = true) :
    exec (.pllUnlock k) s = .next (((s.pllStop k).bump pCLK R.CLK_LOCK_LOSS 1).raise pCLK 0 k) := by
  show execPllUnlock _ s = _
  simp only [execPllUnlock, hao, hk, hlocked, decide_true, Bool.and_self, if_true]

theorem exec_xtalFail (hao : s.aoOn = true) (hxtal : bit (s.reg pCLK R.CLK_STS) 0 = true) :
    exec .xtalFail s =
      .next ((((List.range 10).foldl (fun a k => a.pllStop k) (s.setFld pCLK R.CLK_STS 0 0 0)).setFld pTIM R.TIM_STS 1 0 0).raise
        pCLK 1) := by
  show execXtalFail s = _
  simp only [execXtalFail, hao, hxtal, Bool.and_self, if_true]

theorem exec_governorTick {est demand cur : Nat} (hao : s.aoOn = true) (hconv : s.pwr.conv = true) :
    exec (.governorTick est demand cur) s = .next (s.govTick est demand cur) := by
  show execGovernorTick _ _ _ s = _
  simp only [execGovernorTick, hao, hconv, Bool.and_self, if_true]

end Sys2Proof.Machine

namespace Sys2Proof.Machine

/-- Settles O45: each command of domains, clocks, the governor and the sensors under the conditions of its rule (log entries 93
and 96). -/
theorem domainClockCommandsComplete : Obligations.DomainClockCommandsComplete := by
  intro s hao
  exact ⟨fun d hd hfirst hheld hramp => exec_domainAdmission hao hd hfirst hheld hramp,
    fun d t hramp => ⟨exec_domainOn hao hramp, exec_domainFault hao hramp⟩,
    fun d hd hlive hoff => congrArg _ (if_pos ⟨hlive, hd, hoff⟩),
    fun k hk => ⟨exec_pllStart hao hk, exec_pllLock hao hk, exec_pllUnlock hao hk⟩, exec_xtalFail hao,
    fun est demand cur hconv => exec_governorTick hao hconv, fun temps => congrArg _ (if_neg (by rw [hao]; decide))⟩

end Sys2Proof.Machine
end

section
/-! PROOFS. Commands of the host ports (R441 to R445, R451, R468, R477). -/
namespace Sys2Proof.Machine

variable {s : State} {h : Nat}

theorem isDebugPage_pHPT : ∀ h < 8, isDebugPage (pHPT h) = false := by decide

theorem isDebugPage_pMSIX : ∀ h < 8, isDebugPage (pMSIX h) = false := by decide

theorem exec_configRequest {write : Bool} {off v : Nat} (hh : h < 8) (hao : s.aoOn = true) (hdom : s.domOn 40 = true)
    (hup : s.linkUp h = true) :
    exec (.configRequest h write off v) s =
      .next (if (s.port h).released = false then { s with out := s.out ++ [.cfgRetry h] }
        else if write then s.cfgWrite h off v
        else { s with out := s.out ++ [.cfgData h (s.cfgRead h off)] }) := by
  show execConfigRequest _ _ _ _ s = _
  simp only [execConfigRequest, hao, hdom, hup, Nat.not_le.mpr hh, Bool.true_eq_false, or_self, if_false]

/-- An access through the aperture that need not wait for its memory is carried out (R443, log entry 86). -/
theorem exec_bar4Access {write : Bool} {off n : Nat} {data : List Nat} (hh : h < 8) (hao : s.aoOn = true) (hup : s.portUp h = true)
    (hhold : s.hold = false) (hserves : s.apWaits h off (if write then data.length else n) write = false) :
    exec (.bar4Access h off write n data) s = .next (if write then s.apWriteAll h off data else s.apReadAll h off n) := by
  show execBar4Access _ _ _ _ _ s = _
  simp only [execBar4Access, hao, hup, hhold, hserves, Nat.not_le.mpr hh, Bool.true_eq_false, Bool.false_eq_true, or_self, if_false]

theorem exec_irqHoldoffExpire {v : Nat} {e : Nat × Nat} (he : (s.port h).holdoff.find? (fun e => e.1 == v) = some e)
    (hao : s.aoOn = true) (hlate : e.2 + s.reg (pHPT h) R.HPT_IRQ_HOLDOFF % 2 ^ 16 * 1000 ≤ s.mt) :
    exec (.irqHoldoffExpire h v) s =
      let p := s.port h
      let s1 := s.setPort h { p with holdoff := sdel p.holdoff v, merged := setBit p.merged v false }
      .next (if bit p.merged v then s1.signalPort h v else s1) := by
  show execIrqHoldoffExpire _ _ s = _
  simp only [execIrqHoldoffExpire, he, hao, Nat.not_lt.mpr hlate, Bool.true_eq_false, or_self, if_false]

/-- A port that detaches where it was attached before (R468). -/
theorem detachOf {c : Bool} {s1 : State} {cause : Nat} (hc : c = true) (hatt : s1.detached h = false) :
    Host.Outcome.next (if c then (if s1.detached h then s1 else s1.detach h cause) else s) =
      Host.Outcome.next (φ := Fault) (ρ := Refusal) (s1.detach h cause) := by
  rw [hc, hatt]
  rfl

theorem exec_portReturn {rate width : Nat} (hon : s.hostOn h = true) (hperst : (s.port h).perstN = true) (hpads : s.padsHeld = false)
    (haway : s.linkUp h = false ∨ s.detached h = true ∨ s.hptSts h 13 = true) :
    exec (.portReturn h rate width) s = .next (s.portReturn h (rate % 8) (width % 32)) := by
  have haway' : (!s.linkUp h || s.detached h || s.hptSts h 13) = true := by
    rw [Bool.or_eq_true, Bool.or_eq_true, Bool.not_eq_true', or_assoc]
    exact haway
  show execPortReturn _ _ _ s = _
  simp only [execPortReturn, hon, hperst, hpads, haway', Bool.not_false, Bool.and_self, if_true]

theorem exec_perstNChange_high (hh : h < 8) (hao : s.aoOn = true) :
    exec (.perstNChange h true) s = .next ((s.modPort h fun p => { p with perstN := true }).release h) := by
  show execPerstNChange _ _ s = _
  simp only [execPerstNChange, hao, Nat.not_le.mpr hh, Bool.true_eq_false, or_self, if_false, if_true]

/-- PERST# asserted on a link that is up detaches as a link loss does (log entry 11). -/
theorem exec_perstNChange_low {s1 : State} (hh : h < 8) (hao : s.aoOn = true)
    (hs1 : ((s.modPort h fun p => { p with perstN := false }).modPort h fun p => { p with released := false }).resetCfg h = s1)
    (hup : s1.linkUp h = true) (hatt : (s1.setHptSts h 0 false).detached h = false) :
    exec (.perstNChange h false) s = .next ((s1.setHptSts h 0 false).detach h 1) := by
  show execPerstNChange _ _ s = _
  simp only [execPerstNChange, hs1, hao, hup, hatt, Nat.not_le.mpr hh, Bool.true_eq_false, Bool.false_eq_true, or_self, if_false]

end Sys2Proof.Machine

namespace Sys2Proof.Machine

/-- Settles O46: each command of a host port under the conditions of its rule. PERST# asserted is log entry 11, the waiting aperture
86, detach and return 87. -/
theorem hostPortCommandsComplete : Obligations.HostPortCommandsComplete := by
  intro s src h hh
  refine ⟨fun off v hao hdom hup => ?config, fun off n data hao hup hhold => ⟨?apWrite, ?apRead⟩, fun v e => ?holdoff,
    fun v hv hw => next_onWrite_of ⟨hh, hv⟩ (isDebugPage_pMSIX h hh) hw rfl, fun v => ⟨fun hw => ?winWrite, fun hr => ?winRead⟩,
    fun hon hup => ⟨detachOf (by rw [hon, hup]; rfl), detachOf (by rw [hon, hup]; rfl)⟩,
    fun hup => ⟨detachOf hup, detachOf hup⟩,
    fun rate width hon hperst hpads haway => exec_portReturn hon hperst hpads haway,
    fun hao => ⟨exec_perstNChange_high hh hao, ?perst⟩⟩
  case config =>
    rw [exec_configRequest hh hao hdom hup, exec_configRequest hh hao hdom hup]
    refine ⟨fun hrel => congrArg _ (if_pos hrel), fun hrel => ?_⟩
    rw [hrel]
    exact ⟨rfl, rfl⟩
  case apWrite => exact fun hserves => exec_bar4Access hh hao hup hhold hserves
  case apRead => exact fun hserves => exec_bar4Access hh hao hup hhold hserves
  case holdoff =>
    intro p he hao hlate
    exact exec_irqHoldoffExpire he hao hlate
  case winWrite => exact congrArg _ ((if_pos hh).trans ((if_pos rfl).trans (State.onWrite_granted (isDebugPage_pHPT h hh) hw)))
  case winRead => exact congrArg _ ((if_pos hh).trans ((if_neg Bool.false_ne_true).trans (State.onRead_mayRead hr)))
  case perst =>
    intro s1 hup hatt
    exact exec_perstNChange_low hh hao rfl hup hatt

end Sys2Proof.Machine
end

section
/-! PROOFS. Commands of the host command queues (R454 to R462). -/
namespace Sys2Proof.Machine

variable {s t : State} {q h e : Nat}

theorem isDebugPage_pCQ : ∀ q < 64, isDebugPage (pCQ q) = false := by decide

theorem exec_cqFetch {es l : List Nat} {s1 : State} (hport : s.cqPort q = some h) (hhalt : s.cqHalt q = false)
    (hmore : (s.cq q).fetch < s.cqTail q)
    (hl : s.fetchFrom q h (s.cq q).fetch ((es ++ List.replicate 16 0).take (min 16 (s.cqTail q - (s.cq q).fetch))) = l)
    (hs1 : (match s.region (s.reg64 (pCQ q) R.HPT_CQ_BASE_LO + 64 * ((s.cq q).fetch % 2 ^ s.cqLog q)) with
      | .host p _ => if l = [] then s else s.crsPlain (32 + p) 97 1
      | _ => if l = [] then s
        else s.farTouch 97 (s.reg64 (pCQ q) R.HPT_CQ_BASE_LO + 64 * ((s.cq q).fetch % 2 ^ s.cqLog q)) (64 * l.length)) = s1) :
    exec (.cqFetch q es) s =
      .next ((s1.modCq q fun t => { t with fetch := t.fetch + l.length, buf := t.buf ++ l }).cqFlushRun q (l.length + 2)) := by
  subst hs1
  show execCqFetch _ _ s = _
  simp only [execCqFetch, hport, hhalt, hl, Nat.not_le.mpr hmore, Bool.false_and, Bool.false_eq_true, or_self, if_false] <;> rfl

/-- The command at the front of a queue whose port owns a partition runs, when it is of the kind the event stands for (R456). -/
theorem State.cqRun_front {mine : Nat → Bool} {f : Nat → Nat → State → State} (ht : s.copiesSettle q = t)
    (hfront : t.cqFront q = some (h, e)) (hpart : t.portPart h < 6) (hmine : mine (ceOp e) = true) :
    s.cqRun q mine f = f h e t := by
  simp only [State.cqRun, ht, hfront, hmine, ge_iff_le, Nat.not_le.mpr hpart, Bool.true_eq_false, false_and, if_false]

theorem descRun_writes (hn : df e 10 7 0 ≠ 0) (hgiven : df e 10 7 0 + 1 ≤ t.cqTail q - (t.cq q).next)
    (hread : df e 10 7 0 + 1 ≤ (t.cq q).buf.length) (htile : isTile (ceTile e) = true) (hpart : t.tilePart (ceTile e) = t.portPart h)
    (hmay : t.portRefusal h (ceTile e) R.TIL_SEQ_TAIL true = none) (hon : t.siteOn (t.siteOf (ceTile e)) = true)
    (hserves : t.targetWaits (0x040000000000 + ceTile e * 0x800000) = false)
    (hroom : (t.tail (t.siteOf (ceTile e)) + 2 ^ 16 - t.head (t.siteOf (ceTile e))) % 2 ^ 16 + df e 10 7 0 ≤ 256) :
    descRun q h e t = (t.writeDescs (ceTile e) (((t.cq q).buf.drop 1).take (df e 10 7 0))).cqFinish q (df e 10 7 0 + 1) 0 := by
  simp only [descRun, hn, htile, hpart, hmay, hon, hserves, Nat.not_lt.mpr hgiven, Nat.not_lt.mpr hread, Nat.not_lt.mpr hroom, ne_eq,
    not_true_eq_false, Option.isSome_none, Bool.true_eq_false, Bool.false_eq_true, or_self, if_false]

theorem regwRun_granted (hmay : t.mayWrite (.port h) (df e 8 13 0) (4 * df e 10 9 0) = true) :
    regwRun q h e t = (t.wordWrite (.port h) (df e 8 13 0) (4 * df e 10 9 0) (df e 12 31 0)).cqFinish q 1 0 := by
  rw [State.mayWrite, beq_iff_eq] at hmay
  simp only [regwRun, hmay]

theorem copyRun_hands {u : State} (hn : df e 24 63 0 ≠ 0) (hmax : df e 24 63 0 ≤ 2 ^ 32)
    (hsides : (copyMovs (df e 8 63 0) (df e 16 63 0) (df e 24 63 0) (df e 32 15 0)).all (t.movSidesOk (t.portPart h)) = true)
    (hhands : t.handCopies q (t.cq q).next (((List.range 6).find? fun d => t.partOf d == t.portPart h).getD 0) (t.portPart h)
      (copyMovs (df e 8 63 0) (df e 16 63 0) (df e 24 63 0) (df e 32 15 0)) = some u) :
    copyRun q h e t =
      (u.cqTake q 1 false (copyMovs (df e 8 63 0) (df e 16 63 0) (df e 24 63 0) (df e 32 15 0)).length).copiesSettle q := by
  simp only [copyRun, hn, hsides, hhands, Nat.not_lt.mpr hmax, Bool.true_eq_false, or_self, if_false]

theorem waitRun_counter (hctr : t.counterStatus h (ceTile e) = none) :
    waitRun q h e t = if waitMet (t.ctr (ceTile e) (ceCtr e)) (df e 12 15 0) then t.cqFinish q 1 0 else t.cqBegin q := by
  simp only [waitRun, hctr]

theorem waitExpire_late {since : Nat} (hsince : (t.cq q).since = some since) (hus : df e 14 15 0 ≠ 0)
    (hlate : since + df e 14 15 0 * 1000 ≤ t.mt) (hmet : waitMet (t.ctr (ceTile e) (ceCtr e)) (df e 12 15 0) = false) :
    waitExpire q h e t = t.cqFinish q 1 4 := by
  simp only [waitExpire, hsince, hlate, hmet, hus, ne_eq, not_false_eq_true, and_self, if_true]

theorem signalRun_counter (hctr : t.counterStatus h (ceTile e) = none) :
    signalRun q h e t = (t.addCtr (ceTile e) (ceCtr e) (df e 12 15 0)).cqFinish q 1 0 := by
  simp only [signalRun, hctr]

end Sys2Proof.Machine

namespace Sys2Proof.Machine

/-- Settles O47: each command of a queue under the conditions of its rule. How REGW is judged is log entry 82, DESC's statuses 83,
a WAIT at its limit and the reserved operations 84, a COPY's completion 85. -/
theorem commandQueueCommandsComplete : Obligations.CommandQueueCommandsComplete := by
  intro s q hq
  have hpage := isDebugPage_pCQ q hq
  refine ⟨fun h v hw => ⟨next_onWrite_of hq hpage hw rfl, next_onWrite_of hq hpage hw rfl, next_onWrite_of hq hpage hw rfl⟩,
    fun h v hw hroom => next_onWrite_of hq hpage hw (if_pos hroom), ?fetch, ?front⟩
  case fetch =>
    intro h es hport hhalt hmore c l a s1
    exact exec_cqFetch hport hhalt hmore rfl rfl
  case front =>
    intro h e t c hfront hpart
    have hrun {mine : Nat → Bool} {f : Nat → Nat → State → State} {u : State} (hmine : mine (ceOp e) = true) (hu : f h e t = u) :
        Host.Outcome.next (s.cqRun q mine f) = Host.Outcome.next (φ := Fault) (ρ := Refusal) u :=
      congrArg _ ((State.cqRun_front rfl hfront hpart hmine).trans hu)
    have hop {k : Nat} (h : ceOp e = k) : (ceOp e == k) = true := beq_iff_eq.mpr h
    refine ⟨fun h0 => ?_, fun h6 => ?_, ?_, fun h2 hmay => hrun (hop h2) (regwRun_granted hmay), ?_, ?_,
      fun h5 hctr => hrun (hop h5) (signalRun_counter hctr)⟩
    · exact hrun (by rw [h0]; rfl) (by rw [if_pos h0])
    · exact hrun (by rw [decide_eq_true h6, Bool.or_true]) (by rw [if_neg (by omega)])
    · intro n h1 hn hgiven hread htile hpart' hmay hon hserves hroom
      exact hrun (hop h1) (descRun_writes hn hgiven hread htile hpart' hmay hon hserves hroom)
    · intro n p ms u h3 hn hmax hsides hhands
      exact hrun (hop h3) (copyRun_hands hn hmax hsides hhands)
    · intro h4 hctr met
      refine ⟨fun hmet => ?_, fun hmet => ?_, fun since hmet hsince hus hlate => hrun (hop h4) (waitExpire_late hsince hus hlate hmet)⟩
      · exact hrun (hop h4) ((waitRun_counter hctr).trans (if_pos hmet))
      · exact hrun (hop h4) ((waitRun_counter hctr).trans (if_neg (Bool.eq_false_iff.mp hmet)))

end Sys2Proof.Machine
end

section
/-! PROOFS. Commands of partitions, images, keys and attestation (R464 to R479). -/
namespace Sys2Proof.Machine

variable {s : State} {h : Nat}

/-! ### Partitions (R464 to R466) -/

/-- A change of a partition register by the admin port, outside the debug pages. -/
theorem State.onPrt_admin {page off : Nat} {act : State → State} (hpage : isDebugPage page = false)
    (hw : s.mayWrite (.port s.adminPort) page off = true) : s.onPrt (.port s.adminPort) page off act = act s := by
  rw [State.mayWrite, beq_iff_eq] at hw
  simp only [State.onPrt, hw, State.touchDebug_of_not_debug hpage, if_true]

theorem prtChange_made {page off : Nat} {parts : List Nat} {act : State → State}
    (hstopped : (parts.all fun p => decide (6 ≤ p) || s.stopped p) = true) (hvalid : (act s).allValid = true) :
    prtChange page off parts act s = s.keysAfter (act s) :=
  if_pos (by rw [hstopped, hvalid]; rfl)

theorem prtMapWrite_made {d v : Nat}
    (hstopped : ([s.partOf d, if v % 8 = 6 then 7 else v % 8].all fun p => decide (6 ≤ p) || s.stopped p) = true)
    (hvalid : (s.setReg pPRT (R.PRT_MAP + 4 * d) (v % 8)).allValid = true) :
    prtMapWrite d v s = s.keysAfter (s.setReg pPRT (R.PRT_MAP + 4 * d) (v % 8)) := by
  exact prtChange_made (act := fun a => a.setReg pPRT (R.PRT_MAP + 4 * d) (v % 8)) hstopped hvalid

theorem prtOwnerWrite_made {p v : Nat} (hstopped : ([p].all fun p => decide (6 ≤ p) || s.stopped p) = true)
    (hvalid : (s.setReg (pPRTP p) R.PRT_P_OWNER (v % 8)).allValid = true) :
    prtOwnerWrite p v s = s.keysAfter (s.setReg (pPRTP p) R.PRT_P_OWNER (v % 8)) := by
  exact prtChange_made (act := fun a => a.setReg (pPRTP p) R.PRT_P_OWNER (v % 8)) hstopped hvalid

theorem prtFarWrite_made {p v : Nat} {size : Bool} (hstopped : ([p].all fun p => decide (6 ≤ p) || s.stopped p) = true)
    (hvalid : (s.setReg (pPRTP p) (if size then R.PRT_P_FAR_SIZE else R.PRT_P_FAR_BASE) (v % 4096)).allValid = true) :
    prtFarWrite p size v s = s.keysAfter (s.setReg (pPRTP p) (if size then R.PRT_P_FAR_SIZE else R.PRT_P_FAR_BASE) (v % 4096)) := by
  exact prtChange_made (act := fun a => a.setReg (pPRTP p) (if size then R.PRT_P_FAR_SIZE else R.PRT_P_FAR_BASE) (v % 4096)) hstopped
    hvalid

theorem isDebugPage_pPRT : isDebugPage pPRT = false := rfl

theorem isDebugPage_pPRTP : ∀ p < 6, isDebugPage (pPRTP p) = false := by decide

theorem pageOwnerWrite_made {page v i : Nat} {b : Blk} (hblk : pageBlk page = some (b, i)) (hbound : b.bound = false) (hdbg : b ≠ .dbg)
    (hstopped : ([s.pagePart page, v % 8].all fun p => decide (6 ≤ p) || s.stopped p) = true)
    (hvalid : (s.setReg page R.PAGE_OWNER (v % 8 + (if b = .ings then bits v 15 8 * 2 ^ 8 else 0))).allValid = true) :
    pageOwnerWrite page v s =
      s.keysAfter (s.setReg page R.PAGE_OWNER (v % 8 + (if b = .ings then bits v 15 8 * 2 ^ 8 else 0))) := by
  simp only [pageOwnerWrite, hblk, hbound, beq_false_of_ne hdbg, Bool.false_and, Bool.or_self, Bool.false_eq_true, if_false]
  exact prtChange_made (act := fun a => a.setReg page R.PAGE_OWNER (v % 8 + (if b = .ings then bits v 15 8 * 2 ^ 8 else 0))) hstopped
    hvalid

/-! ### Images (R469 to R472) -/

theorem isDebugPage_pSEC : isDebugPage pSEC = false := rfl

theorem exec_imgDone {j : ImageJob} {flashOk : Bool} (hao : s.aoOn = true) (hj : s.sec.job = some j) :
    exec (.imgDone flashOk) s =
      let r := if j.result = 1 && !flashOk then 5 else j.result
      .next (((s.modSec fun x => { x with
        job := none, flash := if r = 1 then sput x.flash j.slot j.image else x.flash }).setFld pSEC R.SEC_IMG_CTL 6 3 (r * 2)).notice
          pSEC 3) := by
  show execImgDone _ s = _
  simp only [execImgDone, hao, hj]

/-! ### Attestation (R470) -/

theorem exec_getCapabilities {req : List Nat} (hst : 1 ≤ (s.port h).spdm) :
    exec (.getCapabilities h req) s = .next (s.spdm h 0xE1 req true fun p => { p with spdm := max p.spdm 2 }) := by
  show execGetCapabilities h req s = _
  rw [execGetCapabilities, decide_eq_true hst]

theorem exec_negotiateAlgorithms {req : List Nat} (hst : 2 ≤ (s.port h).spdm) :
    exec (.negotiateAlgorithms h req) s = .next (s.spdm h 0xE3 req true fun p => { p with spdm := 3 }) := by
  show execNegotiateAlgorithms h req s = _
  rw [execNegotiateAlgorithms, decide_eq_true hst]

/-- The requests that follow the negotiation of algorithms and change nothing of the port. -/
theorem exec_spdm_negotiated {req : List Nat} (hst : (s.port h).spdm = 3) :
    exec (.getDigests h req) s = .next (s.spdm h 0x81 req true id) ∧
    exec (.getCertificate h req) s = .next (s.spdm h 0x82 req true id) ∧
    exec (.challenge h req) s = .next (s.spdm h 0x83 req true id) ∧
    exec (.getMeasurements h req) s = .next (s.spdm h 0xE0 req true id) := by
  refine ⟨?_, ?_, ?_, ?_⟩
  · show execGetDigests h req s = _
    rw [execGetDigests, decide_eq_true hst]
  · show execGetCertificate h req s = _
    rw [execGetCertificate, decide_eq_true hst]
  · show execChallenge h req s = _
    rw [execChallenge, decide_eq_true hst]
  · show execGetMeasurements h req s = _
    rw [execGetMeasurements, decide_eq_true hst]

theorem exec_keyExchange {req : List Nat} (hst : (s.port h).spdm = 3) (hses : (s.port h).session = 0) :
    exec (.keyExchange h req) s = .next (s.spdm h 0xE4 req true fun p => { p with session := 1 }) := by
  show execKeyExchange h req s = _
  rw [execKeyExchange, decide_eq_true hst, decide_eq_true hses, Bool.and_self]

theorem exec_finish {req : List Nat} (hses : (s.port h).session = 1) :
    exec (.finish h req) s = .next (s.spdm h 0xE5 req true fun p => { p with session := 2 }) := by
  show execFinish h req s = _
  rw [execFinish, decide_eq_true hses]

theorem exec_endSession {req : List Nat} (hses : (s.port h).session = 2) :
    exec (.endSession h req) s = .next (s.spdm h 0xEC req true fun p => { p with session := 0 }) := by
  show execEndSession h req s = _
  rw [execEndSession, decide_eq_true hses]

/-! ### IDE (R475, R476) -/

theorem exec_ideKm {k : Nat} {msg : List Nat} (hruns : s.spdmRuns h = true) (hses : (s.port h).session = 2) (hk : k < 3)
    (hclear : bit (s.reg pSEC R.SEC_STS) 1 = false) (hscan : s.sec.scanHold = false) :
    exec (.ideKm h k msg) s =
      let s1 := if Sys2Proof.Config.ideProgram msg then (s.modPort h fun p => { p with ideKeys := sput p.ideKeys k msg }).holdsKeys
        else s
      .next (if Sys2Proof.Config.ideStart msg && (s1.port h).ideKeys.any fun e => e.1 == k then s1.setHptSts h (ideBit k) true
        else s1) := by
  show execIdeKm _ _ _ s = _
  simp only [execIdeKm, hruns, hses, hk, hclear, hscan, decide_true, Bool.and_self, Bool.or_self, Bool.false_eq_true, if_false, if_true]

theorem exec_ideLost {k : Nat} (hon : s.hostOn h = true) (hk : k < 3) (hsts : s.hptSts h (ideBit k) = true) :
    exec (.ideLost h k) s = .next ((s.setHptSts h (ideBit k) false).raise (pHPT h) 4 k) := by
  show execIdeLost _ _ s = _
  simp only [execIdeLost, hon, hk, hsts, decide_true, Bool.and_self, if_true]

/-! ### Keys (R473, R474) -/

theorem State.onKey_granted {off : Nat} {act : Nat → State → State} (hw : s.mayWrite (.port h) pSEC off = true) :
    s.onKey (.port h) off act = act h s := by
  rw [State.mayWrite, beq_iff_eq] at hw
  simp only [State.onKey, hw]

/-- Setting a bit that is clear adds its weight. -/
theorem setBit_of_clear {v i : Nat} (hclear : v / 2 ^ i % 2 = 0) : setBit v i true = v + 2 ^ i := by
  have hw : 2 ^ (i + 1 - i) = 2 := by rw [Nat.add_sub_cancel_left, Nat.pow_one]
  simp only [setBit, setBits, hw, Nat.shiftRight_eq_div_pow, hclear, b2n, if_true, Nat.zero_mul, Nat.sub_zero, Nat.one_mul,
    Nat.reduceMod]

theorem bit_eq_false_iff {v i : Nat} : bit v i = false ↔ v / 2 ^ i % 2 = 0 := by
  rw [bit, Nat.shiftRight_eq_div_pow, beq_eq_false_iff_ne]
  omega

theorem bit_eq_true_iff {v i : Nat} : bit v i = true ↔ v / 2 ^ i % 2 = 1 := by
  rw [bit, Nat.shiftRight_eq_div_pow, beq_iff_eq]

/-- The key that a port has staged in its key words. -/
def PortState.stagedKey (p : PortState) : List Nat := ((List.range 8).map fun k => leBytes (sget 0 p.keyWords k) 4).flatten

/-- An accepted load puts the staged key into the selected slot. -/
theorem keyCmdWrite_load {v : Nat} (hok : s.keyRefusal h = none) (hload : bit v 0 = false) (herase : bit v 1 = false) :
    keyCmdWrite (setBit v 0 true) h s =
      ((s.modSec fun x => { x with
        keys := sput x.keys (s.portPart h * 16 + (s.port h).keySel % 16)
          (leNat (s.port h).stagedKey, (s.port h).keySalt) }).modPort h fun q =>
        { q with keyWords := [], keySalt := 0, kcv := leNat ((aes256 (s.port h).stagedKey (List.replicate 16 0)).take 4) }).holdsKeys := by
  rw [bit_eq_false_iff] at hload herase
  rw [setBit_of_clear hload]
  have hset : bit (v + 2 ^ 0) 0 = true := bit_eq_true_iff.mpr (by omega)
  have hkept : bit (v + 2 ^ 0) 1 = false := bit_eq_false_iff.mpr (by omega)
  have hcmd : ¬ (v + 2 ^ 0) % 4 = 0 := by omega
  simp only [keyCmdWrite, hcmd, hok, hset, hkept, Bool.false_eq_true, if_false, if_true]
  rfl

theorem keyCmdWrite_erase {v : Nat} (hok : s.keyRefusal h = none) (hload : bit v 0 = false) (herase : bit v 1 = false) :
    keyCmdWrite (setBit v 1 true) h s =
      s.modSec fun x => { x with keys := sdel x.keys (s.portPart h * 16 + (s.port h).keySel % 16) } := by
  rw [bit_eq_false_iff] at hload herase
  rw [setBit_of_clear herase]
  have hset : bit (v + 2 ^ 1) 1 = true := bit_eq_true_iff.mpr (by omega)
  have hkept : bit (v + 2 ^ 1) 0 = false := bit_eq_false_iff.mpr (by omega)
  have hcmd : ¬ (v + 2 ^ 1) % 4 = 0 := by omega
  simp only [keyCmdWrite, hcmd, hok, hset, hkept, Bool.false_eq_true, if_false, if_true]

/-- An accepted installation of a link key (R474). -/
theorem linkCmdWrite_install {v : Nat} {e : Nat × Nat × Nat} (hok : s.keyRefusal h = none) (hv : v < 2 ^ 31) (hlink : v % 128 < 96)
    (hpart : s.pagePart (pGAT (v % 128 / 12)) = s.portPart h)
    (he : s.sec.keys.find? (fun e => e.1 == s.portPart h * 16 + bits v 12 9) = some e) :
    linkCmdWrite (setBit v 31 true) h s =
      let g := v % 128 / 12
      let k := v % 128 % 12
      let s1 := (s.installKey g k (bits v 7 7) (bits v 8 8) e.2).holdsKeys
      if bit v 13 && bits v 7 7 == 0 then (s1.modLink g k fun l => { l with switchTo := some (bits v 8 8) }).turnPhase g k else s1 := by
  rw [setBit_of_clear (by omega)]
  have hset : bit (v + 2 ^ 31) 31 = true := bit_eq_true_iff.mpr (by omega)
  have hlow : (v + 2 ^ 31) % 128 = v % 128 := by omega
  have hdir : bits (v + 2 ^ 31) 7 7 = bits v 7 7 := by simp only [bits, Nat.shiftRight_eq_div_pow]; omega
  have hslot : bits (v + 2 ^ 31) 8 8 = bits v 8 8 := by simp only [bits, Nat.shiftRight_eq_div_pow]; omega
  have hkey : bits (v + 2 ^ 31) 12 9 = bits v 12 9 := by simp only [bits, Nat.shiftRight_eq_div_pow]; omega
  have hswitch : bit (v + 2 ^ 31) 13 = bit v 13 := by simp only [bit, Nat.shiftRight_eq_div_pow]; congr 1; omega
  simp only [linkCmdWrite, hset, hlow, hdir, hslot, hkey, hswitch, hok, hpart, he, Nat.not_le.mpr hlink, ne_eq, not_true_eq_false,
    Bool.true_eq_false, or_self, if_false]

/-- The end of a clear with no test run (R476). -/
theorem exec_keysCleared (hao : s.aoOn = true) (hbusy : bit (s.reg pSEC R.SEC_STS) 1 = true) (hrun : s.bst.run = none) :
    exec .keysCleared s = .next ((s.setFld pSEC R.SEC_STS 1 0 1).notice pSEC 0) := by
  show execKeysCleared s = _
  simp only [execKeysCleared, State.keysCleared, hao, hbusy, hrun, Option.isSome_none, Bool.and_self, Bool.and_false,
    Bool.false_eq_true, if_false, if_true]

end Sys2Proof.Machine

namespace Sys2Proof.Machine

/-- Settles O48: each command of partitions, images, attestation, IDE and keys under the conditions of its rule. The order of the
SPDM requests is log entry 92, the key commands 91, the start of IDE 92 and 30, a partition's validity 89, images 90. -/
theorem securityCommandsComplete : Obligations.SecurityCommandsComplete := by
  intro s
  refine ⟨?partition, fun res hao hboot => ?boot, fun src hw => ?image, fun j flashOk hao hj => exec_imgDone hao hj,
    fun hw => ?svn, fun h req hruns => ?spdm, fun h k hon hk hsts => exec_ideLost hon hk hsts, fun h v hw hok => ?key, ?linkKey,
    fun src hw _ => ?clear, exec_keysCleared⟩
  case partition =>
    have hchange {c : Prop} [Decidable c] {page off : Nat} {act : State → State} {u : State} (hc : c)
        (hpage : isDebugPage page = false) (hw : s.mayWrite (.port s.adminPort) page off = true) (hact : act s = u) :
        Host.Outcome.next (if c then s.onPrt (.port s.adminPort) page off act else s) =
          Host.Outcome.next (φ := Fault) (ρ := Refusal) u :=
      congrArg _ ((if_pos hc).trans ((State.onPrt_admin hpage hw).trans hact))
    intro a change
    refine ⟨fun d v hd hw => ?_, fun p v hp hw => ?_, ?_, fun page v b i hblk hbar hbound hdbg hw => ?_⟩
    · rintro s1 ⟨hstopped, hvalid⟩
      exact hchange hd isDebugPage_pPRT hw (prtMapWrite_made hstopped hvalid)
    · rintro s1 ⟨hstopped, hvalid⟩
      exact hchange hp (isDebugPage_pPRTP p hp) hw (prtOwnerWrite_made hstopped hvalid)
    · intro p size v off hp hw s1
      rintro ⟨hstopped, hvalid⟩
      exact hchange hp (isDebugPage_pPRTP p hp) hw (prtFarWrite_made hstopped hvalid)
    · rintro s1 ⟨hstopped, hvalid⟩
      refine congrArg _ ((if_neg (Bool.eq_false_iff.mp hbar)).trans ((State.onPrt_admin (isDebugPage_of_blk hblk hdbg) hw).trans ?_))
      exact pageOwnerWrite_made hblk hbound hdbg hstopped hvalid
  case boot => exact congrArg _ (if_pos (by rw [hao, hboot]; rfl))
  case image =>
    have hwrite (f : State → State) : s.onWrite src pSEC R.SEC_IMG_CTL f = f s := State.onWrite_granted isDebugPage_pSEC hw
    exact ⟨congrArg _ (hwrite _), congrArg _ (hwrite _)⟩
  case svn => exact congrArg _ ((State.onWrite_granted isDebugPage_pSEC hw).trans (if_pos ⟨rfl, rfl⟩))
  case spdm =>
    intro st ses
    refine ⟨rfl, exec_getCapabilities, exec_negotiateAlgorithms, fun hst => ?_, exec_finish, fun hses => ⟨exec_endSession hses, ?_⟩⟩
    · obtain ⟨hdigests, hcert, hchal, hmeas⟩ := exec_spdm_negotiated (req := req) hst
      exact ⟨hdigests, hcert, hchal, hmeas, exec_keyExchange hst⟩
    · intro k msg hk hclear hscan
      exact exec_ideKm hruns hses hk hclear hscan
  case key =>
    intro p ix key
    refine ⟨fun h0 h1 => ?_, fun h0 h1 => ?_⟩
    · exact congrArg _ ((State.onKey_granted hw).trans (keyCmdWrite_erase hok h0 h1))
    · exact congrArg _ ((State.onKey_granted hw).trans (keyCmdWrite_load hok h0 h1))
  case linkKey =>
    intro h v e hw hok hv link g k s1 hlink hpart he
    exact congrArg _ ((State.onKey_granted hw).trans (linkCmdWrite_install hok hv hlink hpart he))
  case clear => exact congrArg _ (State.onWrite_granted isDebugPage_pSEC hw)

end Sys2Proof.Machine
end

section
/-! PROOFS. Commands of host completions (R463) and of self-test (R511 to R521). -/
namespace Sys2Proof.Machine

variable {s : State} {src : Src} {h req : Nat} {r : OutReq}

/-! ### Requests to a host (R463) -/

/-- The whole completion restarts the port's count of time-outs and answers the request, by its owner (log entry 46). -/
theorem exec_hostCompletion {data : List Nat} (hreq : s.hostReq req = some (r, h)) (hlive : s.live = true) (hdom : s.domOn 40 = true)
    (hup : s.linkUp h = true) (hlen : r.len ≤ data.length) {t : State}
    (ht : (match r.owner with
      | .xfer o =>
        if r.len = 0 then (((s.modPort h fun p => { p with timeouts := 0 }).dropReq req).confirmed o h).advance o
        else (s.modPort h fun p => { p with timeouts := 0 }).answered r (data.take r.len) r.len none
      | _ => (s.modPort h fun p => { p with timeouts := 0 }).dropReq req) = t) :
    exec (.hostCompletion req data) s = .next t := by
  subst ht
  show execHostCompletion _ _ s = _
  simp only [execHostCompletion, hreq, hlive, hdom, hup, Nat.not_lt.mpr hlen, Bool.true_eq_false, or_self, if_false] <;> rfl

theorem exec_cplTimeout (hreq : s.hostReq req = some (r, h)) (hlive : s.live = true)
    (hlate : r.since + max 1 (s.reg (pHPT h) R.HPT_CPL_TIMEOUT % 2 ^ 16) * 1000000 ≤ s.mt) :
    exec (.cplTimeout req) s = .next (s.cplExpired req r h (s.reg (pHPT h) R.HPT_CPL_TIMEOUT)) := by
  show execCplTimeout _ s = _
  simp only [execCplTimeout, hreq, hlive, Nat.not_lt.mpr hlate, Bool.true_eq_false, or_self, if_false]

/-! ### Self-test (R511 to R521) -/

theorem isDebugPage_pBST : isDebugPage pBST = false := rfl

theorem bstCtlWrite_run {v : Nat} (hsrc : s.bstWriter src = true) (hrun : bit v 0 = true) (habort : bit v 3 = false)
    (hok : (s.setReg pBST R.BST_CTL (bits v 2 1 * 2)).demandOk ((s.setReg pBST R.BST_CTL (bits v 2 1 * 2)).domBits R.BST_DOM_MASK_LO) = true) :
    bstCtlWrite src v s = (s.setReg pBST R.BST_CTL (bits v 2 1 * 2)).bstStart bcDemand
      ((List.range 41).reverse.filter fun c => bit ((s.setReg pBST R.BST_CTL (bits v 2 1 * 2)).domBits R.BST_DOM_MASK_LO) c) := by
  simp only [bstCtlWrite, hsrc, hrun, habort, hok, Bool.and_self, Bool.true_eq_false, Bool.false_eq_true, if_false, if_true]

theorem bstCtlWrite_abort {v : Nat} (hsrc : s.bstWriter src = true) (hrun : bit v 0 = false) (habort : bit v 3 = true) :
    bstCtlWrite src v s = (s.setReg pBST R.BST_CTL (bits v 2 1 * 2)).bstAbort := by
  simp only [bstCtlWrite, hsrc, hrun, habort, Bool.false_and, Bool.true_eq_false, Bool.false_eq_true, if_false, if_true]

theorem exec_domainTestDone {r : BstRun} {c : Nat} {l : List Nat} {res : TestResult} (hao : s.aoOn = true) (hr : s.bst.run = some r)
    (htodo : r.todo = c :: l) (hscan : s.sec.scanHold = true) (hdom : s.domRaw c = true) :
    exec (.domainTestDone res) s = .next (s.testDone r c res) := by
  show execDomainTestDone _ s = _
  simp only [execDomainTestDone, hao, hr, htodo, hscan, hdom, Bool.and_self, if_true]

theorem exec_bstDone {r : BstRun} (hao : s.aoOn = true) (hr : s.bst.run = some r) (htodo : r.todo = []) :
    exec .bstDone s = .next (if (s.bstFinish r).pwr.waitTest then (s.bstFinish r).parkBegin else s.bstFinish r) := by
  show execBstDone s = _
  simp only [execBstDone, hao, hr, htodo, if_true]

end Sys2Proof.Machine

namespace Sys2Proof.Machine

/-- Settles O49: a host's completion and its time-out (R463; that a completion brings all bytes is log entry 46). -/
theorem hostCompletionCommandsComplete : Obligations.HostCompletionCommandsComplete := by
  intro s req r h hreq hlive
  refine ⟨fun data hdom hup hlen => ?_, fun hlate => exec_cplTimeout hreq hlive hlate⟩
  intro s1
  refine ⟨fun o ho => ⟨fun hzero => ?_, fun hsome => ?_⟩, fun hother => ?_⟩
  · exact exec_hostCompletion hreq hlive hdom hup hlen (by rw [ho]; exact if_pos hzero)
  · exact exec_hostCompletion hreq hlive hdom hup hlen (by rw [ho]; exact if_neg hsome)
  · refine exec_hostCompletion hreq hlive hdom hup hlen ?_
    split
    · next o ho => exact absurd ho (hother o)
    · rfl

/-- Settles O50: each command of self-test under the conditions of its rule (log entry 97). -/
theorem selfTestCommandsComplete : Obligations.SelfTestCommandsComplete := by
  intro s src
  refine ⟨fun hsrc hw => ?ctl, fun hao => ⟨fun r c l res hr htodo hscan hdom => exec_domainTestDone hao hr htodo hscan hdom,
    fun r hr htodo => exec_bstDone hao hr htodo⟩, fun d hd => ?fence⟩
  case ctl =>
    intro v
    refine ⟨?_, fun hrun habort => ?_⟩
    · intro s1 mask hrun habort hok
      exact congrArg _ ((State.onWrite_granted isDebugPage_pBST hw).trans (bstCtlWrite_run hsrc hrun habort hok))
    · exact congrArg _ ((State.onWrite_granted isDebugPage_pBST hw).trans (bstCtlWrite_abort hsrc hrun habort))
  case fence =>
    intro off hw
    exact next_onWrite_of hd isDebugPage_pBST hw rfl

end Sys2Proof.Machine
end

section
/-! PROOFS. What a write of a page's register 0x060 (ERR_VOID_PAGE of ERR_, CRS_MASK_COUNT of a crossing) leaves as it was: where a
logical tile stands, what is powered, and whether a page's block runs. -/
namespace Sys2Proof.Machine

/-- States that differ in what voids the guarantees and in the words 0x060 of the pages, and in nothing else. -/
structure BarWord60 (s t : State) : Prop where
  only : t = { s with regs := t.regs, voidCause := t.voidCause }
  reg : ∀ q o, o / 4 % 1024 ≠ 0x18 → t.reg q o = s.reg q o

namespace BarWord60

variable {s t : State}

theorem refl (s : State) : BarWord60 s s := ⟨rfl, fun _ _ _ => rfl⟩

/-- A write of the register itself. -/
theorem setReg {p off v : Nat} (hk : keysRise s.regs = true) (hoff : off / 4 % 1024 = 0x18) : BarWord60 s (s.setReg p off v) :=
  ⟨rfl, fun q o ho => State.reg_setReg_other s hk (by omega)⟩

variable (h : BarWord60 s t)
include h

theorem fld {q o hi lo : Nat} (ho : o / 4 % 1024 ≠ 0x18) : t.fld q o hi lo = s.fld q o hi lo := by
  rw [State.fld, h.reg q o ho, State.fld]

theorem siteOf (u : Nat) : t.siteOf u = s.siteOf u := by
  have hspare : t.spareEntry (u / 256) (u % 16) = s.spareEntry (u / 256) (u % 16) :=
    h.reg (pDST (u / 256)) (R.DST_SPARE_MAP + 4 * (u % 16)) (by simp only [R.DST_SPARE_MAP]; omega)
  simp only [State.siteOf, hspare]

theorem canon (p : Nat) : t.canon p = s.canon p := by simp only [State.canon, h.siteOf]

theorem domOn (d : Nat) : t.domOn d = s.domOn d := by
  have hraw : t.domRaw d = s.domRaw d := by
    rw [State.domRaw, h.reg _ _ (by decide), h.reg _ _ (by decide), State.domRaw]
  have htest : t.underTest d = s.underTest d := by
    rw [h.only]
    rfl
  rw [State.domOn, hraw, htest, State.domOn]

theorem pageOn (p : Nat) : t.pageOn p = s.pageOn p := by
  have hao : t.aoOn = s.aoOn := by rw [h.only]
  simp only [State.pageOn, hao, h.canon, h.domOn]

theorem siteOn (site : Nat) : t.siteOn site = s.siteOn site := by
  rw [State.siteOn, h.pageOn, State.siteOn]

theorem blockRuns (p : Nat) : t.blockRuns p = s.blockRuns p := by
  have hlive : t.live = s.live := by
    rw [h.only]
    rfl
  have hpwr : t.pwr = s.pwr := by rw [h.only]
  have hclocked : t.clocked p = s.clocked p := by simp only [State.clocked, h.canon, hpwr]
  rw [State.blockRuns, hlive, h.pageOn, hclocked, h.reg _ _ (by decide), State.blockRuns]

end BarWord60

end Sys2Proof.Machine
end

section
/-! PROOFS. Commands of the check units and of the debug pages (R523 to R531, R540, R541). -/
namespace Sys2Proof.Machine

variable {s : State} {src : Src} {u : Nat}

/-! ### Check units -/

theorem length_leBytes {v n : Nat} : (leBytes v n).length = n := by
  induction n generalizing v with
  | zero => rfl
  | succ n ih => rw [leBytes, List.length_cons, ih]

theorem chkWrite_granted {off : Nat} {act : State → State} {t : State} (hu : u < 16) (hw : s.mayWrite src (pCHK u) off = true)
    (ht : act s = t) : Host.Outcome.next (s.chkWrite src u off act) = Host.Outcome.next (φ := Fault) (ρ := Refusal) t :=
  next_onWrite_of hu (isDebugPage_pCHK u hu) hw ht

theorem chkCtlWrite_claim {b : Bool} : chkCtlWrite u (b2n b) s = s.setReg (pCHK u) R.CHK_CTL (b2n b) := by
  cases b with
  | false => rfl
  | true => rfl

theorem chkCtlWrite_reset (hfree : s.chkBusy u = false) :
    chkCtlWrite u (s.reg (pCHK u) R.CHK_CTL % 2 + 2) s =
      (s.setReg (pCHK u) R.CHK_CTL (s.reg (pCHK u) R.CHK_CTL % 2)).setChkValue u
        ((s.setReg (pCHK u) R.CHK_CTL (s.reg (pCHK u) R.CHK_CTL % 2)).chkCfg u).start := by
  have hreset : bit (s.reg (pCHK u) R.CHK_CTL % 2 + 2) 1 = true := by
    rw [bit, Nat.shiftRight_eq_div_pow, beq_iff_eq]
    omega
  have hclaim : (s.reg (pCHK u) R.CHK_CTL % 2 + 2) % 2 = s.reg (pCHK u) R.CHK_CTL % 2 := by omega
  have hfree' : (s.setReg (pCHK u) R.CHK_CTL (s.reg (pCHK u) R.CHK_CTL % 2)).chkBusy u = false := hfree
  simp only [chkCtlWrite, hreset, hclaim, State.chkGuard, hfree', Bool.false_eq_true, if_false, if_true]

theorem chkFeedWrite_claimed {n v : Nat} (hclaimed : s.chkClaimed u = true) :
    chkFeedWrite u n v s =
      (s.setChkValue u ((s.chkCfg u).feed (s.chkValue u) (leBytes v n))).bump (pCHK u) R.CHK_BYTES n := by
  rw [chkFeedWrite, if_pos hclaimed, State.chkFeed, length_leBytes]

theorem chkValueHiWrite_free {v : Nat} (hfree : s.chkBusy u = false) :
    chkValueHiWrite u v s = s.setChkValue u ((s.chkUnit u).heldLo + v % 2 ^ 32 * 2 ^ 32) :=
  if_neg (Bool.eq_false_iff.mp hfree)

/-! ### Voiding by a debug page leaves all registers but ERR_VOID_PAGE (R541) -/

/-- A map read besides the entry that was put, in any order of the entries. -/
theorem sget_sput_of_ne {α : Type} {d v : α} {k j : Nat} (hj : j ≠ k) (l : List (Nat × α)) : sget d (sput l k v) j = sget d l j := by
  induction l with
  | nil => simp only [sput, sget, if_neg (Ne.symm hj), ite_self]
  | cons p r ih =>
    unfold sput
    split
    · next hp => simp only [sget, hp, if_neg (Ne.symm hj)]
    · split
      · next hlt =>
        by_cases hjk : j < k
        · have hjp : j < p.1 := Nat.lt_trans hjk hlt
          simp only [sget, if_neg (Ne.symm hj), if_pos hjk, if_neg (Nat.ne_of_gt hjp), if_pos hjp]
        · rw [sget, if_neg (Ne.symm hj), if_neg hjk]
      · simp only [sget, ih]

/-- The value that ERR_VOID_PAGE takes is not the one it reads as before. -/
theorem State.reg_debugVoid {page q o : Nat} (hoff : o / 4 % 1024 ≠ 0x18) :
    (s.debugVoid page).reg q o = s.reg q o := by
  unfold State.debugVoid
  dsimp only
  split
  · rfl
  · have hval : BitVec.ofNat 32 (page % 2 ^ 14 + 2 ^ 31) ≠ BitVec.ofNat 32 (regReset pERR R.ERR_VOID_PAGE) := by
      intro heq
      have hreset : regReset pERR R.ERR_VOID_PAGE = 0 := by decide
      rw [hreset] at heq
      have := congrArg BitVec.toNat heq
      simp only [BitVec.toNat_ofNat] at this
      omega
    have hkey : q * 1024 + o / 4 ≠ pERR * 1024 + R.ERR_VOID_PAGE / 4 := by
      simp only [pERR, R.ERR_VOID_PAGE] at hoff ⊢
      omega
    simp only [State.reg, State.setReg, State.voidBy, sset, if_neg hval, sget_sput_of_ne hkey]

/-- A debug voiding changes what voids the guarantees and ERR_VOID_PAGE, and nothing else. -/
theorem State.debugVoid_word60 (page : Nat) : BarWord60 s (s.debugVoid page) := by
  refine ⟨?_, fun q o ho => State.reg_debugVoid ho⟩
  unfold State.debugVoid
  generalize page % 2 ^ 14 + 2 ^ 31 = w
  dsimp only
  split
  · rfl
  · rfl

theorem State.frozen_debugVoid (page site : Nat) : (s.debugVoid page).frozen site = s.frozen site := by
  have hstep : (s.debugVoid page).dbgStep = s.dbgStep := by rw [(State.debugVoid_word60 page).only]
  have hmt : (s.debugVoid page).mt = s.mt := by rw [(State.debugVoid_word60 page).only]
  have hctl (q : Nat) : (s.debugVoid page).reg q R.DBG_CTL = s.reg q R.DBG_CTL := State.reg_debugVoid (by decide)
  simp only [State.frozen, hstep, hmt, hctl]

theorem State.fld_debugVoid_peekSel (page q hi lo : Nat) : (s.debugVoid page).fld q R.DBG_PEEK_SEL hi lo = s.fld q R.DBG_PEEK_SEL hi lo :=
  (State.debugVoid_word60 page).fld (by decide)

theorem State.peekOpen_debugVoid (page i : Nat) : (s.debugVoid page).peekOpen i = s.peekOpen i := by
  have hvoid : BarWord60 s (s.debugVoid page) := State.debugVoid_word60 page
  have hsite : (s.debugVoid page).peekSite i = s.peekSite i := by
    simp only [State.peekSite, State.fld_debugVoid_peekSel, hvoid.siteOf]
  simp only [State.peekOpen, hsite, State.frozen_debugVoid, hvoid.siteOn]

/-! ### Debug pages -/

theorem pageBlk_dbgPage : ∀ i < 7, pageBlk (dbgPage i) = some (.dbg, i) := by decide

theorem State.onWrite_dbgPage {i off : Nat} {act : State → State} (hi : i < 7) (hw : s.mayWrite src (dbgPage i) off = true) :
    s.onWrite src (dbgPage i) off act = act (s.debugVoid (dbgPage i)) := by
  rw [State.onWrite_mayWrite hw]
  simp only [State.touchDebug, pageBlk_dbgPage i hi]

theorem dbgCtlWrite_freeze {i : Nat} {on : Bool} : dbgCtlWrite i (b2n on) s = s.setReg (dbgPage i) R.DBG_CTL (b2n on) := by
  cases on with
  | false => rfl
  | true => rfl

theorem dbgCtlWrite_step {i : Nat} (hfrozen : s.reg (dbgPage i) R.DBG_CTL % 2 = 1) :
    dbgCtlWrite i (s.reg (dbgPage i) R.DBG_CTL % 2 + 2) s =
      { s.setReg (dbgPage i) R.DBG_CTL 1 with dbgStep := sput s.dbgStep i s.mt } := by
  rw [hfrozen]
  rfl

theorem peekRead_open {i site : Nat} (hopen : s.peekOpen i = some site) :
    peekRead i s =
      s.reply [s.peekWord site (s.fld (dbgPage i) R.DBG_PEEK_SEL 14 12) (s.fld (dbgPage i) R.DBG_PEEK_SEL 31 15)] := by
  simp only [peekRead, hopen]

/-- A word of a frozen powered tile in scope is replaced, after the voiding of the guarantees (R541). -/
theorem State.onPeekWrite_open {i site x : Nat} (hi : i < 7) (hopen : s.peekOpen i = some site)
    (hw : s.mayWrite src (dbgPage i) R.DBG_PEEK_DATA = true) :
    s.onPeekWrite src i x = (s.debugVoid (dbgPage i)).pokeWord site (s.fld (dbgPage i) R.DBG_PEEK_SEL 14 12)
      (s.fld (dbgPage i) R.DBG_PEEK_SEL 31 15) (x % 2 ^ 32) := by
  rw [State.onPeekWrite, hopen, Option.isSome_some, if_pos rfl, State.onWrite_dbgPage hi hw]
  simp only [peekWrite, State.peekOpen_debugVoid, hopen, State.fld_debugVoid_peekSel]

end Sys2Proof.Machine

namespace Sys2Proof.Machine

/-- Settles O51: each command of a check unit and of a debug page under the conditions of its rule. That DBG_STEP's cycle is the
module time of its write is log entry 98. -/
theorem checkDebugCommandsComplete : Obligations.CheckDebugCommandsComplete := by
  intro s src
  refine ⟨fun u hu => ?check, fun i hi => ?debug⟩
  case check =>
    intro p
    refine ⟨fun hw => ⟨fun b => chkWrite_granted hu hw chkCtlWrite_claim, fun hfree => chkWrite_granted hu hw (chkCtlWrite_reset hfree)⟩,
      fun v hclaimed => ?_, fun v hfree hw => chkWrite_granted hu hw (chkValueHiWrite_free hfree),
      fun hr => congrArg _ ((if_pos hu).trans (State.onRead_mayRead hr)), ?_⟩
    · intro fed
      exact ⟨fun hw => chkWrite_granted hu hw (chkFeedWrite_claimed hclaimed), fun hw => chkWrite_granted hu hw (chkFeedWrite_claimed hclaimed),
        fun hw => chkWrite_granted hu hw (chkFeedWrite_claimed hclaimed)⟩
    · intro r hr
      exact congrArg _ ((if_pos hu).trans (State.onRead_mayRead hr))
  case debug =>
    intro p
    refine ⟨fun hw => ?_, fun site hopen => ?_⟩
    · intro s1
      refine ⟨fun on => ?_, fun hfrozen => ?_⟩
      · exact congrArg _ ((if_pos hi).trans ((State.onWrite_dbgPage hi hw).trans dbgCtlWrite_freeze))
      · have hstep : s1.dbgStep = s.dbgStep := by unfold s1; rw [(State.debugVoid_word60 _).only]
        have hmt : s1.mt = s.mt := by unfold s1; rw [(State.debugVoid_word60 _).only]
        rw [← hstep, ← hmt, ← dbgCtlWrite_step hfrozen]
        exact congrArg _ ((if_pos hi).trans (State.onWrite_dbgPage hi hw))
    · intro sp w
      exact ⟨fun hr v => congrArg _ ((if_pos hi).trans ((if_neg Bool.false_ne_true).trans ((State.onRead_mayRead hr).trans
          (peekRead_open hopen)))),
        fun hw v => congrArg _ ((if_pos hi).trans ((if_pos rfl).trans (State.onPeekWrite_open hi hopen hw)))⟩

end Sys2Proof.Machine
end

section
/-! PROOFS. Commands of the SMBus target and of the test access port (R476, R551, R555, R560, R561). -/
namespace Sys2Proof.Machine

variable {s : State}

/-- A block or word goes out on the SMBus while VIO12 is in range (R551). -/
theorem State.smb_on (hao : s.aoOn = true) (l : List Nat) : s.smb l = .next { s with out := s.out ++ [.smbus l] } := by
  rw [State.smb, if_pos hao]

theorem State.tapLoad_on (hao : s.aoOn = true) (f : State → State) : s.tapLoad f = .next (f s) := by
  rw [State.tapLoad, if_pos hao]

/-- A code of the maker selects a free scan while the secrets are cleared (R561). -/
theorem exec_privateScan_free {code : Nat} (hao : s.aoOn = true) (hlo : 0x80 ≤ code) (hhi : code ≤ 0xFE)
    (hcleared : bit (s.reg pSEC R.SEC_STS) 0 = true) :
    exec (.privateScan code) s =
      .next (s.fresh.2.modTap fun x => { x with ir := code, shift := Sys2Proof.Config.freeNat s.freeCtr }) := by
  show execPrivateScan _ s = _
  rw [execPrivateScan, State.tapLoad_on hao, if_pos ⟨hlo, hhi, hcleared⟩, State.fresh]

theorem exec_privateScan_zero {code : Nat} (hao : s.aoOn = true) (hcode : code < 256)
    (hclosed : code < 0x80 ∨ bit (s.reg pSEC R.SEC_STS) 0 = false) :
    exec (.privateScan code) s = .next (s.modTap fun x => { x with ir := code, shift := 0 }) := by
  have hnot : ¬ (0x80 ≤ code ∧ code ≤ 0xFE ∧ bit (s.reg pSEC R.SEC_STS) 0 = true) := by
    rintro ⟨hlo, -, hset⟩
    obtain hlt | hclear := hclosed
    · omega
    · exact Bool.false_ne_true (hclear.symm.trans hset)
  show execPrivateScan _ s = _
  rw [execPrivateScan, State.tapLoad_on hao, if_neg hnot, if_pos hcode]

/-- IDCODE and a test reset select the identification, BYPASS a zero bit. -/
theorem exec_tapCodes (hao : s.aoOn = true) :
    exec .idcode s = .next (s.modTap fun x => { x with ir := 0x01, shift := 0x16060A9B }) ∧
    exec .tapReset s = .next (s.modTap fun x => { x with ir := 0x01, shift := 0x16060A9B }) ∧
    exec .bypass s = .next (s.modTap fun x => { x with ir := 0xFF, shift := 0 }) := by
  refine ⟨?_, ?_, ?_⟩
  · show execIdcode s = _
    rw [execIdcode, State.tapLoad_on hao]
  · show execTapReset s = _
    rw [execTapReset, State.tapLoad_on hao]
  · show execBypass s = _
    rw [execBypass, State.tapLoad_on hao]

/-- The instructions that hold the pads do so before they load their code. -/
theorem exec_tapHolds (hao : s.aoOn = true) :
    exec .clamp s = .next (s.holdPads.modTap fun x => { x with ir := 0x04, shift := 0 }) ∧
    exec .highz s = .next (s.holdPads.modTap fun x => { x with ir := 0x05, shift := 0 }) ∧
    exec .samplePreload s = .next (s.boundaryScan 0x02) ∧ exec .extest s = .next (s.holdPads.boundaryScan 0x00) ∧
    exec .extestPulse s = .next (s.holdPads.boundaryScan 0x06) ∧ exec .extestTrain s = .next (s.holdPads.boundaryScan 0x07) := by
  refine ⟨?_, ?_, ?_, ?_, ?_, ?_⟩
  · show execClamp s = _
    rw [execClamp, State.tapLoad_on hao]
  · show execHighz s = _
    rw [execHighz, State.tapLoad_on hao]
  · show execSamplePreload s = _
    rw [execSamplePreload, State.tapLoad_on hao]
  · show execExtest s = _
    rw [execExtest, State.tapLoad_on hao]
  · show execExtestPulse s = _
    rw [execExtestPulse, State.tapLoad_on hao]
  · show execExtestTrain s = _
    rw [execExtestTrain, State.tapLoad_on hao]

end Sys2Proof.Machine

namespace Sys2Proof.Machine

/-- Settles O52: each command of the SMBus and of the test access port. The byte count that leads a block and the clock time-out
that changes nothing are log entry 99. -/
theorem smbusTapCommandsComplete : Obligations.SmbusTapCommandsComplete := by
  intro s hao sends tap
  have hsmb (l : List Nat) : s.smb l = sends l := State.smb_on hao l
  obtain ⟨hidcode, hreset, hbypass⟩ := exec_tapCodes hao
  obtain ⟨hclamp, hhighz, hsample, hextest, hpulse, htrain⟩ := exec_tapHolds hao
  refine ⟨hsmb _, hsmb _, hsmb _, hsmb _, hsmb _, hsmb _, hsmb _, hsmb _, fun hlog => ?empty, fun r l hlog => ?oldest, rfl,
    hidcode, hreset, hbypass, hclamp, hhighz, hsample, hextest, hpulse, htrain,
    fun code hlo hhi hcleared => exec_privateScan_free hao hlo hhi hcleared,
    fun code hcode hclosed => exec_privateScan_zero hao hcode hclosed⟩
  case empty =>
    show execReadErrorRecord s = _
    rw [execReadErrorRecord, hlog, hsmb]
  case oldest =>
    show execReadErrorRecord s = _
    rw [execReadErrorRecord, hlog, hsmb]

end Sys2Proof.Machine
end

section
/-! PROOFS. Event counters (R90, R281): an increment writes one counter and reads one counter. -/
namespace Sys2Proof.Machine

variable {s : State}

/-- A map read after a write, where what an absent entry reads as may differ from what the write takes for absent. -/
theorem sget_sset_default {α : Type} [DecidableEq α] {d d' v : α} {k j : Nat} {l : List (Nat × α)} (h : keysRise l = true) :
    sget d' (sset d l k v) j = if j = k then (if v = d then d' else v) else sget d' l j := by
  by_cases hj : j = k
  · subst hj
    by_cases hv : v = d
    · rw [if_pos rfl, if_pos hv, sset, if_pos hv, sget_sdel_same h]
    · rw [if_pos rfl, if_neg hv, sset, if_neg hv, sget_sput_same]
  · by_cases hv : v = d
    · rw [if_neg hj, sset, if_pos hv, sget_sdel_other hj h]
    · rw [if_neg hj, sset, if_neg hv, sget_sput_other hj h]

/-- The page of a signal target's counters: the step controller's, or that of the tile's site. -/
def State.ctrPage (s : State) (target : Nat) : Nat := if target = 0x700 then pSTP else s.siteOf target

/-- The offset of counter c there. -/
def ctrOff (target c : Nat) : Nat := (if target = 0x700 then R.STP_EVC else R.TIL_EVC) + 4 * (c % 16)

theorem State.ctr_eq (target c : Nat) : s.ctr target c = s.reg (s.ctrPage target) (ctrOff target c) := by
  unfold State.ctr State.ctrPage ctrOff
  split
  · rfl
  · rfl

theorem State.addCtr_eq {target : Nat} (c inc : Nat) (ht : isTarget target = true) :
    s.addCtr target c inc = s.setReg (s.ctrPage target) (ctrOff target c) (s.ctr target c + inc) := by
  unfold State.addCtr State.ctr State.ctrPage ctrOff
  split
  · rfl
  · next hne =>
    have htile : isTile target = true := by
      rw [isTarget, Bool.or_eq_true, beq_iff_eq] at ht
      exact ht.resolve_right hne
    rw [if_pos htile]
    rfl

theorem State.siteOf_lt {t : Nat} (ht : isTile t = true) : s.siteOf t < 0x600 := by
  rw [isTile, Bool.and_eq_true, decide_eq_true_eq, decide_eq_true_eq] at ht
  obtain ⟨hd, -⟩ := ht
  rw [State.siteOf]
  split
  · omega
  · omega

/-- The spare map is read of the districts' pages, and no counter stands there. -/
theorem State.ctrPage_setReg {p off v target : Nat} (hk : keysRise s.regs = true) (htarget : isTarget target = true)
    (hp : p < 0x600 ∨ p = pSTP) (hoff : off < 0x1000) : (s.setReg p off v).ctrPage target = s.ctrPage target := by
  unfold State.ctrPage
  split
  · rfl
  · next hne =>
    have htile : isTile target = true := by
      rw [isTarget, Bool.or_eq_true, beq_iff_eq] at htarget
      exact htarget.resolve_right hne
    rw [isTile, Bool.and_eq_true, decide_eq_true_eq, decide_eq_true_eq] at htile
    obtain ⟨hd, -⟩ := htile
    have hspare : (s.setReg p off v).spareEntry (target / 256) (target % 16) = s.spareEntry (target / 256) (target % 16) :=
      State.reg_setReg_other (q := pDST (target / 256)) (o := R.DST_SPARE_MAP + 4 * (target % 16)) s hk (by
        simp only [pDST, pSTP, R.DST_SPARE_MAP] at hp ⊢
        omega)
    simp only [State.siteOf, hspare]

theorem State.ctrPage_cases {target : Nat} (ht : isTarget target = true) :
    s.ctrPage target < 0x600 ∨ s.ctrPage target = pSTP := by
  unfold State.ctrPage
  split
  · exact .inr rfl
  · next hne =>
    rw [isTarget, Bool.or_eq_true, beq_iff_eq] at ht
    exact .inl (State.siteOf_lt (ht.resolve_right hne))

theorem ctrOff_lt (target c : Nat) : ctrOff target c < 0x1000 := by
  simp only [ctrOff, R.STP_EVC, R.TIL_EVC]
  split
  · omega
  · omega

theorem ctrOff_div (target c : Nat) : ctrOff target c / 4 = (if target = 0x700 then R.STP_EVC else R.TIL_EVC) / 4 + c % 16 := by
  simp only [ctrOff, R.STP_EVC, R.TIL_EVC]
  split
  · omega
  · omega

/-- Every counter of a target reads, after an increment of one of them, as that one counter has changed. -/
theorem State.ctr_addCtr {target target' c c' inc : Nat} (hk : keysRise s.regs = true) (ht : isTarget target = true)
    (ht' : isTarget target' = true) :
    (s.addCtr target c inc).ctr target' c' =
      (s.setReg (s.ctrPage target) (ctrOff target c) (s.ctr target c + inc)).reg (s.ctrPage target') (ctrOff target' c') := by
  rw [State.ctr_eq, State.addCtr_eq c inc ht, State.ctrPage_setReg hk ht' (State.ctrPage_cases ht) (ctrOff_lt _ _)]

theorem State.ctr_addCtr_same {target c inc : Nat} (hk : keysRise s.regs = true) (ht : isTarget target = true) :
    (s.addCtr target c inc).ctr target c = (s.ctr target c + inc) % 2 ^ 32 := by
  rw [State.ctr_addCtr hk ht ht, State.reg_setReg_same s hk]

theorem State.ctr_addCtr_other {target target' c c' inc : Nat} (hk : keysRise s.regs = true) (ht : isTarget target = true)
    (ht' : isTarget target' = true) (hne : s.ctrPage target' ≠ s.ctrPage target ∨ ctrOff target' c' / 4 ≠ ctrOff target c / 4) :
    (s.addCtr target c inc).ctr target' c' = s.ctr target' c' := by
  have hlt := ctrOff_lt target c
  have hlt' := ctrOff_lt target' c'
  rw [State.ctr_addCtr hk ht ht', State.reg_setReg_other s hk (by omega), ← State.ctr_eq]

/-- Two counters stand in different registers. -/
theorem State.ctr_apart {target target' c c' : Nat} (ht : isTarget target = true) (ht' : isTarget target' = true)
    (hne : target' ≠ target ∨ c' % 16 ≠ c % 16)
    (hsites : target' ≠ 0x700 → target ≠ 0x700 → s.siteOf target' = s.siteOf target → target' = target) :
    s.ctrPage target' ≠ s.ctrPage target ∨ ctrOff target' c' / 4 ≠ ctrOff target c / 4 := by
  by_cases hsame : target' = target
  · subst hsame
    refine .inr ?_
    rw [ctrOff_div, ctrOff_div]
    omega
  · refine .inl ?_
    have hstep : s.ctrPage 0x700 = pSTP := if_pos rfl
    have hsite {u : Nat} (hu : u ≠ 0x700) : s.ctrPage u = s.siteOf u := if_neg hu
    have hlow {u : Nat} (hu : isTarget u = true) (hne : u ≠ 0x700) : s.siteOf u ≠ pSTP := by
      rw [isTarget, Bool.or_eq_true, beq_iff_eq] at hu
      exact Nat.ne_of_lt (Nat.lt_trans (State.siteOf_lt (hu.resolve_right hne)) (by decide))
    by_cases h1 : target' = 0x700
    · have h2 : target ≠ 0x700 := fun h2 => hsame (h1.trans h2.symm)
      rw [h1, hstep, hsite h2]
      exact (hlow ht h2).symm
    · by_cases h2 : target = 0x700
      · rw [h2, hstep, hsite h1]
        exact hlow ht' h1
      · rw [hsite h1, hsite h2]
        exact fun h => hsame (hsites h1 h2 h)

/-- What a register reads after a write v of the register (p, off), at its own offset or at another that falls into its word. -/
def readBack (p off q o v : Nat) : Nat :=
  (if BitVec.ofNat 32 v = BitVec.ofNat 32 (regReset p off) then BitVec.ofNat 32 (regReset q o) else BitVec.ofNat 32 v).toNat

theorem readBack_congr {p off q o v v' : Nat} (h : v % 2 ^ 32 = v' % 2 ^ 32) : readBack p off q o v = readBack p off q o v' := by
  have hword : BitVec.ofNat 32 v = BitVec.ofNat 32 v' := BitVec.eq_of_toNat_eq h
  rw [readBack, hword, readBack]

theorem State.reg_setReg {p off v q o : Nat} (hk : keysRise s.regs = true) :
    (s.setReg p off v).reg q o = if q * 1024 + o / 4 = p * 1024 + off / 4 then readBack p off q o v else s.reg q o := by
  show (sget _ (sset _ s.regs _ _) _).toNat = _
  rw [sget_sset_default hk]
  split
  · rfl
  · rfl

/-- Two increments of one target's counters have one effect in either order. -/
theorem State.reg_addCtr_comm {target c c' inc inc' : Nat} (hk : keysRise s.regs = true) (ht : isTarget target = true) (p o : Nat) :
    ((s.addCtr target c inc).addCtr target c' inc').reg p o = ((s.addCtr target c' inc').addCtr target c inc).reg p o := by
  have hpage (c inc : Nat) : (s.addCtr target c inc).ctrPage target = s.ctrPage target := by
    rw [State.addCtr_eq c inc ht, State.ctrPage_setReg hk ht (State.ctrPage_cases ht) (ctrOff_lt _ _)]
  have hrise (c inc : Nat) : keysRise (s.addCtr target c inc).regs = true := by
    rw [State.addCtr_eq c inc ht]
    exact keysRise_sset hk
  have hread (c inc : Nat) : (s.addCtr target c inc).reg p o =
      if p * 1024 + o / 4 = s.ctrPage target * 1024 + ctrOff target c / 4 then
        readBack (s.ctrPage target) (ctrOff target c) p o (s.ctr target c + inc) else s.reg p o := by
    rw [State.addCtr_eq c inc ht, State.reg_setReg hk]
  rw [State.addCtr_eq c' inc' ht, State.addCtr_eq (s := s.addCtr target c' inc') c inc ht, hpage, hpage, State.reg_setReg (hrise _ _),
    State.reg_setReg (hrise _ _), hread, hread]
  by_cases hsame : c' % 16 = c % 16
  · have hoff : ctrOff target c' = ctrOff target c := by rw [ctrOff, ctrOff, hsame]
    have hctr (u : State) : u.ctr target c' = u.ctr target c := by rw [State.ctr_eq, State.ctr_eq, hoff]
    rw [hoff, hctr, State.ctr_addCtr_same hk ht, ← hctr (s.addCtr target c' inc'), State.ctr_addCtr_same hk ht, hctr]
    split
    · exact readBack_congr (by omega)
    · rfl
  · have hdiv : ctrOff target c' / 4 ≠ ctrOff target c / 4 := by
      rw [ctrOff_div, ctrOff_div]
      omega
    rw [State.ctr_addCtr_other hk ht ht (.inr hdiv), State.ctr_addCtr_other hk ht ht (.inr hdiv.symm)]
    split
    · next h1 =>
      split
      · omega
      · rfl
    · rfl

end Sys2Proof.Machine

namespace Sys2Proof.Machine

/-- Settles O24: an increment modulo 2^32, the counters it leaves, the order of two, and the wait rule (R90; the modulus of the wait
is 2^16). -/
theorem eventCounters : Obligations.EventCounters := by
  refine ⟨fun s target c inc hcanon ht => ?_, fun ctr v hv => ?_⟩
  · have hk : keysRise s.regs = true := State.keysRise_regs hcanon
    exact ⟨State.ctr_addCtr_same hk ht,
      fun target' c' ht' hne hsites => State.ctr_addCtr_other hk ht ht' (State.ctr_apart ht ht' hne hsites),
      fun c' inc' p => funext fun o => State.reg_addCtr_comm hk ht p o⟩
  · rw [waitMet, decide_eq_true_eq]
    omega

end Sys2Proof.Machine
end

section
/-! PROOFS. Isolation of partitions (R448, R467): what grants an access of a port or of a device-side block. -/
namespace Sys2Proof.Machine

variable {s : State} {h p page off : Nat} {wr : Bool}

/-- A port's granted access is one that the port is not refused. -/
theorem State.portRefusal_of_granted (hg : s.judge (.port h) page off wr = .granted) : s.portRefusal h page off wr = none := by
  unfold State.judge at hg
  dsimp only at hg
  split at hg
  · cases hg
  · split at hg
    · cases hg
    · split at hg
      · cases hg
      · split at hg
        · cases hg
        · split at hg
          · cases hg
          · next hnone => exact hnone

/-- A block's granted access is one of a page that it may name. -/
theorem State.deviceNames_of_granted (hg : s.judge (.device p) page off wr = .granted) : s.deviceNames p page wr = true := by
  unfold State.judge at hg
  dsimp only at hg
  split at hg
  · cases hg
  · split at hg
    · cases hg
    · next hnames => exact Bool.not_eq_false _ ▸ hnames

/-- No access of a port is granted that the port is refused. -/
theorem not_granted_of_refusal (hr : s.portRefusal h page off wr ≠ none) : (s.judge (.port h) page off wr == .granted) = false :=
  beq_false_of_ne fun hg => hr (State.portRefusal_of_granted hg)

/-- A page of another partition is refused to a port that is neither the admin port nor a feeder of the page. -/
theorem State.portRefusal_other (hbar : isBar2 page = false) (hadmin : h ≠ s.adminPort) (hfeeds : s.feeds h page = false)
    (hpart : s.pagePart page < 6) (hother : s.pagePart page ≠ s.portPart h) (hrec : s.recovery = false ∨ page ≠ pSEC)
    (howner : wr = true ∨ off ≠ R.PAGE_OWNER) : s.portRefusal h page off wr ≠ none := by
  have hmine : (s.pagePart page == s.portPart h) = false := beq_false_of_ne hother
  have hmodule : (s.pagePart page == 7) = false := beq_false_of_ne (by omega)
  have hsec : (s.recovery && page == pSEC && off == R.SEC_IMG_CTL) = false := by
    obtain hrun | hpage := hrec
    · rw [hrun]; rfl
    · rw [beq_false_of_ne hpage, Bool.and_false, Bool.false_and]
  have hread : (off == R.PAGE_OWNER && !wr) = false := by
    obtain hw | hoff := howner
    · rw [hw, Bool.not_true, Bool.and_false]
    · rw [beq_false_of_ne hoff, Bool.false_and]
  unfold State.portRefusal
  simp only [hbar, hfeeds, hmine, hmodule, hsec, hread, beq_false_of_ne hadmin, Bool.and_false, Bool.false_and, Bool.false_eq_true,
    if_false]
  split
  · nofun
  · split
    · nofun
    · nofun

/-- A write of a page is refused to a port that owns no partition and is neither the admin port nor a feeder of the page. -/
theorem State.portRefusal_none (hbar : isBar2 page = false) (hadmin : h ≠ s.adminPort) (hnone : s.portPart h = 7)
    (hfeeds : s.feeds h page = false) (hrec : s.recovery = false) : s.portRefusal h page off true ≠ none := by
  have hmine : (decide (s.pagePart page < 6) && s.pagePart page == 7) = false := by
    rw [Bool.and_eq_false_iff, decide_eq_false_iff_not, beq_eq_false_iff_ne]
    omega
  unfold State.portRefusal
  simp only [hbar, hfeeds, hnone, hmine, hrec, beq_false_of_ne hadmin, Bool.and_false, Bool.false_and, Bool.false_eq_true, Bool.not_true,
    if_false, Nat.reduceLT, decide_false]
  split
  · nofun
  · split
    · nofun
    · nofun

end Sys2Proof.Machine

namespace Sys2Proof.Machine

/-- Settles O23: what a port reaches of other partitions' pages, of the module's, and what a device-side block reaches (R448, R467),
by the refusals of the judge. -/
theorem partitionIsolation : Obligations.PartitionIsolation := by
  intro s page off hbar
  refine ⟨fun h hadmin hfeeds hpart hother hrec => ⟨?_, fun hoff => ?_⟩, fun h hadmin hnone hfeeds hrec => ?_,
    fun p hp hpage => ⟨?_, fun htim herr => ?_⟩⟩
  · exact not_granted_of_refusal (State.portRefusal_other hbar hadmin hfeeds hpart hother hrec (.inl rfl))
  · exact not_granted_of_refusal (State.portRefusal_other hbar hadmin hfeeds hpart hother hrec (.inr hoff))
  · exact not_granted_of_refusal (State.portRefusal_none hbar hadmin hnone hfeeds hrec)
  · refine beq_false_of_ne fun hg => ?_
    have hnames := State.deviceNames_of_granted hg
    simp only [State.deviceNames, beq_false_of_ne hpage, Bool.not_true, Bool.and_false, Bool.false_and, Bool.or_self,
      Bool.false_eq_true] at hnames
  · refine beq_false_of_ne fun hg => ?_
    have hnames := State.deviceNames_of_granted hg
    simp only [State.deviceNames, beq_false_of_ne hpage, beq_false_of_ne htim, beq_false_of_ne herr, Bool.and_false, Bool.or_self,
      Bool.false_eq_true] at hnames

end Sys2Proof.Machine
end

section
/-! PROOFS. Refused accesses of ports (R448, R477). -/
namespace Sys2Proof.Machine

variable {s : State} {h page off r : Nat}

theorem State.onWrite_denied {act : State → State} (hbar : isBar2 page = false) (hj : s.judge (.port h) page off true = .denied h r) :
    s.onWrite (.port h) page off act = s.deny h page r := by
  simp only [State.onWrite, hj, hbar, Bool.false_eq_true, if_false]

/-- A refused write of a register that no rule on partition registers, keys or debugging governs. -/
theorem State.wordWrite_denied {v : Nat} (hbar : isBar2 page = false) (hprt : prtGoverned page off v = none) (hsec : page ≠ pSEC)
    (hdbg : ∀ i, pageBlk page ≠ some (.dbg, i)) (hj : s.judge (.port h) page off true = .denied h r) :
    s.wordWrite (.port h) page off v = s.deny h page r := by
  rw [State.wordWrite, hprt]
  dsimp only
  rw [if_neg (fun hc => hsec hc.1), if_neg (fun hc => hsec hc.1)]
  split
  · simp only [State.onlyDeny, hj, hbar, Bool.false_eq_true, if_false]
  · split
    · next i he => exact absurd he (hdbg i)
    · exact State.onWrite_denied hbar hj

theorem State.wordRead_denied (hbar : isBar2 page = false) (hj : s.judge (.port h) page off false = .denied h r) :
    s.wordRead (.port h) page off = (s.deny h page r).reply [0xFFFFFFFF] := by
  simp only [State.wordRead, State.onRead, hj, hbar, Bool.false_eq_true, if_false]

/-- A refused word's read answers all ones after the refusal is counted. -/
theorem exec_rcRead_denied (halign : off % 4 = 0) (hoff : off < 0x1000) (hbar : isBar2 page = false)
    (hj : s.judge (.port h) page off false = .denied h r) :
    exec (.rcRead (.port h) page off 4) s = .next (((s.reply []).deny h page r).reply [0xFFFFFFFF]) := by
  have hj' : (s.reply []).judge (.port h) page off false = .denied h r := hj
  rw [exec_rcRead_word halign hoff, State.wordRead_denied hbar hj']
  rfl

/-! ### What the refusal itself changes -/

/-- With tracing off the notice of an event is the event set. -/
theorem State.notice_untraced {p e info : Nat} (hs : s.untraced) : s.notice p e info = s.setEvt p e := by
  obtain ⟨-, -, -, ht⟩ := (Logs.setEvt s p e).quiet hs
  exact if_neg (Bool.eq_false_iff.mp ht.2)

/-- The state in which a refusal raises ACCESS_DENIED. -/
def State.denyNoted (s : State) (h page r : Nat) : State :=
  (s.bump (pHPT h) R.HPT_DENY_COUNT 1).setReg (pHPT h) R.HPT_DENY_INFO (page % 2 ^ 14 + r * 2 ^ 16)

theorem State.deny_eq (s : State) (h page r : Nat) : s.deny h page r = (s.denyNoted h page r).notice (pHPT h) 2 := rfl

theorem State.keysRise_denyNoted (hk : keysRise s.regs = true) : keysRise (s.denyNoted h page r).regs = true :=
  keysRise_sset (keysRise_sset hk)

theorem State.canon_pHPT (h : Nat) : s.canon (pHPT h) = pHPT h := if_neg (by simp only [pHPT]; omega)

/-- The count of refusals sticks at its largest value. -/
theorem State.reg_deny_count (hk : keysRise s.regs = true) (hh : h < 8) :
    (s.deny h page r).reg (pHPT h) R.HPT_DENY_COUNT = min (s.reg (pHPT h) R.HPT_DENY_COUNT + 1) (2 ^ 32 - 1) := by
  rw [State.deny_eq, (State.notice_spec _ _ _ _).reg (State.keysRise_denyNoted hk), State.denyNoted,
    State.reg_setReg_other _ (keysRise_sset hk), State.bump, State.reg_setReg_same s hk, stick]
  · omega
  · simp only [R.HPT_DENY_COUNT, R.HPT_DENY_INFO]; omega
  · intro k hk8
    simp only [pHPT, R.HPT_DENY_COUNT, R.HPT_IRQ_DROP]; omega
  · rw [State.canon_pHPT]
    simp only [R.HPT_DENY_COUNT, R.EVT_STS]; omega
  · simp only [pHPT, pDBGM, R.HPT_DENY_COUNT, R.DBG_TRACE_HEAD]; omega

theorem State.reg_deny_info (hk : keysRise s.regs = true) (hr : r < 8) :
    (s.deny h page r).reg (pHPT h) R.HPT_DENY_INFO = page % 2 ^ 14 + r * 2 ^ 16 := by
  rw [State.deny_eq, (State.notice_spec _ _ _ _).reg (State.keysRise_denyNoted hk), State.denyNoted,
    State.reg_setReg_same _ (keysRise_sset hk)]
  · omega
  · intro k hk8
    simp only [pHPT, R.HPT_DENY_INFO, R.HPT_IRQ_DROP]; omega
  · rw [State.canon_pHPT]
    simp only [R.HPT_DENY_INFO, R.EVT_STS]; omega
  · simp only [pHPT, pDBGM, R.HPT_DENY_INFO, R.DBG_TRACE_HEAD]; omega

theorem State.bit_deny_event (hk : keysRise s.regs = true) : bit ((s.deny h page r).reg (pHPT h) R.EVT_STS) 2 = true := by
  have hset := (State.notice_spec (s.denyNoted h page r) (pHPT h) 2 0).sts (State.keysRise_denyNoted hk) (by decide)
  rw [State.canon_pHPT] at hset
  exact hset

theorem State.denyNoted_logs (s : State) (h page r : Nat) : Logs s (s.denyNoted h page r) := by
  have hcount : Logs s (s.bump (pHPT h) R.HPT_DENY_COUNT 1) :=
    Logs.setReg (by simp only [pHPT, pDBGM, R.HPT_DENY_COUNT, R.DBG_TRACE_CTL]; omega)
  exact hcount.trans (Logs.setReg (by simp only [pHPT, pDBGM, R.HPT_DENY_INFO, R.DBG_TRACE_CTL]; omega))

/-- A refusal writes its port's page, and nothing else that an access could touch, while tracing is off. -/
theorem State.deny_frame (hs : s.untraced) :
    (s.deny h page r).mem = s.mem ∧ (s.deny h page r).tiles = s.tiles ∧ (s.deny h page r).log = s.log := by
  have hdenied : Logs s (s.deny h page r) := (State.denyNoted_logs s h page r).trans (Logs.notice _ _ _ _)
  refine ⟨(hdenied.quiet hs).1, hdenied.tiles, ?_⟩
  rw [State.deny_eq, (State.notice_spec _ _ _ _).only]
  rfl

theorem State.reg_deny_other {p o : Nat} (hs : s.untraced) (hh : h < 8) (ho : o < 0x1000) (hp : ∀ k, k < 8 → p ≠ pHPT k) :
    (s.deny h page r).reg p o = s.reg p o := by
  have hpage := hp h hh
  obtain ⟨-, -, -, ht⟩ := (State.denyNoted_logs s h page r).quiet hs
  obtain ⟨-, hset⟩ := State.setEvt_spec (s.denyNoted h page r) (pHPT h) 2
  obtain ⟨-, -, hother⟩ := hset (State.keysRise_denyNoted hs.1)
  rw [State.deny_eq, State.notice_untraced ht, hother, State.denyNoted, State.reg_setReg_other _ (keysRise_sset hs.1), State.bump,
    State.reg_setReg_other _ hs.1]
  · simp only [R.HPT_DENY_COUNT]; omega
  · simp only [R.HPT_DENY_INFO]; omega
  · intro k hk8
    have := hp k hk8
    simp only [R.HPT_IRQ_DROP]; omega
  · rw [State.canon_pHPT]
    simp only [R.EVT_STS]; omega

end Sys2Proof.Machine

namespace Sys2Proof.Machine

/-- Settles O22: a port's refused access is counted and recorded and raises ACCESS_DENIED (R448, R477), and with tracing off memory,
the tiles, the log and the registers outside the ports' pages stay. -/
theorem refusedAccess : Obligations.RefusedAccess := by
  intro s h page off v r hcanon halign hoff hbar
  have hk : keysRise s.regs = true := State.keysRise_regs hcanon
  refine ⟨fun hprt hsec hdbg hv hj => ?_, fun hj => exec_rcRead_denied halign hoff hbar hj, fun hh hr => ?_⟩
  · rw [exec_registerWrite_word halign hoff hv, State.wordWrite_denied hbar hprt hsec hdbg hj]
  · intro t
    refine ⟨State.reg_deny_count hk hh, State.reg_deny_info hk hr, State.bit_deny_event hk, fun htrace => ?_⟩
    obtain ⟨hmem, htiles, hlog⟩ := State.deny_frame (h := h) (page := page) (r := r) ⟨hk, htrace⟩
    exact ⟨hmem, htiles, hlog, fun p o ho hp => State.reg_deny_other ⟨hk, htrace⟩ hh ho hp⟩

end Sys2Proof.Machine
end

section
/-! PROOFS. Registers without behaviour of their own (R14, R450). -/
namespace Sys2Proof.Machine

variable {s : State} {src : Src} {page off v i : Nat} {b : Blk} {r : RegRow}

/-- The blocks whose registers behind the header only store. -/
def isPlainBlk (b : Blk) : Prop := b = .sqr ∨ b = .cur ∨ b = .ing ∨ b = .upd ∨ b = .mde ∨ b = .tim

/-- The pages below 0x600 are the tiles'. -/
theorem pageBlk_of_lt (h : page < 0x600) (hb : pageBlk page = some (b, i)) : b = .til := by
  unfold pageBlk at hb
  rw [if_pos h] at hb
  split at hb
  · exact (Prod.ext_iff.mp (Option.some.inj hb)).1.symm
  · cases hb

theorem State.canon_of_not_tile (hb : pageBlk page = some (b, i)) (htil : b ≠ .til) : s.canon page = page :=
  if_neg fun hlt => htil (pageBlk_of_lt hlt hb)

/-- Bit k of what a register holds after a write, by the bit's access type. -/
theorem RegRow.testBit_stored (old k : Nat) : (r.stored old v).testBit k =
    if r.rw.testBit k then v.testBit k else if r.w1c.testBit k && v.testBit k then false else old.testBit k := by
  simp only [RegRow.stored, without, Nat.testBit_or, Nat.testBit_xor, Nat.testBit_and]
  cases r.rw.testBit k with
  | true => simp only [Bool.and_true, bne_self_eq_false, Bool.false_and, Bool.false_or, if_true]
  | false =>
    simp only [Bool.and_false, Bool.bne_false, Bool.or_false, Bool.false_eq_true, if_false]
    cases r.w1c.testBit k && v.testBit k with
    | true => simp only [Bool.and_true, bne_self_eq_false, if_true]
    | false => simp only [Bool.and_false, Bool.bne_false, Bool.false_eq_true, if_false]

theorem regWrite_plain (hb : pageBlk page = some (b, i)) (hplain : isPlainBlk b) (hlo : 0x40 ≤ off) :
    regWrite src page off v s = plainWrite page off v s := by
  have hheader : ¬ (off < 0x40 ∧ isBar2 page = false) := fun h => Nat.not_lt_of_le hlo h.1
  simp only [regWrite, hb, if_neg hheader]
  rcases hplain with rfl | rfl | rfl | rfl | rfl | rfl
  all_goals rfl

theorem prtGoverned_plain (hb : pageBlk page = some (b, i)) (hplain : isPlainBlk b) (hlo : 0x40 ≤ off) :
    prtGoverned page off v = none := by
  have howner : off ≠ R.PAGE_OWNER := Nat.ne_of_gt (Nat.lt_of_lt_of_le (by decide) hlo)
  have hprt : b ≠ .prt ∧ b ≠ .prtp := by
    rcases hplain with rfl | rfl | rfl | rfl | rfl | rfl
    all_goals exact ⟨nofun, nofun⟩
  simp only [prtGoverned, hb, howner, hprt.1, hprt.2, false_and, if_false, ite_self]

theorem noRegister_plain (hb : pageBlk page = some (b, i)) (hplain : isPlainBlk b) (hr : findRow b off = some r) :
    noRegister page off = false := by
  have hother : b ≠ .pba ∧ b ≠ .dbg := by
    rcases hplain with rfl | rfl | rfl | rfl | rfl | rfl
    all_goals exact ⟨nofun, nofun⟩
  simp only [noRegister, hb, hr, hother.1, beq_false_of_ne hother.2, Option.isNone_some, Bool.false_and, Bool.or_self, if_false, ite_self]

/-- A granted write of a plain register stores its row's bits. -/
theorem exec_registerWrite_plain (hb : pageBlk page = some (b, i)) (hplain : isPlainBlk b) (hr : findRow b off = some r)
    (hlo : 0x40 ≤ off) (hhi : off < 0x1000) (halign : off % 4 = 0) (hv : v < 2 ^ 32) (hw : s.mayWrite src page off = true) :
    exec (.registerWrite src page off 4 v) s = .next (s.setReg page off (r.stored (s.reg page off) v)) := by
  have hother : b ≠ .til ∧ b ≠ .sec ∧ b ≠ .dbg := by
    rcases hplain with rfl | rfl | rfl | rfl | rfl | rfl
    all_goals exact ⟨nofun, nofun, nofun⟩
  obtain ⟨htil, hsec, hdbg⟩ := hother
  have hblk {c : Blk} {j : Nat} (hc : pageBlk page = some (c, j)) : b = c := (Prod.ext_iff.mp (Option.some.inj (hb.symm.trans hc))).1
  have hkey : ¬ (page = pSEC ∧ (off = R.SEC_KEY_CMD ∨ off = R.SEC_LINK_CMD)) := by
    rintro ⟨rfl, -⟩
    exact hsec (hblk rfl)
  rw [exec_registerWrite_word halign hhi hv, State.wordWrite_mayWrite (prtGoverned_plain hb hplain hlo) hkey
    (noRegister_plain hb hplain hr) (fun j hj => hdbg (hblk hj)) hw, regWrite_plain hb hplain hlo, plainWrite_eq hb hr,
    State.canon_of_not_tile hb htil]

end Sys2Proof.Machine

namespace Sys2Proof.Machine

/-- Settles O21: RW bits as written, W1C bits cleared by ones, and nothing else (R450). -/
theorem plainRegisters : Obligations.PlainRegisters := by
  intro s src page off v b i r hcanon hb hplain hr hlo hhi halign hv hw
  have hk : keysRise s.regs = true := State.keysRise_regs hcanon
  refine ⟨_, exec_registerWrite_plain hb hplain hr hlo hhi halign hv hw, fun k hk32 => ?_, fun page' off' hoff' hne => ?_,
    rfl, rfl, rfl, rfl⟩
  · rw [State.reg_setReg_same s hk, Nat.testBit_mod_two_pow, decide_eq_true hk32, Bool.true_and, RegRow.testBit_stored]
  · exact State.reg_setReg_other s hk (by omega)

end Sys2Proof.Machine
end

section
/-! PROOFS. The round of a crossing (R322, R323): the least of the eligible head requests, and its grant. -/
namespace Sys2Proof.Machine

variable {s : State} {i server : Nat}

/-! ### The least of a list -/

/-- Request b goes before r or ties with it: by effective deadline, then by requester (R323). -/
def State.NoLater (s : State) (i : Nat) (b r : CrsReq) : Prop :=
  s.effective i b ≤ s.effective i r ∧ (s.effective i r = s.effective i b → b.requester ≤ r.requester)

theorem State.NoLater.refl (s : State) (i : Nat) (b : CrsReq) : s.NoLater i b b := ⟨Nat.le_refl _, fun _ => Nat.le_refl _⟩

theorem State.NoLater.trans {a b c : CrsReq} (hab : s.NoLater i a b) (hbc : s.NoLater i b c) : s.NoLater i a c := by
  obtain ⟨h1, h2⟩ := hab
  obtain ⟨h3, h4⟩ := hbc
  exact ⟨Nat.le_trans h1 h3, fun he => Nat.le_trans (h2 (by omega)) (h4 (by omega))⟩

/-- A fold that keeps the better of what it holds and what it meets holds a least one in the end. -/
theorem foldl_least {f : Option CrsReq → CrsReq → Option CrsReq}
    (hsome : ∀ b r, f (some b) r = if s.effective i r < s.effective i b ∨
      (s.effective i r = s.effective i b ∧ r.requester < b.requester) then some r else some b) (l : List CrsReq) :
    ∀ b, ∃ c, l.foldl f (some b) = some c ∧ c ∈ b :: l ∧ ∀ r ∈ b :: l, s.NoLater i c r := by
  induction l with
  | nil => exact fun b => ⟨b, rfl, List.mem_singleton_self b, fun r hr => List.mem_singleton.mp hr ▸ State.NoLater.refl s i b⟩
  | cons r l ih =>
    intro b
    rw [List.foldl_cons, hsome]
    split
    · next hbetter =>
      obtain ⟨c, hc, hmem, hleast⟩ := ih r
      refine ⟨c, hc, List.mem_cons_of_mem b hmem, fun x hx => ?_⟩
      obtain rfl | hx := List.mem_cons.mp hx
      · exact (hleast r List.mem_cons_self).trans ⟨by omega, fun he => by omega⟩
      · exact hleast x hx
    · next hworse =>
      obtain ⟨c, hc, hmem, hleast⟩ := ih b
      refine ⟨c, hc, ?_, fun x hx => ?_⟩
      · obtain rfl | hmem := List.mem_cons.mp hmem
        · exact List.mem_cons_self
        · exact List.mem_cons_of_mem _ (List.mem_cons_of_mem _ hmem)
      · obtain rfl | hx := List.mem_cons.mp hx
        · exact hleast x List.mem_cons_self
        · obtain rfl | hx := List.mem_cons.mp hx
          · exact (hleast b List.mem_cons_self).trans ⟨by omega, fun he => by omega⟩
          · exact hleast x (List.mem_cons_of_mem _ hx)

/-! ### The choice of a round -/

/-- A head request that may be granted at the server (R323, R325). -/
def State.Eligible (s : State) (i server : Nat) (r : CrsReq) : Prop :=
  r ∈ s.heads i ∧ s.crsNames i r server = true ∧ s.crsMasked i r = false

theorem State.mem_eligible {r : CrsReq} :
    r ∈ ((s.heads i).filter fun r => s.crsNames i r server && !s.crsMasked i r) ↔ s.Eligible i server r := by
  rw [List.mem_filter, Bool.and_eq_true, Bool.not_eq_true', State.Eligible]

/-- The better of what a round holds and the request it meets. -/
def State.better (s : State) (i : Nat) (best : Option CrsReq) (r : CrsReq) : Option CrsReq :=
  match best with
  | none => some r
  | some b =>
    if s.effective i r < s.effective i b ∨ (s.effective i r = s.effective i b ∧ r.requester < b.requester) then some r else some b

theorem State.crsBest_eq (s : State) (i server : Nat) :
    s.crsBest i server = ((s.heads i).filter fun r => s.crsNames i r server && !s.crsMasked i r).foldl (s.better i) none := rfl

theorem State.crsBest_spec (s : State) (i server : Nat) :
    (s.crsBest i server = none ∧ ∀ r, ¬ s.Eligible i server r) ∨
    ∃ b, s.crsBest i server = some b ∧ s.Eligible i server b ∧ ∀ r, s.Eligible i server r → s.NoLater i b r := by
  have hmem (r : CrsReq) := State.mem_eligible (s := s) (i := i) (server := server) (r := r)
  rw [State.crsBest_eq]
  cases hl : (s.heads i).filter fun r => s.crsNames i r server && !s.crsMasked i r with
  | nil =>
    rw [hl] at hmem
    exact .inl ⟨rfl, fun r hr => List.not_mem_nil ((hmem r).mpr hr)⟩
  | cons r l =>
    rw [hl] at hmem
    obtain ⟨b, hb, hin, hleast⟩ := foldl_least (s := s) (i := i) (f := s.better i) (fun _ _ => rfl) l r
    exact .inr ⟨b, hb, (hmem b).mp hin, fun x hx => hleast x ((hmem x).mpr hx)⟩

/-! ### Counting a masked request changes no choice -/

variable {t : State}

theorem crsServers_le (i : Nat) : crsServers i ≤ 48 := by
  unfold crsServers
  repeat' split
  all_goals decide

theorem State.freeServers_word60 (h : BarWord60 s t) : t.freeServers i = s.freeServers i := by
  have hcrs : t.crs i = s.crs i := by rw [h.only]; rfl
  have hport (k : Nat) : t.port k = s.port k := by rw [h.only]; rfl
  refine List.filter_congr fun v hv => ?_
  have hv := List.mem_range.mp hv
  have hopen : t.serverOpen i v = s.serverOpen i v := by
    unfold State.serverOpen
    by_cases h32 : i < 32
    · rw [if_pos h32, if_pos h32]
      exact h.blockRuns _
    · rw [if_neg h32, if_neg h32]
      by_cases h40 : i < 40
      · rw [if_pos h40, if_pos h40, h.blockRuns, h.reg _ _ (by decide), hport]
      · rw [if_neg h40, if_neg h40]
        by_cases h43 : i < 43
        · have hcores : v < 48 := Nat.lt_of_lt_of_le hv (crsServers_le i)
          rw [if_pos h43, if_pos h43]
          dsimp only
          rw [h.blockRuns, h.reg _ _ (by decide), h.reg _ _ (by simp only [R.MDE_CORE_DIS_LO]; omega)]
        · rw [if_neg h43, if_neg h43, h.blockRuns, h.reg _ _ (by decide)]
  rw [hopen, hcrs]

/-- The choice of a round reads no word 0x060. -/
theorem State.crsBest_word60 (h : BarWord60 s t) : t.crsBest i server = s.crsBest i server := by
  have hcrs : t.crs i = s.crs i := by rw [h.only]; rfl
  have hheads : t.heads i = s.heads i := by rw [State.heads, hcrs, State.heads]
  have hnames (r : CrsReq) : t.crsNames i r server = s.crsNames i r server := by
    simp only [State.crsNames, State.freeServers_word60 h]
  have hmasked (r : CrsReq) : t.crsMasked i r = s.crsMasked i r := by
    simp only [State.crsMasked, hcrs, h.reg _ R.CRS_QUOTA (by decide)]
  have heff (r : CrsReq) : t.effective i r = s.effective i r := by
    simp only [State.effective, hcrs, h.reg _ R.CRS_CTL (by decide)]
  simp only [State.crsBest, hheads, hnames, hmasked, heff]

/-! ### The grant -/

theorem State.rollWindow_only (s : State) (i : Nat) : s.rollWindow i = { s with crossings := (s.rollWindow i).crossings } := by
  unfold State.rollWindow
  dsimp only
  split
  · rfl
  · rfl

theorem State.keysRise_rollWindow (h : keysRise s.crossings = true) : keysRise (s.rollWindow i).crossings = true := by
  unfold State.rollWindow
  dsimp only
  split
  · exact h
  · exact keysRise_sset h

/-- The head requests that name the server. -/
def State.waiting (s : State) (i server : Nat) : List CrsReq := (s.heads i).filter fun r => s.crsNames i r server

/-- The state in which a round chooses: a masked request has been counted (R325). -/
def State.countMasked (s : State) (i server : Nat) : State :=
  if (s.waiting i server).any (s.crsMasked i) then s.bump (pCRS i) R.CRS_MASK_COUNT 1 else s

/-- The crossing once request b, of those waiting, is granted at the server (R322 to R325). -/
def State.grantedCrs (s : State) (i server : Nat) (waiting : List CrsReq) (b : CrsReq) : Crossing :=
  let c := s.crs i
  let losers := (waiting.filter fun r => !s.crsMasked i r && r.requester != b.requester).map (·.requester)
  { c with
    reqs := takeTransfer b s.mt c.reqs
    lost := losers.foldl (fun m q => sset 0 m q (min 65535 (sget 0 m q + 1))) (sset 0 c.lost b.requester 0)
    urgents := if b.urgent then sset 0 c.urgents b.requester (sget 0 c.urgents b.requester + 1) else c.urgents
    grants := sput c.grants server ⟨b.requester, b.urgent, s.mt, b.owner⟩ }

/-- The counts of a crossing at a grant (R328). -/
def State.countGrant (s : State) (i now : Nat) (b : CrsReq) : State :=
  let s1 := s.bump (pCRS i) R.CRS_GRANT_COUNT 1
  let s2 := if b.d < now then s1.bump (pCRS i) R.CRS_MISS_COUNT 1 else s1
  s2.setReg (pCRS i) R.CRS_WAIT_MAX (max (s2.reg (pCRS i) R.CRS_WAIT_MAX) (stick (now - b.arrived) 32))

theorem State.crsRound_none (h : ((s.rollWindow i).countMasked i server).crsBest i server = none) :
    s.crsRound i server = ((s.rollWindow i).countMasked i server, none) := by
  show (match ((s.rollWindow i).countMasked i server).crsBest i server with
    | none => _
    | some b => _) = _
  rw [h]
  rfl

theorem State.crsRound_some {b : CrsReq} (h : ((s.rollWindow i).countMasked i server).crsBest i server = some b) :
    s.crsRound i server =
      ((((s.rollWindow i).countMasked i server).setCrs i (((s.rollWindow i).countMasked i server).grantedCrs i server
        ((s.rollWindow i).waiting i server) b)).countGrant i ((s.rollWindow i).countMasked i server).mt b, some b) := by
  show (match ((s.rollWindow i).countMasked i server).crsBest i server with
    | none => _
    | some b => _) = _
  rw [h]
  rfl

theorem State.countMasked_word60 (h : keysRise s.regs = true) : BarWord60 s (s.countMasked i server) := by
  unfold State.countMasked
  split
  · exact BarWord60.setReg h (by decide)
  · exact BarWord60.refl s

theorem State.crs_countGrant {now : Nat} {b : CrsReq} : (s.countGrant i now b).crs i = s.crs i := by
  unfold State.countGrant
  dsimp only
  split
  · rfl
  · rfl

/-- A round grants the least eligible request in the window it falls in. -/
theorem State.crsRound_spec (hregs : keysRise s.regs = true) (hcrs : keysRise s.crossings = true) :
    (s.crsRound i server).2 = (s.rollWindow i).crsBest i server ∧
    ∀ b, (s.rollWindow i).crsBest i server = some b →
      sget ⟨0, false, 0, .other⟩ ((s.crsRound i server).1.crs i).grants server = ⟨b.requester, b.urgent, s.mt, b.owner⟩ := by
  have hwin := State.rollWindow_only s i
  have hregs' : keysRise (s.rollWindow i).regs = true := by rw [hwin]; exact hregs
  have hcount : BarWord60 (s.rollWindow i) ((s.rollWindow i).countMasked i server) := State.countMasked_word60 hregs'
  have hbest := State.crsBest_word60 (i := i) (server := server) hcount
  have hmt : ((s.rollWindow i).countMasked i server).mt = s.mt := by
    rw [hcount.only, hwin]
  have hcrs' : keysRise ((s.rollWindow i).countMasked i server).crossings = true := by
    rw [hcount.only]
    exact State.keysRise_rollWindow hcrs
  rw [← hbest]
  cases hb : ((s.rollWindow i).countMasked i server).crsBest i server with
  | none => exact ⟨by rw [State.crsRound_none hb], nofun⟩
  | some b =>
    refine ⟨by rw [State.crsRound_some hb], ?_⟩
    rintro _ ⟨⟩
    rw [State.crsRound_some hb, State.crs_countGrant, State.crs_setCrs hcrs', if_pos rfl, State.grantedCrs, sget_sput_same, hmt]

end Sys2Proof.Machine

namespace Sys2Proof.Machine

/-- Settles O17: a round grants a least eligible request, by a fold that keeps the better of two (R322, R323). -/
theorem roundGrantsEarliest : Obligations.RoundGrantsEarliest := by
  intro s i server hcanon w el o
  obtain ⟨hchoice, hgrant⟩ := State.crsRound_spec (i := i) (server := server) (State.keysRise_regs hcanon) (State.keysRise_crossings hcanon)
  obtain ⟨hnone, hno⟩ | ⟨b, hb, hel, hleast⟩ := State.crsBest_spec w i server
  · refine ⟨⟨fun _ => hno, fun _ => hchoice.trans hnone⟩, fun b hb => ?_⟩
    rw [hchoice.trans hnone] at hb
    cases hb
  · have hpicked : o.2 = some b := hchoice.trans hb
    refine ⟨⟨fun hnone => ?_, fun hno => absurd hel (hno b)⟩, fun c hc => ?_⟩
    · rw [hpicked] at hnone
      cases hnone
    · obtain rfl := Option.some.inj (hpicked.symm.trans hc)
      exact ⟨hel, hleast, hgrant b hb⟩

end Sys2Proof.Machine
end

section
/-! PROOFS. Log, header, ring and crossing commands store nothing while tracing is off (R430 to R435, R446 to R453, R320 to R328). -/
namespace Sys2Proof.Machine

/-- Nothing is stored from s to t, tracing being off in both. -/
structure NoStore (s t : State) : Prop where
  mem : t.mem = s.mem
  poison : t.poison = s.poison
  upsets : t.upsets = s.upsets
  tiles : t.tiles = s.tiles
  untraced : t.untraced

namespace NoStore

variable {s t u : State}

theorem refl (hs : s.untraced) : NoStore s s := ⟨rfl, rfl, rfl, rfl, hs⟩

theorem trans (a : NoStore s t) (b : NoStore t u) : NoStore s u :=
  ⟨b.mem.trans a.mem, b.poison.trans a.poison, b.upsets.trans a.upsets, b.tiles.trans a.tiles, b.untraced⟩

theorem of_logs (h : Logs s t) (hs : s.untraced) : NoStore s t := by
  obtain ⟨hmem, hpoison, hupsets, ht⟩ := h.quiet hs
  exact ⟨hmem, hpoison, hupsets, h.tiles, ht⟩

/-- An act that leaves memory, the tiles and the registers. -/
theorem of_fields (hs : s.untraced) (hmem : t.mem = s.mem) (hpoison : t.poison = s.poison) (hupsets : t.upsets = s.upsets)
    (htiles : t.tiles = s.tiles) (hregs : t.regs = s.regs) : NoStore s t :=
  ⟨hmem, hpoison, hupsets, htiles, by rw [State.untraced, State.reg, hregs]; exact hs⟩

theorem reply (hs : s.untraced) (l : List Nat) : NoStore s (s.reply l) := of_fields hs rfl rfl rfl rfl rfl

theorem setReg (hs : s.untraced) {p off v : Nat} (hne : pDBGM * 1024 + R.DBG_TRACE_CTL / 4 ≠ p * 1024 + off / 4) :
    NoStore s (s.setReg p off v) := of_logs (Logs.setReg hne) hs

theorem setReg_low (hs : s.untraced) {p off v : Nat} (hoff : off < R.DBG_TRACE_CTL) : NoStore s (s.setReg p off v) :=
  of_logs (Logs.setReg_low hoff) hs

theorem setCrs (hs : s.untraced) (i : Nat) (c : Crossing) : NoStore s (s.setCrs i c) := of_fields hs rfl rfl rfl rfl rfl

theorem raise (hs : s.untraced) (p e i0 i1 : Nat) (esc forced : Bool) : NoStore s (s.raise p e i0 i1 esc forced) :=
  of_logs (Logs.raise s p e i0 i1 esc forced) hs

theorem signal (hs : s.untraced) (p e : Nat) : NoStore s (s.signal p e) := by
  have h := State.signal_spec s p e
  refine ⟨by rw [h.only], by rw [h.only], by rw [h.only], by rw [h.only], h.rise hs.1, ?_⟩
  rw [h.reg hs.1]
  · exact hs.2
  · intro k hk
    simp only [pHPT, pDBGM, R.HPT_IRQ_DROP, R.DBG_TRACE_CTL]
    omega

theorem foldl {α : Type} {f : State → α → State} (hf : ∀ a x, a.untraced → NoStore a (f a x)) (l : List α) :
    ∀ {s : State}, s.untraced → NoStore s (l.foldl f s) := by
  induction l with
  | nil => exact fun hs => refl hs
  | cons x r ih => exact fun hs => (hf _ x hs).trans (ih (hf _ x hs).untraced)

theorem deny (hs : s.untraced) (h page r : Nat) : NoStore s (s.deny h page r) :=
  of_logs ((State.denyNoted_logs s h page r).trans (Logs.notice _ _ _ _)) hs

theorem debugVoid (hs : s.untraced) (page : Nat) : NoStore s (s.debugVoid page) := by
  unfold State.debugVoid
  dsimp only
  have hvoid : NoStore s (s.voidBy 0) := of_logs (Logs.voidBy s 0) hs
  split
  · exact hvoid
  · exact hvoid.trans (setReg hvoid.untraced (by decide))

theorem touchDebug (hs : s.untraced) (page : Nat) : NoStore s (s.touchDebug page) := by
  unfold State.touchDebug
  split
  · exact debugVoid hs page
  · exact refl hs

/-- A register write, granted or refused, stores nothing where its act does not. -/
theorem onWrite (hs : s.untraced) {src : Src} {page off : Nat} {act : State → State} (hact : ∀ u, u.untraced → NoStore u (act u)) :
    NoStore s (s.onWrite src page off act) := by
  unfold State.onWrite
  split
  · exact (touchDebug hs page).trans (hact _ (touchDebug hs page).untraced)
  · exact deny hs _ _ _
  · exact refl hs

theorem onRead (hs : s.untraced) {src : Src} {page off : Nat} {act : State → State} (hact : ∀ u, u.untraced → NoStore u (act u)) :
    NoStore s (s.onRead src page off act) := by
  unfold State.onRead
  split
  · exact hact s hs
  · exact (deny hs _ _ _).trans (reply (deny hs _ _ _).untraced _)
  · exact reply hs _
  · exact reply hs _
  · exact refl hs

/-! ### The acts -/

theorem errLogPopWrite (hs : s.untraced) (v : Nat) : NoStore s (Machine.errLogPopWrite v s) := by
  unfold Machine.errLogPopWrite
  split
  · split
    · exact of_fields hs rfl rfl rfl rfl rfl
    · exact refl hs
  · exact refl hs

theorem logData0 (hs : s.untraced) : NoStore s (Machine.logData0 s) := of_fields hs rfl rfl rfl rfl rfl

theorem errFirstWrite (hs : s.untraced) (page v : Nat) : NoStore s (Machine.errFirstWrite page v s) := by
  unfold Machine.errFirstWrite
  dsimp only
  split
  · exact setReg_low hs (by decide)
  · exact refl hs

theorem errFatalWrite (hs : s.untraced) (v : Nat) : NoStore s (Machine.errFatalWrite v s) := by
  unfold Machine.errFatalWrite
  split
  · exact setReg_low hs (by decide)
  · exact refl hs

theorem mtLatch (hs : s.untraced) : NoStore s (Machine.mtLatch s) := by
  have hset : NoStore s (s.setReg pTIM R.TIM_MT_HI (s.mt / 2 ^ 32)) := setReg hs (by decide)
  exact hset.trans (reply hset.untraced _)

theorem evtForceWrite (hs : s.untraced) (page v : Nat) : NoStore s (Machine.evtForceWrite page v s) := by
  unfold Machine.evtForceWrite
  split
  · exact refl hs
  · refine (debugVoid hs page).trans (foldl (fun a e ha => ?_) _ (debugVoid hs page).untraced)
    split
    · exact raise ha _ _ _ _ _ _
    · exact refl ha

theorem evtEnWrite (hs : s.untraced) (page v : Nat) : NoStore s (Machine.evtEnWrite page v s) := by
  unfold Machine.evtEnWrite
  dsimp only
  split
  · exact refl hs
  · have hset : NoStore s (s.setReg (s.canon page) R.EVT_EN (v % 2 ^ 32)) := setReg_low hs (by decide)
    refine hset.trans (foldl (fun a e ha => ?_) _ hset.untraced)
    split
    · exact signal ha _ _
    · exact refl ha

theorem pageLockWrite (hs : s.untraced) (src : Src) (page v : Nat) : NoStore s (Machine.pageLockWrite src page v s) := by
  unfold Machine.pageLockWrite
  dsimp only
  split
  · split
    · exact setReg_low hs (by decide)
    · exact refl hs
  · split
    · exact setReg_low hs (by decide)
    · split
      · exact refl hs
      · split
        · exact deny hs _ _ _
        · exact refl hs

theorem kvsTailWrite (hs : s.untraced) (v : Nat) : NoStore s (Machine.kvsTailWrite v s) := by
  unfold Machine.kvsTailWrite
  dsimp only
  split
  · exact setReg hs (by decide)
  · exact refl hs

theorem poolFreeLatch (hs : s.untraced) (n : Nat) : NoStore s (Machine.poolFreeLatch n s) := of_fields hs rfl rfl rfl rfl rfl

/-- A register of a crossing is not DBG_TRACE_CTL. -/
theorem setReg_pCRS (hs : s.untraced) {i off v : Nat} (hi : i < 44) (hoff : off < 0x1000) : NoStore s (s.setReg (pCRS i) off v) :=
  setReg hs (by simp only [pCRS, pDBGM, R.DBG_TRACE_CTL]; omega)

theorem crsQuotaWrite (hs : s.untraced) {i : Nat} (hi : i < 44) (v : Nat) : NoStore s (Machine.crsQuotaWrite i v s) := by
  have hset : NoStore s (s.setReg (pCRS i) R.CRS_QUOTA v) := setReg_pCRS hs hi (by decide)
  exact hset.trans (setCrs hset.untraced _ _)

theorem rollWindow (hs : s.untraced) (i : Nat) : NoStore s (s.rollWindow i) := by
  rw [State.rollWindow_only]
  exact of_fields hs rfl rfl rfl rfl rfl

theorem countMasked (hs : s.untraced) {i : Nat} (hi : i < 44) (server : Nat) : NoStore s (s.countMasked i server) := by
  unfold State.countMasked
  split
  · exact setReg_pCRS hs hi (by decide)
  · exact refl hs

theorem countGrant (hs : s.untraced) {i : Nat} (hi : i < 44) (now : Nat) (b : CrsReq) : NoStore s (s.countGrant i now b) := by
  unfold State.countGrant
  dsimp only
  have hgrants : NoStore s (s.bump (pCRS i) R.CRS_GRANT_COUNT 1) := setReg_pCRS hs hi (by decide)
  split
  · have hmissed (n : Nat) := hgrants.trans (setReg_pCRS (off := R.CRS_MISS_COUNT) (v := n) hgrants.untraced hi (by decide))
    exact (hmissed _).trans (setReg_pCRS (hmissed _).untraced hi (by decide))
  · exact hgrants.trans (setReg_pCRS hgrants.untraced hi (by decide))

theorem crsRound (hs : s.untraced) {i : Nat} (hi : i < 44) (server : Nat) : NoStore s (s.crsRound i server).1 := by
  have hcount := (rollWindow hs i).trans (countMasked (rollWindow hs i).untraced hi server)
  cases hb : ((s.rollWindow i).countMasked i server).crsBest i server with
  | none =>
    rw [State.crsRound_none hb]
    exact hcount
  | some b =>
    rw [State.crsRound_some hb]
    have hgrant (c : Crossing) := hcount.trans (setCrs hcount.untraced i c)
    exact (hgrant _).trans (countGrant (hgrant _).untraced hi _ _)

end NoStore

/-! ### The commands -/

variable {s : State}

/-- What a command answers, where it cannot but answer a state. -/
theorem NoStore.of_next {t u : State} (h : NoStore s u) (ht : Host.Outcome.next (φ := Fault) (ρ := Refusal) u = .next t) : NoStore s t := by
  cases ht
  exact h

theorem NoStore.ite {c : Prop} [Decidable c] {t u : State} (ht : NoStore s t) (hu : NoStore s u) : NoStore s (if c then t else u) := by
  split
  · exact ht
  · exact hu

theorem NoStore.arbitrationRound (hs : s.untraced) {i server : Nat} {t : State} (h : exec (.arbitrationRound i server) s = .next t) :
    NoStore s t := by
  refine NoStore.of_next ?_ h
  split
  · exact NoStore.refl hs
  · next hruns =>
    have hi : i < 44 := by omega
    have hend : NoStore s (if crsSelfEnding i then s.endGrant i server else s) :=
      NoStore.ite (NoStore.setCrs hs _ _) (NoStore.refl hs)
    exact NoStore.ite hend (hend.trans (NoStore.crsRound hend.untraced hi server))

end Sys2Proof.Machine

namespace Sys2Proof.Machine

/-- Settles O59: every act of these commands, granted or refused, sets registers, the log's latch or a crossing, and with tracing off
nothing is stored (R429 to R435, R446 to R453, R320 to R330). -/
theorem noStoreFrame : Obligations.NoStoreFrame := by
  intro s t src page a b hcanon htrace hstep
  have hs : s.untraced := ⟨State.keysRise_regs hcanon, htrace⟩
  have hkept : NoStore s t := by
    obtain ⟨c, hc, hexec⟩ := hstep
    simp only [List.mem_cons, List.not_mem_nil, or_false] at hc
    rcases hc with rfl | rfl | rfl | rfl | rfl | rfl | rfl | rfl | rfl | rfl | rfl | rfl | rfl
    · exact .of_next (.onWrite hs fun u hu => .errLogPopWrite hu a) hexec
    · exact .of_next (.onRead hs fun u hu => .logData0 hu) hexec
    · exact .of_next (.ite (.refl hs) (.onWrite hs fun u hu => .errFirstWrite hu page _)) hexec
    · exact .of_next (.onWrite hs fun u hu => .errFatalWrite hu 1) hexec
    · exact .of_next (.onRead hs fun u hu => .mtLatch hu) hexec
    · exact .of_next (.ite (.refl hs) (.onWrite hs fun u hu => .evtForceWrite hu page a)) hexec
    · exact .of_next (.ite (.refl hs) (.onWrite hs fun u hu => .evtEnWrite hu page a)) hexec
    · exact .of_next (.ite (.refl hs) (.onWrite hs fun u hu => .pageLockWrite hu src page a)) hexec
    · exact .of_next (.onWrite hs fun u hu => .kvsTailWrite hu a) hexec
    · exact .of_next (.ite (.onRead hs fun u hu => .poolFreeLatch hu a) (.refl hs)) hexec
    · exact .arbitrationRound hs hexec
    · exact .of_next (.ite (.refl hs) (.rollWindow hs a)) hexec
    · refine .of_next ?_ hexec
      split
      · next ha => exact .onWrite hs fun u hu => .crsQuotaWrite hu ha b
      · exact .refl hs
  exact ⟨hkept.mem, hkept.poison, hkept.upsets, hkept.tiles⟩

end Sys2Proof.Machine
end

section
/-! PROOFS. What a descriptor's effect leaves unchanged (R82, R91). -/
namespace Sys2Proof.Machine

variable {s t u : State} {site : Nat}

/-! ### Registers of one page -/

/-- From s to t at most registers of the page `site` change. -/
structure RegsOf (site : Nat) (s t : State) : Prop where
  only : t = { s with regs := t.regs }
  rise : keysRise s.regs = true → keysRise t.regs = true
  reg : keysRise s.regs = true → ∀ p o, p ≠ site → o < 0x1000 → t.reg p o = s.reg p o

namespace RegsOf

theorem refl (s : State) : RegsOf site s s := ⟨rfl, id, fun _ _ _ _ _ => rfl⟩

theorem trans (a : RegsOf site s t) (b : RegsOf site t u) : RegsOf site s u :=
  ⟨by rw [b.only, a.only], fun h => b.rise (a.rise h), fun h p o hp ho => (b.reg (a.rise h) p o hp ho).trans (a.reg h p o hp ho)⟩

theorem setReg {off v : Nat} (hoff : off < 0x1000) : RegsOf site s (s.setReg site off v) :=
  ⟨rfl, fun h => keysRise_sset h, fun h _ _ _ _ => State.reg_setReg_other s h (by omega)⟩

theorem foldl {f : State → Nat × Nat → State} {l : List (Nat × Nat)} (hf : ∀ a x, x ∈ l → RegsOf site a (f a x)) :
    ∀ s, RegsOf site s (l.foldl f s) := by
  induction l with
  | nil => exact refl
  | cons x r ih =>
    exact fun s => (hf s x List.mem_cons_self).trans (ih (fun a y hy => hf a y (List.mem_cons_of_mem _ hy)) _)

end RegsOf

/-- The sticky counts, flags and values of an effect that drops no row stand in its tile's page. -/
theorem State.applyRegs_regsOf {c : DCtx} {e : Eff} (hdropped : e.dropped = [])
    (hoff : ∀ p, p ∈ e.adds ++ e.ors ++ e.sets → p.1 < 0x1000) : RegsOf c.site s (s.applyRegs c e) := by
  unfold State.applyRegs
  rw [hdropped, List.foldl_nil]
  have hadds (p : Nat × Nat) (hp : p ∈ e.adds) : p.1 < 0x1000 := hoff p (List.mem_append_left _ (List.mem_append_left _ hp))
  have hors (p : Nat × Nat) (hp : p ∈ e.ors) : p.1 < 0x1000 := hoff p (List.mem_append_left _ (List.mem_append_right _ hp))
  have hsets (p : Nat × Nat) (hp : p ∈ e.sets) : p.1 < 0x1000 := hoff p (List.mem_append_right _ hp)
  refine RegsOf.trans ?_ (RegsOf.foldl (fun a p hp => .setReg (hsets p hp)) _)
  refine RegsOf.trans ?_ (RegsOf.foldl (fun a p hp => .setReg (hors p hp)) _)
  refine RegsOf.trans ?_ (RegsOf.foldl (fun a p hp => .setReg (hadds p hp)) _)
  exact .trans (.trans (.trans (.setReg (by decide)) (.setReg (by decide))) (.setReg (by decide))) (.setReg (by decide))

/-! ### Bytes written -/

theorem State.wf_store {k : Nat} {l : List Nat} (h : Memory.wf s.mem = true) : Memory.wf (s.store k l).mem = true :=
  (State.store_evolves k l (Evolves.refl false s)).mem h

/-- Writes into the tile's SRAM leave every byte outside them. -/
theorem State.byte_applyWrites {l : List (Nat × List Nat)} {j : Nat}
    (hj : ∀ w ∈ l, j < sramBase site + w.1 ∨ sramBase site + w.1 + w.2.length ≤ j) :
    ∀ {s : State}, Memory.wf s.mem = true → (s.applyWrites site l).byte j = s.byte j := by
  induction l with
  | nil => exact fun _ => rfl
  | cons w r ih =>
    intro s h
    exact (ih (fun x hx => hj x (List.mem_cons_of_mem _ hx)) (State.wf_store h)).trans
      (State.byte_store_other s h (hj w List.mem_cons_self))

theorem State.applyWrites_only (l : List (Nat × List Nat)) : ∀ s : State,
    s.applyWrites site l = { s with
      mem := (s.applyWrites site l).mem, poison := (s.applyWrites site l).poison, upsets := (s.applyWrites site l).upsets } := by
  induction l with
  | nil => exact fun _ => rfl
  | cons w r ih =>
    intro s
    exact ih (s.store (sramBase site + w.1) w.2)

/-! ### The tile -/

theorem State.tile_setTile {n : Nat} {x : TileState} (h : keysRise s.tiles = true) :
    (s.setTile site x).tile n = if n = site then x else s.tile n := sget_sset h

theorem State.keysRise_tiles (h : s.canonical = true) : keysRise s.tiles = true := by
  simp only [State.canonical, Bool.and_eq_true] at h
  obtain ⟨-, hparts⟩ := h
  exact (parts_iff.mp hparts).tiles

theorem State.wf_mem (h : s.canonical = true) : Memory.wf s.mem = true := by
  simp only [State.canonical, Bool.and_eq_true] at h
  obtain ⟨⟨⟨hmem, -⟩, -⟩, -⟩ := h
  exact hmem

/-- The record with which a descriptor joins the running ones, done. -/
def State.doneRun (s : State) (c : DCtx) (e : Eff) : Run :=
  { mkRun c .done with
    merges := e.merges, undo := s.oldBytes c.site e.writes, undoBanks := e.banks.map (·.1),
    undoVregs := e.vregs.map (·.1), undoPregs := e.pregs.map (·.1), packed := e.packed }

/-- With no correctable line to correct, an effect is its writes, its tile's values, its page's registers and its record. -/
theorem State.carryOut_eq {c : DCtx} {e : Eff} (hce : (e.lines c.site).filter s.lineCe = []) :
    s.carryOut c e = (((s.applyWrites c.site e.writes).modTile c.site fun t => t.applyEff e).applyRegs c e).addRun c.site
      (s.doneRun c e) := by
  rw [State.carryOut, State.ceOwnAll, hce]
  rfl

/-- The tiles after the values are applied and the record has joined. -/
theorem State.tile_addRun_of {c : DCtx} {e : Eff} {r : Run} {w a : State} (ha : a = { w.modTile c.site (·.applyEff e) with regs := a.regs })
    (h : keysRise w.tiles = true) (n : Nat) :
    (a.addRun c.site r).tile n =
      if n = c.site then { (w.tile c.site).applyEff e with running := (w.tile c.site).running ++ [r] } else w.tile n := by
  have htiles : a.tiles = (w.modTile c.site (·.applyEff e)).tiles := by rw [ha]
  have hrise : keysRise a.tiles = true := by rw [htiles]; exact keysRise_sset h
  have htile (m : Nat) : a.tile m = if m = c.site then (w.tile c.site).applyEff e else w.tile m := by
    rw [State.tile, htiles]
    exact State.tile_setTile h
  rw [State.addRun, State.modTile, State.tile_setTile hrise]
  split
  · next hn => rw [htile, if_pos rfl]; rfl
  · next hn => rw [htile, if_neg hn]

end Sys2Proof.Machine

namespace Sys2Proof.Machine

/-- Settles O58, of the state in which an effect is carried out: its bytes, its tile, its page's registers, and nothing else (R82,
R91). -/
theorem computeFrame : Obligations.ComputeFrame := by
  intro s c e hcanon hce hdropped hoff t
  have ht : t = s.carryOut c e := rfl
  rw [State.carryOut_eq hce] at ht
  have hw := State.applyWrites_only (site := c.site) e.writes s
  have hbytes (j : Nat) (hj : ∀ w ∈ e.writes, j < sramBase c.site + w.1 ∨ sramBase c.site + w.1 + w.2.length ≤ j) :
      (s.applyWrites c.site e.writes).byte j = s.byte j := State.byte_applyWrites hj (State.wf_mem hcanon)
  generalize s.applyWrites c.site e.writes = w at ht hw hbytes
  have hregs : RegsOf c.site (w.modTile c.site fun t => t.applyEff e) ((w.modTile c.site fun t => t.applyEff e).applyRegs c e) :=
    State.applyRegs_regsOf hdropped hoff
  generalize (w.modTile c.site fun t => t.applyEff e).applyRegs c e = a at ht hregs
  have htiles : w.tiles = s.tiles := by rw [hw]
  have hwregs : w.regs = s.regs := by rw [hw]
  have hrise : keysRise w.tiles = true := by rw [htiles]; exact State.keysRise_tiles hcanon
  have htile := State.tile_addRun_of (r := s.doneRun c e) hregs.only hrise
  have hsame (n : Nat) : w.tile n = s.tile n := by rw [State.tile, htiles, State.tile]
  rw [← ht] at htile
  refine ⟨fun j hj => ?_, fun n hn => ?_, fun p o hp ho => ?_, ⟨s.doneRun c e, rfl, rfl, rfl, ?_⟩, ?_⟩
  · have hmem : t.mem = w.mem := by
      rw [ht, State.addRun, State.modTile, State.setTile_mem, hregs.only]
      rfl
    rw [State.byte, hmem]
    exact hbytes j hj
  · rw [htile, if_neg hn, hsame]
  · have hreg : t.reg p o = a.reg p o := by rw [ht]; rfl
    have hrise' : keysRise w.regs = true := by rw [hwregs]; exact State.keysRise_regs hcanon
    rw [hreg, hregs.reg hrise' p o hp ho]
    show w.reg p o = s.reg p o
    rw [State.reg, hwregs, State.reg]
  · rw [htile, if_pos rfl, hsame]
  · rw [ht, State.addRun, State.modTile, hregs.only, hw]
    rfl

end Sys2Proof.Machine
end

section
/-! PROOFS. Conservation of the pages of a KV pool (R7, R177, R184): what each act on a pool's lists and reference counts leaves, and
the sums that it keeps. -/
namespace Sys2Proof.Machine

/-! ### Little-endian words in memory -/

theorem leNat_leBytes (v n : Nat) : leNat (leBytes v n) = v % 256 ^ n := by
  induction n generalizing v with
  | zero => rw [Nat.pow_zero, Nat.mod_one]; rfl
  | succ n ih => rw [leBytes, leNat, ih, Nat.mod_mod, Nat.pow_succ', Nat.mod_mul]

theorem getD_leBytes_lt {v n i : Nat} : (leBytes v n).getD i 0 < 256 := by
  induction n generalizing v i with
  | zero => exact Nat.zero_lt_succ _
  | succ n ih =>
    cases i with
    | zero => exact Nat.mod_lt _ (by decide)
    | succ i => exact ih

section
variable {s : State} {a b v : Nat}

/-- Addresses of near and far memory stand for themselves. -/
theorem State.key_localAddr_of_lt (h : a < 0x040000000000) : s.key (s.localAddr a) = a := by
  rw [State.localAddr_of_lt (by omega), State.key, if_neg (by omega)]

theorem State.devLe_devPut_same {n : Nat} (hm : Memory.wf s.mem = true) (ha : a < 0x040000000000) :
    (s.devPut a n v).devLe a n = v % 256 ^ n := by
  have hbytes : (s.store a (leBytes v n)).bytes a n = leBytes v n := by
    refine List.ext_getElem (by simp [State.bytes, length_leBytes]) fun i hi _ => ?_
    have hlen : i < (leBytes v n).length := by simpa [State.bytes, length_leBytes] using hi
    have hat := State.byte_store_at s (k := a) hm hlen
    rw [Nat.mod_eq_of_lt getD_leBytes_lt, ← List.getElem_eq_getD (h := hlen)] at hat
    simpa [State.bytes] using hat
  rw [State.devLe, State.devPut, State.devWrite, State.key_localAddr_of_lt ha, State.key_localAddr_of_lt ha, State.le, hbytes,
    leNat_leBytes]

theorem State.devLe_devPut_other {n : Nat} (hm : Memory.wf s.mem = true) (ha : a < 0x040000000000) (hb : b < 0x040000000000)
    (hn : b + n ≤ a ∨ a + n ≤ b) : (s.devPut a n v).devLe b n = s.devLe b n := by
  have hbytes : (s.store a (leBytes v n)).bytes b n = s.bytes b n := by
    refine List.map_congr_left fun i hi => State.byte_store_other s hm ?_
    have := List.mem_range.mp hi
    rw [length_leBytes]
    omega
  rw [State.devLe, State.devPut, State.devWrite, State.key_localAddr_of_lt ha, State.key_localAddr_of_lt hb, State.le, hbytes,
    State.devLe, State.key_localAddr_of_lt hb, State.le]
end

/-! ### The reference count in a metadata word (R176) -/

theorem bits_ref_eq (v : Nat) : bits v 15 0 = v % 65536 := rfl

theorem bits_setBits_ref {m v : Nat} (hv : v < 65536) : bits (setBits m 15 0 v % 256 ^ 8) 15 0 = v := by
  simp only [setBits, Nat.shiftRight_zero, bits_ref_eq]
  omega

/-- Fields above the reference count leave it as it is. -/
theorem bits_setBits_above {m hi lo v : Nat} (hlo : 16 ≤ lo) : bits (setBits m hi lo v % 256 ^ 8) 15 0 = bits m 15 0 := by
  obtain ⟨k, rfl⟩ := Nat.exists_eq_add_of_le hlo
  have hfield : ((m >>> (16 + k)) % 2 ^ (hi + 1 - (16 + k))) * 2 ^ (16 + k) ≤ m :=
    Nat.le_trans (Nat.mul_le_mul_right _ (Nat.mod_le _ _)) (by rw [Nat.shiftRight_eq_div_pow]; exact Nat.div_mul_le_self _ _)
  simp only [setBits, bits_ref_eq]
  generalize (m >>> (16 + k)) % 2 ^ (hi + 1 - (16 + k)) = x at *
  generalize v % 2 ^ (hi + 1 - (16 + k)) = y
  rw [Nat.pow_add, ← Nat.mul_assoc, Nat.mul_right_comm] at hfield
  rw [Nat.pow_add, ← Nat.mul_assoc, ← Nat.mul_assoc, Nat.mul_right_comm, Nat.mul_right_comm y]
  generalize x * 2 ^ k = x' at *
  generalize y * 2 ^ k = y'
  omega

/-! ### The conserved sums -/

/-- Lists and reference counts of a pool that conserve its pages. -/
structure Conserved (pages free reserve : List Nat) (ref : Nat → Nat) : Prop where
  nodup : (free ++ reserve).Nodup
  unreferenced : ∀ p ∈ free ++ reserve, p ∈ pages ∧ ref p = 0
  sum : (pages.map ref).sum + free.length = pages.length
  spare : reserve.length = (pages.map fun p => ref p - 1).sum

theorem sumNat_eq (l : List Nat) : sumNat l = l.sum := List.sum_eq_foldl.symm

/-- Reference counts of which one is set. -/
def setCount (ref : Nat → Nat) (p v q : Nat) : Nat := if q = p then v else ref q

theorem setCount_self (ref : Nat → Nat) (p v : Nat) : setCount ref p v p = v := if_pos rfl

theorem setCount_ne {ref : Nat → Nat} {p v q : Nat} (h : q ≠ p) : setCount ref p v q = ref q := if_neg h

theorem setCount_eq_self (ref : Nat → Nat) (p : Nat) : setCount ref p (ref p) = ref := by
  funext q
  by_cases h : q = p
  · rw [h, setCount_self]
  · exact setCount_ne h

/-- Two sums over distinct entries whose terms differ at one of them. -/
theorem sum_map_exchange {l : List Nat} {f g : Nat → Nat} {p : Nat} (hl : l.Nodup) (hp : p ∈ l) (hfg : ∀ q, q ≠ p → f q = g q) :
    (l.map f).sum + g p = (l.map g).sum + f p := by
  induction l with
  | nil => exact absurd hp List.not_mem_nil
  | cons a l ih =>
    obtain ⟨ha, hnd⟩ := List.nodup_cons.mp hl
    simp only [List.map_cons, List.sum_cons]
    by_cases hpa : p = a
    · have hrest : l.map f = l.map g := List.map_congr_left fun q hq => hfg q fun h => ha (hpa ▸ h ▸ hq)
      rw [hrest, hpa]
      omega
    · have := ih hnd ((List.mem_cons.mp hp).resolve_left hpa)
      rw [hfg a (Ne.symm hpa)]
      omega

namespace Conserved

variable {pages free reserve rest : List Nat} {ref : Nat → Nat} {p q : Nat}

/-- A term of the sums after one reference count changed. -/
theorem sums_update (hl : pages.Nodup) (hp : p ∈ pages) (v : Nat) :
    (pages.map (setCount ref p v)).sum + ref p = (pages.map ref).sum + v ∧
    (pages.map fun q => setCount ref p v q - 1).sum + (ref p - 1) = (pages.map fun q => ref q - 1).sum + (v - 1) := by
  have hsum := sum_map_exchange (f := setCount ref p v) (g := ref) hl hp fun q hq => setCount_ne hq
  have hspare := sum_map_exchange (f := fun q => setCount ref p v q - 1) (g := fun q => ref q - 1) hl hp fun q hq => by
    rw [setCount_ne hq]
  rw [setCount_self] at hsum
  simp only [setCount_self] at hspare
  exact ⟨hsum, hspare⟩

/-- A page of the lists is none whose reference count is raised or lowered. -/
theorem not_listed (h : Conserved pages free reserve ref) (hp : 1 ≤ ref p) : p ∉ free ++ reserve := fun hm => by
  have := (h.unreferenced p hm).2
  omega

theorem unreferenced_update (h : Conserved pages free reserve ref) (hp : p ∉ free ++ reserve) (hq : q ∈ free ++ reserve) (v : Nat) :
    q ∈ pages ∧ setCount ref p v q = 0 := by
  have hne : q ≠ p := fun he => hp (he ▸ hq)
  rw [setCount_ne hne]
  exact h.unreferenced q hq

/-- The first free page allocated. -/
theorem alloc (hl : pages.Nodup) (h : Conserved pages (p :: rest) reserve ref) :
    Conserved pages rest reserve (setCount ref p 1) := by
  obtain ⟨hp, hzero⟩ := h.unreferenced p List.mem_cons_self
  obtain ⟨hsum, hspare⟩ := sums_update (ref := ref) hl hp 1
  obtain ⟨hnot, hnd⟩ := List.nodup_cons.mp h.nodup
  have h1 := h.sum
  have h2 := h.spare
  rw [List.length_cons] at h1
  refine ⟨hnd, fun q hq => ?_, by omega, by omega⟩
  have hne : q ≠ p := fun he => hnot (he ▸ hq)
  rw [setCount_ne hne]
  exact h.unreferenced q (List.mem_cons_of_mem _ hq)

/-- A reference added takes the first free page into reserve. -/
theorem addRef (hl : pages.Nodup) (h : Conserved pages (q :: rest) reserve ref) (hp : p ∈ pages) (href : 1 ≤ ref p) :
    Conserved pages rest (q :: reserve) (setCount ref p (ref p + 1)) := by
  obtain ⟨hsum, hspare⟩ := sums_update (ref := ref) hl hp (ref p + 1)
  have hnot := h.not_listed href
  have hperm : (rest ++ q :: reserve).Perm (q :: rest ++ reserve) := List.perm_middle
  have h1 := h.sum
  have h2 := h.spare
  rw [List.length_cons] at h1
  refine ⟨hperm.nodup_iff.mpr h.nodup, fun r hr => h.unreferenced_update hnot (hperm.mem_iff.mp hr) _,
    by omega, by rw [List.length_cons]; omega⟩

/-- A reference beyond the first dropped frees a page of the reserve. -/
theorem dropShared (hl : pages.Nodup) (h : Conserved pages free (q :: rest) ref) (hp : p ∈ pages) (href : 2 ≤ ref p) :
    Conserved pages (q :: free) rest (setCount ref p (ref p - 1)) := by
  obtain ⟨hsum, hspare⟩ := sums_update (ref := ref) hl hp (ref p - 1)
  have hnot := h.not_listed (by omega : 1 ≤ ref p)
  have hperm : (q :: free ++ rest).Perm (free ++ q :: rest) := List.perm_middle.symm
  have h1 := h.sum
  have h2 := h.spare
  rw [List.length_cons] at h2
  refine ⟨hperm.nodup_iff.mpr h.nodup, fun r hr => h.unreferenced_update hnot (hperm.mem_iff.mp hr) _,
    by rw [List.length_cons]; omega, by omega⟩

/-- The last reference dropped frees the page itself. -/
theorem dropLast (hl : pages.Nodup) (h : Conserved pages free reserve ref) (hp : p ∈ pages) (href : ref p = 1) :
    Conserved pages (p :: free) reserve (setCount ref p 0) := by
  obtain ⟨hsum, hspare⟩ := sums_update (ref := ref) hl hp 0
  have hnot := h.not_listed (by omega : 1 ≤ ref p)
  have h1 := h.sum
  have h2 := h.spare
  refine ⟨List.nodup_cons.mpr ⟨hnot, h.nodup⟩, fun r hr => ?_, by rw [List.length_cons]; omega, by omega⟩
  rcases List.mem_cons.mp hr with rfl | hr'
  · exact ⟨hp, setCount_self ..⟩
  · exact h.unreferenced_update hnot hr' _

/-- A page with more than one reference has a page in reserve. -/
theorem reserve_ne_nil (h : Conserved pages free reserve ref) (hp : p ∈ pages) (href : 2 ≤ ref p) : reserve ≠ [] := fun hnil => by
  have hterm : ref p - 1 ∈ pages.map fun q => ref q - 1 := List.mem_map_of_mem hp
  have h2 := h.spare
  rw [hnil, List.length_nil] at h2
  have := List.sum_eq_zero_iff_forall_eq_nat.mp h2.symm _ hterm
  omega

/-- All pages free. -/
theorem all_free (hl : pages.Nodup) (hzero : ∀ p ∈ pages, ref p = 0) : Conserved pages pages.reverse [] ref := by
  have hsum : (pages.map ref).sum = 0 := List.sum_eq_zero_iff_forall_eq_nat.mpr (List.forall_mem_map.mpr hzero)
  have hspare : (pages.map fun p => ref p - 1).sum = 0 :=
    List.sum_eq_zero_iff_forall_eq_nat.mpr (List.forall_mem_map.mpr fun p hp => by rw [hzero p hp])
  refine ⟨by rw [List.append_nil]; exact (List.reverse_perm _).nodup_iff.mpr hl, fun p hp => ?_, ?_, hspare.symm⟩
  · rw [List.append_nil, List.mem_reverse] at hp
    exact ⟨hp, hzero p hp⟩
  · rw [hsum, List.length_reverse, Nat.zero_add]

end Conserved

/-! ### A pool in the state -/

/-- Where a pool's pages and metadata lie: KVS_POOLn_META, KVS_POOLn_FIRST and KVS_POOLn_COUNT. -/
structure PoolPlace where
  n : Nat
  base : Nat
  first : Nat
  count : Nat

/-- Page numbers of a pool. -/
def PoolPlace.pages (g : PoolPlace) : List Nat := (List.range g.count).map (g.first + ·)

theorem PoolPlace.nodup_pages (g : PoolPlace) : g.pages.Nodup :=
  List.Pairwise.map _ (fun _ _ hne h => hne (Nat.add_left_cancel h)) List.nodup_range

theorem PoolPlace.length_pages (g : PoolPlace) : g.pages.length = g.count := by
  rw [PoolPlace.pages, List.length_map, List.length_range]

/-- A state, with tracing off, in which a pool lies at a place, its metadata in near or far memory, and has these lists and these
reference counts. -/
structure PoolIs (g : PoolPlace) (free reserve : List Nat) (ref : Nat → Nat) (s : State) : Prop where
  place : s.reg64 pKVS (poolReg g.n R.KVS_POOL_META_LO) = g.base ∧ s.poolFirst g.n = g.first ∧ s.poolCount g.n = g.count
  plain : g.n < 8 ∧ g.base + 8 * g.count ≤ 0x040000000000
  mem : Memory.wf s.mem = true
  pools : keysRise s.pools = true
  untraced : s.untraced
  free_eq : (s.pool g.n).free = free
  reserve_eq : (s.pool g.n).reserve = reserve
  ref_eq : ∀ p ∈ g.pages, s.refcnt g.n p = ref p

namespace PoolIs

variable {g : PoolPlace} {free reserve rest : List Nat} {ref : Nat → Nat} {s : State} {p q v : Nat}

theorem metaAddr_eq (h : PoolIs g free reserve ref s) (p : Nat) : s.metaAddr g.n p = g.base + 8 * (p - g.first) := by
  obtain ⟨hbase, hfirst, -⟩ := h.place
  rw [State.metaAddr, hbase, hfirst]

/-- A page's metadata word lies in near or far memory. -/
theorem metaAddr_lt (h : PoolIs g free reserve ref s) (hp : p ∈ g.pages) : g.base + 8 * (p - g.first) < 0x040000000000 := by
  obtain ⟨i, hi, rfl⟩ := List.mem_map.mp hp
  have := List.mem_range.mp hi
  have := h.plain.2
  omega

/-- The lists and counts of a pool conserve its pages exactly when the model calls it sound. -/
theorem sound_iff (h : PoolIs g free reserve ref s) : s.poolSound g.n = true ↔ Conserved g.pages free reserve ref := by
  have hpages : s.poolPages g.n = g.pages := by
    obtain ⟨-, hfirst, hcount⟩ := h.place
    rw [State.poolPages, hfirst, hcount, PoolPlace.pages]
  have href : g.pages.map (s.refcnt g.n) = g.pages.map ref := List.map_congr_left h.ref_eq
  have hspare : (g.pages.map fun p => s.refcnt g.n p - 1) = g.pages.map fun p => ref p - 1 :=
    List.map_congr_left fun p hp => by rw [h.ref_eq p hp]
  simp only [State.poolSound, State.poolRefsum, h.free_eq, h.reserve_eq, hpages, href, hspare, h.place.2.2, sumNat_eq,
    Bool.and_eq_true, decide_eq_true_eq, List.all_eq_true, beq_iff_eq, List.contains_iff_mem, ← g.length_pages]
  constructor
  · rintro ⟨⟨⟨hnd, hzero⟩, hsum⟩, hlen⟩
    refine ⟨hnd, fun p hp => ?_, hsum, hlen⟩
    obtain ⟨hmem, hcnt⟩ := hzero p hp
    exact ⟨hmem, (h.ref_eq p hmem).symm.trans hcnt⟩
  · intro hc
    refine ⟨⟨⟨hc.nodup, fun p hp => ?_⟩, hc.sum⟩, hc.spare⟩
    obtain ⟨hmem, hcnt⟩ := hc.unreferenced p hp
    exact ⟨hmem, (h.ref_eq p hmem).trans hcnt⟩

/-! Each act on a pool, as a change of its lists and reference counts. -/

/-- The metadata word of one page written. -/
theorem setMeta (h : PoolIs g free reserve ref s) (hp : p ∈ g.pages) :
    PoolIs g free reserve (setCount ref p (bits (v % 256 ^ 8) 15 0)) (s.setMeta g.n p v) := by
  have hat : ∀ q, (s.setMeta g.n p v).pageMeta g.n q =
      (s.devPut (g.base + 8 * (p - g.first)) 8 v).devLe (g.base + 8 * (q - g.first)) 8 := fun q => by
    rw [State.pageMeta, show (s.setMeta g.n p v).metaAddr g.n q = s.metaAddr g.n q from rfl, h.metaAddr_eq, State.setMeta, h.metaAddr_eq]
  refine { h with mem := State.wf_store h.mem, ref_eq := fun q hq => ?_ }
  rw [State.refcnt, hat]
  by_cases hqp : q = p
  · rw [hqp, setCount_self, State.devLe_devPut_same h.mem (h.metaAddr_lt hp)]
  · have hwords : g.base + 8 * (q - g.first) + 8 ≤ g.base + 8 * (p - g.first) ∨
        g.base + 8 * (p - g.first) + 8 ≤ g.base + 8 * (q - g.first) := by
      obtain ⟨i, -, rfl⟩ := List.mem_map.mp hp
      obtain ⟨j, -, rfl⟩ := List.mem_map.mp hq
      omega
    rw [setCount_ne hqp, State.devLe_devPut_other h.mem (h.metaAddr_lt hp) (h.metaAddr_lt hq) hwords, ← h.metaAddr_eq q]
    exact h.ref_eq q hq

theorem setRef (h : PoolIs g free reserve ref s) (hp : p ∈ g.pages) (hv : v < 65536) :
    PoolIs g free reserve (setCount ref p v) (s.setRef g.n p v) := by
  have hset := h.setMeta (v := setBits (s.pageMeta g.n p) 15 0 v) hp
  rwa [bits_setBits_ref hv] at hset

/-- A field above the reference count written. -/
theorem setAbove {hi lo : Nat} (h : PoolIs g free reserve ref s) (hp : p ∈ g.pages) (hlo : 16 ≤ lo) :
    PoolIs g free reserve ref (s.setMeta g.n p (setBits (s.pageMeta g.n p) hi lo v)) := by
  have hset := h.setMeta (v := setBits (s.pageMeta g.n p) hi lo v) hp
  rwa [bits_setBits_above hlo, ← State.refcnt, h.ref_eq p hp, setCount_eq_self] at hset

theorem setPins (h : PoolIs g free reserve ref s) (hp : p ∈ g.pages) : PoolIs g free reserve ref (s.setPins g.n p v) :=
  h.setAbove hp (by decide)

theorem setNext (h : PoolIs g free reserve ref s) (hp : p ∈ g.pages) : PoolIs g free reserve ref (s.setNext g.n p v) :=
  h.setAbove hp (by decide)

theorem setPool {free' reserve' : List Nat} (h : PoolIs g free reserve ref s) (x : Pool) (hf : x.free = free') (hr : x.reserve = reserve') :
    PoolIs g free' reserve' ref (s.setPool g.n x) := by
  have hpool : (s.setPool g.n x).pool g.n = x := (sget_sset h.pools).trans (if_pos rfl)
  exact { h with pools := keysRise_sset h.pools, free_eq := by rw [hpool, hf], reserve_eq := by rw [hpool, hr] }

/-- A change of registers outside the pool's place. -/
theorem of_regs {t : State} (h : PoolIs g free reserve ref s) (hmem : t.mem = s.mem) (hpools : t.pools = s.pools) (ht : t.untraced)
    (hreg : ∀ o, 0x204 ≤ o → o < 0x400 → o % 0x40 ≠ 0 → o % 4 = 0 → t.reg pKVS o = s.reg pKVS o) : PoolIs g free reserve ref t := by
  obtain ⟨hn, -⟩ := h.plain
  have hplace : t.reg64 pKVS (poolReg g.n R.KVS_POOL_META_LO) = s.reg64 pKVS (poolReg g.n R.KVS_POOL_META_LO) ∧
      t.poolFirst g.n = s.poolFirst g.n ∧ t.poolCount g.n = s.poolCount g.n := by
    simp only [State.reg64, State.poolFirst, State.poolCount, State.kvReg, poolReg, R.KVS_POOL_META_LO, R.KVS_POOL_FIRST,
      R.KVS_POOL_COUNT]
    refine ⟨?_, ?_, ?_⟩
    · rw [hreg _ (by omega) (by omega) (by omega) (by omega), hreg _ (by omega) (by omega) (by omega) (by omega)]
    · rw [hreg _ (by omega) (by omega) (by omega) (by omega)]
    · rw [hreg _ (by omega) (by omega) (by omega) (by omega)]
  obtain ⟨hbase, hfirst, hcount⟩ := hplace
  have hpool : t.pool g.n = s.pool g.n := by rw [State.pool, hpools, State.pool]
  refine { h with
    place := by rw [hbase, hfirst, hcount]; exact h.place
    mem := hmem ▸ h.mem, pools := hpools ▸ h.pools, untraced := ht
    free_eq := by rw [hpool]; exact h.free_eq
    reserve_eq := by rw [hpool]; exact h.reserve_eq
    ref_eq := fun p hp => ?_ }
  have hbyte : ∀ k, t.byte k = s.byte k := fun k => by rw [State.byte, hmem, State.byte]
  have hmeta : t.metaAddr g.n p = s.metaAddr g.n p := by rw [State.metaAddr, hbase, hfirst, State.metaAddr]
  have hlt := h.metaAddr_lt hp
  rw [← h.metaAddr_eq] at hlt
  rw [← h.ref_eq p hp, State.refcnt, State.pageMeta, hmeta, State.devLe, State.key_localAddr_of_lt hlt, State.refcnt, State.pageMeta,
    State.devLe, State.key_localAddr_of_lt hlt]
  simp only [State.le, State.bytes, hbyte]

theorem setReg {o : Nat} (h : PoolIs g free reserve ref s) (ho : o < 0x204 ∨ o % 0x40 = 0 ∧ o < 0x400) :
    PoolIs g free reserve ref (s.setReg pKVS o v) := by
  have hne : pDBGM * 1024 + R.DBG_TRACE_CTL / 4 ≠ pKVS * 1024 + o / 4 := by
    simp only [pDBGM, pKVS, R.DBG_TRACE_CTL]; omega
  obtain ⟨-, -, -, ht⟩ := (Logs.setReg hne).quiet h.untraced
  exact h.of_regs rfl rfl ht fun o' h1 h2 h3 h4 => State.reg_setReg_other s h.untraced.1 (by omega)

theorem notice {e info : Nat} (h : PoolIs g free reserve ref s) : PoolIs g free reserve ref (s.notice pKVS e info) := by
  have hlogs := Logs.notice s pKVS e info
  obtain ⟨hmem, -, -, ht⟩ := hlogs.quiet h.untraced
  refine h.of_regs hmem (by rw [hlogs.only]) ht fun o h1 h2 _ _ => (State.notice_spec s pKVS e info).reg h.untraced.1 pKVS o ?_ ?_ ?_
  · intro k hk
    simp only [pKVS, pHPT, R.HPT_IRQ_DROP]; omega
  · rw [show s.canon pKVS = pKVS from if_neg (by decide)]
    simp only [R.EVT_STS]; omega
  · simp only [pKVS, pDBGM, R.DBG_TRACE_HEAD]; omega

theorem poolFell {before : Nat} (h : PoolIs g free reserve ref s) : PoolIs g free reserve ref (s.poolFell g.n before) := by
  unfold State.poolFell
  extract_lets th
  split
  · exact h.notice
  · exact h

theorem pushFree (h : PoolIs g free reserve ref s) (hp : p ∈ g.pages) : PoolIs g (p :: free) reserve ref (s.pushFree g.n p) :=
  (h.setNext hp).setPool _ (congrArg (p :: ·) h.free_eq) h.reserve_eq

theorem freeToReserve (h : PoolIs g (q :: rest) reserve ref s) (hq : q ∈ g.pages) :
    PoolIs g rest (q :: reserve) ref (s.freeToReserve g.n) := by
  unfold State.freeToReserve
  extract_lets x
  split
  · next hnil => exact absurd (h.free_eq.symm.trans hnil) (List.cons_ne_nil _ _)
  · next p r hcons =>
    obtain ⟨rfl, rfl⟩ := List.cons.inj (h.free_eq.symm.trans hcons)
    exact ((h.setNext hq).setPool { x with free := rest, reserve := q :: x.reserve } rfl (congrArg (q :: ·) h.reserve_eq)).poolFell

theorem reserveToFree (h : PoolIs g free (q :: rest) ref s) (hq : q ∈ g.pages) :
    PoolIs g (q :: free) rest ref (s.reserveToFree g.n) := by
  unfold State.reserveToFree
  extract_lets x
  split
  · next hnil => exact absurd (h.reserve_eq.symm.trans hnil) (List.cons_ne_nil _ _)
  · next p r hcons =>
    obtain ⟨rfl, rfl⟩ := List.cons.inj (h.reserve_eq.symm.trans hcons)
    exact (h.setPool { x with reserve := rest } h.free_eq rfl).pushFree hq

/-- Pages pushed one after another stand in the free list the last one first. -/
theorem pushAll {l : List Nat} (h : PoolIs g free reserve ref s) (hl : ∀ p ∈ l, p ∈ g.pages) :
    PoolIs g (l.reverse ++ free) reserve ref (s.pushAll g.n l) := by
  induction l generalizing free s with
  | nil => exact h
  | cons p l ih =>
    obtain ⟨hp, hrest⟩ := List.forall_mem_cons.mp hl
    rw [List.reverse_cons, List.append_assoc]
    exact ih (h.pushFree hp) hrest

/-! The operations of R184 and R185 on a pool that conserves its pages. -/

section
variable (h : PoolIs g free reserve ref s) (hc : Conserved g.pages free reserve ref)
include h hc

theorem allocPage {t : State} (ht : s.allocPage g.n = some (t, p)) :
    ∃ rest, free = p :: rest ∧ PoolIs g rest reserve (setCount ref p 1) t ∧
      Conserved g.pages rest reserve (setCount ref p 1) := by
  unfold State.allocPage at ht
  extract_lets x at ht
  split at ht
  · exact absurd ht (by simp)
  · next q r hcons =>
    simp only [Option.some.injEq, Prod.mk.injEq] at ht
    obtain ⟨rfl, rfl⟩ := ht
    obtain rfl : free = q :: r := h.free_eq.symm.trans hcons
    obtain ⟨hq, -⟩ := hc.unreferenced q List.mem_cons_self
    refine ⟨r, rfl, ?_,
      hc.alloc g.nodup_pages⟩
    have hset := (h.setPool { x with free := r } rfl h.reserve_eq).setRef hq (v := 1) (by decide)
    exact hset.poolFell.setReg (o := R.KVS_ALLOC_COUNT) (Or.inl (by decide))

theorem addRef (hp : p ∈ g.pages) (hone : 1 ≤ ref p) (hmax : ref p < 65535) (hfree : free ≠ []) :
    ∃ free' reserve', PoolIs g free' reserve' (setCount ref p (ref p + 1)) (s.addRef g.n p) ∧
      Conserved g.pages free' reserve' (setCount ref p (ref p + 1)) := by
  obtain ⟨q, rest, rfl⟩ := List.exists_cons_of_ne_nil hfree
  obtain ⟨hq, -⟩ := hc.unreferenced q List.mem_cons_self
  refine ⟨rest, q :: reserve, ?_, hc.addRef g.nodup_pages hp hone⟩
  rw [State.addRef, h.ref_eq p hp]
  exact (h.setRef hp (by omega)).freeToReserve hq

theorem dropRef (hp : p ∈ g.pages) (hone : 1 ≤ ref p) :
    ∃ free' reserve', PoolIs g free' reserve' (setCount ref p (ref p - 1)) (s.dropRef g.n p) ∧
      Conserved g.pages free' reserve' (setCount ref p (ref p - 1)) := by
  have hlt : ref p < 65536 := h.ref_eq p hp ▸ Nat.mod_lt _ (by decide)
  have heq := h.ref_eq p hp
  by_cases htwo : 2 ≤ ref p
  · obtain ⟨q, rest, rfl⟩ := List.exists_cons_of_ne_nil (hc.reserve_ne_nil hp htwo)
    obtain ⟨hq, -⟩ := hc.unreferenced q (List.mem_append_right _ List.mem_cons_self)
    refine ⟨q :: free, rest, ?_, hc.dropShared g.nodup_pages hp htwo⟩
    rw [State.dropRef, heq, if_pos htwo]
    exact (h.setRef hp (by omega)).reserveToFree hq
  · have hlast : ref p = 1 := by omega
    refine ⟨p :: free, reserve, ?_, ?_⟩
    · rw [State.dropRef, heq, if_neg htwo, if_pos hlast, hlast]
      exact (h.setRef hp (by decide)).pushFree hp
    · rw [hlast]
      exact hc.dropLast g.nodup_pages hp hlast

end

end PoolIs


/-! ### The statement's premises and conclusions -/

/-- Where pool n lies in a state. -/
def State.poolPlace (s : State) (n : Nat) : PoolPlace :=
  ⟨n, s.reg64 pKVS (poolReg n R.KVS_POOL_META_LO), s.poolFirst n, s.poolCount n⟩

section
variable {s t : State} {n p : Nat}

theorem State.keysRise_pools (h : s.canonical = true) : keysRise s.pools = true := by
  simp only [State.canonical, Bool.and_eq_true] at h
  obtain ⟨-, hparts⟩ := h
  exact (parts_iff.mp hparts).pools

/-- A plain pool as it stands. -/
theorem State.poolIs (hcan : s.canonical = true) (hn : n < 8) (hplain : s.poolPlain n = true) :
    PoolIs (s.poolPlace n) (s.pool n).free (s.pool n).reserve (s.refcnt n) s := by
  simp only [State.poolPlain, Bool.and_eq_true, decide_eq_true_eq, Bool.not_eq_true'] at hplain
  obtain ⟨hfits, htrace⟩ := hplain
  exact {
    place := ⟨rfl, rfl, rfl⟩, plain := ⟨hn, hfits⟩, mem := State.wf_mem hcan, pools := State.keysRise_pools hcan
    untraced := ⟨State.keysRise_regs hcan, htrace⟩, free_eq := rfl, reserve_eq := rfl, ref_eq := fun _ _ => rfl }

/-- Conservation and the one changed count, as the model's fields show them. -/
theorem PoolIs.sound_update {g : PoolPlace} {v : Nat} {ref : Nat → Nat} (hp : p ∈ g.pages)
    (h : ∃ free reserve, PoolIs g free reserve (setCount ref p v) t ∧ Conserved g.pages free reserve (setCount ref p v)) :
    t.poolSound g.n = true ∧ t.refcnt g.n p = v := by
  obtain ⟨free, reserve, ht, hc⟩ := h
  exact ⟨ht.sound_iff.mpr hc, (ht.ref_eq p hp).trans (setCount_self ..)⟩

/-- An initialised pool (R177). -/
theorem poolInitDone_sound (hcan : s.canonical = true) (hn : n < 8) (hplain : s.poolPlain n = true)
    (hfree : (s.pool n).free = []) (hreserve : (s.pool n).reserve = []) (hzero : ∀ p ∈ s.poolPages n, s.pageMeta n p = 0)
    (ht : t = ((s.setPool n { s.pool n with initBusy := false }).pushAll n (s.poolPages n)).orReg pKVS (poolReg n R.KVS_POOL_CTL) 2) :
    t.poolSound n = true ∧ (t.pool n).free.length = t.poolCount n ∧ bit (t.kvReg (poolReg n R.KVS_POOL_CTL)) 1 = true := by
  have hstart := (State.poolIs hcan hn hplain).setPool { s.pool n with initBusy := false } hfree hreserve
  have hpushed : PoolIs (s.poolPlace n) ((s.poolPages n).reverse ++ []) [] (s.refcnt n)
      ((s.setPool n { s.pool n with initBusy := false }).pushAll n (s.poolPages n)) := hstart.pushAll fun p hp => hp
  rw [List.append_nil] at hpushed
  generalize (s.setPool n { s.pool n with initBusy := false }).pushAll n (s.poolPages n) = u at ht hpushed
  have hdone : PoolIs (s.poolPlace n) (s.poolPages n).reverse [] (s.refcnt n) t := by
    rw [ht]
    exact hpushed.setReg (Or.inr (by simp only [poolReg, R.KVS_POOL_CTL]; omega))
  refine ⟨hdone.sound_iff.mpr (Conserved.all_free (PoolPlace.nodup_pages _) fun p hp => ?_), ?_, ?_⟩
  · rw [State.refcnt, hzero p hp]
    rfl
  · have hlist : (t.pool n).free = (s.poolPages n).reverse := hdone.free_eq
    obtain ⟨-, -, hcount⟩ := hdone.place
    rw [hlist, List.length_reverse]
    exact (PoolPlace.length_pages _).trans hcount.symm
  · rw [ht, State.kvReg, State.orReg, State.reg_setReg_same _ hpushed.untraced.1]
    rw [bit_eq_testBit, Nat.testBit_mod_two_pow, Nat.testBit_or, show Nat.testBit 2 1 = true from rfl, Bool.or_true]
    rfl

end

/-- Settles O33: the free list, the reserve list and the reference counts of a pool change together, so that the sums stay. -/
theorem poolConserved : Obligations.PoolConserved := by
  intro s n hcan hn hplain
  have hs := State.poolIs hcan hn hplain
  refine ⟨fun hsound => ?_, fun t hbusy hruns hfree hreserve hzero he => ?_⟩
  · have hc := hs.sound_iff.mp hsound
    refine ⟨fun t p ht => ?_, fun p hp hone => ⟨fun hmax hfree => ?_, ?_⟩⟩
    · obtain ⟨rest, hcons, htis, htc⟩ := hs.allocPage hc ht
      obtain ⟨hp, hfirst⟩ := hc.unreferenced p (List.mem_append_left _ (hcons ▸ List.mem_cons_self))
      obtain ⟨hts, htref⟩ := PoolIs.sound_update hp ⟨_, _, htis, htc⟩
      refine ⟨hts, hp, hfirst, htref, ?_⟩
      rw [show (t.pool n).free = rest from htis.free_eq, hcons, List.length_cons]
    · obtain ⟨free, reserve, hadd, haddc⟩ := hs.addRef hc hp hone hmax hfree
      obtain ⟨hadds, haddref⟩ := PoolIs.sound_update hp ⟨_, _, hadd, haddc⟩
      exact ⟨hadds, haddref, _, if_neg hfree, PoolIs.sound_update hp ⟨_, _, hadd.setPins hp, haddc⟩⟩
    · obtain ⟨hdrops, hdropref⟩ := PoolIs.sound_update hp (hs.dropRef hc hp hone)
      obtain ⟨hunpins, hunpinref⟩ := PoolIs.sound_update hp ((hs.setPins (v := s.pincnt n p - 1) hp).dropRef hc hp hone)
      refine ⟨hdrops, ?_, hunpins, ?_⟩
      · rw [show (s.dropRef n p).refcnt n p = _ from hdropref]
        omega
      · rw [show (s.unpin n p).refcnt n p = _ from hunpinref]
        omega
  · have hexec : exec (.poolInitDone n) s =
        .next (((s.setPool n { s.pool n with initBusy := false }).pushAll n (s.poolPages n)).orReg pKVS (poolReg n R.KVS_POOL_CTL) 2) := by
      show execPoolInitDone _ s = _
      rw [execPoolInitDone, if_pos ⟨hbusy, hruns⟩, State.poolPages]
    rw [hexec, Host.Outcome.next.injEq] at he
    exact poolInitDone_sound hcan hn hplain hfree hreserve hzero he.symm

end Sys2Proof.Machine
end
